-- ==== Sys2Proof/Word.lean ====
section
/-! DEFINITION. The word types of the LD8 and the sparse-map type that State is made of. -/
namespace Sys2Proof

/-- One byte. -/
abbrev Byte := BitVec 8

/-- One 256-bit register word, channel payload or pool word (spec/02 R58, spec/03 R96). -/
abbrev Word := BitVec 256

/-- One 32-bit predicate (spec/01 R16). -/
abbrev Pred := BitVec 32

/-- The 112 bits of a task instruction word (spec/01 R11). -/
abbrev Tiw := BitVec 112

/-- A sparse table from a number to a value: the keys rise strictly, and no entry holds the
value that an unlisted key reads as. The value an unlisted key reads as is said where a table is read
(`Map.find`); the canonical form is `Map.wf`. -/
structure Map (α : Type) where
  cells : List (Nat × α) := []
deriving DecidableEq, Repr, Inhabited

end Sys2Proof
end

