-- ==== Sys2Proof/Config.lean ====
section
/-! DEFINITION. The free values: what the manual leaves open. Each is an uninterpreted constant,
so no proof can lean on a value of it. Each is named in notes/assumptions. -/
namespace Sys2Proof.Config

/-- The byte that DRAM shows at a location never written since power-up, read under a key
(spec/14 R405). Arguments: the reading key pair, the physical byte address. Log entry 3. -/
opaque dramByte : BitVec 256 → Nat → BitVec 8

/-- What one 16-byte block of a frame stored compressed reads as under another key pair than the one it was written with (spec/14 R401, R404: what
a wrong decryption expands to depends on the method of compression, which is not given). Arguments: writing key pair, reading key pair, physical
block number, the plain block. Log entry 4. -/
opaque crossKey : BitVec 256 → BitVec 256 → Nat → BitVec 128 → BitVec 128

/-- Cycles that pass before the next step (spec/03 R115, spec/13 R493: times that are not fixed). Log entry 5. -/
opaque elapse : Nat → Nat

/-- A free natural number: which of several allowed choices is taken (spec/08 R230, R231). Log entry 6. -/
opaque pick : Nat → Nat

/-- A random value drawn by the Saggar: SNONCE, the SM2 per-signature k, a fresh key identity
(spec/16 R471, R496). Log entry 7. -/
opaque random : Nat → BitVec 256

/-- The identity key pair that vendor provisioning derives from the secret fuses (spec/16 R467); the
derivation is not given. Argument: the secret seed words joined. Log entry 8. -/
opaque identityKey : List (BitVec 256) → Nat

/-- Whether one 4 KiB unit compresses below 4 KiB, and to how many lines (spec/14 R401: the method
is not given). Argument: a counter. Log entry 10. -/
opaque unitLines : Nat → Nat

/-- The 64-bit hash of a die's schedule replica (spec/13 R371: the hash is not given).
Argument: the replica, written as numbers. Log entry 11. -/
opaque replicaHash : List Nat → BitVec 64

/-- A sensor reading of the sideband: temperatures, powers, currents (spec/16 R460). Log entry 12. -/
opaque sensor : Nat → Nat

/-- The digest of a firmware image that the boot ROM measures (spec/16 R469: image contents are
outside the manual). Argument: 0 Saggar image A, 1 mesh microcode, 2 Saggar image B. Log entry 13. -/
opaque imageDigest : Nat → BitVec 256

/-- A value that the manual leaves without a statement; which one is the first argument, the second is a counter. Log entry 14. -/
opaque openValue : Nat → Nat → Nat

/-- How a boot step of a unit ends (spec/16 R463), an input from the world: modulo 3, 0 it succeeds, 1 it fails, 2 it hangs. Arguments: the step, the
unit, its mode, a counter. Log entry 15. -/
opaque bootEnd : Nat → Nat → Nat → Nat → Nat

/-- What a start extends a measurement register with, from the numbers that are measured (spec/16 R469: how boot modes, the
excluded-frame list and the manifests' digests are written out for their hash is not given). Arguments: the register, the
numbers. Log entry 44. -/
opaque bootDigest : Nat → List Nat → BitVec 256

/-- The 5-bit SEC-DED check of a sideband's or a tag's bits (spec/03 R96, spec/09 R268: its matrix is not given). Log entry 102. -/
opaque sidebandCheck : BitVec 12 → BitVec 5

/-- The CRC-32 of a link frame (spec/17 R478: its polynomial and bit order are not given), from bits [575:32]. Log entry 55. -/
opaque lcrc : BitVec 544 → BitVec 32

end Sys2Proof.Config
end

