-- ==== Sys2Proof/Syntax.lean ====
section
/-! DEFINITION. The steps of the LD8: one constructor per row of spec/opcode_table.json.
A row that is a task instruction carries the fields of its word less `OP` (spec/01 R11). A row that is
an operation or event of another unit carries the numbers of the units it concerns and, where it is an
input from outside, what comes in. Unit numbers are global: die d is 0-7; cluster 16d + 4y + x; core
16·cluster + 4y + x; PE and router 16·core + 4y + x; memory node and address generator 4·core + k; Kiln and
granule 4·cluster + q; Comet 2·cluster + k; stack 3d + j; mesh router 16Y + X (log entry 1). -/
namespace Sys2Proof

/-- The fields of a task instruction word other than `OP` (spec/01 R11). -/
structure Fields where
  /-- `NXT`, bits [103:101]. -/
  nxt : BitVec 3 := 0
  /-- `TGT`, bits [100:93]. -/
  tgt : BitVec 8 := 0
  /-- `PQ`, bits [92:90]. -/
  pq : BitVec 3 := 0
  /-- `PG`, bit [89]. -/
  pg : Bool := false
  /-- `FMT`, bits [88:84]. -/
  fmt : BitVec 5 := 0
  /-- `MOD`, bits [83:80]. -/
  mod : BitVec 4 := 0
  /-- `D`, bits [79:72]. -/
  d : BitVec 8 := 0
  /-- `A`, bits [71:64]. -/
  a : BitVec 8 := 0
  /-- `B`, bits [63:56]. -/
  b : BitVec 8 := 0
  /-- `C`, bits [55:48]. -/
  c : BitVec 8 := 0
  /-- `X`, bits [47:0]. -/
  x : BitVec 48 := 0
deriving DecidableEq, Repr, Inhabited

/-- What an exchange write carries beside its bytes: per frame of a raw one the lines of each unit, none for a frame stored plain (spec/17 R487), and
whether it is the poison pattern of a staged line that has failed (spec/14 R412). -/
structure ExchForm where
  units : List (List Nat) := []
  pattern : Bool := false
deriving DecidableEq, Repr

/-- One step of the machine: a task instruction, or an operation or event of another unit. -/
inductive Instr where
  /-- `NOP` (R122). Does nothing; every operand is ignored. -/
  | nop (w : Fields)
  /-- `MOV` (R122). Copies each lane of A to D bit for bit. -/
  | mov (w : Fields)
  /-- `LDI` (R122). Writes the immediate, expanded under R22, to every lane of D. -/
  | ldi (w : Fields)
  /-- `LDIH` (R122). Sets the top 16 bits of each lane of a register word from IMM[15:0] and keeps the other bits. -/
  | ldih (w : Fields)
  /-- `LDL` (R122). Reads a literal store entry into D[111:0] and zeroes the rest of D. -/
  | ldl (w : Fields)
  /-- `LEA` (R122). Computes A + (B << shift) + C in each lane, modulo the lane width. -/
  | lea (w : Fields)
  /-- `ADD` (R123). Adds A and B in each lane and fits the result. -/
  | add (w : Fields)
  /-- `ADDC` (R124). Adds A, B and a carry from predicate qc in each lane and writes the carry out back to qc. -/
  | addc (w : Fields)
  /-- `SUB` (R123). Subtracts B from A in each lane and fits the result. -/
  | sub (w : Fields)
  /-- `SUBB` (R124). Subtracts B and a borrow from qc from A in each lane and writes the borrow out back to qc. -/
  | subb (w : Fields)
  /-- `NEG` (R123). Negates each lane, with optional saturation. -/
  | neg (w : Fields)
  /-- `ABS` (R123). Takes the absolute value of each lane, with optional saturation. -/
  | abs (w : Fields)
  /-- `MIN` (R123). Writes the lane-wise minimum of A and B. -/
  | min (w : Fields)
  /-- `MAX` (R123). Writes the lane-wise maximum of A and B. -/
  | max (w : Fields)
  /-- `CLAMP` (R123). Writes min(max(A, B), C) in each lane. -/
  | clamp (w : Fields)
  /-- `MUL` (R123). Multiplies A by B in each lane and fits the low result, with optional saturation. -/
  | mul (w : Fields)
  /-- `MULH` (R123). Writes the upper w bits of the exact product of A and B in each lane. -/
  | mulh (w : Fields)
  /-- `MAD` (R125). Computes A·B + C exactly in each lane and fits it once. -/
  | mad (w : Fields)
  /-- `DIV` (R126). Divides A by B in each lane, truncating toward zero, and emits DIV_ZERO poison on a zero divisor unless .nz is set. -/
  | div (w : Fields)
  /-- `REM` (R126). Writes the truncated remainder of A by B in each lane, emitting DIV_ZERO poison on a zero divisor unless .nz is set. -/
  | rem (w : Fields)
  /-- `ADDS` (R123). Adds A and B in each lane, always clamping to the range. -/
  | adds (w : Fields)
  /-- `SUBS` (R123). Subtracts B from A in each lane, always clamping to the range. -/
  | subs (w : Fields)
  /-- `AVG` (R123). Writes floor((A + B + 1) / 2) in each lane. -/
  | avg (w : Fields)
  /-- `ABSD` (R123). Writes |A − B| modulo 2^w in each lane. -/
  | absd (w : Fields)
  /-- `SAD` (R123). Adds the sum over all lanes of |A − B| to scalar C and writes a scalar result. -/
  | sad (w : Fields)
  /-- `WMUL` (R127). Multiplies half the lanes of A and B into double-width lanes of D. -/
  | wmul (w : Fields)
  /-- `WADD` (R127). Adds half the narrow lanes of B to the wide lanes of A and fits the sum. -/
  | wadd (w : Fields)
  /-- `DOTI` (R127). Adds four-element 8-bit dot products of A and B to eight 32-bit lanes of C. -/
  | doti (w : Fields)
  /-- `AND` (R128). Writes the bitwise and of A and B. -/
  | and (w : Fields)
  /-- `OR` (R128). Writes the bitwise or of A and B. -/
  | or (w : Fields)
  /-- `XOR` (R128). Writes the bitwise exclusive or of A and B. -/
  | xor (w : Fields)
  /-- `ANDN` (R128). Writes A & ~B. -/
  | andn (w : Fields)
  /-- `ORN` (R128). Writes A | ~B. -/
  | orn (w : Fields)
  /-- `SHL` (R128). Shifts each lane of A left by the count in B, with optional saturation. -/
  | shl (w : Fields)
  /-- `SHR` (R128). Shifts each lane of A right logically by the count in B. -/
  | shr (w : Fields)
  /-- `SAR` (R128). Shifts each lane of A right arithmetically by the count in B. -/
  | sar (w : Fields)
  /-- `ROL` (R128). Rotates each lane of A left by the count in B modulo w. -/
  | rol (w : Fields)
  /-- `BFX` (R129). Extracts a bit field of A and sign-extends or zero-extends it. -/
  | bfx (w : Fields)
  /-- `BFI` (R129). Replaces a bit field of A with the low bits of B. -/
  | bfi (w : Fields)
  /-- `POPC` (R128). Counts the 1 bits of each lane. -/
  | popc (w : Fields)
  /-- `CLZ` (R128). Counts the leading zero bits of each lane. -/
  | clz (w : Fields)
  /-- `CTZ` (R128). Counts the trailing zero bits of each lane. -/
  | ctz (w : Fields)
  /-- `BREV` (R128). Reverses the bit order of each lane. -/
  | brev (w : Fields)
  /-- `CMP` (R130). Compares A with B in each lane and writes predicate qd. -/
  | cmp (w : Fields)
  /-- `SEL` (R131). Selects A or B in each lane by predicate qc. -/
  | sel (w : Fields)
  /-- `SEXT` (R128). Sign-extends the low b bits of each lane. -/
  | sext (w : Fields)
  /-- `ZEXT` (R128). Zero-extends the low b bits of each lane. -/
  | zext (w : Fields)
  /-- `PACKS` (R132). Narrows the lanes of A and B with saturation into one word. -/
  | packs (w : Fields)
  /-- `QAND` (R133). Writes the and of two predicates. -/
  | qand (w : Fields)
  /-- `QOR` (R133). Writes the or of two predicates. -/
  | qor (w : Fields)
  /-- `QXOR` (R133). Writes the exclusive or of two predicates. -/
  | qxor (w : Fields)
  /-- `QNOT` (R133). Writes the complement of a predicate. -/
  | qnot (w : Fields)
  /-- `QMOV` (R133). Copies a predicate, bits [31:0] of a source word or an immediate into qd. -/
  | qmov (w : Fields)
  /-- `QANY` (R133). Sets qd to all ones if qa is non-zero, otherwise to zero. -/
  | qany (w : Fields)
  /-- `LCSET` (R133). Sets a loop counter from a scalar source. -/
  | lcset (w : Fields)
  /-- `LCGET` (R133). Reads a loop counter as a scalar result. -/
  | lcget (w : Fields)
  /-- `FADD` (R159). Adds floating-point lanes with one rounding. -/
  | fadd (w : Fields)
  /-- `FSUB` (R159). Subtracts floating-point lanes with one rounding. -/
  | fsub (w : Fields)
  /-- `FMUL` (R159). Multiplies floating-point lanes with one rounding. -/
  | fmul (w : Fields)
  /-- `FMA` (R159). Computes A·B + C in each lane with one rounding. -/
  | fma (w : Fields)
  /-- `FMS` (R159). Computes A·B − C in each lane with one rounding. -/
  | fms (w : Fields)
  /-- `FNMA` (R159). Computes −(A·B) + C in each lane with one rounding. -/
  | fnma (w : Fields)
  /-- `FNMS` (R159). Computes −(A·B) − C in each lane with one rounding. -/
  | fnms (w : Fields)
  /-- `FDIV` (R159). Divides floating-point lanes with one rounding. -/
  | fdiv (w : Fields)
  /-- `FMIN` (R160). Writes the smaller lane, or the canonical NaN if any operand is a NaN. -/
  | fmin (w : Fields)
  /-- `FMAX` (R160). Writes the larger lane, or the canonical NaN if any operand is a NaN. -/
  | fmax (w : Fields)
  /-- `FMINN` (R160). Writes the smaller number, ignoring a single NaN operand. -/
  | fminn (w : Fields)
  /-- `FMAXN` (R160). Writes the larger number, ignoring a single NaN operand. -/
  | fmaxn (w : Fields)
  /-- `FABS` (R161). Clears the sign bit of each lane. -/
  | fabs (w : Fields)
  /-- `FNEG` (R161). Inverts the sign bit of each lane. -/
  | fneg (w : Fields)
  /-- `FCPYS` (R161). Combines the magnitude bits of A with the sign bit of B. -/
  | fcpys (w : Fields)
  /-- `FCMP` (R163). Compares floating-point lanes and writes predicate qd. -/
  | fcmp (w : Fields)
  /-- `FCLASS` (R164). Writes a one-hot class code for each floating-point lane. -/
  | fclass (w : Fields)
  /-- `FRINT` (R162). Rounds each lane to an integral value in the selected mode. -/
  | frint (w : Fields)
  /-- `FDOT` (R165). Forms pairwise bf16 or f16 dot products and adds them to eight f32 lanes with two roundings. -/
  | fdot (w : Fields)
  /-- `VRED` (R168). Reduces the lanes of A by a tree into lane 0 of D. -/
  | vred (w : Fields)
  /-- `VSCAN` (R169). Writes the running prefix results of A lane by lane. -/
  | vscan (w : Fields)
  /-- `VPERM` (R171). Picks each lane of D from A or B by the index in C. -/
  | vperm (w : Fields)
  /-- `VSHUF` (R170). Shuffles lanes within each group of four by a fixed pattern. -/
  | vshuf (w : Fields)
  /-- `VBCAST` (R170). Copies one lane of A to every lane of D. -/
  | vbcast (w : Fields)
  /-- `VSEL` (R170). Selects bits from A or B by the bit mask C. -/
  | vsel (w : Fields)
  /-- `VINS` (R170). Inserts lane 0 of A into lane k of a copy of B. -/
  | vins (w : Fields)
  /-- `VEXT` (R170). Extracts lane k of A into lane 0 of D and zeroes the rest. -/
  | vext (w : Fields)
  /-- `VROT` (R172). Rotates the lanes of a word or the bits of a predicate by a scalar count. -/
  | vrot (w : Fields)
  /-- `VCMPR` (R173). Packs the lanes selected by a predicate down to the low lanes. -/
  | vcmpr (w : Fields)
  /-- `VEXPD` (R173). Spreads the low lanes of A to the lanes selected by a predicate. -/
  | vexpd (w : Fields)
  /-- `VZIP` (R170). Interleaves half the lanes of A and B. -/
  | vzip (w : Fields)
  /-- `VUNZIP` (R170). De-interleaves the even or odd lanes of A and B. -/
  | vunzip (w : Fields)
  /-- `VSORT` (R174). Sorts the lanes of A stably into D. -/
  | vsort (w : Fields)
  /-- `VIOTA` (R175). Writes to each lane the count of set predicate bits below it. -/
  | viota (w : Fields)
  /-- `VMASK` (R175). Sets the predicate bits of the lanes below a scalar count. -/
  | vmask (w : Fields)
  /-- `CVT` (R178). Converts between two floating-point formats or between two integer formats. -/
  | cvt (w : Fields)
  /-- `CVTFI` (R179). Converts floating-point lanes to integers with rounding and clamping. -/
  | cvtfi (w : Fields)
  /-- `CVTIF` (R180). Converts integer lanes to floating point with rounding. -/
  | cvtif (w : Fields)
  /-- `LGENC` (R181). Encodes floating-point lanes into lg6 bytes. -/
  | lgenc (w : Fields)
  /-- `LGDEC` (R181). Decodes lg6 bytes exactly into floating-point lanes. -/
  | lgdec (w : Fields)
  /-- `LGMUL` (R182). Writes the lg6 encoding of the lg6 product of each byte pair. -/
  | lgmul (w : Fields)
  /-- `T5PACK` (R184). Packs the signs of the lanes of A into trits of D. -/
  | t5pack (w : Fields)
  /-- `T5UNPK` (R183). Unpacks trits into signed lanes, emitting T5_RESERVED poison on a reserved byte. -/
  | t5unpk (w : Fields)
  /-- `RCP` (R185). Writes the correctly rounded reciprocal of each lane. -/
  | rcp (w : Fields)
  /-- `RSQ` (R185). Writes the correctly rounded reciprocal square root of each lane. -/
  | rsq (w : Fields)
  /-- `SQRT` (R185). Writes the correctly rounded square root of each lane. -/
  | sqrt (w : Fields)
  /-- `EXP2` (R185). Writes the correctly rounded 2^x of each lane. -/
  | exp2 (w : Fields)
  /-- `LG2` (R185). Writes the correctly rounded log2 of each lane. -/
  | lg2 (w : Fields)
  /-- `SINPI` (R185). Writes the correctly rounded sin(πx) of each lane. -/
  | sinpi (w : Fields)
  /-- `COSPI` (R185). Writes the correctly rounded cos(πx) of each lane. -/
  | cospi (w : Fields)
  /-- `TANH` (R185). Writes the correctly rounded tanh of each lane. -/
  | tanh (w : Fields)
  /-- `ERF` (R185). Writes the correctly rounded erf of each lane. -/
  | erf (w : Fields)
  /-- `AMAXV` (R186). Forms the amax contribution of the enabled lanes and merges it with a running word. -/
  | amaxv (w : Fields)
  /-- `FSCALEB` (R166). Multiplies each lane by 2^n with one rounding. -/
  | fscaleb (w : Fields)
  /-- `FGETEXP` (R166). Writes floor(log2 |A|) of each lane as a value of the format. -/
  | fgetexp (w : Fields)
  /-- `LD` (R237). Loads one pool tensor element through a memory node, blocking. -/
  | ld (w : Fields)
  /-- `ST` (R237). Posts a store of one pool tensor element to a memory node. -/
  | st (w : Fields)
  /-- `LDV` (R237). Loads 32 aligned pool bytes through a memory node, blocking. -/
  | ldv (w : Fields)
  /-- `STV` (R237). Posts a store of 32 aligned pool bytes to a memory node. -/
  | stv (w : Fields)
  /-- `ATOM` (R238). Posts an atomic operation on one pool element. -/
  | atom (w : Fields)
  /-- `ATOMR` (R238). Performs an atomic operation on one pool element and returns the old value, blocking. -/
  | atomr (w : Fields)
  /-- `CAS` (R238). Compares a pool element with B and swaps in C on a match, returning the old value. -/
  | cas (w : Fields)
  /-- `HINS` (R240). Inserts an entry into a bounded pool heap through an ORDERED node and reports acceptance. -/
  | hins (w : Fields)
  /-- `COPY` (R239). Posts a memmove of n pool bytes between two pool tensors. -/
  | copy (w : Fields)
  /-- `FILL` (R239). Posts a fill of n pool bytes with a repeated 32-byte word. -/
  | fill (w : Fields)
  /-- `FENCE` (R241). Holds issue until the task's earlier memory requests have performed at a scope, then writes a completion token. -/
  | fence (w : Fields)
  /-- `ADV` (R243). Advances a port's window by n tokens, consuming inputs or publishing outputs. -/
  | adv (w : Fields)
  /-- `EMIT` (R244). Writes a value into the first output window slot and publishes it. -/
  | emit (w : Fields)
  /-- `EMITM` (R245). Publishes a marker on a fully advanced output port. -/
  | emitm (w : Fields)
  /-- `TESTM` (R246). Waits for the token after an input window and reports whether it is a marker. -/
  | testm (w : Fields)
  /-- `NXTILE` (R247). Takes the next work-tile record from a schedule cursor, or END after the last. -/
  | nxtile (w : Fields)
  /-- `SOPEN` (R289). Opens a stream register on a run of HBM tensor elements. -/
  | sopen (w : Fields)
  /-- `SADV` (R289). Advances a stream's position by n elements. -/
  | sadv (w : Fields)
  /-- `STEND` (R289). Tests whether a stream has ended or is poisoned. -/
  | stend (w : Fields)
  /-- `SCLOSE` (R289). Closes a stream and discards its buffered and pending fetches. -/
  | sclose (w : Fields)
  /-- `SREAD` (R290). Waits for buffered stream or fibre bytes and writes a whole word. -/
  | sread (w : Fields)
  /-- `FOPEN` (R291). Reads a row's pointers and opens a fibre register on it. -/
  | fopen (w : Fields)
  /-- `FADV` (R289). Advances a fibre's position by n elements. -/
  | fadv (w : Fields)
  /-- `FTEND` (R289). Tests whether a fibre has ended or is poisoned. -/
  | ftend (w : Fields)
  /-- `FCLOSE` (R289). Closes a fibre and discards its buffered and pending fetches. -/
  | fclose (w : Fields)
  /-- `FISECT` (R292). Merges two fibres by coordinate and writes up to eight common coordinates. -/
  | fisect (w : Fields)
  /-- `FISECTC` (R292). Merges two fibres to their end and writes the count of common coordinates. -/
  | fisectc (w : Fields)
  /-- `TCLAIM` (R332). Claims the lowest run of n free operand slots for the domain. -/
  | tclaim (w : Fields)
  /-- `TREL` (R332). Releases n operand slots at once or when their pins and fills end. -/
  | trel (w : Fields)
  /-- `TFILL` (R333). Starts filling a whole operand slot from an HBM or pool tensor. -/
  | tfill (w : Fields)
  /-- `TTASK` (R334). Enqueues a Kiln record, checking it and pinning its slots. -/
  | ttask (w : Fields)
  /-- `TWAIT` (R335). Waits until a Kiln counter reaches a count and writes a completion token. -/
  | twait (w : Fields)
  /-- `TSTAT` (R338). Reads a Kiln counter or the cluster's Kiln status. -/
  | tstat (w : Fields)
  /-- `SCACC` (R339). Computes C + a·B per lane with one rounding. -/
  | scacc (w : Fields)
  /-- `SCALE` (R339). Computes a·B·C per lane with one rounding. -/
  | scale (w : Fields)
  /-- `OVFCFG` (R337). Sets the granule's overflow limits ELIM and CLIM. -/
  | ovfcfg (w : Fields)
  /-- `TDEP` (R336). Sets a Kiln counter and clears its status, returning the old count. -/
  | tdep (w : Fields)
  /-- `TDEP_ADD` (R336). Adds to a Kiln counter with saturation, returning the old count. -/
  | tdepAdd (w : Fields)
  /-- `CPY` (R296). Posts a Comet copy of n bytes between HBM and pool tensors. -/
  | cpy (w : Fields)
  /-- `GATH` (R297). Posts a gather of listed HBM elements into a pool tensor. -/
  | gath (w : Fields)
  /-- `SCAT` (R297). Posts a scatter of pool elements to listed HBM elements. -/
  | scat (w : Fields)
  /-- `FGRD` (R299). Reads 8 or 16 aligned HBM bytes, blocking. -/
  | fgrd (w : Fields)
  /-- `FGWR` (R299). Posts a write of 8 or 16 aligned HBM bytes. -/
  | fgwr (w : Fields)
  /-- `XCHG` (R300). Posts a send of n bytes to an HBM tensor of the same context on a module. -/
  | xchg (w : Fields)
  /-- `XCHG_RAW` (R300). Posts a send of whole frames as stored, checked against frame alignment and RAWX. -/
  | xchgRaw (w : Fields)
  /-- `RATOM` (R301). Performs an atomic on an HBM element of a module and returns the old value and status. -/
  | ratom (w : Fields)
  /-- `CWAIT` (R302). Waits until a completion counter reaches n, subtracts n and writes a completion token. -/
  | cwait (w : Fields)
  /-- `RESUME` (R282). Retries the access parked at a Comet port after dropping its cached translations. -/
  | resume (w : Fields)
  /-- `RESUME_FAIL` (R282). Abandons the access parked at a Comet port as a TRANSLATION failure. -/
  | resumeFail (w : Fields)
  /-- `PREF` (R303). Asks the Comet to fill the tile cache with up to 2 MiB of a tensor. -/
  | pref (w : Fields)
  /-- `BARA` (R141). Arms a barrier counter with an expected count. -/
  | bara (w : Fields)
  /-- `BARW` (R142). Arrives at a barrier and tests whether its generation has been released. -/
  | barw (w : Fields)
  /-- `BARW_T` (R142). Tests a barrier's release for the task's pending arrival without arriving. -/
  | barwT (w : Fields)
  /-- `BAREX` (R143). Removes the task from a barrier's membership and withdraws its open arrival. -/
  | barex (w : Fields)
  /-- `LAUNCH` (R144). Enqueues a launch packet address on the die's LAUNCH queue for the domain. -/
  | launch (w : Fields)
  /-- `TRAP` (R145). Emits a USER_TRAP poison token carrying a 16-bit code. -/
  | trap (w : Fields)
  /-- `CSRR` (R137). Reads a system register as a scalar result. -/
  | csrr (w : Fields)
  /-- `CSRW` (R138). Writes a system register and holds issue until the write has performed at its scope. -/
  | csrw (w : Fields)
  /-- `EVLOG` (R146). Appends an event to the die's black box ring if its class is enabled. -/
  | evlog (w : Fields)
  /-- `MEXT` (R148). Sends a request to extend a measurement register with a 256-bit word. -/
  | mext (w : Fields)
  /-- `ATTEST` (R149). Queues a Saggar attestation request on a request block. -/
  | attest (w : Fields)
  /-- `SAGVFY_UNLOCK` (R149). Queues a Saggar request to verify a debug-unlock token. -/
  | sagvfyUnlock (w : Fields)
  /-- `SAGVFY_MANIFEST` (R149). Queues a Saggar request to verify a firmware manifest. -/
  | sagvfyManifest (w : Fields)
  /-- `KEYWIPE` (R151). Crypto-erases one SM4-XTS key slot in every memory controller. -/
  | keywipe (w : Fields)
  /-- `KEYWIPE_ALL` (R151). Crypto-erases all 1,024 key slots. -/
  | keywipeAll (w : Fields)
  /-- `DBGOPEN` (R152). Opens the debug port if a verified token is held and all slots have been wiped. -/
  | dbgopen (w : Fields)
  /-- `FUSERD` (R150). Reads a non-secret fuse word. -/
  | fuserd (w : Fields)
  /-- `YIELD` (R147). Suspends the firing, to resume at the entry NXT selects. -/
  | yield (w : Fields)
  /-- `WDOG` (R153). Sets a domain's pre-emption watchdog limit. -/
  | wdog (w : Fields)
  /-- `ILLEGAL_OP` (R27). Issue of an unassigned opcode emits ILLEGAL_OP poison and sequences by NXT. -/
  | illegalOp (op : BitVec 8) (w : Fields)
  /-- `EXEC_LITERAL` (R111). Reaching a literal entry ends the firing and completes its windows with EXEC_LITERAL poison. -/
  | execLiteral (data : Tiw)
  /-- `DATA_FIRING_START` (R101). The PE chooses a READY task and begins a data firing, setting its windows. -/
  | dataFiringStart (pe : Nat)
  /-- `MARKER_FIRING` (R108). A task consumes the head markers, resets its firing state and emits the largest marker value. -/
  | markerFiring (pe : Nat)
  /-- `SUSPENDED_RESUME` (R112). A suspended firing is chosen again and resumes at PC with its windows intact. -/
  | suspendedResume (pe : Nat)
  /-- `REALIGN_START` (R100). A misaligned task enters REALIGN. -/
  | realignStart (pe : Nat) (slot : Nat)
  /-- `REALIGN_DISCARD` (R100). A realigning task discards a data token at an input head, posting any poison record. -/
  | realignDiscard (pe : Nat) (slot : Nat) (port : Nat)
  /-- `REALIGN_POISON_EMIT` (R100). A realigning task emits RATE_MISMATCH poison on an output once it has a free slot. -/
  | realignPoisonEmit (pe : Nat) (slot : Nat) (port : Nat)
  /-- `TIMING_DETECTOR_FLAG` (R195). A shadow-latch detector flags a late transition and its stage repeats at half clock. -/
  | timingDetectorFlag (kind : Nat) (unit : Nat)
  /-- `LOCAL_PORT_DELIVER` (R200). A router's local port writes one token into a PE input handle or island port. -/
  | localPortDeliver (router : Nat)
  /-- `LOCAL_PORT_TAKE` (R200). A router's local port takes one published token from a PE output handle or island port. -/
  | localPortTake (router : Nat)
  /-- `ROUTE_HOP` (R201). A route copies one token across a router link or into an operator input. -/
  | routeHop (router : Nat) (out : Nat) (port : Nat)
  /-- `ELEMENT_PORT_TRANSFER` (R203). The element port of a router moves one token to or from a memory node or address generator. -/
  | elementPortTransfer (router : Nat) (dir : Nat)
  /-- `PASS_FIRING` (R209). PASS forwards a data token. -/
  | passFiring (router : Nat) (slot : Nat)
  /-- `STEER_FIRING` (R209). STEER routes a data token to t or f by its control token. -/
  | steerFiring (router : Nat) (slot : Nat)
  /-- `MERGE_FIRING` (R209). MERGE emits the head of the input its control token selects. -/
  | mergeFiring (router : Nat) (slot : Nat)
  /-- `FORK_FIRING` (R209). FORK emits a copy of a data token on each output. -/
  | forkFiring (router : Nat) (slot : Nat)
  /-- `JOIN_FIRING` (R209). JOIN consumes one token from each used input and emits the in0 token. -/
  | joinFiring (router : Nat) (slot : Nat)
  /-- `GATE_FIRING` (R209). GATE releases one in token per true control token. -/
  | gateFiring (router : Nat) (slot : Nat)
  /-- `FILTER_FIRING` (R209). FILTER passes or drops a data token by its control token. -/
  | filterFiring (router : Nat) (slot : Nat)
  /-- `OPERATOR_MARKER_FIRING` (R211). A stateless operator consumes markers on all inputs and emits the largest on every output. -/
  | operatorMarkerFiring (router : Nat) (slot : Nat)
  /-- `OPERATOR_REALIGN_DISCARD` (R211). A misaligned operator discards a data token at an input head. -/
  | operatorRealignDiscard (router : Nat) (slot : Nat)
  /-- `CARRY_FIRING` (R213). CARRY performs one transition of its INIT, LOOP or MWAIT state machine. -/
  | carryFiring (router : Nat) (slot : Nat)
  /-- `IREP_FIRING` (R214). IREP performs one transition of its EMPTY, HOLD or MWAIT state machine. -/
  | irepFiring (router : Nat) (slot : Nat)
  /-- `LOOPGEN_LOAD` (R215). LOOPGEN in IDLE consumes a count, poison or marker. -/
  | loopgenLoad (router : Nat) (slot : Nat)
  /-- `LOOPGEN_EMIT` (R215). LOOPGEN in COUNT emits a true token or its final false token. -/
  | loopgenEmit (router : Nat) (slot : Nat)
  /-- `SINK_FIRING` (R216). SINK consumes and drops a token, posting poison and optionally forwarding markers. -/
  | sinkFiring (router : Nat) (slot : Nat)
  /-- `MCUT_PASS` (R217). MCUT passes one token and enters CUT when ARMED at a marker. -/
  | mcutPass (router : Nat) (slot : Nat)
  /-- `MCUT_GATING_REQUEST` (R217). A gating request from the dispatcher arms an MCUT. -/
  | mcutGatingRequest (router : Nat) (slot : Nat)
  /-- `MCUT_RELEASE` (R217). A release from the dispatcher returns an MCUT to OPEN. -/
  | mcutRelease (router : Nat) (slot : Nat)
  /-- `MEMNODE_ACCEPT` (R228). A memory node accepts a request from a port or a PE. -/
  | memnodeAccept (node : Nat) (port : Nat)
  /-- `MEMNODE_PERFORM` (R230). An accepted request performs at its bank in the order the node's mode allows. -/
  | memnodePerform (node : Nat) (index : Nat)
  /-- `MEMNODE_RESULT_EMIT` (R230). A node emits a result or completion on rd, ack or ak in acceptance order. -/
  | memnodeResultEmit (node : Nat) (port : Nat)
  /-- `MEMNODE_MARKER` (R232). A node passes a marker on rd, ack or ak after all earlier results. -/
  | memnodeMarker (node : Nat) (port : Nat)
  /-- `MEMNODE_PAIR_REALIGN` (R232). A node discards data of one port of a pair up to its marker and emits RATE_MISMATCH. -/
  | memnodePairRealign (node : Nat) (pair : Nat)
  /-- `POOL_ECC_WRITEBACK` (R251). A corrected pool word is written back in the bank's next free cycle. -/
  | poolEccWriteback (core : Nat) (word : Nat)
  /-- `AGEN_SWEEP_START` (R270). An untriggered address generator starts its single sweep when the region enters RUNNING. -/
  | agenSweepStart (agen : Nat)
  /-- `AGEN_TRIGGER` (R270). A token on trig starts a sweep, or passes a marker or poison. -/
  | agenTrigger (agen : Nat)
  /-- `AGEN_EMIT` (R269). An address generator emits the request token of its next index tuple. -/
  | agenEmit (agen : Nat)
  /-- `AGEN_GATING_REQUEST` (R271). A gating request stops an address generator after its next marker. -/
  | agenGatingRequest (agen : Nat)
  /-- `GLAZE_ACCEPT` (R256). A Glaze island takes a token into its pipeline. -/
  | glazeAccept (core : Nat)
  /-- `GLAZE_OUTPUT` (R256). A decoded token enters the Glaze output buffer three cycles after entry. -/
  | glazeOutput (core : Nat)
  /-- `BARRIER_PERFORM` (R364). A barrier operation performs at a cluster, die or package counter L cycles after issue. -/
  | barrierPerform (index : Nat)
  /-- `TRAP_QUEUE_WRITE` (R415). The hub writer writes a trap record into the domain's queue or counts it LOST. -/
  | trapQueueWrite
  /-- `COMET_ACCESS` (R276). A Comet translates and checks an access and performs it. -/
  | cometAccess (comet : Nat) (port : Nat) (index : Nat)
  /-- `GRAPH_PORT_ACCEPT` (R279). A Comet graph port group accepts a request token. -/
  | graphPortAccept (comet : Nat) (port : Nat)
  /-- `GRAPH_PORT_RESULT` (R279). A Comet graph port emits a result, completion or marker. -/
  | graphPortResult (comet : Nat) (port : Nat)
  /-- `COMET_COMMAND_PERFORM` (R295). A queued Comet command passes translation and performs. -/
  | cometCommandPerform (core : Nat) (index : Nat)
  /-- `STREAM_FETCH` (R343). A stream or fibre register fetches a line of its run ahead of demand. -/
  | streamFetch (core : Nat) (reg : Nat) (half : Nat)
  /-- `STREAM_FETCH_RETURN` (R293). A fetched line returns, or a failed metadata read poisons the register. -/
  | streamFetchReturn (core : Nat) (reg : Nat) (half : Nat) (line : Nat)
  /-- `GATHER_UNIT_SERVE` (R298). A stack's gather unit collects its entries and returns them packed. -/
  | gatherUnitServe (stack : Nat)
  /-- `KILN_SUBTILE_ISSUE` (R316). The Kiln scheduler hands the lowest unissued sub-tile of the oldest ready record to a free Kiln. -/
  | kilnSubtileIssue (cluster : Nat)
  /-- `KILN_RECORD_FAIL_READY` (R316). A ready record naming a FAILED slot fails when it becomes the oldest ready record. -/
  | kilnRecordFailReady (cluster : Nat)
  /-- `KILN_SUBTILE_START` (R305). A sub-tile starts computing 16 cycles after issue. -/
  | kilnSubtileStart (kiln : Nat)
  /-- `KILN_STEP` (R305). A Kiln performs one k step of a sub-tile. -/
  | kilnStep (kiln : Nat)
  /-- `KILN_SPILL_END` (R325). A 40-cycle spill completes and the overflowing step is repeated. -/
  | kilnSpillEnd (kiln : Nat)
  /-- `KILN_DRAIN` (R325). A finished sub-tile drains its results to the accumulator partition. -/
  | kilnDrain (kiln : Nat)
  /-- `KILN_RECORD_COMPLETE` (R313). A record completes, unpinning slots, signalling its counter and emitting its completion token. -/
  | kilnRecordComplete (cluster : Nat) (index : Nat)
  /-- `KILN_SUBTILE_MIGRATE` (R317). A record waiting longer than MIGRATE_WAIT migrates a sub-tile to a neighbour cluster. -/
  | kilnSubtileMigrate (cluster : Nat)
  /-- `TFILL_SOURCE_CHECK` (R333). The fill's source descriptor or tensor entry is read and checked. -/
  | tfillSourceCheck (cluster : Nat) (slot : Nat)
  /-- `TFILL_COMPLETE` (R333). A slot becomes FULL when every byte is written, or FAILED on a failing part. -/
  | tfillComplete (cluster : Nat) (slot : Nat)
  /-- `MESH_FLIT_HOP` (R358). A mesh output grants one flit and writes it into the next router. -/
  | meshFlitHop (router : Nat) (out : Nat)
  /-- `PACKET_AGE_PROMOTE` (R361). A head packet's age reaches AGE_PROMOTE and it becomes promoted. -/
  | packetAgePromote (router : Nat) (input : Nat) (vc : Nat)
  /-- `MESH_CRC_REPLAY` (R359). A flit failing its CRC is replayed from the sender's buffer. -/
  | meshCrcReplay (router : Nat) (dir : Nat) (ok : Bool)
  /-- `CONTROLLER_READ` (R397). A memory controller reads a line, decrypting and expanding it. -/
  | controllerRead (controller : Nat)
  /-- `PARITY_REBUILD` (R397). A parity engine rebuilds a lost line from the other seven of its stripe line. -/
  | parityRebuild (line : Nat)
  /-- `CONTROLLER_WRITE` (R398). A controller registers a write at the parity engine and writes the new line. -/
  | controllerWrite (controller : Nat)
  /-- `PARITY_UPDATE` (R398). The parity engine XORs a write's difference into the parity line. -/
  | parityUpdate (index : Nat)
  /-- `TAG_UE` (R408). An uncorrectable domain tag acts on every domain on the structure's occupancy list. -/
  | tagUe (code : Nat) (unit : Nat)
  /-- `LOADER_FRAME_READ` (R47). A loader reads and checks one frame and writes it into its elements. -/
  | loaderFrameRead (cluster : Nat)
  /-- `CONFIG_CACHE_LOOKUP` (R368). After reading the END pair, the loader looks up the image in the configuration cache. -/
  | configCacheLookup (cluster : Nat)
  /-- `QUIESCENCE_SWEEP` (R366). The quiescence tree sweeps every region and declares parts quiescent. -/
  | quiescenceSweep (die : Nat)
  /-- `DIE_HEARTBEAT` (R390). A die sends its heartbeat to the hub every 4,096 cycles. -/
  | dieHeartbeat (die : Nat)
  /-- `HEARTBEAT_MISSING` (R390). Four missing heartbeats make the hub declare a die lost. -/
  | heartbeatMissing (die : Nat)
  /-- `DEADLOCK_TIMEOUT` (R389). A part inactive in every way for 2^20 cycles posts ERROR with DEADLOCK. -/
  | deadlockTimeout (die : Nat) (dom : Nat) (disp : Nat)
  /-- `WATCHDOG_EXPIRY` (R388). A part still GATING after the watchdog limit posts WATCHDOG. -/
  | watchdogExpiry (die : Nat) (dom : Nat)
  /-- `HUB_TICK` (R371). The hub posts a TICK notice every 512 cycles. -/
  | hubTick
  /-- `LAUNCH_NOTICE_APPLY` (R421). Each die applies a LAUNCH notice, checking the packet and entering its dispatches. -/
  | launchNoticeApply (die : Nat)
  /-- `TICK_NOTICE_APPLY` (R373). Each die applies a TICK, promoting aged dispatches and posting its DIGEST. -/
  | tickNoticeApply (die : Nat)
  /-- `LOADED_NOTICE_APPLY` (R376). Each die applies a LOADED notice, starting the dispatch or handling a failed load. -/
  | loadedNoticeApply (die : Nat)
  /-- `ENDED_NOTICE_APPLY` (R376). Each die applies an ENDED notice, moving the dispatch to DRAINING or SAVED. -/
  | endedNoticeApply (die : Nat)
  /-- `SAVED_NOTICE_APPLY` (R376). Each die applies a SAVED notice and resets the region. -/
  | savedNoticeApply (die : Nat)
  /-- `COMMITTED_NOTICE_APPLY` (R376). Each die applies COMMITTED, releasing successors and retiring the dispatch. -/
  | committedNoticeApply (die : Nat)
  /-- `ERROR_NOTICE_APPLY` (R409). Each die applies ERROR, re-queueing or killing the dispatch. -/
  | errorNoticeApply (die : Nat)
  /-- `PREEMPT_NOTICE_APPLY` (R383). Each die applies PREEMPT, gating the domain's parts and starting its watchdog. -/
  | preemptNoticeApply (die : Nat)
  /-- `RESUME_NOTICE_APPLY` (R387). Each die applies RESUME, making the domain's SAVED dispatches READY. -/
  | resumeNoticeApply (die : Nat)
  /-- `KILL_NOTICE_APPLY` (R410). Each die applies a KILL, cutting sources, breaking barriers and starting the drain. -/
  | killNoticeApply (die : Nat)
  /-- `KILL_DRAIN_END` (R410). A killed part's drain ends at quiescence or after 4,096 cycles; region reset follows and KILLED records are posted. -/
  | killDrainEnd (die : Nat) (dom : Nat) (disp : Nat)
  /-- `WATCHDOG_NOTICE_APPLY` (R388). Each die applies WATCHDOG, killing the context. -/
  | watchdogNoticeApply (die : Nat)
  /-- `DIGEST_NOTICE_APPLY` (R372). The hub compares a round of die digests and declares dissenting dies lost. -/
  | digestNoticeApply
  /-- `CSR_NOTICE_APPLY` (R493). Each die applies a new AGE_DISPATCH value from a CSR notice. -/
  | csrNoticeApply (die : Nat)
  /-- `PHASE_NOTICE_APPLY` (R423). Each die advances %phase, switches replica tables, drops caches and readies next-phase dispatches. -/
  | phaseNoticeApply (die : Nat)
  /-- `HIST_NOTICE_APPLY` (R431). Each die applies a WHEEL dispatch's histogram counts and apportions granules. -/
  | histNoticeApply (die : Nat)
  /-- `DIE_LOSS_APPLY` (R439). Each die applies a die loss, removing its granules and re-queueing, killing or re-dispatching work. -/
  | dieLossApply (die : Nat)
  /-- `LINK_SPLIT_APPLY` (R441). A down die-edge link splits a die pair and kills or re-queues dispatches spanning it. -/
  | linkSplitApply (die : Nat)
  /-- `WHEEL_HISTOGRAM_READ` (R431). The hub reads a READY WHEEL dispatch's histogram and posts HIST. -/
  | wheelHistogramRead (dom : Nat) (disp : Nat)
  /-- `SAVE_AREA_ALLOCATE` (R386). The hub allocates a save-area entry and offset for one saved part. -/
  | saveAreaAllocate
  /-- `SAVE_RECORD_WRITE` (R386). A die writes a saved part's record and then posts SAVED. -/
  | saveRecordWrite (die : Nat) (dom : Nat) (disp : Nat)
  /-- `COMMIT_WRITE` (R412). After DRAINING, a slice writes staged lines to memory and the part posts COMMITTED. -/
  | commitWrite (die : Nat) (dom : Nat) (disp : Nat)
  /-- `EXCHANGE_STEP` (R423). When a phase ends, the hub waits for the fabric group and posts a PHASE notice. -/
  | exchangeStep (dom : Nat)
  /-- `LAUNCHR_WRITE` (R448). A host write to the launch register posts a LAUNCH notice or is dropped. -/
  | launchrWrite (func : Nat) (value : BitVec 64)
  /-- `LSTAT_CLEAR` (R448). A write-one-to-clear of launch status clears DROPS or WHY. -/
  | lstatClear (func : Nat) (value : BitVec 64)
  /-- `MB_CREATE` (R449). Mailbox CREATE makes a domain ACTIVE, writes its context entry and loads a fresh key. -/
  | mbCreate (func : Nat)
  /-- `MB_DESTROY` (R449). Mailbox DESTROY terminates a domain and wipes its key slot. -/
  | mbDestroy (func : Nat)
  /-- `MB_PREEMPT` (R449). Mailbox PREEMPT posts a PREEMPT notice. -/
  | mbPreempt (func : Nat)
  /-- `MB_RESUME` (R449). Mailbox RESUME posts a RESUME notice. -/
  | mbResume (func : Nat)
  /-- `MB_KILL` (R449). Mailbox KILL terminates a domain, keeping its key slot loaded. -/
  | mbKill (func : Nat)
  /-- `MB_ASSIGN` (R449). Mailbox ASSIGN gives FREE domains to a VF. -/
  | mbAssign (func : Nat)
  /-- `MB_QUERY_BOOT_ENTRY` (R449). Mailbox QUERY selector 0 returns a boot-record entry. -/
  | mbQueryBootEntry (func : Nat)
  /-- `MB_QUERY_EXCLUDED` (R449). Mailbox QUERY selector 1 returns an excluded-frame range. -/
  | mbQueryExcluded (func : Nat)
  /-- `MB_CLRBOOT` (R449). Mailbox CLRBOOT resets every boot-record mode to normal at the next cold start. -/
  | mbClrboot (func : Nat)
  /-- `MB_SUPCFG` (R451). Mailbox SUPCFG writes domain 0's context entry. -/
  | mbSupcfg (func : Nat)
  /-- `MB_DOORBELL_BUSY` (R449). A doorbell while the mailbox is busy is ignored and sets error code 0x01. -/
  | mbDoorbellBusy (func : Nat)
  /-- `WINDOW_READ` (R452). A host read through the memory window reads device memory under WINDOM's key. -/
  | windowRead (func : Nat) (offset : Nat) (length : Nat)
  /-- `WINDOW_WRITE` (R452). A host write through the memory window writes device memory directly. -/
  | windowWrite (func : Nat) (offset : Nat) (bytes : List Byte)
  /-- `REGISTER_PAGE_BAD_ACCESS` (R447). A register-page access not 8 bytes wide and aligned completes without effect. -/
  | registerPageBadAccess (func : Nat) (offset : Nat) (size : Nat) (write : Bool)
  /-- `REGISTER_WRITE` (R447). A write to a register with no behaviour of its own stores its value. -/
  | registerWrite (func : Nat) (offset : Nat) (value : BitVec 64)
  /-- `FLR` (R454). A function-level reset kills, wipes and frees the function's domains and resets its registers. -/
  | flr (func : Nat)
  /-- `LINK_LOSS` (R456). A surprise loss of the PCI Express link holds exchange steps and starts the link-hold timer. -/
  | linkLoss
  /-- `LINK_RETRAIN` (R457). The link retrains in time, releasing held exchange steps and re-signalling MSI-X. -/
  | linkRetrain
  /-- `LINK_HOLD_EXPIRY` (R457). The link-hold timer expires and every domain is reset as by a PF FLR. -/
  | linkHoldExpiry
  /-- `HOT_RESET` (R457). A hot reset on link return resets every domain as by a PF FLR. -/
  | hotReset
  /-- `COLD_START` (R463). Power-up of the Saggar runs the boot steps from a cold start. -/
  | coldStart
  /-- `WARM_RESET` (R463). A warm reset resets the hub and mesh dies and reruns the boot steps. -/
  | warmReset
  /-- `BOOT_STEP_TIMEOUT` (R463). A boot step exceeding its time limit is recorded as failed and a warm reset follows. -/
  | bootStepTimeout (bootStep : Nat) (unit : Nat)
  /-- `PLDM_DISCOVERY` (R460). The Saggar answers a PLDM type 0 discovery request. -/
  | pldmDiscovery
  /-- `PLDM_SENSOR_READ` (R460). The Saggar answers a PLDM type 2 sensor request. -/
  | pldmSensorRead (sensor : Nat)
  /-- `PLDM_FIRMWARE_UPDATE` (R460). The Saggar handles a PLDM type 5 firmware update. -/
  | pldmFirmwareUpdate (component : Nat) (image : List Byte) (manifest : List Byte) (parity : Nat)
  /-- `BLACK_BOX_READ` (R460). A vendor sideband request reads the black box rings. -/
  | blackBoxRead (ring : Nat) (index : Nat)
  /-- `BOOT_RECORD_READ` (R460). A vendor sideband request reads the boot record. -/
  | bootRecordRead (index : Nat)
  /-- `START_COUNTER_WRITE` (R480). A vendor sideband request writes the start counter while both copies are invalid. -/
  | startCounterWrite (value : BitVec 32)
  /-- `PEER_EPOCH_READ` (R480). A vendor sideband request reads the epochs of peers seen at last training. -/
  | peerEpochRead (link : Nat)
  /-- `SIDEBAND_ATTEST` (R471). A vendor sideband request obtains a signed attestation report. -/
  | sidebandAttest (nonce : BitVec 128)
  /-- `FABRIC_MAP_WRITE` (R481). A vendor sideband request writes the fabric map boot parameter. -/
  | fabricMapWrite (fabricId : Nat) (moduleId : Nat) (entries : List (BitVec 16))
  /-- `VENDOR_PROVISION` (R467). Vendor provisioning over the sideband derives the identity key and advances the lifecycle. -/
  | vendorProvision
  /-- `SAGGAR_ATTEST_SERVE` (R471). The Saggar serves a queued ATTEST, writing and signing the report. -/
  | saggarAttestServe
  /-- `SAGGAR_VERIFY_SERVE` (R473). The Saggar serves a queued SAGVFY, checking and reporting the token or manifest. -/
  | saggarVerifyServe
  /-- `SAGGAR_MEXT_SERVE` (R148). The Saggar performs a queued measurement extension. -/
  | saggarMextServe
  /-- `THERMAL_THROTTLE` (R477). Reaching the power or temperature limit makes the Saggar insert issue gaps. -/
  | thermalThrottle (die : Nat)
  /-- `THERMAL_SHUTDOWN` (R477). A die junction at 115 °C shuts down, followed by a warm reset. -/
  | thermalShutdown (die : Nat)
  /-- `LINK_FRAME_RECEIVE` (R479). A hub receives a Bexwen link frame and forwards or delivers its flit. -/
  | linkFrameReceive (link : Nat) (frame : BitVec 576)
  /-- `LINK_REPLAY` (R479). A frame failing its CRC causes a replay from the first unacknowledged frame. -/
  | linkReplay (link : Nat) (ok : Bool)
  /-- `BEXWEN_RETRAIN` (R480). A down link retrains once per second by exchanging identity bodies. -/
  | bexwenRetrain (link : Nat) (fabricId : Nat) (moduleId : Nat) (epoch : BitVec 32) (rawx : Bool)
  /-- `CTX_BODY` (R483). A received CTX body updates a context's fabric group membership. -/
  | ctxBody (member : Nat) (dom : Nat) (active : Bool)
  /-- `PHASE_BODY` (R484). A received PHASE body records the member's highest ended phase. -/
  | phaseBody (member : Nat) (dom : Nat) (phase : Nat)
  /-- `FARR_BODY` (R485). A received FARR body may complete a fabric barrier generation. -/
  | farrBody (member : Nat) (dom : Nat) (bar : Nat) (gen : Nat)
  /-- `FEXIT_BODY` (R485). A received FEXIT body removes a member from a fabric barrier. -/
  | fexitBody (member : Nat) (dom : Nat) (bar : Nat)
  /-- `FBREAK_BODY` (R485). A received FBREAK body breaks the local fabric counter. -/
  | fbreakBody (member : Nat) (dom : Nat) (bar : Nat)
  /-- `REMOTE_EXCHANGE_WRITE` (R486). A target delivers an exchange write and acknowledges it once performed. -/
  | remoteExchangeWrite (smod : Nat) (dom : Nat) (tid : Nat) (place : Nat) (bytes : List Byte) (raw : Bool) (form : ExchForm)
  /-- `REMOTE_ATOMIC_REQUEST` (R489). A target hub de-duplicates and performs or answers a remote atomic request. -/
  | remoteAtomicRequest (flit : BitVec 512)
  /-- `REMOTE_ATOMIC_RESPONSE` (R490). A requester receives a remote atomic response and completes the RATOM. -/
  | remoteAtomicResponse (flit : BitVec 512)
  /-- `RATOM_RESEND_TIMEOUT` (R490). No response for 2^17 cycles resends the request or completes it UNKNOWN. -/
  | ratomResendTimeout (index : Nat)
  /-- `MODULE_UNREACHABLE` (R492). A module becoming unreachable is removed from fabric groups and its pending work fails. -/
  | moduleUnreachable (member : Nat)
  /-- `RECEIVER_LOCK_LOSS` (R479). The receiver of a Bexwen link loses lock, and the link goes down. -/
  | receiverLockLoss (link : Nat)
  /-- `SAGGAR_POWER_LOSS` (R461). The Saggar loses power, and the black box rings, measurements and all device state are lost until the next power-up. -/
  | saggarPowerLoss
  /-- `PLDM_POWER_DOWN` (R456). A PLDM power-down request arrives over the sideband, so a following drop of the PCI Express link is not a surprise loss. -/
  | pldmPowerDown
  /-- `PRODUCTION_FUSING` (R467). Fusing advances the lifecycle from PROVISIONED to PRODUCTION. -/
  | productionFusing
  /-- `RMA_TOKEN` (R467). A vendor-signed RMA token advances the lifecycle to RMA. -/
  | rmaToken (token : List Byte)
deriving DecidableEq, Repr, Inhabited

end Sys2Proof
end

