-- ==== Sys2Proof/Machine/State.lean ====
section
/-! DEFINITION. The state of the module: plain data, in groups of sparse tables keyed by global unit
numbers (Syntax.lean says how units are numbered). An unlisted key of a table stands for the element's reset value.
Faults and refusals close the file. -/
namespace Sys2Proof.Machine

/-! ## The unit: PEs, tasks, channels (spec/03, spec/06) -/

/-- A token in a channel slot or buffer (spec/03 R96). A marker's value stands in `payload`[15:0].
-/
structure Token where
  payload : Word := 0
  mark : Bool := false
  poison : Bool := false
  dom : Nat := 0
deriving DecidableEq, Repr, Inhabited

/-- One entry of a PE's task store (spec/01 R11, R31). `ue`: its SEC-DED code fails (spec/06 R194). -/
structure StoreEntry where
  word : Tiw := 0
  literal : Bool := false
  ue : Bool := false
deriving DecidableEq, Repr, Inhabited

/-- A channel handle with its buffer and counters (spec/01 R34, spec/03 R97): for an input `ptr` is `RP` and
`cnt` is `TC`; for an output `ptr` is `WP` and `cnt` is `PC_OUT`. -/
structure Handle where
  valid : Bool := false
  base : Nat := 0
  cntm1 : Nat := 0
  output : Bool := false
  ptr : Nat := 0
  cnt : Nat := 0
deriving DecidableEq, Repr, Inhabited

/-- One of a task's twelve ports (spec/01 R32). -/
structure Port where
  declared : Bool := false
  handle : Nat := 0
  count : Nat := 0
deriving DecidableEq, Repr, Inhabited

/-- The state of a task slot (spec/03 R113). -/
inductive TaskSt where
  | empty | idle | ready | firing | marker | realign | suspended
deriving DecidableEq, Repr, Inhabited

/-- A pending arrival `BARP` (spec/04 R139). -/
structure Barp where
  scope : Nat
  bar : Nat
  gen : Nat
deriving DecidableEq, Repr, Inhabited

/-- What an instruction that holds issue waits for, or what came back to it (spec/13 R364, spec/17 R488,
spec/13 R493). -/
inductive Wait where
  | none
  /-- A barrier operation is on its way to its counter. -/
  | barSent
  /-- It has performed: the counter was broken; the check at the counter failed; whether the generation
  is released; the generation arrived in. -/
  | barDone (broken illegal released : Bool) (gen : Nat)
  /-- A CSR notice at this place of the log has been posted. -/
  | csrSent (place : Nat)
  /-- A blocking memory request is at its node (spec/08 R236), or a blocking command at its Comet (spec/10 R299, R301). -/
  | memSent
  /-- It came back: its value, and the record of a failure (R242). -/
  | memDone (value : Word) (fail : Option Word)
  /-- A pointer read of `FOPEN` waits at its register's port (spec/10 R280, R291). -/
  | port
  /-- A merge of two fibres under way: its count and the coordinates found, newest first (spec/10 R292). -/
  | merge (count : Nat) (found : List Nat)
  /-- A `CWAIT` waits in its counter's order of arrival (spec/10 R302). -/
  | counter
deriving DecidableEq, Repr, Inhabited

/-- One of a PE's eight task slots (spec/01 R32, spec/03 R92, spec/04 R134 and R139, spec/06 R189). -/
structure Task where
  st : TaskSt := .empty
  valid : Bool := false
  entry : BitVec 8 := 0
  prio : Nat := 0
  lanecfg : Nat := 0
  vc : Nat := 0
  ports : Map Port := {}
  pc : BitVec 8 := 0
  /-- `RETV` and `RETE`. -/
  ret : Option (BitVec 8) := none
  lc0 : BitVec 16 := 0
  lc1 : BitVec 16 := 0
  lc2 : BitVec 16 := 0
  /-- `ADVP`0-11. -/
  advp : Map Nat := {}
  age : Nat := 0
  /-- The choice at which `AGE` reached 7 (spec/03 R103, R104). -/
  agedAt : Option Nat := none
  barp : Option Barp := none
  /-- `PREC`, present when `PV` = 1. -/
  prec : Option Word := none
  /-- `PS`. -/
  ps : Bool := false
  trapcause : BitVec 8 := 0
  trapcnt : BitVec 32 := 0
  /-- Ports on which a realigning task has emitted its poison (spec/03 R100). -/
  realigned : List Nat := []
  /-- The largest value of the last marker firing (spec/14 R417). -/
  lastMarker : Option (BitVec 16) := none
  wait : Wait := .none
  /-- Data firings begun: tells one firing from a later one (spec/13 R364). -/
  serial : Nat := 0
deriving DecidableEq, Repr, Inhabited

/-- `RRPTR` and the number of choices made (spec/03 R92, R103). -/
structure Chooser where
  rrptr : Nat := 7
  choices : Nat := 0
deriving DecidableEq, Repr, Inhabited

/-- The timing detectors of one element (spec/06 R195, R196): the stamps of the last two flags, newest
first, and permanent half-rate. -/
structure Detector where
  flags : List Nat := []
  half : Bool := false
deriving DecidableEq, Repr, Inhabited

/-- All PEs. Keys: store and slots 256·pe + n; handles 32·pe + h; tasks 8·pe + t; registers
64·pe + n; predicates 8·pe + q. -/
structure UnitState where
  store : Map StoreEntry := {}
  slots : Map Token := {}
  handles : Map Handle := {}
  tasks : Map Task := {}
  regs : Map Word := {}
  preds : Map Pred := {}
  choosers : Map Chooser := {}
  /-- Registers whose parity fails (spec/06 R193). -/
  badRegs : Map Bool := {}
  /-- The damaged bits (spec/06 R193). -/
  damaged : Map Bool := {}
  /-- The operand log of each PE, newest first, 16 entries (spec/06 R193). -/
  oplog : Map (List (Nat × Word)) := {}
  detectors : Map Detector := {}
deriving DecidableEq, Repr, Inhabited

/-! ## Routers and operators (spec/07) -/

/-- A route entry (spec/01 R37). -/
structure Route where
  valid : Bool := false
  inp : Nat := 0
  invc : Nat := 0
  inh : Nat := 0
  outp : Nat := 0
  outvc : Nat := 0
  outh : Nat := 0
deriving DecidableEq, Repr, Inhabited

/-- The state an operator keeps between firings (spec/07 R213 to R217). -/
inductive OpSt where
  | stateless
  | carryInit
  | carryLoop
  /-- Discarding `ctl` and `back` up to their markers; which markers are consumed. -/
  | carryDrain (ctlDone backDone : Bool)
  /-- `MWAIT`; whether this stay has posted its RATE_MISMATCH record. -/
  | carryWait (posted : Bool)
  | irepEmpty
  /-- `HOLD` with its latch; whether the latch has been emitted. -/
  | irepHold (latch : Token) (emitted : Bool)
  /-- A marker ended `HOLD`: RATE_MISMATCH is emitted, `val` is drained up to its marker. -/
  | irepDrain
  | irepWait (posted : Bool)
  | loopIdle
  | loopCount (n i : Nat)
  | mcutOpen
  | mcutArmed
  | mcutCut
deriving DecidableEq, Repr, Inhabited

/-- An operator slot (spec/01 R35, spec/07 R199, R204). -/
structure OpSlot where
  used : Bool := false
  opc : Nat := 0
  nout : Nat := 0
  param : Nat := 0
  /-- Input buffers 0-3, oldest first, two tokens each. -/
  ins : Map (List Token) := {}
  /-- Output buffers 0-3. -/
  outs : Map (Option Token) := {}
  st : OpSt := .stateless
  /-- The marker that follows a RATE_MISMATCH in the next cycle (spec/07 R211). -/
  follow : Option Token := none
  /-- A misaligned operator discards until every input holds a marker (spec/07 R211). -/
  realign : Bool := false
  /-- Bitmap of inputs on which tokens were discarded (spec/07 R212). -/
  discards : Nat := 0
  /-- The last marker an MCUT passed (spec/13 R384). -/
  lastMarker : Option (BitVec 16) := none
deriving DecidableEq, Repr, Inhabited

/-- An island port attached at a router (spec/01 R43, spec/07 R202). -/
structure IslandPort where
  attached : Bool := false
  comet : Bool := false
  /-- Global Kiln or Comet. -/
  island : Nat := 0
  port : Nat := 0
  pkind : Nat := 0
deriving DecidableEq, Repr, Inhabited

/-- All routers. Keys: link inputs (4·router + direction)·4 + VC; round-robin of link outputs
4·router + direction; routes 64·router + e; operator slots 2·router + slot; island ports 4·router + VC. -/
structure RouterState where
  links : Map (List Token) := {}
  linkLast : Map Nat := {}
  localInLast : Map Nat := {}
  localOutLast : Map Nat := {}
  elemInLast : Map Nat := {}
  elemOutLast : Map Nat := {}
  routes : Map Route := {}
  ops : Map OpSlot := {}
  islands : Map IslandPort := {}
deriving DecidableEq, Repr, Inhabited

/-! ## The core: pool, memory nodes, address generators, Glaze, cursors, barriers (spec/08, 09, 10) -/

/-- What the loader and the dispatcher set for one core: the region tag, the task's view of its region, the
partition word (spec/01 R42, spec/04 R134, spec/09 R266). -/
structure CoreInfo where
  /-- The region tag, present while a region holds the core. -/
  dom : Option Nat := none
  disp : Nat := 0
  /-- Region-relative core within its block, and block (spec/01 R29). -/
  rcore : Nat := 0
  block : Nat := 0
  /-- Granules of the region, and of this block. -/
  granules : Nat := 0
  /-- `REGS` and `ACC` of the partition word. -/
  regs : Nat := 0
  acc : Nat := 0
  /-- Its elements are enabled: the image is accepted and the part is running (spec/01 R48). -/
  enabled : Bool := false
  /-- Core trap port: origin and stamp of the last 16 records, newest first, and the suppressed count (spec/06 R192). -/
  trapRecent : List (Nat × Nat) := []
  trapSupp : Nat := 0
deriving DecidableEq, Repr, Inhabited

/-- The check state of a 64-bit pool word (spec/08 R251, R252). `corrected`: read, and not yet written back. -/
inductive PoolFault where
  | good | correctable | corrected | uncorrectable | pattern
deriving DecidableEq, Repr, Inhabited

/-- Extents and tiles of a tensor, in the pool or in HBM (spec/08 R226). -/
structure Shape where
  rankm1 : Nat := 0
  fmt : Nat := 0
  ext0 : Nat := 0
  ext1 : Nat := 0
  ext2 : Nat := 0
  ext3 : Nat := 0
  tile0 : Nat := 0
  tile1 : Nat := 0
deriving DecidableEq, Repr, Inhabited

/-- A pool tensor (spec/01 R44); the key names its `TID`. -/
structure PoolTensor where
  valid : Bool := false
  rankm1 : Nat := 0
  fmt : Nat := 0
  acc : Bool := false
  addr : Nat := 0
  ext0 : Nat := 0
  ext1 : Nat := 0
  ext2 : Nat := 0
  ext3 : Nat := 0
  tile0 : Nat := 0
  tile1 : Nat := 0
deriving DecidableEq, Repr, Inhabited

/-- Mode of a memory node (spec/01 R39). -/
inductive NodeMode where
  | stream | random | ordered
deriving DecidableEq, Repr, Inhabited

/-- Where a node's request came from: a graph port or a PE's task (spec/08 R228). -/
inductive ReqSrc where
  | ld | st | at
  | pe (pe slot : Nat)
deriving DecidableEq, Repr, Inhabited

/-- An accepted request, its address already formed (spec/08 R226, R228 to R240). Addresses are pool bytes. -/
inductive ReqOp where
  | load (addr len : Nat)
  /-- `pattern` writes the poison pattern instead (R233). -/
  | store (addr len : Nat) (data : Word) (pattern : Bool)
  | atomic (addr fmt aop : Nat) (data : BitVec 64) (pattern : Bool)
  | cas (addr fmt : Nat) (cmp swap : BitVec 64)
  /-- On a heap whose tensor has this shape. -/
  | hins (addr : Nat) (shape : Shape) (fmt : Nat) (entry : BitVec 64)
  | copy (src dst len : Nat)
  | fill (dst len : Nat) (data : Word)
  /-- A `COPY` under way: the source bytes read so far. -/
  | reading (src dst len : Nat) (got : List Byte)
  /-- A `COPY` under way, or a `FILL` (its source is its destination): the bytes still to be written, the last ones of the range. -/
  | writing (src dst len : Nat) (bytes : List Byte)
  /-- A `HINS` under way: the slots read so far. -/
  | heapRead (addr : Nat) (shape : Shape) (fmt : Nat) (entry : BitVec 64) (got : List (Nat × Nat))
  /-- A `HINS` under way: the slots still to be written. -/
  | heapWrite (addr : Nat) (shape : Shape) (slots : List (Nat × Nat))
  /-- Performs nothing: its result is known. -/
  | settled
deriving DecidableEq, Repr, Inhabited

structure NodeReq where
  src : ReqSrc
  op : ReqOp
  /-- The request token of a port, copied on `ack` (spec/08 R229). -/
  req : Token := {}
  tid : Nat := 0
  /-- The instruction waits for the result (R236). -/
  blocking : Bool := false
  /-- Once a port's request has performed: the token it leaves. -/
  done : Option Token := none
deriving DecidableEq, Repr, Inhabited

/-- A memory node (spec/01 R39, spec/08 R228 to R232). Inputs 0 `ld`, 1 `st`, 2 `wd`, 3 `at`, 4 `av`; outputs
0 `rd`, 1 `ack`, 2 `ak`. -/
structure Node where
  valid : Bool := false
  mode : NodeMode := .stream
  maxOut : Nat := 1
  ins : Map (List Token) := {}
  outs : Map (Option Token) := {}
  /-- Accepted requests that have not completed, oldest first. -/
  queue : List NodeReq := []
  /-- Discarding one of `st`/`wd` (0) or `at`/`av` (1) up to a marker (spec/08 R232). -/
  realign : Map Bool := {}
  /-- A STREAM node: the sources whose start token has been accepted (0 `ld`, 1 + PE), with the length of `hist`
  then; the bytes overwritten since, newest first (spec/08 R231). -/
  starts : List (Nat × Nat) := []
  hist : List Host.Cell := []
deriving DecidableEq, Repr, Inhabited

/-- An address generator's sweep (spec/10 R269, R270). -/
inductive AgenSt where
  | idle
  | sweep (i0 i1 i2 i3 : Nat) (off : BitVec 64)
deriving DecidableEq, Repr, Inhabited

structure Agen where
  valid : Bool := false
  tid : Nat := 0
  rankm1 : Nat := 0
  ext : BitVec 64 := 0
  str : BitVec 64 := 0
  org : BitVec 64 := 0
  /-- A route joins `trig`. -/
  trig : Bool := false
  trigq : List Token := []
  out : Option Token := none
  st : AgenSt := .idle
  /-- Its single sweep has been started / finished (spec/10 R271). -/
  swept : Bool := false
  /-- END of the single sweep has been emitted. -/
  ended : Bool := false
  /-- 0 open, 1 armed, 2 cut (spec/10 R271, spec/07 R217). -/
  gate : Nat := 0
deriving DecidableEq, Repr, Inhabited

/-- One LUT cell (spec/01 R41). -/
structure GlazeCell where
  tt : BitVec 16 := 0
  sel3 : Nat := 0
  sel2 : Nat := 0
  sel1 : Nat := 0
  sel0 : Nat := 0
deriving DecidableEq, Repr, Inhabited

/-- A Glaze island (spec/09 R254 to R259). -/
structure Glaze where
  inUse : Bool := false
  cells : Map GlazeCell := {}
  /-- Output frames present, each a list of 24 cell numbers. -/
  frames : Map (List Nat) := {}
  inq : List Token := []
  /-- Tokens in the four stages, oldest first, each with its stage less 1 as it stood in the cycle `pipeAt`. -/
  pipe : List (Token × Nat) := []
  pipeAt : Nat := 0
  out : Option Token := none
  /-- The failing cells, and 512 + frame for failing output frames, oldest failure first (spec/09 R259). -/
  bads : List Nat := []
deriving DecidableEq, Repr, Inhabited

/-- A schedule cursor (spec/08 R247). -/
structure Cursor where
  base : Nat := 0
  count : Nat := 0
  next : Nat := 0
deriving DecidableEq, Repr, Inhabited

/-- All cores. Keys: info, Glaze by core; pool bytes 2^19·core + p; pool faults 2^16·core + p/8;
tensors 4096·core + `TID`; nodes, generators, cursors 4·core + k. -/
structure CoreState where
  info : Map CoreInfo := {}
  pool : Map Byte := {}
  poolFaults : Map PoolFault := {}
  tensors : Map PoolTensor := {}
  nodes : Map Node := {}
  agens : Map Agen := {}
  glazes : Map Glaze := {}
  cursors : Map Cursor := {}
  /-- Detectors of the bank ALUs, 32·core + bank. -/
  banks : Map Detector := {}
  /-- The requester that a bank's memory port served last (spec/08 R224), 32·core + bank. -/
  bankLast : Map Nat := {}
deriving DecidableEq, Repr, Inhabited

/-- A barrier counter (spec/04 R139). -/
structure Barrier where
  memb : Nat := 0
  exp : Nat := 0
  arr : Nat := 0
  gen : Nat := 0
  brk : Bool := false
  /-- The dispatch that owns the counter, and its phase (spec/09 R265). -/
  dom : Nat := 0
  disp : Nat := 0
  phase : Nat := 0
  /-- The id under which it has been used at fabric scope (spec/17 R485). -/
  fab : Option Nat := none
deriving DecidableEq, Repr, Inhabited

/-- An operation on its way to a counter (spec/13 R364). -/
inductive BarOpKind where
  | arm (count : Nat) | arrive | test (gen : Nat) | exit (pending : Option Nat)
deriving DecidableEq, Repr, Inhabited

structure BarOp where
  pe : Nat
  slot : Nat
  scope : Nat
  bar : Nat
  /-- Key of the counter. -/
  counter : Nat
  kind : BarOpKind
  entry : BitVec 8
  opc : Nat
  /-- The firing that issued it. -/
  serial : Nat
deriving DecidableEq, Repr, Inhabited

/-- Barrier counters of all scopes. Keys: core 8·core + b; cluster 100000 + 16·cluster + b;
die 200000 + 32·die + b; package 300000 + b. -/
structure SyncState where
  counters : Map Barrier := {}
  flying : List BarOp := []
  /-- Per counter: the cycle in which it changed last, and 1 + the PE whose operation was the last of that cycle (spec/09 R262). -/
  turns : Map (Nat × Nat) := {}
deriving DecidableEq, Repr, Inhabited

/-! ## The cluster: Comets, streams, slice, Kilns (spec/10, spec/11) -/

/-- A parked access (spec/10 R280); `abandoned` by `RESUME.fail` (R282). -/
structure Parked where
  dom : Nat := 0
  tid : Nat := 0
  page : Nat := 0
  kind : Nat := 0
  abandoned : Bool := false
  /-- The slot of a `TFILL` whose read this is (spec/11 R333). -/
  fill : Option Nat := none
  /-- The line of a register's fetch, of its values if that is set; the entry of a gather or scatter. -/
  place : Nat := 0
  values : Bool := false
deriving DecidableEq, Repr, Inhabited

/-- A graph-port request (spec/10 R279). -/
structure GraphReq where
  write : Bool := false
  req : Token := {}
  data : Token := {}
  /-- The result, completion or marker once performed. -/
  done : Option Token := none
  /-- It is the port's parked access. -/
  held : Bool := false
deriving DecidableEq, Repr, Inhabited

/-- A Comet port (spec/10 R278 to R280). Key 256·comet + port. -/
structure CometPort where
  attached : Bool := false
  pkind : Nat := 0
  router : Nat := 0
  dom : Nat := 0
  disp : Nat := 0
  /-- Tokens that wait at a request or data port. -/
  inq : List Token := []
  /-- Accepted requests of the group, oldest first (held at the request port). -/
  reqs : List GraphReq := []
  /-- Results that wait at a data or completion port. -/
  outq : List Token := []
  realign : Bool := false
  parked : Option Parked := none
deriving DecidableEq, Repr, Inhabited

/-- State of a stream or fibre register (spec/10 R286). -/
inductive StreamSt where
  | closed | opened | atEnd | poisoned
deriving DecidableEq, Repr, Inhabited

/-- A stream register, or one of the two streams of a fibre register (spec/10 R286). Key 24·core + r: streams
0-15, fibres 16-23. For a fibre, `tid` and `buf` serve coordinates and `tidv` and `bufv` values. -/
structure StreamReg where
  st : StreamSt := .closed
  tid : Nat := 0
  tidv : Nat := 0
  /-- The descriptors' shapes as read at opening (spec/10 R277). -/
  shape : Shape := {}
  shapev : Shape := {}
  /-- The tensor holds metadata (spec/10 R293). -/
  md : Bool := false
  noval : Bool := false
  beg : Nat := 0
  len : Nat := 0
  pos : Nat := 0
  prec : Option Word := none
  /-- Bytes fetched, by tensor byte offset. -/
  buf : Map (Option Byte) := {}
  bufv : Map (Option Byte) := {}
  /-- Lines asked for and not yet returned, with their physical addresses, and lines whose read failed, with the record. -/
  pend : List (Nat × Nat) := []
  pendv : List (Nat × Nat) := []
  bad : List (Nat × Word) := []
  badv : List (Nat × Word) := []
deriving DecidableEq, Repr, Inhabited

/-- A part of an access inside one 64 KiB frame: physical byte, bytes, key slot, `CMP` (spec/10 R274, R275). -/
structure Piece where
  phys : Nat
  len : Nat
  key : Nat
  cmp : Bool
deriving DecidableEq, Repr, Inhabited

/-- The Comet commands of the queue (spec/10 R294, R296 to R303); `FGRD` and `RATOM` to the own module wait in it for their
results. -/
inductive CmdOp where
  | cpy | gath | scat | fgrd | fgwr | xchg | ratom | pref
deriving DecidableEq, Repr, Inhabited

structure Cmd where
  op : CmdOp := .cpy
  pe : Nat := 0
  slot : Nat := 0
  dom : Nat := 0
  disp : Nat := 0
  /-- Scalar sources A and B: coordinates. -/
  ca : Nat := 0
  cb : Nat := 0
  /-- Bytes, or elements of a gather or scatter. -/
  n : Nat := 0
  tids : Nat := 0
  tidd : Nat := 0
  /-- The pool data tensor of a gather or scatter. -/
  tidp : Nat := 0
  /-- The source is in the pool; the destination is. -/
  ssp : Bool := false
  dsp : Bool := false
  /-- Element size of a gather or scatter; width of the fine-grain forms. -/
  g : Nat := 0
  cc : Nat := 0
  modl : Nat := 0
  raw : Bool := false
  data : Word := 0
  /-- Format and operation of a `RATOM`. -/
  fmt : Nat := 0
  aop : Nat := 0
  /-- Has passed translation (spec/10 R295), with the parts it found; pool addresses of source and destination. -/
  translated : Bool := false
  src : List Piece := []
  dst : List Piece := []
  srca : Nat := 0
  dsta : Nat := 0
  /-- Entries of a gather or scatter: element number and place. -/
  ents : List (Nat × Piece) := []
  /-- Its entries or its write have been sent; entries not yet served. -/
  sent : Bool := false
  parts : Nat := 0
  /-- Entries that failed, with their records. -/
  bad : List (Nat × Word) := []
  /-- A number that names the command in its queue. -/
  tag : Nat := 0
  /-- Its place among the commands that its Comet has accepted (spec/15 R428). -/
  order : Nat := 0
  /-- Its destination lies on another module: tensor `tidd` there, from byte `dsta` (spec/17 R486, R488). -/
  remote : Bool := false
deriving DecidableEq, Repr, Inhabited

/-- A completion counter (spec/10 R294) with its waiting `CWAIT`s in order of arrival (R302). -/
structure CompCtr where
  count : Nat := 0
  status : Nat := 0
  waiters : List (Nat × Nat) := []
deriving DecidableEq, Repr, Inhabited

/-- A cached descriptor or tile table entry (spec/10 R277). -/
structure CachedXlat where
  comet : Nat
  dom : Nat
  tid : Nat
  /-- The page of an entry; none for the descriptor. -/
  page : Option Nat
  bits : BitVec 512
deriving DecidableEq, Repr, Inhabited

/-- A tile-cache line (spec/10 R283, R284): key, physical line, 64 bytes; domain and dispatch that it was filled for (spec/14 R406). -/
structure TileLine where
  cluster : Nat
  key : Nat
  line : Nat
  data : BitVec 512
  dom : Nat := 0
  disp : Nat := 0
  /-- Its 64-bit words with an uncorrectable error. -/
  bad : List Nat := []
deriving DecidableEq, Repr, Inhabited

/-- A staging line (spec/10 R285, spec/14 R412). -/
structure StageLine where
  cluster : Nat
  dom : Nat
  disp : Nat
  key : Nat
  line : Nat
  mask : BitVec 64
  data : BitVec 512
  /-- Its 64-bit words with an uncorrectable error. -/
  bad : List Nat := []
  /-- Poison data has been written to it: it commits as the poison pattern. -/
  pattern : Bool := false
  /-- The destination module of an exchange write; none for this module. -/
  modl : Option Nat := none
  tid : Nat := 0
  /-- Of an exchange write: the coordinates that it names there; `line` counts from their element. -/
  coords : Nat := 0
  /-- A raw exchange has written it: the unit line counts of its frame, none counted if that is plain (spec/17 R487). -/
  form : Option (List Nat) := none
deriving DecidableEq, Repr, Inhabited

/-- State of an operand-memory slot (spec/11 R307). -/
inductive SlotSt where
  | free | claimed | filling | full | failed
deriving DecidableEq, Repr, Inhabited

structure KSlot where
  st : SlotSt := .free
  dom : Nat := 0
  disp : Nat := 0
  kind : Nat := 0
  fmt : Nat := 0
  cause : Nat := 0
  pins : Nat := 0
  relp : Bool := false
  /-- The fill in progress: issuing PE and slot, its dispatch, tensor, pool source, coordinates, source checked. -/
  fpe : Nat := 0
  fdisp : Nat := 0
  fslot : Nat := 0
  ftid : Nat := 0
  fpool : Bool := false
  fcoord : BitVec 64 := 0
  fchecked : Bool := false
deriving DecidableEq, Repr, Inhabited

/-- A Kiln counter (spec/11 R312). -/
structure KCtr where
  count : Nat := 0
  failed : Bool := false
  record : Option Word := none
deriving DecidableEq, Repr, Inhabited

/-- A queued Kiln record (spec/11 R315). -/
structure KRec where
  word : Word := 0
  enq : Nat := 0
  dom : Nat := 0
  disp : Nat := 0
  /-- Issuing granule (global), PE and task slot. -/
  gran : Nat := 0
  pe : Nat := 0
  slot : Nat := 0
  elim : Nat := 256
  clim : Nat := 127
  /-- Lowest unissued sub-tile, sub-tiles running, sub-tiles drained. -/
  next : Nat := 0
  running : Nat := 0
  drained : Nat := 0
  pinned : List Nat := []
  failure : Option Word := none
  /-- Its counter and its port have passed check 5 of R320. -/
  sctrOk : Bool := true
  cportOk : Bool := true
  /-- Since when it has been ready with an unissued sub-tile (spec/11 R317). -/
  readyAt : Option Nat := none
deriving DecidableEq, Repr, Inhabited

/-- Where a running sub-tile stands (spec/11 R305, R324, R325). -/
inductive SubPhase where
  | issued
  | computing
  | spilling
deriving DecidableEq, Repr, Inhabited

/-- An entry of the overflow buffer (spec/11 R322). -/
structure OvfEntry where
  carry : Int := 0
  invalid : Bool := false
  /-- It has an uncorrectable error (R332). -/
  bad : Bool := false
deriving DecidableEq, Repr, Inhabited

/-- The exact sum of a bf16/f16 group so far, in units of 2^-298, with its special values (spec/02 R83, R86). -/
structure GroupSum where
  sum : Int := 0
  nan : Bool := false
  pinf : Bool := false
  ninf : Bool := false
deriving DecidableEq, Repr, Inhabited

/-- A sub-tile on a Kiln (spec/11 R305, R317, R322, R327). -/
structure SubTile where
  /-- Home cluster, record, sub-tile. -/
  home : Nat := 0
  rec_ : KRec := {}
  s : Nat := 0
  phase : SubPhase := .issued
  k : Nat := 0
  /-- i24 lanes and overflow buffer, by element 128·m + n. -/
  lanes : Map Int := {}
  ovf : Map (Option OvfEntry) := {}
  /-- A spill has been made, so every element has had its first write (spec/11 R325). -/
  spilled : Bool := false
  /-- The next element of a step that is completed element by element (R324). -/
  elem : Option Nat := none
  /-- The next step has been discarded for a spill, and is made again (R324). -/
  again : Bool := false
  /-- Floating-point accumulators, as patterns. -/
  acc : Map Nat := {}
  grp : Map GroupSum := {}
  /-- It has migrated; its operands stand in copies of the home cluster's slots: (home slot, slot here). -/
  migrated : Bool := false
  slots : List (Nat × Nat) := []
deriving DecidableEq, Repr, Inhabited

/-- Per dispatch and cluster: `MIGR`, `SPILLS` and the enqueue count (spec/11 R315, R338). -/
structure KStat where
  cluster : Nat
  dom : Nat
  disp : Nat
  migr : Nat := 0
  spills : Nat := 0
  enq : Nat := 0
deriving DecidableEq, Repr, Inhabited

/-- The overflow limits of a granule (spec/11 R323). -/
structure Limits where
  elim : Nat := 256
  clim : Nat := 127
deriving DecidableEq, Repr, Inhabited

/-- A configuration-cache entry (spec/13 R368). -/
structure CacheImage where
  cluster : Nat
  dom : Nat
  addr : Nat
  digest : Word
  frames : List Word
  pinned : Bool := false
  /-- Frames that meet an uncorrectable error in the cache. -/
  bad : List Nat := []
deriving DecidableEq, Repr, Inhabited

/-- A cluster's loader (spec/01 R46 to R48, spec/13 R367, R368). -/
structure Loader where
  busy : Bool := false
  dom : Nat := 0
  disp : Nat := 0
  /-- The expert whose image it loads, in a WHEEL dispatch (spec/15 R433). -/
  expert : Nat := 0
  img : Nat := 0
  nf : Nat := 0
  /-- The image stands in the cache; the DIGEST of the END pair read at `NF` - 2. -/
  hit : Bool := false
  digest : Word := 0
  next : Nat := 0
  /-- Frames read, newest first. -/
  frames : List Word := []
  /-- An END frame with `INDEX` 1 has stood out of place. -/
  stray : Bool := false
deriving DecidableEq, Repr, Inhabited

/-- All clusters. Keys: command queues by core; completion counters 16·core + k; slots 128·cluster + n; operand
bytes 2^15·(128·cluster + n) + b; Kiln counters 32·cluster + n; records by cluster; Kilns, limits by granule;
Kiln completion ports 16·kiln + p. -/
structure ClusterState where
  ports : Map CometPort := {}
  streams : Map StreamReg := {}
  cmds : Map (List Cmd) := {}
  /-- Commands that each Comet has accepted. -/
  accepted : Map Nat := {}
  ccs : Map CompCtr := {}
  xlat : List CachedXlat := []
  tiles : List TileLine := []
  stage : List StageLine := []
  slots : Map KSlot := {}
  opmem : Map Byte := {}
  opBad : List Nat := []
  kctrs : Map KCtr := {}
  krecs : Map (List KRec) := {}
  kilns : Map (Option SubTile) := {}
  kports : Map (List Token) := {}
  kstats : List KStat := []
  limits : Map Limits := {}
  detectors : Map Detector := {}
  migrateWait : Map (BitVec 24) := {}
  loaders : Map Loader := {}
  cfgCache : List CacheImage := []
deriving DecidableEq, Repr, Inhabited

/-! ## The cluster mesh (spec/13 R353 to R361) -/

/-- A flit in an input buffer: a header flit or a further one, the last of its packet, the time from which it is a
candidate, promoted. -/
structure Flit where
  head : Bool := true
  last : Bool := true
  bits : BitVec 512 := 0
  since : Nat := 0
  promoted : Bool := false
deriving DecidableEq, Repr, Inhabited

/-- The packet that holds a virtual channel of an output: its input, the age at which its header flit was granted, and whether it stays promoted
whatever `%age_promote` becomes (spec/13 R358, R361). -/
structure MeshHold where
  input : Nat
  age : Nat := 0
  promoted : Bool := false
deriving DecidableEq, Repr, Inhabited

/-- A mesh output: turn, count, the cycle of its last flit, and per VC the packet that holds it and the input granted last
(spec/13 R358, R360, R361). -/
structure MeshOut where
  turn : Nat := 0
  count : Nat := 0
  sentAt : Option Nat := none
  hold : Map (Option MeshHold) := {}
  last : Map Nat := {}
  /-- Consecutive failed replays, and the link is down (R359). -/
  fails : Nat := 0
  down : Bool := false
deriving DecidableEq, Repr, Inhabited

/-- Keys: inputs (12·router + input)·4 + VC; outputs 12·router + output. Ports 0-3 are north, east, south,
west; 4 + `EP` are local. Packets that have left at a local port wait in `delivered`, by 12·router + port. -/
structure MeshState where
  inputs : Map (List Flit) := {}
  outs : Map MeshOut := {}
  delivered : Map (List Flit) := {}
deriving DecidableEq, Repr, Inhabited

/-! ## Memory of the package (spec/14) -/

/-- The fault of a 64-byte line (spec/14 R397, R412, R494). -/
inductive LineFault where
  | good | uncorrectable | pattern
deriving DecidableEq, Repr, Inhabited

/-- `Z` and the unit line counts of a frame (spec/14 R400). -/
structure Frame where
  z : Bool := false
  lines : List Nat := []
deriving DecidableEq, Repr, Inhabited

/-- A request packet at a memory controller (spec/13 R355). -/
structure CtrlReq where
  write : Bool := false
  /-- An atomic: its format and its operation; `data` is its operand (spec/10 R301). -/
  atom : Option (Nat × Nat) := none
  dom : Nat := 0
  /-- The key slot that the access names. -/
  key : Nat := 0
  addr : Nat := 0
  data : List Byte := []
  len : Nat := 0
  hdr : BitVec 64 := 0
  /-- What its response copies. -/
  id : Nat := 0
deriving DecidableEq, Repr, Inhabited

/-- A write registered at a parity engine whose difference is not yet in the parity line (spec/14 R398). -/
structure ParityWrite where
  line : Nat
  hdr : BitVec 64
  addr : Nat
  id : Nat
  /-- The parity line has been written, and the write has performed; its acknowledgement has not left. -/
  performed : Bool := false
  /-- The old value that the response to an atomic holds. -/
  old : Option Nat := none
deriving DecidableEq, Repr, Inhabited

/-- A gather request at a stack's gather unit (spec/10 R298, spec/13 R363): the cluster whose controller took it, the header of its packet and the number
that its response copies; the entries that are left, each an element number and its place; and for each entry that is served its element, its status
and its bytes. -/
structure GatherReq where
  via : Nat := 0
  hdr : BitVec 64 := 0
  id : Nat := 0
  todo : List (Nat × Piece) := []
  served : List (Nat × Nat × List Byte) := []
deriving DecidableEq, Repr, Inhabited

/-- The pair of 128-bit SM4 keys of a key slot: for the data, and for the tweak (spec/14 R403; log entry 4). -/
structure KeyPair where
  data : BitVec 128 := 0
  tweak : BitVec 128 := 0
deriving DecidableEq, Repr, Inhabited

/-- The memory below the controllers. Bytes by physical address: an unlisted byte has not been written since
power-up. `bytes` holds what was written, and `keys` gives for each 16-byte block the key pair it was written under: together they are what the
DRAM stores (spec/14 R404, R405). Lines, parity lines
among them, are numbered 2^31·stack + line of the stack; pseudo-channels 160·stack + p. -/
structure MemState where
  bytes : Map Byte := {}
  keys : Map (Option KeyPair) := {}
  faults : Map LineFault := {}
  frames : Map Frame := {}
  /-- Parity mode in force: true is protected (spec/14 R392). -/
  parity : Bool := true
  /-- Pseudo-channels mapped out, as 160·stack + p (spec/14 R394). -/
  mappedOut : List Nat := []
  /-- Mesh dies whose stacks are lost (spec/15 R439). -/
  lostStacks : List Nat := []
  registered : List ParityWrite := []
  ctrl : Map (List CtrlReq) := {}
  gather : Map (List GatherReq) := {}
deriving DecidableEq, Repr, Inhabited

/-! ## The die and the scheduler (spec/13, spec/15) -/

/-- State of a dispatch (spec/13 R376; the numbers are those of `DSTATE`, spec/14 R416). -/
inductive DispSt where
  | waiting | ready | placed | loading | running | gating | saved | draining | committed | retired | killed | requeued
deriving DecidableEq, Repr, Inhabited

/-- A dispatch entry as read from the packet (spec/15 R420). -/
structure DispEntry where
  img : Nat := 0
  nf : Nat := 0
  g : Nat := 1
  cls : Nat := 0
  prio : Nat := 0
  rst : Bool := false
  backfill : Bool := false
  dmask : Nat := 0xFF
  phi : Nat := 0
  ndb : Nat := 0
  npb : Nat := 0
  tsrc : Nat := 0
  tcnt : Nat := 0
  tcores : Nat := 0
  tbase : Nat := 0
  npred : Nat := 0
  taddr : Nat := 0
  xaddr : Nat := 0
  preds : List Nat := []
  mcore : Nat := 0
  mclu : Nat := 0
  mdie : Nat := 0
  mpkg : Nat := 0
  /-- Reserved bits or codes are set. -/
  bad : Bool := false
  /-- The granule list of a FIXED entry, none if it could not be read. -/
  fixed : Option (List Nat) := some []
  /-- The read of that list named an EMPTY key slot (spec/14 R405). -/
  noKey : Bool := false
deriving DecidableEq, Repr, Inhabited

/-- A launch packet as its poster read it (spec/15 R419, R495). -/
structure Packet where
  lver : Nat := 1
  ndisp : Nat := 0
  fab : Bool := false
  rtv : Bool := false
  rtphi : Nat := 0
  rtaddr : Nat := 0
  rtlen : Nat := 0
  reserved : Bool := false
  unreadable : Bool := false
  /-- The read that failed named an EMPTY key slot (spec/14 R405). -/
  noKey : Bool := false
  entries : List DispEntry := []
deriving DecidableEq, Repr, Inhabited

/-- A work-tile record of a WHEEL dispatch, in source order: its expert, its position there, the granule it is dealt to; 0 ran,
1 re-dispatched, 2 dropped (spec/15 R433, R434, R440). -/
structure WheelRec where
  expert : Nat
  pos : Nat
  granule : Nat
  status : Nat := 0
deriving DecidableEq, Repr, Inhabited

/-- A dispatch in the schedule state (spec/13 R370, R376). -/
structure Disp where
  dom : Nat := 0
  /-- `%dispatch`: launch number and entry index. -/
  disp : Nat := 0
  entry : DispEntry := {}
  fab : Bool := false
  phase : Nat := 0
  st : DispSt := .waiting
  /-- Priority queue level and TICKs spent in it. -/
  level : Nat := 0
  ticks : Nat := 0
  /-- TICKs for which it has been the first blocked dispatch. -/
  blocked : Nat := 0
  /-- Its region, in the order in which its granules are numbered (spec/13 R374). -/
  granules : List Nat := []
  /-- Dies whose LOADED (with its status), ENDED (with whether every source passed END), SAVED, COMMITTED notice has been applied, and
  dies whose part has been reset. -/
  loaded : List (Nat × Nat) := []
  ended : List (Nat × Bool) := []
  savedDies : List Nat := []
  committedDies : List Nat := []
  resetDies : List Nat := []
  requeues : Nat := 0
  /-- Barrier counters allocated: 32·die + b, and package numbers (spec/13 R365). -/
  dieCtrs : List Nat := []
  pkgCtrs : List Nat := []
  /-- A save record waits to be restored. -/
  wasSaved : Bool := false
  /-- The state before it was killed or re-queued, the cause, and the reason that its KILLED record carries, if one does. -/
  was : DispSt := .waiting
  cause : Nat := 0
  reason : Option Nat := none
  hist : Option (List Nat) := none
  /-- Granules of each expert (spec/15 R432), its records, and the replica-table version it holds (R438). -/
  share : List Nat := []
  recs : List WheelRec := []
  version : Bool := false
  /-- Notices applied once the last die loss that re-dispatched records of it was. -/
  redealt : Nat := 0
deriving DecidableEq, Repr, Inhabited

/-- A context in the schedule state (spec/15 R423, R436, R437). -/
structure CtxSched where
  phase : Nat := 0
  launches : Nat := 0
  held : Bool := false
  terminated : Bool := false
  /-- Terminated by a function-level reset: LAUNCH notices are dropped without a record (spec/16 R455). -/
  silent : Bool := false
  repver : Bool := false
  table0 : Map (BitVec 16) := {}
  table1 : Map (BitVec 16) := {}
  /-- Updates not yet in effect: boundary phase, address, length, in launch order. -/
  updates : List (Nat × Nat × Nat) := []
deriving DecidableEq, Repr, Inhabited

/-- The schedule state of one die's replica (spec/13 R370). Dispatches stand in the order of their queues:
within one level, earlier in the list is nearer the front. -/
structure Sched where
  disps : List Disp := []
  ctxs : Map CtxSched := {}
  lost : List Nat := []
  /-- Split die pairs (spec/15 R441). -/
  splits : List (Nat × Nat) := []
  /-- The first blocked dispatch of the last placement (spec/13 R374). -/
  blocked : Option (Nat × Nat) := none
  /-- Contexts whose phase has ended, with that phase, in the order of the notices that ended it (spec/16 R457). -/
  ends : List (Nat × Nat) := []
  /-- Launches of a ninth domain that wait, with their domains, oldest first (spec/14 R407). -/
  late : List (Nat × Packet) := []
  ageDispatch : Nat := 20
deriving DecidableEq, Repr, Inhabited

/-- How an ERROR notice is answered (spec/14 R409, spec/15 R425, R495, spec/14 R408). -/
inductive ErrorKind where
  /-- By its cause and by the kind of dispatch. -/
  | plain
  /-- As for a direct dispatch: a stored poison pattern. -/
  | pattern
  /-- A read of launch data, or a check at dealing: the dispatch alone is killed. -/
  | launchData
  /-- A tag error: a dispatch of domain 0 is killed in every state. -/
  | tag
deriving DecidableEq, Repr, Inhabited

/-- The facts that dies exchange (spec/13 R371, R390, spec/15 R423, R431, R441). -/
inductive Notice where
  | launch (dom : Nat) (packet : Packet) (die : Option Nat)
  | tick (number : Nat)
  | loaded (die dom disp status : Nat)
  /-- `seen`: notices that the die had applied. -/
  | ended (die dom disp : Nat) (atEnd : Bool) (seen : Nat)
  | saved (die dom disp : Nat)
  | committed (die dom disp : Nat) (seen : Nat)
  | error (die dom disp cause detail : Nat) (kind : ErrorKind)
  | preempt (dom : Nat)
  | resume (dom : Nat)
  /-- A containment kill names its die; a host kill names none; `flr`: by a function-level reset. -/
  | kill (dom cause detail : Nat) (die : Option Nat) (flr : Bool)
  | watchdog (die dom : Nat)
  | digest (die tick : Nat) (value : BitVec 64)
  | csr (value : Nat)
  /-- Phase n has ended; the replica table that comes into force, if one does; its read named an EMPTY key slot (spec/14 R405). -/
  | phase (dom n : Nat) (table : Option (List (BitVec 16))) (noKey : Bool)
  /-- A context begins anew (the model's own: log entry 39). -/
  | create (dom : Nat)
  /-- Counts of a histogram, or the cause for which it kills its dispatch, with 256 times the reason in `DETAIL`. -/
  | hist (dom disp : Nat) (counts : List Nat) (cause : Nat)
  /-- `rooms`: scratchpad bytes of the granules that hold a WHEEL dispatch's image (spec/15 R440). -/
  | dieLoss (die : Nat) (rooms : List (Nat × Nat))
  | linkSplit (a b : Nat)
  /-- A die's part of a dispatch has been reset (the model's own: log entry 39). -/
  | reset (die dom disp : Nat)
deriving DecidableEq, Repr, Inhabited

/-- What a die keeps for its part of a dispatch (spec/13 R366, R383, R386 to R389, spec/14 R410). -/
structure Part where
  die : Nat
  dom : Nat
  disp : Nat
  /-- Its granules: place in the region, and package number. -/
  granules : List (Nat × Nat) := []
  /-- Expert images of a WHEEL dispatch, address and frames, and the address of its status vector (spec/15 R434). -/
  images : List (Nat × Nat) := []
  statv : Nat := 0
  /-- What its loaders have reported: cluster, expert, status. -/
  loads : List (Nat × Nat × Nat) := []
  /-- Granules at which dispatch start has run. -/
  started : List Nat := []
  /-- Consecutive inactive sweeps; ENDED has been posted. -/
  sweeps : Nat := 0
  ended : Bool := false
  /-- PREEMPT's application and the watchdog limit. -/
  gatedAt : Option Nat := none
  limit : Nat := 0
  /-- Step 1 of a kill, and the cores of which it has discarded requests (spec/14 R417). -/
  killedAt : Option Nat := none
  unmade : List Nat := []
  /-- Room in its save area has been asked for; its entry and offset; SAVED has been posted. -/
  asked : Bool := false
  grant : Option (Nat × Nat) := none
  saved : Bool := false
  committed : Bool := false
  /-- An ERROR for a deadlock or a staged line has been posted. -/
  reported : Bool := false
deriving DecidableEq, Repr, Inhabited

/-- Registers and dispatcher of one die. -/
structure Die where
  /-- `now` when the die left reset (for `%cycle`). -/
  resetAt : Nat := 0
  nocWrr : BitVec 64 := 0x0202_0808
  agePromote : BitVec 16 := 256
  evmask : BitVec 16 := 0xFFFF
  /-- Notices applied. -/
  applied : Nat := 0
  sched : Sched := {}
  /-- Last heartbeat, last quiescence sweep; the Saggar inserts issue gaps (spec/16 R477). -/
  heartbeat : Nat := 0
  sweptAt : Nat := 0
  throttled : Bool := false
deriving DecidableEq, Repr, Inhabited

/-- The expert image table of a WHEEL dispatch as it was read at placement: images, and the address of the status vector (spec/15 R434).
-/
structure WheelTable where
  dom : Nat
  disp : Nat
  images : List (Nat × Nat) := []
  statv : Nat := 0
deriving DecidableEq, Repr, Inhabited

structure DieState where
  dies : Map Die := {}
  parts : List Part := []
  tables : List WheelTable := []
deriving DecidableEq, Repr, Inhabited

/-! ## The hub, the host interface and the Saggar (spec/16) -/

/-- A context entry (spec/16 R450). -/
structure Ctx where
  /-- `CST`: 0 FREE, 1 ACTIVE, 2 TERMINATED. -/
  cst : Nat := 0
  func : Nat := 0
  dtcnt : Nat := 0
  dtbase : BitVec 64 := 0
  trapq : BitVec 64 := 0
  savea : BitVec 64 := 0
  savesz : Nat := 0
  /-- The pre-emption watchdog limit set by `WDOG`; 0 is the package default (spec/04 R153). -/
  wdog : Nat := 0
deriving DecidableEq, Repr, Inhabited

/-- One function's register page (spec/16 R447 to R449, R453, R454). -/
structure Func where
  drops : BitVec 32 := 0
  why : BitVec 8 := 0
  winbase : BitVec 64 := 0
  windom : BitVec 10 := 0
  mbcmd : BitVec 512 := 0
  mbrsp : BitVec 512 := 0
  mbst : Nat := 0
  mberr : Nat := 0
  /-- The mailbox command that runs, DESTROY or KILL: its code and its domain (R449). -/
  running : Option (Nat × Nat) := none
  /-- A reset is in progress (R454), and the step it has reached. -/
  flr : Option Nat := none
  /-- MSI-X vectors dropped while the link was lost. -/
  msixHeld : List Nat := []
  /-- Trap records dropped during a reset (R455). -/
  lost : Nat := 0
deriving DecidableEq, Repr, Inhabited

/-- A record on its way to a trap queue (spec/14 R415). -/
structure Trap where
  dom : Nat
  rec_ : Word
deriving DecidableEq, Repr, Inhabited

/-- A request to the Saggar (spec/04 R148, R149). -/
inductive SagReq where
  | mext (die dom n : Nat) (data : Word)
  | attest (die dom addr pe slot : Nat)
  | verify (die dom addr kind pe slot : Nat)
deriving DecidableEq, Repr, Inhabited

/-- A part that asks for room in its save area (spec/13 R386). -/
structure SaveReq where
  die : Nat
  dom : Nat
  disp : Nat
  len : Nat
deriving DecidableEq, Repr, Inhabited

/-- One of the nine event rings (spec/16 R461): the events, newest first, and the count of events written. -/
structure Ring where
  events : List (BitVec 128) := []
  count : BitVec 32 := 0
deriving DecidableEq, Repr, Inhabited

structure HubState where
  ctxs : Map Ctx := {}
  funcs : Map Func := {}
  /-- The notices in sequencer order (spec/13 R370). -/
  log : List Notice := []
  traps : List Trap := []
  /-- Records of a ninth domain, which wait for a place in the writer's queue (spec/14 R407). -/
  lateTraps : List Trap := []
  /-- Domain 0's records held while slot 0 is EMPTY (spec/16 R474). -/
  heldTraps : List Trap := []
  /-- Records of domain 0 beyond those held, to be counted in `LOST` (R474). -/
  heldLost : Nat := 0
  sag : List SagReq := []
  saveReqs : List SaveReq := []
  wdogDflt : BitVec 6 := 22
  linkhold : BitVec 16 := 5000
  rings : Map Ring := {}
  /-- PCI Express link: up, a power-down request came before, hold started, writes dropped, exchange
  steps under way, as context and phase (spec/15 R423, spec/16 R456, R457). -/
  linkUp : Bool := true
  powerDown : Bool := false
  holdAt : Option Nat := none
  dropped : BitVec 32 := 0
  exch : List (Nat × Nat) := []
  /-- A link hold has been released, and the exchange steps that it held have not run (spec/16 R457). -/
  released : Bool := false
  /-- MSI-X messages sent, newest first: function and vector (spec/16 R453). -/
  msix : List (Nat × Nat) := []
  /-- The data of the last read completion to the host, and of the last sideband answer. -/
  readData : List Byte := []
  sideband : List Byte := []
  /-- VF Enable of the physical function, and how many virtual functions the SR-IOV capability has shown (spec/16 R444). -/
  vfEnable : Bool := false
  numVfs : Nat := 0
  /-- GT/s that the PCI Express link trains at (R444, R463). -/
  linkRate : Nat := 128
  /-- DIGEST rounds judged (spec/13 R372). -/
  judged : Nat := 0
deriving DecidableEq, Repr, Inhabited

/-- A boot-record entry (spec/16 R464, R465). -/
structure BootEntry where
  att : BitVec 32 := 0
  last : Nat := 0
  mode : Nat := 0
  bootno : BitVec 32 := 0
deriving DecidableEq, Repr, Inhabited

/-- A copy of the boot record in management flash: its sequence number, whether its SM3 digest is right, and its entries by
2^16·step + unit (spec/16 R464). -/
structure BootCopy where
  seq : Nat := 0
  valid : Bool := true
  entries : Map BootEntry := {}
deriving DecidableEq, Repr, Inhabited

/-- The Saggar: keys, fuses, measurements, boot record, flash (spec/14 R403, spec/16 R460 to R476). -/
structure SagState where
  /-- Key slots: the keys they hold, none when EMPTY. -/
  keys : Map (Option KeyPair) := {}
  /-- Slot 0's key, kept across `KEYWIPE.all` (R474). -/
  key0 : Option KeyPair := none
  /-- Slots whose master copy at the hub is lost; copies lost after that, as 1024·cluster + slot (spec/14 R403). -/
  lostKeys : List Nat := []
  lostCopies : List Nat := []
  fuses : Map Word := {}
  meas : Map Word := {}
  /-- `%dbgstate`: port open; verified token held. -/
  dbgOpen : Bool := false
  token : Option Word := none
  /-- Every slot wiped since the token verified and none loaded since (spec/04 R152). -/
  wiped : Bool := false
  snonce : BitVec 128 := 0
  identity : Option Nat := none
  /-- The vendor key carried in the Saggar image: x and y (R473). -/
  vendorX : Nat := 0
  vendorY : Nat := 0
  /-- The two copies of the boot record. -/
  boot0 : BootCopy := {}
  boot1 : BootCopy := {}
  clrboot : Bool := false
  /-- The two copies of the start counter (R464); none is an invalid copy. -/
  start0 : Option (BitVec 32) := some 0
  start1 : Option (BitVec 32) := some 0
  bootno : BitVec 32 := 0
  /-- Starts and failed starts since the cold start; management-only mode. -/
  starts : Nat := 0
  failed : Nat := 0
  mgmtOnly : Bool := false
  /-- ROM recovery: of management-only mode the last resort of boot step 0x01 leaves PLDM type 5 (R463). -/
  romOnly : Bool := false
  /-- The unit, as 2^16·step + unit, whose boot step hangs. -/
  hung : Option Nat := none
  /-- Boot parameter: parity mode (R466). -/
  parityParam : Option Bool := none
  /-- Powered. -/
  power : Bool := true
  /-- COMPRESS: compression on, and `RAWX` (R459). -/
  compressOn : Bool := true
  rawx : Bool := true
  /-- The capability list, written at boot (R458). -/
  caps : List Byte := []
  /-- Digests of the Saggar image and the mesh microcode that firmware updates have put in place (R460, R469). -/
  image0 : Option Word := none
  image1 : Option Word := none
deriving DecidableEq, Repr, Inhabited

/-! ## The fabric (spec/17) -/

/-- State of a Bexwen link (spec/17 R479, R480). -/
inductive LinkSt where
  | down | up | disabled
deriving DecidableEq, Repr, Inhabited

/-- A flit on its way to a link: frame kind, virtual channel, bits, and of a header flit its domain. -/
structure OutFlit where
  fk : Nat := 0
  vc : Nat
  bits : BitVec 512
  dom : Option Nat := none
deriving DecidableEq, Repr, Inhabited

/-- A frame in a replay buffer (spec/17 R479), and of a header flit its domain. -/
structure SentFrame where
  bits : BitVec 576
  dom : Option Nat := none
deriving DecidableEq, Repr, Inhabited

/-- A Bexwen link (spec/17 R478 to R480, R488). -/
structure FabLink where
  st : LinkSt := .disabled
  /-- Next `LSEQ` to send, and the last received in order. -/
  lseq : Nat := 0
  lack : Nat := 0xFFF
  /-- Frames sent and not acknowledged, at most 256, and flits that wait for room there. -/
  replay : List SentFrame := []
  waiting : List OutFlit := []
  fails : Nat := 0
  /-- As seen at the last training. -/
  peer : Option Nat := none
  epoch : BitVec 32 := 0
  rawx : Bool := false
  /-- Next `SEQ` of remote atomics. -/
  seq : Nat := 0
  half : Bool := false
  /-- Per virtual channel of what it receives: flits still to come of the packet under way, and where they go: a link, or 12. -/
  cont : Map (Nat × Nat) := {}
  /-- Per virtual channel: the flits received of a packet to this hub. -/
  got : Map (List (BitVec 512)) := {}
deriving DecidableEq, Repr, Inhabited

/-- An entry of the fabric map (spec/17 R481). -/
structure MapEntry where
  pri : Nat := 15
  alt : Nat := 15
  rv : Bool := false
deriving DecidableEq, Repr, Inhabited

/-- A remote atomic outstanding at its requester (spec/17 R488, R490). -/
structure RAtom where
  core : Nat
  /-- The command's place among those that its Comet has accepted. -/
  order : Nat
  dom : Nat
  modl : Nat
  seq : Nat
  slink : Nat
  /-- The link that it was last sent on. -/
  link : Nat
  epoch : BitVec 32
  flit : BitVec 512
  sentAt : Nat
  resends : Nat := 0
deriving DecidableEq, Repr, Inhabited

/-- A de-duplication table (spec/17 R489): (id, `RST`, old value), newest first, and `HIGH`. -/
structure Dedup where
  ids : List (Nat × Nat × BitVec 64) := []
  high : Nat := 0
deriving DecidableEq, Repr, Inhabited

/-- An exchange write on its way to another module (spec/17 R486). -/
structure ExchOut where
  modl : Nat
  dom : Nat
  disp : Nat
  core : Nat
  cc : Nat
  tid : Nat
  /-- The coordinates that it names, which the target resolves, and bytes from their element (spec/17 R482). -/
  coords : Nat
  start : Nat
  data : List Byte
  raw : Bool
  /-- Unit line counts of the frames of a raw exchange; none counted for a frame stored plain (R487). -/
  forms : List (List Nat) := []
  /-- A staged line that has failed: the poison pattern is written (spec/14 R412). -/
  pattern : Bool := false
  tag : Nat
  /-- A staged line sent at commit by this die (spec/17 R486). -/
  commit : Option Nat := none
  /-- Tells the writes on their way apart; its low 12 bits are the `TAG` of its packets. -/
  id : Nat := 0
  /-- The link that its packets were last sent on. -/
  link : Nat := 0
deriving DecidableEq, Repr, Inhabited

/-- An exchange write of another module, as its packets have brought it so far (spec/17 R486). -/
structure ExchIn where
  smod : Nat
  tag : Nat
  dom : Nat
  tid : Nat
  coords : Nat
  start : Nat
  total : Nat
  raw : Bool
  pattern : Bool
  data : List Byte := []
  /-- Of a raw write, per 4 KiB unit: 0 stored plain, else its lines and 1. -/
  units : List Nat := []
deriving DecidableEq, Repr, Inhabited

/-- What a hub hands to its links: a control body for every reachable member (spec/17 R483), or the identity body of a training, with body
word 0 of COMPRESS (R480). -/
inductive FabMsg where
  | ctx (dom : Nat) (active : Bool)
  | phase (dom n : Nat)
  | farr (dom bar gen : Nat)
  | fexit (dom bar : Nat)
  | fbreak (dom bar : Nat)
  | identity (link fabric modl : Nat) (epoch : BitVec 32) (compress : Nat)
deriving DecidableEq, Repr, Inhabited

/-- Keys: group membership and highest ended phase 64·dom + member; de-duplication tables 12·`SMOD` + `SLINK`. -/
structure FabState where
  fabricId : Nat := 0
  moduleId : Nat := 0
  /-- The map in force, and the boot parameter that the next start applies. -/
  map : Map MapEntry := {}
  flashMap : Option (Nat × Nat × List (BitVec 16)) := none
  links : Map FabLink := {}
  members : Map Bool := {}
  reached : Map (Option Nat) := {}
  /-- Received FARR (member, domain, id, generation) and FEXIT (member, domain, id) bodies. -/
  farr : List (Nat × Nat × Nat × Nat) := []
  fexit : List (Nat × Nat × Nat) := []
  /-- FBREAK bodies received: domain, id. -/
  fbreak : List (Nat × Nat) := []
  ratoms : List RAtom := []
  dedup : Map Dedup := {}
  exch : List ExchOut := []
  arriving : List ExchIn := []
  exchNext : Nat := 0
  /-- Control and identity bodies handed to the links, oldest first. -/
  sent : List FabMsg := []
  unreachable : List Nat := []
deriving DecidableEq, Repr, Inhabited

/-! ## The whole -/

/-- An upset from the world that the manual lets happen at any time (spec/06 R193 to R195, spec/08 R251,
spec/09 R259, spec/14 R397); log entry 16. -/
inductive Upset where
  | register (pe reg : Nat)
  | slot (pe slot : Nat)
  | store (pe entry : Nat)
  | poolWord (core word : Nat) (hard : Bool)
  | glaze (core cell : Nat)
  | line (line : Nat)
  | opWord (cluster word : Nat)
  /-- An entry of a Kiln's overflow buffer, by its element. -/
  | ovfEntry (kiln element : Nat)
  | tileLine (cluster key line word : Nat)
  | stageLine (cluster dom disp line word : Nat)
  | cacheFrame (cluster entry frame : Nat)
  /-- A controller's copy of a key slot, and the hub's master copy (spec/14 R403). -/
  | keyCopy (cluster slot : Nat)
  | keyMaster (slot : Nat)
  /-- A copy of the boot record, and of the start counter, whose digest no longer matches (spec/16 R464). -/
  | bootCopy (copy : Nat)
  | startCopy (copy : Nat)
deriving DecidableEq, Repr, Inhabited

/-- Who acts next: a PE issues, another unit performs an operation, an upset happens. -/
inductive Agent where
  | issue (pe : Nat)
  | event (i : Instr)
  | upset (u : Upset)
deriving DecidableEq, Repr, Inhabited

/-- The module. `agenda`, `free`, `now` and `cur` are the model's own (log entry 2). -/
structure State where
  unit : UnitState := {}
  router : RouterState := {}
  core : CoreState := {}
  sync : SyncState := {}
  cluster : ClusterState := {}
  mesh : MeshState := {}
  mem : MemState := {}
  die : DieState := {}
  hub : HubState := {}
  sag : SagState := {}
  fab : FabState := {}
  /-- Who acts next, in order; when nobody is listed, a free choice decides. -/
  agenda : List Agent := []
  /-- Numbers the free values drawn so far. -/
  free : Nat := 0
  /-- Cycles since power-up. -/
  now : Nat := 0
  /-- The PE whose instruction is executing. -/
  cur : Nat := 0
  /-- By core: when a token of it last moved, an instruction issued in it or a request of it performed
  (spec/13 R389). -/
  act : Map Nat := {}
deriving DecidableEq, Repr

/-- Domain 0's context entry at every start (spec/16 R451). -/
def Ctx.supervisor : Ctx := { cst := 1 }

/-- Register and fuse values at the first power-up of a module that left manufacture: fuses zero but for the default parity mode, which is
protected as `MemState.parity` is; lifecycle BLANK, in which the debug port is open at every start (spec/16 R466 to R468; log entry 17).
Key slot 0 is LOADED with the Saggar's key 0 (log entry 18). -/
def SagState.reset : SagState :=
  { keys := { cells := [(0, some {})] }, key0 := some {}, fuses := { cells := [(1, 1)] }, dbgOpen := true }

/-- The module right after power-up, before any step (log entries 17 to 20): every table empty, so that every
element stands at its reset value. -/
def State.reset : State :=
  { hub := { ctxs := { cells := [(0, Ctx.supervisor)] } }, sag := SagState.reset }

/-- Why the machine stops with a fault. -/
inductive Fault where
  /-- Raised by no meaning: the manual's machine never stops at an instruction, and step refuses a unit number that the package does
  not have as `illFormed`. The constructor keeps the type inhabited. Safe. -/
  | noSuchUnit
deriving DecidableEq, Repr

/-- Why a step has no meaning. -/
inductive Refusal where
  /-- Raised by the arms of exec that have no meaning; there are none. Safe. -/
  | notModelled (mnemonic : String)
  /-- Raised by step at an instruction whose operands do not fit its constructor (`Instr.wf`). Safe: no word
  decodes to it. -/
  | illFormed
deriving DecidableEq, Repr

end Sys2Proof.Machine
end

