-- ==== Sys2Proof/Machine/Maps.lean ====
section
/-! DEFINITION. Reading and writing the sparse tables of State, in one canonical form. -/
namespace Sys2Proof

variable {α : Type}

/-- The value at key `k` of a list of cells, else the value `d` that an unlisted key reads as. -/
def Map.findIn (d : α) (k : Nat) : List (Nat × α) → α
  | [] => d
  | (j, v) :: cs => if j = k then v else Map.findIn d k cs

/-- The value at key `k`; `d` is what an unlisted key reads as. -/
def Map.find (m : Map α) (k : Nat) (d : α) : α := Map.findIn d k m.cells

/-- Writes `v` at key `k` of rising cells, whatever `v` is. -/
def Map.insertIn (k : Nat) (v : α) : List (Nat × α) → List (Nat × α)
  | [] => [(k, v)]
  | (j, u) :: cs => if k < j then (k, v) :: (j, u) :: cs else if k = j then (k, v) :: cs else (j, u) :: Map.insertIn k v cs

/-- Writes `v` at key `k` of rising cells; a value equal to `d` removes the entry. -/
def Map.putIn [DecidableEq α] (d : α) (k : Nat) (v : α) (cs : List (Nat × α)) : List (Nat × α) :=
  if v = d then cs.filter fun c => c.1 ≠ k else Map.insertIn k v cs

/-- The table with `v` at key `k`. -/
def Map.put [DecidableEq α] (m : Map α) (k : Nat) (v d : α) : Map α := ⟨Map.putIn d k v m.cells⟩

/-- Keys rise strictly and none is below `lo`. -/
def Map.risingFrom (lo : Nat) : List (Nat × α) → Bool
  | [] => true
  | (j, _) :: cs => decide (lo ≤ j) && Map.risingFrom (j + 1) cs

/-- No entry holds `d`. -/
def Map.noneIs [DecidableEq α] (d : α) : List (Nat × α) → Bool
  | [] => true
  | (_, v) :: cs => decide (v ≠ d) && Map.noneIs d cs

/-- The canonical form of a table whose unlisted keys read as `d`. -/
def Map.wf [DecidableEq α] (m : Map α) (d : α) : Bool := Map.risingFrom 0 m.cells && Map.noneIs d m.cells

/-- The cells whose keys lie in lo, lo + 1, … lo + n - 1. -/
def Map.range (m : Map α) (lo n : Nat) : List (Nat × α) :=
  m.cells.filter fun c => decide (lo ≤ c.1) && decide (c.1 < lo + n)

/-- The table without the keys lo to lo + n - 1. -/
def Map.erase (m : Map α) (lo n : Nat) : Map α :=
  ⟨m.cells.filter fun c => !(decide (lo ≤ c.1) && decide (c.1 < lo + n))⟩

/-- Writes a list of values at rising keys. -/
def Map.putList [DecidableEq α] (d : α) : Nat → List α → Map α → Map α
  | _, [], m => m
  | k, v :: vs, m => Map.putList d (k + 1) vs (m.put k v d)

/-- The values at n rising keys. -/
def Map.getList (m : Map α) (d : α) (k : Nat) : Nat → List α
  | 0 => []
  | n + 1 => m.find k d :: Map.getList m d (k + 1) n

/-- The value at key `k` of a table in which an unlisted key has no value. -/
def Map.get? (m : Map α) (k : Nat) : Option α := Map.findIn none k (m.cells.map fun c => (c.1, some c.2))

/-- The table with `v` listed at key `k`. -/
def Map.insert (m : Map α) (k : Nat) (v : α) : Map α := ⟨Map.insertIn k v m.cells⟩

/-- Lists values at rising keys. -/
def Map.insertList : Nat → List α → Map α → Map α
  | _, [], m => m
  | k, v :: vs, m => Map.insertList (k + 1) vs (m.insert k v)

/-- The entries of a table of lists without those that fail a test. -/
def Map.keepLists (m : Map (List α)) (at_ : Nat → Bool) (keep : α → Bool) : Map (List α) :=
  let f (c : Nat × List α) : Option (Nat × List α) :=
    if at_ c.1 then (match c.2.filter keep with | [] => none | xs => some (c.1, xs)) else some c
  ⟨m.cells.filterMap f⟩

/-- A table with some of its entries changed. -/
def Map.mapAt (m : Map α) (at_ : Nat × α → Bool) (f : α → α) : Map α :=
  ⟨m.cells.map fun c => if at_ c then (c.1, f c.2) else c⟩

/-- A table without some of its entries. -/
def Map.drop (m : Map α) (p : Nat × α → Bool) : Map α := ⟨m.cells.filter fun c => !p c⟩

/-- Updates the value at one key. -/
def Map.upd [DecidableEq α] (m : Map α) (k : Nat) (d : α) (f : α → α) : Map α := m.put k (f (m.find k d)) d

end Sys2Proof

namespace Sys2Proof.Machine

/-- The canonical form of the package's memory: the bytes listed with rising addresses. No byte is equal to what an
unlisted address reads as, since that is no byte at all; a written byte is listed whatever its value. -/
def MemState.wf (m : MemState) : Bool := Map.risingFrom 0 m.bytes.cells

end Sys2Proof.Machine
end

