-- ==== Sys2Proof/Machine/Access.lean ====
section
/-! DEFINITION. One accessor and one update for each table of State: the one place where the key of a table and the
value that an unlisted key reads as are said. -/
namespace Sys2Proof.Machine

def State.task (s : State) (pe t : Nat) : Task := s.unit.tasks.find (8 * pe + t) {}
def State.setTask (s : State) (pe t : Nat) (v : Task) : State :=
  { s with unit := { s.unit with tasks := s.unit.tasks.put (8 * pe + t) v {} } }

def State.reg (s : State) (pe n : Nat) : Word := s.unit.regs.find (64 * pe + n) 0
def State.setReg (s : State) (pe n : Nat) (v : Word) : State :=
  { s with unit := { s.unit with regs := s.unit.regs.put (64 * pe + n) v 0 } }

def State.predOf (s : State) (pe q : Nat) : Pred := s.unit.preds.find (8 * pe + q) 0
def State.setPredOf (s : State) (pe q : Nat) (v : Pred) : State :=
  { s with unit := { s.unit with preds := s.unit.preds.put (8 * pe + q) v 0 } }

def State.slotOf (s : State) (pe n : Nat) : Token := s.unit.slots.find (256 * pe + n) {}
def State.setSlotOf (s : State) (pe n : Nat) (v : Token) : State :=
  { s with unit := { s.unit with slots := s.unit.slots.put (256 * pe + n) v {} } }

def State.entry (s : State) (pe n : Nat) : StoreEntry := s.unit.store.find (256 * pe + n) {}
def State.setEntry (s : State) (pe n : Nat) (v : StoreEntry) : State :=
  { s with unit := { s.unit with store := s.unit.store.put (256 * pe + n) v {} } }

def State.handle (s : State) (pe h : Nat) : Handle := s.unit.handles.find (32 * pe + h) {}
def State.setHandle (s : State) (pe h : Nat) (v : Handle) : State :=
  { s with unit := { s.unit with handles := s.unit.handles.put (32 * pe + h) v {} } }

def State.chooser (s : State) (pe : Nat) : Chooser := s.unit.choosers.find (pe) {}
def State.setChooser (s : State) (pe : Nat) (v : Chooser) : State :=
  { s with unit := { s.unit with choosers := s.unit.choosers.put (pe) v {} } }

def State.badReg (s : State) (pe n : Nat) : Bool := s.unit.badRegs.find (64 * pe + n) false
def State.setBadReg (s : State) (pe n : Nat) (v : Bool) : State :=
  { s with unit := { s.unit with badRegs := s.unit.badRegs.put (64 * pe + n) v false } }

def State.damagedReg (s : State) (pe n : Nat) : Bool := s.unit.damaged.find (64 * pe + n) false
def State.setDamagedReg (s : State) (pe n : Nat) (v : Bool) : State :=
  { s with unit := { s.unit with damaged := s.unit.damaged.put (64 * pe + n) v false } }

def State.oplog (s : State) (pe : Nat) : List (Nat×Word) := s.unit.oplog.find (pe) []
def State.setOplog (s : State) (pe : Nat) (v : List (Nat×Word)) : State :=
  { s with unit := { s.unit with oplog := s.unit.oplog.put (pe) v [] } }

def State.peDetector (s : State) (pe : Nat) : Detector := s.unit.detectors.find (pe) {}
def State.setPeDetector (s : State) (pe : Nat) (v : Detector) : State :=
  { s with unit := { s.unit with detectors := s.unit.detectors.put (pe) v {} } }

def State.link (s : State) (r dir vc : Nat) : List (Token) := s.router.links.find ((4 * r + dir) * 4 + vc) []
def State.setLink (s : State) (r dir vc : Nat) (v : List (Token)) : State :=
  { s with router := { s.router with links := s.router.links.put ((4 * r + dir) * 4 + vc) v [] } }

def State.linkLast (s : State) (r dir : Nat) : Nat := s.router.linkLast.find (4 * r + dir) 3
def State.setLinkLast (s : State) (r dir : Nat) (v : Nat) : State :=
  { s with router := { s.router with linkLast := s.router.linkLast.put (4 * r + dir) v 3 } }

def State.localInLast (s : State) (r : Nat) : Nat := s.router.localInLast.find (r) 63
def State.setLocalInLast (s : State) (r : Nat) (v : Nat) : State :=
  { s with router := { s.router with localInLast := s.router.localInLast.put (r) v 63 } }

def State.localOutLast (s : State) (r : Nat) : Nat := s.router.localOutLast.find (r) 63
def State.setLocalOutLast (s : State) (r : Nat) (v : Nat) : State :=
  { s with router := { s.router with localOutLast := s.router.localOutLast.put (r) v 63 } }

def State.elemInLast (s : State) (r : Nat) : Nat := s.router.elemInLast.find (r) 63
def State.setElemInLast (s : State) (r : Nat) (v : Nat) : State :=
  { s with router := { s.router with elemInLast := s.router.elemInLast.put (r) v 63 } }

def State.elemOutLast (s : State) (r : Nat) : Nat := s.router.elemOutLast.find (r) 63
def State.setElemOutLast (s : State) (r : Nat) (v : Nat) : State :=
  { s with router := { s.router with elemOutLast := s.router.elemOutLast.put (r) v 63 } }

def State.route (s : State) (r e : Nat) : Route := s.router.routes.find (64 * r + e) {}
def State.setRoute (s : State) (r e : Nat) (v : Route) : State :=
  { s with router := { s.router with routes := s.router.routes.put (64 * r + e) v {} } }

def State.opSlot (s : State) (r k : Nat) : OpSlot := s.router.ops.find (2 * r + k) {}
def State.setOpSlot (s : State) (r k : Nat) (v : OpSlot) : State :=
  { s with router := { s.router with ops := s.router.ops.put (2 * r + k) v {} } }

def State.islandAt (s : State) (r vc : Nat) : IslandPort := s.router.islands.find (4 * r + vc) {}
def State.setIslandAt (s : State) (r vc : Nat) (v : IslandPort) : State :=
  { s with router := { s.router with islands := s.router.islands.put (4 * r + vc) v {} } }

def State.info (s : State) (c : Nat) : CoreInfo := s.core.info.find (c) {}
def State.setInfo (s : State) (c : Nat) (v : CoreInfo) : State :=
  { s with core := { s.core with info := s.core.info.put (c) v {} } }

def State.poolByte (s : State) (c a : Nat) : Byte := s.core.pool.find (2 ^ 19 * c + a) 0
def State.setPoolByte (s : State) (c a : Nat) (v : Byte) : State :=
  { s with core := { s.core with pool := s.core.pool.put (2 ^ 19 * c + a) v 0 } }

def State.poolFault (s : State) (c w : Nat) : PoolFault := s.core.poolFaults.find (2 ^ 16 * c + w) .good
def State.setPoolFault (s : State) (c w : Nat) (v : PoolFault) : State :=
  { s with core := { s.core with poolFaults := s.core.poolFaults.put (2 ^ 16 * c + w) v .good } }

def State.tensor (s : State) (c k : Nat) : PoolTensor := s.core.tensors.find (4096 * c + k) {}
def State.setTensor (s : State) (c k : Nat) (v : PoolTensor) : State :=
  { s with core := { s.core with tensors := s.core.tensors.put (4096 * c + k) v {} } }

def State.node (s : State) (n : Nat) : Node := s.core.nodes.find (n) {}
def State.setNode (s : State) (n : Nat) (v : Node) : State :=
  { s with core := { s.core with nodes := s.core.nodes.put (n) v {} } }

def State.agen (s : State) (n : Nat) : Agen := s.core.agens.find (n) {}
def State.setAgen (s : State) (n : Nat) (v : Agen) : State :=
  { s with core := { s.core with agens := s.core.agens.put (n) v {} } }

def State.glaze (s : State) (c : Nat) : Glaze := s.core.glazes.find (c) {}
def State.setGlaze (s : State) (c : Nat) (v : Glaze) : State :=
  { s with core := { s.core with glazes := s.core.glazes.put (c) v {} } }

def State.cursor (s : State) (c k : Nat) : Cursor := s.core.cursors.find (4 * c + k) {}
def State.setCursor (s : State) (c k : Nat) (v : Cursor) : State :=
  { s with core := { s.core with cursors := s.core.cursors.put (4 * c + k) v {} } }

def State.bankDetector (s : State) (b : Nat) : Detector := s.core.banks.find (b) {}
def State.setBankDetector (s : State) (b : Nat) (v : Detector) : State :=
  { s with core := { s.core with banks := s.core.banks.put (b) v {} } }

def State.bankLast (s : State) (c b : Nat) : Nat := s.core.bankLast.find (32 * c + b) 7
def State.setBankLast (s : State) (c b : Nat) (v : Nat) : State :=
  { s with core := { s.core with bankLast := s.core.bankLast.put (32 * c + b) v 7 } }

def State.barrier (s : State) (k : Nat) : Barrier := s.sync.counters.find (k) {}
def State.setBarrier (s : State) (k : Nat) (v : Barrier) : State :=
  { s with sync := { s.sync with counters := s.sync.counters.put (k) v {} } }

def State.cometPort (s : State) (cm p : Nat) : CometPort := s.cluster.ports.find (256 * cm + p) {}
def State.setCometPort (s : State) (cm p : Nat) (v : CometPort) : State :=
  { s with cluster := { s.cluster with ports := s.cluster.ports.put (256 * cm + p) v {} } }

def State.stream (s : State) (c r : Nat) : StreamReg := s.cluster.streams.find (24 * c + r) {}
def State.setStream (s : State) (c r : Nat) (v : StreamReg) : State :=
  { s with cluster := { s.cluster with streams := s.cluster.streams.put (24 * c + r) v {} } }

def State.cmdq (s : State) (c : Nat) : List (Cmd) := s.cluster.cmds.find (c) []
def State.setCmdq (s : State) (c : Nat) (v : List (Cmd)) : State :=
  { s with cluster := { s.cluster with cmds := s.cluster.cmds.put (c) v [] } }

def State.accepted (s : State) (cm : Nat) : Nat := s.cluster.accepted.find (cm) 0
def State.setAccepted (s : State) (cm : Nat) (v : Nat) : State :=
  { s with cluster := { s.cluster with accepted := s.cluster.accepted.put (cm) v 0 } }

def State.cc (s : State) (c k : Nat) : CompCtr := s.cluster.ccs.find (16 * c + k) {}
def State.setCc (s : State) (c k : Nat) (v : CompCtr) : State :=
  { s with cluster := { s.cluster with ccs := s.cluster.ccs.put (16 * c + k) v {} } }

def State.kslot (s : State) (cl n : Nat) : KSlot := s.cluster.slots.find (128 * cl + n) {}
def State.setKslot (s : State) (cl n : Nat) (v : KSlot) : State :=
  { s with cluster := { s.cluster with slots := s.cluster.slots.put (128 * cl + n) v {} } }

def State.opByte (s : State) (cl n b : Nat) : Byte := s.cluster.opmem.find (2 ^ 15 * (128 * cl + n) + b) 0
def State.setOpByte (s : State) (cl n b : Nat) (v : Byte) : State :=
  { s with cluster := { s.cluster with opmem := s.cluster.opmem.put (2 ^ 15 * (128 * cl + n) + b) v 0 } }

def State.kctr (s : State) (cl n : Nat) : KCtr := s.cluster.kctrs.find (32 * cl + n) {}
def State.setKctr (s : State) (cl n : Nat) (v : KCtr) : State :=
  { s with cluster := { s.cluster with kctrs := s.cluster.kctrs.put (32 * cl + n) v {} } }

def State.krecs (s : State) (cl : Nat) : List (KRec) := s.cluster.krecs.find (cl) []
def State.setKrecs (s : State) (cl : Nat) (v : List (KRec)) : State :=
  { s with cluster := { s.cluster with krecs := s.cluster.krecs.put (cl) v [] } }

def State.kiln (s : State) (k : Nat) : Option (SubTile) := s.cluster.kilns.find (k) none
def State.setKiln (s : State) (k : Nat) (v : Option (SubTile)) : State :=
  { s with cluster := { s.cluster with kilns := s.cluster.kilns.put (k) v none } }

def State.kport (s : State) (k p : Nat) : List (Token) := s.cluster.kports.find (16 * k + p) []
def State.setKport (s : State) (k p : Nat) (v : List (Token)) : State :=
  { s with cluster := { s.cluster with kports := s.cluster.kports.put (16 * k + p) v [] } }

def State.limitsOf (s : State) (g : Nat) : Limits := s.cluster.limits.find (g) {}
def State.setLimitsOf (s : State) (g : Nat) (v : Limits) : State :=
  { s with cluster := { s.cluster with limits := s.cluster.limits.put (g) v {} } }

def State.kilnDetector (s : State) (k : Nat) : Detector := s.cluster.detectors.find (k) {}
def State.setKilnDetector (s : State) (k : Nat) (v : Detector) : State :=
  { s with cluster := { s.cluster with detectors := s.cluster.detectors.put (k) v {} } }

def State.migrateWait (s : State) (cl : Nat) : BitVec 24 := s.cluster.migrateWait.find (cl) 4096
def State.setMigrateWait (s : State) (cl : Nat) (v : BitVec 24) : State :=
  { s with cluster := { s.cluster with migrateWait := s.cluster.migrateWait.put (cl) v 4096 } }

def State.loader (s : State) (cl : Nat) : Loader := s.cluster.loaders.find (cl) {}
def State.setLoader (s : State) (cl : Nat) (v : Loader) : State :=
  { s with cluster := { s.cluster with loaders := s.cluster.loaders.put (cl) v {} } }

def State.meshIn (s : State) (r i vc : Nat) : List (Flit) := s.mesh.inputs.find ((12 * r + i) * 4 + vc) []
def State.setMeshIn (s : State) (r i vc : Nat) (v : List (Flit)) : State :=
  { s with mesh := { s.mesh with inputs := s.mesh.inputs.put ((12 * r + i) * 4 + vc) v [] } }

def State.meshOut (s : State) (r o : Nat) : MeshOut := s.mesh.outs.find (12 * r + o) {}
def State.setMeshOut (s : State) (r o : Nat) (v : MeshOut) : State :=
  { s with mesh := { s.mesh with outs := s.mesh.outs.put (12 * r + o) v {} } }

def State.meshDone (s : State) (r o : Nat) : List (Flit) := s.mesh.delivered.find (12 * r + o) []
def State.setMeshDone (s : State) (r o : Nat) (v : List (Flit)) : State :=
  { s with mesh := { s.mesh with delivered := s.mesh.delivered.put (12 * r + o) v [] } }

def State.frame (s : State) (f : Nat) : Frame := s.mem.frames.find (f) {}
def State.setFrame (s : State) (f : Nat) (v : Frame) : State :=
  { s with mem := { s.mem with frames := s.mem.frames.put (f) v {} } }

def State.lineFault (s : State) (l : Nat) : LineFault := s.mem.faults.find (l) .good
def State.setLineFault (s : State) (l : Nat) (v : LineFault) : State :=
  { s with mem := { s.mem with faults := s.mem.faults.put (l) v .good } }

def State.ctrlQ (s : State) (k : Nat) : List (CtrlReq) := s.mem.ctrl.find (k) []
def State.setCtrlQ (s : State) (k : Nat) (v : List (CtrlReq)) : State :=
  { s with mem := { s.mem with ctrl := s.mem.ctrl.put (k) v [] } }

def State.gatherQ (s : State) (k : Nat) : List (GatherReq) := s.mem.gather.find (k) []
def State.setGatherQ (s : State) (k : Nat) (v : List (GatherReq)) : State :=
  { s with mem := { s.mem with gather := s.mem.gather.put (k) v [] } }

def State.dieOf (s : State) (d : Nat) : Die := s.die.dies.find (d) {}
def State.setDieOf (s : State) (d : Nat) (v : Die) : State :=
  { s with die := { s.die with dies := s.die.dies.put (d) v {} } }

def State.ctx (s : State) (dom : Nat) : Ctx := s.hub.ctxs.find (dom) {}
def State.setCtx (s : State) (dom : Nat) (v : Ctx) : State :=
  { s with hub := { s.hub with ctxs := s.hub.ctxs.put (dom) v {} } }

def State.func (s : State) (f : Nat) : Func := s.hub.funcs.find (f) {}
def State.setFunc (s : State) (f : Nat) (v : Func) : State :=
  { s with hub := { s.hub with funcs := s.hub.funcs.put (f) v {} } }

def State.ring (s : State) (r : Nat) : Ring := s.hub.rings.find (r) {}
def State.setRing (s : State) (r : Nat) (v : Ring) : State :=
  { s with hub := { s.hub with rings := s.hub.rings.put (r) v {} } }

def State.keySlot (s : State) (k : Nat) : Option (KeyPair) := s.sag.keys.find (k) none
def State.setKeySlot (s : State) (k : Nat) (v : Option (KeyPair)) : State :=
  { s with sag := { s.sag with keys := s.sag.keys.put (k) v none } }

def State.fuse (s : State) (k : Nat) : Word := s.sag.fuses.find (k) 0
def State.setFuse (s : State) (k : Nat) (v : Word) : State :=
  { s with sag := { s.sag with fuses := s.sag.fuses.put (k) v 0 } }

def State.measReg (s : State) (k : Nat) : Word := s.sag.meas.find (k) 0
def State.setMeasReg (s : State) (k : Nat) (v : Word) : State :=
  { s with sag := { s.sag with meas := s.sag.meas.put (k) v 0 } }

def State.mapEntry (s : State) (m : Nat) : MapEntry := s.fab.map.find (m) {}
def State.setMapEntry (s : State) (m : Nat) (v : MapEntry) : State :=
  { s with fab := { s.fab with map := s.fab.map.put (m) v {} } }

def State.fabLink (s : State) (l : Nat) : FabLink := s.fab.links.find (l) {}
def State.setFabLink (s : State) (l : Nat) (v : FabLink) : State :=
  { s with fab := { s.fab with links := s.fab.links.put (l) v {} } }

def State.member (s : State) (dom m : Nat) : Bool := s.fab.members.find (64 * dom + m) false
def State.setMember (s : State) (dom m : Nat) (v : Bool) : State :=
  { s with fab := { s.fab with members := s.fab.members.put (64 * dom + m) v false } }

def State.reached (s : State) (dom m : Nat) : Option (Nat) := s.fab.reached.find (64 * dom + m) none
def State.setReached (s : State) (dom m : Nat) (v : Option (Nat)) : State :=
  { s with fab := { s.fab with reached := s.fab.reached.put (64 * dom + m) v none } }

def State.dedup (s : State) (k : Nat) : Dedup := s.fab.dedup.find (k) {}
def State.setDedup (s : State) (k : Nat) (v : Dedup) : State :=
  { s with fab := { s.fab with dedup := s.fab.dedup.put (k) v {} } }

end Sys2Proof.Machine
end

