-- ==== Sys2Proof/Machine/Bits.lean ====
section
/-! DEFINITION. Fields, lanes, sign extension and byte order. -/
namespace Sys2Proof

/-- Field of `n` bits that begins at bit `lo`. -/
def fieldNat (lo n : Nat) (v : Nat) : Nat := (v >>> lo) % 2 ^ n

/-- Field [lo+n-1 : lo] of a bit vector, as a number. -/
def bitsOf {w : Nat} (lo n : Nat) (v : BitVec w) : Nat := fieldNat lo n v.toNat

/-- Bit k. -/
def bitAt {w : Nat} (k : Nat) (v : BitVec w) : Bool := v.getLsbD k

/-- The two's complement reading of a w-bit number. -/
def signedOf (w v : Nat) : Int := if 2 * (v % 2 ^ w) < 2 ^ w then ((v % 2 ^ w : Nat) : Int) else ((v % 2 ^ w : Nat) : Int) - ((2 ^ w : Nat) : Int)

/-- A mathematical integer modulo 2^w. -/
def wrapTo (w : Nat) (z : Int) : Nat := (z % ((2 ^ w : Nat) : Int)).toNat

/-- Lane i of width w (spec/02 R58). -/
def laneOf (w i : Nat) (v : Word) : Nat := fieldNat (w * i) w v.toNat

/-- The number whose n lanes of width w, the first least significant, are given by `f` from lane i on. -/
def joinFrom (w : Nat) (f : Nat → Nat) (i : Nat) : Nat → Nat
  | 0 => 0
  | n + 1 => f i % 2 ^ w + 2 ^ w * joinFrom w f (i + 1) n

/-- The word whose n lanes of width w are given by `f` (R58). -/
def mkWord (w n : Nat) (f : Nat → Nat) : Word := BitVec.ofNat 256 (joinFrom w f 0 n)

/-- Bytes, the first least significant, as a number (spec/01 R10). -/
def natOfBytes : List Byte → Nat
  | [] => 0
  | b :: bs => b.toNat + 256 * natOfBytes bs

/-- n bytes of a number, the first least significant (R10). -/
def bytesOfNat : Nat → Nat → List Byte
  | 0, _ => []
  | n + 1, v => BitVec.ofNat 8 v :: bytesOfNat n (v / 256)

/-- A number whose bit i is `f i`, for i below n. -/
def bitmapOf (n : Nat) (f : Nat → Bool) : Nat := joinFrom 1 (fun i => if f i then 1 else 0) 0 n

/-- Places numbers side by side: (width, value), the least significant first. -/
def packFields : List (Nat × Nat) → Nat
  | [] => 0
  | (n, v) :: fs => v % 2 ^ n + 2 ^ n * packFields fs

/-- The least k below n with `p k`, from i on. -/
def firstFrom (p : Nat → Bool) (i : Nat) : Nat → Option Nat
  | 0 => none
  | n + 1 => if p i then some i else firstFrom p (i + 1) n

/-- The least k below n with `p k`. -/
def firstBelow (n : Nat) (p : Nat → Bool) : Option Nat := firstFrom p 0 n

/-- Count of the k below n with `p k`. -/
def countBelow (p : Nat → Bool) : Nat → Nat
  | 0 => 0
  | n + 1 => countBelow p n + (if p n then 1 else 0)

/-- Folds over 0, 1, … n - 1 in rising order. -/
def foldUpFrom {β : Type} (f : β → Nat → β) (i : Nat) : Nat → β → β
  | 0, b => b
  | n + 1, b => foldUpFrom f (i + 1) n (f b i)

/-- Folds over 0, 1, … n - 1 in rising order. -/
def foldUp {β : Type} (n : Nat) (b : β) (f : β → Nat → β) : β := foldUpFrom f 0 n b

/-- Puts a number into a rising list. -/
def insertNat (n : Nat) : List Nat → List Nat
  | [] => [n]
  | x :: xs => if n ≤ x then n :: x :: xs else x :: insertNat n xs

/-- The numbers of a list in rising order. -/
def sortNat : List Nat → List Nat
  | [] => []
  | x :: xs => insertNat x (sortNat xs)

/-- No element of a list stands twice. -/
def distinct {α : Type} [DecidableEq α] : List α → Bool
  | [] => true
  | x :: xs => !xs.contains x && distinct xs

/-- The sum of a list. -/
def sumNat (xs : List Nat) : Nat := xs.foldl (· + ·) 0

end Sys2Proof
end

