-- ==== Sys2Proof/Machine/Ops.lean ====
section
/-! DEFINITION. The named operations that the meanings share: where a unit stands, records of poison and traps, events,
posting, emitting poison (the machine's exception entry, spec/06 R187 to R192), windows and the end of a firing. -/
namespace Sys2Proof.Machine

/-- What a step answers. -/
abbrev Out := Host.Outcome State Fault Refusal

/-! ## Where a unit stands (log entry 1) -/

def coreOfPe (pe : Nat) : Nat := pe / 16
def clusterOfCore (core : Nat) : Nat := core / 16
def dieOfCore (core : Nat) : Nat := core / 256
def dieOfCluster (cl : Nat) : Nat := cl / 16

/-- The quadrant of a core in its cluster: granule 4·cluster + q with q = 2·(y / 2) + x / 2 (spec/01 R28). -/
def granuleOfCore (core : Nat) : Nat := 4 * (core / 16) + (2 * (core % 16 / 8) + core % 4 / 2)

/-- The four cores of a granule, in the order of R28. -/
def coresOfGranule (g : Nat) : List Nat :=
  let base := 16 * (g / 4) + 8 * (g % 4 / 2) + 2 * (g % 2)
  [base, base + 1, base + 4, base + 5]

/-- The domain that holds a core (spec/09 R266). -/
def State.domOf (s : State) (core : Nat) : Nat := (s.info core).dom.getD 0

/-- `%cycle` of a die (spec/04 R134). -/
def State.cycleOf (s : State) (die : Nat) : Nat := (s.now - (s.dieOf die).resetAt) % 2 ^ 64

/-- A die's replica of a context. -/
def State.ctxSched (s : State) (die dom : Nat) : CtxSched := (s.dieOf die).sched.ctxs.find dom {}

/-- `%phase` of a context as a die knows it. -/
def State.phaseOf (s : State) (die dom : Nat) : Nat := (s.ctxSched die dom).phase

/-- The dies declared lost by a notice in the hub's log (spec/13 R390). -/
def State.lostDies (s : State) : List Nat :=
  s.hub.log.filterMap fun n => match n with | .dieLoss d _ => some d | _ => none

/-- The bits of `%lifecycle` from the fuse code (spec/04 R134, spec/16 R468). -/
def State.lifecycle (s : State) : Nat :=
  match bitsOf 0 3 (s.fuse 0) with | 0 => 0 | 1 => 1 | 3 => 2 | 7 => 3 | _ => 0

/-- The dispatch of a domain with this `%dispatch` in a die's replica. -/
def State.dispOf (s : State) (die dom disp : Nat) : Option Disp :=
  (s.dieOf die).sched.disps.find? fun d => d.dom = dom ∧ d.disp = disp

/-- The number of a dispatch state in `DSTATE` (spec/14 R416). -/
def DispSt.code : DispSt → Nat
  | .waiting => 0 | .ready => 1 | .placed => 2 | .loading => 3 | .running => 4 | .gating => 5 | .saved => 6
  | .draining => 7 | .committed => 8 | .retired => 9 | .killed => 10 | .requeued => 11

def DispSt.final (d : DispSt) : Bool := decide (d = .retired) || decide (d = .killed)

/-! ## Activity (spec/13 R389) -/

/-- Notes activity in a core. -/
def State.touch (s : State) (core : Nat) : State := { s with act := s.act.put core s.now 0 }

/-! ## Cause codes (spec/06 R188) -/
namespace Cause
def illegalOp : Nat := 0x01
def illegalOperand : Nat := 0x02
def execLiteral : Nat := 0x03
def rateMismatch : Nat := 0x04
def divZero : Nat := 0x05
def rfParity : Nat := 0x06
def poolUe : Nat := 0x07
def hbmUe : Nat := 0x08
def metaUe : Nat := 0x09
def t5Reserved : Nat := 0x0A
def unimplCombo : Nat := 0x0B
def ovfFull : Nat := 0x0C
def barBroken : Nat := 0x0D
def translation : Nat := 0x0E
def protection : Nat := 0x0F
def stageOverflow : Nat := 0x10
def deadlock : Nat := 0x11
def linkDown : Nat := 0x12
def dieLost : Nat := 0x13
def watchdog : Nat := 0x14
def userTrap : Nat := 0x15
end Cause

/-! ## Poison records (spec/06 R187) -/

/-- Who raises a record: `OKIND`, the core it belongs to as a global number (a cluster-level origin gives core 0 of its
cluster and `cluLevel`), `OELEM`, `OTASK`, `OTIW`, domain and dispatch. -/
structure Origin where
  kind : Nat
  die : Nat
  clu : Nat := 0
  core : Nat := 0
  elem : Nat := 0
  task : Nat := 0
  tiw : Nat := 0
  dom : Nat := 0
  disp : Nat := 0xFFFFFFFF
deriving DecidableEq, Repr

/-- The origin of an element of a core. -/
def State.coreOrigin (s : State) (kind core elem : Nat) (task tiw : Nat := 0) : Origin :=
  { kind, die := dieOfCore core, clu := core / 16 % 16, core := core % 16, elem, task, tiw
    dom := s.domOf core, disp := (s.info core).disp }

/-- The origin of an element of a cluster. -/
def clusterOrigin (kind cl elem dom disp : Nat) : Origin :=
  { kind, die := cl / 16, clu := cl % 16, elem, dom, disp }

/-- A poison record (R187); `PHASE` is the origin's, if none is given. -/
def State.record (s : State) (cause : Nat) (o : Origin) (detail : Nat := 0) (code : Nat := 0) (phase : Option Nat := none) : Word :=
  BitVec.ofNat 256 (packFields
    [(48, detail), (64, s.cycleOf o.die), (32, phase.getD (s.phaseOf o.die o.dom)), (32, o.disp), (10, o.dom), (8, o.tiw), (3, o.task),
     (4, o.elem), (4, o.core), (4, o.clu), (3, o.die), (4, o.kind), (16, code), (8, cause), (8, 0), (8, 1)])

/-- Fields of a poison record. -/
def recCause (r : Word) : Nat := bitsOf 232 8 r
def recNsup (r : Word) : Nat := bitsOf 240 8 r
def recDie (r : Word) : Nat := bitsOf 209 3 r
def recDom (r : Word) : Nat := bitsOf 176 10 r
def recDisp (r : Word) : Nat := bitsOf 144 32 r
def recDetail (r : Word) : Nat := bitsOf 0 48 r
def recStamp (r : Word) : Nat := bitsOf 48 64 r

/-- `NSUP` + 1, saturating at 255 (R189). -/
def bumpNsup (r : Word) : Word := if recNsup r < 255 then r + (1 <<< 240) else r

/-! ## Black box (spec/16 R461) -/

/-- The die whose `%evmask` and `%cycle` a ring uses: its own, or for the package ring die 0, or the lowest live die. -/
def State.ringDie (s : State) (ring : Nat) : Nat :=
  if ring < 8 then ring else (firstBelow 8 fun d => !(s.lostDies.contains d)).getD 0

/-- Appends an event to a ring; a maskable one only if its class is enabled (R146, R197, R461). -/
def State.logEvent (s : State) (ring code payload dom origin : Nat) (always : Bool := false) : State :=
  let d := s.ringDie ring
  if always || bitAt (code / 2 ^ 12 % 16) (s.dieOf d).evmask then
    let ev : BitVec 128 := BitVec.ofNat 128 (packFields
      [(23, s.cycleOf d / 2 ^ 20), (15, origin), (10, dom), (16, code), (64, payload)])
    let r := s.ring ring
    s.setRing ring { events := (ev :: r.events).take 4096, count := r.count + 1 }
  else s

/-- `DISP` of a record, and `%dispatch` of an event, that concerns no dispatch. -/
def noDisp : Nat := 0xFFFFFFFF

/-- A value that no rule states, drawn afresh. -/
def State.openVal (s : State) (which : Nat) : Nat × State := (Config.openValue which s.free, { s with free := s.free + 1 })

/-- A dispatcher's event: its payload holds `%dispatch` in bits [31:0]; the rule gives the others no content (spec/13 R391; log entry 14). -/
def State.dispEvent (s : State) (ring code disp dom origin : Nat) (always : Bool := false) : State :=
  match s.openVal code with | (v, s) => s.logEvent ring code (disp % 2 ^ 32 + 2 ^ 32 * v) dom origin always

/-- `ORIGIN` of an event of an element of a core. -/
def coreEventOrigin (core elem : Nat) : Nat := packFields [(4, elem), (4, core % 16), (4, core / 16 % 16), (3, dieOfCore core)]

/-- An event of codes 0x2001 to 0x2004 of a PE, with the payload of R197. -/
def State.peEvent (s : State) (pe code : Nat) (slot tiw : Nat) (always : Bool) : State :=
  let core := coreOfPe pe
  let r := s.record 0 (s.coreOrigin 0 core (pe % 16) slot tiw)
  s.logEvent (dieOfCore core) code (bitsOf 176 40 r) (s.domOf core) (coreEventOrigin core (pe % 16)) always

/-! ## Posting trap records (spec/06 R192, spec/14 R409, R416) -/

/-- `DSTATE` of a record: the state of the dispatch it names when it is posted, else 15. -/
def State.dstate (s : State) (die dom disp : Nat) : Nat :=
  match s.dispOf die dom disp with | some d => d.st.code | none => 15

/-- The trap record of kind `kind` made from a poison record, posted by die `die` with `more` suppressed records (R416). -/
def State.trapOf (s : State) (die kind : Nat) (r : Word) (more : Nat) : Word :=
  BitVec.ofNat 256 (packFields
    [(64, s.cycleOf die), (48, recDetail r), (16, Nat.min (recNsup r + more) 0xFFFF), (32, bitsOf 112 32 r),
     (32, recDisp r), (8, bitsOf 186 8 r), (3, bitsOf 194 3 r), (4, bitsOf 197 4 r), (4, bitsOf 201 4 r),
     (4, bitsOf 205 4 r), (3, recDie r), (4, bitsOf 212 4 r), (10, recDom r), (4, s.dstate die (recDom r) (recDisp r)),
     (4, kind), (8, recCause r), (8, 1)])

/-- Domains of the packets in a link's replay buffer. -/
def FabLink.doms (l : FabLink) : List Nat := l.replay.filterMap SentFrame.dom

/-- The occupancy list of the hub: the trap queue writer, the package barrier counters, the link buffers (spec/14 R406, code 0x0F). -/
def State.hubDoms (s : State) : List Nat :=
  (s.hub.traps.map Trap.dom ++ s.hub.heldTraps.map Trap.dom ++
    ((s.sync.counters.range 300000 64).filter fun b => 0 < b.2.memb).map (fun b => b.2.dom) ++
    (List.range 12).flatMap fun l => (s.fabLink l).doms).eraseDups

/-- A structure that holds entries of these domains accepts one of this domain (spec/14 R407). -/
def fits (doms : List Nat) (dom : Nat) : Bool := doms.contains dom || decide (doms.length < 8)

/-- Queues a trap record for a domain's trap queue, in arrival order (spec/14 R415); one of a ninth domain waits for a place (R407; log entry
129). -/
def State.queueTrap (s : State) (dom : Nat) (r : Word) : State :=
  if fits s.hubDoms dom && !(s.hub.lateTraps.any fun t => t.dom = dom) then { s with hub := { s.hub with traps := s.hub.traps ++ [⟨dom, r⟩] } }
  else { s with hub := { s.hub with lateTraps := s.hub.lateTraps ++ [⟨dom, r⟩] } }

/-- Records that waited for a place take one, oldest first (R407). -/
def State.admitTraps (s : State) : State :=
  s.hub.lateTraps.foldl (fun s t => s.queueTrap t.dom t.rec_) { s with hub := { s.hub with lateTraps := [] } }

/-- Posts a notice to the hub's sequencer (spec/13 R370). -/
def State.post (s : State) (n : Notice) : State := { s with hub := { s.hub with log := s.hub.log ++ [n] } }

/-- The record of a read that met a stored poison pattern (spec/15 R425). -/
def storedPattern (r : Word) : Bool := (decide (recCause r = Cause.hbmUe) || decide (recCause r = Cause.metaUe)) && bitAt 35 (BitVec.ofNat 48 (recDetail r))

/-- The containment response of R409 to a record posted by a die: the ERROR notice, if the cause has one and the
dispatch is not final. A stored poison pattern draws the direct response (spec/15 R425). -/
def State.respond (s : State) (die : Nat) (r : Word) (pattern : Bool := storedPattern r) : State :=
  let c := recCause r
  if c = Cause.rfParity ∨ c = Cause.poolUe ∨ c = Cause.hbmUe ∨ c = Cause.metaUe ∨ c = Cause.stageOverflow then
    match s.dispOf die (recDom r) (recDisp r) with
    | some d => if d.st.final then s else
        s.post (.error die (recDom r) (recDisp r) c 0 (if pattern then .pattern else .plain))
    | none => s
  else s

/-- Posts a poison record to a domain's queue from an element of a die (R192, R409, R416). -/
def State.postRecord (s : State) (die : Nat) (r : Word) (more : Nat := 0) (pattern : Bool := storedPattern r) : State :=
  (s.queueTrap (recDom r) (s.trapOf die 0 r more)).respond die r pattern

/-- The identity by which a core's trap port recognises copies (R192). -/
def trapKey (r : Word) : Nat × Nat := (bitsOf 194 18 r, recStamp r)

/-- Posts a record through a core's trap port, which posts no copy of its last sixteen records (R192). -/
def State.corePost (s : State) (core : Nat) (r : Word) : State :=
  let i := s.info core
  if i.trapRecent.contains (trapKey r) then s.setInfo core { i with trapSupp := i.trapSupp + 1 }
  else (s.setInfo core { i with trapRecent := (trapKey r :: i.trapRecent).take 16, trapSupp := 0 }).postRecord
    (dieOfCore core) r i.trapSupp

/-! ## Poison in a task (spec/06 R189 to R191) -/

/-- A record becomes `PREC`, or is counted in it (R189). -/
def Task.taint (t : Task) (r : Word) : Task :=
  match t.prec with
  | none => { t with prec := some r, ps := false }
  | some p => { t with prec := some (bumpNsup p) }

/-- One poison token of the task has been emitted with this record (R191). -/
def Task.counted (t : Task) (r : Word) : Task :=
  { t with trapcause := BitVec.ofNat 8 (recCause r), trapcnt := if t.trapcnt = 0xFFFFFFFF then t.trapcnt else t.trapcnt + 1 }

/-- The record that an instruction of a task raises, at entry `tiw` (R187). -/
def State.taskRecord (s : State) (pe slot : Nat) (tiw : BitVec 8) (cause detail : Nat) (code : Nat := 0) : Word :=
  s.record cause (s.coreOrigin 0 (coreOfPe pe) (pe % 16) slot tiw.toNat) detail code

/-- Taking an exception: an instruction emits poison, which taints its task (R13, R189). Nothing stops. -/
def State.emit (s : State) (pe slot : Nat) (cause detail : Nat) (code : Nat := 0) : State :=
  let t := s.task pe slot
  s.setTask pe slot (t.taint (s.taskRecord pe slot t.pc cause detail code))

/-- The check of `MARK`, `POISON` and `DOM` over 12 bits, `DOM` lowest (R96, R268; log entry 102). -/
def sideband (dom : Nat) (mark poison : Bool) : BitVec 12 :=
  BitVec.ofNat 12 (packFields [(10, dom), (1, if poison then 1 else 0), (1, if mark then 1 else 0)])

/-- `SCHK` of the slot that holds a token, as it was written with it (R96). -/
def Token.schk (t : Token) : BitVec 5 := Config.sidebandCheck (sideband t.dom t.mark t.poison)

/-- A token's domain fails the check against a tag: another domain's, and not domain 0's (spec/09 R267). -/
def Token.foreign (t : Token) (dom : Nat) : Bool := t.dom ≠ dom && t.dom ≠ 0

/-- Cycle `now` of a Glaze pipeline: its stages have advanced together since `pipeAt`, until the oldest token stood in stage 4; not at
all while the output buffer was full (spec/09 R256). In the cycle in which a token has left stage 4, `pipeAt` is the next one. -/
def Glaze.flow (g : Glaze) (now : Nat) : Glaze :=
  match g.pipe with
  | [] => { g with pipeAt := Nat.max now g.pipeAt }
  | (_, age) :: _ =>
    let n := if g.out.isSome then 0 else Nat.min (now - g.pipeAt) (3 - age)
    { g with pipe := g.pipe.map fun x => (x.1, x.2 + n), pipeAt := Nat.max now g.pipeAt }

/-! ## Channel buffers (spec/03 R97, R109) -/

/-- Slot number of offset k from the pointer of a handle. -/
def Handle.slotAt (h : Handle) (k : Nat) : Nat := h.base + (h.ptr + k) % (h.cntm1 + 1)

/-- The port of a task that a handle is bound to. -/
def Task.portOf (t : Task) (h : Nat) : Option Nat :=
  firstBelow 12 fun p => let q := t.ports.find p {}; q.declared && q.handle = h

def Task.port (t : Task) (p : Nat) : Port := t.ports.find p {}
def Task.adv (t : Task) (p : Nat) : Nat := t.advp.find p 0
def Task.setAdv (t : Task) (p n : Nat) : Task := { t with advp := t.advp.put p n 0 }

/-- Tokens at the head of an input buffer before its first marker: d(p) of R99, from offset k on. -/
def State.dataFrom (s : State) (pe : Nat) (h : Handle) (k : Nat) : Nat → Nat
  | 0 => 0
  | n + 1 => if (s.slotOf pe (h.slotAt k)).mark then 0 else 1 + s.dataFrom pe h (k + 1) n

/-- d(p) of R99. -/
def State.dataCount (s : State) (pe h : Nat) : Nat := let x := s.handle pe h; s.dataFrom pe x 0 x.cnt
/-- m(p) of R99: the buffer holds a marker. -/
def State.hasMarker (s : State) (pe h : Nat) : Bool := decide (s.dataCount pe h < (s.handle pe h).cnt)
/-- The token at the head of an input buffer. -/
def State.headOf (s : State) (pe h : Nat) : Token := let x := s.handle pe h; s.slotOf pe (x.slotAt 0)
/-- Free space of an output buffer (R97). -/
def State.freeOf (s : State) (pe h : Nat) : Nat := let x := s.handle pe h; x.cntm1 + 1 - x.cnt

/-- Takes the oldest token from an input buffer. -/
def State.consume1 (s : State) (pe h : Nat) : State :=
  let x := s.handle pe h
  (s.setSlotOf pe (x.slotAt 0) {}).setHandle pe h { x with ptr := (x.ptr + 1) % (x.cntm1 + 1), cnt := x.cnt - 1 }

/-- Takes the n oldest tokens. -/
def State.consume (s : State) (pe h : Nat) : Nat → State
  | 0 => s
  | n + 1 => (s.consume1 pe h).consume pe h n

/-- Publishes a token at the first slot not yet published of an output buffer (R97), with the task's domain (R96). -/
def State.publish (s : State) (pe h : Nat) (tok : Token) : State :=
  let x := s.handle pe h
  (s.setSlotOf pe (x.slotAt 0) { tok with dom := s.domOf (coreOfPe pe) }).setHandle pe h
    { x with ptr := (x.ptr + 1) % (x.cntm1 + 1), cnt := x.cnt + 1 }

/-- Publishes a poison token of a task and counts it (R191). -/
def State.publishPoison (s : State) (pe slot h : Nat) (r : Word) : State :=
  let s := s.publish pe h { payload := r, poison := true }
  s.setTask pe slot ((s.task pe slot).counted r)

/-- Publishes the first window slot of an output handle, as poison while the task is tainted (R190). -/
def State.publishWindow1 (s : State) (pe slot h : Nat) : State :=
  let t := s.task pe slot
  match t.prec with
  | some r => (s.setTask pe slot { t with ps := true }).publishPoison pe slot h r
  | none => s.publish pe h (s.slotOf pe ((s.handle pe h).slotAt 0))

def State.publishWindow (s : State) (pe slot h : Nat) : Nat → State
  | 0 => s
  | n + 1 => (s.publishWindow1 pe slot h).publishWindow pe slot h n

/-- `ADV` of n tokens on a port (R109). -/
def State.advance (s : State) (pe slot p n : Nat) : State :=
  let t := s.task pe slot
  let h := (t.port p).handle
  let s := if p < 6 then s.consume pe h n else s.publishWindow pe slot h n
  s.setTask pe slot ((s.task pe slot).setAdv p (t.adv p + n))

/-! ## The end of a firing (spec/03 R109 to R111) -/

/-- The declared ports whose `ADVP` differs from `CNT`. -/
def Task.shortPorts (t : Task) : Nat := bitmapOf 12 fun p => (t.port p).declared && t.adv p ≠ (t.port p).count

def State.fillPoison (s : State) (pe slot h : Nat) (r : Word) : Nat → State
  | 0 => s
  | n + 1 => (s.publishPoison pe slot h r).fillPoison pe slot h r n

/-- Completes the window of one port (R111). -/
def State.completePort (s : State) (pe slot : Nat) (r : Word) (p : Nat) : State :=
  let t := s.task pe slot
  let q := t.port p
  if q.declared && t.adv p < q.count then
    let n := q.count - t.adv p
    let s := if p < 6 then s.consume pe q.handle n else s.fillPoison pe slot q.handle r n
    s.setTask pe slot ((s.task pe slot).setAdv p q.count)
  else s

/-- Completes the windows, filling with this cause (R111). -/
def State.completeWindows (s : State) (pe slot cause : Nat) : State :=
  let t := s.task pe slot
  let m := t.shortPorts
  if m = 0 then s else
    let r := s.taskRecord pe slot t.pc cause (if cause = Cause.rateMismatch then m else 0)
    foldUp 12 s fun s p => s.completePort pe slot r p

/-- At the end of a firing a held record that was never sent goes to the core's trap port (R191). -/
def State.postHeld (s : State) (pe slot : Nat) : State :=
  let t := s.task pe slot
  match t.prec with
  | some r => if t.ps then s else (s.setTask pe slot { t.counted r with ps := true }).corePost (coreOfPe pe) r
  | none => s

/-- Ends the firing: the windows are completed and the task is IDLE (R109, R111, R113, R191). -/
def State.endFiring (s : State) (pe slot cause : Nat) : State :=
  let s := (s.completeWindows pe slot cause).postHeld pe slot
  s.setTask pe slot { s.task pe slot with st := .idle, wait := .none }

/-- A data token that leaves a Glaze island, as a parity failure replaces it (spec/09 R259); of several numbers whose bits fail, the record names the one
that failed first (log entry 130). -/
def State.glazeBad (s : State) (core : Nat) (t : Token) : Token :=
  if t.mark || t.poison then t
  else match (s.glaze core).bads.head? with
    | some k => { payload := s.record Cause.poolUe (s.coreOrigin 4 core 0) k, poison := true, dom := s.domOf core }
    | none => t

/-! ## Sequencing (spec/03 R105 to R107, spec/01 R13, R14) -/

def Task.lc (t : Task) (n : Nat) : BitVec 16 := if n = 0 then t.lc0 else if n = 1 then t.lc1 else t.lc2
def Task.setLc (t : Task) (n : Nat) (v : BitVec 16) : Task :=
  if n = 0 then { t with lc0 := v } else if n = 1 then { t with lc1 := v } else { t with lc2 := v }

/-- The counter selection of LOOP is legal (spec/01 R15). -/
def loopOk (w : Fields) : Bool := !(w.pq.getLsbD 2) && !w.pg && w.pq.toNat % 4 < 3

/-- Continues at an entry. -/
def State.goto (s : State) (pe slot : Nat) (e : BitVec 8) : State := s.setTask pe slot { s.task pe slot with pc := e, wait := .none }

/-- What `NXT` does after an instruction (R14, R105 to R107). -/
def State.sequence (s : State) (pe slot : Nat) (op : BitVec 8) (w : Fields) : State :=
  let s := s.touch (coreOfPe pe)
  let t := s.task pe slot
  let q := s.predOf pe w.pq.toNat
  match w.nxt.toNat with
  | 0 => s.goto pe slot (t.pc + 1)
  | 1 => s.goto pe slot w.tgt
  | 2 => s.goto pe slot (if q ≠ 0 then w.tgt else t.pc + 1)
  | 3 => s.goto pe slot (if q = 0 then w.tgt else t.pc + 1)
  | 4 =>
    if loopOk w then
      let n := w.pq.toNat % 4
      let v := t.lc n - 1
      (s.setTask pe slot (t.setLc n v)).goto pe slot (if v ≠ 0 then w.tgt else t.pc + 1)
    else s.goto pe slot (t.pc + 1)
  | 5 => (s.setTask pe slot { t with ret := some (t.pc + 1) }).goto pe slot w.tgt
  | 6 =>
    match t.ret with
    | some e => (s.setTask pe slot { t with ret := none }).goto pe slot e
    | none => (s.emit pe slot Cause.illegalOperand (op.toNat + 9 * 256)).endFiring pe slot Cause.rateMismatch
  | _ => s.endFiring pe slot Cause.rateMismatch

/-- The slot of a PE that holds its firing. -/
def State.firingSlot (s : State) (pe : Nat) : Option Nat := firstBelow 8 fun t => decide ((s.task pe t).st = .firing)

/-! ## Turns within one cycle (spec/09 R262, spec/10 R287, spec/13 R364) -/

/-- The turn of an operation of a PE on a counter or register, `place` 1 + its number, or of a break, `place` 0: within one cycle they come in
ascending order, a break first, so one that comes late falls in the next cycle. -/
def State.takeTurn (s : State) (k place : Nat) : State :=
  let t := s.sync.turns.find k (0, 0)
  let now := if t.1 < s.now ∨ (t.1 = s.now ∧ t.2 < place + 1) then s.now else Nat.max s.now (t.1 + 1)
  { s with now, sync := { s.sync with turns := s.sync.turns.put k (now, place + 1) (0, 0) } }

end Sys2Proof.Machine
end

