-- ==== Sys2Proof/Machine/Sm3.lean ====
section
/-! DEFINITION. The hash SM3 and SM2 signatures (spec/01 R45, spec/04 R148, spec/16 R496). The manual names the standards;
their functions are taken from GB/T 32905 and GB/T 32918 (PRESUMED, log entry 35). -/
namespace Sys2Proof.Machine.Sm

/-! ## SM3 -/

def rotl (x : BitVec 32) (n : Nat) : BitVec 32 := x.rotateLeft n

def p0 (x : BitVec 32) : BitVec 32 := x ^^^ rotl x 9 ^^^ rotl x 17
def p1 (x : BitVec 32) : BitVec 32 := x ^^^ rotl x 15 ^^^ rotl x 23

/-- The eight chaining words. -/
structure V where
  a : BitVec 32 := 0x7380166F
  b : BitVec 32 := 0x4914B2B9
  c : BitVec 32 := 0x172442D7
  d : BitVec 32 := 0xDA8A0600
  e : BitVec 32 := 0xA96F30BC
  f : BitVec 32 := 0x163138AA
  g : BitVec 32 := 0xE38DEE4D
  h : BitVec 32 := 0xB0FB0E4E

/-- The expanded message, newest word first, from the words so far. -/
def expand : Nat → List (BitVec 32) → List (BitVec 32)
  | 0, w => w
  | n + 1, w =>
    let at_ (k : Nat) := w.getD k 0
    expand n ((p1 (at_ 15 ^^^ at_ 8 ^^^ rotl (at_ 2) 15) ^^^ rotl (at_ 12) 7 ^^^ at_ 5) :: w)

/-- Round j and those after it; the list holds the words W from j on. -/
def rounds : Nat → Nat → List (BitVec 32) → V → V
  | 0, _, _, v => v
  | n + 1, j, w, v =>
    let t : BitVec 32 := if j < 16 then 0x79CC4519 else 0x7A879D8A
    let ss1 := rotl (rotl v.a 12 + v.e + rotl t (j % 32)) 7
    let ss2 := ss1 ^^^ rotl v.a 12
    let ff := if j < 16 then v.a ^^^ v.b ^^^ v.c else (v.a &&& v.b) ||| (v.a &&& v.c) ||| (v.b &&& v.c)
    let gg := if j < 16 then v.e ^^^ v.f ^^^ v.g else (v.e &&& v.f) ||| (~~~v.e &&& v.g)
    let tt1 := ff + v.d + ss2 + (w.headD 0 ^^^ w.getD 4 0)
    let tt2 := gg + v.h + ss1 + w.headD 0
    rounds n (j + 1) w.tail { a := tt1, b := v.a, c := rotl v.b 9, d := v.c, e := p0 tt2, f := v.e, g := rotl v.f 19, h := v.g }

/-- Four bytes, the first most significant. -/
def beWord (bs : List Byte) : BitVec 32 := bs.foldl (fun x b => x * 256 + b.setWidth 32) 0

/-- The big-endian words of a list of bytes. -/
def beWords : Nat → List Byte → List (BitVec 32)
  | 0, _ => []
  | n + 1, bs => beWord (bs.take 4) :: beWords n (bs.drop 4)

/-- The compression of one 64-byte block. -/
def compress (v : V) (block : List Byte) : V :=
  let r := rounds 64 0 (expand 52 (beWords 16 block).reverse).reverse v
  { a := v.a ^^^ r.a, b := v.b ^^^ r.b, c := v.c ^^^ r.c, d := v.d ^^^ r.d, e := v.e ^^^ r.e, f := v.f ^^^ r.f, g := v.g ^^^ r.g, h := v.h ^^^ r.h }

def blocks : Nat → List Byte → V → V
  | 0, _, v => v
  | n + 1, bs, v => blocks n (bs.drop 64) (compress v (bs.take 64))

/-- n bytes of a number, the first most significant. -/
def beBytes (n v : Nat) : List Byte := (bytesOfNat n v).reverse

/-- A list of bytes as a number, the first most significant. -/
def beNat (bs : List Byte) : Nat := natOfBytes bs.reverse

/-- The 32 bytes of an SM3 digest. -/
def sm3 (m : List Byte) : List Byte :=
  let n := m.length
  let padded := m ++ [0x80] ++ List.replicate ((119 - n % 64) % 64) 0 ++ beBytes 8 (8 * n)
  let v := blocks (padded.length / 64) padded {}
  [v.a, v.b, v.c, v.d, v.e, v.f, v.g, v.h].flatMap fun x => beBytes 4 x.toNat

/-! ## SM2 -/

def p : Nat := 0xFFFFFFFEFFFFFFFFFFFFFFFFFFFFFFFFFFFFFFFF00000000FFFFFFFFFFFFFFFF
def a : Nat := 0xFFFFFFFEFFFFFFFFFFFFFFFFFFFFFFFFFFFFFFFF00000000FFFFFFFFFFFFFFFC
def b : Nat := 0x28E9FA9E9D9F5E344D5A9E4BCF6509A7F39789F515AB8F92DDBCBD414D940E93
def n : Nat := 0xFFFFFFFEFFFFFFFFFFFFFFFFFFFFFFFF7203DF6B21C6052B53BBF40939D54123
def gx : Nat := 0x32C4AE2C1F1981195F9904466A39C9948FE30BBFF2660BE1715A4589334C74C7
def gy : Nat := 0xBC3736A2F4F6779C59BDCEE36B692153D0A9877CC62A474002DF32E52139F0A0

/-- x^k mod m, for k of at most w bits. -/
def powMod (m x : Nat) : Nat → Nat → Nat
  | 0, _ => 1 % m
  | w + 1, k =>
    let r := powMod m x w (k / 2)
    if k % 2 = 1 then r * r % m * x % m else r * r % m

def subMod (m x y : Nat) : Nat := (x % m + m - y % m) % m
def invMod (m x : Nat) : Nat := powMod m (x % m) 256 (m - 2)

/-- A point in Jacobian coordinates; Z = 0 at infinity. -/
structure Pt where
  x : Nat
  y : Nat
  z : Nat

def inf : Pt := ⟨1, 1, 0⟩

def dbl (q : Pt) : Pt :=
  if q.z = 0 ∨ q.y = 0 then inf else
    let y2 := q.y * q.y % p
    let s := 4 * q.x * y2 % p
    let z2 := q.z * q.z % p
    let m := (3 * q.x * q.x + a * (z2 * z2 % p)) % p
    let x := subMod p (m * m) (2 * s)
    ⟨x, subMod p (m * subMod p s x) (8 * (y2 * y2 % p)), 2 * q.y * q.z % p⟩

def add (q r : Pt) : Pt :=
  if q.z = 0 then r else if r.z = 0 then q else
    let zq := q.z * q.z % p
    let zr := r.z * r.z % p
    let u1 := q.x * zr % p
    let s1 := q.y * (zr * r.z % p) % p
    let h := subMod p (r.x * zq) u1
    let d := subMod p (r.y * (zq * q.z % p)) s1
    if h = 0 then (if d = 0 then dbl q else inf) else
      let h2 := h * h % p
      let h3 := h2 * h % p
      let x := subMod p (d * d) (h3 + 2 * u1 * h2)
      ⟨x, subMod p (d * subMod p (u1 * h2) x) (s1 * h3), h * q.z % p * r.z % p⟩

/-- k·P, for k of at most w bits. -/
def mul (q : Pt) : Nat → Nat → Pt
  | 0, _ => inf
  | w + 1, k => let r := dbl (mul q w (k / 2)); if k % 2 = 1 then add r q else r

/-- Affine coordinates. -/
def affine (q : Pt) : Nat × Nat :=
  let i := invMod p q.z
  let i2 := i * i % p
  (q.x * i2 % p, q.y * (i2 * i % p) % p)

def g : Pt := ⟨gx, gy, 1⟩

/-- The public key of a private key. -/
def publicKey (d : Nat) : Nat × Nat := affine (mul g 256 d)

/-- Z of R496. -/
def zOf (x y : Nat) (id : List Byte) : List Byte :=
  sm3 (beBytes 2 (8 * id.length) ++ id ++ beBytes 32 a ++ beBytes 32 b ++ beBytes 32 gx ++ beBytes 32 gy ++ beBytes 32 x ++ beBytes 32 y)

/-- e = SM3(Z ‖ M). -/
def eOf (x y : Nat) (id m : List Byte) : Nat := beNat (sm3 (zOf x y id ++ m))

/-- A signature with a private key and a per-signature value; none where the standard draws another value. -/
def sign (d k : Nat) (id m : List Byte) : Option (List Byte) :=
  let q := publicKey d
  let k := k % n
  let r := (eOf q.1 q.2 id m + (affine (mul g 256 k)).1) % n
  let s := invMod n (1 + d) * subMod n k (r * d) % n
  if k = 0 ∨ r = 0 ∨ r + k = n ∨ s = 0 then none else some (beBytes 32 r ++ beBytes 32 s)

/-- Verification of r ‖ s under a public key. -/
def verify (x y : Nat) (id m sig : List Byte) : Bool :=
  let r := beNat (sig.take 32)
  let s := beNat (sig.drop 32)
  let t := (r + s) % n
  let q := add (mul g 256 s) (mul ⟨x, y, 1⟩ 256 t)
  sig.length = 64 && decide (x < p) && decide (y < p) && decide (y * y % p = (x * x * x + a * x + b) % p) &&
    decide (1 ≤ r) && decide (r < n) && decide (1 ≤ s) && decide (s < n) && t ≠ 0 && q.z ≠ 0 &&
    decide ((eOf x y id m + (affine q).1) % n = r)

end Sys2Proof.Machine.Sm
end

