-- ==== Sys2Proof/Machine/Sm4.lean ====
section
/-! DEFINITION. The cipher SM4 in XTS mode (spec/14 R403, R404). The manual names the cipher; its functions are taken from GB/T 32907 and the mode
from IEEE 1619 (PRESUMED, log entry 4). Blocks are numbers whose low byte is the first byte of memory. -/
namespace Sys2Proof.Machine.Sm

/-- The S-box, entry 0 in the low byte. -/
def sBox : Nat :=
  0x4839CBD73E5FEE79204DDC3AEC7DF01884C66EC509F1B9657E77960C4A976989B0B4E5B812D0742DBD7BCDA58831C10AD85A101F415CD9117FBCDDBB92AF1B8D515B6C6D726AFF032F8EFDDE4537DBD56F4E530DAB2329C060CA66822EE2F61DE3B18CF5303293AD551A349BA45DAEE0A11561F9CEF2F7A3B538C740D28ABFEA9EC8C4A0E702364C5227D39F574600D4877821013B7C2225A2D158635E0E241E359D56704B0FEBF88BDA6471B2816B68A84F85E6193C5983BA1773F3FCA70747A63F8F75FA94DF8095E808C9A91CB3E462ACCFED430B54337A98EF91F450429C99068649261344AAC304BE2A769A672B052CFB28C214B616B73DE1CCFEE990D6

/-- Four bytes through the S-box. -/
def tau (x : BitVec 32) : BitVec 32 :=
  (List.range 4).foldl (fun v k => v ||| BitVec.ofNat 32 ((sBox >>> (8 * (x.toNat >>> (8 * k) % 256)) % 256) <<< (8 * k))) 0

/-- The transformation of a round, and that of the key schedule. -/
def tRound (x : BitVec 32) : BitVec 32 := let b := tau x; b ^^^ rotl b 2 ^^^ rotl b 10 ^^^ rotl b 18 ^^^ rotl b 24
def tKey (x : BitVec 32) : BitVec 32 := let b := tau x; b ^^^ rotl b 13 ^^^ rotl b 23

/-- Constant of round i: its bytes are 7 · (4i + j) mod 256, the first most significant. -/
def sm4Ck (i : Nat) : BitVec 32 := (List.range 4).foldl (fun v j => v * 256 + BitVec.ofNat 32 (7 * (4 * i + j) % 256)) 0

/-- Four words. -/
structure Quad where
  a : BitVec 32
  b : BitVec 32
  c : BitVec 32
  d : BitVec 32

/-- The words of a block, each most significant byte first. -/
def Quad.ofBlock (v : BitVec 128) : Quad :=
  let w (k : Nat) : BitVec 32 := beWord ((List.range 4).map fun j => BitVec.ofNat 8 (v.toNat >>> (8 * (4 * k + j))))
  ⟨w 0, w 1, w 2, w 3⟩

/-- The block of four words in reverse order. -/
def Quad.toBlock (q : Quad) : BitVec 128 :=
  let bytes (x : BitVec 32) : List Byte := (List.range 4).map fun j => BitVec.ofNat 8 (x.toNat >>> (8 * (3 - j)))
  BitVec.ofNat 128 ((bytes q.d ++ bytes q.c ++ bytes q.b ++ bytes q.a).foldr (fun b n => b.toNat + 256 * n) 0)

/-- Round keys from round i on. -/
def sm4Keys : Nat → Nat → Quad → List (BitVec 32)
  | 0, _, _ => []
  | n + 1, i, q => let k := q.a ^^^ tKey (q.b ^^^ q.c ^^^ q.d ^^^ sm4Ck i); k :: sm4Keys n (i + 1) ⟨q.b, q.c, q.d, k⟩

def sm4Schedule (key : BitVec 128) : List (BitVec 32) :=
  let q := Quad.ofBlock key
  sm4Keys 32 0 ⟨q.a ^^^ 0xA3B1BAC6, q.b ^^^ 0x56AA3350, q.c ^^^ 0x677D9197, q.d ^^^ 0xB27022DC⟩

/-- The rounds of some round keys. -/
def sm4Rounds (ks : List (BitVec 32)) (q : Quad) : Quad := ks.foldl (fun q k => ⟨q.b, q.c, q.d, q.a ^^^ tRound (q.b ^^^ q.c ^^^ q.d ^^^ k)⟩) q

def sm4Encrypt (key v : BitVec 128) : BitVec 128 := (sm4Rounds (sm4Schedule key) (.ofBlock v)).toBlock
def sm4Decrypt (key v : BitVec 128) : BitVec 128 := (sm4Rounds (sm4Schedule key).reverse (.ofBlock v)).toBlock

/-- Multiplication by x in GF(2^128). -/
def xtsDouble (t : BitVec 128) : BitVec 128 := (t <<< 1) ^^^ (if t.msb then 0x87 else 0)

/-- The mask of block j of a unit. -/
def xtsMask (key : BitVec 128) (unit j : Nat) : BitVec 128 := (List.range j).foldl (fun t _ => xtsDouble t) (sm4Encrypt key (BitVec.ofNat 128 unit))

end Sys2Proof.Machine.Sm

namespace Sys2Proof.Machine

/-- The unit of a 16-byte block of physical memory, and its place there: the tweak of R404 is the unit's number. -/
def KeyPair.mask (k : KeyPair) (blk : Nat) : BitVec 128 := Sm.xtsMask k.tweak (blk / 256) (blk % 256)

/-- A block as it is stored, and as it is read, under a key pair. -/
def KeyPair.encrypt (k : KeyPair) (blk : Nat) (v : BitVec 128) : BitVec 128 := Sm.sm4Encrypt k.data (v ^^^ k.mask blk) ^^^ k.mask blk
def KeyPair.decrypt (k : KeyPair) (blk : Nat) (v : BitVec 128) : BitVec 128 := Sm.sm4Decrypt k.data (v ^^^ k.mask blk) ^^^ k.mask blk

end Sys2Proof.Machine
end

