-- ==== Sys2Proof/Machine/Hbm.lean ====
section
/-! DEFINITION. The memory of the package below the agents that use it: where a byte lies, stripe parity, compression
and keys (spec/13 R362, spec/14 R392 to R405, R494). -/
namespace Sys2Proof.Machine

/-! ## Where a byte lies (spec/13 R362, R392, R393) -/

/-- Physical frames of the package (R392). -/
def MemState.frameCount (m : MemState) : Nat := if m.parity then 33030144 else 37748736

/-- Stack and stack-local address of a physical byte (R393). -/
def MemState.locate (m : MemState) (p : Nat) : Nat × Nat :=
  let f := p / 65536
  let st := f % 24
  let u := 16 * (f / 24) + p % 65536 / 4096
  let t := if m.parity then 8 * (u / 7) + u % 7 + (if st / 3 ≤ u % 7 then 1 else 0) else u
  (st, 4096 * t + p % 4096)

/-- Number of the line at a stack-local address. -/
def lineNum (st a : Nat) : Nat := 2 ^ 31 * st + a / 64

/-- The line that holds a physical byte. -/
def MemState.lineOf (m : MemState) (p : Nat) : Nat := match m.locate p with | (st, a) => lineNum st a

def lineStack (l : Nat) : Nat := l / 2 ^ 31
/-- Stack-local unit index of a line. -/
def lineUnit (l : Nat) : Nat := l % 2 ^ 31 / 64

/-- The cluster whose controller serves a line (R362). -/
def lineHome (l : Nat) : Nat := 16 * (lineStack l / 3) + lineUnit l % 160 / 10

/-! ## Lines that cannot be read (R394 to R397, R412) -/

/-- The unit of a line is mapped out, or its die's stacks are lost (R394, spec/15 R439). -/
def MemState.gone (m : MemState) (l : Nat) : Bool :=
  m.mappedOut.contains (160 * lineStack l + lineUnit l % 160) || m.lostStacks.contains (lineStack l / 3)

def State.lineGood (s : State) (l : Nat) : Bool := decide (s.lineFault l = .good) && !s.mem.gone l

/-- The other seven lines of a stripe line (R395). -/
def stripeOthers (l : Nat) : List Nat :=
  ((List.range 8).map fun d => 2 ^ 31 * (3 * d + lineStack l % 3) + l % 2 ^ 31).filter (· ≠ l)

/-- The stack that holds parity at a unit index (R395). -/
def parityLine (l : Nat) : Nat := 2 ^ 31 * (3 * (lineUnit l % 8) + lineStack l % 3) + l % 2 ^ 31

/-- The other data lines of a stripe line. -/
def stripeData (l : Nat) : List Nat := (stripeOthers l).filter (· ≠ parityLine l)

/-- The frame of a physical byte is excluded (R394). -/
def MemState.excluded (m : MemState) (f : Nat) : Bool :=
  !m.parity && (firstBelow 16 fun i => m.gone (m.lineOf (65536 * f + 4096 * i))).isSome

/-- An event of memory; the manual gives its payload no content (log entry 14). -/
def State.lineEvent (s : State) (l dom code : Nat) (always : Bool) : State :=
  ({ s with free := s.free + 1 }).logEvent (lineStack l / 3) code (Config.openValue code s.free) dom
    (packFields [(8, 0), (4, lineHome l % 16), (3, lineStack l / 3)]) always

/-- Two lines belong to one stripe line. -/
def sameStripe (a b : Nat) : Bool := decide (a % 2 ^ 31 = b % 2 ^ 31) && decide (lineStack a % 3 = lineStack b % 3)

/-- The writes registered at the parity engine of a line perform (R399). -/
def State.settleLine (s : State) (l : Nat) : State :=
  { s with mem := { s.mem with registered := s.mem.registered.map fun w => if sameStripe w.line l then { w with performed := true } else w } }

/-- Rebuilds a line (R397), after the writes registered to its stripe line (R399): whether it can be read now. -/
def State.rebuildLine (s : State) (l dom : Nat) : Bool × State :=
  let s := s.settleLine l
  if (stripeOthers l).all s.lineGood then
    (true, if s.mem.gone l then s else (s.setLineFault l .good).lineEvent l dom 0x4001 false)
  else (false, s.lineEvent l dom 0x4002 true)

/-- The stack of a line is lost with its die (spec/15 R439). -/
def MemState.lostLine (m : MemState) (l : Nat) : Bool := m.lostStacks.contains (lineStack l / 3)

/-- The line whose controller takes an access to a physical byte: its own, that of unit 0 where the frame is stored compressed (R400); if its die
is lost, the parity line, or the first line of the stripe that is left (R396, R397; log entry 108). -/
def State.servedLine (s : State) (p : Nat) : Nat :=
  let l := s.mem.lineOf (if (s.frame (p / 65536)).z then 65536 * (p / 65536) else p)
  ((l :: parityLine l :: stripeOthers l).find? fun x => !s.mem.lostLine x).getD l

/-- The cluster of that controller. -/
def State.homeOf (s : State) (p : Nat) : Nat := lineHome (s.servedLine p)

/-- Why an access fails at its controller. -/
inductive MemFail where
  /-- Its key slot is EMPTY, or the copy of the controller of this cluster is lost (R403, R405). -/
  | key (home : Nat)
  /-- HBM_UE; the line holds a poison pattern. -/
  | ue (pattern : Bool)
deriving DecidableEq, Repr

/-- Reads the stored line of a physical byte: why that fails, if it does (R394, R397). No frame stands beyond the count of R392 (log entry 40). -/
def State.readStored (s : State) (p dom : Nat) : Option MemFail × State :=
  let l := s.mem.lineOf p
  if s.mem.frameCount ≤ p / 65536 then (some (.ue false), s)
  else if s.lineFault l = .pattern then (some (.ue true), s)
  else if !s.mem.parity then (if s.lineGood l && !s.mem.excluded (p / 65536) then none else some (.ue false), s)
  else if s.lineGood l then (none, s)
  else match s.rebuildLine l dom with
    | (true, s) => (none, s)
    | (false, s) => (some (.ue false), s)

/-- Stored lines of a unit that hold it compressed; 64 if the unit of a physical byte is stored plain (R400, R401). -/
def State.linesUsed (s : State) (p : Nat) : Nat :=
  let f := s.frame (p / 65536)
  if f.z then (f.lines[p % 65536 / 4096]?).getD 64 else 64

/-- Reads stored lines from p on; the first failure decides. -/
def State.readStoredFrom (s : State) (p dom : Nat) : Nat → Option MemFail × State
  | 0 => (none, s)
  | n + 1 => match s.readStored p dom with | (some f, s) => (some f, s) | (none, s) => s.readStoredFrom (p + 64) dom n

/-- Reads the line of a physical byte. A compressed unit is expanded from all its stored lines (R400). -/
def State.readLine (s : State) (p dom : Nat) : Option MemFail × State :=
  if s.linesUsed p < 64 then s.readStoredFrom (4096 * (p / 4096)) dom (s.linesUsed p) else s.readStored p dom

/-- Parity after a write of a line, given whether it could use the old line (R398, R494): it cannot be made while another
data line is missing, unless from the difference of the old and the new line, or from the lines that the same command writes. -/
def State.updateParity (s : State) (l : Nat) (difference : Bool) (written : Nat → Bool) : State :=
  let q := parityLine l
  if s.mem.gone q then s
  else if difference && s.lineGood q then s
  else if (stripeData l).all (fun x => s.lineGood x || written x) then s.setLineFault q .good
  else s.setLineFault q .uncorrectable

/-- Writes n bytes of the stored line of a physical byte, but for their values: why that fails, if it does (R394, R398, R494). `written`: lines that
the same command writes whole. -/
def State.writeLine (s : State) (p n dom : Nat) (written : Nat → Bool := fun _ => false) : Option MemFail × State :=
  let l := s.mem.lineOf p
  if s.mem.frameCount ≤ p / 65536 then (some (.ue false), s)
  else if !s.mem.parity then
    if s.mem.excluded (p / 65536) then (some (.ue false), s)
    else if s.lineGood l || n = 64 then (none, s.setLineFault l .good)
    else (some (.ue (decide (s.lineFault l = .pattern))), s)
  else if s.lineGood l then (none, s.updateParity l true written)
  else if s.lineFault l = .pattern && n ≠ 64 then (some (.ue true), s)
  else
    let r : Bool × State := if n = 64 then (true, s) else s.rebuildLine l dom
    if !r.1 then (some (.ue false), r.2)
    else if s.mem.gone l then
      if (stripeData l).all (fun x => s.lineGood x || written x) && !s.mem.gone (parityLine l) then
        (none, (r.2.setLineFault l .good).setLineFault (parityLine l) .good)
      else (some (.ue false), r.2)
    else (none, (r.2.setLineFault l .good).updateParity l false written)

/-! ## Bytes and keys (R403 to R405) -/

def KeyPair.bits (k : KeyPair) : BitVec 256 := k.tweak ++ k.data

/-- The keys of a slot at the controller of a cluster (R403). -/
def State.keyAt (s : State) (slot cl : Nat) : Option KeyPair := if s.sag.lostCopies.contains (1024 * cl + slot) then none else s.keySlot slot

/-- A slot is loaded: every copy of it holds its keys. -/
def State.loadKey (s : State) (slot : Nat) (k : Option KeyPair) : State :=
  let s := s.setKeySlot slot k
  { s with sag := { s.sag with lostKeys := s.sag.lostKeys.filter (· ≠ slot), lostCopies := s.sag.lostCopies.filter fun c => c % 1024 ≠ slot } }

/-- A 16-byte block under the keys it was written with. -/
def MemState.block (m : MemState) (key : KeyPair) (blk : Nat) : BitVec 128 :=
  BitVec.ofNat 128 (natOfBytes ((List.range 16).map fun j => (m.bytes.get? (16 * blk + j)).getD (Config.dramByte key.bits (16 * blk + j))))

/-- What a block written under the keys w reads as under others: the decryption of what is stored (R404, R405). -/
def MemState.cross (m : MemState) (w key : KeyPair) (blk : Nat) : BitVec 128 :=
  if (m.frames.find (blk / 4096) {}).z then Config.crossKey w.bits key.bits blk (m.block w blk) else key.decrypt blk (w.encrypt blk (m.block w blk))

/-- A byte read under keys. -/
def MemState.byte (m : MemState) (key : KeyPair) (p : Nat) : Byte :=
  match m.keys.find (p / 16) none with
  | none => Config.dramByte key.bits p
  | some w =>
    if w = key then (m.bytes.get? p).getD (Config.dramByte key.bits p)
    else BitVec.ofNat 8 (bitsOf (8 * (p % 16)) 8 (m.cross w key (p / 16)))

/-- The block stands under these keys: what it held under others reads as its decryption. -/
def MemState.rekey (m : MemState) (key : KeyPair) (blk : Nat) : MemState :=
  match m.keys.find blk none with
  | none => { m with keys := m.keys.put blk (some key) none }
  | some w =>
    if w = key then m else
      { m with bytes := m.bytes.insertList (16 * blk) (bytesOfNat 16 (m.cross w key blk).toNat)
               keys := m.keys.put blk (some key) none }

/-- Blocks that n bytes from p touch. -/
def blocksOf (p n : Nat) : Nat × Nat := (p / 16, if n = 0 then 0 else (p + n - 1) / 16 + 1 - p / 16)

/-- Puts bytes under keys. -/
def MemState.putBytes (m : MemState) (key : KeyPair) (p : Nat) (bs : List Byte) : MemState :=
  let m := foldUp (blocksOf p bs.length).2 m fun m k => m.rekey key (p / 16 + k)
  { m with bytes := m.bytes.insertList p bs }

def MemState.getBytes (m : MemState) (key : KeyPair) (p n : Nat) : List Byte := (List.range n).map fun j => m.byte key (p + j)

/-! ## Accesses (R401, R402, R405) -/

/-- The access to a physical byte meets a controller whose copy of the slot is lost. -/
def State.keyLost (s : State) (slot p : Nat) : Bool := (s.keyAt slot (s.homeOf p)).isNone

/-- Reads the lines of n bytes from p, in rising order; the first failure decides. `fuel` bounds the lines. -/
def State.readLines (s : State) (slot p n dom : Nat) : Nat → Option MemFail × State
  | 0 => (none, s)
  | fuel + 1 =>
    if n = 0 then (none, s) else
      if s.keyLost slot p then (some (.key (s.homeOf p)), s) else
        match s.readLine p dom with
        | (some f, s) => (some f, s)
        | (none, s) => let k := Nat.min n (64 - p % 64); s.readLines slot (p + k) (n - k) dom fuel

/-- A read of n bytes under a key slot. -/
def State.memRead (s : State) (slot dom p n : Nat) : (List Byte ⊕ MemFail) × State :=
  match s.keySlot slot with
  | none => (.inr (.key (s.homeOf p)), s)
  | some key =>
    match s.readLines slot p n dom (n / 64 + 2) with
    | (some f, s) => (.inr f, s)
    | (none, s) => (.inl (s.mem.getBytes key p n), s)

/-- Rewrites unit i of a compressed frame plain: every line of it, or, if it cannot be read, none that can be (R401; log entry 109). -/
def State.expandUnit (s : State) (f dom i : Nat) : State :=
  let p := 65536 * f + 4096 * i
  if 64 ≤ s.linesUsed p then s else
    match s.readStoredFrom p dom (s.linesUsed p) with
    | (none, s) => foldUp 64 s fun s k => (s.writeLine (p + 64 * k) 64 dom).2
    | (some _, s) => foldUp 64 s fun s k => s.setLineFault (s.mem.lineOf (p + 64 * k)) .uncorrectable

/-- The frame of a physical byte is expanded if it is stored compressed (R401). A write that performs nothing expands nothing: of an excluded
frame, or through a lost copy of its key slot (R394, R405). -/
def State.expandFrame (s : State) (slot p dom : Nat) : State :=
  if (s.frame (p / 65536)).z && !s.mem.excluded (p / 65536) && !s.keyLost slot p then
    (foldUp 16 s fun s i => s.expandUnit (p / 65536) dom i).setFrame (p / 65536) {}
  else s

/-- Every frame that n bytes touch is. -/
def State.expandFrames (s : State) (slot p n dom : Nat) : State :=
  foldUp ((p + n - 1) / 65536 + 1 - p / 65536) s fun s k => s.expandFrame slot (65536 * (p / 65536 + k)) dom

/-- Writes the parts of a range line by line; a line that fails keeps its bytes, and the first failure is the answer. -/
def State.writeLines (s : State) (slot : Nat) (key : KeyPair) (dom p : Nat) (bs : List Byte) (fail : Option MemFail) (written : Nat → Bool) :
    Nat → Option MemFail × State
  | 0 => (fail, s)
  | fuel + 1 =>
    if bs.isEmpty then (fail, s) else
      let k := Nat.min bs.length (64 - p % 64)
      match if s.keyLost slot p then (some (.key (s.homeOf p)), s) else s.writeLine p k dom written with
      | (some f, s) => s.writeLines slot key dom (p + k) (bs.drop k) (fail.or (some f)) written fuel
      | (none, s) =>
        ({ s with mem := s.mem.putBytes key p (bs.take k) } : State).writeLines slot key dom (p + k) (bs.drop k) fail written fuel

/-- A write under a key slot: the first failure, if any. A compressed frame that it touches is expanded first (R401). -/
def State.memWrite (s : State) (slot dom p : Nat) (bs : List Byte) (written : Nat → Bool := fun _ => false) : Option MemFail × State :=
  match s.keySlot slot with
  | none => (some (.key (s.homeOf p)), s)
  | some key =>
    if bs.isEmpty then (none, s)
    else (s.expandFrames slot p bs.length dom).writeLines slot key dom p bs none written (bs.length / 64 + 2)

/-- The lines that a unit takes when it is compressed; 64 when it is stored plain (R401; log entry 10). -/
def State.unitLines (s : State) : Nat × State :=
  let n := Config.unitLines s.free % 65
  (if n = 0 then 64 else n, { s with free := s.free + 1 })

/-- Line counts for the sixteen units of a frame that is compressed. -/
def State.frameLines (s : State) : List Nat × State :=
  foldUp 16 (([] : List Nat), s) fun a _ => match a.2.unitLines with | (n, s) => (a.1 ++ [n], s)

/-- Stores a whole frame under these line counts: only those lines are written (R400, R401). If one of them cannot be written, as no line of an
excluded frame can (R394), the frame keeps its bytes and its form. -/
def State.storeFrame (s : State) (slot dom p : Nat) (bs : List Byte) (lines : List Nat) : Option MemFail × State :=
  match s.keySlot slot with
  | none => (some (.key (s.homeOf p)), s)
  | some key =>
    if s.keyLost slot p then (some (.key (s.homeOf p)), s) else
      let r := foldUp 1024 ((none : Option MemFail), s) fun a k =>
        if (lines[k / 64]?).getD 64 ≤ k % 64 then a
        else match a.2.writeLine (p + 64 * k) 64 dom with | (f, s) => (a.1.or f, s)
      if r.1.isSome then (r.1, s)
      else (none, ({ r.2 with mem := r.2.mem.putBytes key p bs } : State).setFrame (p / 65536) (if lines.any (· < 64) then { z := true, lines } else {}))

/-- The lines that n bytes touch hold the poison pattern: a write that covers each whole, with a check code that fails every later read (R412). -/
def State.storePattern (s : State) (slot dom p n : Nat) : Option MemFail × State :=
  if (s.keySlot slot).isNone then (some (.key (s.homeOf p)), s) else
    foldUp (if n = 0 then 0 else (p + n - 1) / 64 + 1 - p / 64) ((none : Option MemFail), s.expandFrames slot p n dom) fun a k =>
      let q := 64 * (p / 64 + k)
      if a.2.keyLost slot q then (a.1.or (some (.key (a.2.homeOf q))), a.2)
      else match a.2.writeLine q 64 dom with
        | (none, s) => (a.1, s.setLineFault (s.mem.lineOf q) .pattern)
        | (f, s) => (a.1.or f, s)

/-- The access named an EMPTY key slot. -/
def MemFail.isKey (f : MemFail) : Bool := match f with | .key _ => true | .ue _ => false

/-- Cause and `DETAIL` of a failed read that an engine reports in a record of its own, from whether its key slot was EMPTY (R405, spec/15 R495). -/
def readCause (noKey : Bool) : Nat × Nat := if noKey then (Cause.protection, 6) else (Cause.hbmUe, 0)

def MemFail.cause (f : MemFail) : Nat × Nat := readCause f.isKey

/-- The record of a controller for an access that fails (R405, R494). -/
def State.ctrlRecord (s : State) (p dom disp : Nat) (f : MemFail) : Word :=
  match f with
  | .key home => s.record Cause.protection (clusterOrigin 9 home 0 dom disp) 6
  | .ue pattern => s.record Cause.hbmUe (clusterOrigin 9 (s.homeOf p) 0 dom disp) (if pattern then 2 ^ 35 else 0)

/-- The controller posts the failure of a write, if it failed (R405, R494). -/
def State.postWrite (s : State) (dom disp p : Nat) (f : Option MemFail) : State :=
  match f with
  | none => s
  | some f => s.postRecord (dieOfCluster (s.homeOf p)) (s.ctrlRecord p dom disp f)

/-- The controller posts the failure of an access that named an EMPTY key slot (R405). -/
def State.postKey (s : State) (dom disp p : Nat) (f : Option MemFail) : State := if f.elim false MemFail.isKey then s.postWrite dom disp p f else s

/-- A write whose failure its controller posts. -/
def State.memStore (s : State) (slot dom disp p : Nat) (bs : List Byte) : State :=
  match s.memWrite slot dom p bs with | (f, s) => s.postWrite dom disp p f

end Sys2Proof.Machine
end

