-- ==== Sys2Proof/Machine/Operands.lean ====
section
/-! DEFINITION. Operand descriptors, formats, the checks at issue, operand values, destinations, and the one frame in
which every task instruction runs (spec/01 R12 to R25, spec/04 R116 to R120, spec/06 R193). -/
namespace Sys2Proof.Machine

/-! ## Descriptors (spec/01 R18) -/

inductive Opnd where
  | reg (n : Nat) | chan (h : Nat) | pred (q : Nat) | lc (l : Nat) | stream (n : Nat) | fibre (n : Nat)
  | zero | imm | lane | csr (n : Nat) | reserved
deriving DecidableEq, Repr

def opnd (b : BitVec 8) : Opnd :=
  let n := b.toNat
  if n < 0x40 then .reg n else if n < 0x60 then .chan (n - 0x40) else if n < 0x68 then .pred (n - 0x60)
  else if n < 0x6B then .lc (n - 0x68) else if n < 0x70 then .reserved else if n < 0x80 then .stream (n - 0x70)
  else if n < 0x88 then .fibre (n - 0x80) else if n < 0x90 then .reserved else if n = 0x90 then .zero
  else if n = 0x91 then .imm else if n = 0x92 then .lane else if n < 0xA0 then .reserved
  else if n < 0xC0 then .csr (n - 0xA0) else .reserved

/-- The operand kinds a position of an opcode allows. `portIn` and `portOut` name a port and no slot of it. -/
structure Pos where
  used : Bool := true
  reg : Bool := false
  chanIn : Bool := false
  chanOut : Bool := false
  portIn : Bool := false
  portOut : Bool := false
  pred : Bool := false
  lc : Bool := false
  stream : Bool := false
  fibre : Bool := false
  zero : Bool := false
  imm : Bool := false
  lane : Bool := false
  csr : Bool := false
  /-- A system register that can be written (R135, R137). -/
  csrW : Bool := false
deriving DecidableEq, Repr

namespace Pos
/-- A field the opcode does not use (R20). -/
def none : Pos := { used := false }
/-- Value destination (R116). -/
def dst : Pos := { reg := true, chanOut := true, zero := true }
/-- Value source (R116). -/
def src : Pos := { reg := true, chanIn := true, chanOut := true, zero := true, imm := true, lane := true, csr := true }
/-- A value source but for the immediate. -/
def srcNoImm : Pos := { src with imm := false }
def immOnly : Pos := { imm := true }
def regOnly : Pos := { reg := true }
def predOnly : Pos := { pred := true }
def lcOnly : Pos := { lc := true }
def csrOnly : Pos := { csr := true }
def csrDst : Pos := { csrW := true }
def predOrSrc : Pos := { src with pred := true }
end Pos

/-- The system registers that `CSRW` can write (R134). -/
def csrWritable (n : Nat) : Bool := n = 0x0A || n = 0x0B || (decide (0x12 ≤ n) && decide (n ≤ 0x1A))

/-! ## Formats (spec/01 R23) -/

/-- Lane width of a format. -/
def fmtWidth (f : Nat) : Nat :=
  match f with
  | 0 | 4 | 12 | 13 => 8 | 1 | 5 | 8 | 9 => 16 | 2 | 6 | 10 => 32 | 3 | 7 | 11 => 64 | 14 => 1 | _ => 8

def fmtLanes (f : Nat) : Nat := 256 / fmtWidth f

/-- An i format: signed. -/
def fmtSigned (f : Nat) : Bool := decide (f < 4)

/-- The formats I of spec/04: i8 to i64, n8 to n64. -/
def intFmts : List Nat := [0, 1, 2, 3, 4, 5, 6, 7]
/-- bf16, f16, f32, f64. -/
def floatFmts : List Nat := [8, 9, 10, 11]

/-- A format whose width must match `LANECFG` (R24). -/
def laneChecked (f : Nat) : Bool := [0, 1, 2, 4, 5, 6].contains f

/-! ## What an opcode allows -/

structure OpSpec where
  op : Nat
  /-- The formats it takes; none: `FMT` is ignored. -/
  fmts : Option (List Nat) := none
  /-- Its narrow integer formats must match `LANECFG`. -/
  laneCheck : Bool := true
  /-- `MOD` is legal. -/
  mods : Fields → Bool := fun w => w.mod = 0
  d : Pos := .none
  a : Pos := .none
  b : Pos := .none
  c : Pos := .none
  /-- The per-opcode fields of `X` are legal, given the state and `IMM`. Bits that the layout does not use, or marks reserved without
  stating a response, are ignored (R20; log entry 27). -/
  xok : State → Fields → Nat → Bool := fun _ _ _ => true
  /-- Supervisor-only. -/
  super : Bool := false
  /-- A per-opcode field names what no domain may reach (R148), or what the task may not (spec/13 R365). -/
  prot : State → Nat → Bool := fun _ _ => false
  /-- The guard acts per lane (R17); otherwise on the whole effect. -/
  perLane : Bool := true
  /-- `D` is written whole, whatever the guard holds. -/
  wholeD : Bool := false
  /-- The opcode reads `D`. -/
  readsD : Bool := false
  /-- `NXT` = DONE is illegal (R147). -/
  noDone : Bool := false

/-! ## An instruction at issue -/

/-- An instruction with the state it issues in. -/
structure Issue where
  s : State
  pe : Nat
  slot : Nat
  w : Fields
  spec : OpSpec

namespace Issue

def core (i : Issue) : Nat := coreOfPe i.pe
def task (i : Issue) : Task := i.s.task i.pe i.slot
def info (i : Issue) : CoreInfo := i.s.info i.core
def dom (i : Issue) : Nat := i.info.dom.getD 0
def disp (i : Issue) : Nat := i.info.disp
def die (i : Issue) : Nat := dieOfCore i.core
def cluster (i : Issue) : Nat := clusterOfCore i.core
def fmt (i : Issue) : Nat := i.w.fmt.toNat
def mod (i : Issue) : Nat := i.w.mod.toNat
def rm (i : Issue) : Nat := i.mod / 4
def sat (i : Issue) : Bool := i.w.mod.getLsbD 1
def ftz (i : Issue) : Bool := i.w.mod.getLsbD 0

def isChan (p : Pos) (b : BitVec 8) : Bool := p.used && (match opnd b with | .chan _ => true | _ => false)

/-- Some used operand is a channel (R21). -/
def anyChan (i : Issue) : Bool :=
  isChan i.spec.d i.w.d || isChan i.spec.a i.w.a || isChan i.spec.b i.w.b || isChan i.spec.c i.w.c

/-- `IMM` (R21). -/
def imm (i : Issue) : Nat := if i.anyChan then bitsOf 0 16 i.w.x else i.w.x.toNat

def offD (i : Issue) : Nat := bitsOf 40 8 i.w.x
def offA (i : Issue) : Nat := bitsOf 32 8 i.w.x
def offB (i : Issue) : Nat := bitsOf 24 8 i.w.x
def offC (i : Issue) : Nat := bitsOf 16 8 i.w.x

/-- The guard's 32 bits; all ones without a guard (R17). -/
def guard (i : Issue) : Pred := if i.w.pg then i.s.predOf i.pe i.w.pq.toNat else 0xFFFFFFFF

/-! ### The checks (spec/01 R12) -/

/-- Register words of the PE (spec/01 R42). -/
def regCount (i : Issue) : Nat := match i.info.regs with | 0 => 16 | 1 => 32 | _ => 64

/-- A channel slot is inside its window and its buffer (R19, R110). -/
def slotOk (i : Issue) (p h off : Nat) : Bool :=
  decide (off < (i.s.handle i.pe h).cntm1 + 1) && decide (i.task.adv p + off < (i.task.port p).count)

/-- An operand field is legal (R18, R19). -/
def posOk (i : Issue) (p : Pos) (b : BitVec 8) (off : Nat) : Bool :=
  !p.used ||
  match opnd b with
  | .reg n => p.reg && decide (n < i.regCount)
  | .chan h =>
    match i.task.portOf h with
    | none => false
    | some k => if k < 6 then p.portIn || (p.chanIn && i.slotOk k h off) else p.portOut || (p.chanOut && i.slotOk k h off)
  | .pred _ => p.pred
  | .lc _ => p.lc
  | .stream _ => p.stream
  | .fibre _ => p.fibre
  | .zero => p.zero
  | .imm => p.imm
  | .lane => p.lane
  | .csr n => (p.csr && decide (n < 0x1C)) || (p.csrW && csrWritable n)
  | .reserved => false

/-- A used operand names a register that only domain 0 may read (R120, R135). -/
def hidden (p : Pos) (b : BitVec 8) : Bool :=
  p.used && (match opnd b with | .csr n => decide (n = 0x19) || decide (n = 0x1A) | _ => false)

/-- `D` names a register that only domain 0 may write (R135). -/
def lockedD (i : Issue) : Bool :=
  i.spec.d.csrW && (match opnd i.w.d with | .csr n => decide (0x12 ≤ n) && decide (n ≤ 0x1A) | _ => false)

/-- Step 3 of R12. -/
def barred (i : Issue) : Bool :=
  i.spec.prot i.s i.imm ||
  (decide (i.dom ≠ 0) && (i.spec.super || i.lockedD || hidden i.spec.d i.w.d || hidden i.spec.a i.w.a ||
    hidden i.spec.b i.w.b || hidden i.spec.c i.w.c))

/-- `NXT`, `PQ` and `PG` are legal (R15). -/
def nxtOk (i : Issue) : Bool := (i.w.nxt ≠ 4 || loopOk i.w) && !(i.spec.noDone && i.w.nxt = 7)

/-- `FMT` is legal (R24). -/
def fmtOk (i : Issue) : Bool :=
  match i.spec.fmts with
  | none => true
  | some fs => fs.contains i.fmt && !(i.spec.laneCheck && laneChecked i.fmt && fmtWidth i.fmt ≠ 8 * 2 ^ i.task.lanecfg)

/-- Step 4 of R12: the number of the first field that is illegal (spec/06 R188; log entry 21). -/
def badField (i : Issue) : Option Nat :=
  if !i.nxtOk then some 1 else if !i.fmtOk then some 2 else if !i.spec.mods i.w then some 3
  else if !i.posOk i.spec.d i.w.d i.offD then some 4 else if !i.posOk i.spec.a i.w.a i.offA then some 5
  else if !i.posOk i.spec.b i.w.b i.offB then some 6 else if !i.posOk i.spec.c i.w.c i.offC then some 7
  else if !i.spec.xok i.s i.w i.imm then some 8 else none

/-- The first check that fails: cause and `DETAIL` (R12, R188). -/
def check (i : Issue) : Option (Nat × Nat) :=
  if i.barred then some (Cause.protection, i.spec.op)
  else i.badField.map fun f => (Cause.illegalOperand, i.spec.op + 256 * f)

/-! ### Operand values -/

/-- One lane of the immediate operand, in a format (R22). -/
def immLaneIn (i : Issue) (f : Nat) : Nat :=
  let v := i.imm
  let n := if i.anyChan then 16 else 48
  match f with
  | 0 | 1 | 2 | 3 => wrapTo (fmtWidth f) (signedOf n v)
  | 8 | 9 => v % 2 ^ 16
  | 10 => if i.anyChan then v * 2 ^ 16 else v % 2 ^ 32
  | 11 => if i.anyChan then v * 2 ^ 48 else v * 2 ^ 16
  | 12 | 13 => v % 256
  | f => v % 2 ^ fmtWidth f

/-- One lane of the immediate operand (R22). -/
def immLane (i : Issue) : Nat := i.immLaneIn i.fmt

/-- The value of a system register as this task reads it (spec/04 R134). -/
def csr (i : Issue) (n : Nat) : Nat :=
  let s := i.s
  let t := i.task
  let c := i.core
  match n with
  | 0x00 => i.dom
  | 0x01 => i.slot
  | 0x02 => i.pe % 16
  | 0x03 => packFields [(8, i.info.rcore), (4, c % 16), (3, i.info.block)]
  | 0x04 => i.cluster % 16
  | 0x05 => i.die
  | 0x06 => s.phaseOf i.die i.dom % 2 ^ 32
  | 0x07 => s.cycleOf i.die
  | 0x08 => i.disp % 2 ^ 32
  | 0x09 => (s.ctx i.dom).func
  | 0x0A => t.trapcause.toNat
  | 0x0B => t.trapcnt.toNat
  | 0x0C => t.lanecfg
  | 0x0D => i.info.granules
  | 0x0E => if (s.ctxSched i.die i.dom).repver then 1 else 0
  | 0x0F => bitmapOf 16 fun e => (s.peDetector (16 * c + e)).half
  | 0x10 => s.lifecycle
  | 0x11 => bitsOf 64 64 (s.fuse 0)
  | 0x12 => (s.dieOf i.die).nocWrr.toNat
  | 0x13 => (s.dieOf i.die).agePromote.toNat
  | 0x14 => (s.migrateWait i.cluster).toNat
  | 0x15 => (s.dieOf i.die).sched.ageDispatch
  | 0x16 => s.hub.wdogDflt.toNat
  | 0x17 => s.hub.linkhold.toNat
  | 0x18 => (s.dieOf i.die).evmask.toNat
  | 0x19 => (s.ctx i.dom).trapq.toNat
  | 0x1A => (s.ctx i.dom).savea.toNat
  | 0x1B => packFields [(1, if s.sag.dbgOpen then 1 else 0), (1, if s.sag.token.isSome then 1 else 0)]
  | _ => 0

/-- The word of a source operand. With an opcode that takes no format the immediate is zero-extended and the lane
index reads zero (R117; log entry 22). -/
def word (i : Issue) (b : BitVec 8) (off : Nat) : Word :=
  match opnd b with
  | .reg n => i.s.reg i.pe n
  | .chan h => (i.s.slotOf i.pe ((i.s.handle i.pe h).slotAt off)).payload
  | .imm => if i.spec.fmts = none then BitVec.ofNat 256 i.imm else mkWord (fmtWidth i.fmt) (fmtLanes i.fmt) fun _ => i.immLane
  | .lane => if i.spec.fmts = none then 0 else mkWord (fmtWidth i.fmt) (fmtLanes i.fmt) id
  | .csr n => BitVec.ofNat 256 (i.csr n)
  | _ => 0

/-- The word of a source operand that the instruction reads in lanes of the format `f`, not of `FMT`: an immediate or the lane
index has a value in each of those lanes (R18, R22, R339; log entry 99). -/
def wordIn (i : Issue) (f : Nat) (b : BitVec 8) (off : Nat) : Word :=
  match opnd b with
  | .imm => mkWord (fmtWidth f) (fmtLanes f) fun _ => i.immLaneIn f
  | .lane => mkWord (fmtWidth f) (fmtLanes f) id
  | _ => i.word b off

def wa (i : Issue) : Word := i.word i.w.a i.offA
def wb (i : Issue) : Word := i.word i.w.b i.offB
def wc (i : Issue) : Word := i.word i.w.c i.offC

/-- A scalar source (R117). -/
def scalar (i : Issue) (b : BitVec 8) (off : Nat) : Nat :=
  match opnd b with
  | .imm => i.imm
  | .lane => 0
  | _ => (i.word b off).toNat % 2 ^ 64

def sa (i : Issue) : Nat := i.scalar i.w.a i.offA
def sb (i : Issue) : Nat := i.scalar i.w.b i.offB
def sc (i : Issue) : Nat := i.scalar i.w.c i.offC

/-- The predicate a descriptor names. -/
def predNum (b : BitVec 8) : Nat := match opnd b with | .pred q => q | _ => 0
def predVal (i : Issue) (b : BitVec 8) : Pred := i.s.predOf i.pe (predNum b)

/-- The handle a descriptor names. -/
def chanNum (b : BitVec 8) : Nat := match opnd b with | .chan h => h | _ => 0
/-- The port of the handle a descriptor names. -/
def portNum (i : Issue) (b : BitVec 8) : Nat := (i.task.portOf (chanNum b)).getD 0

/-- What the destination word holds before the write. -/
def oldD (i : Issue) : Word := i.word i.w.d i.offD

end Issue

/-! ## Writing a destination -/

/-- Lanes whose guard bit is 1 take the new value; a lane narrower than 8 bits goes with its byte (R17, R119). -/
def guardMerge (w : Nat) (guard : Pred) (old new : Word) : Word :=
  let w := Nat.max w 8
  mkWord w (256 / w) fun k => if guard.getLsbD k then laneOf w k new else laneOf w k old

/-- A register write: the operand log takes the full value, and the damaged bit is cleared by a write that covers all 32
guard lanes (spec/06 R193). -/
def State.writeReg (s : State) (pe n : Nat) (v : Word) (full : Bool) : State :=
  let s := (s.setReg pe n v).setOplog pe (((n, v) :: s.oplog pe).take 16)
  if full then (s.setBadReg pe n false).setDamagedReg pe n false else s

/-- What an instruction that acts on one PE alone writes. -/
structure Eff where
  /-- The word for `D`, merged under the guard already. -/
  word : Option Word := none
  pred : Option (Nat × Pred) := none
  lc : Option (Nat × BitVec 16) := none
  /-- Poison emitted beside the results: cause, `DETAIL`, `CODE`. -/
  poison : Option (Nat × Nat × Nat) := none
deriving DecidableEq, Repr

/-- Writes the word of `D`. -/
def Issue.putD (i : Issue) (s : State) (v : Word) : State :=
  match opnd i.w.d with
  | .reg n => s.writeReg i.pe n v (i.guard = 0xFFFFFFFF || !i.spec.perLane || i.spec.wholeD)
  | .chan h =>
    let k := (s.handle i.pe h).slotAt i.offD
    s.setSlotOf i.pe k { s.slotOf i.pe k with payload := v, mark := false, poison := false }
  | _ => s

def Issue.putPred (i : Issue) (s : State) (q : Nat) (v : Pred) : State := s.setPredOf i.pe q v

/-- Performs an effect. -/
def Issue.apply (i : Issue) (s : State) (e : Eff) : State :=
  let s := match e.word with | some v => i.putD s v | none => s
  let s := match e.pred with | some (q, v) => i.putPred s q v | none => s
  let s := match e.lc with | some (n, v) => s.setTask i.pe i.slot ((s.task i.pe i.slot).setLc n v) | none => s
  match e.poison with | some (c, d, code) => s.emit i.pe i.slot c d code | none => s

/-! ## The frame of every task instruction -/

/-- How the body of an instruction ends: its effect performed; a cause that arises while it executes, with `DETAIL`; or
it holds issue. -/
inductive Done where
  | done (s : State)
  | fail (cause detail : Nat) (s : State)
  | hold (s : State)

/-- The registers an instruction reads, whatever its guard holds. A partial write keeps the other lanes of `D` and does not read them
(log entry 100). -/
def Issue.regsRead (i : Issue) : List Nat :=
  let one (p : Pos) (b : BitVec 8) : List Nat := if p.used then (match opnd b with | .reg n => [n] | _ => []) else []
  (if i.spec.readsD then one i.spec.d i.w.d else []) ++ one i.spec.a i.w.a ++ one i.spec.b i.w.b ++ one i.spec.c i.w.c

/-- Repairs, or marks as damaged, one register that an instruction reads (spec/06 R193). -/
def Issue.repair (i : Issue) (s : State) (n : Nat) : State :=
  if !s.badReg i.pe n || s.damagedReg i.pe n then s else
    match (s.oplog i.pe).find? (fun e => e.1 = n) with
    | some (_, v) => ((s.setReg i.pe n v).setBadReg i.pe n false).peEvent i.pe 0x2001 i.slot i.task.pc.toNat false
    | none => ((s.setDamagedReg i.pe n true).setBadReg i.pe n false).peEvent i.pe 0x2002 i.slot i.task.pc.toNat true

/-- The lowest damaged register among those read. -/
def lowestDamaged (s : State) (pe : Nat) (ns : List Nat) : Option Nat := firstBelow 64 fun n => ns.contains n && s.damagedReg pe n

/-- A failed check or a failing execution: the poison token is the only effect, then `NXT` (R13). -/
def Issue.failWith (i : Issue) (s : State) (cause detail : Nat) : State :=
  (s.emit i.pe i.slot cause detail).sequence i.pe i.slot (BitVec.ofNat 8 i.spec.op) i.w

/-- Runs an instruction of the task that holds the firing of PE `cur`: the checks of R12, the guard of R17, the body, the
sequencing of R14. -/
def runInstr (spec : OpSpec) (w : Fields) (body : Issue → Done) (s : State) : Out :=
  match s.firingSlot s.cur with
  | none => .next s
  | some slot =>
    let i : Issue := { s, pe := s.cur, slot, w, spec }
    match i.check with
    | some (c, d) => .next (i.failWith s c d)
    | none =>
      -- an instruction that holds issue after its request has gone out has read its registers
      let ns := if i.task.wait = .none then i.regsRead else []
      let s := ns.foldl i.repair s
      match lowestDamaged s i.pe ns with
      | some n => .next (i.failWith s Cause.rfParity n)
      | none =>
        let i := { i with s }
        if !spec.perLane && !i.guard.getLsbD 0 then .next (s.sequence i.pe slot (BitVec.ofNat 8 spec.op) w)
        else match body i with
          | .done s => .next (s.sequence i.pe slot (BitVec.ofNat 8 spec.op) w)
          | .fail c d s => .next (i.failWith s c d)
          | .hold s => .next s

/-- Runs an instruction that acts on its PE alone. -/
def runUnit (spec : OpSpec) (w : Fields) (eff : Issue → Eff) (s : State) : Out :=
  runInstr spec w (fun i => .done (i.apply i.s (eff i))) s

/-- ILLEGAL_OPERAND found while the instruction executes, at this field (R188). -/
def Issue.illegal (i : Issue) (field : Nat) : Done := .fail Cause.illegalOperand (i.spec.op + 256 * field) i.s

/-- A scalar result for `D` (R117). -/
def scalarWord (v : Nat) : Word := BitVec.ofNat 256 (v % 2 ^ 64)

end Sys2Proof.Machine
end

