-- ==== Sys2Proof/Machine/Pool.lean ====
section
/-! DEFINITION. The pool of a core: its partitions, the layout unit, reads and writes at the banks, and errors in its
words (spec/08 R222 to R227, R251, R252). -/
namespace Sys2Proof.Machine

/-! ## Partitions (R222) -/

/-- `Rb`: bytes of the register partition. -/
def CoreInfo.regBytes (i : CoreInfo) : Nat := 512 * (match i.regs with | 0 => 16 | 1 => 32 | _ => 64)
/-- `Ab`: bytes of the accumulator partition. -/
def CoreInfo.accBytes (i : CoreInfo) : Nat := 32768 * i.acc
/-- The pool byte at which the accumulator partition or the scratchpad begins. -/
def CoreInfo.spaceBase (i : CoreInfo) (acc : Bool) : Nat := if acc then i.regBytes else i.regBytes + i.accBytes
def CoreInfo.spaceSize (i : CoreInfo) (acc : Bool) : Nat := if acc then i.accBytes else 2 ^ 19 - i.regBytes - i.accBytes

/-! ## The layout unit (R226, R227) -/

/-- Element size in bytes; 0 for b1. -/
def elemBytes (fmt : Nat) : Nat := if fmt = 14 then 0 else fmtWidth fmt / 8

/-- ceil(a / b). -/
def ceilDiv (a b : Nat) : Nat := (a + b - 1) / b

namespace Shape
def e1 (t : Shape) : Nat := if 1 ≤ t.rankm1 then t.ext1 else 1
def e2 (t : Shape) : Nat := if 2 ≤ t.rankm1 then t.ext2 else 1
def e3 (t : Shape) : Nat := if 3 ≤ t.rankm1 then t.ext3 else 1
def t0 (t : Shape) : Nat := if t.tile0 = 0 then t.ext0 else t.tile0
def t1 (t : Shape) : Nat := if t.tile1 = 0 then t.e1 else t.tile1
def nt0 (t : Shape) : Nat := ceilDiv t.ext0 t.t0
def nt1 (t : Shape) : Nat := ceilDiv t.e1 t.t1

/-- idx of R226. -/
def index (t : Shape) (c0 c1 c2 c3 : Nat) : Nat :=
  (c0 / t.t0 + t.nt0 * (c1 / t.t1 + t.nt1 * (c2 + t.e2 * c3))) * (t.t0 * t.t1) + (c0 % t.t0 + t.t0 * (c1 % t.t1))

/-- Bytes up to element idx. -/
def byteOf (t : Shape) (idx : Nat) : Nat := if t.fmt = 14 then idx / 8 else idx * elemBytes t.fmt

/-- Size of the span (R226). -/
def span (t : Shape) : Nat :=
  let n := t.nt0 * t.t0 * (t.nt1 * t.t1) * t.e2 * t.e3
  if t.fmt = 14 then ceilDiv n 8 else n * elemBytes t.fmt

/-- R227. -/
def inRange (t : Shape) (c0 c1 c2 c3 : Nat) : Bool := decide (c0 < t.ext0 ∧ c1 < t.e1 ∧ c2 < t.e2 ∧ c3 < t.e3)

/-- The byte offset of the element at coordinates packed as C3, C2, C1, C0; none if out of range. -/
def offset (t : Shape) (at_ : Nat) : Option Nat :=
  let c k := fieldNat (16 * k) 16 at_
  if t.inRange (c 0) (c 1) (c 2) (c 3) then some (t.byteOf (t.index (c 0) (c 1) (c 2) (c 3))) else none
end Shape

def PoolTensor.shape (t : PoolTensor) : Shape :=
  { rankm1 := t.rankm1, fmt := t.fmt, ext0 := t.ext0, ext1 := t.ext1, ext2 := t.ext2, ext3 := t.ext3, tile0 := t.tile0, tile1 := t.tile1 }

/-- The pool tensor that a `TID` names at a core. -/
def State.poolTensor (s : State) (core tid : Nat) : Option PoolTensor :=
  let t := s.tensor core (tid % 4096)
  if t.valid then some t else none

/-- The pool byte at which a tensor begins. -/
def State.tensorBase (s : State) (core : Nat) (t : PoolTensor) : Nat := (s.info core).spaceBase t.acc + t.addr

/-! ## Reads and writes at the banks (R223, R248, R251, R252) -/

/-- The 64-bit pool words that n bytes from address a touch: the first, and their number. -/
def wordsOf (a n : Nat) : Nat × Nat := (a / 8, if n = 0 then 0 else (a + n - 1) / 8 + 1 - a / 8)

/-- The word cannot be read (R252). -/
def PoolFault.failing (f : PoolFault) : Bool := decide (f = .uncorrectable) || decide (f = .pattern)

/-- The first word of a range that fails, among those for which `p` holds. -/
def State.failingWord (s : State) (core a n : Nat) (p : Nat → Bool := fun _ => true) : Option Nat :=
  firstFrom (fun w => p w && (s.poolFault core w).failing) (wordsOf a n).1 (wordsOf a n).2

/-- An event of a bank; the manual gives it no payload and no element number (log entry 14). -/
def State.bankEvent (s : State) (core w code : Nat) (always : Bool) : State :=
  ({ s with free := s.free + 1 }).logEvent (dieOfCore core) code (Config.openValue code s.free) (s.domOf core)
    (coreEventOrigin core (Config.openValue 1 (w / 4 % 32) % 16)) always

/-- `DETAIL` of a POOL_UE record for a failing word (R242). -/
def State.poolUeDetail (s : State) (core tid w : Nat) : Nat :=
  packFields [(4, 0), (12, tid), (19, 8 * w), (1, if s.poolFault core w = .pattern then 1 else 0)]

/-- What a read or write of a range leaves that meets failing words, among those for which `p` holds: an event for each uncorrectable error
(R252). -/
def State.meetFailing (s : State) (core a n : Nat) (p : Nat → Bool := fun _ => true) : State :=
  foldUp (wordsOf a n).2 s fun s k =>
    if p (a / 8 + k) && decide (s.poolFault core (a / 8 + k) = .uncorrectable) then s.bankEvent core (a / 8 + k) 0x2011 true else s

/-- Corrects the words of a range that is read (R251). -/
def State.correctWords (s : State) (core a n : Nat) : State :=
  foldUp (wordsOf a n).2 s fun s k =>
    let w := a / 8 + k
    if s.poolFault core w = .correctable then (s.setPoolFault core w .corrected).bankEvent core w 0x2010 false else s

def State.poolBytes (s : State) (core a n : Nat) : List Byte := s.core.pool.getList 0 (2 ^ 19 * core + a) n

/-- A read: the bytes, or the first failing word, which is left unchanged. Words of it that can be corrected are (R251, R252). -/
def State.poolRead (s : State) (core a n : Nat) : (List Byte ⊕ Nat) × State :=
  match s.failingWord core a n with
  | some w => (.inr w, (s.meetFailing core a n).correctWords core a n)
  | none => (.inl (s.poolBytes core a n), s.correctWords core a n)

/-- A STREAM node keeps the bytes that a write replaces while an invocation is open (spec/08 R231). -/
def State.keepOld (s : State) (core a n : Nat) : State :=
  foldUp 4 s fun s k =>
    let d := s.node (4 * core + k)
    if d.starts.isEmpty then s else
      s.setNode (4 * core + k) { d with hist := ((List.range n).map fun j => (a + j, s.poolByte core (a + j))) ++ d.hist }

/-- Marks the words of a range, among those for which `p` holds. -/
def State.markWords (s : State) (core a n : Nat) (f : PoolFault) (p : Nat → Bool := fun _ => true) : State :=
  foldUp (wordsOf a n).2 s fun s k => if p (a / 8 + k) then s.setPoolFault core (a / 8 + k) f else s

/-- A range covers a 64-bit word. -/
def coversWord (a n w : Nat) : Bool := decide (a ≤ 8 * w) && decide (8 * w + 8 ≤ a + n)

/-- Stores bytes; words wholly covered become good (R252). -/
def State.poolStore (s : State) (core a : Nat) (bs : List Byte) : State :=
  let n := bs.length
  let s := s.keepOld core a n
  let s := { s with core := { s.core with pool := s.core.pool.putList 0 (2 ^ 19 * core + a) bs } }
  s.markWords core a n .good (coversWord a n)

/-- A write: it performs nothing if it covers part of a failing word, whose number is then the answer (R252). -/
def State.poolWrite (s : State) (core a : Nat) (bs : List Byte) : Option Nat × State :=
  match s.failingWord core a bs.length (fun w => !coversWord a bs.length w) with
  | some w => (some w, s.meetFailing core a bs.length fun w => !coversWord a bs.length w)
  | none => (none, s.poolStore core a bs)

/-- Writes the poison pattern into every word covered (R252). -/
def State.poolPattern (s : State) (core a n : Nat) : State :=
  let w := wordsOf a n
  (s.poolStore core (8 * w.1) (List.replicate (8 * w.2) 0)).markWords core a n .pattern

/-- `POOL_ECC_WRITEBACK` (R251). -/
def execPoolEccWriteback (core : Nat) (word : Nat) (s : State) : Out :=
  if s.poolFault core word = .corrected then .next (s.setPoolFault core word .good) else .next s

end Sys2Proof.Machine
end

