-- ==== Sys2Proof/Machine/Mesh.lean ====
section
/-! DEFINITION. The cluster mesh: packets, hops, arbitration, promotion, replay (spec/13 R353 to R361). The bits that a
header flit carries beyond its header are not given: the layouts here are the model's own (log entry 36). -/
namespace Sys2Proof.Machine

/-! ## Places (R353) -/

/-- The mesh router of a cluster: 16Y + X. -/
def meshRouter (cl : Nat) : Nat :=
  let d := cl / 16
  16 * (4 * (d / 4) + cl % 16 / 4) + (4 * (d % 4) + cl % 4)

/-- The die of a mesh router. -/
def routerDie (r : Nat) : Nat := 4 * (r / 64) + r % 16 / 4

/-- The cluster of a mesh router. -/
def routerCluster (r : Nat) : Nat := 16 * routerDie r + 4 * (r / 16 % 4) + r % 4

/-- The router that a link leads to; directions as inputs are numbered: 0 north, 1 east, 2 south, 3 west. -/
def meshNext (r dir : Nat) : Option Nat :=
  match dir with
  | 0 => if r / 16 = 0 then none else some (r - 16)
  | 1 => if r % 16 = 15 then none else some (r + 1)
  | 2 => if r / 16 = 7 then none else some (r + 16)
  | 3 => if r % 16 = 0 then none else some (r - 1)
  | _ => none

/-- The direction from which a flit sent in a direction arrives. -/
def opposite (dir : Nat) : Nat := (dir + 2) % 4

/-! ## Headers (R354, R355) -/

structure Header where
  dmod : Nat := 0
  dx : Nat := 0
  dy : Nat := 0
  dep : Nat := 0
  smod : Nat := 0
  sx : Nat := 0
  sy : Nat := 0
  sep : Nat := 0
  vc : Nat := 0
  lenm1 : Nat := 0
  type : Nat := 0
  dom : Nat := 0
  tag : Nat := 0
deriving DecidableEq, Repr

def Header.pack (h : Header) : Nat :=
  packFields [(12, h.tag), (10, h.dom), (5, h.type), (3, h.lenm1), (2, h.vc), (3, h.sep), (3, h.sy), (4, h.sx), (6, h.smod),
    (3, h.dep), (3, h.dy), (4, h.dx), (6, h.dmod)]

def Header.ofBits {w : Nat} (v : BitVec w) : Header :=
  { tag := bitsOf 0 12 v, dom := bitsOf 12 10 v, type := bitsOf 22 5 v, lenm1 := bitsOf 27 3 v, vc := bitsOf 30 2 v, sep := bitsOf 32 3 v
    sy := bitsOf 35 3 v, sx := bitsOf 38 4 v, smod := bitsOf 42 6 v, dep := bitsOf 48 3 v, dy := bitsOf 51 3 v, dx := bitsOf 54 4 v
    dmod := bitsOf 58 6 v }

/-- The header of a packet from an endpoint of a cluster to an endpoint of a cluster of this module. -/
def State.header (s : State) (src sep dst dep type vc lenm1 dom tag : Nat) : Header :=
  let a := meshRouter src
  let b := meshRouter dst
  { dmod := s.fab.moduleId, dx := b % 16, dy := b / 16, dep, smod := s.fab.moduleId, sx := a % 16, sy := a / 16, sep, vc, lenm1, type, dom, tag }

/-- The header of the response to a packet, which comes back on the partner channel (R355). -/
def Header.reply (h : Header) (type lenm1 : Nat) : Header :=
  { h with dmod := h.smod, dx := h.sx, dy := h.sy, dep := h.sep, smod := h.dmod, sx := h.dx, sy := h.dy, sep := h.dep, vc := h.vc % 4 + 1, lenm1, type }

/-- The packet goes to the hub (R353, R357). -/
def Header.toHub (h : Header) (own : Nat) : Bool := decide (h.dep = 7) || decide (h.dmod ≠ own)

/-- A reserved type, or a destination that names nothing (R355). -/
def Header.bad (h : Header) (own : Nat) : Bool :=
  decide (0x0E ≤ h.type) || (!h.toHub own && (h.dep = 6 || (h.dep = 5 && !(h.dx % 4 = 0 && h.dy % 4 = 0))))

/-- The output by which a packet leaves a router (R357). -/
def Header.route (h : Header) (own r : Nat) : Nat :=
  let hub := h.toHub own
  let dx := if hub then 0 else h.dx
  let dy := if hub then (if h.sy ≤ 3 then 3 else 4) else h.dy
  if r % 16 < dx then 1 else if dx < r % 16 then 3 else if r / 16 < dy then 2 else if dy < r / 16 then 0
  else if hub then 3 else 4 + h.dep

/-! ## Sending and receiving (R354, R356) -/

/-- Puts the flits of a packet into the local input of their endpoint. -/
def State.inject (s : State) (src sep : Nat) (h : Header) (payload : Nat) (data : List (BitVec 512)) : State :=
  let r := meshRouter src
  let head : Flit := { head := true, last := data.isEmpty, bits := BitVec.ofNat 512 (h.pack + 2 ^ 64 * payload), since := s.now + 1 }
  let body := (List.range data.length).map fun k =>
    ({ head := false, last := decide (k + 1 = data.length), bits := (data[k]?).getD 0, since := s.now + 1 } : Flit)
  s.setMeshIn r (4 + sep) h.vc (s.meshIn r (4 + sep) h.vc ++ head :: body)

/-- The flits of the first packet of a list, up to its last flit. -/
def packetLen : List Flit → Option Nat
  | [] => none
  | f :: fs => if f.last then some 1 else (packetLen fs).map (· + 1)

/-- Splits the packets of a list of delivered flits; an incomplete one at the end is left out. `fuel` bounds them. -/
def splitPackets : Nat → List Flit → List (List Flit)
  | 0, _ => []
  | n + 1, fs => match packetLen fs with | none => [] | some k => fs.take k :: splitPackets n (fs.drop k)

/-- Takes out of what a local port has delivered the first packet for which `p` holds of its header flit. -/
def State.takePacket (s : State) (cl ep : Nat) (p : BitVec 512 → Bool) : Option (List Flit) × State :=
  let fs := s.meshDone (meshRouter cl) (4 + ep)
  let ps := splitPackets fs.length fs
  match ps.findIdx? (fun q => match q with | f :: _ => p f.bits | [] => false) with
  | none => (none, s)
  | some k =>
    let rest := fs.drop (ps.foldl (fun n q => n + q.length) 0)
    (ps[k]?, s.setMeshDone (meshRouter cl) (4 + ep) ((ps.take k ++ ps.drop (k + 1)).flatten ++ rest))

/-! ## Arbitration (R358, R360, R361) -/

/-- Age of a header flit at the head of an input (R361). -/
def Flit.age (f : Flit) (now : Nat) : Nat := now - f.since

def State.agePromote (s : State) (r : Nat) : Nat := (s.dieOf (routerDie r)).agePromote.toNat

def State.flitPromoted (s : State) (r : Nat) (f : Flit) : Bool := f.promoted || decide (s.agePromote r ≤ f.age s.now)

/-- The candidate at the head of an input (R358). -/
def State.candidate (s : State) (r i vc : Nat) : Option Flit :=
  match (s.meshIn r i vc).head? with
  | some f => if f.since ≤ s.now then some f else none
  | none => none

/-- The link crosses a die edge. -/
def dieEdge (r dir : Nat) : Bool := match meshNext r dir with | some q => decide (routerDie r ≠ routerDie q) | none => false

/-- The link to the hub (R353). -/
def hubLink (r dir : Nat) : Bool := decide (dir = 3) && (decide (r = 48) || decide (r = 64))

/-- The routers on this side of a die edge, with the direction across it. -/
def edgeRouters (r dir : Nat) : List Nat :=
  if dir % 2 = 1 then (List.range 4).map fun k => 16 * (4 * (r / 64) + k) + r % 16
  else (List.range 4).map fun k => 16 * (r / 16) + (4 * (r % 16 / 4) + k)

/-- The router whose link carries the traffic of a die-edge link that is down: the next one along the edge whose link is up (spec/15 R441; log entry
116). -/
def State.detour (s : State) (r dir : Nat) : Option Nat :=
  if dieEdge r dir && (s.meshOut r dir).down then
    let up := (edgeRouters r dir).filter fun n => !(s.meshOut n dir).down
    let far (n : Nat) : Nat := (n - r) + (r - n)
    up.foldl (fun b n => match b with | none => some n | some x => if far n < far x then some n else b) none
  else none

/-- A credit is left for an output on a virtual channel (R358). A local endpoint and the hub take every flit (R356). -/
def State.credit (s : State) (r out vc : Nat) : Bool :=
  match if out < 4 then meshNext r out else none with
  | none => !(s.meshOut r out).down
  | some q => decide ((s.meshIn q (opposite out) vc).length < (if dieEdge r out then 32 else 8)) &&
      (!(s.meshOut r out).down || (s.detour r out).elim false fun n => decide ((s.meshOut n out).sentAt ≠ some s.now))

/-- The header flits that compete for an output on a virtual channel, by input. -/
def State.contenders (s : State) (r out vc : Nat) : List (Nat × Flit) :=
  (List.range 12).filterMap fun i => match s.candidate r i vc with
    | some f => if f.head && !(Header.ofBits f.bits).bad s.fab.moduleId && decide ((Header.ofBits f.bits).route s.fab.moduleId r = out) then some (i, f) else none
    | none => none

/-- The header flit chosen under R361. -/
def State.chooseHead (s : State) (r out vc : Nat) : Option (Nat × Flit) :=
  let cs := s.contenders r out vc
  let old := cs.filter fun c => s.flitPromoted r c.2
  let lastIn := (s.meshOut r out).last.find vc 11
  let rank (i : Nat) : Nat := (i + 11 - lastIn) % 12
  if old.isEmpty then
    cs.foldl (fun b c => match b with | none => some c | some x => if rank c.1 < rank x.1 then some c else b) none
  else
    old.foldl (fun b c => match b with | none => some c | some x => if x.2.age s.now < c.2.age s.now then some c else b) none

/-- The packet that holds an output is promoted: its age is compared in every cycle until its last flit leaves (R361). -/
def State.holdPromoted (s : State) (r : Nat) (h : MeshHold) : Bool := h.promoted || decide (s.agePromote r ≤ h.age)

/-- f[v] of R360: the flit, and its packet with its age and whether it is promoted. -/
def State.offer (s : State) (r out vc : Nat) : Option (Flit × MeshHold) :=
  if !s.credit r out vc then none else
    match (s.meshOut r out).hold.find vc none with
    | some h => (s.candidate r h.input vc).bind fun f => if f.head then none else some (f, { h with promoted := s.holdPromoted r h })
    | none => (s.chooseHead r out vc).map fun c => (c.2, { input := c.1, age := c.2.age s.now, promoted := s.flitPromoted r c.2 })

/-- Weight of a virtual channel (spec/04 R136). -/
def State.vcWeight (s : State) (r v : Nat) : Nat := bitsOf (8 * v) 8 (s.dieOf (routerDie r)).nocWrr

/-- The virtual channel that an output serves, with its new turn and count (R360). -/
def State.serve (s : State) (r out : Nat) : Option (Nat × Nat × Nat) :=
  let o := s.meshOut r out
  let age (v : Nat) : Option Nat := (s.offer r out v).bind fun x => if x.2.promoted then some x.2.age else none
  let best := foldUp 4 (none : Option (Nat × Nat)) fun b v =>
    match age v, b with
    | some a, none => some (v, a)
    | some a, some (_, x) => if x < a then some (v, a) else b
    | none, _ => b
  match best with
  | some (v, _) => some (v, o.turn, o.count)
  | none =>
    if (s.offer r out o.turn).isSome && decide (o.count < s.vcWeight r o.turn) then some (o.turn, o.turn, o.count + 1)
    else (firstBelow 4 fun k => (s.offer r out ((o.turn + 1 + k) % 4)).isSome).map fun k =>
      ((o.turn + 1 + k) % 4, (o.turn + 1 + k) % 4, 1)

/-- The next packet of an input comes to its head now. -/
def freshHead (now : Nat) : List Flit → List Flit
  | f :: fs => (if f.head then { f with since := Nat.max f.since (now + 1) } else f) :: fs
  | [] => []

/-- Discards a complete packet at the head of an input whose header names nothing (R355). -/
def State.discardBad (s : State) (r : Nat) : Option State :=
  (firstBelow 48 fun k =>
    match (s.meshIn r (k / 4) (k % 4)).head? with
    | some f => f.head && (Header.ofBits f.bits).bad s.fab.moduleId && (packetLen (s.meshIn r (k / 4) (k % 4))).isSome
    | none => false).map fun k =>
  let fs := s.meshIn r (k / 4) (k % 4)
  let dom := ((fs.head?).map fun f => (Header.ofBits f.bits).dom).getD 0
  let s := s.setMeshIn r (k / 4) (k % 4) (freshHead s.now (fs.drop ((packetLen fs).getD 0)))
  s.dispEvent (routerDie r) 0x3006 noDisp dom
    (packFields [(8, 0), (4, routerCluster r % 16), (3, routerDie r)]) true

/-- Grants one flit of an output (R358, R360). -/
def State.hop (s : State) (r out : Nat) : State :=
  match s.serve r out with
  | none => s
  | some (v, turn, count) =>
    match s.offer r out v with
    | none => s
    | some (f, h) =>
      let i := h.input
      let o := s.meshOut r out
      let o := { o with
        turn, count, sentAt := some s.now
        hold := o.hold.put v (if f.last then none else some h) none
        last := if f.head then o.last.put v i 11 else o.last }
      let rest := (s.meshIn r i v).drop 1
      let s := (s.setMeshOut r out o).setMeshIn r i v (if f.last then freshHead s.now rest else rest)
      match if out < 4 then meshNext r out else none with
      | some q =>
        -- over a detour, one hop sideways on each side, and on the neighbouring link
        let via := s.detour r out
        let g : Flit := { f with since := s.now + (if dieEdge r out then 9 else 2) + (if via.isSome then 4 else 0), promoted := false }
        let s := via.elim s fun n => s.setMeshOut n out { s.meshOut n out with sentAt := some s.now }
        s.setMeshIn q (opposite out) v (s.meshIn q (opposite out) v ++ [g])
      | none => s.setMeshDone r out (s.meshDone r out ++ [f])

/-- `MESH_FLIT_HOP`: a packet that names nothing is discarded first. -/
def execMeshFlitHop (router : Nat) (out : Nat) (s : State) : Out :=
  match s.discardBad router with
  | some s => .next s
  | none => if (s.meshOut router out).sentAt = some s.now then .next s else .next (s.hop router out)

/-- The packets of a die's routers that are promoted stay so, whatever `%age_promote` becomes (R361). -/
def State.keepPromoted (s : State) (die : Nat) : State :=
  let mark (c : Nat × List Flit) : Nat × List Flit :=
    let r := c.1 / 48
    match c.2 with
    | f :: fs => if decide (routerDie r = die) && f.head && decide (f.since ≤ s.now) && s.flitPromoted r f then (c.1, { f with promoted := true } :: fs) else c
    | [] => c
  let keep (c : Nat × MeshOut) : Nat × MeshOut :=
    let r := c.1 / 12
    if routerDie r = die then (c.1, { c.2 with hold := ⟨c.2.hold.cells.map fun x => (x.1, x.2.map fun h => { h with promoted := s.holdPromoted r h })⟩ }) else c
  { s with mesh := { s.mesh with inputs := ⟨s.mesh.inputs.cells.map mark⟩, outs := ⟨s.mesh.outs.cells.map keep⟩ } }

/-- `PACKET_AGE_PROMOTE` (R361). -/
def execPacketAgePromote (router : Nat) (input : Nat) (vc : Nat) (s : State) : Out :=
  match s.meshIn router input vc with
  | f :: fs => if f.head && decide (f.since ≤ s.now) && s.flitPromoted router f then .next (s.setMeshIn router input vc ({ f with promoted := true } :: fs)) else .next s
  | [] => .next s

/-- Functions of the resets in progress that cover a domain. -/
def State.resetting (s : State) (dom : Nat) : Option Nat :=
  if dom = 0 then none
  else
    let f := (s.ctx dom).func
    if (s.func 0).flr.isSome then some 0 else if (s.func f).flr.isSome then some f else none

end Sys2Proof.Machine
end

