-- ==== Sys2Proof/Machine/Flags.lean ====
section
/-! DEFINITION. Every flag computation: predicates from lanes and bit by bit under a guard, carries, comparisons
(spec/04 R118, R124, R130, R133; spec/05 R163). -/
namespace Sys2Proof.Machine

/-- A predicate written from lane results: bits at or above the lane count are 0, and a guarded-off bit below it keeps
its value (R118). -/
def lanePred (lanes : Nat) (guard old : Pred) (f : Nat → Bool) : Pred :=
  BitVec.ofNat 32 (bitmapOf (Nat.min lanes 32) fun i => if guard.getLsbD i then f i else old.getLsbD i)

/-- A predicate written bit by bit under a guard over all 32 bits (R118, R133). -/
def bitPred (guard old new : Pred) : Pred := (new &&& guard) ||| (old &&& ~~~guard)

/-- All ones or zero. -/
def flagPred (b : Bool) : Pred := if b then 0xFFFFFFFF else 0

/-- Carry out of A + B + cin in w bits (R124). -/
def carryOut (w a b cin : Nat) : Bool := decide (2 ^ w ≤ a + b + cin)

/-- Borrow out of A - B - cin (R124). -/
def borrowOut (a b cin : Nat) : Bool := decide (a < b + cin)

/-- The condition of `CMP` (R130) on two values as integers. -/
def cmpHolds (cond : Nat) (a b : Int) : Bool :=
  match cond with
  | 0 => decide (a = b)
  | 1 => decide (a ≠ b)
  | 2 => decide (a < b)
  | 3 => decide (a ≤ b)
  | 4 => decide (b < a)
  | 5 => decide (b ≤ a)
  | _ => false

end Sys2Proof.Machine
end

