-- ==== Sys2Proof/Machine/Float.lean ====
section
/-! DEFINITION. Floating-point values as exact rationals, one rounding, and lg6 (spec/02 R63 to R77). -/
namespace Sys2Proof.Machine

/-- A floating-point format: exponent and fraction widths (R63). -/
structure FFmt where
  ew : Nat
  fw : Nat
deriving DecidableEq, Repr

def bf16 : FFmt := ⟨8, 7⟩
def f16 : FFmt := ⟨5, 10⟩
def f32 : FFmt := ⟨8, 23⟩
def f64 : FFmt := ⟨11, 52⟩

/-- The format of a code (spec/01 R23). -/
def ffmt (code : Nat) : FFmt := match code with | 8 => bf16 | 9 => f16 | 10 => f32 | _ => f64

def FFmt.width (f : FFmt) : Nat := 1 + f.ew + f.fw
def FFmt.bias (f : FFmt) : Nat := 2 ^ (f.ew - 1) - 1
def FFmt.signBit (f : FFmt) : Nat := 2 ^ (f.ew + f.fw)
/-- The pattern of +∞. -/
def FFmt.inf (f : FFmt) : Nat := (2 ^ f.ew - 1) * 2 ^ f.fw
/-- The canonical NaN (R64). -/
def FFmt.nan (f : FFmt) : Nat := f.inf + 2 ^ (f.fw - 1)
def FFmt.largest (f : FFmt) : Nat := f.inf - 1

/-- A value: a NaN, an infinity, or an exact rational num / den with a sign, which a zero has too. -/
inductive FVal where
  | nan
  | inf (neg : Bool)
  | fin (neg : Bool) (num den : Nat)
deriving DecidableEq, Repr, Inhabited

/-- 2^e as a fraction. -/
def pow2 (e : Int) : Nat × Nat := if 0 ≤ e then (2 ^ e.toNat, 1) else (1, 2 ^ (-e).toNat)

/-- The value of a bit pattern; with `ftz` a subnormal reads as a zero of its sign (R63, R69). -/
def FFmt.decode (f : FFmt) (ftz : Bool) (v : Nat) : FVal :=
  let neg := (v / f.signBit) % 2 = 1
  let e := (v / 2 ^ f.fw) % 2 ^ f.ew
  let m := v % 2 ^ f.fw
  if e = 2 ^ f.ew - 1 then (if m = 0 then .inf neg else .nan)
  else if e = 0 then .fin neg (if ftz then 0 else m) (2 ^ (f.bias - 1 + f.fw))
  else
    let p := pow2 ((e : Int) - f.bias - f.fw)
    .fin neg ((2 ^ f.fw + m) * p.1) p.2

/-- A pattern with a sign. -/
def FFmt.signed (f : FFmt) (neg : Bool) (mag : Nat) : Nat := (if neg then f.signBit else 0) + mag

/-- floor(num / den), and whether rounding in mode `rm` takes the next integer instead (R66). Modes: 0 nearest even,
1 toward zero, 2 toward +∞, 3 toward -∞. -/
def roundQuot (rm : Nat) (neg : Bool) (num den : Nat) : Nat :=
  let q := num / den
  let r := num % den
  let up := match rm with
    | 0 => decide (den < 2 * r) || (decide (2 * r = den) && decide (q % 2 = 1))
    | 1 => false
    | 2 => !neg && decide (r ≠ 0)
    | _ => neg && decide (r ≠ 0)
  if up then q + 1 else q

/-- floor(log2(num / den)) for num > 0. -/
def ilog2Rat (num den : Nat) : Int :=
  let e : Int := (Nat.log2 num : Int) - Nat.log2 den
  let p := pow2 e
  if num * p.2 < den * p.1 then e - 1 else e

/-- The magnitude pattern of num / den > 0 rounded in mode `rm`; a pattern at or above that of ∞ is an overflow. -/
def FFmt.roundMag (f : FFmt) (rm : Nat) (neg : Bool) (num den : Nat) : Nat :=
  let qmin : Int := 1 - (f.bias : Int) - f.fw
  let q := max (ilog2Rat num den - f.fw) qmin
  let p := pow2 q
  (q - qmin).toNat * 2 ^ f.fw + roundQuot rm neg (num * p.2) (den * p.1)

/-- The result of an overflow (R67). -/
def FFmt.overflow (f : FFmt) (rm : Nat) (neg : Bool) : Nat :=
  let toInf := match rm with | 0 => true | 1 => false | 2 => !neg | _ => neg
  f.signed neg (if toInf then f.inf else f.largest)

/-- `SAT` on a result (R68). -/
def FFmt.saturate (f : FFmt) (sat : Bool) (v : Nat) : Nat :=
  if sat ∧ v % f.signBit = f.inf then v - 1 else v

/-- A value rounded once to a format, with `SAT` and `FTZ` (R64 to R69). -/
def FFmt.round (f : FFmt) (rm : Nat) (sat ftz : Bool) (v : FVal) : Nat :=
  match v with
  | .nan => f.nan
  | .inf neg => f.saturate sat (f.signed neg f.inf)
  | .fin neg num den =>
    if num = 0 then f.signed neg 0
    else
      let m := f.roundMag rm neg num den
      if f.inf ≤ m then f.saturate sat (f.overflow rm neg)
      else if ftz ∧ m < 2 ^ f.fw then f.signed neg 0
      else f.signed neg m

namespace FVal

def isNan (v : FVal) : Bool := match v with | .nan => true | _ => false
def isZero (v : FVal) : Bool := match v with | .fin _ 0 _ => true | _ => false

def neg (v : FVal) : FVal := match v with | .nan => .nan | .inf s => .inf !s | .fin s n d => .fin (!s) n d
def abs (v : FVal) : FVal := match v with | .nan => .nan | .inf _ => .inf false | .fin _ n d => .fin false n d

/-- Exact product (R70, R71). -/
def mul (a b : FVal) : FVal :=
  match a, b with
  | .nan, _ => .nan
  | _, .nan => .nan
  | .inf s, .inf t => .inf (s != t)
  | .inf s, .fin t n _ => if n = 0 then .nan else .inf (s != t)
  | .fin s n _, .inf t => if n = 0 then .nan else .inf (s != t)
  | .fin s n d, .fin t m e => .fin (s != t) (n * m) (d * e)

/-- Signed numerator. -/
def num (s : Bool) (n : Nat) : Int := if s then -(n : Int) else n

/-- Exact sum; an exact zero from operands of opposite sign is -0 only when rounding toward -∞ (R70, R71). -/
def add (rm : Nat) (a b : FVal) : FVal :=
  match a, b with
  | .nan, _ => .nan
  | _, .nan => .nan
  | .inf s, .inf t => if s = t then .inf s else .nan
  | .inf s, .fin _ _ _ => .inf s
  | .fin _ _ _, .inf t => .inf t
  | .fin s n d, .fin t m e =>
    let z := num s n * e + num t m * d
    if z = 0 then .fin (if s = t then s else rm = 3) 0 1 else .fin (z < 0) z.natAbs (d * e)

/-- Exact quotient (R71). -/
def div (a b : FVal) : FVal :=
  match a, b with
  | .nan, _ => .nan
  | _, .nan => .nan
  | .inf _, .inf _ => .nan
  | .inf s, .fin t _ _ => .inf (s != t)
  | .fin s _ _, .inf t => .fin (s != t) 0 1
  | .fin s n d, .fin t m e => if m = 0 then (if n = 0 then .nan else .inf (s != t)) else .fin (s != t) (n * e) (d * m)

/-- A · 2^k. -/
def scale (v : FVal) (k : Int) : FVal :=
  match v with
  | .fin s n d => let p := pow2 k; .fin s (n * p.1) (d * p.2)
  | v => v

/-- A key that orders values other than NaN, ±0 alike: less, equal, greater by the sign of the difference. -/
def cmp (a b : FVal) : Int :=
  match a, b with
  | .inf s, .inf t => num s 1 - num t 1
  | .inf s, _ => num s 1
  | _, .inf t => - num t 1
  | .fin s n d, .fin t m e => num s n * e - num t m * d
  | _, _ => 0

/-- Whether the sign is negative. -/
def negative (v : FVal) : Bool := match v with | .nan => false | .inf s => s | .fin s _ _ => s

/-- The order of R160: -0 below +0. -/
def below (a b : FVal) : Bool := decide (cmp a b < 0) || (decide (cmp a b = 0) && a.negative && !b.negative)

/-- An integer as a value. -/
def ofInt (z : Int) : FVal := .fin (z < 0) z.natAbs 1

/-- The integer that `rm` selects (R162, R179); 0 for a value that is not finite. -/
def toInt (rm : Nat) (v : FVal) : Int :=
  match v with
  | .fin s n d => num s (roundQuot rm s n d)
  | _ => 0

end FVal

/-! ## lg6 (R72 to R77) -/

/-- M of R73. -/
def lgM (f : Nat) : Nat := match f with | 0 => 128 | 1 => 152 | 2 => 181 | _ => 215

/-- Magnitude of a code in units of 2^-11 (R73): code 0 is zero. -/
def lgMag (c : Nat) : Nat := if c = 0 then 0 else lgM (c % 4) * 2 ^ (c / 4)

/-- A byte that reads as NaR: non-canonical, or 0x20 (R73). -/
def lgNar (b : Nat) : Bool := decide (b / 64 ≠ 0) || decide (b = 0x20)

def lgDecode (b : Nat) : FVal := if lgNar b then .nan else .fin (b / 32 % 2 = 1) (lgMag (b % 32)) (2 ^ 11)

/-- The lg6 encoding of a value (R77). -/
def lgEncode (v : FVal) : Nat :=
  match v with
  | .fin s n d =>
    let c := countBelow (fun k =>
      let mid := (lgMag k + lgMag (k + 1)) * d
      decide (mid < n * 2 ^ 12) || (decide (mid = n * 2 ^ 12) && decide (k % 2 = 1))) 31
    if c = 0 then 0 else (if s then 0x20 else 0) + c
  | _ => 0x20

/-- The lg6 product of R76: none is invalid; otherwise in units of 2^-15. -/
def lgProduct (a b : Nat) : Option Int :=
  if lgNar a || lgNar b then none
  else if a % 32 = 0 ∨ b % 32 = 0 then some 0
  else
    let s := a % 32 + b % 32
    let p := lgM (s % 4) * 2 ^ (s / 4)
    some (FVal.num (a / 32 ≠ b / 32) p)

end Sys2Proof.Machine
end

