-- ==== Sys2Proof/Machine/Routers.lean ====
section
/-! DEFINITION. The router array: links, routes and the local and element ports (spec/07 R198 to R203, R208). -/
namespace Sys2Proof.Machine

def coreOfRouter (r : Nat) : Nat := r / 16

/-- Position of a router in the PE grid of its cluster. -/
def gridX (r : Nat) : Nat := 4 * (r / 16 % 4) + r % 4
def gridY (r : Nat) : Nat := 4 * (r / 16 % 16 / 4) + r % 16 / 4

/-- The router at a grid position of the cluster of router r. -/
def routerAt (r x y : Nat) : Nat := r / 256 * 256 + 16 * (4 * (y / 4) + x / 4) + 4 * (y % 4) + x % 4

/-- The neighbour in a direction (0 north, 1 east, 2 south, 3 west), inside the granule (R198). -/
def neighbour (r dir : Nat) : Option Nat :=
  let x := gridX r
  let y := gridY r
  match dir with
  | 0 => if y % 8 = 0 then none else some (routerAt r x (y - 1))
  | 1 => if x % 8 = 7 then none else some (routerAt r (x + 1) y)
  | 2 => if y % 8 = 7 then none else some (routerAt r x (y + 1))
  | 3 => if x % 8 = 0 then none else some (routerAt r (x - 1) y)
  | _ => none

/-- The memory node and address generator that router [k,0] reaches (R203). -/
def elementOf (r : Nat) : Nat := 4 * (r / 16) + r % 4

/-- Tokens that wait at an island port before it accepts them: the number is not given (log entry 34). -/
def islandDepth : Nat := 2

/-! ## Inputs of routes -/

/-- The oldest published token of an output handle (spec/03 R97). -/
def State.publishedHead (s : State) (pe h : Nat) : Option Token :=
  let x := s.handle pe h
  if x.cnt = 0 then none else some (s.slotOf pe (x.base + (x.ptr + (x.cntm1 + 1) - x.cnt) % (x.cntm1 + 1)))

/-- Takes the oldest published token. -/
def State.takePublished (s : State) (pe h : Nat) : State :=
  let x := s.handle pe h
  (s.setSlotOf pe (x.base + (x.ptr + (x.cntm1 + 1) - x.cnt) % (x.cntm1 + 1)) {}).setHandle pe h { x with cnt := x.cnt - 1 }

/-- The head token of an island port that sends to the router (R202). -/
def State.islandHead (s : State) (p : IslandPort) : Option Token :=
  if p.comet then (s.cometPort p.island p.port).outq.head? else (s.kport p.island p.port).head?

def State.popIsland (s : State) (p : IslandPort) : State :=
  if p.comet then
    let c := s.cometPort p.island p.port
    s.setCometPort p.island p.port { c with outq := c.outq.tail }
  else s.setKport p.island p.port (s.kport p.island p.port).tail

/-- The Glaze island in use at router [3,3] of a core, virtual channel 3 (spec/09 R254). -/
def State.glazeAt (s : State) (r vc : Nat) : Bool := decide (r % 16 = 15) && decide (vc = 3) && (s.glaze (coreOfRouter r)).inUse

/-- The token ready at the input of a route (R37). -/
def State.inputHead (s : State) (r : Nat) (t : Route) : Option Token :=
  if t.inp < 4 then (s.link r t.inp t.invc).head?
  else match t.inp with
    | 4 =>
      if (s.islandAt r t.invc).attached then s.islandHead (s.islandAt r t.invc)
      else if s.glazeAt r t.invc then (s.glaze (coreOfRouter r)).out else s.publishedHead r t.inh
    | 5 => (s.opSlot r 0).outs.find t.inh none
    | 6 => (s.opSlot r 1).outs.find t.inh none
    | _ => if t.inh < 3 then (s.node (elementOf r)).outs.find t.inh none else (s.agen (elementOf r)).out

/-- Removes the token at the input of a route. -/
def State.popInput (s : State) (r : Nat) (t : Route) : State :=
  if t.inp < 4 then s.setLink r t.inp t.invc (s.link r t.inp t.invc).tail
  else match t.inp with
    | 4 =>
      if (s.islandAt r t.invc).attached then s.popIsland (s.islandAt r t.invc)
      else if s.glazeAt r t.invc then s.setGlaze (coreOfRouter r) { (s.glaze (coreOfRouter r)).flow s.now with out := none }
      else s.takePublished r t.inh
    | 5 => let o := s.opSlot r 0; s.setOpSlot r 0 { o with outs := o.outs.put t.inh none none }
    | 6 => let o := s.opSlot r 1; s.setOpSlot r 1 { o with outs := o.outs.put t.inh none none }
    | _ =>
      if t.inh < 3 then let n := s.node (elementOf r); s.setNode (elementOf r) { n with outs := n.outs.put t.inh none none }
      else let g := s.agen (elementOf r); s.setAgen (elementOf r) { g with out := none }

/-! ## Outputs of routes -/

/-- The receiving buffer has room (R199). -/
def State.outputRoom (s : State) (r : Nat) (t : Route) : Bool :=
  if t.outp < 4 then
    match neighbour r t.outp with
    | some n => decide ((s.link n ((t.outp + 2) % 4) t.outvc).length < 4)
    | none => false
  else match t.outp with
    | 4 =>
      let p := s.islandAt r t.outvc
      if p.attached then decide ((s.cometPort p.island p.port).inq.length < islandDepth)
      else if s.glazeAt r t.outvc then decide ((s.glaze (coreOfRouter r)).inq.length < 2)
      else let h := s.handle r t.outh; decide (h.cnt < h.cntm1 + 1)
    | 5 => decide (((s.opSlot r 0).ins.find t.outh []).length < 2)
    | 6 => decide (((s.opSlot r 1).ins.find t.outh []).length < 2)
    | _ =>
      if t.outh < 5 then decide (((s.node (elementOf r)).ins.find t.outh []).length < 2)
      else decide ((s.agen (elementOf r)).trigq.length < 2)

/-- A token of another domain becomes a PROTECTION poison as it enters a PE's input buffer (spec/03 R98). -/
def State.enterPe (s : State) (pe h : Nat) (tok : Token) : Token :=
  let core := coreOfPe pe
  if !tok.foreign (s.domOf core) then tok else
    let k := (firstBelow 8 fun t => (s.task pe t).valid && ((s.task pe t).portOf h).isSome).getD 0
    { payload := s.record Cause.protection (s.coreOrigin 8 core (pe % 16) k) (tok.dom + 2 ^ 10 * h)
      poison := true, dom := s.domOf core }

/-- The record of an operator: `DETAIL` holds its code, slot and `more` (R212). -/
def State.opRecord (s : State) (r k cause more : Nat) : Word :=
  s.record cause (s.coreOrigin 1 (coreOfRouter r) (r % 16)) ((s.opSlot r k).opc + 16 * k + more)

/-- A token of another domain becomes a PROTECTION poison as it enters an operator input (R208). -/
def State.enterOp (s : State) (r k n : Nat) (tok : Token) : Token :=
  let core := coreOfRouter r
  if !tok.foreign (s.domOf core) then tok else
    { payload := s.opRecord r k Cause.protection (2 ^ 5 * n + 2 ^ 8 * tok.dom), poison := true, dom := s.domOf core }

/-- A token of another domain becomes a PROTECTION poison as it enters a Glaze island (spec/09 R258). -/
def State.enterGlaze (s : State) (core : Nat) (tok : Token) : Token :=
  if !tok.foreign (s.domOf core) then tok else
    { payload := s.record Cause.protection (s.coreOrigin 4 core 0) tok.dom, poison := true, dom := s.domOf core }

/-- Writes an arriving token at slot (`RP` + `TC`) mod N (spec/03 R97). -/
def State.deliverPe (s : State) (pe h : Nat) (tok : Token) : State :=
  let x := s.handle pe h
  (s.setSlotOf pe (x.slotAt x.cnt) (s.enterPe pe h tok)).setHandle pe h { x with cnt := x.cnt + 1 }

/-- Writes a token into the output of a route (R200 to R203). -/
def State.pushOutput (s : State) (r : Nat) (t : Route) (tok : Token) : State :=
  if t.outp < 4 then
    match neighbour r t.outp with
    | some n => s.setLink n ((t.outp + 2) % 4) t.outvc (s.link n ((t.outp + 2) % 4) t.outvc ++ [tok])
    | none => s
  else match t.outp with
    | 4 =>
      let p := s.islandAt r t.outvc
      if p.attached then
        let c := s.cometPort p.island p.port
        s.setCometPort p.island p.port { c with inq := c.inq ++ [tok] }
      else if s.glazeAt r t.outvc then
        let g := s.glaze (coreOfRouter r)
        s.setGlaze (coreOfRouter r) { g with inq := g.inq ++ [s.enterGlaze (coreOfRouter r) tok] }
      else s.deliverPe r t.outh tok
    | 5 => let o := s.opSlot r 0; s.setOpSlot r 0 { o with ins := o.ins.put t.outh (o.ins.find t.outh [] ++ [s.enterOp r 0 t.outh tok]) [] }
    | 6 => let o := s.opSlot r 1; s.setOpSlot r 1 { o with ins := o.ins.put t.outh (o.ins.find t.outh [] ++ [s.enterOp r 1 t.outh tok]) [] }
    | _ =>
      if t.outh < 5 then
        let n := s.node (elementOf r)
        s.setNode (elementOf r) { n with ins := n.ins.put t.outh (n.ins.find t.outh [] ++ [tok]) [] }
      else let g := s.agen (elementOf r); s.setAgen (elementOf r) { g with trigq := g.trigq ++ [tok] }

/-! ## Moving one token -/

/-- A route has a token ready and room downstream. -/
def State.routeReady (s : State) (r e : Nat) : Bool :=
  let t := s.route r e
  t.valid && (s.inputHead r t).isSome && s.outputRoom r t

/-- Copies one token along a route (R201). -/
def State.moveRoute (s : State) (r e : Nat) : State :=
  let t := s.route r e
  match s.inputHead r t with
  | some tok => ((s.popInput r t).pushOutput r t tok).touch (coreOfRouter r)
  | none => s

/-- The first number after `last`, modulo n, with `p`: round-robin (R200). -/
def roundRobin (n last : Nat) (p : Nat → Bool) : Option Nat := (firstBelow n fun k => p ((last + 1 + k) % n)).map fun k => (last + 1 + k) % n

/-! ## The choices of the ports (R200, R203)

The local port and the element port each choose among the routes that enter by them and, apart from that, among those that leave by them. A
link output, and an operator input, chooses among the routes that their entry's choice has picked; a route moves when every choice that it
faces picks it. While a port's two choices pick different routes that face both, neither moves and no turn passes: until another route changes a choice
they stand still (log entry 28). -/

/-- The route that the local port (4) or the element port (7) takes in, in ascending entry order after the one served last. -/
def State.takeChoice (s : State) (r port : Nat) : Option Nat :=
  roundRobin 64 (if port = 4 then s.localOutLast r else s.elemOutLast r) fun e => decide ((s.route r e).inp = port) && s.routeReady r e

/-- The choice that a route's entry faces, if any, picks it. -/
def State.won (s : State) (r e : Nat) : Bool :=
  let p := (s.route r e).inp
  if p = 4 ∨ p = 7 then decide (s.takeChoice r p = some e) else true

/-- The ready route to a link on a virtual channel, or to an input of an operator slot. -/
def State.routeAt (s : State) (r out n : Nat) : Option Nat :=
  firstBelow 64 fun e =>
    let t := s.route r e
    decide (t.outp = out) && decide ((if out < 4 then t.outvc else t.outh) = n) && s.routeReady r e && s.won r e

/-- The route that an output picks: a link round-robin over its virtual channels after the one served last; the local port and the
element port in ascending entry order after the route served last; an operator input, `n`, its one route. -/
def State.giveChoice (s : State) (r out n : Nat) : Option Nat :=
  if out < 4 then (roundRobin 4 (s.linkLast r out) fun vc => (s.routeAt r out vc).isSome).bind (s.routeAt r out)
  else if out = 4 ∨ out = 7 then
    roundRobin 64 (if out = 4 then s.localInLast r else s.elemInLast r) fun e => decide ((s.route r e).outp = out) && s.routeReady r e
  else s.routeAt r out n

/-- A route moves its token, and every choice that it faced has served it. -/
def State.serveRoute (s : State) (r e : Nat) : State :=
  let t := s.route r e
  let s := s.moveRoute r e
  let s := if t.inp = 4 then s.setLocalOutLast r e else if t.inp = 7 then s.setElemOutLast r e else s
  if t.outp < 4 then s.setLinkLast r t.outp t.outvc
  else if t.outp = 4 then s.setLocalInLast r e else if t.outp = 7 then s.setElemInLast r e else s

/-- An output serves the route that it picks, if that route's entry picks it too. -/
def State.give (s : State) (r out n : Nat) : State :=
  match s.giveChoice r out n with
  | some e => if s.won r e then s.serveRoute r e else s
  | none => s

/-- A port takes in the token of the route that it picks, if that route's output picks it too. -/
def State.takeIn (s : State) (r port : Nat) : State :=
  match s.takeChoice r port with
  | some e => if s.giveChoice r (s.route r e).outp (s.route r e).outh = some e then s.serveRoute r e else s
  | none => s

def execLocalPortDeliver (router : Nat) (s : State) : Out := .next (s.give router 4 0)

def execLocalPortTake (router : Nat) (s : State) : Out := .next (s.takeIn router 4)

/-- `ELEMENT_PORT_TRANSFER`: `dir` 0 out of the element, 1 into it (R203). -/
def execElementPortTransfer (router : Nat) (dir : Nat) (s : State) : Out :=
  .next (if dir = 1 then s.give router 7 0 else s.takeIn router 7)

/-- `ROUTE_HOP`: a link output takes the next virtual channel in turn (R200); an operator input is named by `port`. -/
def execRouteHop (router : Nat) (out : Nat) (port : Nat) (s : State) : Out := .next (s.give router out port)

end Sys2Proof.Machine
end

