-- ==== Sys2Proof/Machine/Nodes.lean ====
section
/-! DEFINITION. Memory nodes: acceptance, order of performing, results, markers; atomics and heaps; the memory, fence,
channel and cursor instructions (spec/08 R228 to R249). -/
namespace Sys2Proof.Machine

/-! ## Forming and checking a request (R226, R229, R242) -/

inductive ReqKind where
  | ld | st | ldv | stv | atom | cas | hins | copy | fill
deriving DecidableEq, Repr

/-- A request before its address is formed. -/
structure Request where
  kind : ReqKind
  tid : Nat
  /-- Coordinates C3, C2, C1, C0. -/
  coords : Nat
  data : Word := 0
  data2 : BitVec 64 := 0
  /-- The format an instruction names; a graph atomic takes the tensor's. -/
  fmt : Option Nat := none
  aop : Nat := 0
  len : Nat := 0
  tidd : Nat := 0
  coords2 : Nat := 0
  /-- The data token was poison (R233). -/
  pattern : Bool := false
  /-- A reserved field of its token is set, or `AOP` or `WORD` is illegal. -/
  badToken : Bool := false
  /-- Its token belongs to another domain (spec/09 R267). -/
  foreign : Bool := false

def word64Fmts : List Nat := [2, 6, 3, 7]

/-- The formats an atomic operation takes (R234). -/
def aopFmts (aop : Nat) : List Nat :=
  if aop < 6 then word64Fmts else if aop = 6 then [10, 11] else if aop = 7 then word64Fmts ++ [10, 11] else []

/-- The first reason of R242 for which a request fails, in the order of its table (log entry 30). -/
def State.reqReason (s : State) (core : Nat) (q : Request) : Option Nat :=
  match s.poolTensor core q.tid with
  | none => some 1
  | some t =>
    if q.foreign then some 1 else
    match if q.kind = .hins then some 0 else t.shape.offset q.coords with
    | none => some 2
    | some a =>
      let inSpan (t : PoolTensor) (a n : Nat) : Bool := decide (a + n ≤ t.shape.span)
      let copyFail : Option Nat :=
        if q.kind ≠ .copy then none else
          match s.poolTensor core q.tidd with
          | none => some 1
          | some d => match d.shape.offset q.coords2 with
            | none => some 2
            | some b => if inSpan d b q.len then none else some 3
      if copyFail = some 1 then some 1 else if copyFail = some 2 then some 2
      else if (q.kind = .ldv || q.kind = .stv) && !(decide ((t.addr + a) % 32 = 0) && inSpan t a 32) then some 3
      else if (q.kind = .copy || q.kind = .fill) && !inSpan t a q.len then some 3
      else if copyFail = some 3 then some 3
      else if q.kind = .atom && !(aopFmts q.aop).contains t.fmt && decide (q.aop < 8) then some 4
      else if (q.kind = .atom || q.kind = .cas) && (decide (q.fmt.getD t.fmt ≠ t.fmt) || !(elemBytes t.fmt = 4 || elemBytes t.fmt = 8)) then some 4
      else if q.badToken then some 5
      else if (q.kind = .ld || q.kind = .st) && t.fmt = 14 then some 6
      else if q.kind = .hins && !(decide (t.fmt = 7) && t.rankm1 = 0) then some 7
      else none

/-- The request with its address formed. -/
def State.formReq (s : State) (core : Nat) (q : Request) : ReqOp :=
  match s.poolTensor core q.tid with
  | none => .settled
  | some t =>
    let a := s.tensorBase core t + (t.shape.offset q.coords).getD 0
    let e := elemBytes t.fmt
    match q.kind with
    | .ld => .load a e
    | .st => .store a e q.data q.pattern
    | .ldv => .load a 32
    | .stv => .store a 32 q.data q.pattern
    | .atom => .atomic a t.fmt q.aop (q.data.setWidth 64) q.pattern
    | .cas => .cas a t.fmt (q.data.setWidth 64) q.data2
    | .hins => .hins (s.tensorBase core t) t.shape (q.fmt.getD 7) (q.data.setWidth 64)
    | .copy =>
      match s.poolTensor core q.tidd with
      | none => .settled
      | some d => .copy a (s.tensorBase core d + (d.shape.offset q.coords2).getD 0) q.len
    | .fill => .fill a q.len q.data

/-- The record of a node (R242). -/
def State.nodeRecord (s : State) (node cause detail : Nat) : Word := s.record cause (s.coreOrigin 2 (node / 4) (node % 4)) detail

def State.rejectRecord (s : State) (node reason tid : Nat) : Word :=
  s.nodeRecord node Cause.protection (reason + 16 * (tid % 4096))

/-! ## The bank ALU (R234, R238) -/

/-- The new value of an element. -/
def aluNew (fmt aop old v : Nat) : Nat :=
  let w := fmtWidth fmt
  let pick (big : Bool) : Nat :=
    let x := if fmtSigned fmt then signedOf w old else (old : Int)
    let y := if fmtSigned fmt then signedOf w v else (v : Int)
    if (decide (x < y)) = big then v else old
  match aop with
  | 0 => (old + v) % 2 ^ w
  | 1 => old &&& v
  | 2 => old ||| v
  | 3 => old ^^^ v
  | 4 => pick false
  | 5 => pick true
  | 6 => let f := ffmt fmt; f.round 0 false false (.add 0 (f.decode false old) (f.decode false v))
  | _ => v

/-! ## Heaps (R240) -/

/-- Key order of a heap entry: the entry e is better than the entry f. -/
def better (fmt : Nat) (e f : Nat) : Bool :=
  let ke := e / 2 ^ 32
  let kf := f / 2 ^ 32
  let nan (k : Nat) : Bool := decide (fmt = 10) && (f32.decode false k).isNan
  let c : Int :=
    if fmt = 10 then FVal.cmp (f32.decode false ke) (f32.decode false kf)
    else if fmt = 2 then signedOf 32 ke - signedOf 32 kf else (ke : Int) - kf
  !(nan ke || nan kf) && (decide (0 < c) || (decide (c = 0) && decide (e % 2 ^ 32 < f % 2 ^ 32)))

/-- What a heap insertion does next, from the slots that it has read: read one more, or end with a value and slots to write, or reject the header. -/
inductive HeapStep where
  | read (slot : Nat)
  | ends (value : Nat) (slots : List (Nat × Nat))
  | rejected

/-- A worse entry rises toward the root. -/
def heapRise (got : Nat → Option Nat) (fmt e : Nat) : Nat → Nat → List (Nat × Nat) → HeapStep
  | _, 0, ws => .ends 1 ws
  | i, n + 1, ws =>
    if i ≤ 1 then .ends 1 ((i, e) :: ws) else
      match got (i / 2) with
      | none => .read (i / 2)
      | some p => if better fmt p e then heapRise got fmt e (i / 2) n ((i, p) :: ws) else .ends 1 ((i, e) :: ws)

/-- An entry sinks from the root. -/
def heapSink (got : Nat → Option Nat) (fmt e count : Nat) : Nat → Nat → List (Nat × Nat) → HeapStep
  | _, 0, ws => .ends 1 ws
  | i, n + 1, ws =>
    if count < 2 * i then .ends 1 ((i, e) :: ws) else
      match got (2 * i), if count < 2 * i + 1 then some 0 else got (2 * i + 1) with
      | none, _ => .read (2 * i)
      | some _, none => .read (2 * i + 1)
      | some l, some r =>
        let right := decide (2 * i + 1 ≤ count) && better fmt l r
        let v := if right then r else l
        if better fmt e v then heapSink got fmt e count (if right then 2 * i + 1 else 2 * i) n ((i, v) :: ws) else .ends 1 ((i, e) :: ws)

/-- The step of R240 that follows, `slots` being those of the tensor. -/
def heapStep (slots fmt e : Nat) (got : Nat → Option Nat) : HeapStep :=
  match got 0 with
  | none => .read 0
  | some h =>
    let count := h % 2 ^ 32
    let cap := h / 2 ^ 32
    if !(decide (1 ≤ cap) && decide (cap + 1 ≤ slots) && decide (count ≤ cap)) then .rejected
    else if fmt = 10 && (f32.decode false (e / 2 ^ 32)).isNan then .ends 0 []
    else if count < cap then heapRise got fmt e (count + 1) 17 [(0, cap * 2 ^ 32 + count + 1)]
    else match got 1 with
      | none => .read 1
      | some r => if better fmt e r then heapSink got fmt e count 1 17 [] else .ends 0 []

/-- The slots read so far, as a function. -/
def slotsOf (got : List (Nat × Nat)) (k : Nat) : Option Nat := (got.find? fun p => p.1 = k).map Prod.snd

/-! ## Performing at the banks (R230, R237 to R240, R252) -/

/-- What a request leaves: it goes on, or its value, or the record of its failure. -/
inductive Performed where
  | more (op : ReqOp)
  | value (v : Word)
  | failed (r : Word)

/-- A request that meets a failing word. -/
def State.ueRecord (s : State) (node tid w : Nat) : Word := s.nodeRecord node Cause.poolUe (s.poolUeDetail (node / 4) tid w)

/-- An element whose new value is `f` of the old one: one access of its bank (R234). -/
def State.readModify (s : State) (node tid a n : Nat) (f : Nat → Option Nat) : Performed × State :=
  let core := node / 4
  match s.poolRead core a n with
  | (.inr w, s') => (.failed (s.ueRecord node tid w), s')
  | (.inl bs, s') =>
    let old := natOfBytes bs
    (.value (BitVec.ofNat 256 old), match f old with | some v => s'.poolStore core a (bytesOfNat n v) | none => s')

/-- The pool byte of element k of a heap of rank 1 (R226). -/
def heapAddr (a : Nat) (t : Shape) (k : Nat) : Nat := a + t.byteOf (t.index k 0 0 0)

/-- The next access of a `HINS` that reads its heap: one slot. All are read before any is written, so one that fails changes nothing (R240, R242). -/
def State.heapReadSome (s : State) (node tid a : Nat) (t : Shape) (fmt e : Nat) (got : List (Nat × Nat)) : Performed × State :=
  match heapStep t.ext0 fmt e (slotsOf got) with
  | .rejected => (.failed (s.rejectRecord node 7 tid), s)
  | .ends v [] => (.value (BitVec.ofNat 256 v), s)
  | .ends _ ws => (.more (.heapWrite a t ws), s)
  | .read k =>
    match s.poolRead (node / 4) (heapAddr a t k) 8 with
    | (.inr w, s') => (.failed (s.ueRecord node tid w), s')
    | (.inl bs, s') =>
      let got := (k, natOfBytes bs) :: got
      (match heapStep t.ext0 fmt e (slotsOf got) with
        | .rejected => .failed (s'.rejectRecord node 7 tid)
        | .ends v [] => .value (BitVec.ofNat 256 v)
        | .ends _ ws => .more (.heapWrite a t ws)
        | .read _ => .more (.heapRead a t fmt (BitVec.ofNat 64 e) got), s')

/-- The next access of a `HINS` that writes its heap: one slot. -/
def State.heapWriteSome (s : State) (node a : Nat) (t : Shape) (ws : List (Nat × Nat)) : Performed × State :=
  match ws with
  | [] => (.value 1, s)
  | (k, v) :: ws =>
    let s := s.poolStore (node / 4) (heapAddr a t k) (bytesOfNat 8 v)
    (if ws.isEmpty then .value 1 else .more (.heapWrite a t ws), s)

/-- The next access of a `COPY` that reads its source: the bytes of one 32-byte pool word (R224). All are read before any is written, so that
overlapping ranges move as a memmove does (R239). -/
def State.readSome (s : State) (node tid src dst len : Nat) (got : List Byte) : Performed × State :=
  if len = 0 then (.value 0, s) else
  let a := src + got.length
  match s.poolRead (node / 4) a (Nat.min (32 - a % 32) (len - got.length)) with
  | (.inr w, s') => (.failed (s.ueRecord node tid w), s')
  | (.inl bs, s') => (.more (if len ≤ got.length + bs.length then .writing src dst len (got ++ bs) else .reading src dst len (got ++ bs)), s')

/-- The next access of a `COPY` or `FILL` that writes: the bytes that fall in one 32-byte pool word (R224). At the first, a part of a failing
word stops it before any byte is written (R252). -/
def State.writeSome (s : State) (node tid src dst len : Nat) (bs : List Byte) : Performed × State :=
  if len = 0 then (.value 0, s) else
  let core := node / 4
  let a := dst + (len - bs.length)
  let n := 32 - a % 32
  match if bs.length = len then s.failingWord core dst len (fun w => !coversWord dst len w) else none with
  | some w => (.failed (s.ueRecord node tid w), s.meetFailing core dst len fun w => !coversWord dst len w)
  | none =>
    match s.poolWrite core a (bs.take n) with
    | (some w, s') => (.failed (s.ueRecord node tid w), s')
    | (none, s') => (if bs.length ≤ n then .value 0 else .more (.writing src dst len (bs.drop n)), s')

/-- A request performs at its banks. Poison on `av` for an element in a failing word performs nothing, as an atomic on one (R252), and writes no pattern
(R233; log entry 30). -/
def State.performOp (s : State) (node tid : Nat) (op : ReqOp) : Performed × State :=
  let core := node / 4
  match op with
  | .load a n =>
    match s.poolRead core a n with
    | (.inr w, s') => (.failed (s.ueRecord node tid w), s')
    | (.inl bs, s') => (.value (BitVec.ofNat 256 (natOfBytes bs)), s')
  | .store a n v pattern =>
    if pattern then (.value 0, s.poolPattern core a n) else
      match s.poolWrite core a (bytesOfNat n v.toNat) with
      | (some w, s') => (.failed (s.ueRecord node tid w), s')
      | (none, s') => (.value 0, s')
  | .atomic a fmt aop v pattern =>
    let n := elemBytes fmt
    if pattern then
      match s.poolRead core a n with
      | (.inr w, s') => (.failed (s.ueRecord node tid w), s')
      | (.inl bs, s') => (.value (BitVec.ofNat 256 (natOfBytes bs)), s'.poolPattern core a n)
    else s.readModify node tid a n fun old => some (aluNew fmt aop old (v.toNat % 2 ^ (8 * n)))
  | .cas a fmt cmp swap =>
    let n := elemBytes fmt
    s.readModify node tid a n fun old => if old = cmp.toNat % 2 ^ (8 * n) then some (swap.toNat % 2 ^ (8 * n)) else none
  | .hins a t fmt e => s.heapReadSome node tid a t fmt e.toNat []
  | .heapRead a t fmt e got => s.heapReadSome node tid a t fmt e.toNat got
  | .heapWrite a t ws => s.heapWriteSome node a t ws
  | .copy src dst n => s.readSome node tid src dst n []
  | .fill dst n v => s.writeSome node tid dst dst n ((List.range n).map fun j => BitVec.ofNat 8 (laneOf 8 (j % 32) v))
  | .reading src dst n got => s.readSome node tid src dst n got
  | .writing src dst n bs => s.writeSome node tid src dst n bs
  | .settled => (.value 0, s)

/-! ## Order (R230, R231) -/

def ReqOp.isLoad (op : ReqOp) : Bool := match op with | .load _ _ => true | _ => false

/-- Byte ranges of a request, as address and length. -/
def ReqOp.ranges (op : ReqOp) : List (Nat × Nat) :=
  match op with
  | .load a n | .store a n _ _ => [(a, n)]
  | .atomic a f _ _ _ | .cas a f _ _ => [(a, elemBytes f)]
  | .hins a t _ _ | .heapRead a t _ _ _ | .heapWrite a t _ => [(a, t.span)]
  | .copy a b n | .reading a b n _ | .writing a b n _ => [(a, n), (b, n)]
  | .fill a n _ => [(a, n)]
  | .settled => []

def rangesOverlap (xs ys : List (Nat × Nat)) : Bool :=
  xs.any fun x => ys.any fun y => decide (x.1 < y.1 + y.2) && decide (y.1 < x.1 + x.2)

/-- The request at a place of the queue may perform now. -/
def Node.mayPerform (d : Node) (k : Nat) : Bool :=
  match d.queue[k]? with
  | none => false
  | some q =>
    let before := (d.queue.take k).filter fun b => b.done.isNone
    q.done.isNone &&
    match d.mode with
    | .ordered => before.isEmpty
    | .random => before.all fun b => !rangesOverlap b.op.ranges q.op.ranges
    | .stream => before.all fun b => b.op.isLoad

/-! ## The memory port of a bank (R223, R224) -/

/-- The 32-byte pool word of a request's next access: none if it needs none. -/
def ReqOp.nextWord (op : ReqOp) : Option Nat :=
  match op with
  | .load a _ | .store a _ _ _ | .atomic a _ _ _ _ | .cas a _ _ _ => some (a / 32)
  | .hins a t _ _ => some (heapAddr a t 0 / 32)
  | .heapRead a t f e got => match heapStep t.ext0 f e.toNat (slotsOf got) with | .read k => some (heapAddr a t k / 32) | _ => none
  | .heapWrite a t ws => ws.head?.map fun w => heapAddr a t w.1 / 32
  | .copy a _ n => if n = 0 then none else some (a / 32)
  | .fill a n _ => if n = 0 then none else some (a / 32)
  | .reading a _ _ got => some ((a + got.length) / 32)
  | .writing _ b n bs => some ((b + (n - bs.length)) / 32)
  | .settled => none

/-- A node waits at a bank: a request of it that may perform has its next access there. -/
def Node.waitsAt (d : Node) (bank : Nat) : Bool :=
  (firstBelow d.queue.length fun k => d.mayPerform k && ((d.queue[k]?).bind fun q => q.op.nextWord).elim false fun w => decide (w % 32 = bank)).isSome

/-- Requesters of a bank's memory port: nodes 0 to 3, Kiln drains and fills, Comets, the die dispatcher (R224; log entry 107). -/
def kilnRequester : Nat := 4
def cometRequester : Nat := 5
def dispatcherRequester : Nat := 6

/-- The port of a word's bank serves this node next: no other node that waits there stands between the requester served last and it. -/
def State.bankTurn (s : State) (node w : Nat) : Bool :=
  let core := node / 4
  let bank := w % 32
  let last := s.bankLast core bank
  let place (k : Nat) : Nat := (k + 7 - last) % 8
  (firstBelow 4 fun k => decide (k ≠ node % 4) && decide (place k < place (node % 4)) && (s.node (4 * core + k)).waitsAt bank).isNone

/-- The port that a request's result leaves by. -/
def ReqSrc.outPort (r : ReqSrc) : Option Nat := match r with | .ld => some 0 | .st => some 1 | .at => some 2 | .pe _ _ => none

/-- The token of a request that has performed (R229, R233, R242). -/
def State.resultToken (s : State) (node : Nat) (q : NodeReq) (v : Word) : Token :=
  let dom := s.domOf (node / 4)
  match q.src with
  | .ld => { payload := v, dom }
  | .st => { payload := q.req.payload, dom }
  | _ => { payload := BitVec.ofNat 256 (v.toNat % 2 ^ 64), dom }

/-- Removes an entry. -/
def dropAt {α : Type} (k : Nat) (xs : List α) : List α := xs.take k ++ xs.drop (k + 1)

/-- A result comes back to a waiting task (R236). -/
def State.wakeTask (s : State) (pe slot : Nat) (v : Word) (fail : Option Word) : State :=
  let t := s.task pe slot
  if t.wait = .memSent then s.setTask pe slot { t with wait := .memDone v fail } else s

/-- The request at place k of a node's queue has performed: its token waits for its port, or its task has its result, and a
failure is reported (R233, R242): that of a blocking instruction taints its task and is not posted, an atomic on a failing word too (R252; log entry
30). -/
def State.completeReq (s : State) (node k : Nat) (q : NodeReq) (v : Word) (fail : Option Word) : State :=
  let core := node / 4
  let s := s.touch core
  match q.src with
  | .pe pe slot =>
    let d := s.node node
    let s := s.setNode node { d with queue := dropAt k d.queue }
    if q.blocking then s.wakeTask pe slot v fail
    else match fail with | some r => s.corePost core r | none => s
  | _ =>
    let tok : Token := match fail with
      | none => s.resultToken node q v
      | some r => if q.src = ReqSrc.ld then { payload := r, poison := true, dom := s.domOf core }
        else { q.req with poison := false, mark := false, dom := s.domOf core }
    let s := match fail with | some r => if q.src = ReqSrc.ld then s else s.corePost core r | none => s
    let d := s.node node
    s.setNode node { d with queue := d.queue.take k ++ { q with done := some tok } :: d.queue.drop (k + 1) }

/-- The next access of the request at a place of a node's queue. -/
def State.nodeAccess (s : State) (node index : Nat) (q : NodeReq) : State :=
  match (q.op.nextWord.elim s fun w => s.setBankLast (node / 4) (w % 32) (node % 4)).performOp node q.tid q.op with
  | (.more op, s) =>
    let d := s.node node
    (s.setNode node { d with queue := d.queue.take index ++ { q with op } :: d.queue.drop (index + 1) }).touch (node / 4)
  | (.value v, s) => s.completeReq node index q v none
  | (.failed r, s) => s.completeReq node index q 0 (some r)

/-- `MEMNODE_PERFORM`: the next access of the request at this place of the queue, in the turn of its bank (R224). -/
def execMemnodePerform (node : Nat) (index : Nat) (s : State) : Out :=
  let d := s.node node
  match d.queue[index]? with
  | none => .next s
  | some q => if !d.mayPerform index || q.op.nextWord.elim false (fun w => !s.bankTurn node w) then .next s else .next (s.nodeAccess node index q)

/-- The node that waits at a bank and comes before a requester in the bank's turn, if one does. -/
def State.nodeBefore (s : State) (core requester bank : Nat) : Option Nat :=
  let last := s.bankLast core bank
  let place (k : Nat) : Nat := (k + 7 - last) % 8
  (firstBelow (place requester) fun j => let k := (last + 1 + j) % 8; decide (k < 4) && (s.node (4 * core + k)).waitsAt bank).map fun j => (last + 1 + j) % 8

/-- The nodes that come before a requester at a bank have their accesses. -/
def State.nodesFirst (s : State) (core requester bank : Nat) : Nat → State
  | 0 => s
  | fuel + 1 =>
    match s.nodeBefore core requester bank with
    | none => s
    | some k =>
      let d := s.node (4 * core + k)
      match (List.range d.queue.length).find? fun j => d.mayPerform j && ((d.queue[j]?).bind fun q => q.op.nextWord).elim false fun w => decide (w % 32 = bank) with
      | none => s
      | some j => (s.nodeAccess (4 * core + k) j ((d.queue[j]?).getD { src := .ld, op := .settled })).nodesFirst core requester bank fuel

/-- A requester that is no node has an access of every pool word that n bytes touch, each in the turn of its bank (R224). -/
def State.bankServed (s : State) (core requester a n : Nat) : State :=
  foldUp (if n = 0 then 0 else (a + n - 1) / 32 + 1 - a / 32) s fun s k =>
    let bank := (a / 32 + k) % 32
    (s.nodesFirst core requester bank 4).setBankLast core bank requester

/-! ## Acceptance (R228, R231) -/

/-- The node takes another request. -/
def Node.room (d : Node) : Bool := d.valid && decide (d.queue.length < d.maxOut)

/-- The source of a start token. -/
def ReqSrc.startKey (r : ReqSrc) : Nat := match r with | .pe p _ => 1 + p | _ => 0

/-- A byte that a STREAM load may return: the present one or one that a write has replaced since the start token (R231). -/
def State.streamByte (s : State) (core a : Nat) (since : List Host.Cell) : Byte × State :=
  let now := s.poolByte core a
  let old := (since.filter fun c => c.1 = a).map Prod.snd
  if old.isEmpty then (now, s) else ((now :: old).getD (Config.pick s.free % (old.length + 1)) now, { s with free := s.free + 1 })

def State.streamBytes (s : State) (core : Nat) (since : List Host.Cell) : Nat → Nat → List Byte × State
  | _, 0 => ([], s)
  | a, n + 1 =>
    let (b, s) := s.streamByte core a since
    let (bs, s) := s.streamBytes core since (a + 1) n
    (b :: bs, s)

/-- A STREAM node notes the start token of a source: the first load request that it accepts, whatever becomes of that (R231). -/
def Node.begin (d : Node) (src : ReqSrc) (load : Bool) : Node :=
  if d.mode = .stream && load && !(d.starts.any fun p => p.1 = src.startKey) then { d with starts := (src.startKey, d.hist.length) :: d.starts } else d

/-- A STREAM load takes its value at acceptance. It fails if one of its words fails then, whatever the word held before; the values that a byte has held
since the start token count also where its word had failed (log entry 31). -/
def State.streamLoad (s : State) (node : Nat) (q : NodeReq) (a n : Nat) : Performed × State :=
  let core := node / 4
  let d := s.node node
  let from_ := ((d.starts.find? fun p => p.1 = q.src.startKey).map Prod.snd).getD 0
  match s.poolRead core a n with
  | (.inr w, s') => (.failed (s.ueRecord node q.tid w), s')
  | (.inl _, s') =>
    let (bs, s'') := s'.streamBytes core (d.hist.take (d.hist.length - from_)) a n
    (.value (BitVec.ofNat 256 (natOfBytes bs)), s'')

/-- Accepts a request: it is queued, or rejected at once under R242. The record of a `COPY` names the tensor of its source, whichever side fails (log
entry 30). -/
def State.acceptReq (s : State) (node : Nat) (q : NodeReq) (r : Request) : State :=
  let core := node / 4
  let s := s.touch core
  let d := (s.node node).begin q.src (r.kind = .ld || r.kind = .ldv)
  let k := d.queue.length
  let q := { q with tid := r.tid % 4096 }
  match s.reqReason core r with
  | some n => (s.setNode node { d with queue := d.queue ++ [q] }).completeReq node k q 0 (some (s.rejectRecord node n r.tid))
  | none =>
    let q := { q with op := s.formReq core r }
    let s := s.setNode node { d with queue := d.queue ++ [q] }
    match d.mode, q.op with
    | .stream, .load a n =>
      match s.streamLoad node q a n with
      | (.value v, s) => s.completeReq node k q v none
      | (.failed f, s) => s.completeReq node k q 0 (some f)
      | (.more _, s) => s
    | _, _ => s

/-- A request token (R229). -/
def tokenRequest (tok data : Token) (atomic load : Bool) (dom : Nat) : Request :=
  let p := tok.payload
  let word := bitAt 76 p
  let aop := bitsOf 80 4 p
  { kind := if atomic then .atom else if load then (if word then .ldv else .ld) else (if word then .stv else .st)
    tid := bitsOf 64 12 p, coords := bitsOf 0 64 p, data := data.payload, aop, pattern := data.poison
    badToken := bitsOf 84 172 p ≠ 0 || bitsOf 77 3 p ≠ 0 || (if atomic then word || decide (8 ≤ aop) else aop ≠ 0)
    foreign := (tok.dom ≠ dom && tok.dom ≠ 0) || (!load && data.dom ≠ dom && data.dom ≠ 0) }

def Node.headOf (d : Node) (n : Nat) : Option Token := (d.ins.find n []).head?
def Node.popIn (d : Node) (n : Nat) : Node := { d with ins := d.ins.put n (d.ins.find n []).tail [] }

/-- A settled request: no access, a copy of its token as result (R233). -/
def State.acceptPoison (s : State) (node : Nat) (src : ReqSrc) (tok : Token) : State :=
  let d := (s.node node).begin src (src = .ld)
  (s.setNode node { d with queue := d.queue ++ [{ src, op := .settled, req := tok, done := some { tok with dom := s.domOf (node / 4) } }] }).touch (node / 4)

/-- `MEMNODE_ACCEPT`: port 0 takes from `ld`, 1 from `st` and `wd`, 3 from `at` and `av`. -/
def execMemnodeAccept (node : Nat) (port : Nat) (s : State) : Out :=
  let d := s.node node
  let core := node / 4
  let dom := s.domOf core
  if !d.room then .next s
  else if port = 0 then
    match d.headOf 0 with
    | none => .next s
    | some tok =>
      if tok.mark then .next s else
        let s := s.setNode node (d.popIn 0)
        if tok.poison then .next (s.acceptPoison node .ld tok)
        else .next (s.acceptReq node { src := .ld, op := .settled, req := tok } (tokenRequest tok {} false true dom))
  else if port = 1 || port = 3 then
    match d.headOf port, d.headOf (port + 1) with
    | some tok, some data =>
      if tok.mark || data.mark then .next s else
        let s := s.setNode node ((d.popIn port).popIn (port + 1))
        let src : ReqSrc := if port = 1 then .st else .at
        let s := if tok.poison then s.corePost core tok.payload else s
        let s := if data.poison then s.corePost core data.payload else s
        if tok.poison then .next (s.acceptPoison node src tok)
        else .next (s.acceptReq node { src, op := .settled, req := tok } (tokenRequest tok data (port = 3) false dom))
    | _, _ => .next s
  else .next s

/-! ## Results, markers, realignment (R230, R232) -/

/-- A route joins an output of the node (R228). -/
def State.nodeJoined (s : State) (node out : Nat) : Bool :=
  let r := 16 * (node / 4) + node % 4
  (firstBelow 64 fun e => let t := s.route r e; t.valid && t.inp = 7 && t.inh = out).isSome

/-- The output buffer takes a token: it is empty, or no route joins it (log entry 32). -/
def State.nodeFree (s : State) (node out : Nat) : Bool := ((s.node node).outs.find out none).isNone

def State.nodeEmit (s : State) (node out : Nat) (t : Token) : State :=
  let d := s.node node
  if s.nodeJoined node out then s.setNode node { d with outs := d.outs.put out (some t) none } else s

/-- The place of the first request of an output port. -/
def Node.firstOf (d : Node) (out : Nat) : Option Nat := d.queue.findIdx? fun q => q.src.outPort = some out

/-- `MEMNODE_RESULT_EMIT`: the oldest request of the port, once it has performed. -/
def execMemnodeResultEmit (node : Nat) (port : Nat) (s : State) : Out :=
  let d := s.node node
  match d.firstOf port with
  | none => .next s
  | some k =>
    match (d.queue[k]?).bind NodeReq.done with
    | none => .next s
    | some t =>
      if s.nodeFree node port then
        .next (((s.setNode node { d with queue := dropAt k d.queue }).nodeEmit node port t).touch (node / 4))
      else .next s

/-- Inputs that share an output port: request and data. -/
def pairOf (port : Nat) : Nat × Nat := if port = 1 then (1, 2) else (3, 4)

/-- `MEMNODE_MARKER`: after all earlier results, a marker passes. -/
def execMemnodeMarker (node : Nat) (port : Nat) (s : State) : Out :=
  let d := s.node node
  let dom := s.domOf (node / 4)
  if !(d.valid && (d.firstOf port).isNone && s.nodeFree node port) then .next s
  else if port = 0 then
    match d.headOf 0 with
    | some t => if t.mark then
        .next (((s.setNode node { d.popIn 0 with starts := [], hist := [] }).nodeEmit node 0 { t with dom }).touch (node / 4)) else .next s
    | none => .next s
  else
    let (a, b) := pairOf port
    match d.headOf a, d.headOf b with
    | some x, some y =>
      if x.mark && y.mark && !d.realign.find (port - 1) false then
        let v := Nat.max (x.payload.toNat % 2 ^ 16) (y.payload.toNat % 2 ^ 16)
        .next (((s.setNode node ((d.popIn a).popIn b)).nodeEmit node port { payload := BitVec.ofNat 256 v, mark := true, dom }).touch (node / 4))
      else .next s
    | _, _ => .next s

/-- `MEMNODE_PAIR_REALIGN`: discards a data token opposite a marker; once both are at their markers, emits the poison
token. -/
def execMemnodePairRealign (node : Nat) (pair : Nat) (s : State) : Out :=
  let d := s.node node
  let core := node / 4
  let port := pair + 1
  let (a, b) := pairOf port
  let discard (n : Nat) (t : Token) : State :=
    let s := (s.setNode node { d.popIn n with realign := d.realign.put pair true false }).touch core
    if t.poison then s.corePost core t.payload else s
  match d.headOf a, d.headOf b with
  | some x, some y =>
    if x.mark && y.mark then
      if d.realign.find pair false && (d.firstOf port).isNone && s.nodeFree node port then
        let r := s.nodeRecord node Cause.rateMismatch 0
        .next (((s.setNode node { d with realign := d.realign.put pair false false }).nodeEmit node port
          { payload := r, poison := true, dom := s.domOf core }).touch core)
      else .next s
    else if x.mark then .next (discard b y)
    else if y.mark then .next (discard a x)
    else .next s
  | _, _ => .next s

/-! ## Memory instructions (R235 to R240) -/

/-- The node that a memory instruction names. -/
def nodeNum (core imm : Nat) : Nat := 4 * core + fieldNat 14 2 imm

/-- The specification of a memory instruction; the node it names must be in use (R235). -/
def specMem (op : Nat) (mode : Option NodeMode := none) : OpSpec :=
  { op, a := .srcNoImm, perLane := false, laneCheck := false
    xok := fun s _ imm => let d := s.node (nodeNum (coreOfPe s.cur) imm); d.valid && (mode.isNone || mode = some d.mode) }

/-- Sends a request of an instruction to its node, or holds issue while the node takes nothing (R228, R236). -/
def Issue.sendMem (i : Issue) (blocking : Bool) (r : Request) : Done :=
  let n := nodeNum i.core i.imm
  if !(i.s.node n).room then .hold i.s
  else if blocking then
    let s := i.s.setTask i.pe i.slot { i.task with wait := .memSent }
    .hold (s.acceptReq n { src := .pe i.pe i.slot, op := .settled, blocking } r)
  else .done (i.s.acceptReq n { src := .pe i.pe i.slot, op := .settled, blocking } r)

/-- A blocking request: sent, awaited, and its result written by `put`; a failure taints the task (R236, R242). -/
def Issue.blockMem (i : Issue) (r : Request) (put : State → Word → State) : Done :=
  match i.task.wait with
  | .memDone v none => .done (put i.s v)
  | .memDone _ (some f) => let s := put i.s 0; .done (s.setTask i.pe i.slot ((s.task i.pe i.slot).taint f))
  | .memSent => .hold i.s
  | _ => i.sendMem true r

/-- The request of an instruction on its tensor, at the coordinates in `A`. -/
def Issue.memReq (i : Issue) (kind : ReqKind) : Request := { kind, tid := fieldNat 0 12 i.imm, coords := i.sa }

def execLd (w : Fields) (s : State) : Out :=
  runInstr { specMem 0xA0 with d := .dst } w (fun i => i.blockMem (i.memReq .ld) i.putD) s

def execSt (w : Fields) (s : State) : Out :=
  runInstr { specMem 0xA1 with b := .srcNoImm } w
    (fun i => i.sendMem false { i.memReq .st with data := BitVec.ofNat 256 i.sb }) s

def execLdv (w : Fields) (s : State) : Out :=
  runInstr { specMem 0xA2 with d := .dst } w (fun i => i.blockMem (i.memReq .ldv) i.putD) s

def execStv (w : Fields) (s : State) : Out :=
  runInstr { specMem 0xA3 with b := .srcNoImm } w (fun i => i.sendMem false { i.memReq .stv with data := i.wb }) s

/-- The format of an atomic is one that R234 lists for the operation; a wrong operation is a failure of `MOD`. -/
def atomFmts (w : Fields) : List Nat := if w.mod.toNat < 8 then aopFmts w.mod.toNat else word64Fmts ++ [10, 11]

def execAtom (w : Fields) (s : State) : Out :=
  runInstr { specMem 0xA4 with fmts := some (atomFmts w), mods := fun w => w.mod.toNat < 8, b := .srcNoImm } w
    (fun i => i.sendMem false { i.memReq .atom with data := BitVec.ofNat 256 i.sb, fmt := some i.fmt, aop := i.mod }) s

def execAtomr (w : Fields) (s : State) : Out :=
  runInstr { specMem 0xA5 with fmts := some (atomFmts w), mods := fun w => w.mod.toNat < 8, d := .dst, b := .srcNoImm } w
    (fun i => i.blockMem { i.memReq .atom with data := BitVec.ofNat 256 i.sb, fmt := some i.fmt, aop := i.mod } i.putD) s

def execCas (w : Fields) (s : State) : Out :=
  runInstr { specMem 0xA6 with fmts := some (word64Fmts ++ [10, 11]), d := .dst, b := .srcNoImm, c := .srcNoImm } w
    (fun i => i.blockMem { i.memReq .cas with data := BitVec.ofNat 256 i.sb, data2 := BitVec.ofNat 64 i.sc, fmt := some i.fmt } i.putD) s

def execHins (w : Fields) (s : State) : Out :=
  runInstr { specMem 0xA7 (some .ordered) with fmts := some [2, 6, 10], d := .predOnly } w
    (fun i => i.blockMem { i.memReq .hins with coords := 0, data := BitVec.ofNat 256 i.sa, fmt := some i.fmt }
      (fun s v => s.setPredOf i.pe (Issue.predNum w.d) (flagPred (v ≠ 0)))) s

/-- A value source that is no channel and no immediate. -/
def Pos.srcNoChan : Pos := { Pos.srcNoImm with chanIn := false, chanOut := false }

def execCopy (w : Fields) (s : State) : Out :=
  runInstr { specMem 0xA8 with a := .srcNoChan, b := .srcNoChan, c := .srcNoChan } w
    (fun i => i.sendMem false { i.memReq .copy with coords2 := i.sb, len := i.sc, tidd := fieldNat 16 12 i.imm }) s

def execFill (w : Fields) (s : State) : Out :=
  runInstr { specMem 0xA9 with b := .srcNoImm, c := .srcNoImm } w
    (fun i => i.sendMem false { i.memReq .fill with data := i.wb, len := i.sc }) s

/-! ## Fences (R241) -/

/-- A request of this task has not performed at every scope up to package (R241, spec/10 R295, spec/11 R331; log entry 33). -/
def State.unperformed (s : State) (pe slot : Nat) : Bool :=
  let core := coreOfPe pe
  (firstBelow 4 fun k => (s.node (4 * core + k)).queue.any fun q => decide (q.src = .pe pe slot)).isSome ||
  (s.cmdq core).any (fun c => decide (c.pe = pe ∧ c.slot = slot ∧ c.op ≠ .pref)) ||
  (s.krecs (clusterOfCore core)).any (fun r => decide (r.pe = pe ∧ r.slot = slot)) ||
  (firstBelow 128 fun n =>
    let k := s.kslot (clusterOfCore core) n
    decide (k.st = .filling ∧ k.fpe = pe ∧ k.fslot = slot)).isSome ||
  s.hub.sag.any (fun r => match r with
    | .mext _ _ _ _ => false
    | .attest _ _ _ p t => decide (p = pe ∧ t = slot)
    | .verify _ _ _ _ p t => decide (p = pe ∧ t = slot))

/-- `FENCE` (R241). -/
def execFence (w : Fields) (s : State) : Out :=
  runInstr { op := 0xAA, d := .dst, perLane := false, xok := fun _ _ imm => decide (fieldNat 0 3 imm < 6) } w
    (fun i =>
      let scope := fieldNat 0 3 i.imm
      if scope ≠ 0 && i.s.unperformed i.pe i.slot then .hold i.s else .done (i.putD i.s (scalarWord scope))) s

/-! ## Channel and cursor instructions (R243 to R247) -/

def portSpec (op : Nat) : OpSpec := { op, perLane := false, laneCheck := false }

/-- `ADV` (R243). -/
def execAdv (w : Fields) (s : State) : Out :=
  runInstr { portSpec 0xAB with a := { portIn := true, portOut := true }, b := .src, xok := fun _ w _ => bitsOf 32 8 w.x = 0 } w
    (fun i =>
      let p := i.portNum w.a
      let n := i.sb
      if n = 0 || decide (255 < n) || decide ((i.task.port p).count < i.task.adv p + n) then i.illegal 6
      else .done (i.s.advance i.pe i.slot p n)) s

/-- `EMIT` (R244). -/
def execEmit (w : Fields) (s : State) : Out :=
  runInstr { portSpec 0xAC with fmts := some (List.range 15), d := { portOut := true }, a := .src, xok := fun _ w _ => bitsOf 40 8 w.x = 0 } w
    (fun i =>
      let p := i.portNum w.d
      if (i.task.port p).count ≤ i.task.adv p then i.illegal 4
      else .done ((i.putD i.s i.wa).advance i.pe i.slot p 1)) s

/-- `EMITM` (R245). -/
def execEmitm (w : Fields) (s : State) : Out :=
  runInstr { portSpec 0xAD with d := { portOut := true }, a := .immOnly, xok := fun _ w _ => bitsOf 40 8 w.x = 0 } w
    (fun i =>
      let p := i.portNum w.d
      let h := (i.task.port p).handle
      if i.task.adv p ≠ (i.task.port p).count then i.illegal 4
      else if i.s.freeOf i.pe h = 0 then .hold i.s
      else .done (i.s.publish i.pe h { payload := BitVec.ofNat 256 (i.imm % 2 ^ 16), mark := true })) s

/-- `TESTM` (R246): the token `CNT` places after the front of the window at the start of the firing. -/
def execTestm (w : Fields) (s : State) : Out :=
  runInstr { portSpec 0xAE with d := .predOnly, a := { portIn := true }, xok := fun _ w _ => bitsOf 32 8 w.x = 0 } w
    (fun i =>
      let p := i.portNum w.a
      let h := i.s.handle i.pe (i.task.port p).handle
      let k := (i.task.port p).count - i.task.adv p
      if h.cntm1 + 1 ≤ (i.task.port p).count then i.illegal 5
      else if h.cnt ≤ k then .hold i.s
      else .done (i.s.setPredOf i.pe (Issue.predNum w.d) (flagPred (i.s.slotOf i.pe (h.slotAt k)).mark))) s

/-- `NXTILE` (R247). -/
def execNxtile (w : Fields) (s : State) : Out :=
  runInstr { portSpec 0xAF with d := { chanOut := true }, c := .predOnly } w
    (fun i =>
      let k := i.imm % 4
      let c := i.s.cursor i.core k
      let qc := Issue.predNum w.c
      if c.next < c.count then
        let s := (i.s.setCursor i.core k { c with next := c.next + 1 }).setPredOf i.pe qc 0xFFFFFFFF
        match s.poolRead i.core (i.info.spaceBase false + c.base + 32 * c.next) 32 with
        | (.inl bs, s) => .done (i.putD s (BitVec.ofNat 256 (natOfBytes bs)))
        | (.inr n, s) => .done ((i.putD s 0).emit i.pe i.slot Cause.poolUe (i.s.poolUeDetail i.core 0 n))
      else
        let h := Issue.chanNum w.d
        let x := (i.s.handle i.pe h).slotAt i.offD
        .done ((i.s.setSlotOf i.pe x { payload := 0xFFFF, mark := true, dom := (i.s.slotOf i.pe x).dom }).setPredOf i.pe qc 0)) s

end Sys2Proof.Machine
end

