-- ==== Sys2Proof/Machine/Controllers.lean ====
section
/-! DEFINITION. Memory controllers and parity engines as endpoints of the mesh: requests arrive as packets, responses leave as
packets (spec/13 R355, spec/14 R397 to R399, R405, R407). Request payload: [127:64] physical address, [137:128] key slot,
[153:138] bytes, [217:154] a number that the response copies, with the dispatch in its upper half, [225:218] format and [233:226] operation of an atomic,
[383:256] data; response payload: [127:64] and [217:154] copied, [139:138] status: 0 done, 1 key slot EMPTY, 2 HBM_UE, 3 HBM_UE at a poison pattern,
[383:256] the data of a response of one flit (log entry 36). -/
namespace Sys2Proof.Machine

/-- The payload of a request. -/
def requestPayload (addr key len id data : Nat) (fmt aop : Nat := 0) : Nat :=
  packFields [(64, addr), (10, key), (16, len), (64, id), (8, fmt), (8, aop), (22, 0), (128, data)]

/-- The payload of a response. -/
def responsePayload (addr id status : Nat) (data : Nat := 0) : Nat := packFields [(64, addr), (10, 0), (2, status), (14, 0), (64, id), (38, 0), (128, data)]

def MemFail.status (f : MemFail) : Nat := match f with | .key _ => 1 | .ue false => 2 | .ue true => 3

/-- A request from its header flit. -/
def CtrlReq.ofFlit (v : BitVec 512) : CtrlReq :=
  let h := Header.ofBits v
  let n := bitsOf 138 16 v
  let writes := h.type = 2 || h.type = 4
  { write := writes, dom := h.dom, key := bitsOf 128 10 v, addr := bitsOf 64 64 v, len := n
    atom := if h.type = 4 then some (bitsOf 218 8 v, bitsOf 226 8 v) else none
    data := if writes then bytesOfNat n (bitsOf 256 128 v) else [], hdr := BitVec.ofNat 64 v.toNat }

/-- The number that a response copies; it stands above the address in `CtrlReq.hdr`'s flit. -/
def flitId (v : BitVec 512) : Nat := bitsOf 154 64 v

/-- Moves a packet that has arrived at a controller into its queue, unless that would be the ninth domain's (R407). -/
def State.acceptCtrl (s : State) (cl : Nat) : State :=
  let q := s.ctrlQ cl
  let doms := (q.map CtrlReq.dom).eraseDups
  match s.takePacket cl 3 (fun v => (Header.ofBits v).type = 0 || (Header.ofBits v).type = 2 || (Header.ofBits v).type = 4) with
  | (some (f :: _), s') =>
    let r := CtrlReq.ofFlit f.bits
    if doms.contains r.dom || decide (doms.length < 8) then s'.setCtrlQ cl (q ++ [{ r with id := flitId f.bits }]) else s
  | _ => s

/-- The first request of a kind with no earlier request for its line, all accesses to one location being ordered here (R398). -/
def State.ctrlPick (s : State) (cl : Nat) (p : CtrlReq → Bool) : Option (Nat × CtrlReq) :=
  let q := s.ctrlQ cl
  let l (r : CtrlReq) : Nat := s.mem.lineOf r.addr
  ((List.range q.length).findSome? fun k => match q[k]? with
    | some r => if p r && !((q.take k).any fun e => decide (l e = l r)) then some (k, r) else none
    | none => none)

/-- A write is registered at the parity engine of a line (R399). -/
def State.writeRegistered (s : State) (l : Nat) : Bool := s.mem.registered.any fun w => sameStripe w.line l && !w.performed

/-- The stack whose parity engine holds a registered write: that of the parity line (R395). -/
def ParityWrite.engine (w : ParityWrite) : Nat := lineStack (parityLine w.line)
def ParityWrite.dom (w : ParityWrite) : Nat := (Header.ofBits (w.hdr.setWidth 512)).dom

/-- The parity engine of a line's stripe holds writes of eight other domains, and takes none of this one (R407). -/
def State.parityFull (s : State) (dom l : Nat) : Bool :=
  let doms := ((s.mem.registered.filter fun w => !w.performed && decide (w.engine = lineStack (parityLine l))).map ParityWrite.dom).eraseDups
  !doms.contains dom && decide (8 ≤ doms.length)

/-- Sends the response to a request: data of up to 16 bytes go in its header flit (R355). -/
def State.ctrlReply (s : State) (cl : Nat) (hdr : BitVec 64) (type addr id status : Nat) (data : List (BitVec 512)) (short : Nat := 0) : State :=
  s.inject cl 3 ((Header.ofBits hdr).reply type data.length) (responsePayload addr id status short) data

/-- Serves a read. -/
def State.serveRead (s : State) (cl k : Nat) (r : CtrlReq) : State :=
  let s := s.setCtrlQ cl ((s.ctrlQ cl).take k ++ (s.ctrlQ cl).drop (k + 1))
  match s.memRead r.key r.dom r.addr r.len with
  | (.inl bs, s) =>
    if bs.length ≤ 16 then s.ctrlReply cl r.hdr 1 r.addr r.id 0 [] (natOfBytes bs)
    else s.ctrlReply cl r.hdr 1 r.addr r.id 0 [BitVec.ofNat 512 (natOfBytes bs)]
  | (.inr f, s) => s.ctrlReply cl r.hdr 1 r.addr r.id f.status []

/-- The stored lines that a read of a physical byte needs: those of the whole unit if it is compressed (R400). -/
def State.storedLines (s : State) (p : Nat) : List Nat :=
  if s.linesUsed p < 64 then (List.range (s.linesUsed p)).map fun k => s.mem.lineOf (4096 * (p / 4096) + 64 * k) else [s.mem.lineOf p]

/-- A stored line can be read only after a rebuild (R397). -/
def State.lineNeeds (s : State) (l : Nat) : Bool := s.mem.parity && !s.lineGood l && decide (s.lineFault l ≠ .pattern)

/-- A line of a request can. -/
def State.needsRebuild (s : State) (r : CtrlReq) : Bool := (s.keySlot r.key).isSome && (s.storedLines r.addr).any s.lineNeeds

/-- `CONTROLLER_READ`: a line that must be rebuilt waits for its parity engine. -/
def execControllerRead (controller : Nat) (s : State) : Out :=
  let s := s.acceptCtrl controller
  match s.ctrlPick controller (fun r => !r.write) with
  | none => .next s
  | some (k, r) => if s.needsRebuild r then .next s else .next (s.serveRead controller k r)

/-- A controller whose next read waits for this line. -/
def State.rebuildFor (s : State) (line : Nat) : Option (Nat × Nat × CtrlReq) :=
  (firstBelow 128 fun cl => (s.ctrlPick cl (fun r => !r.write && s.needsRebuild r && (s.storedLines r.addr).contains line)).isSome).bind fun cl =>
    (s.ctrlPick cl (fun r => !r.write && s.needsRebuild r && (s.storedLines r.addr).contains line)).map fun x => (cl, x)

/-- `PARITY_REBUILD`: for a read that waits for this line, once no write to its stripe line is registered (R399). -/
def execParityRebuild (line : Nat) (s : State) : Out :=
  match s.rebuildFor line with
  | none => .next s
  | some (cl, k, r) => if (s.storedLines r.addr).any s.writeRegistered then .next s else .next (s.serveRead cl k r)

/-- Reads the old value of an atomic, which makes a write of the new one of it (spec/10 R301, spec/08 R234): the old value and the write. -/
def State.readAtom (s : State) (r : CtrlReq) (x : Nat × Nat) : (Nat × CtrlReq ⊕ MemFail) × State :=
  match s.memRead r.key r.dom r.addr r.len with
  | (.inr f, s) => (.inr f, s)
  | (.inl bs, s) => (.inl (natOfBytes bs, { r with data := bytesOfNat r.len (aluNew x.1 x.2 (natOfBytes bs) (natOfBytes r.data)) }), s)

/-- The response to a write, or to an atomic that found an old value. -/
def State.writeReply (s : State) (cl : Nat) (hdr : BitVec 64) (addr id : Nat) (old : Option Nat) : State :=
  s.ctrlReply cl hdr (if old.isSome then 5 else 3) addr id 0 [] (old.getD 0)

/-- Performs a write at its controller: in protected mode it is registered until parity is written. -/
def State.serveWrite (s : State) (cl : Nat) (r : CtrlReq) (old : Option Nat) : State :=
  let l := s.mem.lineOf r.addr
  let s := s.memStore r.key r.dom (r.id / 2 ^ 32) r.addr r.data
  if s.mem.parity && (s.keySlot r.key).isSome then
    { s with mem := { s.mem with registered := s.mem.registered ++ [{ line := l, hdr := r.hdr, addr := r.addr, id := r.id, old }] } }
  else s.writeReply cl r.hdr r.addr r.id old

/-- `CONTROLLER_WRITE`: a write, or an atomic. -/
def execControllerWrite (controller : Nat) (s : State) : Out :=
  let s := s.acceptCtrl controller
  match s.ctrlPick controller CtrlReq.write with
  | none => .next s
  | some (k, r) =>
    let l := s.mem.lineOf r.addr
    if s.needsRebuild r && s.writeRegistered l || s.mem.parity && (s.keySlot r.key).isSome && s.parityFull r.dom l then .next s else
      let s := s.setCtrlQ controller ((s.ctrlQ controller).take k ++ (s.ctrlQ controller).drop (k + 1))
      match r.atom with
      | none => .next (s.serveWrite controller r none)
      | some x =>
        match s.readAtom r x with
        | (.inl (old, r), s) => .next (s.serveWrite controller r (some old))
        | (.inr f, s) => .next (s.ctrlReply controller r.hdr 5 r.addr r.id f.status [])

/-- A registered write has performed: its acknowledgement leaves its controller. -/
def State.ackWrite (s : State) (w : ParityWrite) : State := s.writeReply (s.homeOf w.addr) w.hdr w.addr w.id w.old

/-- `PARITY_UPDATE`: the parity line is written, and the write has performed. -/
def execParityUpdate (index : Nat) (s : State) : Out :=
  match s.mem.registered[index]? with
  | none => .next s
  | some w => .next (({ s with mem := { s.mem with registered := s.mem.registered.take index ++ s.mem.registered.drop (index + 1) } } : State).ackWrite w)

end Sys2Proof.Machine
end

