-- ==== Sys2Proof/Machine/Translate.lean ====
section
/-! DEFINITION. A Comet's translation of tensor coordinates, the checks of an access, reads and writes of HBM through a
Comet, staging and the tile cache (spec/10 R272 to R277, R283 to R285). -/
namespace Sys2Proof.Machine

/-! ## Who asks -/

/-- The requester of an access: the Comet that serves it, its domain and dispatch. -/
structure Asker where
  comet : Nat
  dom : Nat
  disp : Nat
deriving DecidableEq, Repr

def Asker.cluster (a : Asker) : Nat := a.comet / 2
def Asker.die (a : Asker) : Nat := a.comet / 32

/-- The Comet that serves a core: half 0 serves cores 0 to 7 of the cluster (R278). -/
def cometOfCore (core : Nat) : Nat := 2 * (core / 16) + core % 16 / 8

/-- The requester for a core's tasks. -/
def State.askerOf (s : State) (core : Nat) : Asker := { comet := cometOfCore core, dom := s.domOf core, disp := (s.info core).disp }

/-- The tag of a command's packets. -/
def cmdTag (core tag : Nat) : Nat := 512 + 16 * (core % 8) + tag % 16

/-- The requester that a gather request names, and its core. -/
def GatherReq.asker (r : GatherReq) : Asker :=
  let h := Header.ofBits r.hdr
  { comet := 2 * routerCluster (16 * h.sy + h.sx) + (h.sep - 1), dom := h.dom, disp := r.id / 2 ^ 32 }
def GatherReq.core (r : GatherReq) : Nat := 8 * r.asker.comet + ((Header.ofBits r.hdr).tag - 512) / 16

/-- Its dispatch is restartable (spec/14 R411). -/
def State.restartable (s : State) (a : Asker) : Bool := (s.dispOf a.die a.dom a.disp).elim false fun d => d.entry.rst

/-- The port identifier of R278. -/
def portId (comet port : Nat) : Nat := packFields [(8, port), (1, comet % 2), (4, comet / 2 % 16), (3, comet / 32)]

/-! ## Failures (R276, R280) -/

/-- How an access ends that does not go on. -/
inductive XFail where
  /-- A record with this cause, `OKIND` and `DETAIL`. -/
  | fail (cause kind detail : Nat)
  /-- The port parks on a page of a tensor. -/
  | park (kind tid page : Nat)
  /-- A read names an EMPTY key slot: the record of the controller of this cluster (R405). -/
  | emptyKey (home : Nat)
deriving DecidableEq, Repr

/-- A failure of R276 for a reason. -/
def XFail.reason (n : Nat) : XFail := .fail Cause.protection 6 n

/-- The failure of a read at its controller (R276, R405, spec/15 R425). -/
def MemFail.xfail (f : MemFail) : XFail :=
  match f with
  | .key home => .emptyKey home
  | .ue pattern => .fail Cause.hbmUe 6 (if pattern then 2 ^ 35 else 0)

/-- A record of a Comet. -/
def State.cometRecord (s : State) (a : Asker) (cause kind detail : Nat) : Word :=
  s.record cause (clusterOrigin kind a.cluster (a.comet % 2) a.dom a.disp) detail

/-- The record of a failure. -/
def XFail.record (f : XFail) (s : State) (a : Asker) : Word :=
  match f with
  | .fail c k d => s.cometRecord a c k d
  | .park _ _ _ => s.cometRecord a Cause.translation 6 4
  | .emptyKey home => s.record Cause.protection (clusterOrigin 9 home 0 a.dom a.disp) 6

/-- The record of an access that `RESUME.fail` has abandoned (R282). -/
def abandonedFail : XFail := .fail Cause.translation 6 4

/-- Posts a record of a Comet (R297, R300). -/
def State.cometPost (s : State) (a : Asker) (r : Word) (pattern : Bool := storedPattern r) : State := s.postRecord a.die r 0 pattern

/-- The FAULT record of a parked port goes to domain 0's trap queue (R280, spec/14 R416). -/
def State.postPark (s : State) (a : Asker) (port kind tid page : Nat) : State :=
  let detail := packFields [(8, port), (1, a.comet % 2), (3, kind), (12, tid), (24, page)]
  s.queueTrap 0 (s.trapOf a.die 5 (s.cometRecord a Cause.translation 6 detail) 0)

/-! ## Descriptors (R272, R273) -/

/-- An HBM tensor. -/
structure HTensor where
  shape : Shape
  valid : Bool
  big : Bool
  md : Bool
  ttaddr : Nat
  npage : Nat
  reserved : Bool
deriving DecidableEq, Repr

def HTensor.ofBits (v : BitVec 512) : HTensor :=
  { shape := { rankm1 := bitsOf 509 2 v, fmt := bitsOf 504 5 v, ext0 := bitsOf 352 16 v, ext1 := bitsOf 368 16 v, ext2 := bitsOf 384 16 v
               ext3 := bitsOf 400 16 v, tile0 := bitsOf 320 16 v, tile1 := bitsOf 336 16 v }
    valid := bitAt 511 v, big := bitAt 503 v, md := bitAt 502 v, ttaddr := bitsOf 448 42 v, npage := bitsOf 424 24 v
    reserved := bitsOf 490 12 v ≠ 0 || bitsOf 416 8 v ≠ 0 || bitsOf 0 320 v ≠ 0 }

def HTensor.pageBits (t : HTensor) : Nat := if t.big then 21 else 16

/-- Check 1 of R276 but for the table's count. -/
def HTensor.ok (t : HTensor) : Bool :=
  t.valid && decide (t.shape.fmt < 15) && !t.reserved && decide (t.shape.ext0 ≠ 0 ∧ t.shape.e1 ≠ 0 ∧ t.shape.e2 ≠ 0 ∧ t.shape.e3 ≠ 0) &&
    decide (t.shape.span ≤ t.npage * 2 ^ t.pageBits)

/-- A cached copy, used or not as a free choice says (R277). -/
def State.cachedXlat (s : State) (a : Asker) (tid : Nat) (page : Option Nat) : Option (BitVec 512) :=
  if Config.pick s.free % 2 = 0 then none else
    (s.cluster.xlat.find? fun c => decide (c.comet = a.comet ∧ c.dom = a.dom ∧ c.tid = tid ∧ c.page = page)).map CachedXlat.bits

def State.keepXlat (s : State) (a : Asker) (tid : Nat) (page : Option Nat) (bits : BitVec 512) : State :=
  let rest := s.cluster.xlat.filter fun c => !decide (c.comet = a.comet ∧ c.dom = a.dom ∧ c.tid = tid ∧ c.page = page)
  { s with cluster := { s.cluster with xlat := { comet := a.comet, dom := a.dom, tid, page, bits } :: rest }, free := s.free + 1 }

/-- Reads a descriptor, and makes check 1 of R276. -/
def State.descriptor (s : State) (a : Asker) (tid : Nat) : (HTensor ⊕ XFail) × State :=
  let c := s.ctx a.dom
  if c.dtcnt ≤ tid then (.inr (.reason 1), s) else
    let done (v : BitVec 512) (s : State) : (HTensor ⊕ XFail) × State :=
      let t := HTensor.ofBits v
      (if t.ok then .inl t else .inr (.reason 1), s.keepXlat a tid none v)
    match s.cachedXlat a tid none with
    | some v => done v s
    | none =>
      match s.memRead a.dom a.dom (c.dtbase.toNat + 64 * tid) 64 with
      | (.inr f, s) => (.inr f.xfail, s)
      | (.inl bs, s) => done (BitVec.ofNat 512 (natOfBytes bs)) s

/-! ## Pages (R274 to R276) -/

/-- What an access does. -/
structure Access where
  read : Bool := false
  write : Bool := false
  fg : Bool := false

/-- Checks 4 to 7 on a tile table entry. -/
def checkEntry (parity : Bool) (frames : Nat) (big : Bool) (dom tid page : Nat) (x : Access) (e : BitVec 64) : Option XFail :=
  let frame := bitsOf 38 26 e
  if !bitAt 27 e then some (.park 0 tid page)
  else if (decide (bitsOf 28 10 e ≠ dom) && decide (dom ≠ 0)) || bitAt 22 e ≠ parity || bitsOf 0 22 e ≠ 0 || decide (frames ≤ frame) ||
      (big && decide (frame % 32 ≠ 0)) then some (.reason 3)
  else if x.read && !bitAt 25 e then some (.park 1 tid page)
  else if x.write && !bitAt 24 e then some (.park 2 tid page)
  else if x.fg && !bitAt 23 e then some (.park 3 tid page)
  else none

/-- Reads the entry of a page and makes checks 3 to 7. -/
def State.pageEntry (s : State) (a : Asker) (tid : Nat) (t : HTensor) (page : Nat) (x : Access) : (BitVec 64 ⊕ XFail) × State :=
  let judge (e : BitVec 64) (s : State) : (BitVec 64 ⊕ XFail) × State :=
    match checkEntry s.mem.parity s.mem.frameCount t.big a.dom tid page x e with
    | some f => (.inr f, s)
    | none => (.inl e, s)
  match s.cachedXlat a tid (some page) with
  | some v => judge (v.setWidth 64) { s with free := s.free + 1 }
  | none =>
    match s.memRead a.dom a.dom (t.ttaddr + 8 * page) 8 with
    | (.inr f, s) => (.inr f.xfail, s)
    | (.inl bs, s) =>
      let e := BitVec.ofNat 64 (natOfBytes bs)
      judge e (if bitAt 27 e then s.keepXlat a tid (some page) (e.setWidth 512) else s)

/-- Parts of a range of one page, split at frames. -/
def splitFrames (base off n : Nat) (key : Nat) (cmp : Bool) : Nat → List Piece
  | 0 => []
  | fuel + 1 =>
    if n = 0 then [] else
      let k := Nat.min n (65536 - off % 65536)
      { phys := base + off, len := k, key, cmp } :: splitFrames base (off + k) (n - k) key cmp fuel

/-- Translates n bytes from a tensor byte offset, page by page (R275). -/
def State.translate (s : State) (a : Asker) (tid : Nat) (t : HTensor) (x : Access) (off n : Nat) (got : List Piece) :
    Nat → (List Piece ⊕ XFail) × State
  | 0 => (.inl got, s)
  | fuel + 1 =>
    if n = 0 then (.inl got, s) else
      let page := off / 2 ^ t.pageBits
      let k := Nat.min n (2 ^ t.pageBits - off % 2 ^ t.pageBits)
      match s.pageEntry a tid t page x with
      | (.inr f, s) => (.inr f, s)
      | (.inl e, s) =>
        s.translate a tid t x (off + k) (n - k)
          (got ++ splitFrames (65536 * bitsOf 38 26 e) (off % 2 ^ t.pageBits) k (bitsOf 28 10 e) (bitAt 26 e) 33) fuel

/-- A range of a tensor from the byte of coordinates: the checks of R276 in order, and its parts. -/
def State.resolve (s : State) (a : Asker) (tid : Nat) (x : Access) (coords n : Nat) : (List Piece ⊕ XFail) × State :=
  match s.descriptor a tid with
  | (.inr f, s) => (.inr f, s)
  | (.inl t, s) =>
    match t.shape.offset coords with
    | none => (.inr (.reason 2), s)
    | some off => if t.shape.span < off + n then (.inr (.reason 2), s) else s.translate a tid t x off n [] (n / 65536 + 2)

/-! ## Reading and writing through a Comet (R283 to R285) -/

/-- The staging line of a dispatch for a physical line of this module. -/
def StageLine.serves (l : StageLine) (a : Asker) (line : Nat) : Bool :=
  decide (l.cluster = a.cluster ∧ l.dom = a.dom ∧ l.disp = a.disp ∧ l.line = line) && l.modl.isNone

/-- Bytes of memory with the dispatch's own staged bytes merged over them. -/
def mergeStaged (ls : List StageLine) (a : Asker) (p : Nat) (bs : List Byte) : List Byte :=
  (List.range bs.length).map fun j =>
    match ls.find? (fun l => l.serves a ((p + j) / 64) && bitAt ((p + j) % 64) l.mask) with
    | some l => BitVec.ofNat 8 (bitsOf (8 * ((p + j) % 64)) 8 l.data)
    | none => (bs[j]?).getD 0

/-- A 64-bit word of a range lies in a staged line and has an uncorrectable error. -/
def StageLine.badIn (l : StageLine) (p n : Nat) : Bool := l.bad.any fun w => decide (64 * l.line + 8 * w < p + n) && decide (p < 64 * l.line + 8 * w + 8)

/-- A read meets an uncorrectable error of a staging line: the dispatch rolls back with POOL_UE (R285). -/
def State.meetStaged (s : State) (a : Asker) (p n : Nat) : State :=
  if s.cluster.stage.any (fun l => l.serves a l.line && l.badIn p n) then s.cometPost a (s.cometRecord a Cause.poolUe 6 0) else s

/-- Part of a range lies in a staged line that poison data has been written to. -/
def State.stagedPattern (s : State) (a : Asker) (p n : Nat) : Bool :=
  s.cluster.stage.any fun l => l.pattern && decide (p / 64 ≤ l.line ∧ 64 * l.line < p + n) && l.serves a l.line

/-- Reads one part. -/
def State.readPiece (s : State) (a : Asker) (p : Piece) : (List Byte ⊕ MemFail) × State :=
  match s.memRead p.key a.dom p.phys p.len with
  | (.inr f, s) => (.inr f, s)
  | (.inl bs, s) =>
    if s.restartable a && s.stagedPattern a p.phys p.len then (.inr (.ue true), s)
    else if s.restartable a then (.inl (mergeStaged s.cluster.stage a p.phys bs), s.meetStaged a p.phys p.len) else (.inl bs, s)

/-- Reads the parts of a range. -/
def State.hbmRead (s : State) (a : Asker) (ps : List Piece) : (List Byte ⊕ XFail) × State :=
  ps.foldl (fun acc p =>
    match acc with
    | (.inr f, s) => (.inr f, s)
    | (.inl bs, s) =>
      match s.readPiece a p with
      | (.inr f, s) => (.inr f.xfail, s)
      | (.inl cs, s) => (.inl (bs ++ cs), s)) (.inl [], s)

/-- A byte put into a 512-bit line. -/
def putByte (v : BitVec 512) (k : Nat) (b : Byte) : BitVec 512 :=
  (v &&& ~~~(BitVec.ofNat 512 (255 <<< (8 * k)))) ||| BitVec.ofNat 512 (b.toNat <<< (8 * k))

def putBytesAt (v : BitVec 512) (k : Nat) : List Byte → BitVec 512
  | [] => v
  | b :: bs => putBytesAt (putByte v k b) (k + 1) bs

/-- Lines of a slice, and those that staging may hold of them (R283). -/
def sliceLines : Nat := 131072
def stageCapacity : Nat := 98304

def State.stagedIn (s : State) (cluster : Nat) : Nat := (s.cluster.stage.filter fun l => decide (l.cluster = cluster)).length

/-- The tile cache holds the lines that staging does not hold: the oldest give way (R283). -/
def State.trimTiles (s : State) (cluster : Nat) : State :=
  let mine := s.cluster.tiles.filter fun t => decide (t.cluster = cluster)
  if mine.length + s.stagedIn cluster ≤ sliceLines then s else
    { s with cluster := { s.cluster with
        tiles := mine.take (sliceLines - s.stagedIn cluster) ++ s.cluster.tiles.filter fun t => !decide (t.cluster = cluster) } }

/-- Eight other domains hold lines of a slice: a line of a ninth waits (spec/14 R407). -/
def State.sliceFull (s : State) (cluster dom : Nat) : Bool :=
  let doms := (((s.cluster.stage.filter fun l => decide (l.cluster = cluster)).map StageLine.dom) ++
    (s.cluster.tiles.filter fun t => decide (t.cluster = cluster)).map TileLine.dom).eraseDups
  !doms.contains dom && decide (8 ≤ doms.length)

/-- Bytes into one staging line, given how to know it and its first form; no free line ends the dispatch (R285). Words written whole are good. -/
def State.stageInto (s : State) (a : Asker) (mine : StageLine → Bool) (fresh : StageLine) (k : Nat) (bs : List Byte) : State :=
  let put (l : StageLine) : StageLine :=
    { l with data := putBytesAt l.data k bs, mask := l.mask ||| BitVec.ofNat 64 ((2 ^ bs.length - 1) <<< k), form := fresh.form
             pattern := l.pattern && !decide (bs.length = 64)
             bad := l.bad.filter fun w => !(decide (k ≤ 8 * w) && decide (8 * w + 8 ≤ k + bs.length)) }
  if s.cluster.stage.any mine then
    { s with cluster := { s.cluster with stage := s.cluster.stage.map fun l => if mine l then put l else l } }
  else if stageCapacity ≤ s.stagedIn a.cluster then
    s.cometPost a (s.cometRecord a Cause.stageOverflow 6 0)
  else ({ s with cluster := { s.cluster with stage := s.cluster.stage ++ [put fresh] } } : State).trimTiles a.cluster

/-- Stages bytes of this module's memory, line by line (R285). -/
def State.stageWrite (s : State) (a : Asker) (key p : Nat) (bs : List Byte) (form : Option (List Nat)) : Nat → State
  | 0 => s
  | fuel + 1 =>
    if bs.isEmpty then s else
      let k := Nat.min bs.length (64 - p % 64)
      (s.stageInto a (fun l => l.serves a (p / 64))
        { cluster := a.cluster, dom := a.dom, disp := a.disp, key, line := p / 64, mask := 0, data := 0, form } (p % 64) (bs.take k)).stageWrite a key
          (p + k) (bs.drop k) form fuel

/-- A direct write updates the tile cache lines of the cluster (R284). -/
def State.updateTiles (s : State) (cluster key p : Nat) (bs : List Byte) : State :=
  let upd (t : TileLine) : TileLine :=
    if t.cluster = cluster ∧ t.key = key ∧ p < 64 * t.line + 64 ∧ 64 * t.line < p + bs.length then
      { t with data := foldUp 64 t.data fun v j =>
          if p ≤ 64 * t.line + j then (match bs[64 * t.line + j - p]? with | some b => putByte v j b | none => v) else v }
    else t
  { s with cluster := { s.cluster with tiles := s.cluster.tiles.map upd } }

/-- Writes line by line through to the controllers; the lines that are written update the tile cache, and the first failure is the answer. -/
def State.writeThrough (s : State) (a : Asker) (key p : Nat) (bs : List Byte) (written : Nat → Bool) (fail : Option MemFail) : Nat → Option MemFail × State
  | 0 => (fail, s)
  | fuel + 1 =>
    if bs.isEmpty then (fail, s) else
      let k := Nat.min bs.length (64 - p % 64)
      match s.memWrite key a.dom p (bs.take k) written with
      | (none, s) => (s.updateTiles a.cluster key p (bs.take k)).writeThrough a key (p + k) (bs.drop k) written fail fuel
      | (some f, s) => s.writeThrough a key (p + k) (bs.drop k) written (fail.or (some f)) fuel

/-- A write of a whole frame, which is stored under these line counts (spec/14 R401). -/
def State.writeWhole (s : State) (a : Asker) (p : Piece) (bs : List Byte) (lines : List Nat) : State :=
  match s.storeFrame p.key a.dom p.phys bs lines with
  | (none, s) => s.updateTiles a.cluster p.key p.phys bs
  | (some f, s) => s.postWrite a.dom a.disp p.phys (some f)

/-- The form in which a write of this part is stored: a whole frame is compressed if its entry asks for it and the package compresses (spec/14 R401,
spec/16 R459). -/
def State.formOf (s : State) (p : Piece) : Option (List Nat) × State :=
  if p.cmp && decide (p.len = 65536) && s.sag.compressOn then match s.frameLines with | (lines, s) => (some lines, s) else (none, s)

/-- Writes one part: staged, or direct, with what its controller posts. -/
def State.writePiece (s : State) (a : Asker) (p : Piece) (bs : List Byte) (written : Nat → Bool := fun _ => false) : State :=
  match s.formOf p with
  | (form, s) =>
  if s.restartable a then s.stageWrite a p.key p.phys bs form (bs.length / 64 + 2)
  else match form with
  | some lines => s.writeWhole a p bs lines
  | none => match s.writeThrough a p.key p.phys bs written none (bs.length / 64 + 2) with | (f, s) => s.postWrite a.dom a.disp p.phys f

/-- A range covers a whole line of the memory. -/
def Piece.covers (m : MemState) (p : Piece) (l : Nat) : Bool :=
  (firstBelow (p.len / 64 + 1) fun k =>
    let q := 64 * ((p.phys + 63) / 64 + k)
    decide (q + 64 ≤ p.phys + p.len) && decide (m.lineOf q = l)).isSome

/-- Writes the parts of a range, of which a command writes all. -/
def State.writePieces (s : State) (a : Asker) (written : Nat → Bool) : List Piece → List Byte → State
  | [], _ => s
  | p :: ps, bs => (s.writePiece a p (bs.take p.len) written).writePieces a written ps (bs.drop p.len)

/-- Writes the parts of a range: parity is computed from the lines that are all written (spec/14 R398). -/
def State.hbmWrite (s : State) (a : Asker) (ps : List Piece) (bs : List Byte) : State :=
  s.writePieces a (fun l => ps.any fun p => p.covers s.mem l) ps bs

/-- Writes whole frames in the form of their sources (R300, spec/17 R487). -/
def State.writeForms (s : State) (a : Asker) : List Piece → List (List Nat) → List Byte → State
  | [], _, _ => s
  | p :: ps, forms, bs =>
    let s := if s.restartable a then s.stageWrite a p.key p.phys (bs.take p.len) (some (forms.headD [])) 1026
      else s.writeWhole a p (bs.take p.len) (forms.headD [])
    s.writeForms a ps forms.tail (bs.drop p.len)

/-- The lines of the tile cache of a cluster that a part touches are dropped, but for those whose line could not be written. -/
def State.dropLines (s : State) (cluster : Nat) (p : Piece) : State :=
  { s with cluster := { s.cluster with tiles := s.cluster.tiles.filter fun t =>
      !(decide (t.cluster = cluster) && decide (t.key = p.key) && decide (p.phys / 64 ≤ t.line) && decide (64 * t.line < p.phys + p.len) &&
        decide (s.lineFault (s.mem.lineOf (64 * t.line)) = .pattern)) } }

/-- Poison data is written: the lines become poison patterns, or their staging lines say so (spec/08 R233, spec/15 R425). -/
def State.patternPiece (s : State) (a : Asker) (p : Piece) : State :=
  if s.restartable a then
    let s := s.stageWrite a p.key p.phys (List.replicate p.len 0) none (p.len / 64 + 2)
    let hit (l : StageLine) : Bool := l.serves a l.line && decide (p.phys / 64 ≤ l.line ∧ 64 * l.line < p.phys + p.len)
    { s with cluster := { s.cluster with stage := s.cluster.stage.map fun l => if hit l then { l with pattern := true } else l } }
  else match s.storePattern p.key a.dom p.phys p.len with
    -- the tile cache cannot hold poison: a line that now reads as the pattern leaves it (R284)
    | (f, s) => (s.dropLines a.cluster p).postWrite a.dom a.disp p.phys f

/-- Drops the cached translations of a page in every Comet (R277, R282). -/
def State.dropPage (s : State) (dom tid page : Nat) : State :=
  { s with cluster := { s.cluster with xlat := s.cluster.xlat.filter fun c => !(decide (c.dom = dom ∧ c.tid = tid) && (c.page = some page || c.page.isNone)) } }

/-- Drops every cached translation of a domain (R277). -/
def State.dropXlat (s : State) (dom : Nat) : State :=
  { s with cluster := { s.cluster with xlat := s.cluster.xlat.filter fun c => c.dom ≠ dom } }

/-- Drops the tile cache lines of a key slot (R284). -/
def State.dropTiles (s : State) (key : Nat) : State :=
  { s with cluster := { s.cluster with tiles := s.cluster.tiles.filter fun t => t.key ≠ key } }

/-! ## Parking (R280 to R282) -/

/-- The requester's part is being killed: an access of it that would park is discarded, and its port stays free (R281, spec/14 R410). -/
def State.drains (s : State) (a : Asker) : Bool :=
  s.die.parts.any fun p => decide (p.die = a.die) && decide (p.dom = a.dom) && decide (p.disp = a.disp) && p.killedAt.isSome

/-- A port parks on an access, and posts it. A port holds one parked access: while it does, another one waits (R280). -/
def State.parkPort (s : State) (a : Asker) (port kind tid page : Nat) (place : Nat := 0) (values : Bool := false) (fill : Option Nat := none) : State :=
  let c := s.cometPort a.comet port
  if c.parked.isSome || s.drains a then s
  else (s.setCometPort a.comet port { c with parked := some { dom := a.dom, tid, page, kind, place, values, fill } }).postPark a port kind tid page

def State.isParked (s : State) (comet port : Nat) : Bool := (s.cometPort comet port).parked.isSome

/-- The core that a port serves: the core of its router, or the one that the port's number names (R278). -/
def State.coreOfPort (s : State) (comet port : Nat) : Nat :=
  let at_ (k : Nat) : Nat := 16 * (comet / 2) + 8 * (comet % 2) + k
  if port < 16 || decide (216 ≤ port) then (s.cometPort comet port).router / 16 else if port < 208 then at_ ((port - 16) / 24) else at_ (port - 208)

/-- A port is no longer parked; that its core was, is not stillness (spec/13 R389). -/
def State.unpark (s : State) (comet port : Nat) : State :=
  let c := s.cometPort comet port
  if c.parked.isSome then (s.setCometPort comet port { c with parked := none }).touch (s.coreOfPort comet port) else s

end Sys2Proof.Machine
end

