-- ==== Sys2Proof/Machine/Bexwen.lean ====
section
/-! DEFINITION. Routes between modules, the fabric group of a context, fabric barrier generations, link frames and the payload of a remote atomic (spec/17
R478 to R490). -/
namespace Sys2Proof.Machine

def State.linkUp (s : State) (l : Nat) : Bool := decide (l < 12) && decide ((s.fabLink l).st = .up)

/-- The current link of the route to module m (R481). -/
def State.currentLink (s : State) (m : Nat) : Option Nat :=
  let e := s.mapEntry m
  if !e.rv then none else if s.linkUp e.pri then some e.pri else if s.linkUp e.alt then some e.alt else none

/-- Module m is reachable: this hub has a current link to it, and no hop further on is known to be lost. -/
def State.reachable (s : State) (m : Nat) : Bool :=
  decide (m ≠ s.fab.moduleId) && (s.currentLink m).isSome && !s.fab.unreachable.contains m

/-- The other modules of the fabric group of a context (R483). -/
def State.fabOthers (s : State) (dom : Nat) : List Nat := (List.range 64).filter fun m => s.reachable m && s.member dom m

/-! ## Frames (R478, R479) -/

/-- A link frame around a flit. -/
def packFrame (flit : BitVec 512) (vc fk lseq lack : Nat) : BitVec 576 :=
  let body := packFields [(4, 0), (2, fk), (2, vc), (12, lack), (12, lseq), (512, flit.toNat)]
  BitVec.ofNat 576 ((Config.lcrc (BitVec.ofNat 544 body)).toNat + 2 ^ 32 * body)

/-- A link takes a flit: as the next frame, or behind those that wait. One waits while the replay buffer of 256 frames is full, while another
of its virtual channel waits, and while its domain would be the ninth in the hub (R479, spec/14 R407). -/
def FabLink.offer (l : FabLink) (doms : List Nat) (w : OutFlit) : FabLink :=
  if decide (l.replay.length < 256) && !(l.waiting.any fun x => x.vc = w.vc) && w.dom.elim true (fits (doms ++ l.doms).eraseDups) then
    { l with replay := l.replay ++ [{ bits := packFrame w.bits w.vc w.fk l.lseq l.lack, dom := w.dom }], lseq := (l.lseq + 1) % 4096 }
  else { l with waiting := l.waiting ++ [w] }

/-- The flits that wait are offered again. -/
def FabLink.pump (l : FabLink) (doms : List Nat) : FabLink := l.waiting.foldl (fun l w => l.offer doms w) { l with waiting := [] }

/-- Sends a flit on a link; a link that is not up carries nothing. -/
def State.sendFlit (s : State) (link : Nat) (w : OutFlit) : State :=
  let l := s.fabLink link
  if l.st = .up then s.setFabLink link (l.offer s.hubDoms w) else s

/-- Sends the flits of a packet. -/
def State.sendFlits (s : State) (link vc : Nat) : List (BitVec 512) → State
  | [] => s
  | f :: fs => fs.foldl (fun s f => s.sendFlit link { vc, bits := f }) (s.sendFlit link { vc, bits := f, dom := some (Header.ofBits f).dom })

/-- A flit from a header and its payload bits [511:64]. -/
def flitOf (h : Header) (payload : Nat) : BitVec 512 := BitVec.ofNat 512 (h.pack + 2 ^ 64 * payload)

/-! ## Control bodies (R483) -/

/-- A control body in place of a flit; the manual gives what it carries and not its bits (log entry 36). -/
def FabMsg.pack (src dst : Nat) : FabMsg → BitVec 512
  | .ctx dom active => body 0 dom 0 0 (if active then 1 else 0)
  | .phase dom n => body 1 dom 0 0 n
  | .farr dom bar gen => body 2 dom bar gen 0
  | .fexit dom bar => body 3 dom bar 0 0
  | .fbreak dom bar => body 4 dom bar 0 0
  | .identity _ fabric modl epoch compress =>
    BitVec.ofNat 512 (packFields [(4, 5), (6, dst), (6, modl), (16, fabric), (32, epoch.toNat), (64, compress)])
where
  body (kind dom bar gen n : Nat) : BitVec 512 := BitVec.ofNat 512 (packFields [(4, kind), (6, dst), (6, src), (10, dom), (6, bar), (16, gen), (32, n)])

/-- The body that a control frame carries. -/
def bodyOf (v : BitVec 512) : Option FabMsg :=
  let dom := bitsOf 16 10 v
  let bar := bitsOf 26 6 v
  let n := bitsOf 48 32 v
  match bitsOf 0 4 v with
  | 0 => some (.ctx dom (decide (n = 1)))
  | 1 => some (.phase dom n)
  | 2 => some (.farr dom bar (bitsOf 32 16 v))
  | 3 => some (.fexit dom bar)
  | 4 => some (.fbreak dom bar)
  | _ => none

/-- Sends a control body to one module, over its current link. -/
def State.sendBodyTo (s : State) (b : FabMsg) (m : Nat) : State :=
  match s.currentLink m with
  | some l => s.sendFlit l { fk := 2, vc := 0, bits := b.pack s.fab.moduleId m }
  | none => s

/-- Sends a control body to every reachable member. -/
def State.sendBody (s : State) (b : FabMsg) : State :=
  ((List.range 64).filter s.reachable).foldl (fun s m => s.sendBodyTo b m) { s with fab := { s.fab with sent := s.fab.sent ++ [b] } }

/-! ## Exchange packets (R486) -/

/-- Data bytes of the packet of a write that begins at byte `pos`: 256, or what is left. -/
def ExchOut.count (e : ExchOut) (pos : Nat) : Nat := Nat.min 256 (e.data.length - pos)

/-- The unit of a raw write in which byte `pos` lies: 0 stored plain, else its lines and 1. -/
def ExchOut.unit (e : ExchOut) (pos : Nat) : Nat :=
  match e.forms[pos / 65536]? with
  | some ls => match ls[pos / 4096 % 16]? with | some n => n + 1 | none => 0
  | none => 0

/-- Payload of the header flit of a packet, of which the manual gives no bits (log entry 36). -/
def ExchOut.payload (e : ExchOut) (pos : Nat) : Nat :=
  packFields [(12, e.tid), (64, e.coords), (64, e.start), (64, e.data.length), (64, pos), (1, if e.raw then 1 else 0), (1, if e.pattern then 1 else 0), (8, e.unit pos)]

/-- The packet of type 0x0B that carries a write's bytes from `pos` on. -/
def State.exchPacket (s : State) (e : ExchOut) (pos : Nat) : List (BitVec 512) :=
  let n := e.count pos
  let flits := ceilDiv n 64
  let h := { s.header (clusterOfCore e.core) (1 + cometOfCore e.core % 2) 0 7 0x0B 2 flits e.dom (e.id % 4096) with dmod := e.modl }
  flitOf h (e.payload pos) :: (List.range flits).map fun k => BitVec.ofNat 512 (natOfBytes ((e.data.drop (pos + 64 * k)).take (Nat.min 64 (n - 64 * k))))

/-- Sends every packet of a write on its route's current link. -/
def State.sendPackets (s : State) (e : ExchOut) : State :=
  match s.currentLink e.modl with
  | none => s
  | some l =>
    let s := { s with fab := { s.fab with exch := s.fab.exch.map fun x => if x.id = e.id then { e with link := l } else x } }
    foldUp (Nat.max 1 (ceilDiv e.data.length 256)) s fun s k => s.sendFlits l 2 (s.exchPacket e (256 * k))

/-- Puts an exchange write on its way (R486). -/
def State.sendExch (s : State) (e : ExchOut) : State :=
  let e := { e with id := s.fab.exchNext }
  ({ s with fab := { s.fab with exch := s.fab.exch ++ [e], exchNext := s.fab.exchNext + 1 } } : State).sendPackets e

/-- Changes `CST` of a context, and tells the other modules (R483). -/
def State.setCst (s : State) (dom cst : Nat) : State :=
  if (s.ctx dom).cst = cst then s
  else ({ s with hub := { s.hub with ctxs := s.hub.ctxs.put dom { s.ctx dom with cst } {} } } : State).sendBody (.ctx dom (decide (cst = 1)))

/-- Every module of the group has sent FARR of this generation, or FEXIT (R485). -/
def State.fabComplete (s : State) (dom bar gen : Nat) : Bool :=
  (s.fabOthers dom).all fun m => s.fab.farr.contains (m, dom, bar, gen) || s.fab.fexit.contains (m, dom, bar)

/-- Opens the next generation of a counter (spec/04 R142). -/
def Barrier.nextGen (b : Barrier) : Barrier := { b with gen := (b.gen + 1) % 2 ^ 16, arr := 0 }

/-- A counter whose local generation is complete advances once the group's is (R485). -/
def State.fabAdvance1 (s : State) (k : Nat) : State :=
  let b := s.barrier k
  match b.fab with
  | some id => if decide (0 < b.exp) && decide (b.exp ≤ b.arr) && s.fabComplete b.dom id b.gen then s.setBarrier k b.nextGen else s
  | none => s

/-- Re-evaluates every package counter, after a body or a change of a group (R484, R485). -/
def State.fabAdvance (s : State) : State := foldUp 64 s fun s b => s.fabAdvance1 (300000 + b)

/-! ## Events -/

/-- An event of the fabric, of class 7; its payload is not given. -/
def State.fabEvent (s : State) (code dom : Nat) (always : Bool := false) : State :=
  match s.openVal code with | (v, s) => s.logEvent 8 code v dom 0 always

/-! ## Requests of remote atomics (R488, R490) -/

/-- Payload of a request (R488). -/
def ratomPayload (seq slink fmt aop tid epoch coords operand : Nat) : Nat :=
  packFields [(64, operand), (64, coords), (224, 0), (32, epoch), (22, 0), (1, 0), (12, tid), (4, aop), (5, fmt), (4, slink), (16, seq)]

/-- The epoch of a module as last trained; a free value where no link has met it (log entry 56). -/
def State.peerEpoch (s : State) (m : Nat) : Nat :=
  match firstBelow 12 fun l => decide ((s.fabLink l).peer = some m) with
  | some l => (s.fabLink l).epoch.toNat
  | none => Config.openValue 0x488 m % 2 ^ 32

/-- Outstanding requests of a source link. -/
def State.ratomsOn (s : State) (l : Nat) : Nat := (s.fab.ratoms.filter fun r => decide (r.slink = l)).length

/-- The record of a request that no link carried (R490); its origin is a link, as in R492 (log entry 57). -/
def State.linkDownRecord (s : State) (dom disp m : Nat) : Word :=
  s.record Cause.linkDown { kind := 10, die := s.ringDie 8, dom, disp } (m % 64)

end Sys2Proof.Machine
end

