-- ==== Sys2Proof/Machine/Barriers.lean ====
section
/-! DEFINITION. Barrier counters of every scope (spec/04 R139 to R143, spec/09 R261 to R265, spec/13 R364, R365, spec/17
R485). -/
namespace Sys2Proof.Machine

/-! ## Naming a counter (R140, R365) -/

def barScope (imm : Nat) : Nat := fieldNat 0 3 imm
def barId (imm : Nat) : Nat := fieldNat 8 6 imm

/-- Counters of a scope. -/
def barCount (scope : Nat) : Nat := match scope with | 0 => 8 | 1 => 16 | 2 => 32 | 3 | 4 => 64 | _ => 0

/-- The n-th lowest number of a list. -/
def nthLowest (xs : List Nat) (n : Nat) : Option Nat := (sortNat xs)[n]?

/-- Key of the counter that a task of a PE names, if its dispatch has it (R365). -/
def State.counterOf (s : State) (pe scope id : Nat) : Option Nat :=
  let core := coreOfPe pe
  let cl := clusterOfCore core
  let die := dieOfCore core
  let d := s.dispOf die (s.domOf core) (s.info core).disp
  match scope with
  | 0 => some (8 * core + id)
  | 1 => if (d.elim [] Disp.granules).contains (4 * cl + id / 4) then some (100000 + 16 * cl + id) else none
  | 2 => (nthLowest (((d.elim [] Disp.dieCtrs).filter fun c => c / 32 = die).map (· % 32)) id).map fun b => 200000 + 32 * die + b
  | 3 | 4 => (nthLowest (d.elim [] Disp.pkgCtrs) id).map fun b => 300000 + b
  | _ => none

/-- The specification of a barrier instruction: PROTECTION if the dispatch has no such counter. -/
def specBar (op : Nat) : OpSpec :=
  { op, perLane := false
    xok := fun _ _ imm => decide (barId imm < barCount (barScope imm))
    prot := fun s imm => decide (barId imm < barCount (barScope imm)) && (s.counterOf s.cur (barScope imm) (barId imm)).isNone }

/-- Whether a pending arrival names a counter; scopes 3 and 4 share their counters (R485). -/
def Barp.names (p : Barp) (scope id : Nat) : Bool := decide (Nat.min p.scope 3 = Nat.min scope 3) && decide (p.bar = id)

/-! ## Operations at the counter (R141 to R143) -/

/-- What an operation finds at its counter. -/
structure BarFound where
  broken : Bool := false
  illegal : Bool := false
  released : Bool := false
  gen : Nat := 0

/-- The open generation is complete: it closes, or at fabric scope waits for the other modules (R485). -/
def State.closeGen (s : State) (k scope id : Nat) : State :=
  let b := s.barrier k
  if scope = 4 then (s.sendBody (.farr b.dom id b.gen)).fabAdvance1 k else s.setBarrier k b.nextGen

/-- A counter breaks (R265); a fabric counter says so to the other modules (R485). -/
def State.breakCounter (s : State) (k : Nat) : State :=
  let b := s.barrier k
  let s := s.setBarrier k { b with brk := true }
  match b.fab with | some id => s.sendBody (.fbreak b.dom id) | none => s

/-- The counter as an operation finds it: at fabric scope, with the id under which the other modules know it, and broken if one of them
said so (R485). -/
def State.found (s : State) (k scope id : Nat) : Barrier :=
  let c := s.barrier k
  if scope = 4 then { c with fab := some id, brk := c.brk || s.fab.fbreak.contains (c.dom, id) } else c

/-- Performs one operation of a PE in its turn. One that fails its check changes nothing at the counter. -/
def State.atCounter (s : State) (pe k scope id : Nat) (kind : BarOpKind) : BarFound × State :=
  let s := s.takeTurn k (pe + 1)
  let b := s.found k scope id
  match kind with
  | .arm n =>
    if 0 < b.arr then ({ illegal := true }, s)
    else
      let s := s.setBarrier k { b with exp := n }
      if b.memb < n then ({ broken := true }, s.breakCounter k) else ({}, s)
  | .arrive =>
    if b.brk then ({ broken := true }, s)
    else if b.exp = 0 then ({ illegal := true }, s)
    else
      let s := s.setBarrier k { b with arr := b.arr + 1 }
      let s := if b.arr + 1 = b.exp then s.closeGen k scope id else s
      ({ released := (s.barrier k).gen ≠ b.gen, gen := b.gen }, s)
  | .test g => if b.brk then ({ broken := true }, s) else ({ released := b.gen ≠ g, gen := g }, s)
  | .exit pending =>
    if b.memb = 0 then ({ illegal := true }, s)
    else
      let arr := if pending = some b.gen then b.arr - 1 else b.arr
      let memb := b.memb - 1
      let exp := Nat.min b.exp memb
      let s := s.setBarrier k { b with arr, memb, exp }
      let s := if scope = 4 && decide (0 < b.exp) && decide (exp = 0) then s.sendBody (.fexit b.dom id) else s
      (if 0 < exp ∧ exp ≤ arr then ({}, s.closeGen k scope id) else ({}, s))

/-- The record of a broken counter (R265): `PHASE` is that of the dispatch that owns it. -/
def State.brokenRecord (s : State) (k scope id : Nat) : Word :=
  let b := s.barrier k
  let o : Origin := match scope with
    | 0 => { kind := 7, die := k / 8 / 256, clu := k / 8 / 16 % 16, core := k / 8 % 16 }
    | 1 => { kind := 7, die := (k - 100000) / 256, clu := (k - 100000) / 16 % 16 }
    | 2 => { kind := 7, die := (k - 200000) / 32 }
    | _ => { kind := 7, die := 0 }
  s.record Cause.barBroken { o with dom := b.dom, disp := b.disp } (id + 256 * scope) 0 (some b.phase)

/-! ## Instructions -/

/-- The operation of an instruction, on its way to a counter beyond the core (R364). -/
def Issue.sendBar (i : Issue) (k : Nat) (kind : BarOpKind) : State :=
  { i.s with sync := { i.s.sync with flying := i.s.sync.flying ++
      [{ pe := i.pe, slot := i.slot, scope := barScope i.imm, bar := barId i.imm, counter := k, kind, entry := i.task.pc, opc := i.spec.op
         serial := i.task.serial }] } }

/-- Key of the counter that an instruction names; the checks at issue have found it. -/
def Issue.counter (i : Issue) : Nat := (i.s.counterOf i.pe (barScope i.imm) (barId i.imm)).getD 0

def Issue.taintWith (i : Issue) (s : State) (r : Word) : State := s.setTask i.pe i.slot ((s.task i.pe i.slot).taint r)

/-- `BARA` (R141). -/
def execBara (w : Fields) (s : State) : Out :=
  runInstr { specBar 0xE8 with a := .src } w
    (fun i =>
      let n := i.sa
      let k := i.counter
      if n = 0 || decide (65535 < n) then i.illegal 5
      else if barScope i.imm ≠ 0 then .done (i.sendBar k (.arm n))
      else match i.s.atCounter i.pe k 0 (barId i.imm) (.arm n) with
        | (f, s) =>
          if f.illegal then .fail Cause.illegalOperand (i.spec.op + 256 * 8) s
          else if f.broken then .done (i.taintWith s (s.brokenRecord k 0 (barId i.imm))) else .done s) s

/-- What `BARW` and `BARW.t` do with what they found (R142, R364). -/
def Issue.finishBarw (i : Issue) (s : State) (f : BarFound) : Done :=
  let q := Issue.predNum i.w.d
  let k := i.counter
  if f.broken then
    let s := (s.setPredOf i.pe q 0xFFFFFFFF).setTask i.pe i.slot { s.task i.pe i.slot with barp := none }
    .done (i.taintWith s (s.brokenRecord k (barScope i.imm) (barId i.imm)))
  else if f.illegal then .fail Cause.illegalOperand (i.spec.op + 256 * 8) s
  else
    let barp := if f.released then none else some { scope := barScope i.imm, bar := barId i.imm, gen := f.gen }
    .done ((s.setPredOf i.pe q (flagPred f.released)).setTask i.pe i.slot { s.task i.pe i.slot with barp })

/-- `BARW` and `BARW.t`: at core scope at once, else sent, awaited and finished. At core scope `BRK` comes before the check of `BARP`, as in
R142; beyond it `BARP` is checked at issue, before the counter is seen, as R364 has it (log entry 128). -/
def Issue.barw (i : Issue) (test : Bool) : Done :=
  let scope := barScope i.imm
  let id := barId i.imm
  let k := i.counter
  match i.task.wait with
  | .barDone broken illegal released gen => i.finishBarw i.s { broken, illegal, released, gen }
  | .barSent => .hold i.s
  | _ =>
    let own := match i.task.barp with | some p => if p.names scope id then some p.gen else none | none => none
    let ownOk := if test then own.isSome else i.task.barp.isNone
    let kind : BarOpKind := if test then .test (own.getD 0) else .arrive
    if scope = 0 then
      if ownOk then match i.s.atCounter i.pe k 0 id kind with | (f, s) => i.finishBarw s f
      else i.finishBarw (i.s.takeTurn k (i.pe + 1)) { broken := (i.s.barrier k).brk, illegal := true }
    else if !ownOk then i.illegal 8
    else .hold ((i.sendBar k kind).setTask i.pe i.slot { i.task with wait := .barSent })

def execBarw (w : Fields) (s : State) : Out :=
  runInstr { specBar 0xE9 with d := .predOnly, mods := fun w => w.mod &&& 0b1110 = 0 } w (fun i => i.barw false) s

def execBarwT (w : Fields) (s : State) : Out :=
  runInstr { specBar 0xE9 with d := .predOnly, mods := fun w => w.mod &&& 0b1110 = 0 } w (fun i => i.barw true) s

/-- `BAREX` (R143). -/
def execBarex (w : Fields) (s : State) : Out :=
  runInstr (specBar 0xEA) w
    (fun i =>
      let scope := barScope i.imm
      let id := barId i.imm
      let k := i.counter
      let mine := match i.task.barp with | some p => p.names scope id | none => false
      let pending := if mine then i.task.barp.map Barp.gen else none
      let leave (s : State) : State := if mine then s.setTask i.pe i.slot { s.task i.pe i.slot with barp := none } else s
      if scope ≠ 0 then .done (leave (i.sendBar k (.exit pending)))
      else match i.s.atCounter i.pe k 0 id (.exit pending) with
        | (f, s) => if f.illegal then .fail Cause.illegalOperand (i.spec.op + 256 * 8) s else .done (leave s)) s

/-! ## Performing beyond the core (R364) -/

/-- A record reaches the firing that issued the operation, or the core's trap port if it has ended. -/
def State.lateRecord (s : State) (op : BarOp) (r : Word) : State :=
  let t := s.task op.pe op.slot
  if t.serial = op.serial && (decide (t.st = .firing) || decide (t.st = .suspended)) then s.setTask op.pe op.slot (t.taint r)
  else (s.setTask op.pe op.slot (t.counted r)).corePost (coreOfPe op.pe) r

/-- What the operation finds comes back to its PE. -/
def State.barAnswer (s : State) (op : BarOp) (f : BarFound) : State :=
  let t := s.task op.pe op.slot
  match op.kind with
  | .arrive | .test _ =>
    if t.wait = .barSent then s.setTask op.pe op.slot { t with wait := .barDone f.broken f.illegal f.released f.gen } else s
  | .arm _ | .exit _ =>
    if f.illegal then
      let s := match op.kind with
        | .exit (some g) =>
          if t.serial = op.serial && t.barp.isNone then s.setTask op.pe op.slot { t with barp := some { scope := op.scope, bar := op.bar, gen := g } } else s
        | _ => s
      s.lateRecord op (s.taskRecord op.pe op.slot op.entry Cause.illegalOperand (op.opc + 256 * 8))
    else if f.broken then s.lateRecord op (s.brokenRecord op.counter op.scope op.bar)
    else s

/-- `BARRIER_PERFORM`: the operation at this place, if it is its PE's oldest. -/
def execBarrierPerform (index : Nat) (s : State) : Out :=
  match s.sync.flying[index]? with
  | none => .next s
  | some op =>
    if (s.sync.flying.take index).any (fun o => o.pe = op.pe) then .next s else
      let s := { s with sync := { s.sync with flying := s.sync.flying.take index ++ s.sync.flying.drop (index + 1) } }
      match s.atCounter op.pe op.counter op.scope op.bar op.kind with
      | (f, s) => .next ((s.barAnswer op f).touch (coreOfPe op.pe))

end Sys2Proof.Machine
end

