-- ==== Sys2Proof/Machine/Capability.lean ====
section
/-! DEFINITION. The capability list (spec/16 R458, R459, R466). -/
namespace Sys2Proof.Machine

/-- Header of an entry: id, length in 16-byte units, offset of the next (R458). -/
def capHeader (id len next : Nat) : List Byte := bytesOfNat 16 (packFields [(16, id), (8, 1), (8, len), (32, next)])

/-- An entry with one body word (R459). -/
def capWord (id next body : Nat) : List Byte := capHeader id 2 next ++ bytesOfNat 16 (body % 2 ^ 64)

/-- Body word of DEBUGUNLOCK. -/
def State.debugUnlock (s : State) : Nat := (if bitAt 1 (s.fuse 1) then 0 else 1) + (if s.sag.dbgOpen then 2 else 0)

/-- Where body word 0 of DEBUGUNLOCK stands in the list. -/
def debugUnlockAt : Nat := 240

/-- The list as a start writes it, from the bitmap of trained links and whether one runs at reduced rate. -/
def State.capList (s : State) (trained : Nat) (reduced : Bool) : List Byte :=
  capWord 1 32 3 ++ capWord 2 64 16 ++
    capWord 3 96 ((if s.mem.parity then 1 else 0) + 256 * s.mem.mappedOut.length) ++
    capWord 4 128 ((if s.sag.compressOn then 1 else 0) + (if s.sag.rawx then 2 else 0)) ++
    capHeader 5 1 144 ++ capHeader 6 1 160 ++ capWord 7 192 (s.hub.wdogDflt.toNat + 2 ^ 16) ++
    capWord 8 224 (trained % 4096 + (if reduced then 4096 else 0)) ++ capWord 9 256 s.debugUnlock ++ capWord 10 0 (256 + 512 * 2 ^ 16)

/-- `CAPADDR`: the copy stands at the start of the firmware area, the highest 64 frames (R466; log entry 45). -/
def State.capAddr (s : State) : Nat := 65536 * (s.mem.frameCount - 64)

/-- Writes the list and its copy in device memory under key slot 0. -/
def State.writeCaps (s : State) (bs : List Byte) : State :=
  ({ s with sag := { s.sag with caps := bs } } : State).memStore 0 0 noDisp s.capAddr bs

/-- DEBUGUNLOCK follows the debug port. -/
def State.followDebug (s : State) : State :=
  if s.sag.caps.isEmpty then s
  else s.writeCaps (s.sag.caps.take debugUnlockAt ++ bytesOfNat 8 s.debugUnlock ++ s.sag.caps.drop (debugUnlockAt + 8))

end Sys2Proof.Machine
end

