-- ==== Sys2Proof/Machine/Glaze.lean ====
section
/-! DEFINITION. Glaze islands (spec/09 R254 to R259) and address generators (spec/10 R269 to R271). -/
namespace Sys2Proof.Machine

/-! ## Decoding (spec/01 R41, R255) -/

/-- The value that a select code names, given the outputs of the cells as a bitmap. -/
def selectValue (payload : Word) (cells code : Nat) : Nat :=
  if code < 256 then (if bitAt code payload then 1 else 0)
  else if code < 768 then (if cells.testBit (code - 256) then 1 else 0)
  else if code = 769 then 1 else 0

/-- The output of one cell. -/
def GlazeCell.value (c : GlazeCell) (payload : Word) (cells : Nat) : Bool :=
  bitAt (8 * selectValue payload cells c.sel3 + 4 * selectValue payload cells c.sel2 + 2 * selectValue payload cells c.sel1 +
    selectValue payload cells c.sel0) c.tt

/-- The cells' outputs after n rounds: right for every chain of at most n cells. -/
def Glaze.cellValues (g : Glaze) (payload : Word) : Nat → Nat
  | 0 => 0
  | n + 1 =>
    let v := g.cellValues payload n
    g.cells.cells.foldl (fun acc c => if c.1 < 512 && c.2.value payload v then acc ||| 2 ^ c.1 else acc) 0

/-- The output payload. No chain is longer than the number of cells: selections form no cycle (R41), and R257 bounds only the chains
that begin at an input bit. -/
def Glaze.decode (g : Glaze) (payload : Word) : Word :=
  let v := g.cellValues payload g.cells.cells.length
  BitVec.ofNat 256 (bitmapOf 256 fun b =>
    match (g.frames.find (b / 24) [])[b % 24]? with
    | some c => v.testBit c
    | none => false)

/-! ## The pipeline (R256, R258, R259) -/

/-- `GLAZE_ACCEPT`: the head of the input enters stage 1, if that is free. -/
def execGlazeAccept (core : Nat) (s : State) : Out :=
  let g := (s.glaze core).flow s.now
  match g.inq with
  | [] => .next s
  | t :: ts =>
    if g.inUse && g.pipe.all (fun x => x.2 ≠ 0) then .next ((s.setGlaze core { g with inq := ts, pipe := g.pipe ++ [(t, 0)] }).touch core)
    else .next s

/-- What leaves the island for a token: markers and poison unchanged with their sideband (R258), data decoded, or poison after a parity
failure. -/
def State.glazeResult (s : State) (core : Nat) (t : Token) : Token :=
  let g := s.glaze core
  if t.mark || t.poison then t
  else s.glazeBad core { payload := g.decode t.payload, dom := s.domOf core }

/-- `GLAZE_OUTPUT`: the oldest token enters the output buffer from stage 4 at the end of this cycle, and with it every other stage
advances (R256). -/
def execGlazeOutput (core : Nat) (s : State) : Out :=
  let g := (s.glaze core).flow s.now
  match g.pipe with
  | [] => .next s
  | (t, age) :: ts =>
    if g.out.isNone && decide (age = 3) then
      .next ((s.setGlaze core { g with
        pipe := ts.map fun x => (x.1, x.2 + 1), pipeAt := g.pipeAt + 1, out := some (s.glazeResult core t) }).touch core)
    else .next s

/-! ## Address generators (R269 to R271) -/

def Agen.extent (g : Agen) (k : Nat) : Nat := if k ≤ g.rankm1 then bitsOf (16 * k) 16 g.ext else 1

/-- Coordinate k of an index (R269). -/
def Agen.coord (g : Agen) (off : BitVec 64) (k i : Nat) : Nat :=
  if k ≤ g.rankm1 then (bitsOf (16 * k) 16 g.org + bitsOf (16 * k) 16 off + bitsOf (16 * k) 16 g.str * i) % 2 ^ 16 else 0

/-- The request token of an index tuple. -/
def Agen.token (g : Agen) (i0 i1 i2 i3 : Nat) (off : BitVec 64) : Word :=
  BitVec.ofNat 256 (packFields [(16, g.coord off 0 i0), (16, g.coord off 1 i1), (16, g.coord off 2 i2), (16, g.coord off 3 i3), (12, g.tid)])

/-- The sweep after an index tuple, i0 fastest. -/
def Agen.advance (g : Agen) (i0 i1 i2 i3 : Nat) (off : BitVec 64) : AgenSt :=
  if i0 + 1 < g.extent 0 then .sweep (i0 + 1) i1 i2 i3 off
  else if i1 + 1 < g.extent 1 then .sweep 0 (i1 + 1) i2 i3 off
  else if i2 + 1 < g.extent 2 then .sweep 0 0 (i2 + 1) i3 off
  else if i3 + 1 < g.extent 3 then .sweep 0 0 0 (i3 + 1) off
  else .idle

/-- It may emit: in use, enabled, not cut, its output buffer empty. -/
def State.agenOpen (s : State) (n : Nat) : Bool :=
  let g := s.agen n
  g.valid && (s.info (n / 4)).enabled && g.gate ≠ 2 && g.out.isNone

/-- Emits a token with the region's domain; a marker cuts an armed generator (R271). -/
def State.agenPut (s : State) (n : Nat) (g : Agen) (t : Token) : State :=
  (s.setAgen n { g with out := some { t with dom := s.domOf (n / 4) }, gate := if t.mark && g.gate = 1 then 2 else g.gate }).touch (n / 4)

/-- `AGEN_SWEEP_START` (R270). -/
def execAgenSweepStart (agen : Nat) (s : State) : Out :=
  let g := s.agen agen
  if g.valid && (s.info (agen / 4)).enabled && g.gate ≠ 2 && !g.trig && !g.swept && decide (g.st = .idle) then
    .next ((s.setAgen agen { g with st := .sweep 0 0 0 0 0, swept := true }).touch (agen / 4))
  else .next s

/-- `AGEN_TRIGGER` (R270): a foreign token counts as poison (spec/09 R267). -/
def execAgenTrigger (agen : Nat) (s : State) : Out :=
  let g := s.agen agen
  let core := agen / 4
  match g.trigq with
  | [] => .next s
  | t :: ts =>
    if !(g.valid && g.trig && (s.info core).enabled && g.gate ≠ 2 && decide (g.st = .idle)) then .next s
    else
      let t : Token := if !t.foreign (s.domOf core) then t else
        { payload := s.record Cause.protection (s.coreOrigin 3 core (agen % 4)) 0, poison := true }
      let g' := { g with trigq := ts }
      if t.mark || t.poison then (if g.out.isNone then .next (s.agenPut agen g' t) else .next s)
      else .next ((s.setAgen agen { g' with st := .sweep 0 0 0 0 (t.payload.setWidth 64) }).touch core)

/-- `AGEN_EMIT`: the next request token, or END after a single sweep. -/
def execAgenEmit (agen : Nat) (s : State) : Out :=
  let g := s.agen agen
  if !s.agenOpen agen then .next s
  else match g.st with
    | .sweep i0 i1 i2 i3 off => .next (s.agenPut agen { g with st := g.advance i0 i1 i2 i3 off } { payload := g.token i0 i1 i2 i3 off })
    | .idle =>
      if !g.trig && g.swept && !g.ended then .next (s.agenPut agen { g with ended := true } { payload := 0xFFFF, mark := true })
      else .next s

/-- A gating request arms an open generator (R271). -/
def Agen.arm (g : Agen) : Agen := if g.valid && g.gate = 0 then { g with gate := 1 } else g

/-- Active for the quiescence tree: its single sweep is unfinished until its END has been emitted (R271). -/
def Agen.active (g : Agen) : Bool :=
  g.valid && (decide (g.st ≠ .idle) || g.out.isSome || !g.trigq.isEmpty || (!g.trig && !g.ended))

end Sys2Proof.Machine
end

