-- ==== Sys2Proof/Machine/Operators.lean ====
section
/-! DEFINITION. The control operators in the operator slots of the routers (spec/07 R204 to R217). -/
namespace Sys2Proof.Machine

namespace OpSlot
/-- The token at the head of an input. -/
def head (o : OpSlot) (n : Nat) : Option Token := (o.ins.find n []).head?
/-- A data token stands at the head of an input; poison counts as data (R210). -/
def data (o : OpSlot) (n : Nat) : Option Token := match o.head n with | some t => if t.mark then none else some t | none => none
/-- A marker stands at the head of an input. -/
def marker (o : OpSlot) (n : Nat) : Bool := match o.head n with | some t => t.mark | none => false
def pop (o : OpSlot) (n : Nat) : OpSlot := { o with ins := o.ins.put n (o.ins.find n []).tail [] }
/-- An output buffer is empty. -/
def free (o : OpSlot) (n : Nat) : Bool := (o.outs.find n none).isNone
def put (o : OpSlot) (n : Nat) (t : Token) : OpSlot := { o with outs := o.outs.put n (some t) none }

/-- The inputs an operator has (R204). -/
def inputs (o : OpSlot) : List Nat :=
  match o.opc with
  | 1 | 4 | 9 | 10 => [0, 1]
  | 2 | 3 => [0, 1, 2]
  | 7 => (List.range 4).filter fun k => o.param.testBit k
  | _ => [0]

/-- The outputs an operator has (R204). -/
def outputs (o : OpSlot) : List Nat :=
  match o.opc with
  | 1 => [0, 1]
  | 6 => List.range (o.nout + 1)
  | 8 => if o.param.testBit 0 then [0] else []
  | _ => [0]

/-- A control token's test, inverted by `INV` (R206). -/
def test (o : OpSlot) (t : Token) : Bool := xor (decide (t.payload.toNat % 2 ^ 32 ≠ 0)) (o.param.testBit 0)

/-- No realignment is in progress and no marker waits to follow a poison token. -/
def steady (o : OpSlot) : Bool := !o.realign && o.follow.isNone

/-- The slot holds this operator and may fire. -/
def fires (o : OpSlot) (opc : Nat) : Bool := o.used && decide (o.opc = opc) && o.steady
end OpSlot

/-- A token that an operator emits carries the region's domain (R208). -/
def State.opToken (s : State) (r : Nat) (t : Token) : Token := { t with dom := s.domOf (coreOfRouter r) }

/-- Posts the record of a consumed token, if it is poison, to the core's trap port (R210, R192). -/
def State.postIf (s : State) (r : Nat) (t : Token) : State := if t.poison then s.corePost (coreOfRouter r) t.payload else s

/-- Posts a consumed token's record unless it is the one that is emitted (R210). -/
def State.postUnless (s : State) (r : Nat) (emitted t : Token) : State := if t.payload = emitted.payload then s else s.postIf r t

/-- Writes back a slot after a firing. -/
def State.fired (s : State) (r k : Nat) (o : OpSlot) : State := (s.setOpSlot r k o).touch (coreOfRouter r)

/-- A poison token with a record. -/
def poisonToken (w : Word) : Token := { payload := w, poison := true }

/-! ## Stateless operators (R209, R210) -/

def execPassFiring (router : Nat) (slot : Nat) (s : State) : Out :=
  let o := s.opSlot router slot
  match o.data 0 with
  | some t => if o.fires 0 && o.free 0 then .next (s.fired router slot ((o.pop 0).put 0 (s.opToken router t))) else .next s
  | none => .next s

def execSteerFiring (router : Nat) (slot : Nat) (s : State) : Out :=
  let o := s.opSlot router slot
  match o.data 0, o.data 1 with
  | some c, some t =>
    if !o.fires 1 then .next s
    else if c.poison then
      if o.free 0 && o.free 1 then
        let x := s.opToken router c
        .next ((s.fired router slot ((((o.pop 0).pop 1).put 0 x).put 1 x)).postUnless router c t)
      else .next s
    else
      let n := if o.test c then 0 else 1
      if o.free n then .next (s.fired router slot (((o.pop 0).pop 1).put n (s.opToken router t))) else .next s
  | _, _ => .next s

def execMergeFiring (router : Nat) (slot : Nat) (s : State) : Out :=
  let o := s.opSlot router slot
  if !(o.fires 2 && o.free 0) then .next s
  else match o.data 0 with
    | none => .next s
    | some c =>
      if c.poison then
        match o.data 1, o.data 2 with
        | some t, some f =>
          .next (((s.fired router slot ((((o.pop 0).pop 1).pop 2).put 0 (s.opToken router c))).postUnless router c t).postUnless router c f)
        | _, _ => .next s
      else
        let n := if o.test c then 1 else 2
        match o.data n with
        | some t => .next (s.fired router slot (((o.pop 0).pop n).put 0 (s.opToken router t)))
        | none => .next s

def execForkFiring (router : Nat) (slot : Nat) (s : State) : Out :=
  let o := s.opSlot router slot
  match o.data 0 with
  | some t =>
    if o.fires 6 && o.outputs.all o.free then
      .next (s.fired router slot (o.outputs.foldl (fun o n => o.put n (s.opToken router t)) (o.pop 0)))
    else .next s
  | none => .next s

/-- `JOIN` emits the token of input 0, or the poison token of the lowest-numbered input that has one. -/
def execJoinFiring (router : Nat) (slot : Nat) (s : State) : Out :=
  let o := s.opSlot router slot
  if o.fires 7 && o.free 0 && o.inputs.all (fun n => (o.data n).isSome) then
    let ts := o.inputs.map fun n => (o.data n).getD {}
    let o' := o.inputs.foldl OpSlot.pop o
    match ts.find? (fun t => t.poison) with
    | some p => .next (ts.foldl (fun s t => s.postUnless router p t) (s.fired router slot (o'.put 0 (s.opToken router p))))
    | none => .next (s.fired router slot (o'.put 0 (s.opToken router (ts.headD {}))))
  else .next s

def execGateFiring (router : Nat) (slot : Nat) (s : State) : Out :=
  let o := s.opSlot router slot
  match o.data 0 with
  | none => .next s
  | some c =>
    if !o.fires 9 then .next s
    else if !c.poison && !o.test c then .next (s.fired router slot (o.pop 0))
    else match o.data 1 with
      | some t =>
        if o.free 0 then
          let o' := (o.pop 0).pop 1
          if c.poison then .next ((s.fired router slot (o'.put 0 (s.opToken router c))).postUnless router c t)
          else .next (s.fired router slot (o'.put 0 (s.opToken router t)))
        else .next s
      | none => .next s

def execFilterFiring (router : Nat) (slot : Nat) (s : State) : Out :=
  let o := s.opSlot router slot
  match o.data 0, o.data 1 with
  | some c, some t =>
    if !o.fires 10 then .next s
    else
      let o' := (o.pop 0).pop 1
      if c.poison then
        if o.free 0 then .next ((s.fired router slot (o'.put 0 (s.opToken router c))).postUnless router c t) else .next s
      else if o.test c then
        if o.free 0 then .next (s.fired router slot (o'.put 0 (s.opToken router t))) else .next s
      else .next ((s.fired router slot o').postIf router t)
  | _, _ => .next s

/-! ## Markers of stateless operators (R211) -/

def stateless (opc : Nat) : Bool := [0, 1, 2, 6, 7, 9, 10].contains opc

/-- The operator is misaligned. -/
def OpSlot.misaligned (o : OpSlot) : Bool :=
  let d := fun n => (o.data n).isSome
  match o.opc with
  | 1 | 10 => (o.marker 0 && d 1) || (d 0 && o.marker 1)
  | 7 => o.inputs.any o.marker && o.inputs.any d
  | 2 =>
    match o.data 0 with
    | some c => if c.poison then o.marker 1 || o.marker 2 else o.marker (if o.test c then 1 else 2)
    | none => o.marker 0 && (d 1 || d 2)
  | 9 =>
    match o.data 0 with
    | some c => (c.poison || o.test c) && o.marker 1
    | none => o.marker 0 && d 1
  | _ => false

/-- The RATE_MISMATCH poison of an operator: which inputs have lost tokens, and whether marker values differed (R212). -/
def State.opMismatch (s : State) (r k discards : Nat) (differ : Bool) : Token :=
  s.opToken r (poisonToken (s.opRecord r k Cause.rateMismatch (2 ^ 8 * discards + if differ then 2 ^ 12 else 0)))

/-- Emits one token on every output. -/
def OpSlot.emitAll (o : OpSlot) (t : Token) : OpSlot := o.outputs.foldl (fun o n => o.put n t) o

def markerToken (v : Nat) : Token := { payload := BitVec.ofNat 256 v, mark := true }

/-- `OPERATOR_MARKER_FIRING`: all inputs hold markers; or the marker that follows a RATE_MISMATCH leaves. An operator that has realigned and whose markers
differ emits one RATE_MISMATCH for both (log entry 29). -/
def execOperatorMarkerFiring (router : Nat) (slot : Nat) (s : State) : Out :=
  let o := s.opSlot router slot
  if o.used && stateless o.opc && o.outputs.all o.free then
    match o.follow with
    | some m => .next (s.fired router slot { o.emitAll m with follow := none, realign := false, discards := 0 })
    | none =>
      if o.inputs.all o.marker then
        let vs := o.inputs.map fun n => ((o.head n).getD {}).payload.toNat % 2 ^ 16
        let differ := !(match vs with | [] => true | x :: xs => xs.all (· = x))
        let m := s.opToken router (markerToken (vs.foldl Nat.max 0))
        let o' := o.inputs.foldl OpSlot.pop o
        if differ || o.realign then
          .next (s.fired router slot { o'.emitAll (s.opMismatch router slot o.discards differ) with follow := some m })
        else .next (s.fired router slot (o'.emitAll m))
      else .next s
  else .next s

/-- `OPERATOR_REALIGN_DISCARD`: one data token at the head of each input is discarded. -/
def execOperatorRealignDiscard (router : Nat) (slot : Nat) (s : State) : Out :=
  let o := s.opSlot router slot
  if o.used && stateless o.opc && o.follow.isNone && (o.realign || o.misaligned) then
    let ns := o.inputs.filter fun n => (o.data n).isSome
    let o' := { ns.foldl OpSlot.pop o with realign := true, discards := ns.foldl (fun m n => m ||| 2 ^ n) o.discards }
    let s' := ns.foldl (fun s n => s.postIf router ((o.data n).getD {})) (s.setOpSlot router slot o')
    .next (if ns = [] then s' else s'.touch (coreOfRouter router))
  else .next s

/-! ## CARRY (R213) -/

/-- In `MWAIT` the first discard of a stay posts one RATE_MISMATCH record, and a discarded poison token its own. -/
def State.waitDiscard (s : State) (r k n : Nat) (o : OpSlot) (t : Token) (posted : Bool) : State :=
  let s' := s.fired r k (o.pop n)
  let s' := if posted then s' else s'.corePost (coreOfRouter r) (s.opRecord r k Cause.rateMismatch (2 ^ 8 * 2 ^ n))
  s'.postIf r t

def execCarryFiring (router : Nat) (slot : Nat) (s : State) : Out :=
  let o := s.opSlot router slot
  if !o.fires 3 then .next s
  else match o.st with
  | .carryLoop =>
    match o.head 1, o.head 2 with
    | some c, b =>
      if c.mark then .next (s.fired router slot { o with st := .carryDrain false false })
      else if c.poison then
        match b with
        | some b => .next (((s.fired router slot { (o.pop 1).pop 2 with st := .carryInit }).postIf router c).postIf router b)
        | none => .next s
      else if o.test c then
        match b with
        | some b =>
          if b.mark then .next (s.fired router slot { o with st := .carryDrain false false })
          else if o.free 0 then .next (s.fired router slot (((o.pop 1).pop 2).put 0 (s.opToken router b)))
          else .next s
        | none => .next s
      else .next (s.fired router slot { o.pop 1 with st := .carryInit })
    | none, some b => if b.mark then .next (s.fired router slot { o with st := .carryDrain false false }) else .next s
    | none, none => .next s
  | .carryDrain cd bd =>
    if cd && bd then
      if o.free 0 then
        .next (s.fired router slot { o.put 0 (s.opMismatch router slot o.discards false) with st := .carryInit, discards := 0 })
      else .next s
    else
      let n := if !cd && (o.head 1).isSome then 1 else 2
      if n = 2 ∧ bd then .next s
      else match o.head n with
        | some t =>
          let st := if n = 1 then OpSt.carryDrain t.mark bd else OpSt.carryDrain cd t.mark
          .next ((s.fired router slot { o.pop n with st, discards := o.discards ||| 2 ^ n }).postIf router t)
        | none => .next s
  | .carryWait posted =>
    if o.marker 1 && o.marker 2 then .next (s.fired router slot { (o.pop 1).pop 2 with st := .carryInit })
    else match o.data 1, o.data 2 with
      | some t, _ => .next (s.waitDiscard router slot 1 { o with st := .carryWait true } t posted)
      | none, some t => .next (s.waitDiscard router slot 2 { o with st := .carryWait true } t posted)
      | none, none => .next s
  | _ =>
    match o.head 0 with
    | some t =>
      if o.free 0 then
        .next (s.fired router slot { (o.pop 0).put 0 (s.opToken router t) with st := if t.mark then .carryWait false else .carryLoop })
      else .next s
    | none => .next s

/-! ## IREP (R214) -/

/-- A latched poison token that was never emitted is posted when the latch is cleared. -/
def State.clearLatch (s : State) (r : Nat) (latch : Token) (emitted : Bool) : State := if emitted then s else s.postIf r latch

def execIrepFiring (router : Nat) (slot : Nat) (s : State) : Out :=
  let o := s.opSlot router slot
  if !(o.used && decide (o.opc = 4)) then .next s
  else match o.follow with
  | some m => if o.free 0 then .next (s.fired router slot { o.put 0 m with follow := none }) else .next s
  | none =>
    match o.st with
    | .irepHold latch emitted =>
      match o.head 1 with
      | none => .next s
      | some c =>
        if c.mark then .next ((s.fired router slot { o with st := .irepDrain }).clearLatch router latch emitted)
        else if c.poison || !o.test c then
          .next (((s.fired router slot { o.pop 1 with st := .irepEmpty }).postIf router c).clearLatch router latch emitted)
        else if o.free 0 then
          .next (s.fired router slot { (o.pop 1).put 0 (s.opToken router latch) with st := .irepHold latch true })
        else .next s
    | .irepDrain =>
      match o.head 0 with
      | none => .next s
      | some t =>
        if t.mark then
          if o.free 0 then
            .next (s.fired router slot { ((o.pop 0).pop 1).put 0 (s.opMismatch router slot o.discards false) with
              st := .irepEmpty, discards := 0, follow := some (s.opToken router t) })
          else .next s
        else .next ((s.fired router slot { o.pop 0 with discards := 1 }).postIf router t)
    | .irepWait posted =>
      match o.head 1 with
      | none => .next s
      | some c =>
        if c.mark then .next (s.fired router slot { o.pop 1 with st := .irepEmpty })
        else .next (s.waitDiscard router slot 1 { o with st := .irepWait true } c posted)
    | _ =>
      match o.head 0 with
      | none => .next s
      | some t =>
        if t.mark then
          if o.free 0 then .next (s.fired router slot { (o.pop 0).put 0 (s.opToken router t) with st := .irepWait false }) else .next s
        else .next (s.fired router slot { o.pop 0 with st := .irepHold t false })

/-! ## LOOPGEN (R215) -/

def loopToken (b : Bool) (i : Nat) : Token :=
  { payload := BitVec.ofNat 256 (packFields [(32, if b then 0xFFFFFFFF else 0), (32, i)]) }

def execLoopgenLoad (router : Nat) (slot : Nat) (s : State) : Out :=
  let o := s.opSlot router slot
  match o.fires 5, o.st, o.head 0 with
  | true, .loopCount _ _, _ => .next s
  | true, _, some t =>
    if t.mark || t.poison then
      if o.free 0 then .next (s.fired router slot ((o.pop 0).put 0 (s.opToken router t))) else .next s
    else .next (s.fired router slot { o.pop 0 with st := .loopCount (t.payload.toNat % 2 ^ 32) 0 })
  | _, _, _ => .next s

def execLoopgenEmit (router : Nat) (slot : Nat) (s : State) : Out :=
  let o := s.opSlot router slot
  match o.fires 5 && o.free 0, o.st with
  | true, .loopCount n i =>
    if i < n then .next (s.fired router slot { o.put 0 (s.opToken router (loopToken true i)) with st := .loopCount n (i + 1) })
    else .next (s.fired router slot { o.put 0 (s.opToken router (loopToken false n)) with st := .loopIdle })
  | _, _ => .next s

/-! ## SINK and MCUT (R216, R217) -/

def execSinkFiring (router : Nat) (slot : Nat) (s : State) : Out :=
  let o := s.opSlot router slot
  match o.head 0 with
  | none => .next s
  | some t =>
    if !o.fires 8 then .next s
    else if t.mark && o.param.testBit 0 then
      if o.free 0 then .next (s.fired router slot ((o.pop 0).put 0 (s.opToken router t))) else .next s
    else .next ((s.fired router slot (o.pop 0)).postIf router t)

def execMcutPass (router : Nat) (slot : Nat) (s : State) : Out :=
  let o := s.opSlot router slot
  match o.head 0 with
  | none => .next s
  | some t =>
    if o.fires 11 && o.free 0 && decide (o.st ≠ .mcutCut) then
      let st := if t.mark && decide (o.st = .mcutArmed) then .mcutCut else o.st
      let lastMarker := if t.mark then some (t.payload.extractLsb' 0 16) else o.lastMarker
      .next (s.fired router slot { (o.pop 0).put 0 (s.opToken router t) with st, lastMarker })
    else .next s

/-- A gating request moves an MCUT from OPEN to ARMED (R217). -/
def OpSlot.arm (o : OpSlot) : OpSlot := if o.used ∧ o.opc = 11 ∧ o.st ≠ .mcutArmed ∧ o.st ≠ .mcutCut then { o with st := .mcutArmed } else o
/-- A release returns it to OPEN. -/
def OpSlot.release (o : OpSlot) : OpSlot := if o.used ∧ o.opc = 11 then { o with st := .mcutOpen } else o
/-- A kill puts it into CUT at once (spec/14 R410). -/
def OpSlot.cut (o : OpSlot) : OpSlot := if o.used ∧ o.opc = 11 then { o with st := .mcutCut } else o

/-- The load state of an operator (R213 to R217). -/
def loadState (opc : Nat) : OpSt :=
  match opc with | 3 => .carryInit | 4 => .irepEmpty | 5 => .loopIdle | 11 => .mcutOpen | _ => .stateless

/-- The operator is active (R219): a token in a buffer, realigning, or not in its load state; an MCUT in CUT is active only through its buffers. So
is one in ARMED that last passed END: no marker will cut it, and its part must come to rest (spec/13 R384 judges such an MCUT; log entry 104). -/
def OpSlot.active (o : OpSlot) : Bool :=
  o.used && (o.realign || o.follow.isSome || !o.ins.cells.isEmpty || !o.outs.cells.isEmpty ||
    (decide (o.st ≠ loadState o.opc) && decide (o.st ≠ .mcutCut) && !(decide (o.st = .mcutArmed) && decide (o.lastMarker = some 0xFFFF))))

end Sys2Proof.Machine
end

