-- ==== Sys2Proof/Machine/Images.lean ====
section
/-! DEFINITION. Configuration frames: their fields, the checks on one frame, writing a frame into its elements, and the checks
between frames (spec/01 R28 to R48, spec/07 R198 to R205, R218, spec/08 R222, spec/09 R254, R257, spec/10 R279, spec/11 R314). -/
namespace Sys2Proof.Machine

/-! ## Frames (R28, R30) -/

structure Frm where
  kind : Nat
  core : Nat
  elem : Nat
  index : Nat
  flags : Nat
  pay : Nat
deriving DecidableEq, Repr

def Frm.ofWord (w : Word) : Frm :=
  { kind := bitsOf 252 4 w, core := bitsOf 244 8 w, elem := bitsOf 240 4 w, index := bitsOf 232 8 w, flags := bitsOf 224 8 w, pay := bitsOf 0 224 w }

/-- A field of the payload. -/
def Frm.f (x : Frm) (lo n : Nat) : Nat := fieldNat lo n x.pay
def Frm.bit (x : Frm) (k : Nat) : Bool := x.pay.testBit k

def Frm.isEnd (x : Frm) (index : Nat) : Bool := decide (x.kind = 15) && decide (x.index = index)

/-- The task slot of a TASKTABLE frame (R32, spec/03 R92). -/
def Frm.task (x : Frm) : Task :=
  { valid := x.bit 223, entry := BitVec.ofNat 8 (x.f 215 8), prio := x.f 213 2, lanecfg := x.f 211 2, vc := x.f 209 2
    ports := foldUp 12 {} fun m p =>
      m.put p (if x.bit (14 * p + 13) then { declared := true, handle := x.f (14 * p + 8) 5, count := x.f (14 * p) 8 } else {}) {}
    st := if x.bit 223 then .idle else .empty, pc := BitVec.ofNat 8 (x.f 215 8) }

/-- The declared ports of a task. -/
def Task.declared (t : Task) : List (Nat × Port) := ((List.range 12).map fun p => (p, t.port p)).filter fun q => q.2.declared

/-- Route e of a route page (R37). -/
def Frm.route (x : Frm) (e : Nat) : Route :=
  { valid := x.bit (28 * e + 27), inp := x.f (28 * e + 24) 3, invc := x.f (28 * e + 22) 2, inh := x.f (28 * e + 17) 5
    outp := x.f (28 * e + 14) 3, outvc := x.f (28 * e + 12) 2, outh := x.f (28 * e + 7) 5 }

/-- The operator slot of a SWITCH frame, in its load state (R35). -/
def Frm.opSlot (x : Frm) : OpSlot := { used := true, opc := x.f 220 4, nout := x.f 218 2, param := x.f 202 16, st := loadState (x.f 220 4) }

/-- The bits of `PARAM` that an operator defines (spec/07 R205). -/
def paramBits (opc : Nat) : Nat := match opc with | 1 | 2 | 8 | 9 | 10 => 1 | 7 => 15 | _ => 0

/-- The address generator of an AGEN frame (R40). -/
def Frm.agen (x : Frm) : Agen :=
  { valid := true, tid := x.f 212 12, rankm1 := x.f 210 2, ext := BitVec.ofNat 64 (x.f 146 64), str := BitVec.ofNat 64 (x.f 82 64)
    org := BitVec.ofNat 64 (x.f 18 64) }

/-- The pool tensor of a TENSOR frame (R44). -/
def Frm.tensor (x : Frm) : PoolTensor :=
  { valid := true, rankm1 := x.f 210 2, fmt := x.f 205 5, acc := x.bit 204, addr := x.f 185 19, ext0 := x.f 121 16, ext1 := x.f 137 16
    ext2 := x.f 153 16, ext3 := x.f 169 16, tile0 := x.f 105 16, tile1 := x.f 89 16 }

/-- Cell k of a GLAZE cell frame (R41). -/
def Frm.cell (x : Frm) (k : Nat) : GlazeCell :=
  { tt := BitVec.ofNat 16 (x.f (208 - 56 * k) 16), sel3 := x.f (198 - 56 * k) 10, sel2 := x.f (188 - 56 * k) 10, sel1 := x.f (178 - 56 * k) 10
    sel0 := x.f (168 - 56 * k) 10 }

/-! ## The checks on one frame (R30 to R44) -/

/-- The other end of a link of a router in its granule: granule core and element (spec/07 R198). -/
def linkEnd (gcore elem dir : Nat) : Option (Nat × Nat) :=
  let x := 4 * (gcore % 2) + elem % 4
  let y := 4 * (gcore / 2) + elem / 4
  match dir with
  | 0 => if y = 0 then none else some (gcore % 2 + 2 * ((y - 1) / 4), 4 * ((y - 1) % 4) + x % 4)
  | 1 => if x = 7 then none else some ((x + 1) / 4 + 2 * (gcore / 2), 4 * (y % 4) + (x + 1) % 4)
  | 2 => if y = 7 then none else some (gcore % 2 + 2 * ((y + 1) / 4), 4 * ((y + 1) % 4) + x % 4)
  | _ => if x = 0 then none else some ((x - 1) / 4 + 2 * (gcore / 2), 4 * (y % 4) + (x - 1) % 4)

/-- `ELEM` and `INDEX` lie in the kind's range (R30). -/
def Frm.inRange (x : Frm) : Bool :=
  match x.kind with
  | 1 => decide (x.index < 128)
  | 2 => decide (x.index < 8)
  | 3 => decide (x.index < 2) || (decide (0x10 ≤ x.index) && decide (x.index < 0x18))
  | 4 | 5 => decide (x.elem < 4) && decide (x.index = 0)
  | 6 => decide (x.elem = 0) && decide (x.index ≤ 0x8A)
  | 7 => decide (x.index < 32)
  | 8 => decide (x.elem = 0) && decide (x.index = 0)
  | 9 => (decide (x.elem = 0) && decide (x.index < 16)) || ((decide (x.elem = 4) || decide (x.elem = 5)) && decide (x.index < 32))
  | 10 => decide (x.elem = 0)
  | 15 => decide (x.elem = 0) && decide (x.index < 2) && decide (x.core = 0)
  | _ => false

/-- A port of a route that exists on no router at that place, whatever else the image holds (spec/07 R198, R201, R203). -/
def portNever (gcore elem port vc h : Nat) (out : Bool) : Bool :=
  match port with
  | 0 | 1 | 2 | 3 => h ≠ 0 || (linkEnd gcore elem port).isNone
  | 4 => false
  | 5 | 6 => decide (4 ≤ h)
  | _ => vc ≠ 0 || decide (4 ≤ elem) || decide ((if out then 6 else 4) ≤ h)

/-- Two routes of a list share an input or an output (R38). -/
def routesClash (rs : List Route) : Bool :=
  !distinct (rs.map fun r => (r.inp, r.invc, r.inh)) || !distinct (rs.map fun r => (r.outp, r.outvc, r.outh))

/-- The valid routes of a page. -/
def Frm.routes (x : Frm) : List Route := ((List.range 8).map x.route).filter Route.valid

/-- The payload breaks a rule that concerns this frame alone. -/
def Frm.badPayload (x : Frm) : Bool :=
  match x.kind with
  | 1 => false
  | 2 =>
    let ps := x.task.declared
    x.f 168 41 ≠ 0 || x.f 211 2 = 3 || (x.bit 223 && (ps.any (fun p => p.2.count = 0) || !distinct (ps.map fun p => p.2.handle)))
  | 3 =>
    if x.index < 2 then
      x.f 0 202 ≠ 0 || decide (12 ≤ x.f 220 4) || !(decide (x.f 218 2 ≠ 0) == decide (x.f 220 4 = 6)) ||
        (firstBelow 16 fun k => x.bit (202 + k) && !(paramBits (x.f 220 4)).testBit k).isSome || (x.f 220 4 = 7 && !x.bit 202)
    else
      ((List.range 8).any fun e => x.f (28 * e) 7 ≠ 0) || routesClash x.routes ||
        x.routes.any fun r => portNever (x.core % 4) x.elem r.inp r.invc r.inh false || portNever (x.core % 4) x.elem r.outp r.outvc r.outh true
  | 4 => x.f 0 215 ≠ 0 || x.f 221 2 = 3
  | 5 =>
    x.f 0 18 ≠ 0 || (List.range 4).any fun k =>
      if k ≤ x.f 210 2 then x.f (16 * k + 146) 16 = 0
      else x.f (16 * k + 146) 16 ≠ 0 || x.f (16 * k + 82) 16 ≠ 0 || x.f (16 * k + 18) 16 ≠ 0
  | 6 =>
    if x.index < 0x80 then (List.range 4).any fun k => let c := x.cell k; [c.sel3, c.sel2, c.sel1, c.sel0].any fun v => decide (770 ≤ v)
    else x.f 0 8 ≠ 0 || (x.index = 0x8A && x.f 0 80 ≠ 0)
  | 7 => x.f 0 206 ≠ 0 || decide (256 < x.f 215 8 + x.f 207 8 + 1)
  | 8 => x.f 0 218 ≠ 0 || x.f 222 2 = 3 || decide (12 < x.f 218 4)
  | 9 => x.f 0 209 ≠ 0 || (x.elem = 0 && x.f 221 2 ≠ 1) || (x.elem ≠ 0 && x.f 209 6 ≠ 0)
  | 10 => x.f 0 89 ≠ 0 || decide (15 ≤ x.f 205 5) || x.f 185 5 ≠ 0 || (List.range 4).any fun k => decide (k ≤ x.f 210 2) && x.f (16 * k + 121) 16 = 0
  | _ => x.index = 1 && x.f 0 160 ≠ 0

/-- BAD_FRAME for one frame alone. -/
def Frm.bad (x : Frm) : Bool := !x.inRange || (if x.kind = 1 then decide (4 ≤ x.flags) else x.flags ≠ 0) || x.badPayload

/-! ## Places of a region (R28, R29) -/

/-- The granules of block b of a region. -/
def blockOf (gs : List Nat) (b : Nat) : List Nat := (gs.drop (64 * b)).take 64

/-- The physical core of core c of a block. -/
def coreIn (block : List Nat) (c : Nat) : Option Nat := (block[c / 4]?).bind fun g => (coresOfGranule g)[c % 4]?

/-- The granule of a Comet graph port that an ISLANDPORT frame names, for a core of a cluster (R43, spec/10 R278). -/
def graphGranule (cl elem index : Nat) : Nat := 4 * cl + 2 * (elem - 4) + index / 16

/-- The number of that port. -/
def graphPortNum (index : Nat) : Nat := if index < 16 then index else 200 + index

/-- BAD_TARGET for one frame in a region (R46). -/
def Frm.badTarget (x : Frm) (gs : List Nat) : Bool :=
  if x.kind = 15 then false
  else decide (Nat.min 256 (4 * gs.length) ≤ x.core) ||
    (x.kind = 9 && (List.range 8).any fun b =>
      let block := blockOf gs b
      match coreIn block x.core with
      | none => false
      | some c =>
        if x.elem = 0 then (block[x.f 209 6]?).elim true fun g => decide (g / 4 ≠ c / 16)
        else !gs.contains (graphGranule (c / 16) x.elem x.index))

/-! ## Writing frames (R48) -/

/-- An island port of a router (R43). -/
def State.attach (s : State) (core : Nat) (block : List Nat) (dom disp : Nat) (x : Frm) : State :=
  let r := 16 * core + x.f 217 4
  let kind := x.f 221 2
  if x.elem = 0 then
    s.setIslandAt r (x.f 215 2) { attached := true, island := (block[x.f 209 6]?).getD 0, port := x.index, pkind := kind }
  else
    let comet := 2 * (core / 16) + (x.elem - 4)
    let p := graphPortNum x.index
    (s.setIslandAt r (x.f 215 2) { attached := true, comet := true, island := comet, port := p, pkind := kind }).setCometPort comet p
      { attached := true, pkind := kind, router := r, dom, disp }

/-- Writes one frame into a core of a block. -/
def State.writeFrame (s : State) (core : Nat) (block : List Nat) (dom disp : Nat) (x : Frm) : State :=
  let e := 16 * core + x.elem
  match x.kind with
  | 1 =>
    (s.setEntry e (2 * x.index) { word := BitVec.ofNat 112 (x.f 112 112), literal := x.flags.testBit 0 }).setEntry e (2 * x.index + 1)
      { word := BitVec.ofNat 112 (x.f 0 112), literal := x.flags.testBit 1 }
  | 2 => s.setTask e x.index x.task
  | 3 =>
    if x.index < 2 then s.setOpSlot e x.index x.opSlot
    else foldUp 8 s fun s k => s.setRoute e (8 * (x.index - 0x10) + k) (if x.bit (28 * k + 27) then x.route k else {})
  | 4 =>
    let mode : NodeMode := match x.f 221 2 with | 0 => .stream | 1 => .random | _ => .ordered
    s.setNode (4 * core + x.elem) (if x.bit 223 then { valid := true, mode, maxOut := x.f 215 6 + 1 } else {})
  | 5 => s.setAgen (4 * core + x.elem) x.agen
  | 6 =>
    let g := s.glaze core
    if x.index < 0x80 then s.setGlaze core { g with inUse := true, cells := foldUp 4 g.cells fun m k => m.put (4 * x.index + k) (x.cell k) {} }
    else s.setGlaze core { g with inUse := true, frames := g.frames.put (x.index - 0x80) ((List.range 24).map fun k => x.f (215 - 9 * k) 9) [] }
  | 7 =>
    s.setHandle e x.index (if x.bit 223 then { valid := true, base := x.f 215 8, cntm1 := x.f 207 8, output := x.bit 206 } else {})
  | 8 => s.setInfo core { s.info core with regs := x.f 222 2, acc := x.f 218 4 }
  | 9 => if x.bit 223 then s.attach core block dom disp x else s
  | 10 => s.setTensor core (x.f 212 12) x.tensor
  | _ => s

/-- Notes for each generator of a core whether a route joins its `trig` (spec/10 R270). -/
def State.noteTrigs (s : State) (core : Nat) : State :=
  foldUp 4 s fun s k =>
    let g := s.agen (4 * core + k)
    if g.valid then
      s.setAgen (4 * core + k) { g with trig :=
        (firstBelow 64 fun e => let t := s.route (16 * core + k) e; t.valid && decide (t.outp = 7) && decide (t.outh = 5)).isSome }
    else s

/-- Writes an image into one core of a block. -/
def State.writeCore (s : State) (core : Nat) (block : List Nat) (c dom disp : Nat) (xs : List Frm) : State :=
  ((xs.filter fun x => decide (x.core = c) && decide (x.kind ≠ 15)).foldl (fun s x => s.writeFrame core block dom disp x) s).noteTrigs core

/-- Writes an image into those cores of a region for which `p` holds of their granule. -/
def State.writeImage (s : State) (gs : List Nat) (p : Nat → Bool) (dom disp : Nat) (xs : List Frm) : State :=
  foldUp (4 * gs.length) s fun s c =>
    let block := blockOf gs (c / 256)
    match coreIn block (c % 256) with
    | some core => if p ((gs[c / 4]?).getD 0) then s.writeCore core block (c % 256) dom disp xs else s
    | none => s

/-! ## Source channels (spec/07 R218, spec/13 R385) -/

inductive Producer where
  | agen (n : Nat) | node (n : Nat) | comet (comet port : Nat)
deriving DecidableEq, Repr

/-- The route of a router that leaves at an output. -/
def State.routeTo (s : State) (r outp : Nat) (outvc : Option Nat) (outh : Nat) : Option Route :=
  (firstBelow 64 fun e => let t := s.route r e
    t.valid && decide (t.outp = outp) && decide (t.outh = outh) && (outvc.elim true fun v => decide (t.outvc = v))).map (s.route r)

/-- Follows routes back from an output: the producer, and the link buffers on the way, the nearest first, as router, direction and
channel. -/
def State.traceBack (s : State) (r outp : Nat) (outvc : Option Nat) (outh : Nat) : Nat → Option (Producer × List (Nat × Nat × Nat))
  | 0 => none
  | fuel + 1 =>
    match s.routeTo r outp outvc outh with
    | none => none
    | some t =>
      if t.inp < 4 then
        match neighbour r t.inp with
        | none => none
        | some q => (s.traceBack q ((t.inp + 2) % 4) (some t.invc) 0 fuel).map fun x => (x.1, (r, t.inp, t.invc) :: x.2)
      else if t.inp = 7 then
        if t.inh = 0 then some (.node (elementOf r), []) else if t.inh = 3 then some (.agen (elementOf r), []) else none
      else if t.inp = 4 then
        let p := s.islandAt r t.invc
        if p.attached && p.comet && decide (p.pkind = 3) then some (.comet p.island p.port, []) else none
      else none

/-- More steps than a chain of routes can take: a granule has 64 routers with 16 link buffers each, and no two routes share one (R38). -/
def chainBound : Nat := 1026

/-- The channel that feeds the request input of a producer; none if the producer has no request input. -/
def State.requestBack (s : State) (p : Producer) : Option (Option (Producer × List (Nat × Nat × Nat))) :=
  match p with
  | .agen _ => none
  | .node n => some (s.traceBack (16 * (n / 4) + n % 4) 7 none 0 chainBound)
  | .comet cm k =>
    let q := s.cometPort cm (k - 1)
    let vc := (firstBelow 4 fun v => let i := s.islandAt q.router v
      i.attached && i.comet && decide (i.island = cm) && decide (i.port = k - 1)).getD 0
    some (s.traceBack q.router 4 (some vc) 0 chainBound)

/-- The tokens that a producer may hold for its channel (R218). -/
def State.producerTerm (s : State) (p : Producer) : Nat := match p with | .agen _ => 1 | .node n => (s.node n).maxOut | .comet _ _ => 16

/-- The `in` of an MCUT is a source channel of at most 64 tokens (R218). -/
def State.sourceOk (s : State) (r k : Nat) : Bool :=
  match s.traceBack r (5 + k) none 0 64 with
  | none => false
  | some (p, links) =>
    decide (s.producerTerm p + 4 * links.length + 2 ≤ 64) &&
      match s.requestBack p with
      | none => true
      | some (some (.agen _, _)) => true
      | _ => false

/-! ## The checks between frames (R47) -/

/-- The task of a PE that declares a handle. -/
def State.owner (s : State) (pe h : Nat) : Option Nat := firstBelow 8 fun t => (s.task pe t).valid && ((s.task pe t).portOf h).isSome

/-- The tasks and channels of one PE (R33, R34). -/
def State.peOk (s : State) (pe : Nat) : Bool :=
  let ts := ((List.range 8).map (s.task pe)).filter Task.valid
  let hs := ((List.range 32).map (s.handle pe)).filter Handle.valid
  distinct (ts.flatMap fun t => t.declared.map fun p => p.2.handle) &&
    (ts.all fun t => t.declared.all fun p => let h := s.handle pe p.2.handle
      h.valid && (h.output == decide (6 ≤ p.1)) && decide (p.2.count ≤ h.cntm1 + 1)) &&
    distinct (hs.flatMap fun h => (List.range (h.cntm1 + 1)).map (h.base + ·))

/-- An end of a route names a port that exists (R38, spec/07 R201 to R204, spec/09 R254). -/
def State.portExists (s : State) (r port vc h : Nat) (out : Bool) : Bool :=
  let core := r / 16
  match port with
  | 0 | 1 | 2 | 3 => decide (h = 0) && (neighbour r port).isSome
  | 4 =>
    let i := s.islandAt r vc
    if i.attached then decide (h = 0) && (decide (i.pkind % 2 = 0) == out)
    else if s.glazeAt r vc && decide (h = 0) then true
    else match s.owner r h with
      | some t => decide ((s.task r t).vc = vc) && ((s.handle r h).output == !out)
      | none => false
  | 5 | 6 => let o := s.opSlot r (port - 5); o.used && (if out then o.inputs else o.outputs).contains h
  | _ =>
    let n := 4 * core + r % 16
    decide (r % 16 < 4) && decide (vc = 0) &&
      if out then (decide (h < 5) && (s.node n).valid) || (decide (h = 5) && (s.agen n).valid)
      else (decide (h < 3) && (s.node n).valid) || (decide (h = 3) && (s.agen n).valid)

/-- Each port of a used operator slot is joined by one route, and no two routes share it (spec/07 R201, R204). -/
def State.slotJoined (s : State) (r k : Nat) (rs : List Route) : Bool :=
  let o := s.opSlot r k
  !o.used || ((o.inputs.all fun h => (rs.filter fun t => t.outp = 5 + k ∧ t.outh = h).length = 1) &&
    (o.outputs.all fun h => (rs.filter fun t => t.inp = 5 + k ∧ t.inh = h).length = 1))

/-- One router (R38, spec/07 R202, R204, R218). -/
def State.routerOk (s : State) (r : Nat) : Bool :=
  let rs := ((List.range 64).map (s.route r)).filter Route.valid
  !routesClash rs && (rs.all fun t => s.portExists r t.inp t.invc t.inh false && s.portExists r t.outp t.outvc t.outh true) &&
    ((List.range 2).all fun k => s.slotJoined r k rs && (!((s.opSlot r k).used && decide ((s.opSlot r k).opc = 11)) || s.sourceOk r k)) &&
    (List.range 4).all fun v => !(s.islandAt r v).attached ||
      (List.range 8).all fun t => !((s.task r t).valid && decide ((s.task r t).vc = v))

/-- The cells that a cell selects. -/
def GlazeCell.uses (c : GlazeCell) : List Nat := [c.sel3, c.sel2, c.sel1, c.sel0].filterMap fun v => if 256 ≤ v ∧ v < 768 then some (v - 256) else none

/-- One more round of the longest chains into each cell: of all cells, or, with `bits`, of chains that begin at an input bit. -/
def Glaze.deepen (g : Glaze) (bits : Bool) (ds : List Nat) : List Nat :=
  (List.range 512).map fun k =>
    let c := g.cells.find k {}
    let own := if bits && !([c.sel3, c.sel2, c.sel1, c.sel0].any fun v => decide (v < 256)) then 0 else 1
    c.uses.foldl (fun m u => let d := (ds[u]?).getD 0; if bits && d = 0 then m else Nat.max m (d + 1)) own

def Glaze.depths (g : Glaze) (bits : Bool) : Nat → List Nat
  | 0 => List.replicate 512 0
  | n + 1 => g.deepen bits (g.depths bits n)

/-- Output positions of a frame; frame 0x8A has 16 (R41). -/
def Glaze.named (g : Glaze) : List Nat := g.frames.cells.flatMap fun f => if f.1 = 10 then f.2.take 16 else f.2

/-- The Glaze island of a core (R41, spec/09 R254, R257). -/
def State.glazeOk (s : State) (core : Nat) : Bool :=
  let g := s.glaze core
  !g.inUse || (decide (g.depths false 512 = g.depths false 513) &&
    (g.named.all fun c => decide (((g.depths true 513)[c]?).getD 0 ≤ 16)) && !(s.islandAt (16 * core + 15) 3).attached &&
    (List.range 8).all fun t => !((s.task (16 * core + 15) t).valid && decide ((s.task (16 * core + 15) t).vc = 3)))

/-- The pool tensors of a core fit (R44). -/
def State.tensorsOk (s : State) (core : Nat) : Bool :=
  (s.core.tensors.range (4096 * core) 4096).all fun t =>
    decide (t.2.addr + t.2.shape.span ≤ (s.info core).spaceSize t.2.acc)

/-- Island ports of an image in block b of a region: (Comet or Kiln, its number, port, kind, router, channel). -/
def portsOf (gs : List Nat) (xs : List Frm) (b : Nat) : List (Bool × Nat × Nat × Nat × Nat × Nat) :=
  (xs.filter fun x => x.kind = 9 && x.bit 223).filterMap fun x => (coreIn (blockOf gs b) x.core).map fun c =>
    let at_ := (x.f 221 2, 16 * c + x.f 217 4, x.f 215 2)
    if x.elem = 0 then (false, 64 * b + x.f 209 6, x.index, at_) else (true, 2 * (c / 16) + (x.elem - 4), graphPortNum x.index, at_)

/-- Every island port is attached once in the region, no two share a router's channel, and every Comet port belongs to a group (R43,
spec/07 R202, spec/10 R279). -/
def portsOk (gs : List Nat) (xs : List Frm) : Bool :=
  let ps := (List.range ((gs.length + 63) / 64)).flatMap (portsOf gs xs)
  let kind (c p : Nat) : Option Nat := (ps.find? fun q => q.1 && decide (q.2.1 = c ∧ q.2.2.1 = p)).map fun q => q.2.2.2.1
  let readAt (c p : Nat) : Bool := decide (kind c p = some 0) && decide (kind c (p + 1) = some 3)
  let writeAt (c p : Nat) : Bool := decide (kind c p = some 0) && decide (kind c (p + 1) = some 2) && decide (kind c (p + 2) = some 1)
  distinct (ps.map fun q => (q.1, q.2.1, q.2.2.1)) && distinct (ps.map fun q => q.2.2.2.2) &&
    ps.all fun q => !q.1 ||
      let c := q.2.1
      let p := q.2.2.1
      match q.2.2.2.1 with
      | 0 => readAt c p || writeAt c p
      | 1 => decide (2 ≤ p) && writeAt c (p - 2)
      | 2 => decide (1 ≤ p) && writeAt c (p - 1)
      | _ => decide (1 ≤ p) && readAt c (p - 1)

/-- Two frames of one identity, or two tensors of one core with one `TID` (R44, R47). -/
def framesClash (xs : List Frm) : Bool :=
  !distinct (xs.map fun x => (x.kind, x.core, x.elem, x.index)) ||
    !distinct ((xs.filter fun x => x.kind = 10).map fun x => (x.core, x.f 212 12))

/-- The checks between the frames of an image in a region: made on the image written into empty elements. -/
def imageOk (gs : List Nat) (xs : List Frm) : Bool :=
  let s := (State.reset).writeImage gs (fun _ => true) 0 0 xs
  !framesClash xs && portsOk gs xs && (gs.flatMap coresOfGranule).all fun c =>
    s.tensorsOk c && s.glazeOk c && (List.range 16).all fun e => s.peOk (16 * c + e) && s.routerOk (16 * c + e)

end Sys2Proof.Machine
end

