-- ==== Sys2Proof/Machine/Special.lean ====
section
/-! DEFINITION. The special functions, correctly rounded (spec/02 R88, R89). An algebraic function is exact. A
transcendental one is bracketed in fixed point at rising precisions; if both ends of the bracket round alike, that is the
result (log entry 9). -/
namespace Sys2Proof.Machine
namespace Special

/-- floor of the square root, bit k - 1 downward. -/
def isqrtBits (n : Nat) : Nat → Nat → Nat
  | 0, r => r
  | k + 1, r => let r' := r + 2 ^ k; isqrtBits n k (if r' * r' ≤ n then r' else r)

def isqrt (n : Nat) : Nat := isqrtBits n (Nat.log2 n / 2 + 1) 0

/-- The square root of num / den > 0 as a rational that rounds as the exact root does in f32 in every mode: at least 40
bits, with a sticky bit. -/
def sqrtRat (num den : Nat) : Nat × Nat :=
  let k := 80 + Nat.log2 den
  let n := num * 2 ^ (2 * k) / den
  let r := isqrt n
  let exact := r * r * den = num * 2 ^ (2 * k)
  (2 * r + (if exact then 0 else 1), 2 ^ (k + 1))

/-- Terms of Σ over k of ±1 / ((2k + 1) n^(2k + 1)) in units of 2^-p. -/
def atanSum (alt : Bool) (n2 : Nat) : Nat → Nat → Nat → Int
  | 0, _, _ => 0
  | fuel + 1, k, t =>
    if t = 0 then 0 else
      (if alt && k % 2 = 1 then -((t / (2 * k + 1) : Nat) : Int) else ((t / (2 * k + 1) : Nat) : Int)) +
        atanSum alt n2 fuel (k + 1) (t / n2)

/-- ln 2 in units of 2^-p. -/
def ln2 (p : Nat) : Int := 2 * atanSum false 9 p 0 (2 ^ p / 3)

/-- π in units of 2^-p, by Machin's formula. -/
def pi (p : Nat) : Int := 16 * atanSum true 25 p 0 (2 ^ p / 5) - 4 * atanSum true (239 * 239) p 0 (2 ^ p / 239)

/-- Σ from term t on, where term k + 1 is term k · x / (k + 1), all in units of 2^-p. -/
def expSum (p x : Nat) : Nat → Nat → Nat → Nat
  | 0, _, _ => 0
  | fuel + 1, k, t => if t = 0 then 0 else t + expSum p x fuel (k + 1) (t * x / 2 ^ p / (k + 1))

/-- 2^(num / den), 0 ≤ num < den, in units of 2^-p. -/
def exp2Frac (p num den : Nat) : Nat :=
  expSum p ((ln2 p).toNat * num / den) (2 * p) 0 (2 ^ p)

/-- ln(num / den) for num / den between 3/4 and 3/2, in units of 2^-p: 2 atanh((num - den) / (num + den)). -/
def lnNear (p num den : Nat) : Int :=
  let d : Int := (num : Int) - den
  let t := d.natAbs * 2 ^ p / (num + den)
  let rec go : Nat → Nat → Nat → Nat
    | 0, _, _ => 0
    | fuel + 1, k, u => if u = 0 then 0 else u / (2 * k + 1) + go fuel (k + 1) (u * t / 2 ^ p * t / 2 ^ p)
  let s : Int := 2 * (go (2 * p) 0 t : Nat)
  if d < 0 then -s else s

/-- Alternating series with term ratio -x² / ((2k + a)(2k + a + 1)), in units of 2^-p: a = 2 gives sine from x, a = 1
cosine from 1. -/
def trigSum (p x2 a : Nat) : Nat → Nat → Nat → Int
  | 0, _, _ => 0
  | fuel + 1, k, t =>
    if t = 0 then 0 else
      ((t : Nat) : Int) - trigSum p x2 a fuel (k + 1) (t * x2 / 2 ^ p / ((2 * k + a) * (2 * k + a + 1)))

/-- sin(π num / den) for 0 < num / den ≤ 1/2, in units of 2^-p. -/
def sinPiNear (p num den : Nat) : Int :=
  let x := (pi p).toNat * num / den
  trigSum p (x * x / 2 ^ p) 2 p 0 x

/-- Terms of erf: Σ (-1)^n x^(2n + 1) / (n! (2n + 1)), where t is x^(2n + 1) / n! in units of 2^-p. -/
def erfSum (p x2 : Nat) : Nat → Nat → Nat → Int
  | 0, _, _ => 0
  | fuel + 1, k, t =>
    if t = 0 then 0 else
      (if k % 2 = 1 then -((t / (2 * k + 1) : Nat) : Int) else ((t / (2 * k + 1) : Nat) : Int)) +
        erfSum p x2 fuel (k + 1) (t * x2 / 2 ^ p / (k + 1))

/-- erf(num / den) for num / den below 6, in units of 2^-p. -/
def erfNear (p num den : Nat) : Int :=
  let x := num * 2 ^ p / den
  let s := erfSum p (x * x / 2 ^ p) (3 * p) 0 x
  -- 2 / √π
  let r := isqrt ((pi p).toNat * 2 ^ p)
  2 * s * (2 ^ p : Nat) / r

/-- The eight functions that need a bracket or a root. -/
inductive Fn where
  | rcp | rsq | sqrt | exp2 | lg2 | sinpi | cospi | tanh | erf
deriving DecidableEq, Repr

/-- An exact result, or a bracket as a function of the precision p: the value times 2^p lies strictly between the two
integers. -/
inductive Res where
  | exact (v : FVal)
  | near (neg : Bool) (mag : Nat → Int)

/-- num / den modulo 2, as a numerator over den. -/
def mod2 (num den : Nat) : Nat := num % (2 * den)

/-- sin(π num / den) for num / den in [0, 2): sign, and magnitude argument folded into [0, 1/2]. -/
def foldSin (num den : Nat) : Bool × Nat :=
  let neg := den ≤ num
  let r := if neg then num - den else num
  (neg, if den < 2 * r then den - r else r)

/-- The function's value on a finite non-zero or special operand (R89). -/
def eval (f : Fn) (v : FVal) : Res :=
  match f, v with
  | _, .nan => .exact .nan
  | .rcp, v => .exact (FVal.div (.fin false 1 1) v)
  | .sqrt, .inf s => .exact (if s then .nan else .inf false)
  | .sqrt, .fin s n d => .exact (if n = 0 then .fin s 0 1 else if s then .nan else let r := sqrtRat n d; .fin false r.1 r.2)
  | .rsq, .inf s => .exact (if s then .nan else .fin false 0 1)
  | .rsq, .fin s n d => .exact (if n = 0 then .inf s else if s then .nan else let r := sqrtRat d n; .fin false r.1 r.2)
  | .exp2, .inf s => .exact (if s then .fin false 0 1 else .inf false)
  | .exp2, .fin s n d =>
    let z := FVal.num s n
    let k := z / (d : Int)
    let r := (z % (d : Int)).toNat
    if 200 < k then .exact (.fin false (2 ^ 200) 1)
    else if k < -200 then .exact (.fin false 1 (2 ^ 200))
    else
      let q := pow2 k
      if r = 0 then .exact (.fin false q.1 q.2)
      else .near false fun p => ((exp2Frac (p + 256) r d * q.1 / q.2 / 2 ^ 256 : Nat) : Int)
  | .lg2, .inf s => .exact (if s then .nan else .inf false)
  | .lg2, .fin s n d =>
    if n = 0 then .exact (.inf true)
    else if s then .exact .nan
    else
      let e0 := ilog2Rat n d
      let p0 := pow2 e0
      if n * p0.2 = d * p0.1 then .exact (FVal.ofInt e0)
      else
        -- fold into [3/4, 3/2)
        let up := 3 * d * p0.1 ≤ 2 * (n * p0.2)
        let e := if up then e0 + 1 else e0
        let q := pow2 e
        let val := fun p => e * (2 ^ p : Nat) + lnNear p (n * q.2) (d * q.1) * (2 ^ p : Nat) / ln2 p
        if e < 0 ∨ (e = 0 ∧ n < d) then .near true fun p => - val p else .near false val
  | .sinpi, .inf _ => .exact .nan
  | .sinpi, .fin s n d =>
    if n % d = 0 then .exact (.fin s 0 1)
    else
      let g := foldSin (mod2 n d) d
      if 2 * g.2 = d then .exact (.fin (s != g.1) 1 1) else .near (s != g.1) fun p => sinPiNear p g.2 d
  | .cospi, .inf _ => .exact .nan
  | .cospi, .fin _ n d =>
    -- cos(πx) = sin(π(x + 1/2))
    let m := 2 * n + d
    let e := 2 * d
    if m % e = 0 then .exact (.fin false 0 1)
    else
      let g := foldSin (mod2 m e) e
      if 2 * g.2 = e then .exact (.fin g.1 1 1) else .near g.1 fun p => sinPiNear p g.2 e
  | .tanh, .inf s => .exact (.fin s 1 1)
  | .tanh, .fin s n d =>
    if n = 0 then .exact (.fin s 0 1)
    else if 20 * d ≤ n then .exact (.fin s (2 ^ 40 - 1) (2 ^ 40))
    else if n * 2 ^ 13 < d then
      -- x - x³/3 < tanh x < x - x³/4, and all between round alike in f32
      .exact (.fin s (n * (3 * d * d - n * n)) (3 * d * d * d))
    else
      .near s fun p =>
        let w := p + 64
        -- e^(2x) = 2^k · 2^f with k + f = 2x / ln 2
        let y := 2 * n * 2 ^ (2 * w) / d / (ln2 w).toNat
        let k := y / 2 ^ w
        let g := exp2Frac w (y % 2 ^ w) (2 ^ w) * 2 ^ k
        ((2 ^ p * (g - 2 ^ w) / (g + 2 ^ w) : Nat) : Int)
  | .erf, .inf s => .exact (.fin s 1 1)
  | .erf, .fin s n d =>
    if n = 0 then .exact (.fin s 0 1)
    else if 6 * d ≤ n then .exact (.fin s (2 ^ 40 - 1) (2 ^ 40))
    else .near s fun p => erfNear (p + 64) n d / (2 ^ 64 : Nat)

/-- Rounds a bracket with 32 units of error at precision p; `none` if its ends round differently. -/
def tryAt (f : FFmt) (rm : Nat) (neg : Bool) (mag : Nat → Int) (p : Nat) : Option Nat :=
  let m := mag (p + 16)
  let lo := (m - 2 ^ 14).toNat
  let hi := (m + 2 ^ 14).toNat
  let a := f.round rm false false (.fin neg lo (2 ^ (p + 16)))
  let b := f.round rm false false (.fin neg hi (2 ^ (p + 16)))
  if lo ≠ 0 ∧ a = b then some a else none

/-- The f32 pattern of the function value in mode `rm`, without `SAT` and `FTZ`. -/
def f32Of (f : Fn) (rm : Nat) (v : FVal) : Nat :=
  match eval f v with
  | .exact v => f32.round rm false false v
  | .near neg mag =>
    match tryAt f32 rm neg mag 64 with
    | some r => r
    | none =>
      match tryAt f32 rm neg mag 240 with
      | some r => r
      | none =>
        -- no f32 argument comes as near to a boundary as the last bracket is wide (log entry 9)
        f32.round rm false false (.fin neg (mag 536).toNat (2 ^ 536))

/-- One lane of a special function (R88): f32 directly; bf16 and f16 through f32 to nearest. -/
def lane (f : Fn) (fmt rm : Nat) (sat ftz : Bool) (bits : Nat) : Nat :=
  let g := ffmt fmt
  let v := g.decode ftz bits
  if fmt = 10 then g.round rm sat ftz (f32.decode false (f32Of f rm v))
  else g.round rm sat ftz (f32.decode false (f32Of f 0 v))

end Special
end Sys2Proof.Machine
end

