-- ==== Sys2Proof/Machine/Integer.lean ====
section
/-! DEFINITION. Moves, integer arithmetic, logic, shifts, bit fields, comparison, selection, packing, predicates and loop
counters (spec/04 R116 to R133). -/
namespace Sys2Proof.Machine

/-! ## Lanes -/

/-- The value of a lane by the format's signedness. -/
def laneInt (signed : Bool) (w v : Nat) : Int := if signed then signedOf w v else ((v : Nat) : Int)

/-- The least and greatest value of a format (spec/02 R59). -/
def minInt (signed : Bool) (w : Nat) : Int := if signed then -(2 ^ (w - 1) : Int) else 0
def maxInt (signed : Bool) (w : Nat) : Int := if signed then 2 ^ (w - 1) - 1 else 2 ^ w - 1

/-- A value clamped to a range. -/
def clampInt (lo hi z : Int) : Int := if z < lo then lo else if hi < z then hi else z

/-- Fitting an exact integer to a lane (R60). -/
def fit (signed sat : Bool) (w : Nat) (z : Int) : Nat :=
  wrapTo w (if sat then clampInt (minInt signed w) (maxInt signed w) z else z)

namespace Issue
/-- Lane width of `FMT`. -/
def lw (i : Issue) : Nat := fmtWidth i.fmt
/-- Lane count of `FMT`. -/
def ln (i : Issue) : Nat := fmtLanes i.fmt
def sgn (i : Issue) : Bool := fmtSigned i.fmt
/-- Lane k of A, B, C as bits. -/
def a (i : Issue) (k : Nat) : Nat := laneOf i.lw k i.wa
def b (i : Issue) (k : Nat) : Nat := laneOf i.lw k i.wb
def c (i : Issue) (k : Nat) : Nat := laneOf i.lw k i.wc
/-- Lane k of A, B, C as integers. -/
def ai (i : Issue) (k : Nat) : Int := laneInt i.sgn i.lw (i.a k)
def bi (i : Issue) (k : Nat) : Int := laneInt i.sgn i.lw (i.b k)
def ci (i : Issue) (k : Nat) : Int := laneInt i.sgn i.lw (i.c k)

/-- A result of lanes of width w, merged under the guard (R17). -/
def lanesOf (i : Issue) (w : Nat) (f : Nat → Nat) : Word := guardMerge w i.guard i.oldD (mkWord w (256 / w) f)

/-- A lane of width w, or its byte, is enabled (R17, R119). -/
def someLane (i : Issue) (w : Nat) : Bool := (firstBelow (256 / Nat.max w 8) fun k => i.guard.getLsbD k).isSome

/-- What a result of lanes of width w does to `D`: nothing where no lane is enabled (R17). -/
def lanes (i : Issue) (w : Nat) (f : Nat → Nat) : Eff := if i.someLane w then { word := some (i.lanesOf w f) } else {}

/-- A result in the lanes of `FMT`. -/
def perLane (i : Issue) (f : Nat → Nat) : Eff := i.lanes i.lw f

/-- A result fitted to the lanes of `FMT`. -/
def fitted (i : Issue) (sat : Bool) (f : Nat → Int) : Eff := i.perLane fun k => fit i.sgn sat i.lw (f k)

/-- A predicate result from the lanes of `FMT`, for the predicate that a descriptor names (R118). -/
def predLanes (i : Issue) (b : BitVec 8) (f : Nat → Bool) : Nat × Pred :=
  (predNum b, lanePred i.ln i.guard (i.predVal b) f)

/-- A predicate result bit by bit (R118, R133). -/
def predBits (i : Issue) (b : BitVec 8) (v : Pred) : Nat × Pred := (predNum b, bitPred i.guard (i.predVal b) v)
end Issue

/-! ## Specs of the opcodes -/

def modSat (w : Fields) : Bool := w.mod &&& 0b1101 = 0
def modBit0 (w : Fields) : Bool := w.mod &&& 0b1110 = 0
def modSatBit0 (w : Fields) : Bool := w.mod &&& 0b1100 = 0

/-- One-, two- and three-operand forms over a list of formats. -/
def spec1 (op : Nat) (fs : List Nat) : OpSpec := { op, fmts := some fs, d := .dst, a := .src }
def spec2 (op : Nat) (fs : List Nat) : OpSpec := { op, fmts := some fs, d := .dst, a := .src, b := .src }
def spec3 (op : Nat) (fs : List Nat) : OpSpec := { op, fmts := some fs, d := .dst, a := .src, b := .src, c := .src }

/-! ## Moves, immediates and addresses (R122) -/

def execNop (w : Fields) (s : State) : Out := runUnit { op := 0x00 } w (fun _ => {}) s

def execMov (w : Fields) (s : State) : Out := runUnit (spec1 0x01 (List.range 15)) w (fun i => i.perLane i.a) s

def execLdi (w : Fields) (s : State) : Out :=
  runUnit { op := 0x02, fmts := some (List.range 15), d := .dst, a := .immOnly } w (fun i => i.perLane i.a) s

def execLdih (w : Fields) (s : State) : Out :=
  runUnit { op := 0x03, fmts := some [2, 3, 6, 7], d := .regOnly, a := .immOnly, readsD := true } w
    (fun i => i.perLane fun k => laneOf i.lw k i.oldD % 2 ^ (i.lw - 16) + i.imm % 2 ^ 16 * 2 ^ (i.lw - 16)) s

/-- `LDL` reads the literal entry `X`[7:0]; an entry tagged code is an illegal operand. A word with an
uncorrectable error is delivered as it stands: R194 speaks of an entry that is fetched (log entry 101). -/
def execLdl (w : Fields) (s : State) : Out :=
  runUnit { op := 0x04, d := .dst, perLane := false, xok := fun s _ imm => (s.entry s.cur (imm % 256)).literal } w
    (fun i => { word := some (BitVec.ofNat 256 (i.s.entry i.pe (i.imm % 256)).word.toNat) }) s

def execLea (w : Fields) (s : State) : Out :=
  runUnit { spec3 0x05 [2, 3, 6, 7] with mods := fun _ => true } w
    (fun i => i.perLane fun k => (i.a k + i.b k * 2 ^ i.mod + i.c k) % 2 ^ i.lw) s

/-! ## Integer arithmetic (R123 to R127) -/

def execAdd (w : Fields) (s : State) : Out := runUnit (spec2 0x06 intFmts) w (fun i => i.fitted false fun k => i.ai k + i.bi k) s

/-- `ADDC` (R124). -/
def execAddc (w : Fields) (s : State) : Out :=
  runUnit { spec2 0x07 intFmts with c := .predOnly } w
    (fun i =>
      let q := i.predVal i.w.c
      let cin : Nat → Nat := fun k => if q.getLsbD k then 1 else 0
      { i.perLane fun k => (i.a k + i.b k + cin k) % 2 ^ i.lw with
        pred := some (i.predLanes i.w.c fun k => carryOut i.lw (i.a k) (i.b k) (cin k)) }) s

def execSub (w : Fields) (s : State) : Out := runUnit (spec2 0x08 intFmts) w (fun i => i.fitted false fun k => i.ai k - i.bi k) s

/-- `SUBB` (R124). -/
def execSubb (w : Fields) (s : State) : Out :=
  runUnit { spec2 0x09 intFmts with c := .predOnly } w
    (fun i =>
      let q := i.predVal i.w.c
      let cin : Nat → Nat := fun k => if q.getLsbD k then 1 else 0
      { i.perLane fun k => wrapTo i.lw ((i.a k : Int) - (i.b k : Int) - (cin k : Int)) with
        pred := some (i.predLanes i.w.c fun k => borrowOut (i.a k) (i.b k) (cin k)) }) s

def execNeg (w : Fields) (s : State) : Out :=
  runUnit { spec1 0x0A intFmts with mods := modSat } w (fun i => i.fitted i.sat fun k => -i.ai k) s

def execAbs (w : Fields) (s : State) : Out :=
  runUnit { spec1 0x0B intFmts with mods := modSat } w (fun i => i.fitted i.sat fun k => (i.ai k).natAbs) s

def execMin (w : Fields) (s : State) : Out :=
  runUnit (spec2 0x0C intFmts) w (fun i => i.fitted false fun k => if i.ai k ≤ i.bi k then i.ai k else i.bi k) s

def execMax (w : Fields) (s : State) : Out :=
  runUnit (spec2 0x0D intFmts) w (fun i => i.fitted false fun k => if i.ai k ≤ i.bi k then i.bi k else i.ai k) s

/-- `CLAMP`: min(max(A, B), C). -/
def execClamp (w : Fields) (s : State) : Out :=
  runUnit (spec3 0x0E intFmts) w
    (fun i => i.fitted false fun k =>
      let m := if i.ai k ≤ i.bi k then i.bi k else i.ai k
      if m ≤ i.ci k then m else i.ci k) s

def execMul (w : Fields) (s : State) : Out :=
  runUnit { spec2 0x0F intFmts with mods := modSat } w (fun i => i.fitted i.sat fun k => i.ai k * i.bi k) s

def execMulh (w : Fields) (s : State) : Out :=
  runUnit (spec2 0x10 intFmts) w (fun i => i.fitted false fun k => (i.ai k * i.bi k) / (2 ^ i.lw : Int)) s

/-- `MAD` fits A · B + C once (R125). -/
def execMad (w : Fields) (s : State) : Out :=
  runUnit { spec3 0x11 intFmts with mods := modSat } w (fun i => i.fitted i.sat fun k => i.ai k * i.bi k + i.ci k) s

/-- Quotient of R126, before it is put into the lane. -/
def quotient (signed sat : Bool) (w : Nat) (a b : Int) : Int :=
  if b = 0 then -1
  else if signed ∧ a = minInt true w ∧ b = -1 then (if sat then maxInt true w else minInt true w)
  else a.tdiv b

/-- Remainder of R126. -/
def remainder (signed : Bool) (w : Nat) (a b : Int) : Int :=
  if b = 0 then a else if signed ∧ a = minInt true w ∧ b = -1 then 0 else a - a.tdiv b * b

/-- Unless `.nz` is set, an enabled lane with B[i] = 0 emits poison (R126); its `DETAIL` names every lane with B[i] = 0 (R188). -/
def Issue.divPoison (i : Issue) : Option (Nat × Nat × Nat) :=
  if (firstBelow i.ln fun k => i.guard.getLsbD k && i.b k = 0).isSome ∧ i.w.mod.getLsbD 0 = false then
    some (Cause.divZero, bitmapOf i.ln fun k => i.b k = 0, 0)
  else none

def execDiv (w : Fields) (s : State) : Out :=
  runUnit { spec2 0x12 intFmts with mods := modSatBit0 } w
    (fun i => { i.perLane fun k => wrapTo i.lw (quotient i.sgn i.sat i.lw (i.ai k) (i.bi k)) with poison := i.divPoison }) s

def execRem (w : Fields) (s : State) : Out :=
  runUnit { spec2 0x13 intFmts with mods := modBit0 } w
    (fun i => { i.perLane fun k => wrapTo i.lw (remainder i.sgn i.lw (i.ai k) (i.bi k)) with poison := i.divPoison }) s

def execAdds (w : Fields) (s : State) : Out := runUnit (spec2 0x30 intFmts) w (fun i => i.fitted true fun k => i.ai k + i.bi k) s

def execSubs (w : Fields) (s : State) : Out := runUnit (spec2 0x31 intFmts) w (fun i => i.fitted true fun k => i.ai k - i.bi k) s

def execAvg (w : Fields) (s : State) : Out :=
  runUnit (spec2 0x32 intFmts) w (fun i => i.fitted false fun k => (i.ai k + i.bi k + 1) / 2) s

def execAbsd (w : Fields) (s : State) : Out :=
  runUnit (spec2 0x33 intFmts) w (fun i => i.fitted false fun k => (i.ai k - i.bi k).natAbs) s

/-- `SAD`: a scalar result. -/
def execSad (w : Fields) (s : State) : Out :=
  runUnit { spec3 0x34 intFmts with perLane := false } w
    (fun i => { word := some (scalarWord (i.sc + foldUp i.ln 0 fun n k => n + (i.ai k - i.bi k).natAbs)) }) s

/-- First lane of the half that `.hi` selects (R127). -/
def Issue.half (i : Issue) : Nat := if i.w.mod.getLsbD 0 then i.ln / 2 else 0

def execWmul (w : Fields) (s : State) : Out :=
  runUnit { spec2 0x35 [0, 1, 2, 4, 5, 6] with mods := modBit0 } w
    (fun i => i.lanes (2 * i.lw) fun j => wrapTo (2 * i.lw) (i.ai (i.half + j) * i.bi (i.half + j))) s

/-- A of `WADD`, read in lanes of 2w bits of the signedness of `FMT` (R127). -/
def Issue.wideA (i : Issue) : Word := i.wordIn (i.fmt + 1) i.w.a i.offA

/-- C of `DOTI`, read as i32 or n32 (R127). -/
def Issue.wideC (i : Issue) : Word := i.wordIn (i.fmt + 2) i.w.c i.offC

def execWadd (w : Fields) (s : State) : Out :=
  runUnit { spec2 0x36 [0, 1, 2, 4, 5, 6] with mods := modSatBit0 } w
    (fun i => i.lanes (2 * i.lw) fun j =>
      fit i.sgn i.sat (2 * i.lw) (laneInt i.sgn (2 * i.lw) (laneOf (2 * i.lw) j i.wideA) + i.bi (i.half + j))) s

def execDoti (w : Fields) (s : State) : Out :=
  runUnit { spec3 0x37 [0, 4] with mods := modSat } w
    (fun i => i.lanes 32 fun j =>
      fit i.sgn i.sat 32 (laneInt i.sgn 32 (laneOf 32 j i.wideC) +
        foldUp 4 (0 : Int) fun z k => z + i.ai (4 * j + k) * i.bi (4 * j + k))) s

/-! ## Logic, shifts and bit fields (R128, R129) -/

def intB1 : List Nat := [0, 1, 2, 3, 4, 5, 6, 7, 14]

/-- The lanes of a bitwise result are those of the words. -/
def Issue.bitwise (i : Issue) (v : Word) : Eff := if i.someLane i.lw then { word := some (guardMerge i.lw i.guard i.oldD v) } else {}

def execAnd (w : Fields) (s : State) : Out := runUnit (spec2 0x14 intB1) w (fun i => i.bitwise (i.wa &&& i.wb)) s
def execOr (w : Fields) (s : State) : Out := runUnit (spec2 0x15 intB1) w (fun i => i.bitwise (i.wa ||| i.wb)) s
def execXor (w : Fields) (s : State) : Out := runUnit (spec2 0x16 intB1) w (fun i => i.bitwise (i.wa ^^^ i.wb)) s
def execAndn (w : Fields) (s : State) : Out := runUnit (spec2 0x17 intB1) w (fun i => i.bitwise (i.wa &&& ~~~i.wb)) s
def execOrn (w : Fields) (s : State) : Out := runUnit (spec2 0x18 intB1) w (fun i => i.bitwise (i.wa ||| ~~~i.wb)) s

/-- A · 2^n fitted; a count of w or more gives 0, or with saturation the end of the range (R128). -/
def shiftLeft (signed sat : Bool) (w : Nat) (a : Int) (n : Nat) : Nat :=
  if n < w then fit signed sat w (a * 2 ^ n)
  else if !sat || a = 0 then 0 else wrapTo w (if a < 0 then minInt signed w else maxInt signed w)

def execShl (w : Fields) (s : State) : Out :=
  runUnit { spec2 0x19 intFmts with mods := modSat } w (fun i => i.perLane fun k => shiftLeft i.sgn i.sat i.lw (i.ai k) (i.b k)) s

def execShr (w : Fields) (s : State) : Out :=
  runUnit (spec2 0x1A intFmts) w (fun i => i.perLane fun k => if i.b k < i.lw then i.a k / 2 ^ i.b k else 0) s

/-- Arithmetic right shift reads the lane as signed whatever `FMT` says (R128; log entry 26). -/
def execSar (w : Fields) (s : State) : Out :=
  runUnit (spec2 0x1B intFmts) w
    (fun i => i.perLane fun k =>
      let z := signedOf i.lw (i.a k)
      wrapTo i.lw (if i.b k < i.lw then z / (2 ^ i.b k : Int) else if z < 0 then -1 else 0)) s

def rotl (w v n : Nat) : Nat := (v * 2 ^ (n % w) + v / 2 ^ (w - n % w)) % 2 ^ w

def execRol (w : Fields) (s : State) : Out := runUnit (spec2 0x1C intFmts) w (fun i => i.perLane fun k => rotl i.lw (i.a k) (i.b k)) s

/-- `POS` and `LEN` (R129). -/
def fldPos (imm : Nat) : Nat := fieldNat 8 6 imm
def fldLen (imm : Nat) : Nat := fieldNat 0 7 imm

/-- `LEN` is 1 to w, and p + n does not pass w. -/
def fieldOk (withPos : Bool) (w : Fields) (imm : Nat) : Bool :=
  let n := fldLen imm
  let p := if withPos then fldPos imm else 0
  decide (0 < n) && decide (p + n ≤ fmtWidth w.fmt.toNat)

/-- The low n bits of v, sign-extended or zero-extended to w bits. -/
def extend (signed : Bool) (w n v : Nat) : Nat := if signed then wrapTo w (signedOf n v) else v % 2 ^ n

def execBfx (w : Fields) (s : State) : Out :=
  runUnit { op := 0x1D, fmts := some intFmts, d := .dst, a := .srcNoImm, xok := fun _ w imm => fieldOk true w imm } w
    (fun i => i.perLane fun k => extend i.sgn i.lw (fldLen i.imm) (i.a k / 2 ^ fldPos i.imm)) s

def execBfi (w : Fields) (s : State) : Out :=
  runUnit { op := 0x1E, fmts := some intFmts, d := .dst, a := .srcNoImm, b := .src, xok := fun _ w imm => fieldOk true w imm } w
    (fun i => i.perLane fun k =>
      let p := fldPos i.imm
      let n := fldLen i.imm
      i.a k % 2 ^ p + i.b k % 2 ^ n * 2 ^ p + i.a k / 2 ^ (p + n) * 2 ^ (p + n)) s

def execPopc (w : Fields) (s : State) : Out :=
  runUnit (spec1 0x1F intFmts) w (fun i => i.perLane fun k => countBelow (fun n => (i.a k).testBit n) i.lw) s

def execClz (w : Fields) (s : State) : Out :=
  runUnit (spec1 0x20 intFmts) w (fun i => i.perLane fun k => (firstBelow i.lw fun n => (i.a k).testBit (i.lw - 1 - n)).getD i.lw) s

def execCtz (w : Fields) (s : State) : Out :=
  runUnit (spec1 0x21 intFmts) w (fun i => i.perLane fun k => (firstBelow i.lw fun n => (i.a k).testBit n).getD i.lw) s

def execBrev (w : Fields) (s : State) : Out :=
  runUnit (spec1 0x22 intFmts) w (fun i => i.perLane fun k => bitmapOf i.lw fun n => (i.a k).testBit (i.lw - 1 - n)) s

def execSext (w : Fields) (s : State) : Out :=
  runUnit { op := 0x25, fmts := some intFmts, d := .dst, a := .srcNoImm, xok := fun _ w imm => fieldOk false w imm } w
    (fun i => i.perLane fun k => extend true i.lw (fldLen i.imm) (i.a k)) s

def execZext (w : Fields) (s : State) : Out :=
  runUnit { op := 0x26, fmts := some intFmts, d := .dst, a := .srcNoImm, xok := fun _ w imm => fieldOk false w imm } w
    (fun i => i.perLane fun k => extend false i.lw (fldLen i.imm) (i.a k)) s

/-! ## Comparison, selection and packing (R130 to R132) -/

def execCmp (w : Fields) (s : State) : Out :=
  runUnit { op := 0x23, fmts := some intFmts, d := .predOnly, a := .src, b := .src, mods := fun w => w.mod.toNat < 6 } w
    (fun i => { pred := some (i.predLanes i.w.d fun k => cmpHolds i.mod (i.ai k) (i.bi k)) }) s

def execSel (w : Fields) (s : State) : Out :=
  runUnit { spec2 0x24 (intFmts ++ floatFmts) with c := .predOnly } w
    (fun i => let q := i.predVal i.w.c; i.perLane fun k => if q.getLsbD k then i.a k else i.b k) s

/-- `PACKS` (R132): `.u` narrows to the unsigned format. -/
def execPacks (w : Fields) (s : State) : Out :=
  runUnit { spec2 0x27 [1, 2, 3, 5, 6, 7] with mods := modBit0 } w
    (fun i =>
      let h := i.lw / 2
      let sg := i.sgn && !i.w.mod.getLsbD 0
      i.lanes h fun j => fit sg true h (if j < i.ln then i.ai j else i.bi (j - i.ln))) s

/-! ## Predicates and loop counters (R133) -/

def specQ (op : Nat) : OpSpec := { op, d := .predOnly, a := .predOnly, b := .predOnly }
def specQ1 (op : Nat) : OpSpec := { op, d := .predOnly, a := .predOnly }

def execQand (w : Fields) (s : State) : Out :=
  runUnit (specQ 0x28) w (fun i => { pred := some (i.predBits i.w.d (i.predVal i.w.a &&& i.predVal i.w.b)) }) s
def execQor (w : Fields) (s : State) : Out :=
  runUnit (specQ 0x29) w (fun i => { pred := some (i.predBits i.w.d (i.predVal i.w.a ||| i.predVal i.w.b)) }) s
def execQxor (w : Fields) (s : State) : Out :=
  runUnit (specQ 0x2A) w (fun i => { pred := some (i.predBits i.w.d (i.predVal i.w.a ^^^ i.predVal i.w.b)) }) s
def execQnot (w : Fields) (s : State) : Out :=
  runUnit (specQ1 0x2B) w (fun i => { pred := some (i.predBits i.w.d (~~~i.predVal i.w.a)) }) s

def execQmov (w : Fields) (s : State) : Out :=
  runUnit { op := 0x2C, d := .predOnly, a := .predOrSrc } w
    (fun i =>
      let v : Pred := match opnd i.w.a with | .pred q => i.s.predOf i.pe q | _ => i.wa.extractLsb' 0 32
      { pred := some (i.predBits i.w.d v) }) s

def execQany (w : Fields) (s : State) : Out :=
  runUnit (specQ1 0x2D) w (fun i => { pred := some (i.predBits i.w.d (flagPred (i.predVal i.w.a ≠ 0))) }) s

/-- The loop counter a descriptor names. -/
def lcNum (b : BitVec 8) : Nat := match opnd b with | .lc n => n | _ => 0

def execLcset (w : Fields) (s : State) : Out :=
  runUnit { op := 0x2E, d := .lcOnly, a := .src, perLane := false } w
    (fun i => { lc := some (lcNum i.w.d, BitVec.ofNat 16 i.sa) }) s

def execLcget (w : Fields) (s : State) : Out :=
  runUnit { op := 0x2F, d := .dst, a := .lcOnly, perLane := false } w
    (fun i => { word := some (scalarWord (i.task.lc (lcNum i.w.a)).toNat) }) s

end Sys2Proof.Machine
end

