-- ==== Sys2Proof/Machine/Vector.lean ====
section
/-! DEFINITION. Floating-point lanes, reductions, permutes and masks (spec/05 R155 to R175). -/
namespace Sys2Proof.Machine

/-- P of R155. -/
def permFmts : List Nat := intFmts ++ floatFmts ++ [12]

namespace Issue
def ff (i : Issue) : FFmt := ffmt i.fmt
/-- Lane k of A, B, C as values, flushed under `FTZ` (spec/02 R69). -/
def av (i : Issue) (k : Nat) : FVal := i.ff.decode i.ftz (i.a k)
def bv (i : Issue) (k : Nat) : FVal := i.ff.decode i.ftz (i.b k)
def cv (i : Issue) (k : Nat) : FVal := i.ff.decode i.ftz (i.c k)
/-- Exact lane results, rounded once in `RM` (R66 to R69). -/
def rounded (i : Issue) (f : Nat → FVal) : Eff := i.perLane fun k => i.ff.round i.rm i.sat i.ftz (f k)
end Issue

def modAny (_ : Fields) : Bool := true
/-- `RM` and `FTZ` only. -/
def modRf (w : Fields) : Bool := w.mod &&& 0b0010 = 0

def specF2 (op : Nat) : OpSpec := { spec2 op floatFmts with mods := modAny }
def specF3 (op : Nat) : OpSpec := { spec3 op floatFmts with mods := modAny }

/-! ## Lane arithmetic (R159) -/

def execFadd (w : Fields) (s : State) : Out := runUnit (specF2 0x40) w (fun i => i.rounded fun k => .add i.rm (i.av k) (i.bv k)) s
def execFsub (w : Fields) (s : State) : Out := runUnit (specF2 0x41) w (fun i => i.rounded fun k => .add i.rm (i.av k) (i.bv k).neg) s
def execFmul (w : Fields) (s : State) : Out := runUnit (specF2 0x42) w (fun i => i.rounded fun k => .mul (i.av k) (i.bv k)) s
def execFma (w : Fields) (s : State) : Out :=
  runUnit (specF3 0x43) w (fun i => i.rounded fun k => .add i.rm (.mul (i.av k) (i.bv k)) (i.cv k)) s
def execFms (w : Fields) (s : State) : Out :=
  runUnit (specF3 0x44) w (fun i => i.rounded fun k => .add i.rm (.mul (i.av k) (i.bv k)) (i.cv k).neg) s
def execFnma (w : Fields) (s : State) : Out :=
  runUnit (specF3 0x45) w (fun i => i.rounded fun k => .add i.rm (FVal.mul (i.av k) (i.bv k)).neg (i.cv k)) s
def execFnms (w : Fields) (s : State) : Out :=
  runUnit (specF3 0x46) w (fun i => i.rounded fun k => .add i.rm (FVal.mul (i.av k) (i.bv k)).neg (i.cv k).neg) s
def execFdiv (w : Fields) (s : State) : Out := runUnit (specF2 0x47) w (fun i => i.rounded fun k => .div (i.av k) (i.bv k)) s

/-! ## Minimum and maximum (R160) -/

/-- The pattern read, with a subnormal as a zero of its sign under `FTZ`. -/
def FFmt.flush (f : FFmt) (ftz : Bool) (v : Nat) : Nat :=
  if ftz ∧ v % f.signBit < 2 ^ f.fw then v / f.signBit * f.signBit else v

/-- `FMIN` and `FMINN` (`num`), `FMAX` and `FMAXN` (`big`) of two patterns (R160). -/
def FFmt.pick (f : FFmt) (big num ftz : Bool) (x y : Nat) : Nat :=
  let x := f.flush ftz x
  let y := f.flush ftz y
  let a := f.decode false x
  let b := f.decode false y
  if a.isNan && b.isNan then f.nan
  else if a.isNan then (if num then y else f.nan)
  else if b.isNan then (if num then x else f.nan)
  else if (if big then FVal.below a b else FVal.below b a) then y else x

def execFmin (w : Fields) (s : State) : Out :=
  runUnit { specF2 0x48 with mods := modBit0 } w (fun i => i.perLane fun k => i.ff.pick false false i.ftz (i.a k) (i.b k)) s
def execFmax (w : Fields) (s : State) : Out :=
  runUnit { specF2 0x49 with mods := modBit0 } w (fun i => i.perLane fun k => i.ff.pick true false i.ftz (i.a k) (i.b k)) s
def execFminn (w : Fields) (s : State) : Out :=
  runUnit { specF2 0x4A with mods := modBit0 } w (fun i => i.perLane fun k => i.ff.pick false true i.ftz (i.a k) (i.b k)) s
def execFmaxn (w : Fields) (s : State) : Out :=
  runUnit { specF2 0x4B with mods := modBit0 } w (fun i => i.perLane fun k => i.ff.pick true true i.ftz (i.a k) (i.b k)) s

/-! ## Sign edits, integral rounding, comparison, class (R161 to R164) -/

def execFabs (w : Fields) (s : State) : Out :=
  runUnit (spec1 0x4C floatFmts) w (fun i => i.perLane fun k => i.a k % i.ff.signBit) s
def execFneg (w : Fields) (s : State) : Out :=
  runUnit (spec1 0x4D floatFmts) w (fun i => i.perLane fun k => (i.a k + i.ff.signBit) % 2 ^ i.lw) s
def execFcpys (w : Fields) (s : State) : Out :=
  runUnit (spec2 0x4E floatFmts) w (fun i => i.perLane fun k => i.a k % i.ff.signBit + i.b k / i.ff.signBit * i.ff.signBit) s

/-- `FRINT` of a pattern (R162). -/
def FFmt.integral (f : FFmt) (rm : Nat) (ftz : Bool) (x : Nat) : Nat :=
  match f.decode ftz x with
  | .nan => f.nan
  | .inf _ => x
  | .fin neg n d => f.round rm false false (.fin neg (roundQuot rm neg n d) 1)

def execFrint (w : Fields) (s : State) : Out :=
  runUnit { spec1 0x51 floatFmts with mods := modRf } w (fun i => i.perLane fun k => i.ff.integral i.rm i.ftz (i.a k)) s

/-- The condition of `FCMP` (R163). -/
def fcmpHolds (cond : Nat) (a b : FVal) : Bool :=
  let un := a.isNan || b.isNan
  let c := FVal.cmp a b
  match cond with
  | 0 => !un && decide (c = 0)
  | 1 => un || decide (c ≠ 0)
  | 2 => !un && decide (c < 0)
  | 3 => !un && decide (c ≤ 0)
  | 4 => !un && decide (0 < c)
  | 5 => !un && decide (0 ≤ c)
  | 6 => un
  | _ => !un

def execFcmp (w : Fields) (s : State) : Out :=
  runUnit { op := 0x4F, fmts := some floatFmts, d := .predOnly, a := .src, b := .src, mods := modAny } w
    (fun i => { pred := some (i.predLanes i.w.d fun k => fcmpHolds (i.mod / 2) (i.av k) (i.bv k)) }) s

/-- The class bit of a pattern (R164). -/
def FFmt.classOf (f : FFmt) (ftz : Bool) (x : Nat) : Nat :=
  let sub := decide (x % f.signBit < 2 ^ f.fw)
  match f.decode ftz x with
  | .nan => 8
  | .inf neg => if neg then 0 else 7
  | .fin neg n _ => if n = 0 then (if neg then 3 else 4) else if sub then (if neg then 2 else 5) else (if neg then 1 else 6)

def execFclass (w : Fields) (s : State) : Out :=
  runUnit { spec1 0x50 floatFmts with mods := modBit0 } w (fun i => i.perLane fun k => 2 ^ i.ff.classOf i.ftz (i.a k)) s

/-! ## FDOT, FSCALEB, FGETEXP (R165, R166) -/

/-- C of `FDOT`, read as f32 lanes (R165; log entry 99). -/
def Issue.f32C (i : Issue) : Word := i.wordIn 10 i.w.c i.offC

def execFdot (w : Fields) (s : State) : Out :=
  runUnit { spec3 0x52 [8, 9] with mods := modAny } w
    (fun i => i.lanes 32 fun j =>
      let p := f32.round i.rm false i.ftz
        (.add i.rm (.mul (i.av (2 * j)) (i.bv (2 * j))) (.mul (i.av (2 * j + 1)) (i.bv (2 * j + 1))))
      f32.round i.rm i.sat i.ftz (.add i.rm (f32.decode i.ftz (laneOf 32 j i.f32C)) (f32.decode false p))) s

/-- The exponent lane of `FSCALEB`: an immediate is sign-extended, not the pattern of R22 (R166). A count beyond every
exponent range is cut to ±10,000, which rounds alike. -/
def Issue.scaleBy (i : Issue) (k : Nat) : Int :=
  let n := if opnd i.w.b = .imm then signedOf i.lw (wrapTo i.lw (signedOf (if i.anyChan then 16 else 48) i.imm)) else signedOf i.lw (i.b k)
  clampInt (-10000) 10000 n

def execFscaleb (w : Fields) (s : State) : Out :=
  runUnit { specF2 0x92 with laneCheck := false } w (fun i => i.rounded fun k => (i.av k).scale (i.scaleBy k)) s

/-- floor(log2 |v|) as a value (R166). -/
def FVal.exponent (v : FVal) : FVal :=
  match v with
  | .nan => .nan
  | .inf _ => .inf false
  | .fin _ n d => if n = 0 then .inf true else FVal.ofInt (ilog2Rat n d)

def execFgetexp (w : Fields) (s : State) : Out :=
  runUnit { spec1 0x93 floatFmts with mods := modBit0, laneCheck := false } w
    (fun i => i.perLane fun k => i.ff.round 0 false false (i.av k).exponent) s

/-! ## Reductions and scans (R167 to R169) -/

def rop (imm : Nat) : Nat := imm % 16
def excl (imm : Nat) : Bool := fieldNat 4 1 imm = 1

def isFloat (f : Nat) : Bool := floatFmts.contains f

/-- The operation exists for the format (R167). -/
def ropOk (f r : Nat) : Bool := if isFloat f then [0, 1, 2, 6, 7].contains r else decide (r < 6)

/-- `MOD` of a reduction (R167). -/
def ropMods (w : Fields) : Bool :=
  let r := bitsOf 0 4 w.x
  (isFloat w.fmt.toNat || w.mod &&& 0b1101 = 0) && (!w.mod.getLsbD 1 || decide (r = 0))

/-- The identity of an operation, as a lane pattern (R167). -/
def ropIdentity (f r : Nat) : Nat :=
  let w := fmtWidth f
  let g := ffmt f
  if isFloat f then match r with | 0 => g.signBit | 1 | 6 => g.inf | _ => g.signBit + g.inf
  else match r with
    | 1 => wrapTo w (maxInt (fmtSigned f) w)
    | 2 => wrapTo w (minInt (fmtSigned f) w)
    | 3 => 2 ^ w - 1
    | _ => 0

/-- One lane operation on patterns; a floating-point addition rounds (R167). An integer addition is formed elsewhere. Under `.rd` the identity −0 turns a
sum of +0 into −0, as R70 and the pseudocode of R168 and R169 have it, against the words of R167 (log entry 132). -/
def ropApply (f r rm : Nat) (ftz : Bool) (x y : Nat) : Nat :=
  let w := fmtWidth f
  let g := ffmt f
  if isFloat f then match r with
    | 0 => g.round rm false ftz (.add rm (g.decode ftz x) (g.decode ftz y))
    | 1 => g.pick false false ftz x y
    | 2 => g.pick true false ftz x y
    | 6 => g.pick false true ftz x y
    | _ => g.pick true true ftz x y
  else
    let a := laneInt (fmtSigned f) w x
    let b := laneInt (fmtSigned f) w y
    match r with
    | 1 => if a ≤ b then x else y
    | 2 => if a ≤ b then y else x
    | 3 => x &&& y
    | 4 => x ||| y
    | _ => x ^^^ y

/-- One level of the tree of R168. -/
def pairUp (op : Nat → Nat → Nat) : List Nat → List Nat
  | x :: y :: r => op x y :: pairUp op r
  | r => r

/-- The binary tree of R168. -/
def treeFold (op : Nat → Nat → Nat) : Nat → List Nat → List Nat
  | 0, v => v
  | n + 1, v => treeFold op n (pairUp op v)

namespace Issue
/-- Lane k of A, or the identity where the guard is off (R167). -/
def redLane (i : Issue) (k : Nat) : Nat := if i.guard.getLsbD k then i.a k else ropIdentity i.fmt (rop i.imm)

/-- The exact sum of the enabled lanes below n. -/
def redSum (i : Issue) (n : Nat) : Int := foldUp n (0 : Int) fun z k => if i.guard.getLsbD k then z + i.ai k else z
end Issue

def specRed (op : Nat) (ex : Bool) : OpSpec :=
  { spec1 op (intFmts ++ floatFmts) with
    mods := ropMods, xok := fun _ w imm => ropOk w.fmt.toNat (rop imm) && (ex || !excl imm) }

def execVred (w : Fields) (s : State) : Out :=
  runUnit { specRed 0x53 false with wholeD := true } w
    (fun i =>
      let r := rop i.imm
      let v :=
        if isFloat i.fmt ∨ r ≠ 0 then
          let t := ((treeFold (ropApply i.fmt r i.rm i.ftz) 5 ((List.range i.ln).map i.redLane)).head?).getD 0
          if isFloat i.fmt then i.ff.saturate i.sat t else t
        else fit i.sgn i.sat i.lw (i.redSum i.ln)
      { word := some (BitVec.ofNat 256 v) }) s

/-- The running value of R169 before lane k; not used for an integer addition. -/
def Issue.scanBefore (i : Issue) (k : Nat) : Nat :=
  foldUp k (ropIdentity i.fmt (rop i.imm)) fun v j => ropApply i.fmt (rop i.imm) i.rm i.ftz v (i.redLane j)

def execVscan (w : Fields) (s : State) : Out :=
  runUnit (specRed 0x54 true) w
    (fun i => i.perLane fun k =>
      let n := if excl i.imm then k else k + 1
      if isFloat i.fmt then i.ff.saturate i.sat (i.scanBefore n)
      else if rop i.imm = 0 then fit i.sgn i.sat i.lw (i.redSum n) else i.scanBefore n) s

/-! ## Permutes, selects and masks (R170 to R175) -/

def execVperm (w : Fields) (s : State) : Out :=
  runUnit (spec3 0x55 permFmts) w
    (fun i => i.perLane fun k =>
      let x := i.c k
      if x < i.ln then i.a x else if x < 2 * i.ln then i.b (x - i.ln) else 0) s

def execVshuf (w : Fields) (s : State) : Out :=
  runUnit { spec1 0x56 permFmts with xok := fun _ _ imm => imm % 2 ^ 16 / 2 ^ 8 = 0 } w
    (fun i => i.perLane fun k => i.a (k / 4 * 4 + fieldNat (2 * (k % 4)) 2 i.imm)) s

/-- `LANE` is below L, and the rest of `IMM`[15:0] is zero (R170). -/
def laneFieldOk (w : Fields) (imm : Nat) : Bool :=
  decide (imm % 32 < fmtLanes w.fmt.toNat) && decide (imm % 2 ^ 16 / 2 ^ 5 = 0)

def execVbcast (w : Fields) (s : State) : Out :=
  runUnit { spec1 0x57 permFmts with xok := fun _ w imm => laneFieldOk w imm && (opnd w.a ≠ .imm || decide (imm % 32 = 0)) } w
    (fun i => i.perLane fun _ => i.a (i.imm % 32)) s

/-- `VSEL` counts as a permute for `LANECFG`, as `VSCAN` counts as a reduction (R156; log entry 124). -/
def execVsel (w : Fields) (s : State) : Out :=
  runUnit (spec3 0x58 (List.range 15)) w (fun i => i.bitwise ((i.wa &&& i.wc) ||| (i.wb &&& ~~~i.wc))) s

def execVins (w : Fields) (s : State) : Out :=
  runUnit { spec2 0x59 permFmts with xok := fun _ w imm => laneFieldOk w imm } w
    (fun i => i.perLane fun k => if k = i.imm % 32 then i.a 0 else i.b k) s

def execVext (w : Fields) (s : State) : Out :=
  runUnit { spec1 0x5A permFmts with xok := fun _ w imm => laneFieldOk w imm } w
    (fun i => i.perLane fun k => if k = 0 then i.a (i.imm % 32) else 0) s

/-- `VROT` of a word or, with both `D` and `A` predicates, of a predicate (R172); the field that holds the lone predicate is the illegal one (log entry 125). -/
def execVrot (w : Fields) (s : State) : Out :=
  let both := match opnd w.d, opnd w.a with | .pred _, .pred _ => true | _, _ => false
  runUnit { op := 0x5B, fmts := some permFmts, d := if both then .predOnly else .dst, a := if both then .predOnly else .src, b := .src } w
    (fun i =>
      let from_ := fun k => (k + (i.ln - i.sb % i.ln)) % i.ln
      if both then { pred := some (i.predLanes i.w.d fun k => (i.predVal i.w.a).getLsbD (from_ k)) }
      else i.perLane fun k => i.a (from_ k)) s

/-- The number of set bits of a predicate below k. -/
def rankIn (q : Pred) (k : Nat) : Nat := countBelow (fun n => q.getLsbD n) k

/-- `VCMPR`: R170 gives it FMT P, the formats of a payload, so b1 is illegal, though R173 speaks of it (log entry 131). -/
def execVcmpr (w : Fields) (s : State) : Out :=
  runUnit { spec1 0x5C permFmts with b := .predOnly } w
    (fun i =>
      let q := i.predVal i.w.b
      i.perLane fun j => match firstBelow i.ln fun n => q.getLsbD n && rankIn q n = j with | some n => i.a n | none => 0) s

/-- `VEXPD`: of FMT P, as `VCMPR` (log entry 131). -/
def execVexpd (w : Fields) (s : State) : Out :=
  runUnit { spec1 0x5D permFmts with b := .predOnly } w
    (fun i =>
      let q := i.predVal i.w.b
      i.perLane fun k => if q.getLsbD k then i.a (rankIn q k) else 0) s

def execVzip (w : Fields) (s : State) : Out :=
  runUnit { spec2 0x5E permFmts with mods := modBit0 } w
    (fun i => i.perLane fun k => if k % 2 = 0 then i.a (i.half + k / 2) else i.b (i.half + k / 2)) s

def execVunzip (w : Fields) (s : State) : Out :=
  runUnit { spec2 0x5F permFmts with mods := modBit0 } w
    (fun i =>
      let h := if i.w.mod.getLsbD 0 then 1 else 0
      i.perLane fun k => if k < i.ln / 2 then i.a (2 * k + h) else i.b (2 * (k - i.ln / 2) + h)) s

/-- Inserts before the first element that is not less. -/
def insertBy (less : Nat → Nat → Bool) (x : Nat) : List Nat → List Nat
  | [] => [x]
  | y :: ys => if less y x then y :: insertBy less x ys else x :: y :: ys

/-- A stable sort. -/
def sortBy (less : Nat → Nat → Bool) : List Nat → List Nat
  | [] => []
  | x :: xs => insertBy less x (sortBy less xs)

/-- A lane that `VSORT` places last: NaN or NaR. -/
def sortsLast (f x : Nat) : Bool := if f = 12 then lgNar x else isFloat f && ((ffmt f).decode false x).isNan

/-- The order of `VSORT` (R174). -/
def sortsBelow (f x y : Nat) : Bool :=
  if f = 12 then FVal.below (lgDecode x) (lgDecode y)
  else if isFloat f then FVal.below ((ffmt f).decode false x) ((ffmt f).decode false y)
  else decide (laneInt (fmtSigned f) (fmtWidth f) x < laneInt (fmtSigned f) (fmtWidth f) y)

def execVsort (w : Fields) (s : State) : Out :=
  runUnit { spec1 0x60 permFmts with mods := modBit0 } w
    (fun i =>
      let xs := (List.range i.ln).map i.a
      let less := fun x y => if i.w.mod.getLsbD 0 then sortsBelow i.fmt y x else sortsBelow i.fmt x y
      let sorted := sortBy less (xs.filter fun x => !sortsLast i.fmt x) ++ xs.filter (sortsLast i.fmt)
      i.perLane fun k => sorted.getD k 0) s

def execViota (w : Fields) (s : State) : Out :=
  runUnit { op := 0x61, fmts := some intFmts, d := .dst, a := .predOnly } w (fun i => i.perLane fun k => rankIn (i.predVal i.w.a) k) s

def execVmask (w : Fields) (s : State) : Out :=
  runUnit { op := 0x62, fmts := some permFmts, d := .predOnly, a := .src } w
    (fun i => { pred := some (i.predLanes i.w.d fun k => decide (k < i.sa)) }) s

end Sys2Proof.Machine
end

