-- ==== Sys2Proof/Machine/Convert.lean ====
section
/-! DEFINITION. Conversions, special functions and amax (spec/05 R176 to R186). -/
namespace Sys2Proof.Machine

/-! ## Conversions (R176 to R184) -/

def cvtPart (imm : Nat) : Nat := fieldNat 5 4 imm
def cvtSf (imm : Nat) : Nat := fieldNat 0 5 imm

/-- `PART` is legal for the two lane counts (R177). -/
def partOk (fmt sf part : Nat) : Bool :=
  let ld := fmtLanes fmt
  let ls := fmtLanes sf
  if ld = ls then decide (part = 0) else if ld < ls then decide (part < ls / ld) else decide (part < ld / ls)

/-- A conversion between two formats whose source may be one of `sfs`. -/
def specCvt (op : Nat) (fmts : List Nat) (w : Fields) (sfOk : Nat → Bool) : OpSpec :=
  { spec1 op fmts with
    laneCheck := false
    readsD := decide (fmtLanes (bitsOf 0 5 w.x) < fmtLanes w.fmt.toNat)
    xok := fun _ w imm => decide (cvtSf imm < 0x0F) && sfOk (cvtSf imm) && partOk w.fmt.toNat (cvtSf imm) (cvtPart imm) }

/-- Lanes pair up under R177; a narrowing conversion keeps the lanes it does not write. -/
def Issue.converted (i : Issue) (conv : Nat → Nat) : Eff :=
  let sf := cvtSf i.imm
  let ld := i.ln
  let ls := fmtLanes sf
  let part := cvtPart i.imm
  let src := fun k => conv (laneOf (fmtWidth sf) k (i.wordIn sf i.w.a i.offA))
  i.perLane fun k =>
    if ld ≤ ls then src (part * ld + k)
    else if part * ls ≤ k ∧ k < part * ls + ls then src (k - part * ls) else laneOf i.lw k i.oldD

def isInt (f : Nat) : Bool := decide (f < 8)

/-- `CVT` (R178). -/
def execCvt (w : Fields) (s : State) : Out :=
  let fi := isInt w.fmt.toNat
  runUnit { specCvt 0x80 (intFmts ++ floatFmts) w (fun sf => if fi then isInt sf else isFloat sf) with
      mods := fun w => !fi || w.mod &&& 0b1101 = 0 } w
    (fun i =>
      let sf := cvtSf i.imm
      i.converted fun v =>
        if fi then fit i.sgn i.sat i.lw (laneInt (fmtSigned sf) (fmtWidth sf) v)
        else i.ff.round i.rm i.sat i.ftz ((ffmt sf).decode i.ftz v)) s

/-- `CVTFI` (R179). -/
def execCvtfi (w : Fields) (s : State) : Out :=
  runUnit { specCvt 0x81 intFmts w isFloat with mods := modRf } w
    (fun i =>
      i.converted fun v =>
        match (ffmt (cvtSf i.imm)).decode i.ftz v with
        | .nan => 0
        | .inf neg => wrapTo i.lw (if neg then minInt i.sgn i.lw else maxInt i.sgn i.lw)
        | v => fit i.sgn true i.lw (v.toInt i.rm)) s

/-- `CVTIF` (R180). -/
def execCvtif (w : Fields) (s : State) : Out :=
  runUnit { specCvt 0x82 floatFmts w isInt with mods := fun w => w.mod &&& 0b0001 = 0 } w
    (fun i =>
      let sf := cvtSf i.imm
      i.converted fun v => i.ff.round i.rm i.sat false (FVal.ofInt (laneInt (fmtSigned sf) (fmtWidth sf) v))) s

/-- `LGENC` (R181). -/
def execLgenc (w : Fields) (s : State) : Out :=
  runUnit (specCvt 0x83 [12] w isFloat) w (fun i => i.converted fun v => lgEncode ((ffmt (cvtSf i.imm)).decode false v)) s

/-- `LGDEC` (R181). -/
def execLgdec (w : Fields) (s : State) : Out :=
  runUnit (specCvt 0x84 floatFmts w fun sf => decide (sf = 12)) w
    (fun i => i.converted fun v => i.ff.round 0 false false (lgDecode v)) s

/-- The lg6 encoding of the lg6 product of two bytes (R182). -/
def lgMul (a b : Nat) : Nat :=
  match lgProduct a b with
  | none => 0x20
  | some z => lgEncode (.fin (z < 0) z.natAbs (2 ^ 15))

def execLgmul (w : Fields) (s : State) : Out :=
  runUnit { spec2 0x85 [12] with laneCheck := false, xok := fun _ _ imm => decide (imm % 2 ^ 9 = 0) } w
    (fun i => i.perLane fun k => lgMul (i.a k) (i.b k)) s

/-- `SF` is 0 and `PART` selects trits that the word has (R183). -/
def t5Ok (w : Fields) (imm : Nat) : Bool := decide (cvtSf imm = 0) && decide ((cvtPart imm + 1) * fmtLanes w.fmt.toNat ≤ 160)

def byteOf (v : Word) (b : Nat) : Nat := laneOf 8 b v

/-- Digit k of a t5 byte (spec/02 R78). -/
def t5Digit (b k : Nat) : Nat := b / 3 ^ k % 3

/-- A of `T5UNPK`, read as t5 bytes (log entry 99). -/
def Issue.tritsA (i : Issue) : Word := i.wordIn 13 i.w.a i.offA

/-- `T5UNPK` (R183): a reserved byte among those that hold the trits emits poison and writes nothing. -/
def execT5unpk (w : Fields) (s : State) : Out :=
  runUnit { spec1 0x87 [0, 1] with laneCheck := false, xok := fun _ w imm => t5Ok w imm } w
    (fun i =>
      let t0 := i.ln * cvtPart i.imm
      match firstBelow 32 fun b => decide (t0 / 5 ≤ b) && decide (b ≤ (t0 + i.ln - 1) / 5) && decide (243 ≤ byteOf i.tritsA b) with
      | some b => { poison := some (Cause.t5Reserved, b, 0) }
      | none => i.perLane fun j => wrapTo i.lw ((t5Digit (byteOf i.tritsA ((t0 + j) / 5)) ((t0 + j) % 5) : Int) - 1)) s

/-- Digit of trit t of a destination word: a reserved byte reads as digits 1 (R184). -/
def t5Old (v : Word) (t : Nat) : Nat := if 243 ≤ byteOf v (t / 5) then 1 else t5Digit (byteOf v (t / 5)) (t % 5)

/-- `T5PACK` (R184). -/
def execT5pack (w : Fields) (s : State) : Out :=
  runUnit { spec1 0x86 [0, 1] with laneCheck := false, xok := fun _ w imm => t5Ok w imm, readsD := true, wholeD := true } w
    (fun i =>
      let t0 := i.ln * cvtPart i.imm
      let digit := fun t =>
        if t0 ≤ t ∧ t < t0 + i.ln ∧ i.guard.getLsbD (t - t0) then
          let v := i.ai (t - t0)
          if v < 0 then 0 else if v = 0 then 1 else 2
        else t5Old i.oldD t
      { word := some (mkWord 8 32 fun b => foldUp 5 0 fun n k => n + digit (5 * b + k) * 3 ^ k) }) s

/-! ## Special functions (R185) -/

def specFn (op : Nat) : OpSpec := { spec1 op [8, 9, 10] with mods := modAny, laneCheck := false }

/-- One special function over the lanes (spec/02 R88, R89). -/
def Issue.special (i : Issue) (f : Special.Fn) : Eff :=
  i.perLane fun k => Special.lane f i.fmt i.rm i.sat i.ftz (i.a k)

def execRcp (w : Fields) (s : State) : Out := runUnit (specFn 0x88) w (fun i => i.special .rcp) s
def execRsq (w : Fields) (s : State) : Out := runUnit (specFn 0x89) w (fun i => i.special .rsq) s
def execSqrt (w : Fields) (s : State) : Out := runUnit (specFn 0x8A) w (fun i => i.special .sqrt) s
def execExp2 (w : Fields) (s : State) : Out := runUnit (specFn 0x8B) w (fun i => i.special .exp2) s
def execLg2 (w : Fields) (s : State) : Out := runUnit (specFn 0x8C) w (fun i => i.special .lg2) s
def execSinpi (w : Fields) (s : State) : Out := runUnit (specFn 0x8D) w (fun i => i.special .sinpi) s
def execCospi (w : Fields) (s : State) : Out := runUnit (specFn 0x8E) w (fun i => i.special .cospi) s
def execTanh (w : Fields) (s : State) : Out := runUnit (specFn 0x8F) w (fun i => i.special .tanh) s
def execErf (w : Fields) (s : State) : Out := runUnit (specFn 0x90) w (fun i => i.special .erf) s

/-! ## Amax (R186, spec/02 R90) -/

/-- The magnitude of a floating-point pattern as an f32 pattern, rounded toward +∞ from f64; none for a NaN. -/
def amaxMag (fmt x : Nat) : Option Nat :=
  match (ffmt fmt).decode false x with
  | .nan => none
  | v => some (f32.round 2 false false v.abs)

/-- The contribution of lanes (R90): floating-point patterns. -/
def amaxFloat (fmt : Nat) (xs : List Nat) : Nat :=
  let ms := xs.map (amaxMag fmt)
  ms.foldl (fun m v => Nat.max m (v.getD 0)) 0 + (if ms.contains none then 2 ^ 31 else 0)

/-- The contribution of integers, none marking an invalid element (R90). -/
def amaxInt (zs : List (Option Int)) : Nat :=
  Nat.min (zs.foldl (fun m z => Nat.max m (z.getD 0).natAbs) 0) (2 ^ 31 - 1) + (if zs.contains none then 2 ^ 31 else 0)

def execAmaxv (w : Fields) (s : State) : Out :=
  runUnit { spec2 0x91 (intFmts ++ floatFmts) with laneCheck := false, wholeD := true } w
    (fun i =>
      let ks := (List.range i.ln).filter fun k => i.guard.getLsbD k
      let c := if isFloat i.fmt then amaxFloat i.fmt (ks.map i.a) else amaxInt (ks.map fun k => some (i.ai k))
      { word := some (BitVec.ofNat 256 (Nat.max (i.wb.toNat % 2 ^ 32) c)) }) s

end Sys2Proof.Machine
end

