-- ==== Sys2Proof/Machine/GraphPorts.lean ====
section
/-! DEFINITION. Graph ports of the Comets (spec/10 R278 to R281). A group is named by its request port; a read group is followed
by its data port, a write group by its data port and its completion port. -/
namespace Sys2Proof.Machine

/-- Kind of a group (R279). -/
inductive PortGroup where
  | none | read | write
deriving DecidableEq, Repr

def State.groupOf (s : State) (comet p : Nat) : PortGroup :=
  let k (n : Nat) : Option Nat := let x := s.cometPort comet (p + n); if x.attached then some x.pkind else Option.none
  if k 0 ≠ some 0 then .none else if k 1 = some 3 then .read else if k 1 = some 2 && k 2 = some 1 then .write else .none

/-- The port by which results and markers of a group leave. -/
def PortGroup.outPort (g : PortGroup) (p : Nat) : Nat := match g with | .write => p + 2 | _ => p + 1

/-- The requester of a port: its region's domain and dispatch. -/
def State.portAsker (s : State) (comet p : Nat) : Asker :=
  let x := s.cometPort comet p
  { comet, dom := x.dom, disp := x.disp }

/-- Activity of a port, at the first core of its granule (R278). -/
def State.touchPort (s : State) (comet p : Nat) : State :=
  s.touch (((coresOfGranule (4 * (comet / 2) + 2 * (comet % 2) + (if p < 16 then 0 else 1))).head?).getD 0)

def CometPort.pop (c : CometPort) : CometPort := { c with inq := c.inq.tail }

/-- Takes the first token that waits at a port. -/
def State.popPort (s : State) (comet p : Nat) : State := s.setCometPort comet p (s.cometPort comet p).pop

/-- Appends a request to its group. -/
def State.pushReq (s : State) (comet p : Nat) (r : GraphReq) : State :=
  let c := s.cometPort comet p
  (s.setCometPort comet p { c with reqs := c.reqs ++ [r] }).touchPort comet p

/-- Posts the record of a poison token that ends at a port (spec/06 R192). -/
def State.postPoison (s : State) (a : Asker) (t : Token) : State := if t.poison then s.cometPost a t.payload else s

/-- `GRAPH_PORT_ACCEPT`: a request, or one discarded token of a pair whose other port holds a marker (R279, spec/08 R232, R233). -/
def execGraphPortAccept (comet : Nat) (port : Nat) (s : State) : Out :=
  let c := s.cometPort comet port
  let a := s.portAsker comet port
  if c.parked.isSome then .next s else
    match s.groupOf comet port with
    | .none => .next s
    | .read =>
      match c.inq.head? with
      | none => .next s
      | some t =>
        -- results that have not left the data port count too (R279)
        if t.mark || 16 ≤ c.reqs.length + ((s.cometPort comet (port + 1)).outq.filter fun r => !r.mark).length then .next s
        else .next ((s.popPort comet port).pushReq comet port
          { req := t, done := if t.poison then some { t with dom := a.dom } else none })
    | .write =>
      match c.inq.head?, (s.cometPort comet (port + 1)).inq.head? with
      | some t, some d =>
        if t.mark && d.mark then .next s
        else if t.mark || d.mark then
          let s := (s.popPort comet (if t.mark then port + 1 else port)).touchPort comet port
          let s := s.setCometPort comet port { s.cometPort comet port with realign := true }
          .next (s.postPoison a (if t.mark then d else t))
        else
          let s := ((s.popPort comet port).popPort comet (port + 1)).postPoison a t
          let s := s.postPoison a d
          .next (s.pushReq comet port { write := true, req := t, data := d, done := if t.poison then some { t with dom := a.dom } else none })
      | _, _ => .next s

/-- The parts of a graph access (R276, R279). -/
def State.graphPieces (s : State) (a : Asker) (q : GraphReq) : (List Piece ⊕ XFail) × State :=
  let p := q.req.payload
  let tid := bitsOf 64 12 p
  let word := bitAt 76 p
  if bitsOf 77 179 p ≠ 0 then (.inr (.reason 5), s)
  else if (q.req.dom ≠ a.dom && q.req.dom ≠ 0) || (q.write && q.data.dom ≠ a.dom && q.data.dom ≠ 0) then (.inr (.reason 1), s)
  else match s.descriptor a tid with
    | (.inr f, s) => (.inr f, s)
    | (.inl t, s) =>
      match t.shape.offset (bitsOf 0 64 p) with
      | none => (.inr (.reason 2), s)
      | some off =>
        let n := if word then 32 else elemBytes t.shape.fmt
        if (word && off % 32 ≠ 0) || decide (t.shape.span < off + n) then (.inr (.reason 2), s)
        else if n = 0 then (.inr (.reason 6), s)
        else s.translate a tid t { read := !q.write, write := q.write } off n [] 2

/-- Physical ranges of a request, if it has any now. -/
def State.graphRanges (s : State) (a : Asker) (q : GraphReq) : List (Nat × Nat) :=
  match (s.graphPieces a q).1 with | .inl ps => ps.map fun p => (p.phys, p.len) | .inr _ => []

/-- The request at place k may be translated: no earlier one is parked, none that overlaps has yet to perform (R279, R280, spec/08
R230). -/
def State.graphMay (s : State) (a : Asker) (qs : List GraphReq) (k : Nat) (q : GraphReq) : Bool :=
  q.done.isNone && !((qs.take k).any GraphReq.held) &&
    ((qs.take k).filter fun e => e.done.isNone).all fun e => !(e.write || q.write) || !rangesOverlap (s.graphRanges a e) (s.graphRanges a q)

def State.putReq (s : State) (comet p k : Nat) (q : GraphReq) : State :=
  let c := s.cometPort comet p
  s.setCometPort comet p { c with reqs := c.reqs.take k ++ q :: c.reqs.drop (k + 1) }

/-- A request is discarded (R281). -/
def State.dropReq (s : State) (comet p k : Nat) : State :=
  let c := s.cometPort comet p
  s.setCometPort comet p { c with reqs := c.reqs.take k ++ c.reqs.drop (k + 1) }

/-- A request ends with a failure, as a poisoned request does (R279). -/
def State.failGraph (s : State) (a : Asker) (p k : Nat) (q : GraphReq) (f : XFail) : State :=
  let r := f.record s a
  if q.write then
    (s.cometPost a r).putReq a.comet p k { q with held := false, done := some { q.req with poison := false, mark := false, dom := a.dom } }
  else s.putReq a.comet p k { q with held := false, done := some { payload := r, poison := true, dom := a.dom } }

/-- Translates, checks and performs the request at place k, or parks (R276, R280). -/
def State.graphAccess (s : State) (a : Asker) (p k : Nat) (q : GraphReq) : State :=
  match s.graphPieces a q with
  | (.inr (.park kind tid page), s) =>
    if s.drains a then s.dropReq a.comet p k
    else if s.isParked a.comet p then s else (s.putReq a.comet p k { q with held := true }).parkPort a p kind tid page
  | (.inr f, s) => s.failGraph a p k q f
  | (.inl ps, s) =>
    if q.write then
      let n := (ps.map Piece.len).foldl (· + ·) 0
      let s := if q.data.poison then ps.foldl (fun s x => s.patternPiece a x) s else s.hbmWrite a ps (bytesOfNat n q.data.payload.toNat)
      s.putReq a.comet p k { q with held := false, done := some { q.req with dom := a.dom } }
    else match s.hbmRead a ps with
      | (.inl bs, s) => s.putReq a.comet p k { q with held := false, done := some { payload := BitVec.ofNat 256 (natOfBytes bs), dom := a.dom } }
      | (.inr f, s) => s.failGraph a p k q f

/-- `COMET_ACCESS`: the request at this place of a graph port's group; a write that staging cannot take yet waits (spec/14 R407). -/
def execCometAccess (comet : Nat) (port : Nat) (index : Nat) (s : State) : Out :=
  let c := s.cometPort comet port
  let a := s.portAsker comet port
  match c.reqs[index]? with
  | none => .next s
  | some q =>
    if q.held || !s.graphMay a c.reqs index q || (q.write && s.restartable a && s.sliceFull a.cluster a.dom) then .next s else .next ((s.graphAccess a port index q).touchPort comet port)

/-- Puts a token into an output port. -/
def State.portEmit (s : State) (comet p : Nat) (t : Token) : State :=
  let c := s.cometPort comet p
  s.setCometPort comet p { c with outq := c.outq ++ [t] }

/-- `GRAPH_PORT_RESULT`: the oldest result of the group of this request port; else its marker, after a RATE_MISMATCH if the pair has been
realigned (R279, spec/08 R232). -/
def execGraphPortResult (comet : Nat) (port : Nat) (s : State) : Out :=
  let c := s.cometPort comet port
  let a := s.portAsker comet port
  let g := s.groupOf comet port
  let out := g.outPort port
  if g = .none || islandDepth ≤ (s.cometPort comet out).outq.length then .next s else
    match c.reqs with
    | q :: qs =>
      match q.done with
      | none => .next s
      | some t => .next (((s.setCometPort comet port { c with reqs := qs }).portEmit comet out t).touchPort comet port)
    | [] =>
      match c.inq.head? with
      | none => .next s
      | some t =>
        if !t.mark then .next s
        else if g = .read then .next (((s.popPort comet port).portEmit comet out { t with dom := a.dom }).touchPort comet port)
        else match (s.cometPort comet (port + 1)).inq.head? with
          | none => .next s
          | some d =>
            if !d.mark then .next s
            else if c.realign then
              let s := s.setCometPort comet port { c with realign := false }
              .next ((s.portEmit comet out { payload := s.cometRecord a Cause.rateMismatch 6 0, poison := true, dom := a.dom }).touchPort comet port)
            else
              let v := Nat.max (t.payload.toNat % 2 ^ 16) (d.payload.toNat % 2 ^ 16)
              .next ((((s.popPort comet port).popPort comet (port + 1)).portEmit comet out
                { payload := BitVec.ofNat 256 v, mark := true, dom := a.dom }).touchPort comet port)

end Sys2Proof.Machine
end

