-- ==== Sys2Proof/Machine/Streams.lean ====
section
/-! DEFINITION. Stream and fibre registers: their instructions, their fetches ahead of demand, and the tile cache that serves these
(spec/10 R284, R286 to R293, spec/12 R343). -/
namespace Sys2Proof.Machine

/-! ## Elements (R286) -/

namespace Shape
def total (t : Shape) : Nat := t.ext0 * (t.e1 * (t.e2 * t.e3))

/-- L(c) of coordinates packed as C3, C2, C1, C0. -/
def linear (t : Shape) (at_ : Nat) : Nat :=
  let c k := fieldNat (16 * k) 16 at_
  c 0 + t.ext0 * (c 1 + t.e1 * (c 2 + t.e2 * c 3))

/-- Place of the element of a linear index: byte offset, and the bit in it for b1. -/
def place (t : Shape) (l : Nat) : Nat × Nat :=
  let i := t.index (l % t.ext0) (l / t.ext0 % t.e1) (l / t.ext0 / t.e1 % t.e2) (l / t.ext0 / t.e1 / t.e2)
  (t.byteOf i, i % 8)

/-- Bits of an element as a stream reads it. -/
def bits (t : Shape) : Nat := if t.fmt = 14 then 1 else 8 * elemBytes t.fmt
end Shape

/-- One of the two streams of a register: coordinates or the stream itself, and values. -/
structure Half where
  tid : Nat
  shape : Shape
  buf : Map (Option Byte)
  pend : List (Nat × Nat)
  bad : List (Nat × Word)

def StreamReg.half (r : StreamReg) (v : Bool) : Half :=
  if v then { tid := r.tidv, shape := r.shapev, buf := r.bufv, pend := r.pendv, bad := r.badv }
  else { tid := r.tid, shape := r.shape, buf := r.buf, pend := r.pend, bad := r.bad }

def StreamReg.setHalf (r : StreamReg) (v : Bool) (h : Half) : StreamReg :=
  if v then { r with bufv := h.buf, pendv := h.pend, badv := h.bad } else { r with buf := h.buf, pend := h.pend, bad := h.bad }

/-- The element of a linear index, if its bytes are buffered. -/
def Half.elem (h : Half) (l : Nat) : Option Nat :=
  let p := h.shape.place l
  if h.shape.fmt = 14 then (h.buf.find p.1 none).map fun b => b.toNat >>> p.2 % 2
  else ((List.range (elemBytes h.shape.fmt)).mapM fun j => h.buf.find (p.1 + j) none).map natOfBytes

/-- The record of the failed line that holds an element. -/
def Half.badAt (h : Half) (l : Nat) : Option Word := (h.bad.find? fun b => b.1 = (h.shape.place l).1 / 64).map Prod.snd

/-- Elements that the 256-byte buffer of a stream holds. -/
def Half.window (h : Half) : Nat := 2048 / h.shape.bits

/-! ## Registers and ports -/

/-- Register number of a descriptor: streams 0 to 15, fibres 16 to 23. -/
def streamNum (b : BitVec 8) : Nat := match opnd b with | .stream n => n | .fibre n => 16 + n | _ => 0

/-- The port of a register of a core (R278). -/
def streamPort (core r : Nat) : Nat := 16 + 24 * (core % 8) + r

def Pos.streamOnly : Pos := { stream := true }
def Pos.fibreOnly : Pos := { fibre := true }

def specStream (op : Nat) : OpSpec := { op, perLane := false }

def Issue.asker (i : Issue) : Asker := i.s.askerOf i.core
def Issue.streamA (i : Issue) : StreamReg := i.s.stream i.core (streamNum i.w.a)
def Issue.streamB (i : Issue) : StreamReg := i.s.stream i.core (streamNum i.w.b)

/-- The task is tainted with a record (spec/06 R189). -/
def Issue.taintRec (i : Issue) (s : State) (r : Word) : State := s.setTask i.pe i.slot ((s.task i.pe i.slot).taint r)

/-- Key of a register of a core among the turns of one cycle, above the counters. -/
def streamKey (core r : Nat) : Nat := 400000 + 24 * core + r

/-- The operation in its turn at a register of its core (R287). -/
def Issue.inTurn (i : Issue) (r : Nat) : Issue := { i with s := i.s.takeTurn (streamKey i.core r) (i.pe + 1) }

/-- `SADV`, `FADV` on the register itself (R289). -/
def StreamReg.advance (r : StreamReg) (n : Nat) : StreamReg :=
  if r.st = .opened then
    let p := Nat.min (r.pos + n) r.len
    { r with pos := p, st := if p = r.len then .atEnd else .opened }
  else r

/-! ## Stream and fibre instructions (R289 to R291) -/

/-- `SOPEN`. -/
def execSopen (w : Fields) (s : State) : Out :=
  runInstr { specStream 0xB0 with d := .streamOnly, a := .src, b := .src } w
    (fun i =>
      let r := streamNum w.d
      let n := i.sb
      if 2 ^ 32 ≤ n then i.illegal 6
      else if (i.s.stream i.core r).st ≠ .closed then i.illegal 4
      else match (i.inTurn r).s.descriptor i.asker (fieldNat 0 12 i.imm) with
        | (.inr f, s) => .done (i.taintRec s (f.record s i.asker))
        | (.inl t, s) =>
          let l := t.shape.linear i.sa
          if (t.shape.offset i.sa).isNone || decide (t.shape.total < l + n) then
            .done (i.taintRec s ((XFail.reason 2).record s i.asker))
          else .done (s.setStream i.core r
            { st := if n = 0 then .atEnd else .opened, tid := fieldNat 0 12 i.imm, shape := t.shape, md := t.md, beg := l, len := n })) s

/-- `SADV` and `FADV`. -/
def Issue.advanceStream (i : Issue) : Done :=
  let n := i.sb
  if i.streamA.st = .closed then i.illegal 5
  else if n = 0 || decide (2 ^ 32 ≤ n) then i.illegal 6
  else .done ((i.inTurn (streamNum i.w.a)).s.setStream i.core (streamNum i.w.a) (i.streamA.advance n))

def execSadv (w : Fields) (s : State) : Out :=
  runInstr { specStream 0xB1 with a := .streamOnly, b := .src } w (fun i => i.advanceStream) s

def execFadv (w : Fields) (s : State) : Out :=
  runInstr { specStream 0xB5 with a := .fibreOnly, b := .src } w (fun i => i.advanceStream) s

/-- `STEND` and `FTEND`. -/
def Issue.endStream (i : Issue) : Done :=
  let r := i.streamA
  if r.st = .closed then i.illegal 5
  else
    let s := (i.inTurn (streamNum i.w.a)).s.setPredOf i.pe (Issue.predNum i.w.d) (flagPred (r.st = .atEnd || r.st = .poisoned))
    .done (if r.st = .poisoned then i.taintRec s (r.prec.getD 0) else s)

def execStend (w : Fields) (s : State) : Out :=
  runInstr { specStream 0xB2 with d := .predOnly, a := .streamOnly } w (fun i => i.endStream) s

def execFtend (w : Fields) (s : State) : Out :=
  runInstr { specStream 0xB6 with d := .predOnly, a := .fibreOnly } w (fun i => i.endStream) s

/-- `SCLOSE` and `FCLOSE`: a parked access goes too (R281). -/
def Issue.closeStream (i : Issue) : Done :=
  if i.streamA.st = .closed then i.illegal 5
  else .done (((i.inTurn (streamNum i.w.a)).s.setStream i.core (streamNum i.w.a) {}).unpark (cometOfCore i.core) (streamPort i.core (streamNum i.w.a)))

def execSclose (w : Fields) (s : State) : Out :=
  runInstr { specStream 0xB3 with a := .streamOnly } w (fun i => i.closeStream) s

def execFclose (w : Fields) (s : State) : Out :=
  runInstr { specStream 0xB7 with a := .fibreOnly } w (fun i => i.closeStream) s

/-- The first record of a failed line among n elements from POS. -/
def Half.firstBad (h : Half) (r : StreamReg) (n : Nat) : Option Word :=
  ((List.range n).filterMap fun k => if r.pos + k < r.len then h.badAt (r.beg + r.pos + k) else none).head?

/-- The word of n elements from POS; none while a byte is missing. -/
def Half.readWord (h : Half) (r : StreamReg) (n : Nat) : Option Word :=
  ((List.range n).mapM fun k =>
    if r.len ≤ r.pos + k then some 0
    else match h.badAt (r.beg + r.pos + k) with
      | some _ => some 0
      | none => h.elem (r.beg + r.pos + k)).map fun xs => mkWord h.shape.bits n fun k => (xs[k]?).getD 0

/-- `SREAD` (R290). -/
def execSread (w : Fields) (s : State) : Out :=
  runInstr { specStream 0xBA with mods := fun w => w.mod &&& 0b1110 = 0, d := .dst, a := { stream := true, fibre := true } } w
    (fun i =>
      let val := w.mod.getLsbD 0
      let r := i.streamA
      let h := r.half val
      let n := 256 / h.shape.bits
      if r.st = .closed then i.illegal 5
      else if val && (decide (streamNum w.a < 16) || r.noval) then i.illegal 3
      else
        let s := (i.inTurn (streamNum w.a)).s
        match r.st with
        | .atEnd => .done (i.putD s 0)
        | .poisoned => .done (i.taintRec (i.putD s 0) (r.prec.getD 0))
        | _ =>
          match h.readWord r n with
          | none => .hold i.s
          | some v =>
            match h.firstBad r n with
            | some f => .done (i.taintRec (i.putD s v) f)
            | none => .done (i.putD s v)) s

/-- The record of a metadata read that fails (R293): META_UE for an uncorrectable error, with the mark of a stored poison pattern (spec/15 R425). -/
def State.metaRecord (s : State) (a : Asker) (f : XFail) : Word :=
  match f with
  | .fail c k d => if c = Cause.hbmUe then s.cometRecord a Cause.metaUe 6 d else s.cometRecord a c k d
  | f => f.record s a

/-- Reads one pointer of `FOPEN`. -/
def State.readPointer (s : State) (a : Asker) (tid : Nat) (t : HTensor) (n : Nat) : (Nat ⊕ XFail) × State :=
  match s.translate a tid t { read := true } (t.shape.place n).1 4 [] 2 with
  | (.inr f, s) => (.inr f, s)
  | (.inl ps, s) => match s.hbmRead a ps with
    | (.inr f, s) => (.inr f, s)
    | (.inl bs, s) => (.inl (natOfBytes bs), s)

/-- A tensor that `FOPEN` takes: of rank 1, and n32 if `n32` says so; else the failure (R291). -/
def State.fibreTensor (s : State) (a : Asker) (tid : Nat) (n32 : Bool) : (HTensor ⊕ XFail) × State :=
  match s.descriptor a tid with
  | (.inr f, s) => (.inr f, s)
  | (.inl t, s) => (if t.shape.rankm1 = 0 && (!n32 || t.shape.fmt = 6) then .inl t else .inr (.reason 1), s)

/-- A read of `FOPEN` that does not return: it parks the register's port and waits, or poisons the register (R280, R293). -/
def Issue.fopenStop (i : Issue) (s : State) (r : Nat) (f : XFail) : Done :=
  let a := i.asker
  match f with
  | .park kind tid page =>
    .hold ((s.parkPort a (streamPort i.core r) kind tid page).setTask i.pe i.slot { s.task i.pe i.slot with wait := .port })
  | f => .done (s.setStream i.core r { st := .poisoned, prec := some (s.metaRecord a f) })

/-- The state of a fibre once both pointers are known (R291). -/
def fibreOpened (tidi tidv : Nat) (noval : Bool) (ti tv : HTensor) (p q : Nat) (outside : Word) : StreamReg :=
  let wrong := decide (q < p) || decide (ti.shape.ext0 < q) || (!noval && decide (tv.shape.ext0 < q))
  { st := if wrong then .poisoned else if p = q then .atEnd else .opened
    tid := tidi, tidv, shape := ti.shape, shapev := tv.shape, noval, beg := p, len := q - p, prec := if wrong then some outside else none }

/-- `FOPEN` (R291). -/
def execFopen (w : Fields) (s : State) : Out :=
  runInstr { specStream 0xB4 with
      mods := fun w => w.mod &&& 0b1110 = 0, d := .fibreOnly, a := { Pos.src with chanIn := false, chanOut := false } } w
    (fun i =>
      let r := streamNum w.d
      let a := i.asker
      let port := streamPort i.core r
      let noval := w.mod.getLsbD 0
      let tidp := fieldNat 12 12 i.imm
      let tidi := fieldNat 24 12 i.imm
      let tidv := fieldNat 36 12 i.imm
      let taint (s : State) (f : XFail) : Done := .done (i.taintRec s (f.record s a))
      if 2 ^ 32 ≤ i.sa then i.illegal 5
      else if (i.s.stream i.core r).st ≠ .closed then i.illegal 4
      else match (i.s.cometPort a.comet port).parked with
        | some p =>
          if p.abandoned && i.task.wait = .port then i.fopenStop (i.s.unpark a.comet port) r abandonedFail else .hold i.s
        | none =>
          match (i.inTurn r).s.fibreTensor a tidp true with
          | (.inr f, s) => taint s f
          | (.inl tp, s) =>
          match s.fibreTensor a tidi true with
          | (.inr f, s) => taint s f
          | (.inl ti, s) =>
          match if noval then (.inl ti, s) else s.fibreTensor a tidv false with
          | (.inr f, s) => taint s f
          | (.inl tv, s) =>
          if tp.shape.ext0 ≤ i.sa + 1 then taint s (.reason 2) else
          match s.readPointer a tidp tp i.sa with
          | (.inr f, s) => i.fopenStop s r f
          | (.inl p, s) =>
          match s.readPointer a tidp tp (i.sa + 1) with
          | (.inr f, s) => i.fopenStop s r f
          | (.inl q, s) =>
            .done (s.setStream i.core r (fibreOpened tidi tidv noval ti tv p q ((XFail.reason 2).record s a)))) s

/-! ## Merging fibres (R292) -/

structure Merge where
  a : StreamReg
  b : StreamReg
  count : Nat
  found : List Nat
  /-- A coordinate is missing. -/
  waits : Bool := false

/-- Steps of the merge while both are OPEN, coordinates are buffered, and, with `lanes`, fewer than 8 have been found. -/
def mergeSteps (lanes : Bool) : Nat → Merge → Merge
  | 0, m => m
  | n + 1, m =>
    if m.a.st = .opened && m.b.st = .opened && (!lanes || decide (m.found.length < 8)) then
      match (m.a.half false).elem (m.a.beg + m.a.pos), (m.b.half false).elem (m.b.beg + m.b.pos) with
      | some x, some y =>
        if x < y then mergeSteps lanes n { m with a := m.a.advance 1 }
        else if y < x then mergeSteps lanes n { m with b := m.b.advance 1 }
        else mergeSteps lanes n { m with a := m.a.advance 1, b := m.b.advance 1, count := m.count + 1, found := x :: m.found }
      | _, _ => { m with waits := true }
    else m

/-- `FISECT` and `FISECTC`: as far as coordinates are buffered, then the results. -/
def Issue.intersect (i : Issue) (lanes : Bool) : Done :=
  if i.streamA.st = .closed then i.illegal 5
  else if i.streamB.st = .closed || streamNum i.w.a = streamNum i.w.b then i.illegal 6
  else
    let start : Nat × List Nat := match i.task.wait with | .merge c xs => (c, xs) | _ => (0, [])
    let m := mergeSteps lanes (i.streamA.len + i.streamB.len + 1) { a := i.streamA, b := i.streamB, count := start.1, found := start.2 }
    let s := (((i.inTurn (streamNum i.w.a)).inTurn (streamNum i.w.b)).s.setStream i.core (streamNum i.w.a) m.a).setStream i.core (streamNum i.w.b) m.b
    let put (s : State) (v : Word) (q : Pred) : State :=
      let s := i.putD s v
      if lanes then s.setPredOf i.pe (Issue.predNum i.w.c) q else s
    if m.a.st = .poisoned then .done (i.taintRec (put s 0 0) (m.a.prec.getD 0))
    else if m.b.st = .poisoned then .done (i.taintRec (put s 0 0) (m.b.prec.getD 0))
    else if m.waits then .hold (s.setTask i.pe i.slot { s.task i.pe i.slot with wait := .merge m.count m.found })
    else if lanes then
      .done (put s (mkWord 32 8 fun k => (m.found.reverse[k]?).getD 0) (BitVec.ofNat 32 (2 ^ m.found.length - 1)))
    else .done (put s (scalarWord m.count) 0)

def execFisect (w : Fields) (s : State) : Out :=
  runInstr { specStream 0xB8 with d := .dst, a := .fibreOnly, b := .fibreOnly, c := .predOnly } w (fun i => i.intersect true) s

def execFisectc (w : Fields) (s : State) : Out :=
  runInstr { specStream 0xB9 with d := .dst, a := .fibreOnly, b := .fibreOnly } w (fun i => i.intersect false) s

/-! ## Fetching ahead (R284, R288, R293, R343) -/

/-- The line of the first element of the window that is neither buffered nor asked for. -/
def StreamReg.nextLine (r : StreamReg) (v : Bool) : Option Nat :=
  let h := r.half v
  ((List.range (Nat.min h.window (r.len - r.pos))).find? fun k =>
    let p := (h.shape.place (r.beg + r.pos + k)).1
    (h.buf.find p none).isNone && !(h.pend.any fun x => decide (x.1 = p / 64)) && !(h.bad.any fun x => decide (x.1 = p / 64))).map
    fun k => (h.shape.place (r.beg + r.pos + k)).1 / 64

/-- The fetches of this half are metadata reads. -/
def StreamReg.isMeta (r : StreamReg) (reg : Nat) (v : Bool) : Bool := if reg < 16 then r.md else !v

/-- A line arrives. -/
def Half.fill (h : Half) (line : Nat) (bs : List Byte) : Half :=
  { h with buf := Map.putList none (64 * line) (bs.map some) h.buf, pend := h.pend.filter fun x => x.1 ≠ line }

/-- The fetch of a line fails: the register is poisoned if it is a metadata read, else the line is known to be bad (R290, R293). A register that is
poisoned already keeps its record. -/
def State.failLine (s : State) (core reg : Nat) (v : Bool) (line : Nat) (f : XFail) : State :=
  let a := s.askerOf core
  let r := s.stream core reg
  let h := r.half v
  if r.isMeta reg v then s.setStream core reg { r with st := .poisoned, prec := r.prec.or (some (s.metaRecord a f)) }
  else s.setStream core reg (r.setHalf v { h with pend := h.pend.filter (fun x => x.1 ≠ line), bad := (line, f.record s a) :: h.bad })

/-- Fills a line of the tile cache; the oldest lines give way (R283, R284). -/
def State.fillTile (s : State) (a : Asker) (key line : Nat) (v : BitVec 512) : State :=
  let rest := s.cluster.tiles.filter fun t => !decide (t.cluster = a.cluster ∧ t.key = key ∧ t.line = line)
  ({ s with cluster := { s.cluster with tiles := { cluster := a.cluster, key, line, data := v, dom := a.dom, disp := a.disp } :: rest } } : State).trimTiles a.cluster

/-- Looks up a line; one with an uncorrectable error is dropped, and is a miss (R284). -/
def State.lookTile (s : State) (cluster key line dom : Nat) : Option (BitVec 512) × State :=
  match s.cluster.tiles.find? (fun t => decide (t.cluster = cluster ∧ t.key = key ∧ t.line = line)) with
  | none => (none, s)
  | some t =>
    if !t.bad.isEmpty then
      let s := { s with cluster := { s.cluster with tiles := s.cluster.tiles.filter fun x => !decide (x.cluster = cluster ∧ x.key = key ∧ x.line = line) } }
      (none, ({ s with free := s.free + 1 }).logEvent (cluster / 16) 0x2013 (Config.openValue 0x2013 s.free) dom
        (packFields [(8, 0), (4, cluster % 16), (3, cluster / 16)]))
    else (some t.data, s)

/-- Tag of a fetch. -/
def fetchTag (core reg half : Nat) : Nat := 48 * (core % 8) + 2 * reg + half

/-- Asks a controller for a line (R304: bulk class). -/
def State.askLine (s : State) (a : Asker) (tag key phys : Nat) : State :=
  s.inject a.cluster (1 + a.comet % 2) (s.header a.cluster (1 + a.comet % 2) (s.homeOf phys) 3 0 2 0 a.dom tag)
    (requestPayload phys key 64 (key + 2 ^ 32 * a.disp) 0) []

/-- Fetches one line: from the tile cache, or asked for; or parks, or fails. -/
def State.fetchLine (s : State) (core reg : Nat) (v : Bool) (line : Nat) : State :=
  let a := s.askerOf core
  let h := (s.stream core reg).half v
  match s.descriptor a h.tid with
  | (.inr f, s) => s.failLine core reg v line f
  | (.inl t, s) =>
    match s.translate a h.tid t { read := true } (64 * line) 1 [] 2 with
    | (.inr (.park kind tid page), s) => s.parkPort a (streamPort core reg) kind tid page line v
    | (.inr f, s) => s.failLine core reg v line f
    | (.inl ps, s) =>
      match ps.head? with
      | none => s
      | some p =>
        let r := s.stream core reg
        match s.lookTile a.cluster p.key (p.phys / 64) a.dom with
        | (some d, s) => s.setStream core reg (r.setHalf v (h.fill line (bytesOfNat 64 d.toNat)))
        | (none, s) =>
          (s.setStream core reg (r.setHalf v { h with pend := (line, p.phys) :: h.pend })).askLine a
            (fetchTag core reg (if v then 1 else 0)) p.key p.phys

/-- `STREAM_FETCH`: half 1 is a fibre's values. -/
def execStreamFetch (core : Nat) (reg : Nat) (half : Nat) (s : State) : Out :=
  let r := s.stream core reg
  let v := half = 1
  if r.st ≠ .opened || (v && (decide (reg < 16) || r.noval)) || s.isParked (cometOfCore core) (streamPort core reg) then .next s
  else match r.nextLine v with
    | none => .next s
    | some line => .next ((s.fetchLine core reg v line).touch core)

/-- The failure that a response from the controller of a cluster reports. -/
def statusFail (n home : Nat) : XFail := MemFail.xfail (if n = 1 then .key home else .ue (decide (n = 3)))

/-- `STREAM_FETCH_RETURN`: a response for this register that no fetch waits for is dropped; one whose line the tile cache cannot take yet waits
(spec/14 R407). -/
def execStreamFetchReturn (core : Nat) (reg : Nat) (half : Nat) (line : Nat) (s : State) : Out :=
  let a := s.askerOf core
  let r := s.stream core reg
  let v := half = 1
  let h := r.half v
  let tag := fetchTag core reg half
  let mine (b : BitVec 512) : Bool := let x := Header.ofBits b; decide (x.type = 1) && decide (x.tag = tag)
  let waits (b : BitVec 512) (x : Nat × Nat) : Bool := decide (x.2 = bitsOf 64 64 b ∧ bitsOf 186 32 b = a.disp)
  let asked (b : BitVec 512) : Bool := h.pend.any fun x => decide (x.1 = line) && waits b x
  let stale (b : BitVec 512) : Bool := !(h.pend.any (waits b))
  match s.takePacket a.cluster (1 + a.comet % 2) (fun b => mine b && (asked b || stale b)) with
  | (some (f :: ds), s') =>
    if !asked f.bits then .next s'
    else if bitsOf 138 2 f.bits = 0 && s.sliceFull a.cluster a.dom then .next s
    else
      let s := s'
      let st := bitsOf 138 2 f.bits
      if st ≠ 0 then .next ((s.failLine core reg v line (statusFail st (s.homeOf (bitsOf 64 64 f.bits)))).touch core)
      else
        let d := ((ds.head?).map Flit.bits).getD 0
        let s := s.setStream core reg (r.setHalf v (h.fill line (bytesOfNat 64 d.toNat)))
        .next ((s.fillTile a (bitsOf 154 10 f.bits) (bitsOf 64 64 f.bits / 64) d).touch core)
  | _ => .next s

end Sys2Proof.Machine
end

