-- ==== Sys2Proof/Machine/Comet.lean ====
section
/-! DEFINITION. Comet commands: acceptance, translation in acceptance order, performing, completion (spec/10 R294 to R303). -/
namespace Sys2Proof.Machine

/-! ## Completion (R294) -/

/-- A counter rises by one and keeps the highest status. -/
def CompCtr.complete (c : CompCtr) (status : Nat) : CompCtr :=
  { c with count := if c.count < 65535 then c.count + 1 else c.count, status := Nat.max c.status status }

def Cmd.asker (c : Cmd) (core : Nat) : Asker := { comet := cometOfCore core, dom := c.dom, disp := c.disp }

/-- The command port of a core (R278). -/
def commandPort (core : Nat) : Nat := 208 + core % 8

def State.putCmd (s : State) (core k : Nat) (c : Cmd) : State :=
  s.setCmdq core ((s.cmdq core).take k ++ c :: (s.cmdq core).drop (k + 1))

def State.dropCmd (s : State) (core k : Nat) : State := (s.setCmdq core (dropAt k (s.cmdq core))).touch core

/-- A posted command has performed entirely. -/
def State.finishCmd (s : State) (core k : Nat) (c : Cmd) (status : Nat) : State :=
  (s.dropCmd core k).setCc core c.cc ((s.cc core c.cc).complete status)

/-- A blocking command ends: its value, and the record of a failure. -/
def State.answerCmd (s : State) (core k : Nat) (c : Cmd) (v : Word) (fail : Option Word) : State :=
  (s.dropCmd core k).wakeTask c.pe c.slot v fail

/-- The scalar result of `RATOM`: old value and status (R301). -/
def ratomWord (old : Nat) (status : Nat) : Word := BitVec.ofNat 256 (old % 2 ^ 64 + 2 ^ 64 * status)

/-- A command fails with a record (R294, R297, R299 to R301). -/
def State.failCmd (s : State) (core k : Nat) (c : Cmd) (r : Word) (pattern : Bool := storedPattern r) : State :=
  match c.op with
  | .fgrd => s.answerCmd core k c 0 (some r)
  | .ratom => (s.cometPost (c.asker core) r).answerCmd core k c (ratomWord 0 3) none
  | .pref => s.dropCmd core k
  | _ => (s.cometPost (c.asker core) r pattern).finishCmd core k c 3

/-! ## Pool ranges of commands (R296, R297, spec/08 R242) -/

/-- A pool range from the byte of coordinates: its address, or the reason of R242. -/
def State.poolRange (s : State) (core tid coords n : Nat) : Nat ⊕ Nat :=
  match s.poolTensor core tid with
  | none => .inr 1
  | some t =>
    match t.shape.offset coords with
    | none => .inr 2
    | some a => if t.shape.span < a + n then .inr 3 else .inl (s.tensorBase core t + a)

/-- Reads pool bytes for a Comet, through the ports of their banks (spec/08 R224). -/
def State.cometPoolRead (s : State) (core p n : Nat) : (Nat ⊕ List Byte) × State :=
  match (s.bankServed core cometRequester p n).poolRead core p n with | (.inl bs, s) => (.inr bs, s) | (.inr w, s) => (.inl w, s)

/-- Writes pool bytes for a Comet: the word that failed, if one did. -/
def State.cometPoolWrite (s : State) (core p : Nat) (bs : List Byte) : Option Nat × State :=
  (s.bankServed core cometRequester p bs.length).poolWrite core p bs

/-- The record of a pool range that fails (R296). -/
def State.poolFailRecord (s : State) (a : Asker) (tid reason : Nat) : Word :=
  s.cometRecord a Cause.protection 6 (reason + 16 * (tid % 4096))

/-- The record of a pool word that cannot be read. -/
def State.poolUeRecord (s : State) (a : Asker) (core tid w : Nat) : Word := s.cometRecord a Cause.poolUe 6 (s.poolUeDetail core tid w)

/-! ## Translation (R276, R295) -/

/-- How a part of a command comes out of translation. -/
inductive Xlat (α : Type) where
  | ok (x : α)
  | failed (r : Word)
  /-- The port parks; of a gather or scatter, at this entry. -/
  | parks (kind tid page entry : Nat)

/-- The outcome of an access as one of these. -/
def xlatOf {α : Type} (s : State) (a : Asker) (x : α ⊕ XFail) : Xlat α :=
  match x with
  | .inl v => .ok v
  | .inr (.park kind tid page) => .parks kind tid page 0
  | .inr f => .failed (f.record s a)

/-- One side of a copy: pool address, or parts of HBM. -/
def State.copySide (s : State) (core : Nat) (a : Asker) (pool write : Bool) (tid coords n : Nat) : Xlat (Nat × List Piece) × State :=
  if pool then
    match s.poolRange core tid coords n with
    | .inl p => (.ok (p, []), s)
    | .inr reason => (.failed (s.poolFailRecord a tid reason), s)
  else
    match s.resolve a tid { read := !write, write } coords n with
    | (r, s) => (xlatOf s a (r.map (fun ps => (0, ps)) id), s)

/-- The tensor byte offset of coordinates, as this module's descriptor of the context's tensor gives it. -/
def State.tensorOffset (s : State) (a : Asker) (tid coords : Nat) : Nat ⊕ XFail :=
  match (s.descriptor a tid).1 with
  | .inr f => .inr f
  | .inl t => match t.shape.offset coords with | some off => .inl off | none => .inr (.reason 2)

/-- A command reaches a tensor of another module, at a place that only that module's descriptor tells (spec/17 R482). -/
def Cmd.away (c : Cmd) (tid : Nat) : Cmd := { c with translated := true, remote := true, tidd := tid }

/-- `CPY`, and `XCHG` to the own module; to another module only the source is translated here (R296, R300). Without bytes there is nothing to
translate. -/
def State.xlatCopy (s : State) (core : Nat) (a : Asker) (c : Cmd) (remote : Bool) : Xlat Cmd × State :=
  if c.n = 0 then (.ok { c with translated := true }, s) else
  match s.copySide core a c.ssp false c.tids c.ca c.n with
  | (.failed r, s) => (.failed r, s)
  | (.parks k t p e, s) => (.parks k t p e, s)
  | (.ok x, s) =>
    if remote then (.ok ({ c with srca := x.1, src := x.2 }.away c.tidd), s) else
      match s.copySide core a c.dsp true c.tidd c.cb c.n with
      | (.failed r, s) => (.failed r, s)
      | (.parks k t p e, s) => (.parks k t p e, s)
      | (.ok y, s) => (.ok { c with translated := true, srca := x.1, src := x.2, dsta := y.1, dst := y.2 }, s)

/-- One entry of a gather or scatter: its g bytes lie in the span and in one page (R297). -/
def State.xlatEntry (s : State) (a : Asker) (t : HTensor) (c : Cmd) (coords : Nat) : (Piece ⊕ XFail) × State :=
  match t.shape.offset coords with
  | none => (.inr (.reason 2), s)
  | some off =>
    if t.shape.span < off + c.g || off / 2 ^ t.pageBits ≠ (off + c.g - 1) / 2 ^ t.pageBits then (.inr (.reason 2), s)
    else match s.translate a c.tids t { read := c.op = .gath, write := c.op = .scat } off c.g [] 2 with
      | (.inr f, s) => (.inr f, s)
      | (.inl ps, s) => match ps with | p :: _ => (.inl { p with len := c.g }, s) | [] => (.inr (.reason 2), s)

/-- All entries of a list, but for those known to have failed; a failing one is noted, a parking one stops. -/
def State.xlatEntries (s : State) (a : Asker) (t : HTensor) (c : Cmd) (j : Nat) : List Nat → Xlat Cmd × State
  | [] => (.ok { c with translated := true }, s)
  | x :: xs =>
    if c.bad.any fun b => b.1 = j then s.xlatEntries a t c (j + 1) xs else
      match s.xlatEntry a t c x with
      | (.inl p, s) => s.xlatEntries a t { c with ents := c.ents ++ [(j, p)] } (j + 1) xs
      | (.inr (.park kind tid page), s) => (.parks kind tid page j, s)
      | (.inr f, s) => s.xlatEntries a t { c with bad := c.bad ++ [(j, f.record s a)] } (j + 1) xs

/-- The list entries of a gather or scatter as coordinates. -/
def wordsOfBytes : Nat → List Byte → List Nat
  | 0, _ => []
  | n + 1, bs => natOfBytes (bs.take 8) :: wordsOfBytes n (bs.drop 8)

/-- Every entry fails in the same way. -/
def failAll (c : Cmd) (r : Word) : Cmd := { c with translated := true, bad := (List.range c.n).map fun j => (j, r) }

/-- `GATH` and `SCAT` (R297). `tids` is `TIDH`, `tidd` is `TIDL`. -/
def State.xlatGather (s : State) (core : Nat) (a : Asker) (c : Cmd) : Xlat Cmd × State :=
  if (s.poolTensor core c.tidd).elim false (fun t => decide (t.fmt ≠ 7)) then (.failed (s.poolFailRecord a c.tidd 4), s) else
  match s.poolRange core c.tidd c.ca (8 * c.n) with
  | .inr reason => (.failed (s.poolFailRecord a c.tidd reason), s)
  | .inl la =>
  match s.poolRange core c.tidp c.cb (c.g * c.n) with
  | .inr reason => (.failed (s.poolFailRecord a c.tidp reason), s)
  | .inl da =>
  match s.cometPoolRead core la (8 * c.n) with
  | (.inl w, s') => (.failed (s.poolUeRecord a core c.tidd w), s')
  | (.inr bs, s) =>
  if c.n = 0 then (.ok { c with translated := true, dsta := da }, s) else
  match s.descriptor a c.tids with
  | (.inr f, s) => (.ok (failAll { c with dsta := da } (f.record s a)), s)
  | (.inl t, s) => s.xlatEntries a t { c with dsta := da, ents := [] } 0 (wordsOfBytes c.n bs)

/-- `FGRD` and `FGWR` (R299): the byte address is a multiple of the width. -/
def State.xlatFine (s : State) (a : Asker) (c : Cmd) : Xlat Cmd × State :=
  match s.descriptor a c.tids with
  | (.inr f, s) => (xlatOf s a (.inr f), s)
  | (.inl t, s) =>
    match t.shape.offset c.ca with
    | none => (.failed ((XFail.reason 2).record s a), s)
    | some off =>
      if off % c.g ≠ 0 || decide (t.shape.span < off + c.g) then (.failed ((XFail.reason 2).record s a), s)
      else match s.translate a c.tids t { read := c.op = .fgrd, write := c.op = .fgwr, fg := true } off c.g [] 2 with
        | (r, s) => (xlatOf s a (r.map (fun ps => { c with translated := true, src := ps }) id), s)

/-- `RATOM` to the own module (R301). -/
def State.xlatAtom (s : State) (a : Asker) (c : Cmd) : Xlat Cmd × State :=
  match s.descriptor a c.tids with
  | (.inr f, s) => (xlatOf s a (.inr f), s)
  | (.inl t, s) =>
    if t.shape.fmt ≠ c.fmt then (.failed ((XFail.reason 1).record s a), s) else
    match t.shape.offset c.ca with
    | none => (.failed ((XFail.reason 2).record s a), s)
    | some off =>
      match s.translate a c.tids t { read := true, write := true } off (elemBytes c.fmt) [] 2 with
      | (r, s) => (xlatOf s a (r.map (fun ps => { c with translated := true, src := ps }) id), s)

/-- The command goes to another module. -/
def State.isRemote (s : State) (c : Cmd) : Bool := (decide (c.op = .xchg) || decide (c.op = .ratom)) && decide (c.modl ≠ s.fab.moduleId)

/-- Raw exchange is permitted by the destination module (R300, spec/16 R459, spec/17 R487). -/
def State.rawPermitted (s : State) (m : Nat) : Bool :=
  if m = s.fab.moduleId then s.sag.rawx
  else (firstBelow 12 fun l => let x := s.fabLink l; decide (x.peer = some m) && x.rawx).isSome

/-- The source and destination of a raw exchange are whole frames (R300); of a destination on another module that module judges. -/
def State.wholeFrames (s : State) (a : Asker) (c : Cmd) : Bool :=
  let edge (tid coords : Nat) : Bool :=
    match s.tensorOffset a tid coords with
    | .inl off => decide (off % 65536 = 0)
    | .inr _ => true
  !c.ssp && decide (c.n % 65536 = 0) && edge c.tids c.ca && (s.isRemote c || edge c.tidd c.cb)

/-- Translates a command. -/
def State.xlatCmd (s : State) (core : Nat) (c : Cmd) : Xlat Cmd × State :=
  let a := c.asker core
  match c.op with
  | .cpy => s.xlatCopy core a c false
  | .xchg =>
    -- the two conditions of a raw exchange come before its translation (R300)
    if c.raw && !s.wholeFrames a c then (.failed ((XFail.reason 2).record s a), s)
    else if c.raw && !s.rawPermitted c.modl then (.ok { c with translated := true }, s)
    else s.xlatCopy core a c (s.isRemote c)
  | .gath | .scat => s.xlatGather core a c
  | .fgrd | .fgwr => s.xlatFine a c
  | .ratom => if s.isRemote c then (.ok (c.away c.tids), s) else s.xlatAtom a c
  | .pref => (.ok { c with translated := true }, s)

/-! ## Order (R295) -/

/-- HBM and pool ranges of a translated command. -/
def Cmd.hbmRanges (c : Cmd) : List (Nat × Nat) := (c.src ++ c.dst ++ c.ents.map Prod.snd).map fun p => (p.phys, p.len)
def Cmd.poolRanges (c : Cmd) : List (Nat × Nat) :=
  match c.op with
  | .cpy | .xchg => (if c.ssp then [(c.srca, c.n)] else []) ++ (if c.dsp then [(c.dsta, c.n)] else [])
  | .gath | .scat => [(c.dsta, c.g * c.n)]
  | _ => []

/-- Two commands may reach common bytes of memory. Which bytes of another module's tensor a command reaches only that module knows, so two
that name one tensor there are taken to meet. -/
def Cmd.meets (c d : Cmd) : Bool :=
  rangesOverlap c.hbmRanges d.hbmRanges || (c.remote && d.remote && decide (c.modl = d.modl ∧ c.dom = d.dom ∧ c.tidd = d.tidd))

/-- Two commands of one core reach common bytes of memory or of the pool. -/
def Cmd.overlaps (c d : Cmd) : Bool := c.meets d || rangesOverlap c.poolRanges d.poolRanges

/-- A command of another core of the Comet reaches bytes that this one reaches. Of one that is not translated the ranges are those that its
translation finds now; one that is parked is taken to reach every byte of its tensors (spec/15 R428; log entry 111). -/
def State.meetsOther (s : State) (core : Nat) (d c : Cmd) : Bool :=
  if d.translated then d.meets c else
    match (s.xlatCmd core { d with ents := [] }).1 with
    | .ok d => d.meets c
    | .failed _ => false
    | .parks _ _ _ _ => decide (d.dom = c.dom) && [d.tids, d.tidd].any fun t => decide (t = c.tids) || decide (t = c.tidd)

/-- A command that its Comet accepted before, from another of its eight cores, reaches bytes that this one reaches (spec/15 R428). -/
def State.waitsOther (s : State) (core : Nat) (c : Cmd) : Bool :=
  (firstBelow 8 fun j =>
    let other := 8 * (core / 8) + j
    decide (other ≠ core) && (s.cmdq other).any fun d => decide (d.order < c.order) && s.meetsOther other d c).isSome

/-- The pool range of the list of a gather or scatter, which is read at translation. -/
def State.listRange (s : State) (core : Nat) (c : Cmd) : List (Nat × Nat) :=
  if c.op = .gath || c.op = .scat then
    match s.poolRange core c.tidd c.ca (8 * c.n) with | .inl p => [(p, 8 * c.n)] | .inr _ => []
  else []

/-! ## Gather packets (R298, spec/13 R355, R363; the layouts are the model's own, log entry 36) -/

/-- The header payload of a gather request or response: entries at [137:128], bytes of an entry at [153:138], the number that a response copies at
[217:154], the stack of a request at [225:218]; at [241:226] the status of each entry of a response, and at [447:256] its elements. -/
def gatherPayload (stack n g id : Nat) (statuses elems : Nat := 0) : Nat :=
  packFields [(64, 0), (10, n), (16, g), (64, id), (8, stack), (16, statuses), (14, 0), (192, elems)]

/-- One entry: its physical address at [63:0], its key slot at [73:64], its element at [127:104]. -/
def gatherEntryBits (e : Nat × Piece) : Nat := packFields [(64, e.2.phys), (10, e.2.key), (30, 0), (24, e.1)]

/-- The lists of n after n of a list. `fuel` bounds them. -/
def chunksOf {α : Type} (n : Nat) (xs : List α) : Nat → List (List α)
  | 0 => []
  | fuel + 1 => if xs.isEmpty then [] else xs.take n :: chunksOf n (xs.drop n) fuel

/-- Four entries go in each further flit. -/
def gatherFlits (es : List (Nat × Piece)) : List (BitVec 512) :=
  (chunksOf 4 es es.length).map fun q => BitVec.ofNat 512 (packFields (q.map fun e => (128, gatherEntryBits e)))

/-- The entries of a gather request. -/
def gatherEntries (head : BitVec 512) (data : List (BitVec 512)) : List (Nat × Piece) :=
  (List.range (bitsOf 128 10 head)).map fun k =>
    let d := (data[k / 4]?).getD 0
    let lo := 128 * (k % 4)
    (bitsOf (lo + 104) 24 d, { phys := bitsOf lo 64 d, key := bitsOf (lo + 64) 10 d, len := bitsOf 138 16 head, cmp := false })

/-- The entries of a packed response: element, status, bytes. -/
def gatheredOf (g : Nat) (head : BitVec 512) (data : List (BitVec 512)) : List (Nat × Nat × List Byte) :=
  let bs := data.flatMap fun d => bytesOfNat 64 d.toNat
  (List.range (bitsOf 128 10 head)).map fun k => (bitsOf (256 + 24 * k) 24 head, bitsOf (226 + 2 * k) 2 head, (bs.drop (g * k)).take g)

/-- The packed response to a request that is served: bursts of 64 bytes, from the controller that took it (R298, spec/13 R363). -/
def State.replyGather (s : State) (r : GatherReq) : State :=
  let bs := r.served.flatMap fun x => x.2.2
  let data := (chunksOf 64 bs bs.length).map fun q => BitVec.ofNat 512 (natOfBytes q)
  s.inject r.via 3 ((Header.ofBits r.hdr).reply 7 data.length)
    (gatherPayload 0 r.served.length 0 r.id (packFields (r.served.map fun x => (2, x.2.1))) (packFields (r.served.map fun x => (24, x.1)))) data

/-! ## Performing (R296 to R303) -/

/-- Bytes of the source of a copy, or the record of the failure. -/
def State.copyRead (s : State) (core : Nat) (a : Asker) (c : Cmd) : (List Byte ⊕ Word) × State :=
  if c.ssp then
    match s.cometPoolRead core c.srca c.n with
    | (.inr bs, s') => (.inl bs, s')
    | (.inl w, s') => (.inr (s.poolUeRecord a core c.tids w), s')
  else
    match s.hbmRead a c.src with
    | (.inl bs, s) => (.inl bs, s)
    | (.inr f, s) => (.inr (f.record s a), s)

/-- Line counts of the frames that a raw exchange reads; none for one stored plain (R300, spec/17 R487). -/
def State.sourceForms (s : State) (c : Cmd) : List (List Nat) :=
  if c.raw then c.src.map fun p => let f := s.frame (p.phys / 65536); if f.z then f.lines else [] else []

/-- Stages the bytes of an exchange write to another module, until commit (spec/17 R486). Of a raw one, which starts at a frame, each frame's bytes keep
its form. -/
def State.stageRemote (s : State) (a : Asker) (modl tid coords off : Nat) (forms : List (List Nat)) (bs : List Byte) : Nat → State
  | 0 => s
  | fuel + 1 =>
    if bs.isEmpty then s else
      let k := Nat.min bs.length (64 - off % 64)
      (s.stageInto a
        (fun l => decide (l.cluster = a.cluster ∧ l.dom = a.dom ∧ l.disp = a.disp ∧ l.line = off / 64 ∧ l.modl = some modl ∧ l.tid = tid ∧ l.coords = coords))
        { cluster := a.cluster, dom := a.dom, disp := a.disp, key := 0, line := off / 64, mask := 0, data := 0, modl := some modl, tid, coords, form := forms.head? }
        (off % 64) (bs.take k)).stageRemote a modl tid coords (off + k) (if (off + k) % 65536 = 0 then forms.tail else forms) (bs.drop k) fuel

/-- Sends the bytes of an exchange to another module, or stages them. -/
def State.copyOut (s : State) (core k : Nat) (c : Cmd) (forms : List (List Nat)) (bs : List Byte) : State :=
  let a := c.asker core
  if s.restartable a then (s.stageRemote a c.modl c.tidd c.cb 0 forms bs (bs.length / 64 + 2)).finishCmd core k c 0
  else
    (s.sendExch { modl := c.modl, dom := c.dom, disp := c.disp, core, cc := c.cc, tid := c.tidd, coords := c.cb, start := 0, data := bs, raw := c.raw
                  forms, tag := c.order }).putCmd core k { c with sent := true }

/-- Performs a copy or exchange. -/
def State.doCopy (s : State) (core k : Nat) (c : Cmd) : State :=
  let a := c.asker core
  let forms := s.sourceForms c
  if c.raw && !s.wholeFrames a c then s.failCmd core k c ((XFail.reason 2).record s a)
  else if c.raw && !s.rawPermitted c.modl then s.finishCmd core k c 1
  else if c.n = 0 then s.finishCmd core k c 0
  else if s.isRemote c && !s.reachable c.modl then s.finishCmd core k c 3
  else match s.copyRead core a c with
    | (.inr r, s) => s.failCmd core k c r
    | (.inl bs, s) =>
      if s.isRemote c then s.copyOut core k c forms bs
      else if c.dsp then
        match s.cometPoolWrite core c.dsta bs with
        | (some w, s') => s'.failCmd core k c (s.poolUeRecord a core c.tidd w)
        | (none, s) => s.finishCmd core k c 0
      else (if c.raw then s.writeForms a c.dst forms bs else s.hbmWrite a c.dst bs).finishCmd core k c 0

/-- The lowest failed entry. -/
def lowestBad (bs : List (Nat × Word)) : Option (Nat × Word) :=
  bs.foldl (fun m b => match m with | none => some b | some x => if b.1 < x.1 then some b else some x) none

/-- A gather or scatter whose entries are all served: one record for its first failing entry, with j in DETAIL[47:24] (R297); the response to a stored
pattern is the one of R425, though j takes the place of DETAIL[35] (log entry 112). -/
def State.finishGather (s : State) (core k : Nat) (c : Cmd) : State :=
  match lowestBad c.bad with
  | none => s.finishCmd core k c 0
  | some (j, r) =>
    let r' : Word := BitVec.ofNat 256 (r.toNat / 2 ^ 48 * 2 ^ 48 + packFields [(24, recDetail r), (24, j)])
    s.failCmd core k c r' (storedPattern r)

/-- Zero for the pool bytes of failed entries of a gather. -/
def State.zeroBad (s : State) (core : Nat) (c : Cmd) : State :=
  c.bad.foldl (fun s b => (s.cometPoolWrite core (c.dsta + c.g * b.1) (List.replicate c.g 0)).2) s

/-- What the response to a packet of a command copies: its place among the commands of its Comet, and its dispatch. -/
def Cmd.id (c : Cmd) : Nat := c.order % 2 ^ 32 + 2 ^ 32 * c.disp

/-- The controller to which a Comet sends the gather requests for a stack: that of the cluster with its own [x,y] on the stack's die (spec/13 R363). -/
def gatherVia (cluster stack : Nat) : Nat := 16 * (stack / 3) + cluster % 16

/-- One gather request packet, of up to eight entries (R298, spec/13 R355). -/
def State.sendGatherPart (s : State) (core : Nat) (c : Cmd) (stack : Nat) (es : List (Nat × Piece)) : State :=
  let a := c.asker core
  let data := gatherFlits es
  s.inject a.cluster (1 + a.comet % 2) (s.header a.cluster (1 + a.comet % 2) (gatherVia a.cluster stack) 3 6 2 data.length a.dom (cmdTag core c.tag))
    (gatherPayload stack es.length c.g c.id) data

/-- Sends the entries of a gather to their stacks, stack by stack (R298, spec/13 R363). -/
def State.sendGather (s : State) (core k : Nat) (c : Cmd) : State :=
  let s := s.zeroBad core c
  if c.ents.isEmpty then s.finishGather core k c else
    let s := foldUp 24 s fun s st =>
      (chunksOf 8 (c.ents.filter fun e => decide (lineStack (s.servedLine e.2.phys) = st)) c.ents.length).foldl (fun s es => s.sendGatherPart core c st es) s
    s.putCmd core k { c with sent := true, parts := c.ents.length }

/-- Takes the entries of a packed response (R298): the bytes go to the pool; a failed entry leaves zero there, and its record. -/
def State.takeGathered (s : State) (core : Nat) (c : Cmd) : List (Nat × Nat × List Byte) → Cmd × State
  | [] => (c, s)
  | (j, st, bs) :: es =>
    let a := c.asker core
    let dst := c.dsta + c.g * j
    let r : Option Word × State :=
      if st = 0 then
        match s.cometPoolWrite core dst bs with
        | (none, s) => (none, s)
        | (some w, s') => (some (s.poolUeRecord a core c.tidp w), s')
      else
        let home := s.homeOf (((c.ents.find? fun e => decide (e.1 = j)).map fun e => e.2.phys).getD 0)
        (some ((statusFail st home).record s a), (s.cometPoolWrite core dst (List.replicate c.g 0)).2)
    r.2.takeGathered core { c with parts := c.parts - 1, bad := match r.1 with | some w => c.bad ++ [(j, w)] | none => c.bad } es

/-- The packed response of a gather is taken; one that no command of the core waits for is dropped. -/
def State.gatherResponse (s : State) (core k : Nat) (c : Cmd) : State :=
  let a := c.asker core
  let mine (b : BitVec 512) : Bool := let x := Header.ofBits b; decide (x.type = 7) && decide (x.tag = cmdTag core c.tag)
  match s.takePacket a.cluster (1 + a.comet % 2) mine with
  | (some (f :: ds), s) =>
    if flitId f.bits ≠ c.id then s else
      match s.takeGathered core c (gatheredOf c.g f.bits (ds.map Flit.bits)) with
      | (c, s) =>
        let s := (s.putCmd core k c).touch core
        if c.parts = 0 then s.finishGather core k c else s
  | _ => s

/-- Writes the entries of a scatter in ascending order (R297). -/
def State.doScatter (s : State) (core k : Nat) (c : Cmd) : State :=
  let a := c.asker core
  match c.ents.foldl (fun (acc : List (Nat × Word) × State) e =>
      match acc.2.cometPoolRead core (c.dsta + c.g * e.1) c.g with
      | (.inr bs, s) => (acc.1, s.hbmWrite a [e.2] bs)
      | (.inl w, s) => (acc.1 ++ [(e.1, acc.2.poolUeRecord a core c.tidp w)], s)) (c.bad, s) with
  | (bad, s) => s.finishGather core k { c with bad }

/-- The packet type of the request of a fine-grain command; its response has the next (spec/13 R355). -/
def CmdOp.request (op : CmdOp) : Nat := match op with | .fgwr => 2 | .ratom => 4 | _ => 0

/-- Sends a fine-grain command to its controller, in the latency class (R304): n bytes, with an operand, and the format and operation of an atomic. -/
def State.askFine (s : State) (core k : Nat) (c : Cmd) (p : Piece) (n : Nat) : State :=
  let a := c.asker core
  (s.inject a.cluster (1 + a.comet % 2) (s.header a.cluster (1 + a.comet % 2) (s.homeOf p.phys) 3 c.op.request 0 0 a.dom (cmdTag core c.tag))
    (requestPayload p.phys p.key n (p.key + 2 ^ 32 * c.disp) (c.data.toNat % 2 ^ (8 * n)) c.fmt c.aop) []).putCmd core k { c with sent := true }

/-- A fine-grain read goes to its controller; of a restartable dispatch it sees the lines that its cluster has staged (R285). -/
def State.fineRead (s : State) (core k : Nat) (c : Cmd) : State :=
  let a := c.asker core
  match c.src with
  | p :: _ =>
    if s.restartable a then
      match s.hbmRead a c.src with
      | (.inl bs, s) => s.answerCmd core k c (BitVec.ofNat 256 (natOfBytes bs)) none
      | (.inr f, s) => s.failCmd core k c (f.record s a)
    else s.askFine core k c p c.g
  | [] => s.answerCmd core k c 0 none

/-- A fine-grain write goes to its controller, or to staging (R285). -/
def State.sendFine (s : State) (core k : Nat) (c : Cmd) : State :=
  let a := c.asker core
  match c.src with
  | p :: _ => if s.restartable a then (s.writePiece a p (bytesOfNat c.g c.data.toNat)).finishCmd core k c 0 else s.askFine core k c p c.g
  | [] => s.finishCmd core k c 0

/-- The bytes that a fine-grain write or atomic has written update the tile cache of its cluster (R284). -/
def State.tilesWritten (s : State) (a : Asker) (c : Cmd) (bs : List Byte) : State :=
  c.src.foldl (fun s p => s.updateTiles a.cluster p.key p.phys bs) s

/-- What the response to a fine-grain command does: the value of a read, the acknowledgement of a write, the old value of an atomic, or a failure. -/
def State.fineAnswer (s : State) (core k : Nat) (c : Cmd) (b : BitVec 512) : State :=
  let a := c.asker core
  let st := bitsOf 138 2 b
  let v := bitsOf 256 128 b
  if st ≠ 0 then s.failCmd core k c ((statusFail st (s.homeOf (bitsOf 64 64 b))).record s a)
  else match c.op with
  | .fgwr => (s.tilesWritten a c (bytesOfNat c.g c.data.toNat)).finishCmd core k c 0
  | .ratom =>
    let n := elemBytes c.fmt
    (s.tilesWritten a c (bytesOfNat n (aluNew c.fmt c.aop v (c.data.toNat % 2 ^ (8 * n))))).answerCmd core k c (ratomWord v 0) none
  | _ => s.answerCmd core k c (BitVec.ofNat 256 v) none

/-- The response to a fine-grain command of this dispatch ends it. -/
def State.ackFine (s : State) (core k : Nat) (c : Cmd) : State :=
  let a := c.asker core
  match s.takePacket a.cluster (1 + a.comet % 2) (fun b => let x := Header.ofBits b
      decide (x.type = c.op.request + 1) && decide (x.tag = cmdTag core c.tag) && decide (bitsOf 186 32 b = c.disp)) with
  | (some (f :: _), s) => s.fineAnswer core k c f.bits
  | _ => s

/-- Sends a `RATOM` to another module (spec/17 R488, R490): one that no link can carry has failed; while 256 requests of its source link are
outstanding it waits. -/
def State.sendAtom (s : State) (core k : Nat) (c : Cmd) : State :=
  let a := c.asker core
  match if s.reachable c.modl then s.currentLink c.modl else none with
  | none => (s.cometPost a (s.linkDownRecord c.dom c.disp c.modl)).answerCmd core k c (ratomWord 0 3) none
  | some l =>
    if 256 ≤ s.ratomsOn l then s else
      let x := s.fabLink l
      let epoch := s.peerEpoch c.modl
      let h := { s.header a.cluster (1 + a.comet % 2) 0 7 4 0 0 c.dom 0 with dmod := c.modl }
      let flit := flitOf h (ratomPayload x.seq l c.fmt c.aop c.tids epoch c.ca (c.data.toNat % 2 ^ 64))
      let r : RAtom := { core, order := c.order, dom := c.dom, modl := c.modl, seq := x.seq, slink := l, link := l, epoch := BitVec.ofNat 32 epoch, flit
                         sentAt := s.now }
      let s := s.setFabLink l { x with seq := (x.seq + 1) % 2 ^ 16 }
      let s := { s with fab := { s.fab with ratoms := s.fab.ratoms ++ [r] } }
      (s.sendFlit l { vc := 0, bits := flit, dom := some c.dom }).putCmd core k { c with sent := true }

/-- `RATOM` goes to the own module's controller (R301). -/
def State.doAtom (s : State) (core k : Nat) (c : Cmd) : State :=
  match c.src with
  | p :: _ => s.askFine core k c p (elemBytes c.fmt)
  | [] => s.answerCmd core k c (ratomWord 0 3) none

/-- One line of a `PREF`: filled if its page is translated and its read succeeds, else dropped (R303). -/
def State.prefLine (s : State) (a : Asker) (tid : Nat) (t : HTensor) (line : Nat) : State :=
  match s.translate a tid t { read := true } (64 * line) 1 [] 2 with
  | (.inl (p :: _), s) =>
    match s.memRead p.key a.dom p.phys 64 with
    | (.inl bs, s) => s.fillTile a p.key (p.phys / 64) (BitVec.ofNat 512 (natOfBytes bs))
    | (.inr _, s) => s
  | (_, s) => s

def State.doPref (s : State) (core k : Nat) (c : Cmd) : State :=
  let a := c.asker core
  let s := s.dropCmd core k
  match s.descriptor a c.tids with
  | (.inr _, s) => s
  | (.inl t, s) =>
    match t.shape.offset c.ca with
    | none => s
    | some off =>
      let last := Nat.min (off + c.n) t.shape.span
      if c.n = 0 || last ≤ off then s
      else foldUp ((last - 1) / 64 + 1 - off / 64) s fun s j => s.prefLine a c.tids t (off / 64 + j)

/-- Performs a translated command: fine-grain commands and gathers send requests; the accesses of the others to this module's memory are made within the
step (log entry 126). -/
def State.performCmd (s : State) (core k : Nat) (c : Cmd) : State :=
  match c.op with
  | .cpy | .xchg => s.doCopy core k c
  | .gath => s.sendGather core k c
  | .scat => s.doScatter core k c
  | .fgrd => s.fineRead core k c
  | .fgwr => s.sendFine core k c
  | .ratom => if s.isRemote c then s.sendAtom core k c else s.doAtom core k c
  | .pref => s.doPref core k c

/-- Translates a command that is not yet translated, or parks the command port (R280, R295). -/
def State.translateAt (s : State) (core k : Nat) (c : Cmd) : State :=
  match s.xlatCmd core { c with ents := [] } with
  | (.ok c, s) => (s.putCmd core k c).touch core
  | (.failed r, s) => s.failCmd core k c r
  | (.parks kind tid page entry, s) =>
    if c.op = .pref || s.drains (c.asker core) then s.dropCmd core k else s.parkPort (c.asker core) (commandPort core) kind tid page entry

/-- The command at place k may be translated: the earlier ones are, no parked one holds it, and none that writes its list is still to
perform (R295). -/
def State.mayTranslate (s : State) (core k : Nat) (c : Cmd) : Bool :=
  let before := (s.cmdq core).take k
  before.all Cmd.translated && !s.isParked (cometOfCore core) (commandPort core) &&
    before.all fun d => !rangesOverlap d.poolRanges (s.listRange core c)

/-- A command that has to put lines into the slice waits for the ninth domain's share (spec/14 R407): a staged write, a `PREF`. -/
def State.waitsSlice (s : State) (core : Nat) (c : Cmd) : Bool :=
  let a := c.asker core
  s.sliceFull a.cluster a.dom &&
    match c.op with
    | .cpy => !c.dsp && s.restartable a
    | .xchg | .scat | .fgwr => s.restartable a
    | .pref => true
    | .gath | .fgrd | .ratom => false

/-- `COMET_COMMAND_PERFORM`: the command at this place of a core's queue is translated; once translated it performs, unless one accepted before it
reaches bytes that it reaches; one that has been sent ends with its response. -/
def execCometCommandPerform (core : Nat) (index : Nat) (s : State) : Out :=
  match (s.cmdq core)[index]? with
  | none => .next s
  | some c =>
    if !c.translated then
      if s.mayTranslate core index c then .next (s.translateAt core index c) else .next s
    else if c.sent then
      match c.op with
      | .fgrd | .fgwr | .ratom => .next (s.ackFine core index c)
      | .gath => .next (s.gatherResponse core index c)
      | _ => .next s
    else if (((s.cmdq core).take index).any fun d => d.overlaps c) || s.waitsOther core c || s.waitsSlice core c then .next s
    else .next ((s.performCmd core index c).touch core)

/-- A gather request that has arrived at a controller of the die goes to the gather unit of its stack (spec/13 R363); one whose part has ended is
dropped (spec/14 R410). -/
def State.acceptGather (s : State) (stack : Nat) : State :=
  let mine (b : BitVec 512) : Bool := decide ((Header.ofBits b).type = 6) && decide (bitsOf 218 8 b = stack)
  match firstBelow 16 fun n => ((s.takePacket (16 * (stack / 3) + n) 3 mine).1).isSome with
  | none => s
  | some n =>
    let via := 16 * (stack / 3) + n
    match s.takePacket via 3 mine with
    | (some (f :: ds), s) =>
      let r : GatherReq := { via, hdr := BitVec.ofNat 64 f.bits.toNat, id := flitId f.bits, todo := gatherEntries f.bits (ds.map Flit.bits) }
      if (s.dispOf r.asker.die r.asker.dom r.asker.disp).isNone then s else s.setGatherQ stack (s.gatherQ stack ++ [r])
    | _ => s

/-- `GATHER_UNIT_SERVE`: the oldest entry of a stack's requests; the last of a request sends the packed response (R298). -/
def execGatherUnitServe (stack : Nat) (s : State) : Out :=
  let s := s.acceptGather stack
  match s.gatherQ stack with
  | [] => .next s
  | r :: rs =>
    match r.todo with
    | [] => .next ((s.setGatherQ stack rs).replyGather r)
    | e :: es =>
      match s.readPiece r.asker e.2 with
      | (got, s) =>
        let x : Nat × Nat × List Byte := match got with | .inl bs => (e.1, 0, bs) | .inr f => (e.1, f.status, List.replicate e.2.len 0)
        let r := { r with todo := es, served := r.served ++ [x] }
        .next (if es.isEmpty then (s.setGatherQ stack rs).replyGather r else s.setGatherQ stack (r :: rs))

/-! ## Instructions (R294 to R303) -/

def specComet (op : Nat) : OpSpec := { op, perLane := false, laneCheck := false }

/-- A source of the forms that allow no channel operand. -/
def Pos.srcWide : Pos := { Pos.src with chanIn := false, chanOut := false }

/-- The least number that names no command of the queue. -/
def freeTag (q : List Cmd) : Nat := (firstBelow 16 fun n => !(q.any fun c => decide (c.tag = n))).getD 0

/-- The command port of a core takes no command: its queue of 16 places is full (R294), or it is parked (R280). -/
def State.cmdShut (s : State) (core : Nat) : Bool := decide (16 ≤ (s.cmdq core).length) || s.isParked (cometOfCore core) (commandPort core)

/-- Puts a command into the queue of its core, or holds issue while its port takes none. -/
def Issue.enqueue (i : Issue) (c : Cmd) (blocking : Bool) : Done :=
  let q := i.s.cmdq i.core
  if i.s.cmdShut i.core then .hold i.s
  else
    let n := i.s.accepted (cometOfCore i.core)
    let s := (i.s.setAccepted (cometOfCore i.core) (n + 1)).setCmdq i.core
      (q ++ [{ c with pe := i.pe, slot := i.slot, dom := i.dom, disp := i.disp, tag := freeTag q, order := n }])
    if blocking then .hold (s.setTask i.pe i.slot { i.task with wait := .memSent }) else .done s

/-- A blocking command: sent, awaited, its result written; a failure taints the task. -/
def Issue.blockCmd (i : Issue) (c : Cmd) : Done :=
  match i.task.wait with
  | .memDone v none => .done (i.putD i.s v)
  | .memDone v (some f) => .done (i.taintRec (i.putD i.s v) f)
  | .memSent => .hold i.s
  | _ => i.enqueue c true

/-- Fields of `IMM48` of `CPY` and `XCHG` (R296). -/
def Issue.copyCmd (i : Issue) (op : CmdOp) : Cmd :=
  { op, ca := i.sa, cb := i.sb, n := i.sc, tidd := fieldNat 36 12 i.imm, tids := fieldNat 24 12 i.imm, cc := fieldNat 20 4 i.imm
    ssp := fieldNat 18 2 i.imm = 1, dsp := fieldNat 16 2 i.imm = 1, modl := fieldNat 10 6 i.imm, raw := i.w.mod.getLsbD 1 }

def execCpy (w : Fields) (s : State) : Out :=
  runInstr { specComet 0xD8 with
      a := .srcWide, b := .srcWide, c := .srcWide
      xok := fun _ _ imm => decide (fieldNat 18 2 imm < 2) && decide (fieldNat 16 2 imm < 2) && fieldNat 10 6 imm = 0 } w
    (fun i => if 2 ^ 32 ≤ i.sc then i.illegal 7 else i.enqueue (i.copyCmd .cpy) false) s

/-- `GATH` and `SCAT` (R297). -/
def specGather (op : Nat) : OpSpec := { specComet op with a := .srcWide, b := .srcWide, c := .srcWide }

def Issue.gatherCmd (i : Issue) (op : CmdOp) : Cmd :=
  { op, ca := i.sa, cb := i.sb, n := i.sc, tids := fieldNat 36 12 i.imm, tidd := fieldNat 24 12 i.imm, cc := fieldNat 20 4 i.imm
    g := fieldNat 16 4 i.imm + 1, tidp := fieldNat 0 12 i.imm }

def execGath (w : Fields) (s : State) : Out :=
  runInstr (specGather 0xD9) w (fun i => if 2 ^ 32 ≤ i.sc then i.illegal 7 else i.enqueue (i.gatherCmd .gath) false) s

def execScat (w : Fields) (s : State) : Out :=
  runInstr (specGather 0xDA) w (fun i => if 2 ^ 32 ≤ i.sc then i.illegal 7 else i.enqueue (i.gatherCmd .scat) false) s

/-- Width of the fine-grain forms (R299). -/
def fineWidth (w : Fields) : Nat := if w.mod.getLsbD 0 then 16 else 8

def execFgrd (w : Fields) (s : State) : Out :=
  runInstr { specComet 0xDB with mods := fun w => w.mod &&& 0b1110 = 0, d := .dst, a := .src } w
    (fun i => i.blockCmd { op := .fgrd, ca := i.sa, tids := fieldNat 0 12 i.imm, g := fineWidth w }) s

def execFgwr (w : Fields) (s : State) : Out :=
  runInstr { specComet 0xDC with mods := fun w => w.mod &&& 0b1110 = 0, a := .src, b := .src } w
    (fun i => i.enqueue { op := .fgwr, ca := i.sa, tids := fieldNat 0 12 i.imm, cc := fieldNat 12 4 i.imm, g := fineWidth w
                          data := BitVec.ofNat 256 (i.wb.toNat % 2 ^ 128) } false) s

/-- `XCHG` (R300). -/
def specXchg : OpSpec :=
  { specComet 0xDD with
    mods := fun w => w.mod &&& 0b1101 = 0, a := .srcWide, b := .srcWide, c := .srcWide
    xok := fun _ _ imm => decide (fieldNat 18 2 imm < 2) && fieldNat 16 2 imm = 0 }

def execXchg (w : Fields) (s : State) : Out :=
  runInstr specXchg w (fun i => if 2 ^ 32 ≤ i.sc then i.illegal 7 else i.enqueue (i.copyCmd .xchg) false) s

def execXchgRaw (w : Fields) (s : State) : Out :=
  runInstr specXchg w (fun i => if 2 ^ 32 ≤ i.sc then i.illegal 7 else i.enqueue (i.copyCmd .xchg) false) s

/-- `CWAIT` (R302). -/
def execCwait (w : Fields) (s : State) : Out :=
  runInstr { specComet 0xDF with d := .dst, a := .src } w
    (fun i =>
      let k := i.imm % 16
      let n := i.sa
      let c := i.s.cc i.core k
      let me := (i.pe, i.slot)
      let ws := if c.waiters.contains me then c.waiters else c.waiters ++ [me]
      if n = 0 || decide (65535 < n) then i.illegal 5
      else if ws.head? = some me && decide (n ≤ c.count) then
        .done (i.putD (i.s.setCc i.core k { count := c.count - n, status := 0, waiters := ws.tail })
          (BitVec.ofNat 256 (packFields [(4, k), (4, 0), (2, c.status)])))
      else .hold ((i.s.setCc i.core k { c with waiters := ws }).setTask i.pe i.slot { i.task with wait := .counter })) s

/-- `PREF` (R303). -/
def execPref (w : Fields) (s : State) : Out :=
  runInstr { specComet 0xE1 with a := .src, b := .src } w
    (fun i => if 2 ^ 21 < i.sb then i.illegal 6 else i.enqueue { op := .pref, ca := i.sa, n := i.sb, tids := fieldNat 0 12 i.imm } false) s

end Sys2Proof.Machine
end

