-- ==== Sys2Proof/Machine/Kiln.lean ====
section
/-! DEFINITION. The Kiln instructions, the operand-memory slots and their fills, and the checks of a record at enqueue
(spec/11 R307 to R315, R318, R320, R321, R331 to R339). -/
namespace Sys2Proof.Machine

/-! ## Records (R310) -/

namespace KRec
def f (r : KRec) (lo n : Nat) : Nat := bitsOf lo n r.word
def af (r : KRec) : Nat := r.f 251 5
def bf (r : KRec) : Nat := r.f 246 5
def cf (r : KRec) : Nat := r.f 241 5
def aslot (r : KRec) : Nat := r.f 234 7
def bslot (r : KRec) : Nat := r.f 227 7
def mslot (r : KRec) : Nat := r.f 220 7
def spk (r : KRec) : Nat := r.f 218 2
def sparse (r : KRec) : Bool := decide (r.spk = 1)
def mb (r : KRec) : Nat := r.f 214 4 + 1
def nb (r : KRec) : Nat := r.f 211 3 + 1
def k (r : KRec) : Nat := r.f 195 16
def dcore (r : KRec) : Nat := r.f 191 4
def doff (r : KRec) : Nat := r.f 182 9
def acc (r : KRec) : Bool := bitAt 181 r.word
def trap (r : KRec) : Bool := bitAt 180 r.word
def amen (r : KRec) : Bool := bitAt 179 r.word
def amcore (r : KRec) : Nat := r.f 175 4
def amaddr (r : KRec) : Nat := r.f 158 17
def dctr (r : KRec) : Nat := r.f 153 5
def dwc (r : KRec) : Nat := r.f 137 16
def sen (r : KRec) : Bool := bitAt 136 r.word
def sctr (r : KRec) : Nat := r.f 131 5
def cport (r : KRec) : Nat := r.f 126 5
/-- `RV` of block b, and the rows it says are valid. -/
def rv (r : KRec) (b : Nat) : Nat := r.f (5 * b) 5
def rows (r : KRec) (b : Nat) : Nat := if r.rv b = 0 then 32 else r.rv b
/-- The accumulator is i24. -/
def isInt (r : KRec) : Bool := decide (r.cf = 15)
/-- Bytes of a destination element, and S of R311. -/
def dstBytes (r : KRec) : Nat := if r.cf = 11 then 8 else 4
def tileBytes (r : KRec) : Nat := if r.cf = 11 then 32768 else 16384
def total (r : KRec) : Nat := r.mb * r.nb

/-! ### Slots (R308, R309) -/

def kA (r : KRec) : Nat := 1024 / elemBytes r.af
def kB (r : KRec) : Nat := if r.bf = 13 then 1280 else 256 / elemBytes r.bf
def kA' (r : KRec) : Nat := if r.sparse then 2 * r.kA else r.kA
def nkA (r : KRec) : Nat := ceilDiv r.k r.kA'
def nkB (r : KRec) : Nat := ceilDiv r.k r.kB
def aSlots (r : KRec) : List Nat := (List.range (r.mb * r.nkA)).map (r.aslot + ·)
def bSlots (r : KRec) : List Nat := (List.range (r.nb * r.nkB)).map (r.bslot + ·)
def mSlots (r : KRec) : List Nat := if r.sparse then (List.range (r.mb * r.nkA)).map (r.mslot + ·) else []
def named (r : KRec) : List Nat := if r.k = 0 then [] else (r.aSlots ++ r.bSlots ++ r.mSlots).eraseDups
end KRec

/-- The formats that `AF`, `BF` and `CF` may hold. -/
def kilnA : List Nat := [0, 4, 12, 8, 9, 10, 11]
def kilnB : List Nat := [0, 13, 12, 8, 9, 10, 11]
def kilnC : List Nat := [15, 10, 11]

/-- The combinations of R318. -/
def kilnCombos : List (Nat × Nat × Nat) :=
  [(0, 0, 15), (4, 0, 15), (0, 13, 15), (12, 12, 15), (8, 8, 10), (9, 9, 10), (10, 10, 10), (11, 11, 11)]

/-! ## Regions and counters (R312) -/

/-- A core belongs to a dispatch's region. -/
def State.inRegion (s : State) (core dom disp : Nat) : Bool := decide ((s.info core).dom = some dom) && decide ((s.info core).disp = disp)

/-- The granule of a counter belongs to a dispatch's region. -/
def State.ctrInRegion (s : State) (cl n dom disp : Nat) : Bool :=
  match coresOfGranule (4 * cl + n / 8) with | c :: _ => s.inRegion c dom disp | [] => false

/-- A counter outside the region of the task's granules (R331). -/
def foreignCtr (s : State) (n : Nat) : Bool :=
  let core := coreOfPe s.cur
  !s.ctrInRegion (clusterOfCore core) n (s.domOf core) (s.info core).disp

/-- A completion port of a Kiln is attached (R314). -/
def State.kilnPortAttached (s : State) (kiln p : Nat) : Bool :=
  s.router.islands.cells.any fun c => c.2.attached && !c.2.comet && decide (c.2.island = kiln ∧ c.2.port = p ∧ c.2.pkind = 1)

/-! ## The record of a failure (R321) -/

/-- A record of a Kiln or of the Kiln scheduler. -/
def State.kilnRecord (s : State) (cl elem cause dom disp detail : Nat) : Word := s.record cause (clusterOrigin 5 cl elem dom disp) detail

def kilnDetail (sub : Nat) (migrated : Bool) (reason enq t5 : Nat) : Nat :=
  packFields [(7, sub), (1, if migrated then 1 else 0), (4, reason), (4, 0), (16, enq), (5, t5)]

/-! ## Checks at enqueue (R320) -/

/-- Check 1. -/
def KRec.malformed (r : KRec) : Bool :=
  r.f 80 46 ≠ 0 || (firstBelow 16 fun b => decide (r.mb ≤ b) && r.rv b ≠ 0).isSome ||
  !kilnA.contains r.af || !kilnB.contains r.bf || !kilnC.contains r.cf || (r.trap && !r.isInt) || decide (2 ≤ r.spk) || decide (383 < r.doff)

/-- A slot holds an operand of this kind and format for the record's domain (check 3). -/
def State.slotServes (s : State) (cl n dom kind fmt : Nat) : Bool :=
  let k := s.kslot cl n
  decide (n < 128) && (decide (k.st = .filling) || decide (k.st = .full)) && decide (k.dom = dom ∧ k.kind = kind ∧ k.fmt = fmt) && !k.relp

/-- Check 4. -/
def State.drainsFit (s : State) (cl : Nat) (r : KRec) : Bool :=
  ((List.range r.mb).all fun b =>
    let core := 16 * cl + (r.dcore + b) % 16
    s.inRegion core r.dom r.disp && decide (1024 * r.doff + r.nb * r.tileBytes ≤ (s.info core).accBytes)) &&
  (!r.amen || (s.inRegion (16 * cl + r.amcore) r.dom r.disp && decide (4 * r.amaddr + 4 ≤ (s.info (16 * cl + r.amcore)).spaceSize false)))

def State.sctrOk (s : State) (cl : Nat) (r : KRec) : Bool := !r.sen || s.ctrInRegion cl r.sctr r.dom r.disp
def State.cportOk (s : State) (r : KRec) : Bool := decide (r.cport = 0) || (decide (r.cport ≤ 16) && s.kilnPortAttached r.gran (r.cport - 1))

/-- The first check that fails: cause and PROTECTION reason. -/
def State.recordCheck (s : State) (cl : Nat) (r : KRec) : Option (Nat × Nat) :=
  if r.malformed then some (Cause.protection, 1)
  else if !kilnCombos.contains (r.af, r.bf, r.cf) then some (Cause.unimplCombo, 0)
  else if r.k ≠ 0 && !(r.aSlots.all (fun n => s.slotServes cl n r.dom 0 r.af) && r.bSlots.all (fun n => s.slotServes cl n r.dom 1 r.bf) &&
      r.mSlots.all (fun n => s.slotServes cl n r.dom 2 4)) then some (Cause.protection, 2)
  else if !s.drainsFit cl r then some (Cause.protection, 3)
  else if (r.dwc ≠ 0 && !s.ctrInRegion cl r.dctr r.dom r.disp) || !s.sctrOk cl r || !s.cportOk r then some (Cause.protection, 4)
  else none

/-! ## Statistics of a dispatch (R338) -/

def State.kstat (s : State) (cl dom disp : Nat) : KStat :=
  (s.cluster.kstats.find? fun k => decide (k.cluster = cl ∧ k.dom = dom ∧ k.disp = disp)).getD { cluster := cl, dom, disp }

def State.setKstat (s : State) (k : KStat) : State :=
  { s with cluster := { s.cluster with kstats := k :: s.cluster.kstats.filter fun x => !decide (x.cluster = k.cluster ∧ x.dom = k.dom ∧ x.disp = k.disp) } }

/-- Changes `PINS` of slots. -/
def State.pin (s : State) (cl : Nat) (ns : List Nat) : State :=
  ns.foldl (fun s n => s.setKslot cl n { s.kslot cl n with pins := (s.kslot cl n).pins + 1 }) s

/-- Removes a pin; a slot with a pending release becomes FREE with its last pin (R313, R332). -/
def State.unpin (s : State) (cl : Nat) (ns : List Nat) : State :=
  ns.foldl (fun s n =>
    let k := s.kslot cl n
    s.setKslot cl n (if k.relp && k.pins ≤ 1 && k.st ≠ .filling then {} else { k with pins := k.pins - 1 })) s

/-! ## Instructions (R331 to R339) -/

def specKiln (op : Nat) : OpSpec := { op, perLane := false, laneCheck := false }

/-- A PROTECTION failure while an instruction executes. -/
def Issue.protect (i : Issue) : Done := .fail Cause.protection i.spec.op i.s

/-- The lowest run of n FREE slots (R332). -/
def State.freeRun (s : State) (cl n : Nat) : Option Nat :=
  firstBelow (129 - n) fun a => (firstFrom (fun k => decide ((s.kslot cl k).st ≠ .free)) a n).isNone

/-- `TCLAIM` (R332). -/
def execTclaim (w : Fields) (s : State) : Out :=
  runInstr { specKiln 0xC0 with d := .dst, a := .src } w
    (fun i =>
      let n := i.sa
      if n = 0 || decide (128 < n) then i.illegal 5
      else match i.s.freeRun i.cluster n with
        | none => .done (i.putD i.s 0)
        | some a =>
          .done (i.putD (foldUp n i.s fun s k => s.setKslot i.cluster (a + k) { st := .claimed, dom := i.dom, disp := i.disp }) (scalarWord (a + 256)))) s

/-- `TREL` (R332). -/
def execTrel (w : Fields) (s : State) : Out :=
  runInstr { specKiln 0xC1 with a := .src, b := .src } w
    (fun i =>
      let a := i.sa
      let n := i.sb
      if 128 ≤ a then i.illegal 5
      else if n = 0 || decide (128 - a < n) then i.illegal 6
      else if (firstFrom (fun k => let x := i.s.kslot i.cluster k; decide (x.st = .free) || decide (x.dom ≠ i.dom)) a n).isSome then i.protect
      else .done (foldUp n i.s fun s k =>
        let x := s.kslot i.cluster (a + k)
        s.setKslot i.cluster (a + k) (if x.pins = 0 && x.st ≠ .filling then {} else { x with relp := true }))) s

/-- The format of a fill's source, as far as it can be read at issue. -/
def State.fillFmt (s : State) (core : Nat) (a : Asker) (pool : Bool) (tid : Nat) : Nat × State :=
  if pool then (((s.poolTensor core tid).elim 0 PoolTensor.fmt), s)
  else match s.descriptor a tid with | (.inl t, s) => (t.shape.fmt, s) | (.inr _, s) => (0, s)

/-- `TFILL` (R333). -/
def execTfill (w : Fields) (s : State) : Out :=
  runInstr { specKiln 0xC2 with a := .srcNoImm, b := .srcNoImm, xok := fun _ _ imm => decide (fieldNat 13 2 imm < 3) } w
    (fun i =>
      let n := i.sa
      let k := i.s.kslot i.cluster n
      if 128 ≤ n then i.illegal 5
      else if k.st = .free || k.dom ≠ i.dom || k.relp then i.protect
      else if k.st = .filling || k.pins ≠ 0 then .hold i.s
      else
        let pool := fieldNat 12 1 i.imm = 1
        let tid := fieldNat 0 12 i.imm
        match i.s.fillFmt i.core (i.s.askerOf i.core) pool tid with
        | (fmt, s) =>
          .done (s.setKslot i.cluster n
            { k with st := .filling, kind := fieldNat 13 2 i.imm, fmt, cause := 0, fpe := i.pe, fslot := i.slot, fdisp := i.disp, ftid := tid, fpool := pool
                     fcoord := BitVec.ofNat 64 i.sb, fchecked := false })) s

/-- Enqueues a record with the checks of R320 (R315, R334). -/
def Issue.enqueueRecord (i : Issue) (word : Word) : State :=
  let cl := i.cluster
  let st := i.s.kstat cl i.dom i.disp
  let lim := i.s.limitsOf (granuleOfCore i.core)
  let r : KRec := { word, enq := st.enq % 2 ^ 16, dom := i.dom, disp := i.disp, gran := granuleOfCore i.core, pe := i.pe, slot := i.slot
                    elim := lim.elim, clim := lim.clim }
  let s := i.s.setKstat { st with enq := st.enq + 1 }
  match s.recordCheck cl r with
  | some (cause, reason) =>
    let f := s.kilnRecord cl (r.gran % 4) cause r.dom r.disp (kilnDetail 0 false reason r.enq 0)
    s.setKrecs cl (s.krecs cl ++ [{ r with failure := some f, sctrOk := s.sctrOk cl r, cportOk := s.cportOk r }])
  | none => (s.pin cl r.named).setKrecs cl (s.krecs cl ++ [{ r with pinned := r.named }])

/-- `TTASK` (R334): a queue of 64 records. -/
def execTtask (w : Fields) (s : State) : Out :=
  runInstr { specKiln 0xC3 with a := { reg := true, chanIn := true, chanOut := true } } w
    (fun i => if 64 ≤ (i.s.krecs i.cluster).length then .hold i.s else .done (i.enqueueRecord i.wa)) s

def specCtr (op : Nat) : OpSpec := { specKiln op with d := .dst, a := .srcNoImm, prot := fun s imm => foreignCtr s (imm % 32) }

/-- The status of a counter (R312). -/
def KCtr.status (c : KCtr) : Nat := if c.failed then 3 else 0

/-- `TWAIT` (R335). -/
def execTwait (w : Fields) (s : State) : Out :=
  runInstr (specCtr 0xC4) w
    (fun i =>
      let n := i.imm % 32
      let c := i.s.kctr i.cluster n
      if i.sa = 0 || decide (65535 < i.sa) then i.illegal 5
      else if c.count < i.sa then .hold i.s
      else
        let s := i.putD i.s (BitVec.ofNat 256 (packFields [(5, n), (3, 0), (2, c.status)]))
        .done (if c.failed then i.taintRec s (c.record.getD 0) else s)) s

/-! ### Readiness (R316) -/

/-- A record may run: its dependence is met and its slots are filled. -/
def State.recReady (s : State) (cl : Nat) (r : KRec) : Bool :=
  r.failure.isNone && (decide (r.dwc = 0) || decide (r.dwc ≤ (s.kctr cl r.dctr).count)) &&
    r.pinned.all fun n => decide ((s.kslot cl n).st = .full) || decide ((s.kslot cl n).st = .failed)

/-- A counter is set anew: a record of the cluster that it leaves unready is no longer the one that has been ready (R317). -/
def State.setDep (s : State) (cl n : Nat) (c : KCtr) : State :=
  let s := s.setKctr cl n c
  s.setKrecs cl ((s.krecs cl).map fun r => if s.recReady cl r then r else { r with readyAt := none })

/-- `TDEP` and `TDEP.add` (R336). -/
def Issue.tdep (i : Issue) (add : Bool) : Done :=
  let n := i.imm % 32
  let c := i.s.kctr i.cluster n
  if 65536 ≤ i.sa then i.illegal 5
  else .done (i.putD (if add then i.s.setKctr i.cluster n { c with count := Nat.min (c.count + i.sa) 65535 } else i.s.setDep i.cluster n { count := i.sa })
    (scalarWord c.count))

def execTdep (w : Fields) (s : State) : Out :=
  runInstr { specCtr 0xC9 with mods := fun w => w.mod &&& 0b1110 = 0 } w (fun i => i.tdep false) s

def execTdepAdd (w : Fields) (s : State) : Out :=
  runInstr { specCtr 0xC9 with mods := fun w => w.mod &&& 0b1110 = 0 } w (fun i => i.tdep true) s

/-- The cluster's word of `TSTAT` (R338). -/
def State.clusterStat (s : State) (cl dom disp : Nat) : Nat :=
  let st := s.kstat cl dom disp
  packFields [(7, ((s.krecs cl).filter fun r => decide (r.dom = dom ∧ r.disp = disp)).length), (1, 0), (7, countBelow (fun n => decide ((s.kslot cl n).st = .free)) 128),
    (1, 0), (4, bitmapOf 4 fun q => (s.kiln (4 * cl + q)).isSome), (4, bitmapOf 4 fun q => (s.kilnDetector (4 * cl + q)).half), (8, 0),
    (16, Nat.min st.spills 65535), (8, Nat.min st.migr 255)]

/-- `TSTAT` (R338). -/
def execTstat (w : Fields) (s : State) : Out :=
  runInstr { specKiln 0xC5 with
      d := .dst, xok := fun _ _ imm => decide (imm % 64 ≤ 32), prot := fun s imm => decide (imm % 64 < 32) && foreignCtr s (imm % 32) } w
    (fun i =>
      let k := i.imm % 64
      let c := i.s.kctr i.cluster k
      .done (i.putD i.s (scalarWord (if k = 32 then i.s.clusterStat i.cluster i.dom i.disp else c.count + 2 ^ 16 * c.status)))) s

/-- `OVFCFG` (R337). -/
def execOvfcfg (w : Fields) (s : State) : Out :=
  runInstr { specKiln 0xC8 with a := .src } w
    (fun i =>
      let e := fieldNat 0 9 i.sa
      let c := fieldNat 16 7 i.sa
      if i.sa ≠ e + 2 ^ 16 * c || e = 0 || decide (256 < e) || c = 0 then i.illegal 5
      else .done (i.s.setLimitsOf (granuleOfCore i.core) { elim := e, clim := c })) s

/-- A lane of an f32 source of `SCACC` and `SCALE`; an immediate is the f32 value of R22. -/
def Issue.f32Lane (i : Issue) (b : BitVec 8) (off k : Nat) : FVal :=
  f32.decode i.ftz (if opnd b = .imm then (if i.anyChan then i.imm * 2 ^ 16 else i.imm % 2 ^ 32) else laneOf 32 k (i.word b off))

/-- A lane of A: i32, with 0x8000_0000 the canonical NaN, or f32. -/
def Issue.drained (i : Issue) (k : Nat) : FVal :=
  let v := laneOf 32 k i.wa
  if i.fmt = 2 then (if v = 2 ^ 31 then .nan else .ofInt (signedOf 32 v)) else f32.decode i.ftz v

def specScale (op : Nat) : OpSpec :=
  { op, fmts := some [2, 10], laneCheck := false, mods := fun _ => true, d := .dst, a := .src, b := .src, c := .src, readsD := false }

/-- `SCACC` (R339). -/
def execScacc (w : Fields) (s : State) : Out :=
  runUnit (specScale 0xC6) w
    (fun i => i.perLane fun k =>
      f32.round i.rm i.sat i.ftz (.add i.rm (i.f32Lane w.c i.offC k) (.mul (i.drained k) (i.f32Lane w.b i.offB k)))) s

/-- `SCALE` (R339). -/
def execScale (w : Fields) (s : State) : Out :=
  runUnit (specScale 0xC7) w
    (fun i => i.perLane fun k =>
      f32.round i.rm i.sat i.ftz (.mul (.mul (i.drained k) (i.f32Lane w.b i.offB k)) (i.f32Lane w.c i.offC k))) s

/-! ## Fills (R333) -/

/-- A fill ends: FULL or FAILED; a pending release frees the slot (R332). -/
def State.endFill (s : State) (cl n : Nat) (st : SlotSt) (cause : Nat) : State :=
  let k := s.kslot cl n
  s.setKslot cl n (if k.relp && k.pins = 0 then {} else { k with st, cause })

/-- A failed fill, with its record posted. -/
def State.failFill (s : State) (cl n cause : Nat) (r : Word) : State := (s.endFill cl n .failed cause).postRecord (cl / 16) r

def KSlot.core (k : KSlot) : Nat := coreOfPe k.fpe
/-- A fill asks for the dispatch that issued it, which need not be the one that claimed the slot. -/
def KSlot.asker (k : KSlot) : Asker := { comet := cometOfCore k.core, dom := k.dom, disp := k.fdisp }

/-- A source fits a fill. -/
def fillFits (kind : Nat) (t : Shape) : Bool :=
  decide (1 ≤ t.rankm1) && decide (t.fmt ≠ 14) &&
    (if kind = 0 then kilnA.contains t.fmt else if kind = 1 then kilnB.contains t.fmt else decide (t.fmt = 4))

/-- The record of a pool source that fits no fill, or names no tensor: reason 1, laid out as for a node (R333, spec/08 R242; log entry
118). -/
def State.poolFillRecord (s : State) (cl : Nat) (k : KSlot) : Word :=
  s.kilnRecord cl (granuleOfCore k.core % 4) Cause.protection k.dom k.fdisp (1 + 16 * k.ftid)

/-- `TFILL_SOURCE_CHECK`. -/
def execTfillSourceCheck (cluster : Nat) (slot : Nat) (s : State) : Out :=
  let k := s.kslot cluster slot
  if k.st ≠ .filling || k.fchecked then .next s
  else if k.fpool then
    match s.poolTensor k.core k.ftid with
    | some t => if fillFits k.kind t.shape then .next (s.setKslot cluster slot { k with fchecked := true, fmt := t.fmt })
      else .next (s.failFill cluster slot Cause.protection (s.poolFillRecord cluster k))
    | none => .next (s.failFill cluster slot Cause.protection (s.poolFillRecord cluster k))
  else match s.descriptor k.asker k.ftid with
    | (.inl t, s) =>
      if fillFits k.kind t.shape then .next (s.setKslot cluster slot { k with fchecked := true, fmt := t.shape.fmt })
      else .next (s.failFill cluster slot Cause.protection ((XFail.reason 1).record s k.asker))
    | (.inr f, s) =>
      let r := f.record s k.asker
      .next (s.failFill cluster slot (recCause r) r)

/-- Elements of a row and rows of a block; a t5 source counts bytes (R308, R333). -/
def KSlot.rowLen (k : KSlot) : Nat := if k.kind = 2 then 256 else if k.kind = 0 then 1024 / elemBytes k.fmt else 256 / elemBytes k.fmt
def KSlot.rowCount (k : KSlot) : Nat := if k.kind = 1 then 128 else 32

/-- What an element beyond an extent is written as. -/
def fillZero (fmt : Nat) : List Byte := if fmt = 13 then [0x79] else List.replicate (elemBytes fmt) 0

/-- How one element of a fill comes out. -/
inductive FillPart where
  | bytes (bs : List Byte)
  | failed (cause : Nat) (r : Word)
  | parks (kind tid page : Nat)

/-- One element of a fill. -/
def State.fillElem (s : State) (cl : Nat) (k : KSlot) (r j : Nat) : FillPart × State :=
  let c (n : Nat) : Nat := bitsOf (16 * n) 16 k.fcoord
  let a := k.asker
  if k.fpool then
    match s.poolTensor k.core k.ftid with
    | none => (.failed Cause.protection (s.poolFillRecord cl k), s)
    | some t =>
      if !t.shape.inRange (c 0 + j) (c 1 + r) (c 2) (c 3) then (.bytes (fillZero k.fmt), s) else
        let p := s.tensorBase k.core t + t.shape.byteOf (t.shape.index (c 0 + j) (c 1 + r) (c 2) (c 3))
        match (s.bankServed k.core kilnRequester p (elemBytes k.fmt)).poolRead k.core p (elemBytes k.fmt) with
        | (.inl bs, s) => (.bytes bs, s)
        | (.inr w, s') =>
          (.failed Cause.poolUe (s.kilnRecord cl (granuleOfCore k.core % 4) Cause.poolUe k.dom k.fdisp (s.poolUeDetail k.core k.ftid w)), s')
  else
    let stop (f : XFail) (s : State) : FillPart × State :=
      match f with
      | .park kind tid page => (.parks kind tid page, s)
      | f => let w := f.record s a; (.failed (recCause w) w, s)
    match s.descriptor a k.ftid with
    | (.inr f, s) => stop f s
    | (.inl t, s) =>
      if !t.shape.inRange (c 0 + j) (c 1 + r) (c 2) (c 3) then (.bytes (fillZero k.fmt), s) else
        match s.translate a k.ftid t { read := true } (t.shape.byteOf (t.shape.index (c 0 + j) (c 1 + r) (c 2) (c 3))) (elemBytes k.fmt) [] 2 with
        | (.inr f, s) => stop f s
        | (.inl ps, s) =>
          match s.hbmRead a ps with
          | (.inl bs, s) => (.bytes bs, s)
          | (.inr f, s) => stop f s

/-- The bytes of a whole block. -/
def State.fillBlock (s : State) (cl : Nat) (k : KSlot) : FillPart × State :=
  foldUp (k.rowCount * k.rowLen) (.bytes [], s) fun acc e =>
    match acc with
    | (.bytes bs, s) =>
      match s.fillElem cl k (e / k.rowLen) (e % k.rowLen) with
      | (.bytes cs, s) => (.bytes (bs ++ cs), s)
      | x => x
    | x => x

/-- A fill reads its source and becomes FULL; or it fails; or parks the command port of its core. -/
def State.runFill (s : State) (cl n : Nat) (k : KSlot) : State :=
  match s.fillBlock cl k with
  | (.bytes bs, s) =>
    let base := 2 ^ 15 * (128 * cl + n)
    let s := { s with cluster := { s.cluster with opmem := Map.putList 0 base bs s.cluster.opmem
                                                  opBad := s.cluster.opBad.filter fun w => !decide (w / 4096 = 256 * cl + n) } }
    s.endFill cl n .full 0
  | (.failed cause r, s) => s.failFill cl n cause r
  | (.parks kind tid page, s) => s.parkPort k.asker (commandPort k.core) kind tid page 0 false (some n)

/-- `TFILL_COMPLETE`. -/
def execTfillComplete (cluster : Nat) (slot : Nat) (s : State) : Out :=
  let k := s.kslot cluster slot
  if k.st ≠ .filling || !k.fchecked || (!k.fpool && s.isParked k.asker.comet (commandPort k.core)) then .next s
  else .next ((s.runFill cluster slot k).touch k.core)

end Sys2Proof.Machine
end

