-- ==== Sys2Proof/Machine/KilnRun.lean ====
section
/-! DEFINITION. The Kiln scheduler and the Kilns: issue, start, steps, spills, drains, completion, migration (spec/11 R305, R311, R313,
R316, R317, R319, R321 to R330; spec/02 R81 to R87, R90). -/
namespace Sys2Proof.Machine

/-! ## Readiness (R316) -/

/-- The place of the oldest ready record with an unissued sub-tile. -/
def State.oldestReady (s : State) (cl : Nat) : Option Nat := (s.krecs cl).findIdx? fun r => s.recReady cl r && decide (r.next < r.total)

/-- A slot of the record that is FAILED. -/
def State.failedSlot (s : State) (cl : Nat) (r : KRec) : Option Nat := r.pinned.find? fun n => decide ((s.kslot cl n).st = .failed)

def State.putRec (s : State) (cl n : Nat) (r : KRec) : State := s.setKrecs cl ((s.krecs cl).take n ++ r :: (s.krecs cl).drop (n + 1))

/-- The place of a running sub-tile's record in its queue. -/
def State.recOf (s : State) (t : SubTile) : Option Nat :=
  (s.krecs t.home).findIdx? fun r => decide (r.dom = t.rec_.dom ∧ r.disp = t.rec_.disp ∧ r.enq = t.rec_.enq)

/-- Updates the record of a sub-tile. -/
def State.updRec (s : State) (t : SubTile) (f : KRec → KRec) : State :=
  match s.recOf t with
  | some n => s.putRec t.home n (f (((s.krecs t.home)[n]?).getD {}))
  | none => s

/-- The lowest free Kiln of a cluster. -/
def State.freeKiln (s : State) (cl : Nat) : Option Nat := (firstBelow 4 fun q => (s.kiln (4 * cl + q)).isNone).map (4 * cl + ·)

/-- `KILN_SUBTILE_ISSUE`: one sub-tile goes to the lowest free Kiln. -/
def execKilnSubtileIssue (cluster : Nat) (s : State) : Out :=
  match s.oldestReady cluster, s.freeKiln cluster with
  | some n, some k =>
    let r := ((s.krecs cluster)[n]?).getD {}
    if (s.failedSlot cluster r).isSome then .next s
    else
      let r' := { r with next := r.next + 1, running := r.running + 1 }
      .next (((s.putRec cluster n r').setKiln k (some { home := cluster, rec_ := r', s := r.next })).touch (coreOfPe r.pe))
  | _, _ => .next s

/-- `KILN_RECORD_FAIL_READY`: the oldest ready record has a FAILED slot (R316, R321). -/
def execKilnRecordFailReady (cluster : Nat) (s : State) : Out :=
  match s.oldestReady cluster with
  | none => .next s
  | some n =>
    let r := ((s.krecs cluster)[n]?).getD {}
    match s.failedSlot cluster r with
    | none => .next s
    | some k =>
      let f := s.kilnRecord cluster (r.gran % 4) (s.kslot cluster k).cause r.dom r.disp (kilnDetail r.next false 0 r.enq 0)
      .next (s.putRec cluster n { r with failure := some f })

/-! ## Operands (R308, R309, R319, R329) -/

/-- The slot that holds a slot of the record, in the cluster of the Kiln. -/
def SubTile.slotHere (t : SubTile) (n : Nat) : Nat := if t.migrated then ((t.slots.find? fun p => p.1 = n).map Prod.snd).getD 0 else n

/-- Why a step cannot be made: cause, PROTECTION reason, place of a reserved t5 byte. -/
structure StepFail where
  cause : Nat
  /-- An uncorrectable error of operand memory or of the overflow buffer (R332). -/
  kiln : Bool := false
  reason : Nat := 0
  t5 : Nat := 0

/-- Bytes of operand memory; an uncorrectable word fails the sub-tile (R332). -/
def State.opRead (s : State) (cl slot off n : Nat) : Nat ⊕ StepFail :=
  if s.cluster.opBad.any fun w => decide (2 ^ 20 * cl + 4096 * slot + off / 8 ≤ w) && decide (w ≤ 2 ^ 20 * cl + 4096 * slot + (off + n - 1) / 8) then
    .inr { cause := Cause.poolUe, kiln := true }
  else .inl (natOfBytes ((List.range n).map fun j => s.opByte cl slot (off + j)))

/-- The place of A[m, k] in its A slot: chunk and element, none for a position that the sparsity metadata leaves out. -/
def State.aPlace (s : State) (cl : Nat) (t : SubTile) (m k : Nat) : (Option (Nat × Nat)) ⊕ StepFail :=
  let r := t.rec_
  if !r.sparse then .inl (some (k / r.kA, k % r.kA)) else
    let c := k / r.kA'
    let g := k % r.kA' / 4
    match s.opRead cl (t.slotHere (r.mslot + t.s / r.nb * r.nkA + c)) (256 * m + g / 2) 1 with
    | .inr f => .inr f
    | .inl b =>
      let p0 := fieldNat (4 * (g % 2)) 2 b
      let p1 := fieldNat (4 * (g % 2) + 2) 2 b
      if p1 ≤ p0 then .inr { cause := Cause.protection, reason := 5 }
      else .inl (if k % 4 = p0 then some (c, 2 * g) else if k % 4 = p1 then some (c, 2 * g + 1) else none)

/-- The pattern of A[m, k]. -/
def State.aElem (s : State) (cl : Nat) (t : SubTile) (m k : Nat) : Nat ⊕ StepFail :=
  let r := t.rec_
  match s.aPlace cl t m k with
  | .inr f => .inr f
  | .inl none => .inl 0
  | .inl (some (c, j)) => s.opRead cl (t.slotHere (r.aslot + t.s / r.nb * r.nkA + c)) ((m * r.kA + j) * elemBytes r.af) (elemBytes r.af)

/-- The pattern of B[k, n], for t5 the digit of its trit. -/
def State.bElem (s : State) (cl : Nat) (t : SubTile) (n k : Nat) : Nat ⊕ StepFail :=
  let r := t.rec_
  let slot := t.slotHere (r.bslot + t.s % r.nb * r.nkB + k / r.kB)
  if r.bf = 13 then
    let off := 256 * n + k % 1280 / 5
    match s.opRead cl slot off 1 with
    | .inr f => .inr f
    | .inl b => if 243 ≤ b then .inr { cause := Cause.t5Reserved, t5 := off % 32 } else .inl (t5Digit b (k % 1280 % 5))
  else s.opRead cl slot ((n * r.kB + k % r.kB) * elemBytes r.bf) (elemBytes r.bf)

/-- Collects patterns, up to the first failure. -/
def collect (f : Nat → Nat ⊕ StepFail) : Nat → Nat → List Nat → List Nat ⊕ StepFail
  | _, 0, got => .inl got.reverse
  | i, n + 1, got => match f i with | .inr e => .inr e | .inl v => collect f (i + 1) n (v :: got)

/-- Column k of the sub-tile's valid rows of A, and row k of its B. -/
def State.stepOperands (s : State) (cl : Nat) (t : SubTile) (k : Nat) : (List Nat × List Nat) ⊕ StepFail :=
  match collect (fun m => s.aElem cl t m k) 0 (t.rec_.rows (t.s / t.rec_.nb)) [] with
  | .inr f => .inr f
  | .inl as =>
    match collect (fun n => s.bElem cl t n k) 0 128 [] with
    | .inr f => .inr f
    | .inl bs => .inl (as, bs)

/-! ## Integer steps (spec/02 R81, R82; R322 to R324) -/

/-- A product; none is invalid. -/
def intProduct (af bf a b : Nat) : Option Int :=
  if af = 12 then lgProduct a b
  else
    let x : Int := if af = 4 then (a : Int) else signedOf 8 a
    let y : Int := if bf = 13 then (b : Int) - 1 else signedOf 8 b
    some (x * y)

/-- A lane with its entry; a carry has left ±`CLIM` on the way; the entry has been read. -/
structure LaneSum where
  lane : Int
  entry : Option OvfEntry
  spills : Bool := false
  used : Bool := false

/-- Adds one product (spec/02 R81, R82): a carry, or an invalid product, goes to the entry. -/
def LaneSum.add (clim : Nat) (x : LaneSum) (p : Option Int) : LaneSum :=
  let e := x.entry.getD {}
  let carry (d : Int) (lane : Int) : LaneSum :=
    { lane, entry := some { e with carry := e.carry + d }, spills := x.spills || decide (clim < (e.carry + d).natAbs), used := true }
  match p with
  | none => { x with entry := some { e with invalid := true }, used := true }
  | some p =>
    let v := x.lane + p
    if 2 ^ 23 ≤ v then carry 1 (v - 2 ^ 24) else if v < -(2 ^ 23) then carry (-1) (v + 2 ^ 24) else { x with lane := v }

/-- Adds the products of a step to an element, one after the other. -/
def SubTile.addAt (t : SubTile) (prod : Nat → List (Option Int)) (e : Nat) : LaneSum :=
  (prod e).foldl (LaneSum.add t.rec_.clim) { lane := t.lanes.find e 0, entry := t.ovf.find e none }

/-- Canonical tables from a function on elements. -/
def tableOf {α : Type} [DecidableEq α] (d : α) (n : Nat) (f : Nat → α) : Map α :=
  ⟨(List.range n).filterMap fun e => if f e = d then none else some (e, f e)⟩

/-- The products of an element in the steps ks. -/
def stepProducts (r : KRec) (ops : List (List Nat × List Nat)) (e : Nat) : List (Option Int) :=
  ops.map fun o => intProduct r.af r.bf ((o.1[e / 128]?).getD 0) ((o.2[e % 128]?).getD 0)

/-- Completes a step element by element from e on; stops when the entries in use reach `ELIM` (R324). -/
def elementWise (prod : Nat → List (Option Int)) (n : Nat) (t : SubTile) (e : Nat) : Nat → SubTile
  | 0 => { t with elem := none }
  | fuel + 1 =>
    if n ≤ e then { t with elem := none } else
      let x := t.addAt prod e
      let t := { t with lanes := t.lanes.put e x.lane 0, ovf := t.ovf.put e x.entry none }
      if t.rec_.elim ≤ t.ovf.cells.length then { t with phase := .spilling, elem := some (e + 1) } else elementWise prod n t (e + 1) fuel

/-- The step is over. -/
def SubTile.stepped (t : SubTile) (steps : Nat) : SubTile := if t.elem.isNone then { t with k := t.k + steps, again := false } else t

/-- An integer step: the sub-tile after it, or about to spill, or why it fails (R322 to R324). -/
def intStep (t : SubTile) (ops : List (List Nat × List Nat)) : SubTile ⊕ StepFail :=
  let r := t.rec_
  let n := 128 * r.rows (t.s / r.nb)
  let prod := stepProducts r ops
  let bad (e : Nat) : Bool := (t.ovf.find e none).elim false OvfEntry.bad
  match t.elem with
  | some e => .inl ((elementWise prod n t e n).stepped ops.length)
  | none =>
    let u := { t with lanes := tableOf 0 n fun e => (t.addAt prod e).lane, ovf := tableOf none n fun e => (t.addAt prod e).entry }
    if (firstBelow n fun e => bad e && (t.addAt prod e).used).isSome then .inr { cause := Cause.poolUe, kiln := true }
    else if u.ovf.cells.length ≤ r.elim && (firstBelow n fun e => (t.addAt prod e).spills).isNone then .inl (u.stepped ops.length)
    else if r.trap then .inr { cause := Cause.ovfFull }
    else if t.again then .inl ((elementWise prod n t 0 n).stepped ops.length)
    else .inl { t with phase := .spilling, again := true }

/-! ## Floating-point steps (spec/02 R83 to R86) -/

/-- A rounding step: a zero result is +0 (log entry 37). -/
def kilnRound (cf : Nat) (v : FVal) : Nat :=
  let f := ffmt cf
  let x := f.round 0 false false v
  if x % f.signBit = 0 then 0 else x

/-- Adds a product to a group's exact sum. -/
def GroupSum.add (g : GroupSum) (p : FVal) : GroupSum :=
  match p with
  | .nan => { g with nan := true }
  | .inf neg => if neg then { g with ninf := true } else { g with pinf := true }
  | .fin neg n d => { g with sum := g.sum + FVal.num neg (n * 2 ^ 298 / d) }

def GroupSum.value (g : GroupSum) : FVal :=
  if g.nan || (g.pinf && g.ninf) then .nan else if g.pinf then .inf false else if g.ninf then .inf true
  else .fin (decide (g.sum < 0)) g.sum.natAbs (2 ^ 298)

/-- One k of a floating-point sub-tile; groups of eight k end in a rounding (R83), the wider formats round at every k (R84). -/
def floatStep (t : SubTile) (a b : List Nat) : SubTile :=
  let r := t.rec_
  let n := 128 * r.rows (t.s / r.nb)
  let p := fun e => FVal.mul ((ffmt r.af).decode false ((a[e / 128]?).getD 0)) ((ffmt r.bf).decode false ((b[e % 128]?).getD 0))
  let acc := fun e => (ffmt r.cf).decode false (t.acc.find e 0)
  if r.af = 8 || r.af = 9 then
    let g := fun e => (t.grp.find e {}).add (p e)
    if t.k % 8 = 7 || t.k + 1 = r.k then
      { t with k := t.k + 1, grp := {}, acc := tableOf 0 n fun e => kilnRound r.cf (.add 0 (acc e) (g e).value) }
    else { t with k := t.k + 1, grp := tableOf {} n g }
  else { t with k := t.k + 1, acc := tableOf 0 n fun e => kilnRound r.cf (.add 0 (acc e) (p e)) }

/-! ## Destinations (R311, R325, R327) -/

/-- The core that a sub-tile drains to. -/
def SubTile.core (t : SubTile) : Nat := 16 * t.home + (t.rec_.dcore + t.s / t.rec_.nb) % 16

/-- The pool byte of row m of a sub-tile's destination. -/
def State.rowAddr (s : State) (t : SubTile) (m : Nat) : Nat :=
  (s.info t.core).spaceBase true + 1024 * t.rec_.doff + t.s % t.rec_.nb * t.rec_.tileBytes + 128 * m * t.rec_.dstBytes

def SubTile.rowBytes (t : SubTile) : Nat := 128 * t.rec_.dstBytes
def SubTile.rowCount (t : SubTile) : Nat := t.rec_.rows (t.s / t.rec_.nb)

/-- The folded value of an element (spec/02 R62, R325); none is invalid. -/
def SubTile.folded (t : SubTile) (e : Nat) : Option Int :=
  let o := (t.ovf.find e none).getD {}
  if o.invalid then none else some (t.lanes.find e 0 + 2 ^ 24 * o.carry)

/-- The drain add of the bank (R325); 0x8000_0000 is none. -/
def drainAdd (d f : Option Int) : Option Int :=
  match d, f with
  | some x, some y => some (max (-(2 ^ 31) + 1) (min (2 ^ 31 - 1) (x + y)))
  | _, _ => none

def i32Of (v : Nat) : Option Int := if v % 2 ^ 32 = 2 ^ 31 then none else some (signedOf 32 v)
def ofI32 (z : Option Int) : Nat := match z with | some x => wrapTo 32 x | none => 2 ^ 31

/-- Numbers as bytes, each of n bytes. -/
def bytesOfNats (n : Nat) (xs : List Nat) : List Byte := (xs.map fun x => bytesOfNat n x).flatten

/-- Numbers of 4 bytes. -/
def words32 : Nat → List Byte → List Nat
  | 0, _ => []
  | n + 1, bs => natOfBytes (bs.take 4) :: words32 n (bs.drop 4)

/-- A drain or spill meets a word of a core's pool that cannot be read: those bytes are left, and the error is posted (log entry 38). -/
def State.drainUe (s : State) (t : SubTile) (core w : Nat) : State :=
  s.postRecord (dieOfCluster t.home) (s.record Cause.poolUe { s.coreOrigin 2 core 0 with dom := t.rec_.dom, disp := t.rec_.disp } (s.poolUeDetail core 0 w))

/-- The two elements of word j of a row, spilled or drained: the values that it stores (R325). A word that cannot be read keeps its elements (spec/08
R252), and none is stored. -/
def State.intPair (s : State) (t : SubTile) (m j : Nat) : List (Option Int) × State :=
  let a := s.rowAddr t m + 8 * j
  let f := [t.folded (128 * m + 2 * j), t.folded (128 * m + 2 * j + 1)]
  let put (vs : List (Option Int)) (s : State) : List (Option Int) × State :=
    match s.poolWrite t.core a (bytesOfNats 4 (vs.map ofI32)) with
    | (none, s) => (vs, s)
    | (some w, s) => ([], s.drainUe t t.core w)
  if !t.spilled && !t.rec_.acc then put f s
  else match s.poolRead t.core a 8 with
    | (.inr w, s) => ([], s.drainUe t t.core w)
    | (.inl bs, s) => put (((words32 2 bs).zip f).map fun x => drainAdd (i32Of x.1) x.2) s

/-- One row of a spill or drain of an integer sub-tile, through the ports of its banks (spec/08 R224). -/
def State.intRow (s : State) (t : SubTile) (m : Nat) : List (Option Int) × State :=
  foldUp 64 (([] : List (Option Int)), s.bankServed t.core kilnRequester (s.rowAddr t m) 512) fun acc j =>
    match acc.2.intPair t m j with | (vs, s) => (acc.1 ++ vs, s)

/-- All valid rows of an integer sub-tile: the values that it stores. -/
def State.intRows (s : State) (t : SubTile) : List (Option Int) × State :=
  foldUp t.rowCount ([], s) fun acc m => match acc.2.intRow t m with | (vs, s) => (acc.1 ++ vs, s)

/-- Stores the rows of a floating-point sub-tile. -/
def State.floatRows (s : State) (t : SubTile) : State :=
  foldUp t.rowCount s fun s m =>
    match (s.bankServed t.core kilnRequester (s.rowAddr t m) t.rowBytes).poolWrite t.core (s.rowAddr t m) (bytesOfNats t.rec_.dstBytes ((List.range 128).map fun n => t.acc.find (128 * m + n) 0)) with
    | (none, s) => s
    | (some w, s) => s.drainUe t t.core w

/-! ## The end of a sub-tile (R321, R327, R328) -/

/-- Frees the copies of a migrated sub-tile (R317); one that a record of that cluster has pinned too is freed when that completes. -/
def State.freeCopies (s : State) (kiln : Nat) (t : SubTile) : State :=
  t.slots.foldl (fun s p =>
    let k := s.kslot (kiln / 4) p.2
    s.setKslot (kiln / 4) p.2 (if k.pins ≤ 1 then {} else { k with pins := k.pins - 1, relp := true })) s

/-- A sub-tile fails: nothing is drained, and its record fails (R321). -/
def State.failSub (s : State) (kiln : Nat) (t : SubTile) (f : StepFail) : State :=
  let r := s.kilnRecord (kiln / 4) (kiln % 4) f.cause t.rec_.dom t.rec_.disp (kilnDetail t.s t.migrated f.reason t.rec_.enq f.t5)
  let s := ((s.setKiln kiln none).freeCopies kiln t).updRec t fun x => { x with running := x.running - 1, failure := x.failure.or (some r) }
  if f.kiln then
    ({ s with free := s.free + 1 }).logEvent (kiln / 64) 0x2014 (Config.openValue 0x2014 s.free) t.rec_.dom
      (packFields [(4, kiln % 4), (4, 0), (4, kiln / 4 % 16), (3, kiln / 64)]) true
  else s

/-- Reads the initial accumulators of a floating-point sub-tile with `ACC` = 1 (R327). -/
def State.readAcc (s : State) (t : SubTile) : (List Nat ⊕ Nat) × State :=
  foldUp t.rowCount (.inl [], s) fun acc m =>
    match acc with
    | (.inr w, s) => (.inr w, s)
    | (.inl vs, s) =>
      match (s.bankServed t.core kilnRequester (s.rowAddr t m) t.rowBytes).poolRead t.core (s.rowAddr t m) t.rowBytes with
      | (.inr w, s) => (.inr w, s)
      | (.inl bs, s) => (.inl (vs ++ (if t.rec_.cf = 11 then wordsOfBytes 128 bs else words32 128 bs)), s)

/-- `KILN_SUBTILE_START`. -/
def execKilnSubtileStart (kiln : Nat) (s : State) : Out :=
  match s.kiln kiln with
  | none => .next s
  | some t =>
    if t.phase ≠ .issued then .next s
    else if t.rec_.isInt || !t.rec_.acc then .next (s.setKiln kiln (some { t with phase := .computing }))
    else match s.readAcc t with
      | (.inr _, s) => .next (s.failSub kiln t { cause := Cause.poolUe })
      | (.inl vs, s) =>
        .next (s.setKiln kiln (some { t with phase := .computing, acc := tableOf 0 (128 * t.rowCount) fun e => (vs[e]?).getD 0 }))

/-- `KILN_STEP`: one step of k, of two k for t5 (R305). -/
def execKilnStep (kiln : Nat) (s : State) : Out :=
  match s.kiln kiln with
  | none => .next s
  | some t =>
    let r := t.rec_
    if t.phase ≠ .computing || r.k ≤ t.k then .next s
    else
      let two := r.bf = 13 && decide (t.k + 1 < r.k)
      let ops : List (List Nat × List Nat) ⊕ StepFail :=
        match s.stepOperands (kiln / 4) t t.k with
        | .inr f => .inr f
        | .inl x => if two then (s.stepOperands (kiln / 4) t (t.k + 1)).map (fun y => [x, y]) id else .inl [x]
      match ops with
      | .inr f => .next (s.failSub kiln t f)
      | .inl xs =>
        let s := s.touch (coreOfPe r.pe)
        if r.isInt then
          match intStep t xs with
          | .inr f => .next (s.failSub kiln t f)
          | .inl t => .next (s.setKiln kiln (some t))
        else .next (s.setKiln kiln (some (floatStep t ((xs.head?).getD ([], [])).1 ((xs.head?).getD ([], [])).2)))

/-- The overflow buffer cannot be read: its sub-tile fails before it spills or drains (R321, R332). -/
def SubTile.bufferBad (t : SubTile) : Bool := t.ovf.cells.any fun c => c.2.elim false OvfEntry.bad

/-- `KILN_SPILL_END`: every write of the spill has performed; lanes and buffer are reset (R324, R325). -/
def execKilnSpillEnd (kiln : Nat) (s : State) : Out :=
  match s.kiln kiln with
  | none => .next s
  | some t =>
    if t.phase ≠ .spilling then .next s
    else if t.bufferBad then .next (s.failSub kiln t { cause := Cause.poolUe, kiln := true })
    else
      let s := (s.intRows t).2
      let st := s.kstat t.home t.rec_.dom t.rec_.disp
      let s := s.setKstat { st with spills := Nat.min (st.spills + 1) 65535 }
      .next ((s.setKiln kiln (some { t with phase := .computing, lanes := {}, ovf := {}, spilled := true })).touch (coreOfPe t.rec_.pe))

/-- Merges a contribution into the amax word (R328). -/
def State.mergeAmax (s : State) (t : SubTile) (c : Nat) : State :=
  if !t.rec_.amen then s else
    let core := 16 * t.home + t.rec_.amcore
    let a := (s.info core).spaceBase false + 4 * t.rec_.amaddr
    match (s.bankServed core kilnRequester a 4).poolRead core a 4 with
    | (.inl bs, s) => s.poolStore core a (bytesOfNat 4 (Nat.max (natOfBytes bs) c))
    | (.inr w, s) => s.drainUe t core w

/-- `KILN_DRAIN` (R325, R327, R328). -/
def execKilnDrain (kiln : Nat) (s : State) : Out :=
  match s.kiln kiln with
  | none => .next s
  | some t =>
    if t.phase ≠ .computing || t.k < t.rec_.k then .next s
    else if t.bufferBad then .next (s.failSub kiln t { cause := Cause.poolUe, kiln := true })
    else
      let r : Nat × State :=
        if t.rec_.isInt then match s.intRows t with | (vs, s) => (amaxInt vs, s)
        else (amaxFloat t.rec_.cf ((List.range (128 * t.rowCount)).map fun e => t.acc.find e 0), s.floatRows t)
      let s := r.2.mergeAmax t r.1
      .next ((((s.setKiln kiln none).freeCopies kiln t).updRec t fun x => { x with running := x.running - 1, drained := x.drained + 1 }).touch
        (coreOfPe t.rec_.pe))

/-! ## Completion (R313, R321) -/

/-- `KILN_RECORD_COMPLETE`: the record at this place, once it is drained or has failed with nothing running. -/
def execKilnRecordComplete (cluster : Nat) (index : Nat) (s : State) : Out :=
  match (s.krecs cluster)[index]? with
  | none => .next s
  | some r =>
    if r.running ≠ 0 || (r.failure.isNone && r.drained ≠ r.total) then .next s
    else
      let s := (s.setKrecs cluster (dropAt index (s.krecs cluster))).unpin cluster r.pinned
      let c := s.kctr cluster r.sctr
      let s := if r.sen && r.sctrOk then
          s.setKctr cluster r.sctr { count := Nat.min (c.count + 1) 65535, failed := c.failed || r.failure.isSome
                                     record := if c.failed then c.record else c.record.or r.failure }
        else s
      let s := if r.cport ≠ 0 && r.cportOk then
          s.setKport r.gran (r.cport - 1) (s.kport r.gran (r.cport - 1) ++
            [match r.failure with
              | some f => { payload := f, poison := true, dom := r.dom }
              | none => { payload := BitVec.ofNat 256 r.enq, dom := r.dom }])
        else match r.failure with | some f => s.postRecord (cluster / 16) f | none => s
      .next (s.touch (coreOfPe r.pe))

/-! ## Migration (R317) -/

/-- The neighbours of a cluster in its die: north, east, south, west. -/
def clusterNeighbours (cl : Nat) : List Nat :=
  let x := cl % 4
  let y := cl % 16 / 4
  (if 0 < y then [cl - 4] else []) ++ (if x < 3 then [cl + 1] else []) ++ (if y < 3 then [cl + 4] else []) ++ (if 0 < x then [cl - 1] else [])

/-- The slots of one sub-tile. -/
def KRec.subSlots (r : KRec) (s : Nat) : List Nat :=
  if r.k = 0 then [] else
    ((List.range r.nkA).map fun c => r.aslot + s / r.nb * r.nkA + c) ++ ((List.range r.nkB).map fun c => r.bslot + s % r.nb * r.nkB + c) ++
      (if r.sparse then (List.range r.nkA).map fun c => r.mslot + s / r.nb * r.nkA + c else [])

/-- Copies a slot of a record into a slot of another cluster, claimed for the record, where the sub-tile pins it (R317, R340). -/
def State.copySlot (s : State) (r : KRec) (cl n cl' n' : Nat) : State :=
  let bs := s.cluster.opmem.getList 0 (2 ^ 15 * (128 * cl + n)) 32768
  let bad := s.cluster.opBad.filterMap fun w => if w / 4096 = 256 * cl + n then some (4096 * (256 * cl' + n') + w % 4096) else none
  let s := { s with cluster := { s.cluster with opmem := Map.putList 0 (2 ^ 15 * (128 * cl' + n')) bs s.cluster.opmem
                                                opBad := bad ++ s.cluster.opBad.filter fun w => !decide (w / 4096 = 256 * cl' + n') } }
  s.setKslot cl' n' { s.kslot cl n with dom := r.dom, disp := r.disp, pins := 1, relp := false }

/-- Notes since when each record of a cluster has been ready with an unissued sub-tile. -/
def State.noteReady (s : State) (cl : Nat) : State :=
  s.setKrecs cl ((s.krecs cl).map fun r =>
    { r with readyAt := if s.recReady cl r && decide (r.next < r.total) then r.readyAt.or (some s.now) else none })

/-- The oldest record that has been ready for more than `MIGRATE_WAIT` cycles. -/
def State.oldestWaiting (s : State) (cl : Nat) : Option Nat :=
  (s.krecs cl).findIdx? fun r => r.readyAt.elim false fun t => decide (t + (s.migrateWait cl).toNat < s.now)

/-- The neighbour that can run a sub-tile with so many slots, and its free slots (R317). -/
def State.migrationTarget (s : State) (cl slots : Nat) : Option (Nat × List Nat) :=
  let freeSlots (c : Nat) : List Nat := (List.range 128).filter fun k => decide ((s.kslot c k).st = .free)
  ((clusterNeighbours cl).find? fun c => (s.freeKiln c).isSome && (s.oldestReady c).isNone && decide (slots ≤ (freeSlots c).length)).map
    fun c => (c, freeSlots c)

/-- `KILN_SUBTILE_MIGRATE`: it notes since when records wait; the lowest unissued sub-tile of the oldest that has waited long enough goes to the
first neighbour that can run it. -/
def execKilnSubtileMigrate (cluster : Nat) (s : State) : Out :=
  let s := s.noteReady cluster
  match s.oldestWaiting cluster with
  | none => .next s
  | some n =>
    let r := ((s.krecs cluster)[n]?).getD {}
    let need := r.subSlots r.next
    if (s.freeKiln cluster).isSome || (s.failedSlot cluster r).isSome then .next s
    else match s.migrationTarget cluster need.length with
      | none => .next s
      | some (cl, free) =>
        let pairs := need.zip free
        let s := pairs.foldl (fun s p => s.copySlot r cluster p.1 cl p.2) s
        let r' := { r with next := r.next + 1, running := r.running + 1 }
        let st := s.kstat cluster r.dom r.disp
        let s := (s.putRec cluster n r').setKstat { st with migr := Nat.min (st.migr + 1) 255 }
        .next ((s.setKiln ((s.freeKiln cl).getD 0) (some { home := cluster, rec_ := r', s := r.next, migrated := true, slots := pairs })).touch (coreOfPe r.pe))

end Sys2Proof.Machine
end

