-- ==== Sys2Proof/Machine/Region.lean ====
section
/-! DEFINITION. A dispatch's region on one die: its cores, held tokens, activity and quiescence, gating requests, and region reset
(spec/07 R217, R219, spec/10 R271, spec/13 R366, R376, R385). -/
namespace Sys2Proof.Machine

/-! ## The region -/

/-- The part of a dispatch on a die. -/
def State.partOf (s : State) (die dom disp : Nat) : Option Part :=
  s.die.parts.find? fun p => decide (p.die = die) && decide (p.dom = dom) && decide (p.disp = disp)

def Part.same (p q : Part) : Bool := decide (p.die = q.die) && decide (p.dom = q.dom) && decide (p.disp = q.disp)

/-- Replaces a part. -/
def State.setPart (s : State) (p : Part) : State :=
  { s with die := { s.die with parts := s.die.parts.map fun q => if q.same p then p else q } }

def State.addPart (s : State) (p : Part) : State := { s with die := { s.die with parts := s.die.parts ++ [p] } }

def State.dropPart (s : State) (p : Part) : State := { s with die := { s.die with parts := s.die.parts.filter fun q => !q.same p } }

/-- Its granules by their package numbers. -/
def Part.grans (p : Part) : List Nat := p.granules.map Prod.snd

/-- Its cores, in the order in which the region numbers them. -/
def Part.cores (p : Part) : List Nat := p.grans.flatMap coresOfGranule

/-- Its clusters, rising. -/
def Part.clusters (p : Part) : List Nat := (sortNat (p.grans.map (· / 4))).eraseDups

/-- Region-relative number of each core of the part (spec/01 R29). -/
def Part.numbered (p : Part) : List (Nat × Nat) :=
  p.granules.flatMap fun g => ((List.range 4).zip (coresOfGranule g.2)).map fun c => (4 * g.1 + c.1, c.2)

/-! ## Held tokens (R385) -/

/-- A buffer on a source channel or on the request channel of its producer. -/
inductive HeldAt where
  | opIn (router slot : Nat)
  | link (router dir vc : Nat)
  /-- The results of a memory node for `rd`; the tokens that wait at its `ld`. -/
  | nodeRd (node : Nat)
  | nodeLd (node : Nat)
  | agen (agen : Nat)
  /-- The results of a read group at its data port; the tokens that wait at its request port. -/
  | cometData (comet port : Nat)
  | cometReq (comet port : Nat)
deriving DecidableEq, Repr

/-- The element input that the tokens of a held buffer wait for: the input of the MCUT, or the request input of the producer. -/
def HeldAt.ofLinks (ls : List (Nat × Nat × Nat)) : List HeldAt := ls.map fun l => .link l.1 l.2.1 l.2.2

/-- The buffers on the request channel of a producer, the nearest first. -/
def State.requestPlaces (s : State) (p : Producer) : List HeldAt :=
  let own : List HeldAt := match p with | .agen _ => [] | .node n => [.nodeLd n] | .comet c k => [.cometReq c (k - 1)]
  match s.requestBack p with
  | some (some (.agen g, ls)) => own ++ HeldAt.ofLinks ls ++ [.agen g]
  | _ => own

/-- The buffers on the source channel of an MCUT, the nearest first, with its producer. -/
def State.sourcePlaces (s : State) (r k : Nat) : List HeldAt × Option Producer :=
  match s.traceBack r (5 + k) none 0 64 with
  | none => ([.opIn r k], none)
  | some (p, ls) =>
    let last : HeldAt := match p with | .agen g => .agen g | .node n => .nodeRd n | .comet c q => .cometData c q
    (.opIn r k :: HeldAt.ofLinks ls ++ [last], some p)

/-- The MCUTs of a core that are in CUT, as router and slot. -/
def State.cutsOf (s : State) (core : Nat) : List (Nat × Nat) :=
  ((s.router.ops.range (32 * core) 32).filter fun o => decide (o.2.opc = 11) && decide (o.2.st = .mcutCut)).map fun o => (o.1 / 2, o.1 % 2)

/-- Every buffer that may hold held tokens of some cores. -/
def State.heldPlaces (s : State) (cores : List Nat) : List HeldAt :=
  (cores.flatMap s.cutsOf).flatMap fun c =>
    match s.sourcePlaces c.1 c.2 with
    | (ps, some p) => ps ++ s.requestPlaces p
    | (ps, none) => ps

/-- The results that a node holds for `rd`, oldest first. -/
def Node.heldRd (d : Node) : List Token :=
  (d.outs.find 0 none).toList ++ (d.queue.filter fun q => decide (q.src = .ld)).filterMap NodeReq.done

/-- The results that a read group holds for its data port, oldest first. -/
def State.cometResults (s : State) (c p : Nat) : List Token :=
  (s.cometPort c p).outq ++ ((s.cometPort c (p - 1)).reqs.filterMap GraphReq.done)

/-- The tokens of a held buffer, oldest first. -/
def State.tokensAt (s : State) (h : HeldAt) : List Token :=
  match h with
  | .opIn r k => (s.opSlot r k).ins.find 0 []
  | .link r d v => s.link r d v
  | .nodeRd n => (s.node n).heldRd
  | .nodeLd n => (s.node n).ins.find 0 []
  | .agen g => (s.agen g).out.toList
  | .cometData c p => s.cometResults c p
  | .cometReq c p => (s.cometPort c p).inq

/-- Room in a buffer. -/
def State.roomAt (s : State) (h : HeldAt) : Bool :=
  match h with
  | .link r d v => decide ((s.link r d v).length < 4)
  | h => decide ((s.tokensAt h).length < 2)

/-- An address generator is held: its output is blocked, and by held tokens only (R385). `places` are those of one channel, the
nearest to its consumer first, and the generator's own last. -/
def State.agenBlocked (s : State) (places : List HeldAt) : Bool :=
  match places.reverse with
  | .agen g :: before :: _ => (s.agen g).out.isSome && !s.roomAt before
  | _ => false

/-- Generators held behind cut MCUTs of some cores. -/
def State.heldAgens (s : State) (cores : List Nat) : List Nat :=
  (cores.flatMap s.cutsOf).filterMap fun c =>
    match s.sourcePlaces c.1 c.2 with
    | (_, none) => none
    | (ps, some p) =>
      let qs := match p with | .agen _ => ps | _ => s.requestPlaces p
      match qs.reverse with
      | .agen g :: _ => if s.agenBlocked qs then some g else none
      | _ => none

/-! ## Activity (R366) -/

def TaskSt.busy (t : TaskSt) : Bool := decide (t = .realign) || decide (t = .marker) || decide (t = .firing) || decide (t = .suspended)

/-- A node is active, but for what is held. -/
def Node.busy (d : Node) (n : Nat) (held : List HeldAt) : Bool :=
  (d.queue.any fun q => q.done.isNone || !(decide (q.src = .ld) && held.contains (.nodeRd n))) ||
    (d.ins.cells.any fun c => !(decide (c.1 = 0) && held.contains (.nodeLd n))) ||
    d.outs.cells.any fun c => !(decide (c.1 = 0) && held.contains (.nodeRd n))

/-- A core holds activity of R366. -/
def State.coreActive (s : State) (held : List HeldAt) (agens : List Nat) (core : Nat) : Bool :=
  let g := s.glaze core
  ((s.unit.tasks.range (128 * core) 128).any fun t => t.2.st.busy) ||
    ((s.unit.handles.range (512 * core) 512).any fun h => decide (0 < h.2.cnt)) ||
    ((s.router.links.range (256 * core) 256).any fun l => !held.contains (.link (l.1 / 16) (l.1 % 16 / 4) (l.1 % 4))) ||
    ((s.router.ops.range (32 * core) 32).any fun o =>
      if held.contains (.opIn (o.1 / 2) (o.1 % 2)) then ({ o.2 with ins := {} } : OpSlot).active else o.2.active) ||
    !g.inq.isEmpty || !g.pipe.isEmpty || g.out.isSome ||
    ((s.core.agens.range (4 * core) 4).any fun a => a.2.active && !agens.contains a.1) ||
    ((s.core.nodes.range (4 * core) 4).any fun n => n.2.busy n.1 held) ||
    !(s.cmdq core).isEmpty ||
    ((s.cluster.streams.range (24 * core) 24).any fun r => !r.2.pend.isEmpty || !r.2.pendv.isEmpty) ||
    ((List.range 24).any fun r => s.isParked (cometOfCore core) (16 + 24 * (core % 8) + r)) || s.isParked (cometOfCore core) (208 + core % 8)

/-- The Comet and the graph ports of a granule (spec/10 R278). -/
def graphPorts (g : Nat) : Nat × List Nat := (g / 2, (List.range 16).map fun k => if g % 2 = 0 then k else 216 + k)

/-- A granule's ports hold activity. -/
def State.granuleActive (s : State) (held : List HeldAt) (g : Nat) : Bool :=
  let gp := graphPorts g
  !(s.cluster.kports.range (16 * g) 16).isEmpty || gp.2.any fun k =>
    let c := s.cometPort gp.1 k
    (!c.inq.isEmpty && !held.contains (.cometReq gp.1 k)) || (!c.outq.isEmpty && !held.contains (.cometData gp.1 k)) ||
      (c.reqs.any fun q => q.done.isNone || !held.contains (.cometData gp.1 (k + 1))) || c.parked.isSome

/-- A Kiln record or fill of a dispatch is queued or running in these clusters (R342). -/
def State.kilnActive (s : State) (cls : List Nat) (dom disp : Nat) : Bool :=
  (cls.any fun cl => (s.krecs cl).any fun r => decide (r.dom = dom) && decide (r.disp = disp)) ||
    (s.cluster.kilns.cells.any fun k => k.2.elim false fun t =>
      decide (t.rec_.dom = dom) && decide (t.rec_.disp = disp) && cls.contains t.home) ||
    s.cluster.slots.cells.any fun k => decide (k.2.st = .filling) && decide (k.2.dom = dom) && decide (k.2.fdisp = disp) && cls.contains (k.1 / 128)

/-- The part is active (R366). -/
def State.partActive (s : State) (p : Part) : Bool :=
  let held := s.heldPlaces p.cores
  let agens := s.heldAgens p.cores
  p.cores.any (s.coreActive held agens) || p.grans.any (s.granuleActive held) || s.kilnActive p.clusters p.dom p.disp

/-- Every source of the part passed END (spec/13 R384). -/
def State.sourcesEnded (s : State) (p : Part) : Bool :=
  p.cores.all fun core =>
    ((s.router.ops.range (32 * core) 32).all fun o => decide (o.2.opc ≠ 11) || decide (o.2.lastMarker = some 0xFFFF)) &&
      (s.core.agens.range (4 * core) 4).all fun a => !a.2.valid || a.2.trig || a.2.ended

/-- A core is retired (spec/14 R417): its tasks have passed END, and what it asked for has performed. -/
def State.coreRetired (s : State) (core : Nat) : Bool :=
  ((s.unit.tasks.range (128 * core) 128).all fun t => !t.2.valid || decide (t.2.lastMarker = some 0xFFFF)) &&
    ((s.core.nodes.range (4 * core) 4).all fun n => n.2.queue.all fun q => q.done.isSome) && (s.cmdq core).isEmpty &&
    ((s.cluster.streams.range (24 * core) 24).all fun r => r.2.pend.isEmpty && r.2.pendv.isEmpty) &&
    !((s.krecs (core / 16)).any fun r => decide (coreOfPe r.pe = core)) &&
    !(s.cluster.kilns.cells.any fun k => k.2.elim false fun t => decide (coreOfPe t.rec_.pe = core)) &&
    !(s.cluster.slots.cells.any fun k => decide (k.2.st = .filling) && decide (k.2.core = core)) &&
    (s.cluster.ports.cells.all fun c => c.2.reqs.isEmpty || decide (c.2.router / 16 ≠ core))

/-! ## Gating requests and releases (spec/07 R217, spec/10 R271, spec/13 R375, R383) -/

/-- The state in which a die sees the dispatch that holds a core. -/
def State.stateOfCore (s : State) (core : Nat) : Option DispSt :=
  (s.info core).dom.bind fun dom => (s.dispOf (dieOfCore core) dom (s.info core).disp).map Disp.st

/-- `MCUT_GATING_REQUEST`: the request that the die sent when it applied PREEMPT takes effect. -/
def execMcutGatingRequest (router : Nat) (slot : Nat) (s : State) : Out :=
  if s.stateOfCore (coreOfRouter router) = some .gating then .next (s.setOpSlot router slot (s.opSlot router slot).arm) else .next s

/-- `MCUT_RELEASE`: the release of dispatch start takes effect. -/
def execMcutRelease (router : Nat) (slot : Nat) (s : State) : Out :=
  if s.stateOfCore (coreOfRouter router) = some .running then .next (s.setOpSlot router slot (s.opSlot router slot).release) else .next s

/-- `AGEN_GATING_REQUEST`. -/
def execAgenGatingRequest (agen : Nat) (s : State) : Out :=
  if s.stateOfCore (agen / 4) = some .gating then .next (s.setAgen agen (s.agen agen).arm) else .next s

/-! ## Region reset (R376) -/

/-- Every element of a core returns to its reset values; its pool bytes stay. -/
def State.resetCore (s : State) (core : Nat) : State :=
  { s with
    unit := { s.unit with
      store := s.unit.store.erase (4096 * core) 4096
      slots := s.unit.slots.erase (4096 * core) 4096
      handles := s.unit.handles.erase (512 * core) 512
      tasks := s.unit.tasks.erase (128 * core) 128
      regs := s.unit.regs.erase (1024 * core) 1024
      preds := s.unit.preds.erase (128 * core) 128
      choosers := s.unit.choosers.erase (16 * core) 16
      badRegs := s.unit.badRegs.erase (1024 * core) 1024
      damaged := s.unit.damaged.erase (1024 * core) 1024
      oplog := s.unit.oplog.erase (16 * core) 16 }
    router := { s.router with
      links := s.router.links.erase (256 * core) 256
      linkLast := s.router.linkLast.erase (64 * core) 64
      localInLast := s.router.localInLast.erase (16 * core) 16
      localOutLast := s.router.localOutLast.erase (16 * core) 16
      elemInLast := s.router.elemInLast.erase (16 * core) 16
      elemOutLast := s.router.elemOutLast.erase (16 * core) 16
      routes := s.router.routes.erase (1024 * core) 1024
      ops := s.router.ops.erase (32 * core) 32
      islands := s.router.islands.erase (64 * core) 64 }
    core := { s.core with
      info := s.core.info.erase core 1
      tensors := s.core.tensors.erase (4096 * core) 4096
      nodes := s.core.nodes.erase (4 * core) 4
      agens := s.core.agens.erase (4 * core) 4
      glazes := s.core.glazes.erase core 1
      cursors := s.core.cursors.erase (4 * core) 4 }
    sync := { s.sync with counters := s.sync.counters.erase (8 * core) 8, flying := s.sync.flying.filter fun o => decide (coreOfPe o.pe ≠ core) }
    cluster := { s.cluster with
      streams := s.cluster.streams.erase (24 * core) 24
      cmds := s.cluster.cmds.erase core 1
      ccs := s.cluster.ccs.erase (16 * core) 16
      ports := (s.cluster.ports.erase (256 * cometOfCore core + 16 + 24 * (core % 8)) 24).erase (256 * cometOfCore core + 208 + core % 8) 1 }
    mem := { s.mem with gather := s.mem.gather.keepLists (fun _ => true) fun r => decide (r.core ≠ core) }
    fab := { s.fab with
      exch := s.fab.exch.filter fun x => decide (x.core ≠ core) || x.commit.isSome
      ratoms := s.fab.ratoms.filter fun x => decide (x.core ≠ core) } }

/-- The units of a granule return to their reset values. -/
def State.resetGranule (s : State) (g : Nat) : State :=
  let gp := graphPorts g
  let s := { s with
    sync := { s.sync with counters := s.sync.counters.erase (100000 + 4 * g) 4 }
    cluster := { s.cluster with
      kctrs := s.cluster.kctrs.erase (8 * g) 8
      limits := s.cluster.limits.erase g 1
      kports := s.cluster.kports.erase (16 * g) 16
      ports := s.cluster.ports.erase (256 * gp.1 + (if g % 2 = 0 then 0 else 216)) 16 } }
  (coresOfGranule g).foldl State.resetCore s

/-- Drops what a dispatch holds on the Kilns of some clusters (R342): records, with their pins on the slots of other dispatches; sub-tiles, migrated ones
included; slots; and its fills of the slots of other dispatches, which are CLAIMED again (log entry 133). -/
def State.dropKilns (s : State) (cls : List Nat) (dom disp : Nat) : State :=
  let mine (d k : Nat) : Bool := decide (d = dom) && decide (k = disp)
  let s := cls.foldl (fun s cl => ((s.krecs cl).filter fun r => mine r.dom r.disp).foldl (fun s r => s.unpin cl r.pinned) s) s
  { s with cluster := { s.cluster with
      krecs := s.cluster.krecs.keepLists (fun k => cls.contains k) fun r => !mine r.dom r.disp
      kilns := ⟨s.cluster.kilns.cells.filter fun c => !(c.2.elim false fun t => mine t.rec_.dom t.rec_.disp && cls.contains t.home)⟩
      slots := ⟨(s.cluster.slots.cells.filter fun c => !(mine c.2.dom c.2.disp && (decide (c.1 / 2048 = (cls.headD 0) / 16)))).map fun c =>
        if decide (c.2.st = .filling) && mine c.2.dom c.2.fdisp && cls.contains (c.1 / 128) then (c.1, { c.2 with st := .claimed }) else c⟩ } }

/-- Discards the staged lines of a part (spec/14 R413). -/
def State.discardStaged (s : State) (p : Part) : State :=
  { s with cluster := { s.cluster with
      stage := s.cluster.stage.filter fun l => !(decide (l.dom = p.dom) && decide (l.disp = p.disp) && decide (l.cluster / 16 = p.die)) } }

/-- Zeroes `MIGR`, `SPILLS` and the enqueue counts of a part (spec/11 R315, R338). -/
def State.zeroStats (s : State) (p : Part) : State :=
  { s with cluster := { s.cluster with
      kstats := s.cluster.kstats.filter fun k => !(decide (k.dom = p.dom) && decide (k.disp = p.disp) && decide (k.cluster / 16 = p.die)) } }

/-- Barrier counters of a die and of the package that belong to a dispatch. -/
def State.resetCounters (s : State) (keys : List Nat) (dom disp : Nat) : State :=
  keys.foldl (fun s k => if (s.barrier k).dom = dom ∧ (s.barrier k).disp = disp then s.setBarrier k {} else s) s

/-- The key of a configuration-cache entry (R368). -/
def CacheImage.is (c : CacheImage) (cl dom addr : Nat) (digest : Word) : Bool :=
  decide (c.cluster = cl) && decide (c.dom = dom) && decide (c.addr = addr) && decide (c.digest = digest)

/-- The entry of a load, most recent and pinned, or unpinned. -/
def State.pinImage (s : State) (cl dom addr : Nat) (digest : Word) (pin : Bool) : State :=
  let mine (c : CacheImage) : Bool := c.is cl dom addr digest
  { s with cluster := { s.cluster with
      cfgCache := ((s.cluster.cfgCache.filter mine).map fun c => { c with pinned := pin }) ++ s.cluster.cfgCache.filter fun c => !mine c } }

/-- An abandoned load ends: its entry is no longer pinned, its loader is idle (R368, R376). -/
def State.dropLoad (s : State) (cl : Nat) : State :=
  let l := s.loader cl
  (s.pinImage cl l.dom l.img l.digest false).setLoader cl {}

/-- A one-flit packet between a memory controller and the Comets of a part: a request, or a response (spec/14 R410). -/
def Part.ownsFlit (p : Part) (f : Flit) : Bool :=
  let h := Header.ofBits f.bits
  let asker := if h.type % 2 = 1 then 16 * h.dy + h.dx else 16 * h.sy + h.sx
  f.head && f.last && decide (h.type ≤ 5) && decide (h.dom = p.dom) &&
    decide (bitsOf 186 32 f.bits = p.disp) && decide (routerDie asker = p.die)

/-- Drops the requests of a part that have not performed, wherever they stand on the way to a memory controller (spec/14 R410). -/
def State.dropRequests (s : State) (p : Part) : State :=
  let queued (r : CtrlReq) : Bool :=
    let h := Header.ofBits (r.hdr.setWidth 512)
    decide (r.dom = p.dom) && decide (r.id / 2 ^ 32 = p.disp) && decide (routerDie (16 * h.sy + h.sx) = p.die)
  { s with
    mesh := { s.mesh with inputs := s.mesh.inputs.keepLists (fun _ => true) fun f => !p.ownsFlit f, delivered := s.mesh.delivered.keepLists (fun _ => true) fun f => !p.ownsFlit f }
    mem := { s.mem with
      ctrl := s.mem.ctrl.keepLists (fun _ => true) fun r => !queued r
      gather := s.mem.gather.keepLists (fun _ => true) fun r =>
        !(decide (r.asker.dom = p.dom) && decide (r.asker.disp = p.disp) && decide (r.asker.die = p.die)) } }

/-- Drops the exchange lines of a part's commit that have not performed (spec/14 R410); a part that has committed has none (spec/15 R424). -/
def State.dropCommit (s : State) (p : Part) : State :=
  { s with fab := { s.fab with exch := s.fab.exch.filter fun x => !(decide (x.dom = p.dom) && decide (x.disp = p.disp) && decide (x.commit = some p.die)) } }

/-- Region reset of a part, which ends with it. -/
def State.resetRegion (s : State) (p : Part) : State :=
  let s := p.grans.foldl State.resetGranule ((s.dropRequests p).dropCommit p)
  let s := ((s.dropKilns p.clusters p.dom p.disp).discardStaged p).zeroStats p
  let s := s.resetCounters ((List.range 32).map (200000 + 32 * p.die + ·)) p.dom p.disp
  let s := p.clusters.foldl (fun s cl => let l := s.loader cl
    if l.busy && decide (l.dom = p.dom) && decide (l.disp = p.disp) then s.dropLoad cl else s) s
  let s := s.dropPart p
  -- package counters stay while another die holds a part
  if s.die.parts.any fun q => decide (q.dom = p.dom) && decide (q.disp = p.disp) then s
  else s.resetCounters ((List.range 64).map (300000 + ·)) p.dom p.disp

end Sys2Proof.Machine
end

