-- ==== Sys2Proof/Machine/Loader.lean ====
section
/-! DEFINITION. The loaders of the cluster slices and their configuration caches (spec/01 R45 to R48, spec/13 R367, R368,
spec/15 R433). -/
namespace Sys2Proof.Machine

/-- A WHEEL dispatch (spec/15 R431). -/
def DispEntry.wheel (e : DispEntry) : Bool := decide (e.cls = 4)

/-- The expert whose consecutive granules hold a place (spec/15 R432). -/
def expertIn : List Nat → Nat → Nat → Nat
  | [], e, _ => e
  | a :: as, e, place => if place < a then e else expertIn as (e + 1) (place - a)

/-- The expert of a place of a WHEEL region: by the shares, or for a recovery granule by the records dealt to it (spec/15 R440). -/
def Disp.expertAt (d : Disp) (place : Nat) : Nat :=
  if place < sumNat d.share then expertIn d.share 0 place else ((d.recs.find? fun r => decide (r.granule = place)).map WheelRec.expert).getD 0

/-- The expert of a granule, 0 in a dispatch of another class. -/
def Disp.imageOf (d : Disp) (place : Nat) : Nat := if d.entry.wheel then d.expertAt place else 0

/-- The granules of a part in a cluster that load an expert's image and have not started. -/
def Part.toLoad (p : Part) (d : Disp) (cl e : Nat) : List Nat :=
  (p.granules.filter fun g => decide (g.2 / 4 = cl) && decide (d.imageOf g.1 = e) && !p.started.contains g.2).map Prod.snd

/-- The images that a part's loaders have not yet reported, as cluster and expert. -/
def Part.jobs (p : Part) (d : Disp) : List (Nat × Nat) :=
  ((p.granules.filter fun g => !p.started.contains g.2).map fun g => (g.2 / 4, d.imageOf g.1)).eraseDups.filter fun j =>
    !(p.loads.any fun l => decide (l.1 = j.1) && decide (l.2.1 = j.2))

/-- The dispatch of a part in its die's replica. -/
def State.dispOfPart (s : State) (p : Part) : Option Disp := s.dispOf p.die p.dom p.disp

/-- A load of the part may begin or go on: LOADING, or a recovery granule of a running WHEEL dispatch (spec/15 R440). -/
def Disp.loads (d : Disp) : Bool :=
  decide (d.st = .placed) || decide (d.st = .loading) || (d.entry.wheel && (decide (d.st = .running) || decide (d.st = .gating)))

/-- The next load of a cluster: a part, its dispatch and the expert. -/
def State.nextJob (s : State) (cl : Nat) : Option (Part × Disp × Nat) :=
  (s.die.parts.filter fun p => decide (p.die = cl / 16)).findSome? fun p =>
    match s.dispOfPart p with
    | none => none
    | some d => if d.loads then ((p.jobs d).find? fun j => j.1 = cl).map fun j => (p, d, j.2) else none

/-- Every loader of a part has begun: it has reported, or reads (R376). -/
def State.loadBegun (s : State) (p : Part) (d : Disp) : Bool :=
  p.clusters.all fun cl => (p.loads.any fun l => l.1 = cl) ||
    let l := s.loader cl
    (l.busy && decide (l.dom = p.dom) && decide (l.disp = p.disp)) || !((p.jobs d).any fun j => j.1 = cl)

/-- The state of a dispatch as a record shows it. No notice says that the last of its loaders has begun, so the replicas hold PLACED until
they apply LOADED; LOADING is read from the loaders (R370, R376; log entry 105). -/
def State.shownState (s : State) (d : Disp) : DispSt :=
  let ps := s.die.parts.filter fun p => decide (p.dom = d.dom) && decide (p.disp = d.disp)
  if decide (d.st = .placed) && !ps.isEmpty && ps.all (s.loadBegun · d) then .loading else d.st

/-- Address and frame count of an image: of the dispatch entry, or of the expert image table (spec/15 R434). -/
def Part.image (p : Part) (d : Disp) (e : Nat) : Nat × Nat := if d.entry.wheel then (p.images[e]?).getD (0, 0) else (d.entry.img, d.entry.nf)

/-- Reads one frame from HBM. -/
def State.readFrame (s : State) (dom addr : Nat) : (Word ⊕ MemFail) × State :=
  match s.memRead dom dom addr 32 with
  | (.inl bs, s) => (.inl (BitVec.ofNat 256 (natOfBytes bs)), s)
  | (.inr f, s) => (.inr f, s)

/-- DIGEST of an END pair (R45). -/
def digestOf (e0 e1 : Frm) : Word := BitVec.ofNat 256 (e0.pay % 2 ^ 224 * 2 ^ 32 + e1.f 192 32)

/-! ## The configuration cache (R368) -/

def CacheImage.blocks (c : CacheImage) : Nat := (c.frames.length + 127) / 128

/-- Blocks that the entries of a cluster take. -/
def blocksUsed (cs : List CacheImage) (cl : Nat) : Nat := sumNat ((cs.filter fun c => c.cluster = cl).map CacheImage.blocks)

/-- Makes room for n blocks by dropping unpinned entries, least recently used first; entries stand most recent first. -/
def evict (cs : List CacheImage) (cl n : Nat) : Nat → List CacheImage
  | 0 => cs
  | fuel + 1 =>
    if blocksUsed cs cl + n ≤ 256 then cs else
      match (cs.reverse.findIdx? fun c => decide (c.cluster = cl) && !c.pinned) with
      | none => cs
      | some k => evict (dropAt (cs.length - 1 - k) cs) cl n fuel

/-- The entries that stay when one is filled. -/
def State.cacheRest (s : State) (c : CacheImage) : List CacheImage := evict s.cluster.cfgCache c.cluster c.blocks s.cluster.cfgCache.length

def CacheImage.fits (c : CacheImage) (cs : List CacheImage) : Bool := decide (blocksUsed cs c.cluster + c.blocks ≤ 256)

/-- Fills an entry, unless its blocks are more than are free or unpinned. -/
def State.fillCache (s : State) (c : CacheImage) : State :=
  let cs := s.cacheRest c
  if c.fits cs then { s with cluster := { s.cluster with cfgCache := c :: cs } } else s

/-- The entry would be the ninth domain's, and waits (spec/14 R407). -/
def State.cacheWaits (s : State) (c : CacheImage) : Bool :=
  let cs := s.cacheRest c
  let doms := ((cs.filter fun x => x.cluster = c.cluster).map CacheImage.dom).eraseDups
  c.fits cs && !doms.contains c.dom && decide (8 ≤ doms.length)

/-- Drops the entries of a domain (R368). -/
def State.dropImages (s : State) (dom : Nat) : State :=
  { s with cluster := { s.cluster with cfgCache := s.cluster.cfgCache.filter fun c => decide (c.dom ≠ dom) } }

/-! ## Reporting (R46, R371) -/

/-- The failing status of the lowest cluster, 0 if every loader reports OK. -/
def worstLoad (ls : List (Nat × Nat × Nat)) : Nat :=
  let bad := ls.filter fun l => l.2.2 ≠ 0
  match sortNat (bad.map Prod.fst) with
  | [] => 0
  | cl :: _ => ((bad.find? fun l => l.1 = cl).map fun l => l.2.2).getD 0

/-- A loader reports a status; when every loader of the part has, the die posts LOADED. -/
def State.reportLoad (s : State) (cl : Nat) (p : Part) (d : Disp) (e status : Nat) : State :=
  let l := s.loader cl
  let s := (s.pinImage cl l.dom l.img l.digest false).setLoader cl {}
  let p := { p with loads := p.loads ++ [(cl, e, status)] }
  let s := s.setPart p
  if (p.jobs d).isEmpty then s.post (.loaded p.die p.dom p.disp (worstLoad p.loads)) else s

/-- `CONFIG_CACHE_LOOKUP`: an idle loader begins a load: it reads the END pair and looks the image up. -/
def execConfigCacheLookup (cluster : Nat) (s : State) : Out :=
  if (s.loader cluster).busy then .next s else
    match s.nextJob cluster with
    | none => .next s
    | some (p, d, e) =>
      let im := p.image d e
      let l : Loader := { busy := true, dom := p.dom, disp := p.disp, expert := e, img := im.1, nf := im.2 }
      -- an END pair that cannot be read is reported when its frame's turn comes, in image order (R47)
      match s.readFrame p.dom (im.1 + 32 * (im.2 - 2)) with
      | (.inr _, s) => .next (s.setLoader cluster l)
      | (.inl w0, s) =>
        match s.readFrame p.dom (im.1 + 32 * (im.2 - 1)) with
        | (.inr _, s) => .next (s.setLoader cluster l)
        | (.inl w1, s) =>
          let digest := digestOf (Frm.ofWord w0) (Frm.ofWord w1)
          let hit := s.cluster.cfgCache.any fun c => c.is cluster p.dom im.1 digest
          .next ((if hit then s.pinImage cluster p.dom im.1 digest true else s).setLoader cluster { l with hit, digest })

/-! ## Reading an image (R47, R48) -/

/-- The next frame: from the cache, with one retry from HBM, or from HBM. -/
def State.nextFrame (s : State) (cl : Nat) (l : Loader) : (Word ⊕ MemFail) × State :=
  match (if l.hit then s.cluster.cfgCache.find? fun c => c.is cl l.dom l.img l.digest else none) with
  | some c =>
    match c.frames[l.next]? with
    | some w => if c.bad.contains l.next then s.readFrame l.dom (l.img + 32 * l.next) else (.inl w, s)
    | none => s.readFrame l.dom (l.img + 32 * l.next)
  | none => s.readFrame l.dom (l.img + 32 * l.next)

/-- The regions that an image is loaded as: the whole region, or each of the granules of a WHEEL dispatch. -/
def loadRegions (d : Disp) (gs : List Nat) : List (List Nat) := if d.entry.wheel then gs.map fun g => [g] else [d.granules]

/-- The frames before the END pair as they are stored. -/
def imageBytes (ws : List Word) : List Byte := ws.flatMap fun w => bytesOfNat 32 w.toNat

/-- The status at END: BAD_COUNT, BAD_DIGEST, then the checks between frames. `body` is in image order. -/
def endStatus (regions : List (List Nat)) (stray : Bool) (body : List Word) (e0 e1 : Frm) : Nat :=
  if stray || decide (e1.f 160 32 ≠ body.length) then 4
  else if digestOf e0 e1 ≠ BitVec.ofNat 256 (Sm.beNat (Sm.sm3 (imageBytes body))) then 3
  else if regions.all fun gs => imageOk gs (body.map Frm.ofWord) then 0 else 1

/-- Writes an accepted image into the granules of a cluster. -/
def State.loadImage (s : State) (regions : List (List Nat)) (mine : List Nat) (dom disp : Nat) (xs : List Frm) : State :=
  regions.foldl (fun s gs => s.writeImage gs (fun g => mine.contains g) dom disp xs) s

/-- The Comets of a cluster drop their copies of a domain's descriptors and tile table entries at a configuration load (spec/10 R277). -/
def State.dropCopies (s : State) (cl dom : Nat) : State :=
  { s with cluster := { s.cluster with xlat := s.cluster.xlat.filter fun x => !(decide (x.dom = dom) && decide (x.comet / 2 = cl)) } }

/-- The status of a load whose image has been read. -/
def Part.loadStatus (p : Part) (d : Disp) (cl : Nat) (l : Loader) (body : List Word) (e0 e1 : Word) : Nat :=
  endStatus (loadRegions d (p.toLoad d cl l.expert)) l.stray body (Frm.ofWord e0) (Frm.ofWord e1)

/-- The entry that a load which missed leaves in the configuration cache. -/
def Loader.entry (l : Loader) (cl status : Nat) (body : List Word) (e0 e1 : Word) : Option CacheImage :=
  if status = 0 && !l.hit && decide (body.length + 2 = l.nf) then
    some { cluster := cl, dom := l.dom, addr := l.img, digest := digestOf (Frm.ofWord e0) (Frm.ofWord e1), frames := body ++ [e0, e1] }
  else none

/-- A load ends with its image read; none while the entry that it leaves has to wait. -/
def State.acceptLoad (s : State) (cl : Nat) (p : Part) (d : Disp) (l : Loader) (body : List Word) (e0 e1 : Word) : Option State :=
  let mine := p.toLoad d cl l.expert
  let status := p.loadStatus d cl l body e0 e1
  let entry := l.entry cl status body e0 e1
  if entry.elim false s.cacheWaits then none else
    let s := if status = 0 then (s.loadImage (loadRegions d mine) mine p.dom p.disp (body.map Frm.ofWord)).dropCopies cl p.dom else s
    some ((entry.elim s s.fillCache).reportLoad cl p d l.expert status)

/-- `LOADER_FRAME_READ`: a loader reads the next frame, with the checks on it alone. Of one behind an EMPTY key slot the controller posts the record
(spec/14 R405), and the load ends as READ_UE, the status of a frame that was not read (log entry 66). -/
def execLoaderFrameRead (cluster : Nat) (s : State) : Out :=
  let l := s.loader cluster
  match s.partOf (cluster / 16) l.dom l.disp with
  | none => .next s
  | some p =>
    match s.dispOfPart p with
    | none => .next s
    | some d =>
      if !l.busy || !d.loads then .next s else
        let report (s : State) (status : Nat) : Out := .next (s.reportLoad cluster p d l.expert status)
        match s.nextFrame cluster l with
        | (.inr f, s) => report (s.postKey l.dom l.disp (l.img + 32 * l.next) (some f)) 5
        | (.inl w, s) =>
          let x := Frm.ofWord w
          let afterEnd := (l.frames.head?).elim false fun v => (Frm.ofWord v).isEnd 0
          if x.bad then report s 1
          else if (loadRegions d (p.toLoad d cluster l.expert)).any x.badTarget then report s 2
          else if afterEnd then
            if x.isEnd 1 then .next ((s.acceptLoad cluster p d l l.frames.tail.reverse (l.frames.headD 0) w).getD s) else report s 4
          else if 2 ^ 20 ≤ l.next + 1 then report s 4
          else .next (s.setLoader cluster { l with next := l.next + 1, frames := w :: l.frames, stray := l.stray || x.isEnd 1 })

end Sys2Proof.Machine
end

