-- ==== Sys2Proof/Machine/Losses.lean ====
section
/-! DEFINITION. The loss of a die and of a mesh link, as they are posted (spec/13 R359, R390, spec/15 R440, R441). -/
namespace Sys2Proof.Machine

/-- Posts a notice that the log does not hold yet. -/
def State.postOnce (s : State) (n : Notice) : State := if s.hub.log.contains n then s else s.post n

/-- Scratchpad bytes of core 0 as an image's PARTITION frame sets them, from frame k on; of an image without one, or that cannot be read,
those of an empty partition (spec/08 R222). -/
def State.imageRoom (s : State) (dom img k : Nat) : Nat → Nat
  | 0 => ({} : CoreInfo).spaceSize false
  | n + 1 =>
    match s.readFrame dom (img + 32 * k) with
    | (.inr _, _) => ({} : CoreInfo).spaceSize false
    | (.inl w, _) =>
      let x := Frm.ofWord w
      if x.kind = 8 && x.core = 0 then ({ regs := x.f 222 2, acc := x.f 218 4 } : CoreInfo).spaceSize false else s.imageRoom dom img (k + 1) n

/-- Scratchpad bytes of core 0 of the granules of a part: as loaded, or as its image will set them (spec/15 R440). -/
def State.roomsOf (s : State) (p : Part) : List (Nat × Nat) :=
  p.granules.map fun g => (g.2,
    if p.started.contains g.2 then (s.info ((coresOfGranule g.2).headD 0)).spaceSize false
    else match s.dispOfPart p with
      | some d => if d.entry.wheel then let im := p.image d (d.imageOf g.1); s.imageRoom p.dom im.1 0 im.2 else 0
      | none => 0)

def State.rooms (s : State) : List (Nat × Nat) := s.die.parts.flatMap s.roomsOf

/-- Posts the loss of a die, once. -/
def State.postLoss (s : State) (die : Nat) : State := if s.lostDies.contains die then s else s.post (.dieLoss die s.rooms)

/-- A link goes down: both directions, and the event. -/
def State.markDown (s : State) (r dir : Nat) : State :=
  let mark (s : State) (r d : Nat) : State := s.setMeshOut r d { s.meshOut r d with down := true, fails := 0 }
  let s := match meshNext r dir with | some q => mark (mark s r dir) q (opposite dir) | none => mark s r dir
  s.dispEvent (routerDie r) 0x3005 noDisp 0
    (packFields [(8, 0), (4, routerCluster r % 16), (3, routerDie r)])

/-- A link goes down, and its die is lost or its two dies are split (R359, R390, spec/15 R441); of a link to the hub no rule says more. -/
def State.meshDown (s : State) (r dir : Nat) : State :=
  match meshNext r dir with
  | none => if hubLink r dir then s.markDown r dir else s
  | some q =>
    let s := s.markDown r dir
    if !dieEdge r dir then s.postLoss (routerDie r)
    else
      let a := Nat.min (routerDie r) (routerDie q)
      let b := Nat.max (routerDie r) (routerDie q)
      let s := s.postOnce (.linkSplit a b)
      if (edgeRouters r dir).all fun x => (s.meshOut x dir).down then s.postLoss b else s

/-- `MESH_CRC_REPLAY`: a replay that succeeds costs time alone. -/
def execMeshCrcReplay (router : Nat) (dir : Nat) (ok : Bool) (s : State) : Out :=
  let o := s.meshOut router dir
  if ((meshNext router dir).isNone && !hubLink router dir) || o.down then .next s
  else if ok then .next (s.setMeshOut router dir { o with fails := 0 })
  else if 15 ≤ o.fails then .next (s.meshDown router dir)
  else .next (s.setMeshOut router dir { o with fails := o.fails + 1 })

end Sys2Proof.Machine
end

