-- ==== Sys2Proof/Machine/Packets.lean ====
section
/-! DEFINITION. Launch packets as their poster reads them (spec/15 R419, R420, R495). -/
namespace Sys2Proof.Machine

/-- A dispatch entry from its 512 bits (R420); the list of a FIXED entry is read apart. -/
def DispEntry.ofBits (v : Nat) : DispEntry :=
  let f := fun lo n => fieldNat lo n v
  { img := f 448 64, nf := f 416 32, g := f 406 10, cls := f 403 3, prio := f 401 2, rst := f 400 1 = 1, backfill := f 399 1 = 1
    dmask := if f 391 8 = 0 then 0xFF else f 391 8, phi := f 383 8, ndb := f 377 6, npb := f 370 7, tsrc := f 368 2, tcnt := f 352 16
    tcores := f 340 12, tbase := f 321 19, npred := f 318 3, taddr := f 192 64, xaddr := f 128 64
    preds := (List.range (Nat.min (f 318 3) 4)).map fun j => f (16 * j + 64) 16
    mcore := f 48 16, mclu := f 32 16, mdie := f 16 16, mpkg := f 0 16
    bad := f 256 62 ≠ 0 || decide (4 < f 403 3) || f 368 2 = 3 || decide (4 < f 318 3) }

/-- 16-bit numbers of a list of bytes. -/
def halves : List Byte → List Nat
  | a :: b :: bs => natOfBytes [a, b] :: halves bs
  | _ => []

/-- Reads the granule list of a FIXED entry (R420, R495). -/
def State.readFixed (s : State) (dom : Nat) (e : DispEntry) : DispEntry × State :=
  if e.cls = 3 && decide (e.g ≤ 512) then
    match s.memRead dom dom e.xaddr (2 * e.g) with
    | (.inl bs, s) => ({ e with fixed := some (halves bs) }, s)
    | (.inr f, s) => ({ e with fixed := none, noKey := f.isKey }, s)
  else (e, s)

/-- Reads n entries from an address, or fails as the first that cannot be read. -/
def State.readEntries (s : State) (dom addr : Nat) : Nat → (List DispEntry ⊕ MemFail) × State
  | 0 => (.inl [], s)
  | n + 1 =>
    match s.memRead dom dom addr 64 with
    | (.inr f, s) => (.inr f, s)
    | (.inl bs, s) =>
      match s.readFixed dom (DispEntry.ofBits (natOfBytes bs)) with
      | (e, s) =>
        match s.readEntries dom (addr + 64) n with
        | (.inl es, s) => (.inl (e :: es), s)
        | (.inr f, s) => (.inr f, s)

/-- Reads a packet with the key slot of the launching domain (R419). -/
def State.readPacket (s : State) (dom addr : Nat) : Packet × State :=
  match s.memRead dom dom addr 128 with
  | (.inr f, s) => ({ unreadable := true, noKey := f.isKey }, s)
  | (.inl bs, s) =>
    let v := natOfBytes bs
    let f := fun lo n => fieldNat lo n v
    let p : Packet :=
      { lver := f 1016 8, ndisp := f 1008 8, fab := f 1007 1 = 1, rtv := f 1006 1 = 1, rtphi := f 998 8, rtaddr := f 896 64, rtlen := f 880 16
        reserved := f 960 38 ≠ 0 || f 0 880 ≠ 0 }
    match s.readEntries dom (addr + 128) p.ndisp with
    | (.inl es, s) => ({ p with entries := es }, s)
    | (.inr f, s) => ({ p with unreadable := true, noKey := f.isKey }, s)

/-- LAUNCH notices that a die has posted for a domain and not yet applied (spec/13 R371). -/
def State.launchesWaiting (s : State) (die dom : Nat) : Nat :=
  ((s.hub.log.drop (s.dieOf die).applied).filter fun n => match n with
    | .launch d _ (some p) => decide (d = dom) && decide (p = die)
    | _ => false).length

end Sys2Proof.Machine
end

