-- ==== Sys2Proof/Machine/Schedule.lean ====
section
/-! DEFINITION. The schedule state as notices change it: the dispatch states, the re-queue rule, kills and terminations, the priority
queues, placement, the Wheel's apportionment and re-dispatch (spec/13 R370 to R379, R390, spec/14 R409, R410, spec/15 R421 to R441). -/
namespace Sys2Proof.Machine

/-! ## Replica and what dies do about it -/

/-- What a die does when its replica changes. -/
inductive SchedAct where
  /-- Its granules are taken: tags, part. -/
  | place (d : Disp)
  /-- Recovery granules, by their places (spec/15 R440). -/
  | recover (d : Disp) (places : List Nat)
  /-- Records re-dispatched. -/
  | redeal (d : Disp) (recs : List WheelRec)
  | start (d : Disp)
  | gate (d : Disp)
  /-- Region reset at once. -/
  | reset (d : Disp)
  /-- Region reset of a COMMITTED dispatch, or of one re-queued in its load, which the die reports. -/
  | retire (d : Disp)
  /-- The die commits its part again (spec/15 R434). -/
  | recommit (d : Disp)
  /-- Step 1 of R410. -/
  | cut (d : Disp)
  /-- A record of the dispatch, which the lowest live die posts: kind, `DSTATE`, cause, `DETAIL`. -/
  | record (kind dstate cause detail : Nat) (d : Disp)
  /-- The KILLED records of a direct dispatch of which no die is left (spec/15 R439). -/
  | groups (d : Disp)
  /-- A REJECTED record. -/
  | rejected (dom cause detail : Nat)
  | terminated (dom cause detail : Nat) (die : Option Nat)
  | event (code : Nat) (d : Disp)
  /-- Descriptor and tile-cache lines of a context are dropped. -/
  | drop (dom : Nat)
  /-- A lost die falls silent. -/
  | silence (die : Nat)
deriving DecidableEq, Repr

/-- A replica under change, with what its die does, in order. -/
structure Work where
  sched : Sched
  acts : List SchedAct := []
deriving DecidableEq, Repr

def Disp.is (d : Disp) (dom disp : Nat) : Bool := decide (d.dom = dom) && decide (d.disp = disp)

def Sched.find (c : Sched) (dom disp : Nat) : Option Disp := c.disps.find? fun d => d.is dom disp
def Sched.ctx (c : Sched) (dom : Nat) : CtxSched := c.ctxs.find dom {}
def Sched.setCtx (c : Sched) (dom : Nat) (x : CtxSched) : Sched := { c with ctxs := c.ctxs.put dom x {} }

/-- The live dies of a dispatch's region, rising. -/
def Sched.dies (c : Sched) (d : Disp) : List Nat := (sortNat (d.granules.map (· / 64))).eraseDups.filter fun n => !c.lost.contains n

/-- The die that posts what the package posts once. -/
def Sched.lowest (c : Sched) : Nat := (firstBelow 8 fun d => !c.lost.contains d).getD 0

def Work.act (w : Work) (a : SchedAct) : Work := { w with acts := w.acts ++ [a] }
def Work.setCtx (w : Work) (dom : Nat) (x : CtxSched) : Work := { w with sched := w.sched.setCtx dom x }

/-- Replaces a dispatch in its place. -/
def Work.put (w : Work) (d : Disp) : Work :=
  { w with sched := { w.sched with disps := w.sched.disps.map fun x => if x.is d.dom d.disp then d else x } }

/-- Moves a dispatch to the tail of its queue. -/
def Work.toTail (w : Work) (d : Disp) : Work :=
  { w with sched := { w.sched with disps := (w.sched.disps.filter fun x => !x.is d.dom d.disp) ++ [d] } }

/-- The region is given up: granules and counters are free. -/
def Disp.released (d : Disp) : Disp :=
  { d with granules := [], dieCtrs := [], pkgCtrs := [], loaded := [], ended := [], savedDies := [], committedDies := [], resetDies := []
           share := [], recs := [] }

/-- A dispatch becomes READY and enters its queue (R376); a WHEEL dispatch holds the version in force (spec/15 R438). -/
def Work.enter (w : Work) (d : Disp) : Work :=
  w.toTail { d.released with st := .ready, level := d.entry.prio, ticks := 0
                             version := if d.st = .waiting then (w.sched.ctx d.dom).repver else d.version }

/-! ## Kills, re-queues, terminations (R376, R379, spec/14 R410) -/

/-- Its parts hold state that has to drain. -/
def Disp.drains (d : Disp) : Bool :=
  decide (d.st = .running) || decide (d.st = .gating) || decide (d.st = .draining) || (decide (d.st = .saved) && !d.granules.isEmpty)

def Disp.inLoad (d : Disp) : Bool := decide (d.st = .placed) || decide (d.st = .loading)

/-- A dispatch is KILLED. What was running drains; a load is abandoned; the record of any other follows at once, but one that committed has
none (spec/14 R417). -/
def Work.kill (w : Work) (d : Disp) (cause : Nat) (reason : Option Nat := none) : Work :=
  if d.st.final then w
  else
    let k := { d with st := .killed, was := d.st, cause, reason }
    let detail := reason.getD 0
    if d.drains then (w.put k).act (.cut k)
    else if d.st = .committed then w.put k
    else if d.inLoad then ((w.put { k.released with cause, reason }).act (.record 1 d.st.code cause detail k)).act (.reset d)
    else (w.put k).act (.record 1 d.st.code cause detail k)

/-- A context is terminated, and its launches that wait are dropped (spec/14 R410); domain 0 never is. -/
def Work.terminate (w : Work) (dom cause detail : Nat) (die : Option Nat) : Work :=
  let c := w.sched.ctx dom
  if dom = 0 || c.terminated then w
  else
    let w := (w.setCtx dom { c with terminated := true }).act (.terminated dom cause detail die)
    let w : Work := { w with sched := { w.sched with late := w.sched.late.filter fun x => x.1 ≠ dom } }
    (w.sched.disps.filter fun d => d.dom = dom).foldl (fun w d => w.kill d cause) w

/-- A dispatch is REQUEUED, at most twice (R379). -/
def Work.requeue (w : Work) (d : Disp) (cause : Nat) (terminating : Option Nat) : Work :=
  if 2 ≤ d.requeues then
    let w := w.kill d cause
    match terminating with
    | some die => w.terminate d.dom cause 0 (some die)
    | none => w
  else
    let k := { d with st := .requeued, was := d.st, cause, requeues := d.requeues + 1 }
    let w := w.act (.event 0x3002 k)
    -- nothing of a load has run: its region is reset at once, and its record shows the state that it is in
    if d.inLoad then ((w.put k).act (.record 2 d.st.code cause 0 k)).act (.retire k)
    else (w.put k).act (.cut k)

/-! ## The Wheel (spec/15 R432, R433) -/

/-- Records of an expert with this count. -/
def recordsOf (count : Nat) : Nat := (count + 31) / 32

/-- Experts with a count above 0, by falling remainder and then by number. -/
def byRemainder (r t : Nat) : List (Nat × Nat) → List (Nat × Nat)
  | [] => []
  | x :: xs =>
    let rec insert (x : Nat × Nat) : List (Nat × Nat) → List (Nat × Nat)
      | [] => [x]
      | y :: ys => if r * y.2 % t ≤ r * x.2 % t then x :: y :: ys else y :: insert x ys
    insert x (byRemainder r t xs)

/-- The granules of each expert (R432): none if more experts have records than there are granules. -/
def apportion (counts : List Nat) (g : Nat) : Option (List Nat) :=
  let nz := (counts.filter (0 < ·)).length
  if g < nz then none
  else
    let t := sumNat counts
    let r := g - nz
    let base := counts.map fun c => if 0 < c then 1 + r * c / t else 0
    let extra := ((byRemainder r t (((List.range counts.length).zip counts).filter fun x => 0 < x.2)).take (g - sumNat base)).map Prod.fst
    some (((List.range counts.length).zip base).map fun x => if extra.contains x.1 then x.2 + 1 else x.2)

/-- The records of a WHEEL dispatch in source order, dealt to the places of its experts. -/
def dealWheel (counts share : List Nat) : List WheelRec :=
  ((List.range counts.length).zip (counts.zip share)).flatMap fun x =>
    let base := sumNat (share.take x.1)
    if x.2.2 = 0 then [] else (List.range (recordsOf x.2.1)).map fun i => { expert := x.1, pos := i, granule := base + i % x.2.2 }

/-! ## What follows from what has been applied (R376) -/

/-- Every live die of the region is in a list. -/
def Sched.all (c : Sched) (d : Disp) (ns : List Nat) : Bool := (c.dies d).all ns.contains

/-- The load status of a dispatch: the failing status of its lowest die. -/
def Disp.loadStatus (d : Disp) (dies : List Nat) : Nat :=
  (dies.findSome? fun n => (d.loaded.find? fun l => decide (l.1 = n) && decide (l.2 ≠ 0)).map Prod.snd).getD 0

/-- The predecessors of a dispatch. -/
def Sched.preds (c : Sched) (d : Disp) : List Disp := d.entry.preds.filterMap fun p => c.find d.dom (d.disp / 65536 * 65536 + p)

def Disp.done (d : Disp) : Bool := decide (d.st = .committed) || decide (d.st = .retired)

/-- The granules of a dispatch that lie on live dies: those of its parts. -/
def Sched.liveGranules (c : Sched) (d : Disp) : List Nat := d.granules.filter fun g => !c.lost.contains (g / 64)

/-- The granules of a list lie on both dies of a split pair (spec/15 R441). -/
def Sched.spansSplit (c : Sched) (gs : List Nat) : Bool :=
  c.splits.any fun p => (gs.any fun g => g / 64 = p.1) && gs.any fun g => g / 64 = p.2

/-- A load has ended (R369, R376). -/
def Work.afterLoad (w : Work) (d : Disp) : Work :=
  let status := d.loadStatus (w.sched.dies d)
  if status = 0 then (w.put { d with st := .running, wasSaved := false }).act (.start { d with st := .running })
  else if status = 5 then w.requeue d Cause.hbmUe none
  else (w.act (.event 0x3001 d)).kill d Cause.protection (some (1 + 16 * status))

/-- One dispatch goes on as far as one of its conditions holds. -/
def Work.settle1 (w : Work) (d : Disp) : Work :=
  let c := w.sched
  match d.st with
  | .placed | .loading => if c.all d (d.loaded.map Prod.fst) then w.afterLoad d else w
  | .running => if c.all d (d.ended.map Prod.fst) then w.put { d with st := .draining } else w
  | .gating =>
    if !c.all d (d.ended.map Prod.fst) then w
    else if d.ended.all fun e => e.2 || c.lost.contains e.1 then w.put { d with st := .draining } else w.put { d with st := .saved }
  | .saved =>
    if d.granules.isEmpty then (if (c.ctx d.dom).held then w else w.enter d)
    else if c.all d d.savedDies then
      let keep := !d.entry.rst
      (w.put { d.released with wasSaved := keep, share := if keep then d.share else [], recs := if keep then d.recs else [] }).act (.reset d)
    else w
  | .draining => if c.all d d.committedDies then (w.put { d with st := .committed }).act (.retire d) else w
  | .committed => if c.all d d.resetDies then w.put { d.released with st := .retired } else w
  | .killed => if !d.granules.isEmpty && c.all d d.resetDies then w.put d.released else w
  | .requeued =>
    if !c.all d d.resetDies then w
    else if d.was = .placed || d.was = .loading then w.enter d
    else (w.act (.record 2 d.was.code d.cause 0 d)).enter d
  | .waiting =>
    let ps := c.preds d
    match ps.find? fun p => p.st = .killed with
    | some p => w.kill d p.cause
    | none => if (ps.all Disp.done) && decide ((c.ctx d.dom).phase = d.phase) then w.enter d else w
  | .ready =>
    if d.entry.cls = 3 && c.spansSplit (d.entry.fixed.getD []) then w.kill d Cause.linkDown
    else match d.hist with
      | none => w
      | some counts =>
        if counts.all (· = 0) then w.put { d with st := .retired }
        else if (apportion counts d.entry.g).isNone then w.kill d Cause.protection (some 5)
        else w
  | .retired => w

/-- One pass over the dispatches. -/
def Work.pass (w : Work) : Work :=
  (w.sched.disps.map fun d => (d.dom, d.disp)).foldl (fun w k => match w.sched.find k.1 k.2 with | some d => w.settle1 d | none => w) w

def Work.passes (w : Work) : Nat → Work
  | 0 => w
  | n + 1 => w.pass.passes n

/-- All that follows from what has been applied. -/
def Work.settle (w : Work) : Work := w.passes (w.sched.disps.length + 4)

/-! ## Placement (R365, R373, R374) -/

/-- 2^`%age_dispatch` cycles. -/
def Sched.ageLimit (c : Sched) : Nat := 2 ^ c.ageDispatch

/-- The granules that a dispatch may be placed on: S of R374, rising. -/
def Sched.openTo (c : Sched) (e : DispEntry) : List Nat :=
  let taken := c.disps.flatMap Disp.granules
  (List.range 512).filter fun g =>
    let die := g / 64
    !c.lost.contains die && e.dmask.testBit die && !taken.contains g &&
      !((e.cls = 0 || e.cls = 4) && c.splits.any fun p => decide (Nat.max p.1 p.2 = die))

/-- The G lowest granules on the lowest unit of n granules that holds at least G. -/
def lowestUnit (s : List Nat) (n g : Nat) : Option (List Nat) :=
  (firstBelow (512 / n) fun k => decide (g ≤ (s.filter fun x => x / n = k).length)).map fun k => (s.filter fun x => x / n = k).take g

def pickOf (e : DispEntry) (s : List Nat) : Option (List Nat) :=
  match e.cls with
  | 1 => lowestUnit s 64 e.g
  | 2 => lowestUnit s 4 e.g
  | 3 => if (e.fixed.getD []).all s.contains then some (sortNat (e.fixed.getD [])) else none
  | _ => if e.g ≤ s.length then some (s.take e.g) else none

/-- The n lowest free counters of a range; none if there are fewer. -/
def freeCounters (taken : List Nat) (base total n : Nat) : Option (List Nat) :=
  let free := (List.range total).filter fun b => !taken.contains (base + b)
  if n ≤ free.length then some ((free.take n).map (base + ·)) else none

/-- Barrier counters for a pick (R365). -/
def Sched.countersFor (c : Sched) (e : DispEntry) (pick : List Nat) : Option (List Nat × List Nat) :=
  let dies := (pick.map (· / 64)).eraseDups
  let taken := c.disps.flatMap Disp.dieCtrs
  let ds := dies.map fun d => freeCounters taken (32 * d) 32 e.ndb
  match freeCounters (c.disps.flatMap Disp.pkgCtrs) 0 64 e.npb with
  | none => none
  | some ps => if ds.any Option.isNone then none else some (ds.flatMap fun x => x.getD [], ps)

/-- A die of a pick holds entries of eight other domains: the entry waits (spec/14 R407). -/
def Sched.dieFull (c : Sched) (dom : Nat) (pick : List Nat) : Bool :=
  (List.range 8).any fun die => (pick.any fun g => g / 64 = die) &&
    let doms := ((c.disps.filter fun d => d.granules.any fun g => g / 64 = die).map Disp.dom).eraseDups
    !doms.contains dom && decide (8 ≤ doms.length)

/-- The hub holds package counters of eight other domains: an entry that needs one waits (spec/14 R407). -/
def Sched.hubFull (c : Sched) (dom : Nat) (e : DispEntry) : Bool :=
  let doms := ((c.disps.filter fun d => !d.pkgCtrs.isEmpty).map Disp.dom).eraseDups
  decide (0 < e.npb) && !doms.contains dom && decide (8 ≤ doms.length)

/-- A record of a resumed dispatch: it stays where it was re-dispatched to, but on a recovery granule, which the new region has not (log
entry 106). -/
def WheelRec.rejoin (r dealt : WheelRec) (g : Nat) : WheelRec := if r.granule < g then r else { r with granule := dealt.granule }

/-- A dispatch that placement looks at. -/
def Sched.candidate (c : Sched) (d : Disp) : Bool := decide (d.st = .ready) && !(c.ctx d.dom).held && (!d.entry.wheel || d.hist.isSome)

/-- Tries one dispatch; the first that stays is blocked. -/
def Work.tryPlace (w : Work) (blocked : Option Disp) (d : Disp) : Option Disp × Work :=
  let skip := match blocked with | none => false | some b => !(d.entry.backfill && decide (512 * b.blocked < w.sched.ageLimit))
  if !w.sched.candidate d || skip then (blocked, w)
  else
    match pickOf d.entry (w.sched.openTo d.entry) with
    | none => (blocked.or (some d), w)
    | some pick =>
      match if w.sched.dieFull d.dom pick || w.sched.hubFull d.dom d.entry then none else w.sched.countersFor d.entry pick with
      | none => (blocked.or (some d), w)
      | some (ds, ps) =>
        let counts := d.hist.getD []
        let share := if d.entry.wheel then (apportion counts d.entry.g).getD [] else []
        let dealt := if d.entry.wheel then dealWheel counts share else []
        let p := { d with st := .placed, granules := pick, dieCtrs := ds, pkgCtrs := ps, share
                          recs := if d.wasSaved && !d.recs.isEmpty then ((d.recs.zip dealt).map fun x => x.1.rejoin x.2 d.entry.g) else dealt }
        (blocked, (w.put p).act (.place p))

/-- The READY dispatches in scan order. -/
def Sched.scan (c : Sched) : List Disp := [3, 2, 1, 0].flatMap fun l => c.disps.filter fun d => decide (d.st = .ready) && decide (d.level = l)

/-- Placement, run after every notice. -/
def Work.place (w : Work) : Work :=
  match w.sched.scan.foldl (fun (a : Option Disp × Work) d => a.2.tryPlace a.1 d) (none, w) with
  | (b, w) => { w with sched := { w.sched with blocked := b.map fun d => (d.dom, d.disp) } }

/-! ## Launches (spec/15 R421) -/

/-- The header of a packet is refused. -/
def Packet.bad (p : Packet) : Bool :=
  p.lver ≠ 1 || p.ndisp = 0 || p.reserved || (p.rtv && (p.rtphi = 0 || p.rtlen = 0 || decide (256 < p.rtlen)))

/-- An entry is refused, apart from a FIXED list that cannot be read. -/
def DispEntry.refused (e : DispEntry) (dom index : Nat) (es : List DispEntry) : Bool :=
  e.bad || e.g = 0 || decide (512 < e.g) || (e.preds.any fun p => decide (index ≤ p) || decide (e.phi < ((es[p]?).getD {}).phi)) ||
    decide (32 < e.ndb) || decide (64 < e.npb) || e.img % 32 ≠ 0 || e.tbase % 32 ≠ 0 ||
    (e.cls = 4 && (e.tsrc ≠ 2 || decide (256 < e.tcnt))) || (e.cls = 3 && dom ≠ 0) || (e.cls = 2 && decide (4 < e.g)) ||
    (e.cls = 3 && ((e.fixed.getD []).any (fun g => decide (511 < g)) || !distinct (e.fixed.getD []))) ||
    (e.tsrc ≠ 0 && e.cls ≠ 4 && (e.tcores = 0 || decide (4 * e.g < e.tcores)))

/-- Enters one dispatch, KILLED at LAUNCH or WAITING. Its number comes round again every 65,536 launches; the final dispatch that had it
leaves the schedule. -/
def Work.enterEntry (w : Work) (dom launch : Nat) (p : Packet) (phase index : Nat) (e : DispEntry) : Work :=
  let d : Disp := { dom, disp := launch % 65536 * 65536 + index, entry := e, fab := p.fab, phase := phase + e.phi }
  let w : Work := { w with sched := { w.sched with disps := w.sched.disps.filter fun x => !(x.is dom d.disp && x.st.final) } }
  let killed (cause detail : Nat) : Work :=
    let k := { d with st := .killed, cause, reason := some detail }
    ({ w with sched := { w.sched with disps := w.sched.disps ++ [k] } } : Work).act (.record 1 15 cause detail k)
  if e.refused dom index p.entries then killed Cause.protection (1 + 256 * index)
  else if e.fixed.isNone then killed (readCause e.noKey).1 ((readCause e.noKey).2 + 256 * index)
  else { w with sched := { w.sched with disps := w.sched.disps ++ [d] } }

/-- The dispatcher holds an entry for the dispatch: until it has ended and its region is given up. -/
def Disp.inTable (d : Disp) : Bool := !(d.st.final && d.granules.isEmpty)

/-- The dispatcher holds entries of eight domains, and this is none of them (spec/14 R407). -/
def Sched.ninth (c : Sched) (dom : Nat) : Bool :=
  let doms := ((c.disps.filter Disp.inTable).map Disp.dom).eraseDups
  !doms.contains dom && decide (8 ≤ doms.length)

/-- A launch's dispatches enter. -/
def Work.enterLaunch (w : Work) (dom : Nat) (p : Packet) : Work :=
  let c := w.sched.ctx dom
  let updates := if p.rtv then c.updates ++ [(c.phase + p.rtphi, p.rtaddr, p.rtlen)] else c.updates
  let w := w.setCtx dom { c with launches := c.launches + 1, updates }
  ((List.range p.entries.length).zip p.entries).foldl (fun w x => w.enterEntry dom c.launches p c.phase x.1 x.2) w

/-- A LAUNCH notice (R421, R495, spec/14 R410). A launch of a ninth domain waits until a domain has no entry left (spec/14 R407), and its
domain's later ones behind it. -/
def Work.launch (w : Work) (dom : Nat) (p : Packet) : Work :=
  let c := w.sched.ctx dom
  let none_ := 0xFFFF * 256
  if c.terminated then (if c.silent then w else w.act (.rejected dom Cause.protection (9 + none_)))
  else if p.unreadable then w.act (.rejected dom (readCause p.noKey).1 ((readCause p.noKey).2 + none_))
  else if p.bad then w.act (.rejected dom Cause.protection (1 + none_))
  else if w.sched.ninth dom || (w.sched.late.any fun x => x.1 = dom) then { w with sched := { w.sched with late := w.sched.late ++ [(dom, p)] } }
  else w.enterLaunch dom p

/-- The launches that wait and may enter now do, oldest first. -/
def Work.admits (w : Work) : Nat → Work
  | 0 => w
  | n + 1 =>
    match w.sched.late.findIdx? fun x => !w.sched.ninth x.1 with
    | none => w
    | some k =>
      let x := (w.sched.late[k]?).getD (0, {})
      (({ w with sched := { w.sched with late := w.sched.late.take k ++ w.sched.late.drop (k + 1) } } : Work).enterLaunch x.1 x.2).settle.admits n

def Work.letIn (w : Work) : Work := w.admits w.sched.late.length

/-- A context begins anew: its CREATE has its place among the notices (R370). -/
def Work.create (w : Work) (dom : Nat) : Work :=
  { w with sched := { w.sched with
      disps := w.sched.disps.filter (fun d => d.dom ≠ dom), ctxs := w.sched.ctxs.put dom {} {}, late := w.sched.late.filter fun x => x.1 ≠ dom } }

/-! ## Ticks, holds (R373, R378, R383, R387) -/

/-- A READY dispatch has stayed one TICK longer. -/
def Work.age1 (w : Work) (d : Disp) : Work :=
  let d := { d with ticks := d.ticks + 1 }
  if d.level < 3 && decide (w.sched.ageLimit ≤ 512 * d.ticks) then (w.toTail { d with level := d.level + 1, ticks := 0 }).act (.event 0x3003 d)
  else w.put d

def Work.tick (w : Work) : Work :=
  let w := match w.sched.blocked.bind fun k => w.sched.find k.1 k.2 with
    | some d => w.put { d with blocked := d.blocked + 1 }
    | none => w
  w.sched.scan.foldl (fun w d => match w.sched.find d.dom d.disp with | some d => w.age1 d | none => w) w

/-- PREEMPT: the first one of a domain that is not held. -/
def Work.preempt (w : Work) (dom : Nat) : Work :=
  let c := w.sched.ctx dom
  if c.held then w
  else
    (w.sched.disps.filter fun d => d.dom = dom).foldl (fun w d =>
      if d.inLoad then (w.act (.reset d)).enter d
      else if d.st = .running then (w.put { d with st := .gating }).act (.gate { d with st := .gating })
      else w) (w.setCtx dom { c with held := true })

def Work.resume (w : Work) (dom : Nat) : Work := w.setCtx dom { w.sched.ctx dom with held := false }

/-! ## Reports of dies -/

/-- Changes a dispatch if it is in the schedule. -/
def Work.change (w : Work) (dom disp : Nat) (f : Disp → Work) : Work :=
  match w.sched.find dom disp with | some d => f d | none => w

/-- LOADED: of a placed dispatch, or of a recovery granule (spec/15 R440). -/
def Work.loaded (w : Work) (die dom disp status : Nat) : Work :=
  w.change dom disp fun d =>
    if d.inLoad then w.put { d with loaded := d.loaded ++ [(die, status)] }
    else if d.entry.wheel && (decide (d.st = .running) || decide (d.st = .gating)) then
      if status = 0 then w.act (.start d) else w.afterLoad { d with loaded := [(die, status)] }
    else w

def Work.ended (w : Work) (die dom disp : Nat) (atEnd : Bool) (seen : Nat) : Work :=
  w.change dom disp fun d =>
    if (decide (d.st = .running) || decide (d.st = .gating)) && decide (d.redealt ≤ seen) then w.put { d with ended := d.ended ++ [(die, atEnd)] } else w

def Work.saved (w : Work) (die dom disp : Nat) : Work :=
  w.change dom disp fun d => if d.st = .saved then w.put { d with savedDies := d.savedDies ++ [die] } else w

def Work.committed (w : Work) (die dom disp : Nat) (seen : Nat) : Work :=
  w.change dom disp fun d =>
    if decide (d.st = .draining) && decide (d.redealt ≤ seen) then w.put { d with committedDies := d.committedDies ++ [die] } else w

def Work.partReset (w : Work) (die dom disp : Nat) : Work :=
  w.change dom disp fun d =>
    if d.st = .killed || d.st = .requeued || d.st = .committed then w.put { d with resetDies := d.resetDies ++ [die] } else w

/-- ERROR (R376, R379, spec/14 R409, R408, spec/15 R425, R495). -/
def Work.error (w : Work) (die dom disp cause detail : Nat) (kind : ErrorKind) : Work :=
  w.change dom disp fun d =>
    -- a direct part that is being saved can still meet an error (spec/14 R409)
    let live := decide (d.st = .running) || decide (d.st = .gating) || (decide (d.st = .saved) && !d.granules.isEmpty)
    let reason := if detail = 0 then none else some detail
    match kind with
    | .tag => w.kill d cause reason
    | .launchData => if live || d.inLoad then w.kill d cause reason else w
    | .pattern => if live then (w.kill d cause).terminate dom cause 0 (some die) else w
    | .plain =>
      if !live then w
      else if cause = Cause.stageOverflow || cause = Cause.deadlock then w.kill d cause
      else if d.entry.rst then w.requeue d cause (some die)
      else (w.kill d cause).terminate dom cause 0 (some die)

/-- WATCHDOG: while some dispatch of the domain is GATING. In domain 0 those alone are killed (spec/14 R410). -/
def Work.watchdog (w : Work) (die dom : Nat) : Work :=
  let gating := w.sched.disps.filter fun d => decide (d.dom = dom) && decide (d.st = .gating)
  if gating.isEmpty then w
  else if dom = 0 then gating.foldl (fun w d => w.kill d Cause.watchdog) w
  else w.terminate dom Cause.watchdog 0 (some die)

/-- HIST (spec/15 R431). -/
def Work.hist (w : Work) (dom disp : Nat) (counts : List Nat) (cause : Nat) : Work :=
  w.change dom disp fun d =>
    if decide (d.st ≠ .ready) || d.hist.isSome then w
    else if cause ≠ 0 then w.kill d (cause % 256) (if cause < 256 then none else some (cause / 256))
    else w.put { d with hist := some counts }

/-! ## Phases (spec/15 R423, R437) -/

/-- The updates due at the boundary that enters phase n. They take effect in launch order: one that names an earlier boundary than an
update launched before it waits for that one. -/
def CtxSched.due (c : CtxSched) (n : Nat) : List (Nat × Nat × Nat) := c.updates.takeWhile fun u => decide (u.1 ≤ n)

/-- The version not in force is held by a dispatch (R437, R438). -/
def Sched.otherHeld (c : Sched) (dom : Nat) : Bool :=
  c.disps.any fun d => decide (d.dom = dom) && d.entry.wheel && !d.st.final && decide (d.st ≠ .waiting) && (d.version != (c.ctx dom).repver)

/-- The update that takes effect at the boundary that enters phase n. -/
def Sched.update (c : Sched) (dom n : Nat) : Option (Nat × Nat × Nat) := if c.otherHeld dom then none else ((c.ctx dom).due n).getLast?

/-- A replica table from its entries; entries beyond are 0xFFFF, which a table does not list. -/
def replicaTable (es : List (BitVec 16)) : Map (BitVec 16) :=
  ((List.range es.length).zip es).foldl (fun m x => m.put x.1 x.2 0xFFFF) {}

/-- PHASE: the boundary that ends phase n. -/
def Work.phase (w : Work) (dom n : Nat) (table : Option (List (BitVec 16))) (noKey : Bool) : Work :=
  let c := w.sched.ctx dom
  if c.phase ≠ n then w
  else
    let due := w.sched.update dom (n + 1)
    let c1 := { c with phase := n + 1, updates := if due.isSome then c.updates.drop (c.due (n + 1)).length else c.updates }
    let w := w.act (.drop dom)
    match due, table with
    | some _, some es =>
      let t := replicaTable es
      w.setCtx dom (if c.repver then { c1 with repver := false, table0 := t } else { c1 with repver := true, table1 := t })
    | some _, none => (w.setCtx dom c1).act (.rejected dom (readCause noKey).1 (readCause noKey).2)
    | none, _ => w.setCtx dom c1

/-- Phase n of a context has ended (R423): a killed dispatch of it has been reset, so that nothing of it performs any more (R424). -/
def Sched.phaseEnded (c : Sched) (dom n : Nat) : Bool :=
  let ds := c.disps.filter fun d => d.dom = dom
  (ds.all fun d => decide (d.phase ≠ n) || (d.st.final && d.granules.isEmpty)) && ds.any fun d => decide (n < d.phase)

/-- Contexts whose phase ends with this notice join those whose phase has ended. -/
def Sched.noteEnds (c : Sched) : Sched :=
  let now := (sortNat (c.disps.map Disp.dom).eraseDups).filterMap fun d => if c.phaseEnded d (c.ctx d).phase then some (d, (c.ctx d).phase) else none
  { c with ends := c.ends.filter (now.contains ·) ++ now.filter fun x => !c.ends.contains x }

/-! ## Losses (R390, spec/15 R439 to R441) -/

/-- Where re-dispatched records go: the expert whose granules they are, their places, and a granule to add. -/
structure Target where
  expert : Nat
  places : List Nat
  recovery : Option Nat := none

/-- The live places of an expert's sub-region. -/
def Sched.livePlaces (c : Sched) (d : Disp) (e : Nat) : List Nat :=
  (List.range (sumNat d.share)).filter fun k => decide (expertIn d.share 0 k = e) && !c.lost.contains (((d.granules[k]?).getD 0) / 64)

/-- Recovery places of an expert that live. -/
def Sched.recoveryPlaces (c : Sched) (d : Disp) (e : Nat) : List Nat :=
  (List.range d.granules.length).filter fun k =>
    decide (sumNat d.share ≤ k) && decide (d.expertAt k = e) && !c.lost.contains (((d.granules[k]?).getD 0) / 64)

/-- The target of an expert's records (R440). -/
def Sched.target (c : Sched) (d : Disp) (e : Nat) : Option Target :=
  let x := c.ctx d.dom
  let r := ((if d.version then x.table1 else x.table0).find e 0xFFFF).toNat
  let own := c.livePlaces d e ++ c.recoveryPlaces d e
  if r ≠ 0xFFFF && !(c.livePlaces d r).isEmpty then some { expert := r, places := c.livePlaces d r }
  else if !own.isEmpty then some { expert := e, places := own }
  -- a recovery granule may lie on any live die in `DMASK`, split or not
  else match c.openTo { d.entry with cls := 1 } with
    | g :: _ => some { expert := e, places := [d.granules.length], recovery := some g }
    | [] => none

/-- Re-dispatching one record: the dispatch, the records moved, the places added, and how many each target has taken. -/
structure Redeal where
  d : Disp
  moved : List WheelRec := []
  added : List Nat := []
  dealt : Map Nat := {}

/-- Records that stand in the table of a place. -/
def Disp.held (d : Disp) (place : Nat) : Nat := (d.recs.filter fun r => decide (r.granule = place) && decide (r.status ≠ 2)).length

def Disp.setRec (d : Disp) (r r' : WheelRec) : Disp := { d with recs := d.recs.map fun x => if x = r then r' else x }

/-- Re-dispatches one record of a lost granule (R440). `rooms`: scratchpad bytes by granule. -/
def Sched.redeal1 (c : Sched) (rooms : List (Nat × Nat)) (a : Redeal) (r : WheelRec) : Redeal :=
  let dropped := { a with d := a.d.setRec r { r with status := 2 } }
  if r.status ≠ 0 then dropped
  else match ({ c with disps := a.d :: c.disps.filter fun x => !x.is a.d.dom a.d.disp } : Sched).target a.d r.expert with
    | none => dropped
    | some t =>
      let n := a.dealt.find t.expert 0
      let place := (t.places[n % t.places.length]?).getD 0
      let d := match t.recovery with | some g => { a.d with granules := a.d.granules ++ [g] } | none => a.d
      -- a recovery granule holds the image of the granule that is lost
      let model := if t.recovery.isSome || decide (sumNat d.share ≤ place) then r.granule else place
      let room := ((rooms.find? fun x => x.1 = (d.granules[model]?).getD 512).map Prod.snd).getD (2 ^ 19)
      if room < d.entry.tbase + 32 * (d.held place + 1) then dropped
      else
        let r' := { r with granule := place, status := 1 }
        { d := d.setRec r r', moved := a.moved ++ [r'], added := a.added ++ (if t.recovery.isSome then [place] else [])
          dealt := a.dealt.put t.expert (n + 1) 0 }

/-- A dispatch with parts on both dies of a split pair (R441). -/
def Work.parted (w : Work) (d : Disp) : Work :=
  if d.st.final || d.st = .requeued || d.st = .committed then w
  else if d.entry.rst then w.requeue d Cause.linkDown none
  else w.kill d Cause.linkDown

/-- A WHEEL dispatch loses a die (R440). One that waits to be resumed gets its granules anew, and takes no recovery granule (log entry 106); one
that a recovery granule would put on both dies of a split pair is parted (R441). `at_`: the notices applied once the loss is. While it commits, every part commits again: the
status vector may have changed, and the die that writes it may be the one that is lost (R434). -/
def Work.redeal (w : Work) (d : Disp) (die : Nat) (rooms : List (Nat × Nat)) (at_ : Nat) : Work :=
  let hit := d.recs.filter fun r => decide (((d.granules[r.granule]?).getD 0) / 64 = die) && decide (r.status ≠ 2)
  let a := hit.foldl (w.sched.redeal1 rooms) { d := d }
  if a.moved.isEmpty then
    if d.st = .draining then let d' := { a.d with committedDies := [], redealt := at_ }; (w.put d').act (.recommit d') else w.put a.d
  else if d.st = .saved then w.put { a.d with granules := d.granules }
  else if !a.added.isEmpty && w.sched.spansSplit (w.sched.liveGranules a.d) then w.parted d
  else
    let d' := { a.d with ended := [], committedDies := [], redealt := at_, st := if d.st = .draining then .running else d.st }
    let w := w.put d'
    let w := if a.added.isEmpty then w else w.act (.recover d' a.added)
    w.act (.redeal d' a.moved)

/-- What becomes of a dispatch with a part on a lost die (R439). -/
def Work.loseDie (w : Work) (die : Nat) (rooms : List (Nat × Nat)) (at_ : Nat) (d : Disp) : Work :=
  if d.st.final || d.st = .requeued || d.st = .committed || !(d.granules.any fun g => g / 64 = die) then w
  else if d.entry.wheel then w.redeal d die rooms at_
  else
    let w' := if d.entry.rst then w.requeue d Cause.dieLost none else w.kill d Cause.dieLost
    let k : Disp := { d with was := d.st, cause := Cause.dieLost }
    -- of a dispatch that had to drain no die is left to post its KILLED records (spec/14 R417)
    if !((w.sched.dies d).isEmpty && d.drains && (w'.sched.find d.dom d.disp).elim false fun x => decide (x.st = .killed)) then w'
    else if !d.entry.rst && (decide (d.st = .running) || decide (d.st = .gating)) then w'.act (.groups k)
    else w'.act (.record 1 d.st.code Cause.dieLost 0 k)

/-- The loss of a die. -/
def Work.dieLoss (w : Work) (die : Nat) (rooms : List (Nat × Nat)) (at_ : Nat) : Work :=
  if w.sched.lost.contains die then w
  else
    let w := ({ w with sched := { w.sched with lost := w.sched.lost ++ [die] } } : Work).act (.silence die)
    (w.sched.disps.map fun d => (d.dom, d.disp)).foldl (fun w k => w.change k.1 k.2 (w.loseDie die rooms at_)) w

/-- A die-edge link is down (R441). -/
def Work.split (w : Work) (a b : Nat) : Work :=
  let p := (Nat.min a b, Nat.max a b)
  if w.sched.splits.contains p then w
  else
    let w : Work := { w with sched := { w.sched with splits := w.sched.splits ++ [p] } }
    (w.sched.disps.map fun d => (d.dom, d.disp)).foldl (fun w k => w.change k.1 k.2 fun d =>
      if w.sched.spansSplit (w.sched.liveGranules d) then w.parted d else w) w

end Sys2Proof.Machine
end

