-- ==== Sys2Proof/Machine/Deal.lean ====
section
/-! DEFINITION. Placement on a die and dispatch start: region tags, parts, pools, counters, and the work-tile records that the
dispatcher deals (spec/01 R29, spec/08 R247, spec/09 R261, R266, spec/13 R365, R375, R380 to R382, spec/15 R431, R433, R434, R440). -/
namespace Sys2Proof.Machine

/-- A failure that kills a dispatch at dealing: cause and `DETAIL`. -/
abbrev LaunchFail := Nat × Nat

/-- A read of launch data (spec/15 R495, spec/14 R405). -/
def State.readData (s : State) (dom addr n : Nat) : (Nat ⊕ LaunchFail) × State :=
  match s.memRead dom dom addr n with
  | (.inl bs, s) => (.inl (natOfBytes bs), s)
  | (.inr f, s) => (.inr f.cause, s)

/-- A die posts the failure of a dispatch's launch data. -/
def State.postLaunchFail (s : State) (p : Part) (f : LaunchFail) : State := s.post (.error p.die p.dom p.disp f.1 f.2 .launchData)

/-! ## Placement on a die (spec/09 R266, spec/15 R434) -/

/-- Writes the region tag of a core. In a WHEEL dispatch each granule is a region of four cores (spec/15 R433). -/
def State.tagCore (s : State) (d : Disp) (c core : Nat) : State :=
  s.setInfo core { s.info core with
    dom := some d.dom, disp := d.disp, rcore := if d.entry.wheel then c % 4 else c % 256, block := if d.entry.wheel then 0 else c / 256
    granules := d.entry.g }

def State.tagPart (s : State) (d : Disp) (p : Part) : State := p.numbered.foldl (fun s c => s.tagCore d c.1 c.2) s

/-- The places of a region on a die. -/
def Disp.placesOn (d : Disp) (die : Nat) : List (Nat × Nat) :=
  ((List.range d.granules.length).zip d.granules).filter fun g => g.2 / 64 = die

/-- The expert image table (spec/15 R434): entries from e on. -/
def State.readImages (s : State) (dom xaddr e : Nat) : Nat → (List (Nat × Nat) ⊕ LaunchFail) × State
  | 0 => (.inl [], s)
  | n + 1 =>
    match s.readData dom (xaddr + 16 + 16 * e) 16 with
    | (.inr f, s) => (.inr f, s)
    | (.inl v, s) =>
      match s.readImages dom xaddr (e + 1) n with
      | (.inl is, s) => (.inl ((fieldNat 0 64 v, fieldNat 64 32 v) :: is), s)
      | (.inr f, s) => (.inr f, s)

/-- Keeps the table of a dispatch. -/
def State.setTable (s : State) (t : WheelTable) : State :=
  { s with die := { s.die with tables := t :: s.die.tables.filter fun x => !(decide (x.dom = t.dom) && decide (x.disp = t.disp)) } }

/-- Reads the image table and `STATV` into a part. -/
def State.readTable (s : State) (d : Disp) (p : Part) : State :=
  match s.readData p.dom d.entry.xaddr 16 with
  | (.inr f, s) => s.postLaunchFail p f
  | (.inl v, s) =>
    match s.readImages p.dom d.entry.xaddr 0 d.entry.tcnt with
    | (.inr f, s) => s.postLaunchFail p f
    | (.inl images, s) => s.setTable { dom := p.dom, disp := p.disp, images, statv := fieldNat 0 64 v } |>.setPart { p with images, statv := fieldNat 0 64 v }

/-- A dispatch is placed: the die's part and its tags. -/
def State.placePart (s : State) (die : Nat) (d : Disp) : State :=
  let gs := d.placesOn die
  if gs.isEmpty then s
  else
    let p : Part := { die, dom := d.dom, disp := d.disp, granules := gs }
    let s := (s.addPart p).tagPart d p
    if d.entry.wheel then s.readTable d p else s

/-- A die joins a WHEEL dispatch after its placement, when the table has been read (spec/15 R434, R440). -/
def State.joinPart (s : State) (die : Nat) (d : Disp) : State :=
  let t := (s.die.tables.find? fun x => decide (x.dom = d.dom) && decide (x.disp = d.disp)).getD default
  let p : Part := { die, dom := d.dom, disp := d.disp, granules := d.placesOn die, images := t.images, statv := t.statv }
  (s.addPart p).tagPart d p

/-- Recovery granules join the part of their die, or make one (spec/15 R440). -/
def State.recoverPart (s : State) (die : Nat) (d : Disp) (places : List Nat) : State :=
  let gs := (d.placesOn die).filter fun g => places.contains g.1
  if gs.isEmpty then s
  else match s.partOf die d.dom d.disp with
    | none => s.joinPart die d
    | some p =>
      let fresh := gs.map fun g => (g.2 / 4, d.imageOf g.1)
      let p := { p with granules := p.granules ++ gs, loads := p.loads.filter fun l => !fresh.contains (l.1, l.2.1), ended := false, sweeps := 0 }
      (s.setPart p).tagPart d { p with granules := gs }

/-! ## Barrier counters (spec/09 R261, R365) -/

/-- Valid task slots of some cores. -/
def State.taskSlots (s : State) (cores : List Nat) : Nat :=
  sumNat (cores.map fun core => ((s.unit.tasks.range (128 * core) 128).filter fun t => t.2.valid).length)

/-- A counter as dispatch start sets it. -/
def freshCounter (d : Disp) (memb tasks : Nat) : Barrier := 
  { memb := if memb = 0 then tasks else memb, dom := d.dom, disp := d.disp, phase := d.phase }

/-- Sets the counters of cores, granules, die and package; the latter two at the first start of a part on the die, or in the package. -/
def State.setCounters (s : State) (d : Disp) (p : Part) (gs : List Nat) : State :=
  let all := d.granules.flatMap coresOfGranule
  let s := (gs.flatMap coresOfGranule).foldl (fun s core =>
    foldUp 8 s fun s b => s.setBarrier (8 * core + b) (freshCounter d d.entry.mcore (s.taskSlots [core]))) s
  let s := gs.foldl (fun s g =>
    foldUp 4 s fun s b => s.setBarrier (100000 + 4 * g + b) (freshCounter d d.entry.mclu (s.taskSlots (all.filter fun c => c / 16 = g / 4)))) s
  let s := if p.started.isEmpty then (d.dieCtrs.filter fun k => k / 32 = p.die).foldl (fun s k =>
    s.setBarrier (200000 + k) (freshCounter d d.entry.mdie (s.taskSlots (all.filter fun c => dieOfCore c = p.die)))) s else s
  if s.die.parts.any fun q => decide (q.dom = p.dom) && decide (q.disp = p.disp) && !q.started.isEmpty then s
  else d.pkgCtrs.foldl (fun s k => s.setBarrier (300000 + k) (freshCounter d d.entry.mpkg (s.taskSlots all))) s

/-! ## Work-tile records (R380 to R382) -/

/-- An expert header (R382). -/
structure ExpHeader where
  expert : Nat
  count : Nat
  addr : Nat
  reserved : Bool

def ExpHeader.ofBits (v : Nat) : ExpHeader := { expert := fieldNat 112 16 v, count := fieldNat 64 32 v, addr := fieldNat 0 64 v, reserved := fieldNat 96 16 v ≠ 0 }

/-- A record of a ragged source passes its checks: it has its header's `EXPERT`, its position, and the rows that the count leaves. -/
def ragOk (w expert count pos : Nat) : Bool :=
  let n := recordsOf count
  decide (fieldNat 240 16 w = expert) && decide (fieldNat 224 16 w = pos) &&
    if pos + 1 = n then decide (fieldNat 218 6 w = count - 32 * (n - 1)) && decide (fieldNat 216 1 w = 1)
    else decide (fieldNat 218 6 w = 32) && decide (fieldNat 216 1 w = 0)

/-- The records at positions k, k + 1, … of an array, each passing a check, else PROTECTION reason 2. -/
def State.readRecs (s : State) (dom addr : Nat) (ok : Nat → Nat → Bool) (k : Nat) : Nat → (List Nat ⊕ LaunchFail) × State
  | 0 => (.inl [], s)
  | n + 1 =>
    match s.readData dom (addr + 32 * k) 32 with
    | (.inr f, s) => (.inr f, s)
    | (.inl w, s) =>
      if !ok k w then (.inr (Cause.protection, 2), s)
      else match s.readRecs dom addr ok (k + 1) n with
        | (.inl ws, s) => (.inl (w :: ws), s)
        | (.inr f, s) => (.inr f, s)

/-- The records of a ragged source, from header e on. -/
def State.readRagged (s : State) (dom addr e : Nat) : Nat → (List Nat ⊕ LaunchFail) × State
  | 0 => (.inl [], s)
  | n + 1 =>
    match s.readData dom (addr + 16 * e) 16 with
    | (.inr f, s) => (.inr f, s)
    | (.inl v, s) =>
      let h := ExpHeader.ofBits v
      if h.reserved then (.inr (Cause.protection, 2), s)
      else match s.readRecs dom h.addr (fun k w => ragOk w h.expert h.count k) 0 (recordsOf h.count) with
        | (.inr f, s) => (.inr f, s)
        | (.inl ws, s) =>
          match s.readRagged dom addr (e + 1) n with
          | (.inl xs, s) => (.inl (ws ++ xs), s)
          | (.inr f, s) => (.inr f, s)

/-- The sequence of a table source. -/
def State.readSource (s : State) (dom : Nat) (e : DispEntry) : (List Nat ⊕ LaunchFail) × State :=
  match e.tsrc with
  | 1 => s.readRecs dom e.taddr (fun _ _ => true) 0 e.tcnt
  | 2 => s.readRagged dom e.taddr 0 e.tcnt
  | _ => (.inl [], s)

/-- Writes records into a core's table from index k on, and its cursor 0 (R381); PROTECTION reason 4 past the end of its scratchpad. -/
def State.writeTable (s : State) (core tbase k : Nat) (ws : List Nat) : Option LaunchFail × State :=
  let i := s.info core
  if i.spaceSize false < tbase + 32 * (k + ws.length) then (some (Cause.protection, 4), s)
  else
    let s := (s.bankServed core dispatcherRequester (i.spaceBase false + tbase + 32 * k) (32 * ws.length)).poolStore core (i.spaceBase false + tbase + 32 * k) (ws.flatMap (bytesOfNat 32))
    (none, s.setCursor core 0 { s.cursor core 0 with base := tbase, count := k + ws.length })

/-- Record i goes to core i mod C, at index floor(i/C) (R381). -/
def dealtTo (c cores : Nat) (ws : List Nat) : List Nat :=
  (((List.range ws.length).zip ws).filter fun x => x.1 % cores = c).map Prod.snd

/-- Deals a sequence to the cores of a part. -/
def State.dealCores (s : State) (tbase cores : Nat) (ws : List Nat) : List (Nat × Nat) → Option LaunchFail × State
  | [] => (none, s)
  | c :: cs =>
    if cores ≤ c.1 then s.dealCores tbase cores ws cs
    else match s.writeTable c.2 tbase 0 (dealtTo c.1 cores ws) with
      | (some f, s) => (some f, s)
      | (none, s) => s.dealCores tbase cores ws cs

/-! ## The records of a WHEEL dispatch (spec/15 R431, R433) -/

/-- Reads one record of a WHEEL dispatch as its header stands now. -/
def State.readWheel (s : State) (d : Disp) (r : WheelRec) : (Nat ⊕ LaunchFail) × State :=
  match s.readData d.dom (d.entry.taddr + 16 * r.expert) 16 with
  | (.inr f, s) => (.inr f, s)
  | (.inl v, s) =>
    let h := ExpHeader.ofBits v
    if h.reserved then (.inr (Cause.protection, 2), s)
    else match s.readData d.dom (h.addr + 32 * r.pos) 32 with
      | (.inr f, s) => (.inr f, s)
      | (.inl w, s) =>
        if ragOk w h.expert (((d.hist.getD [])[r.expert]?).getD 0) r.pos && decide (fieldNat 217 1 w = if d.version then 1 else 0)
        then (.inl w, s) else (.inr (Cause.protection, 2), s)

def State.readWheels (s : State) (d : Disp) : List WheelRec → (List Nat ⊕ LaunchFail) × State
  | [] => (.inl [], s)
  | r :: rs =>
    match s.readWheel d r with
    | (.inr f, s) => (.inr f, s)
    | (.inl w, s) =>
      match s.readWheels d rs with
      | (.inl ws, s) => (.inl (w :: ws), s)
      | (.inr f, s) => (.inr f, s)

/-- Appends records to the tables of some granules of a die, each with its place. -/
def State.dealGranules (s : State) (d : Disp) (recs : List WheelRec) : List (Nat × Nat) → Option LaunchFail × State
  | [] => (none, s)
  | g :: gs =>
    let mine := recs.filter fun r => r.granule = g.1
    if mine.isEmpty then s.dealGranules d recs gs
    else
      let core := (coresOfGranule g.2).headD 0
      match s.readWheels d mine with
      | (.inr f, s) => (some f, s)
      | (.inl ws, s) =>
        match s.writeTable core d.entry.tbase (s.cursor core 0).count ws with
        | (some f, s) => (some f, s)
        | (none, s) => s.dealGranules d recs gs

/-- Step 3 of dispatch start for some granules of a part. -/
def State.dealPart (s : State) (d : Disp) (p : Part) (gs : List (Nat × Nat)) : Option LaunchFail × State :=
  if d.entry.wheel then
    s.dealGranules d ((d.recs.filter fun r => r.status = 0) ++ d.recs.filter fun r => r.status = 1) gs
  else if d.entry.tsrc = 0 then (none, s)
  else match s.readSource p.dom d.entry with
    | (.inr f, s) => (some f, s)
    | (.inl ws, s) => s.dealCores d.entry.tbase d.entry.tcores ws p.numbered

/-- Records re-dispatched to granules that run already are appended; the part has more to do (spec/15 R440). -/
def State.redealPart (s : State) (die : Nat) (d : Disp) (recs : List WheelRec) : State :=
  match s.partOf die d.dom d.disp with
  | none => s
  | some p =>
    let p := { p with ended := false, sweeps := 0, committed := false }
    match (s.setPart p).dealGranules d recs (p.granules.filter fun g => p.started.contains g.2) with
    | (none, s) => s
    | (some f, s) => s.postLaunchFail p f

/-! ## Steps 1 and 2 of dispatch start (R375) -/

/-- Zeroes the pool of a core. -/
def State.zeroPool (s : State) (core : Nat) : State :=
  { s with core := { s.core with
      pool := s.core.pool.erase (2 ^ 19 * core) (2 ^ 19), poolFaults := s.core.poolFaults.erase (2 ^ 16 * core) (2 ^ 16) } }

/-- Kiln counters, Comet counters and overflow limits of a granule. -/
def State.zeroGranule (s : State) (g : Nat) : State :=
  { s with cluster := { s.cluster with
      kctrs := s.cluster.kctrs.erase (8 * g) 8, limits := s.cluster.limits.erase g 1
      ccs := (coresOfGranule g).foldl (fun m c => m.erase (16 * c) 16) s.cluster.ccs } }

/-- Enables the elements of a core: it has entered RUNNING. -/
def State.enableCore (s : State) (core : Nat) : State := (s.setInfo core { s.info core with enabled := true }).touch core

end Sys2Proof.Machine
end

