-- ==== Sys2Proof/Machine/Saving.lean ====
section
/-! DEFINITION. What leaves a part: the save record of a pre-empted part and its restoration, and the commit of staged lines and of a
WHEEL dispatch's status vector (spec/13 R377, R384 to R387, spec/14 R412, spec/15 R434, R440). -/
namespace Sys2Proof.Machine

/-! ## Held tokens in a record (R385, R386) -/

/-- Where a held token goes back: bits [29:12] of the second half of its entry. The manual gives no field that tells an operator input
from an element input or a Comet port; inside [29:25] an operator input n stands as n, an element input as 8 + n, and a Comet port as 16
with its virtual channel (log entry 41). `c` is the region-relative core. -/
def heldPlace (c elem slot input : Nat) : Nat := packFields [(8, c), (4, elem), (1, slot), (5, input)]

/-- A 64-byte entry. -/
def heldEntry (t : Token) (place : Nat) : List Byte :=
  bytesOfNat 32 t.payload.toNat ++
    bytesOfNat 32 (packFields [(10, t.dom), (1, if t.mark then 1 else 0), (1, if t.poison then 1 else 0), (18, place)])

/-- Position of a core among the cores of a part. -/
def Part.indexOf (p : Part) (core : Nat) : Nat := (p.cores.findIdx? fun c => c = core).getD 0

/-- The first region-relative core of a part. -/
def Part.first (p : Part) : Nat := 4 * ((p.granules.headD (0, 0)).1)

/-- Region-relative number of a core of a part, modulo 256. -/
def Part.number (p : Part) (core : Nat) : Nat := (p.first + p.indexOf core) % 256

/-- The place that the tokens of the request channel of a producer wait for. -/
def State.requestPlace (s : State) (p : Part) (x : Producer) : Nat :=
  match x with
  | .agen _ => 0
  | .node n => heldPlace (p.number (n / 4)) (n % 4) 0 8
  | .comet c k =>
    let r := (s.cometPort c (k - 1)).router
    let vc := (firstBelow 4 fun v => let i := s.islandAt r v
      i.attached && i.comet && decide (i.island = c) && decide (i.port = k - 1)).getD 0
    heldPlace (p.number (r / 16)) (r % 16) 0 (16 + vc)

/-- The held tokens behind one cut MCUT, in channel order, oldest first, each with the input that it waits for. -/
def State.heldBehind (s : State) (p : Part) (r k : Nat) : List (Token × Nat) :=
  let here := heldPlace (p.number (r / 16)) (r % 16) k 0
  match s.sourcePlaces r k with
  | (ps, none) => (ps.flatMap s.tokensAt).map fun t => (t, here)
  | (ps, some x) =>
    ((ps.flatMap s.tokensAt).map fun t => (t, here)) ++ ((s.requestPlaces x).flatMap s.tokensAt).map fun t => (t, s.requestPlace p x)

def State.heldOf (s : State) (p : Part) : List (Token × Nat) := (p.cores.flatMap s.cutsOf).flatMap fun c => s.heldBehind p c.1 c.2

/-- Puts a token back into the input it waited for. -/
def State.restoreHeld (s : State) (core v : Nat) (t : Token) : State :=
  let elem := fieldNat 20 4 v
  let i := fieldNat 25 3 v
  match fieldNat 28 2 v with
  | 0 =>
    let r := 16 * core + elem
    let o := s.opSlot r (fieldNat 24 1 v)
    s.setOpSlot r (fieldNat 24 1 v) { o with ins := o.ins.put i (o.ins.find i [] ++ [t]) [] }
  | 1 =>
    let n := 4 * core + elem
    let d := s.node n
    s.setNode n { d with ins := d.ins.put i (d.ins.find i [] ++ [t]) [] }
  | _ =>
    let i := s.islandAt (16 * core + elem) i
    let c := s.cometPort i.island i.port
    s.setCometPort i.island i.port { c with inq := c.inq ++ [t] }

/-! ## The fields of a core (R386) -/

/-- The position of a generator: the tuple of its next token and whether its sweep is done, for one with a trigger whether it is between
two sweeps. When END is next, i3 is `EXT`3, beyond every index (log entry 41). -/
def Agen.position (g : Agen) : Nat :=
  let tuple (i0 i1 i2 i3 : Nat) : Nat := packFields [(16, i0), (16, i1), (16, i2), (16, i3)]
  if g.ended then 2 ^ 64
  else match g.st with
    | .sweep i0 i1 i2 i3 _ => tuple i0 i1 i2 i3
    | .idle => if g.trig then 2 ^ 64 else if g.swept then tuple 0 0 0 (g.extent 3) else 0

/-- A generator continues from a position. The offset of a trigger that it was sweeping for is not saved: it is a free value. -/
def Agen.resume (g : Agen) (v off : Nat) : Agen :=
  let i3 := fieldNat 48 16 v
  if v.testBit 64 then if g.trig then g else { g with swept := true, ended := true }
  else if v % 2 ^ 64 = 0 && !g.trig then g
  else if g.extent 3 ≤ i3 then { g with swept := true }
  else { g with swept := true, st := .sweep (fieldNat 0 16 v) (fieldNat 16 16 v) (fieldNat 32 16 v) i3 (if g.trig then BitVec.ofNat 64 off else 0) }

def StreamSt.code : StreamSt → Nat
  | .closed => 0 | .opened => 1 | .atEnd => 2 | .poisoned => 3

def StreamSt.ofCode (n : Nat) : StreamSt := match n with | 0 => .closed | 1 => .opened | 2 => .atEnd | _ => .poisoned

/-- `STATE`, `TID`, `BEG`, `LEN`, `POS` and, of a fibre, `TIDV` and `NOVAL`: the manual names the fields and gives no bits for them
(log entry 41). -/
def StreamReg.fields (r : StreamReg) : Nat :=
  packFields [(2, r.st.code), (12, r.tid), (12, r.tidv), (1, if r.noval then 1 else 0), (37, 0), (64, r.beg), (32, r.len), (32, r.pos)]

/-- A register from its fields, with the shapes of its tensors read anew; it refills from `POS` (spec/10 R287). -/
def State.streamOf (s : State) (a : Asker) (v : Nat) (prec : Option Word) (fibre : Bool) : StreamReg × State :=
  let r : StreamReg := { st := .ofCode (fieldNat 0 2 v), tid := fieldNat 2 12 v, tidv := fieldNat 14 12 v, noval := v.testBit 26
                         beg := fieldNat 64 64 v, len := fieldNat 128 32 v, pos := fieldNat 160 32 v, prec }
  if r.st = .closed then ({}, s)
  else match s.descriptor a r.tid with
    | (.inr _, s) => (r, s)
    | (.inl t, s) =>
      let r := { r with shape := t.shape, md := t.md }
      if !fibre || r.noval then (r, s)
      else match s.descriptor a r.tidv with
        | (.inr _, s) => (r, s)
        | (.inl t, s) => ({ r with shapev := t.shape }, s)

/-- Cursor fields (spec/08 R247). -/
def Cursor.bits (c : Cursor) : Nat := packFields [(16, c.next), (16, c.count), (19, c.base)]

/-- Accumulator bytes of a part: of its largest accumulator partition. -/
def State.accOf (s : State) (p : Part) : Nat := p.cores.foldl (fun m c => Nat.max m (s.info c).accBytes) 0

/-- The dispatcher reads the accumulator partitions of cores: their bytes, or the core and word that cannot be read (spec/08 R248, R252). -/
def State.readAccs (s : State) : List Nat → (List (List Byte) ⊕ (Nat × Nat)) × State
  | [] => (.inl [], s)
  | c :: cs =>
    let i := s.info c
    match (s.bankServed c dispatcherRequester (i.spaceBase true) i.accBytes).poolRead c (i.spaceBase true) i.accBytes with
    | (.inr w, s) => (.inr (c, w), s)
    | (.inl bs, s) => match s.readAccs cs with | (.inl bss, s) => (.inl (bs :: bss), s) | (.inr x, s) => (.inr x, s)

/-- The 2,048 + Ab bytes of a core whose accumulator partition holds these bytes. -/
def State.coreImage (s : State) (core ab : Nat) (acc : List Byte) : List Byte :=
  ((List.range 4).flatMap fun k => bytesOfNat 16 (s.agen (4 * core + k)).position) ++
  ((List.range 4).flatMap fun k => bytesOfNat 8 (s.cursor core k).bits) ++
  ((List.range 16).flatMap fun r => bytesOfNat 32 (s.stream core r).fields) ++
  ((List.range 8).flatMap fun r => bytesOfNat 32 (s.stream core (16 + r)).fields ++ bytesOfNat 32 (((s.stream core (16 + r)).prec.getD 0).toNat)) ++
  List.replicate 928 0 ++ acc ++ List.replicate (ab - acc.length) 0

/-- The header of a record. -/
def recordHeader (p : Part) (ab held : Nat) : List Byte :=
  bytesOfNat 64 (packFields [(32, p.disp), (10, p.granules.length), (3, p.die), (3, 0), (16, 1), (32, ab), (32, held)])

/-- The save record of a part, from the bytes of its accumulator partitions. -/
def State.saveRecord (s : State) (p : Part) (accs : List (List Byte)) : List Byte :=
  let ab := s.accOf p
  let held := s.heldOf p
  recordHeader p ab held.length ++ (p.cores.zip accs).flatMap (fun c => s.coreImage c.1 ab c.2) ++ held.flatMap fun h => heldEntry h.1 h.2

/-- Its length. -/
def State.recordLength (s : State) (p : Part) : Nat := 64 + p.cores.length * (2048 + s.accOf p) + 64 * (s.heldOf p).length

/-! ## The directory (R386) -/

/-- A directory entry: `%dispatch`, length (0 marks a free entry), die, offset. -/
structure DirEntry where
  disp : Nat
  len : Nat
  die : Nat
  off : Nat
deriving DecidableEq, Repr, Inhabited

def DirEntry.ofBits (v : Nat) : DirEntry := { disp := fieldNat 0 32 v, len := fieldNat 32 28 v, die := fieldNat 60 3 v, off := fieldNat 64 64 v }
def DirEntry.bits (e : DirEntry) : Nat := packFields [(32, e.disp), (28, e.len), (3, e.die), (1, 0), (64, e.off)]

/-- The 256 entries of a domain's save area; none if the directory cannot be read. -/
def State.directory (s : State) (dom : Nat) : Option (List DirEntry) × State :=
  match s.memRead dom dom (s.ctx dom).savea.toNat 4096 with
  | (.inr _, s) => (none, s)
  | (.inl bs, s) => (some ((List.range 256).map fun k => DirEntry.ofBits (natOfBytes ((bs.drop (16 * k)).take 16))), s)

/-- The lowest offset from 4,096 up at which n bytes fit an area of this size. -/
def fitAt (es : List DirEntry) (size n : Nat) : Option Nat :=
  let used := es.filter fun e => e.len ≠ 0
  let free (o : Nat) : Bool := decide (4096 ≤ o) && decide (o + n ≤ size) && used.all fun e => decide (o + n ≤ e.off) || decide (e.off + e.len ≤ o)
  (sortNat (4096 :: used.map fun e => e.off + e.len)).find? free

def State.writeEntry (s : State) (dom k : Nat) (e : DirEntry) : State :=
  s.memStore dom dom noDisp ((s.ctx dom).savea.toNat + 16 * k) (bytesOfNat 16 e.bits)

/-- The context is killed for want of room; of domain 0 the dispatch alone (spec/14 R410). -/
def State.saveFails (s : State) (q : SaveReq) : State :=
  if q.dom = 0 then s.post (.error q.die q.dom q.disp Cause.protection 3 .tag) else s.post (.kill q.dom Cause.protection 3 (some q.die) false)

/-- `SAVE_AREA_ALLOCATE`. -/
def execSaveAreaAllocate (s : State) : Out :=
  match s.hub.saveReqs with
  | [] => .next s
  | q :: qs =>
    let s := { s with hub := { s.hub with saveReqs := qs } }
    match s.partOf q.die q.dom q.disp with
    | none => .next s
    | some p =>
      match s.directory q.dom with
      | (none, s) => .next (s.saveFails q)
      | (some es, s) =>
        match firstBelow 256 fun k => ((es[k]?).getD default).len = 0, fitAt es (4096 * (s.ctx q.dom).savesz) q.len with
        | some k, some off =>
          .next ((s.writeEntry q.dom k { disp := q.disp, len := q.len, die := q.die, off }).setPart { p with grant := some (k, off) })
        | _, _ => .next (s.saveFails q)

/-- The part's dispatch is in a state, as its die sees it. -/
def State.partIn (s : State) (p : Part) (st : DispSt) : Bool := (s.dispOfPart p).elim false fun d => decide (d.st = st)

/-- Writes the record of a part into its room, and posts SAVED. A pool word that cannot be read fails the save: POOL_UE is posted once, which kills the
dispatch (spec/08 R252, spec/14 R409; log entry 117). -/
def State.writeRecord (s : State) (p : Part) (off : Nat) : State :=
  if p.reported then s else
    match s.readAccs p.cores with
    | (.inr (c, w), s) =>
      (s.setPart { p with reported := true }).postRecord p.die
        (s.record Cause.poolUe { s.coreOrigin 11 c 0 with dom := p.dom, disp := p.disp } (s.poolUeDetail c 0 w))
    | (.inl accs, s) =>
      ((s.memStore p.dom p.dom p.disp ((s.ctx p.dom).savea.toNat + off) (s.saveRecord p accs)).setPart { p with saved := true }).post (.saved p.die p.dom p.disp)

/-- `SAVE_RECORD_WRITE` (R384): a restartable part discards its staged lines; a direct one asks for room and then writes its record. -/
def execSaveRecordWrite (die : Nat) (dom : Nat) (disp : Nat) (s : State) : Out :=
  match s.partOf die dom disp with
  | none => .next s
  | some p =>
    if !s.partIn p .saved || p.saved then .next s
    else if (s.dispOfPart p).elim false fun d => d.entry.rst then
      .next (((s.discardStaged p).setPart { p with saved := true }).post (.saved die dom disp))
    else match p.grant with
      | some (_, off) => .next (s.writeRecord p off)
      | none =>
        if p.asked then .next s
        else
          let s := s.setPart { p with asked := true }
          .next { s with hub := { s.hub with saveReqs := s.hub.saveReqs ++ [{ die, dom, disp, len := s.recordLength p }] } }

/-! ## Restoring (R387) -/

/-- One record found again: where it starts, its first region-relative core, its cores, its accumulator bytes and held tokens. -/
structure Saved where
  addr : Nat
  first : Nat
  cores : Nat
  ab : Nat
  held : Nat

/-- The records of a dispatch, in die order; none if a header cannot be read. -/
def State.savedRecords (s : State) (dom first : Nat) : List DirEntry → Option (List Saved) × State
  | [] => (some [], s)
  | e :: es =>
    let addr := (s.ctx dom).savea.toNat + e.off
    match s.readData dom addr 64 with
    | (.inr _, s) => (none, s)
    | (.inl v, s) =>
      let r : Saved := { addr, first, cores := 4 * fieldNat 32 10 v, ab := fieldNat 64 32 v, held := fieldNat 96 32 v }
      match s.savedRecords dom (first + r.cores) es with
      | (some rs, s) => (some (r :: rs), s)
      | (none, s) => (none, s)

/-- The record of a stream register that was saved POISONED (R286, R287, spec/10 R293): no field of the save record holds it. Its version,
cause, kind, domain and dispatch are as R187 and R293 say; where and when it arose are free values (log entry 41). -/
def State.lostRecord (s : State) (a : Asker) (v : Nat) : Word :=
  let r := s.record Cause.metaUe { kind := 6, die := fieldNat 0 3 v, clu := fieldNat 3 4 v, elem := fieldNat 7 1 v, dom := a.dom, disp := a.disp }
  (r &&& ~~~(BitVec.ofNat 256 ((2 ^ 96 - 1) * 2 ^ 48))) ||| BitVec.ofNat 256 (fieldNat 8 96 v * 2 ^ 48)

/-- Restores the saved fields of a core from its bytes. -/
def State.restoreCore (s : State) (core : Nat) (bs : List Byte) : State :=
  let f (at_ n : Nat) : Nat := natOfBytes ((bs.drop at_).take n)
  let s := foldUp 4 s fun s k => s.setAgen (4 * core + k) ((s.agen (4 * core + k)).resume (f (16 * k) 16) (Config.openValue 42 (s.free + k)))
  let s := { s with free := s.free + 4 }
  let s := foldUp 4 s fun s k => s.setCursor core k { s.cursor core k with next := fieldNat 0 16 (f (64 + 8 * k) 8) }
  let a := s.askerOf core
  let s := foldUp 16 s fun s r =>
    let v := f (96 + 32 * r) 32
    let prec := if fieldNat 0 2 v = 3 then some (s.lostRecord a (Config.openValue 43 s.free)) else none
    match s.streamOf a v prec false with | (x, s) => { s.setStream core r x with free := s.free + 1 }
  let s := foldUp 8 s fun s r =>
    let v := f (608 + 64 * r) 32
    let prec := if fieldNat 0 2 v = 3 then some (BitVec.ofNat 256 (f (640 + 64 * r) 32)) else none
    match s.streamOf a v prec true with | (x, s) => s.setStream core (16 + r) x
  let i := s.info core
  (s.bankServed core dispatcherRequester (i.spaceBase true) i.accBytes).poolStore core (i.spaceBase true) ((bs.drop 2048).take i.accBytes)

/-- Restores those cores of a part that a record holds; a failed read is the answer. -/
def State.restoreCores (s : State) (dom : Nat) (r : Saved) : List (Nat × Nat) → Bool × State
  | [] => (true, s)
  | c :: cs =>
    if c.1 < r.first || decide (r.first + r.cores ≤ c.1) then s.restoreCores dom r cs
    else match s.memRead dom dom (r.addr + 64 + (c.1 - r.first) * (2048 + r.ab)) (2048 + r.ab) with
      | (.inr _, s) => (false, s)
      | (.inl bs, s) => (s.restoreCore c.2 bs).restoreCores dom r cs

/-- Puts back the held tokens of a record that wait in cores of a part. -/
def State.restoreTokens (s : State) (p : Part) (r : Saved) (k : Nat) : Nat → Bool × State
  | 0 => (true, s)
  | n + 1 =>
    match s.readData p.dom (r.addr + 64 + r.cores * (2048 + r.ab) + 64 * k) 64 with
    | (.inr _, s) => (false, s)
    | (.inl v, s) =>
      let w := fieldNat 256 256 v
      let c := r.first + (fieldNat 12 8 w + 256 - r.first % 256) % 256
      let t : Token := { payload := BitVec.ofNat 256 v, dom := fieldNat 0 10 w, mark := w.testBit 10, poison := w.testBit 11 }
      let s := match p.numbered.find? fun x => x.1 = c with | some x => s.restoreHeld x.2 w t | none => s
      s.restoreTokens p r (k + 1) n

def State.restoreAll (s : State) (p : Part) : List Saved → Bool × State
  | [] => (true, s)
  | r :: rs =>
    match s.restoreCores p.dom r p.numbered with
    | (false, s) => (false, s)
    | (true, s) =>
      match s.restoreTokens p r 0 r.held with
      | (false, s) => (false, s)
      | (true, s) => s.restoreAll p rs

/-- The entries of a dispatch, by rising die. -/
def entriesOf (es : List DirEntry) (disp : Nat) : List DirEntry :=
  (List.range 8).flatMap fun die => es.filter fun e => decide (e.len ≠ 0) && decide (e.disp = disp) && decide (e.die = die)

/-- Step 4 of dispatch start: whether it could read the records. -/
def State.restorePart (s : State) (p : Part) : Bool × State :=
  match s.directory p.dom with
  | (none, s) => (false, s)
  | (some es, s) =>
    match s.savedRecords p.dom 0 (entriesOf es p.disp) with
    | (none, s) => (false, s)
    | (some rs, s) => s.restoreAll p rs

/-- Frees the directory entries of a dispatch. -/
def State.freeEntries (s : State) (dom disp : Nat) : State :=
  match s.directory dom with
  | (none, s) => s
  | (some es, s) =>
    (((List.range 256).zip es).filter fun e => decide (e.2.len ≠ 0) && decide (e.2.disp = disp)).foldl
      (fun s e => s.writeEntry dom e.1 { e.2 with len := 0 }) s

/-! ## Commit (R377, spec/14 R412, spec/17 R486) -/

/-- The runs of set bits of a mask, as first byte and length. -/
def maskRuns (m : BitVec 64) : List (Nat × Nat) :=
  let starts := (List.range 64).filter fun k => bitAt k m && (k = 0 || !bitAt (k - 1) m)
  starts.map fun k => (k, (firstBelow (64 - k) fun j => !bitAt (k + j) m).getD (64 - k))

/-- Bytes of a staging line. -/
def StageLine.bytes (l : StageLine) (k n : Nat) : List Byte := (List.range n).map fun j => BitVec.ofNat 8 (bitsOf (8 * (k + j)) 8 l.data)

/-- The Comet that commits a line. -/
def StageLine.asker (l : StageLine) : Asker := { comet := 2 * l.cluster, dom := l.dom, disp := l.disp }

/-- A line to send to another module at commit. -/
def StageLine.out (l : StageLine) (die m start : Nat) (data : List Byte) : ExchOut :=
  { modl := m, dom := l.dom, disp := l.disp, core := 16 * l.cluster, cc := 0, tid := l.tid, coords := l.coords, start, data, raw := false, tag := 0, commit := some die }

/-- Commits one staged line; one for a module that is not reachable counts as performed (spec/17 R492). A line that has failed since it was checked
becomes the poison pattern, and HBM_UE is posted (spec/14 R412; log entry 114). -/
def State.commitLine (s : State) (die : Nat) (l : StageLine) : State :=
  match l.modl with
  | some m =>
    let s := if l.bad.isEmpty then s else s.cometPost l.asker (s.cometRecord l.asker Cause.hbmUe 6 0)
    if !s.reachable m then s
    else if !l.bad.isEmpty || l.pattern then s.sendExch { l.out die m (64 * l.line) (List.replicate 64 0) with pattern := true }
    else (maskRuns l.mask).foldl (fun s r => s.sendExch (l.out die m (64 * l.line + r.1) (l.bytes r.1 r.2))) s
  | none =>
    if !l.bad.isEmpty || l.pattern then
      match s.storePattern l.key l.dom (64 * l.line) 64 with
      | (f, s) => s.postWrite l.dom l.disp (64 * l.line) (f.or (if l.bad.isEmpty then none else some (.ue false)))
    else (maskRuns l.mask).foldl (fun s r =>
      (s.memStore l.key l.dom l.disp (64 * l.line + r.1) (l.bytes r.1 r.2)).updateTiles l.cluster l.key (64 * l.line + r.1) (l.bytes r.1 r.2)) s

/-- The lines of the frame of a line that a raw exchange has written whole, in rising order; none if it has not (spec/10 R300). -/
def StageLine.wholeFrame (l : StageLine) (ls : List StageLine) : List StageLine :=
  let whole (x : StageLine) : Bool := decide (x.mask = BitVec.allOnes 64) && x.bad.isEmpty && !x.pattern
  let mine := ls.filter fun x => decide (x.cluster = l.cluster ∧ x.modl = l.modl ∧ x.tid = l.tid ∧ x.coords = l.coords ∧ x.line / 1024 = l.line / 1024 ∧ x.form = l.form) && whole x
  if l.form.isSome && decide (mine.length = 1024) then
    (List.range 1024).filterMap fun k => mine.find? fun x => decide (x.line % 1024 = k)
  else []

/-- Commits the lines of one whole frame in the form that it had at its source (spec/17 R487). -/
def State.commitFrame (s : State) (die : Nat) (l : StageLine) (frame : List StageLine) : State :=
  let bs := frame.flatMap fun x => x.bytes 0 64
  let form := l.form.getD []
  let first := 65536 * (l.line / 1024)
  match l.modl with
  | some m => if s.reachable m then s.sendExch { l.out die m first bs with raw := true, forms := [form] } else s
  | none => s.writeWhole l.asker { phys := first, len := 65536, key := l.key, cmp := false } bs form

/-- Commits staged lines: whole frames at their last line, other lines one by one. -/
def State.commitLines (s : State) (die : Nat) (ls : List StageLine) : State :=
  ls.foldl (fun s l =>
    let frame := l.wholeFrame ls
    if frame.isEmpty then s.commitLine die l else if l.line % 1024 = 1023 then s.commitFrame die l frame else s) s

/-- Rows of a record, from the count of its expert (R382). -/
def WheelRec.rows (r : WheelRec) (counts : List Nat) : Nat :=
  let c := (counts[r.expert]?).getD 0
  if r.pos + 1 = recordsOf c then c - 32 * r.pos else 32

/-- Writes the status vector and `DROPPED`; one record if a write fails with an uncorrectable error, which draws no response (spec/15 R434). -/
def State.writeStatus (s : State) (p : Part) (d : Disp) : State :=
  let statuses := d.recs.map fun r => BitVec.ofNat 8 r.status
  let dropped := sumNat ((d.recs.filter fun r => r.status = 2).map fun r => r.rows (d.hist.getD []))
  match s.memWrite p.dom p.dom p.statv statuses with
  | (f, s) =>
    match s.memWrite p.dom p.dom (d.entry.xaddr + 8) (bytesOfNat 4 dropped) with
    | (g, s) =>
      let s := (s.postKey p.dom p.disp p.statv f).postKey p.dom p.disp (d.entry.xaddr + 8) g
      if f.elim true MemFail.isKey && g.elim true MemFail.isKey then s
      else s.queueTrap p.dom (s.trapOf p.die 0 (s.record Cause.hbmUe { kind := 11, die := p.die, dom := p.dom, disp := p.disp }) 0)

/-- Exchange lines of a part's commit that have not been acknowledged. -/
def State.commitOut (s : State) (p : Part) : Bool := s.fab.exch.any fun x => decide (x.commit = some p.die) && decide (x.dom = p.dom) && decide (x.disp = p.disp)

/-- `COMMIT_WRITE`: the staged lines are written or sent; once all have performed, COMMITTED is posted. -/
def execCommitWrite (die : Nat) (dom : Nat) (disp : Nat) (s : State) : Out :=
  match s.partOf die dom disp with
  | none => .next s
  | some p =>
    match s.dispOfPart p with
    | none => .next s
    | some d =>
      if d.st ≠ .draining || p.committed then .next s
      else
        let mine := s.cluster.stage.filter fun l => decide (l.dom = dom) && decide (l.disp = disp) && decide (l.cluster / 16 = die)
        let s := (s.commitLines die mine).discardStaged p
        if s.commitOut p then .next s
        else
          let first := ((s.dieOf die).sched.dies d).headD die
          let s := if d.entry.wheel && decide (first = die) then s.writeStatus p d else s
          .next ((s.setPart { p with committed := true }).post (.committed die dom disp (s.dieOf die).applied))

end Sys2Proof.Machine
end

