-- ==== Sys2Proof/Machine/Dispatcher.lean ====
section
/-! DEFINITION. The die dispatchers and the hub's sequencer: what a die does as it applies notices, the sweeps and timers that post
them, kill drains, and the phase boundaries (spec/13 R366, R370 to R391, spec/14 R408 to R417, spec/15 R421 to R441, spec/17 R484). -/
namespace Sys2Proof.Machine

/-! ## Records and events of the dispatcher (R391, spec/14 R416, R417) -/

/-- `OKIND` of the dispatcher's records: its own, or the controllers' of a read that named an EMPTY key slot (spec/14 R405; log entry 66). -/
def dispKind (cause detail : Nat) : Nat := if cause = Cause.protection ∧ detail % 16 = 6 then 9 else 11

/-- A trap record of kinds 1 to 4 and 6. -/
def State.dispTrap (s : State) (die kind cause dom disp dstate detail count : Nat) : Word :=
  BitVec.ofNat 256 (packFields
    [(64, s.cycleOf die), (48, detail), (16, count), (32, s.phaseOf die dom), (32, disp), (8, 0), (3, 0), (4, 0), (4, 0), (4, 0), (3, die),
     (4, dispKind cause detail), (10, dom), (4, dstate), (4, kind), (8, cause), (8, 1)])

/-- The pre-emption watchdog limit of a domain (spec/04 R153). -/
def State.wdogLimit (s : State) (dom : Nat) : Nat := let v := (s.ctx dom).wdog; if v = 0 then 2 ^ s.hub.wdogDflt.toNat else v

/-! ## Dispatch start (R375) -/

/-- Whether every live part of a dispatch has started. -/
def State.allStarted (s : State) (die : Nat) (d : Disp) : Bool :=
  ((s.dieOf die).sched.dies d).all fun n => (s.partOf n d.dom d.disp).elim false fun p => p.granules.all fun g => p.started.contains g.2

/-- Dispatch start of those granules of a part that have not started. -/
def State.startPart (s : State) (die : Nat) (d : Disp) : State :=
  match s.partOf die d.dom d.disp with
  | none => s
  | some p =>
    let gs := p.granules.filter fun g => !p.started.contains g.2
    if gs.isEmpty || !(p.jobs d).isEmpty then s
    else
      let ns := gs.map Prod.snd
      let cores := ns.flatMap coresOfGranule
      let s := cores.foldl State.zeroPool s
      let s := ns.foldl State.zeroGranule (s.setCounters d p ns)
      let s := if p.started.isEmpty then s.zeroStats p else s
      let p' := { p with started := p.started ++ ns }
      match s.dealPart d p gs with
      | (some f, s) => (s.setPart p').postLaunchFail p f
      | (none, s) =>
        let r : Bool × State := if d.wasSaved && !d.entry.rst then s.restorePart p else (true, s)
        if !r.1 then (r.2.setPart p').postLaunchFail p (Cause.hbmUe, 0)
        else
          let s := cores.foldl State.enableCore (r.2.setPart p')
          if d.wasSaved && !d.entry.rst && s.allStarted die d then s.freeEntries d.dom d.disp else s

/-! ## Step 1 of a kill (spec/14 R410, spec/09 R265) -/

/-- Every MCUT and address generator of a core enters CUT; parked accesses, commands not yet translated are discarded. -/
def State.cutCore (s : State) (core : Nat) : State :=
  let s := foldUp 32 s fun s k => s.setOpSlot (16 * core + k / 2) (k % 2) (s.opSlot (16 * core + k / 2) (k % 2)).cut
  let s := foldUp 4 s fun s k => let g := s.agen (4 * core + k); if g.valid then s.setAgen (4 * core + k) { g with gate := 2 } else s
  let s := s.setCmdq core ((s.cmdq core).filter Cmd.translated)
  let cm := cometOfCore core
  (foldUp 24 s fun s r => s.unpark cm (16 + 24 * (core % 8) + r)).unpark cm (208 + core % 8)

/-- A port discards the tokens that wait at it. -/
def State.emptyPort (s : State) (comet p : Nat) : State := s.setCometPort comet p { s.cometPort comet p with inq := [] }

/-- A graph port discards its parked access with the requests and tokens queued behind it, those at the data port of a write group too (spec/10 R281). -/
def State.cutPort (s : State) (comet p : Nat) : State :=
  let c := s.cometPort comet p
  if c.parked.isNone then s
  else
    let s := (s.setCometPort comet p { c with parked := none, reqs := c.reqs.filter fun q => q.done.isSome }).emptyPort comet p
    if s.groupOf comet p = .write then s.emptyPort comet (p + 1) else s

def State.cutPorts (s : State) (g : Nat) : State := (graphPorts g).2.foldl (State.cutPort · (graphPorts g).1) s

/-- Discards the tokens of a held buffer (R385). -/
def State.discardAt (s : State) (h : HeldAt) : State :=
  match h with
  | .opIn r k => let o := s.opSlot r k; s.setOpSlot r k { o with ins := o.ins.put 0 [] [] }
  | .link r d v => s.setLink r d v []
  | .nodeRd n => let d := s.node n
    s.setNode n { d with outs := d.outs.put 0 none none, queue := d.queue.filter fun q => !(decide (q.src = .ld) && q.done.isSome) }
  | .nodeLd n => let d := s.node n; s.setNode n { d with ins := d.ins.put 0 [] [] }
  | .agen g => s.setAgen g { s.agen g with out := none }
  | .cometData c p =>
    (s.setCometPort c p { s.cometPort c p with outq := [] }).setCometPort c (p - 1)
      { s.cometPort c (p - 1) with reqs := (s.cometPort c (p - 1)).reqs.filter fun q => q.done.isNone }
  | .cometReq c p => s.setCometPort c p { s.cometPort c p with inq := [] }

/-- Breaks a counter of the dispatch that has an open generation. -/
def State.breakOpen (s : State) (k dom disp : Nat) : State :=
  let b := s.barrier k
  if decide (b.dom = dom) && decide (b.disp = disp) && decide (0 < b.exp) && !b.brk then (s.takeTurn k 0).breakCounter k else s

/-- Keys of the counters that a part may own. -/
def Part.counters (p : Part) : List Nat :=
  (p.cores.flatMap fun c => (List.range 8).map (8 * c + ·)) ++ (p.grans.flatMap fun g => (List.range 4).map (100000 + 4 * g + ·)) ++
    (List.range 32).map (200000 + 32 * p.die + ·) ++ (List.range 64).map (300000 + ·)

/-- Step 1 discards a request of a core: a command not yet translated, a parked fetch, a Kiln record or fill, a request of a parked graph
port. -/
def State.losesRequests (s : State) (p : Part) (core : Nat) : Bool :=
  let cm := cometOfCore core
  let mine (dom disp pe : Nat) : Bool := decide (dom = p.dom) && decide (disp = p.disp) && decide (coreOfPe pe = core)
  (s.cmdq core).any (fun c => !c.translated) || ((List.range 24).any fun r => s.isParked cm (16 + 24 * (core % 8) + r)) ||
    ((s.krecs (core / 16)).any fun r => mine r.dom r.disp r.pe) ||
    (s.cluster.kilns.cells.any fun k => k.2.elim false fun t => mine t.rec_.dom t.rec_.disp t.rec_.pe) ||
    (s.cluster.slots.cells.any fun k => decide (k.2.st = .filling) && decide (k.2.core = core)) ||
    p.grans.any fun g => (graphPorts g).2.any fun k =>
      let c := s.cometPort (graphPorts g).1 k
      c.parked.isSome && decide (c.router / 16 = core) && c.reqs.any fun q => q.done.isNone

/-- Step 1 on one die. -/
def State.cutPart (s : State) (die dom disp : Nat) : State :=
  match s.partOf die dom disp with
  | none => s
  | some p =>
    let held := s.heldPlaces p.cores
    let unmade := p.cores.filter (s.losesRequests p)
    let s := p.cores.foldl State.cutCore (held.foldl State.discardAt s)
    let s := p.grans.foldl State.cutPorts s
    let s := p.counters.foldl (fun s k => s.breakOpen k dom disp) s
    (s.dropKilns p.clusters dom disp).setPart { p with killedAt := some s.now, sweeps := 0, unmade }

/-! ## What a die does -/

/-- A reset that waits for no drain: of an abandoned load, a saved or a committed part. -/
def State.resetPart (s : State) (die dom disp : Nat) : State := match s.partOf die dom disp with | some p => s.resetRegion p | none => s

/-- The die commits its part again. -/
def State.recommit (s : State) (die : Nat) (d : Disp) : State :=
  match s.partOf die d.dom d.disp with | some p => s.setPart { p with committed := false } | none => s

/-- A lost die falls silent: its parts are gone and its stacks are lost (spec/15 R439). -/
def State.silence (s : State) (die : Nat) : State :=
  if s.mem.lostStacks.contains die then s
  else
    let s := (s.die.parts.filter fun p => p.die = die).foldl State.resetRegion s
    { s with mem := { s.mem with lostStacks := die :: s.mem.lostStacks } }

/-- Drops the descriptor and tile-cache lines of a context on a die (spec/10 R277, R284). -/
def State.dropCaches (s : State) (die dom : Nat) : State :=
  { s with cluster := { s.cluster with
      xlat := s.cluster.xlat.filter fun x => !(decide (x.dom = dom) && decide (x.comet / 32 = die))
      tiles := s.cluster.tiles.filter fun t => !(decide (t.key = dom) && decide (t.cluster / 16 = die)) } }

/-- What a die does for its part of a dispatch and for its records; a GATE takes the watchdog limit that stands when the die applies PREEMPT (log
entry 123). -/
def State.doAct (s : State) (die : Nat) (a : SchedAct) : State :=
  let c := (s.dieOf die).sched
  let once (f : State → State) : State := if die = c.lowest then f s else s
  match a with
  | .place d => s.placePart die d
  | .recover d ps => s.recoverPart die d ps
  | .redeal d rs => s.redealPart die d rs
  | .start d => s.startPart die d
  | .gate d =>
    match s.partOf die d.dom d.disp with
    | some p => s.setPart { p with gatedAt := some s.now, limit := s.wdogLimit d.dom }
    | none => s
  | .reset d => s.resetPart die d.dom d.disp
  | .retire d => if (s.partOf die d.dom d.disp).isSome then (s.resetPart die d.dom d.disp).post (.reset die d.dom d.disp) else s
  | .recommit d => s.recommit die d
  | .cut d => s.cutPart die d.dom d.disp
  | .record kind dstate cause detail d => once fun s =>
    let shown := if dstate = DispSt.placed.code then (s.shownState { d with st := .placed }).code else dstate
    s.queueTrap d.dom (s.dispTrap die kind cause d.dom d.disp shown detail 0)
  | .groups d => once fun s => (List.range ((4 * d.granules.length + 47) / 48)).foldl (fun s k =>
      s.queueTrap d.dom (s.dispTrap die 1 d.cause d.dom d.disp d.was.code 0 k)) s
  | .rejected dom cause detail => once fun s => s.queueTrap dom (s.dispTrap die 4 cause dom noDisp 15 detail 0)
  | .terminated dom cause detail by_ =>
    let s := if (s.ctx dom).cst = 1 then s.setCst dom 2 else s
    let s := (s.dropImages dom).dropCaches die dom
    let poster := match by_ with | some d => if c.lost.contains d then c.lowest else d | none => c.lowest
    if die = poster then
      let s := s.queueTrap dom (s.dispTrap die 3 cause dom noDisp 15 detail 0)
      if by_.isSome then s.queueTrap 0 (s.dispTrap die 6 cause dom noDisp 15 detail 0) else s
    else s
  | .event code d => once fun s => s.dispEvent die code d.disp d.dom (packFields [(12, 0), (3, die)])
  | .drop dom => s.dropCaches die dom
  | .silence n => s.silence n

/-- A die changes its replica as the next notice says, lets follow what follows, runs placement, and acts (R370). -/
def State.applyTo (s : State) (die : Nat) (f : Work → Work) : State :=
  let d := s.dieOf die
  let w := (f { sched := d.sched }).settle.letIn.place
  w.acts.foldl (fun s a => s.doAct die a) (s.setDieOf die { d with sched := w.sched.noteEnds, applied := d.applied + 1 })

/-- The next notice of a die that is not lost. -/
def State.nextNotice (s : State) (die : Nat) : Option Notice := if s.lostDies.contains die then none else s.hub.log[(s.dieOf die).applied]?

/-- Applies the notices at the head that have no row of their own: the reset of a part, a context's new beginning, and DIGEST, which only
the hub reads. -/
def State.catchUp (s : State) (die : Nat) : Nat → State
  | 0 => s
  | fuel + 1 =>
    match s.nextNotice die with
    | some (.reset d dom disp) => (s.applyTo die fun w => w.partReset d dom disp).catchUp die fuel
    | some (.create dom) => (s.applyTo die fun w => w.create dom).catchUp die fuel
    | some (.digest _ _ _) => (s.applyTo die id).catchUp die fuel
    | _ => s

/-- A die applies its next notice, if it is of this kind. -/
def State.applyIf (s : State) (die : Nat) (g : Notice → Option (Work → Work)) : State :=
  let s' := s.catchUp die s.hub.log.length
  match (s'.nextNotice die).bind g with
  | some f => s'.applyTo die f
  | none => s

def execLaunchNoticeApply (die : Nat) (s : State) : Out :=
  .next (s.applyIf die fun n => match n with | .launch dom p _ => some (fun w => w.launch dom p) | _ => none)

/-- The numbers of a dispatch. -/
def Disp.words (d : Disp) : List Nat :=
  [d.dom, d.disp, d.phase, d.st.code, d.level, d.ticks, d.blocked, d.requeues, d.cause] ++
    d.granules ++ d.loaded.flatMap (fun x => [x.1, x.2]) ++ d.ended.map Prod.fst ++ d.savedDies ++ d.committedDies ++ d.resetDies ++ d.dieCtrs ++
    d.pkgCtrs ++ d.share ++ d.hist.getD [] ++ d.recs.flatMap fun r => [r.expert, r.pos, r.granule, r.status]

/-- The replica written as numbers. -/
def Sched.words (c : Sched) : List Nat :=
  c.disps.flatMap Disp.words ++ c.lost ++ c.splits.flatMap (fun p => [p.1, p.2]) ++ [c.ageDispatch] ++ c.late.map Prod.fst ++
    c.ctxs.cells.flatMap fun x => [x.1, x.2.phase, x.2.launches, if x.2.held then 1 else 0, if x.2.terminated then 1 else 0]

/-- `TICK_NOTICE_APPLY`: the die posts its DIGEST after it (R371). -/
def execTickNoticeApply (die : Nat) (s : State) : Out :=
  let s' := s.catchUp die s.hub.log.length
  match s'.nextNotice die with
  | some (.tick n) =>
    let s := s'.applyTo die Work.tick
    .next (s.post (.digest die n (Config.replicaHash (s.dieOf die).sched.words)))
  | _ => .next s

def execLoadedNoticeApply (die : Nat) (s : State) : Out :=
  .next (s.applyIf die fun n => match n with | .loaded d dom disp st => some (fun w => w.loaded d dom disp st) | _ => none)

def execEndedNoticeApply (die : Nat) (s : State) : Out :=
  .next (s.applyIf die fun n => match n with | .ended d dom disp e seen => some (fun w => w.ended d dom disp e seen) | _ => none)

def execSavedNoticeApply (die : Nat) (s : State) : Out :=
  .next (s.applyIf die fun n => match n with | .saved d dom disp => some (fun w => w.saved d dom disp) | _ => none)

def execCommittedNoticeApply (die : Nat) (s : State) : Out :=
  .next (s.applyIf die fun n => match n with | .committed d dom disp seen => some (fun w => w.committed d dom disp seen) | _ => none)

def execErrorNoticeApply (die : Nat) (s : State) : Out :=
  .next (s.applyIf die fun n => match n with | .error d dom disp c x k => some (fun w => w.error d dom disp c x k) | _ => none)

/-- `PREEMPT_NOTICE_APPLY` (R383): the gating requests that the die sends take effect by steps of their own. -/
def execPreemptNoticeApply (die : Nat) (s : State) : Out :=
  .next (s.applyIf die fun n => match n with | .preempt dom => some (fun w => w.preempt dom) | _ => none)

def execResumeNoticeApply (die : Nat) (s : State) : Out :=
  .next (s.applyIf die fun n => match n with | .resume dom => some (fun w => w.resume dom) | _ => none)

/-- A KILL; by a function-level reset, later launches are dropped without a record (spec/16 R455). -/
def Work.killDomain (w : Work) (dom cause detail : Nat) (die : Option Nat) (flr : Bool) : Work :=
  let w := w.terminate dom cause detail die
  if flr && dom ≠ 0 then w.setCtx dom { w.sched.ctx dom with silent := true } else w

def execKillNoticeApply (die : Nat) (s : State) : Out :=
  .next (s.applyIf die fun n => match n with | .kill dom c x d f => some (fun w => w.killDomain dom c x d f) | _ => none)

def execWatchdogNoticeApply (die : Nat) (s : State) : Out :=
  .next (s.applyIf die fun n => match n with | .watchdog d dom => some (fun w => w.watchdog d dom) | _ => none)

def execCsrNoticeApply (die : Nat) (s : State) : Out :=
  .next (s.applyIf die fun n => match n with | .csr v => some (fun w => { w with sched := { w.sched with ageDispatch := v } }) | _ => none)

def execPhaseNoticeApply (die : Nat) (s : State) : Out :=
  .next (s.applyIf die fun n => match n with | .phase dom k t e => some (fun w => w.phase dom k t e) | _ => none)

def execHistNoticeApply (die : Nat) (s : State) : Out :=
  .next (s.applyIf die fun n => match n with | .hist dom disp cs c => some (fun w => w.hist dom disp cs c) | _ => none)

def execDieLossApply (die : Nat) (s : State) : Out :=
  .next (s.applyIf die fun n => match n with
    | .dieLoss x rooms => some (fun w => w.dieLoss x rooms ((s.catchUp die s.hub.log.length).dieOf die |>.applied.succ))
    | _ => none)

def execLinkSplitApply (die : Nat) (s : State) : Out :=
  .next (s.applyIf die fun n => match n with | .linkSplit a b => some (fun w => w.split a b) | _ => none)

/-! ## Sweeps and timers (R366, R384, R388, R389, R390) -/

/-- A staged line of the part has an uncorrectable error (spec/14 R412). -/
def State.stageBad (s : State) (p : Part) : Bool :=
  s.cluster.stage.any fun l => !l.bad.isEmpty && decide (l.dom = p.dom) && decide (l.disp = p.disp) && decide (l.cluster / 16 = p.die)

/-- A quiescent part posts ENDED, or first ERROR for a staged line that cannot be read (spec/10 R285, spec/14 R412). -/
def State.endPart (s : State) (p : Part) : State :=
  if s.stageBad p then
    if p.reported then s.setPart p
    else (s.setPart { p with reported := true }).post (.error p.die p.dom p.disp Cause.poolUe 0 .plain)
  else (s.setPart { p with ended := true }).post (.ended p.die p.dom p.disp (s.sourcesEnded p) (s.dieOf p.die).applied)

/-- One sweep of one part. -/
def State.sweepPart (s : State) (p : Part) : State :=
  let running := s.partIn p .running || s.partIn p .gating
  if p.killedAt.isNone && (!running || p.ended || !(p.granules.all fun g => p.started.contains g.2)) then s
  else if s.partActive p then s.setPart { p with sweeps := 0 }
  else
    let p := { p with sweeps := p.sweeps + 1 }
    if p.sweeps < 2 || p.killedAt.isSome then s.setPart p else s.endPart p

/-- `QUIESCENCE_SWEEP`. -/
def execQuiescenceSweep (die : Nat) (s : State) : Out :=
  let d := s.dieOf die
  if s.now < d.sweptAt + 32 || s.lostDies.contains die then .next s
  else .next ((s.die.parts.filter fun p => p.die = die).foldl State.sweepPart (s.setDieOf die { d with sweptAt := s.now }))

/-- `DIE_HEARTBEAT`. -/
def execDieHeartbeat (die : Nat) (s : State) : Out :=
  let d := s.dieOf die
  if s.now < d.heartbeat + 4096 || s.lostDies.contains die then .next s else .next (s.setDieOf die { d with heartbeat := s.now })

/-- `HEARTBEAT_MISSING`: four are missing. -/
def execHeartbeatMissing (die : Nat) (s : State) : Out :=
  if s.now < (s.dieOf die).heartbeat + 4 * 4096 then .next s else .next (s.postLoss die)

/-- A port of the part is parked. -/
def State.partParked (s : State) (p : Part) : Bool :=
  (p.cores.any fun core => ((List.range 24).any fun r => s.isParked (cometOfCore core) (16 + 24 * (core % 8) + r)) ||
    s.isParked (cometOfCore core) (208 + core % 8)) || p.grans.any fun g => (graphPorts g).2.any fun k => s.isParked (graphPorts g).1 k

/-- Nothing has moved, issued or performed in the part for 2^20 cycles (R389). -/
def State.partStill (s : State) (p : Part) : Bool := p.cores.all fun core => decide (s.act.find core 0 + 2 ^ 20 ≤ s.now)

/-- `DEADLOCK_TIMEOUT`. -/
def execDeadlockTimeout (die : Nat) (dom : Nat) (disp : Nat) (s : State) : Out :=
  match s.partOf die dom disp with
  | none => .next s
  | some p =>
    if (s.partIn p .running || s.partIn p .gating) && !p.reported && s.partActive p && s.partStill p && !s.partParked p then
      .next ((s.setPart { p with reported := true }).post (.error die dom disp Cause.deadlock 0 .plain))
    else .next s

/-- `WATCHDOG_EXPIRY`. -/
def execWatchdogExpiry (die : Nat) (dom : Nat) (s : State) : Out :=
  let late := s.die.parts.any fun p => decide (p.die = die) && decide (p.dom = dom) && s.partIn p .gating &&
    p.gatedAt.elim false fun t => decide (t + p.limit ≤ s.now)
  let posted := (s.hub.log.drop (s.dieOf die).applied).contains (.watchdog die dom)
  if late && !posted then .next (s.post (.watchdog die dom)) else .next s

/-- `HUB_TICK`: every 512 cycles. -/
def execHubTick (s : State) : Out :=
  let ticks := (s.hub.log.filter fun n => match n with | .tick _ => true | _ => false).length
  if ticks < (s.now - (s.dieOf 0).resetAt) / 512 then .next (s.post (.tick (ticks + 1))) else .next s

/-! ## The end of a kill's drain (spec/14 R410, R417) -/

/-- The KILLED records of a direct dispatch that ran: one for each group of 48 cores in which the part has some. -/
def State.groupRecords (s : State) (p : Part) (d : Disp) : List Word :=
  ((p.numbered.map fun c => c.1 / 48).eraseDups).map fun k =>
    let bits := bitmapOf 48 fun i => match p.numbered.find? fun c => c.1 = 48 * k + i with | some c => s.coreRetired c.2 && !p.unmade.contains c.2 | none => false
    s.dispTrap p.die 1 d.cause p.dom p.disp d.was.code bits k

/-- The KILLED records that a die posts. -/
def State.killRecords (s : State) (p : Part) (d : Disp) : List Word :=
  if d.st ≠ .killed || d.was = .requeued then []
  else if d.was = .committed then []
  else if !d.entry.rst && d.reason.isNone && (decide (d.was = .running) || decide (d.was = .gating)) then s.groupRecords p d
  else if ((s.dieOf p.die).sched.dies d).headD p.die = p.die then [s.dispTrap p.die 1 d.cause p.dom p.disp d.was.code (d.reason.getD 0) 0]
  else []

/-- `KILL_DRAIN_END`: at quiescence, or after 4,096 cycles. -/
def execKillDrainEnd (die : Nat) (dom : Nat) (disp : Nat) (s : State) : Out :=
  match s.partOf die dom disp with
  | none => .next s
  | some p =>
    match p.killedAt, s.dispOfPart p with
    | some t, some d =>
      if p.sweeps < 2 && decide (s.now < t + 4096) then .next s
      else
        let rs := s.killRecords p d
        .next ((rs.foldl (fun s r => s.queueTrap dom r) (s.resetRegion p)).post (.reset die dom disp))
    | _, _ => .next s

/-! ## The hub (R372, spec/15 R423, R431, R437, spec/17 R484) -/

/-- The digests of a round, by die. -/
def State.digests (s : State) (n : Nat) : List (Nat × BitVec 64) :=
  s.hub.log.filterMap fun x => match x with | .digest d k v => if k = n then some (d, v) else none | _ => none

/-- The dies that a round declares lost. -/
def dissenters (ds : List (Nat × BitVec 64)) : List Nat :=
  let size (v : BitVec 64) : Nat := (ds.filter fun d => d.2 = v).length
  let best := ds.foldl (fun m d => Nat.max m (size d.2)) 0
  match firstBelow 8 fun die => ds.any fun d => decide (d.1 = die) && decide (size d.2 = best) with
  | none => []
  | some die =>
    let v := ((ds.find? fun d => d.1 = die).map Prod.snd).getD 0
    (sortNat (ds.map Prod.fst)).filter fun x => !(ds.any fun d => decide (d.1 = x) && decide (d.2 = v))

/-- `DIGEST_NOTICE_APPLY`: the hub judges the next round once every live die has sent its digest. -/
def execDigestNoticeApply (s : State) : Out :=
  let n := s.hub.judged + 1
  let live := (List.range 8).filter fun d => !s.lostDies.contains d
  let ds := (s.digests n).filter fun d => live.contains d.1
  if live.all fun d => ds.any fun x => x.1 = d then
    .next ((dissenters ds).foldl (fun s die => (s.dispEvent 8 0x3004 noDisp 0 0).postLoss die)
      { s with hub := { s.hub with judged := n } })
  else .next s

/-- The schedule state as the hub knows it: that of a live die that has applied every notice but digests. -/
def State.hubView (s : State) : Option Sched :=
  (firstBelow 8 fun d => !s.lostDies.contains d &&
    (s.hub.log.drop (s.dieOf d).applied).all fun n => match n with | .digest _ _ _ => true | _ => false).map fun d => (s.dieOf d).sched

/-- A member of the fabric group has not ended phase n. -/
def State.fabWaits (s : State) (dom n : Nat) : Bool := (s.fabOthers dom).any fun m => (s.reached dom m).elim true fun r => decide (r < n)

/-- The replica table of an update; none if it cannot be read, and whether for an EMPTY key slot (spec/15 R437, spec/14 R405). -/
def State.readReplica (s : State) (dom : Nat) (u : Option (Nat × Nat × Nat)) : (Option (List (BitVec 16)) × Bool) × State :=
  match u with
  | none => ((none, false), s)
  | some (_, addr, n) =>
    match s.memRead dom dom addr (2 * n) with
    | (.inl bs, s) => ((some ((halves bs).map (BitVec.ofNat 16)), false), s)
    | (.inr f, s) => ((none, f.isKey), s)

/-- The fabric barrier bodies of a context are cleared at its phase boundaries (spec/17 R485). -/
def State.clearBodies (s : State) (dom : Nat) : State :=
  { s with fab := { s.fab with
      farr := s.fab.farr.filter fun f => f.2.1 ≠ dom
      fexit := s.fab.fexit.filter (fun f => f.2.1 ≠ dom)
      fbreak := s.fab.fbreak.filter fun f => f.1 ≠ dom } }

/-- The end of an exchange step of phase n, unless it waits for the group: PHASE is posted with the table that comes into force. -/
def State.exchangeEnd (s : State) (c : Sched) (dom n : Nat) : State :=
  if (c.disps.any fun d => decide (d.dom = dom) && decide (d.phase = n) && d.fab) && s.fabWaits dom n then s
  else
    match s.readReplica dom (c.update dom (n + 1)) with
    | (t, s) => ({ s with hub := { s.hub with exch := s.hub.exch.filter (· ≠ (dom, n)) } }.clearBodies dom).post (.phase dom n t.1 t.2)

/-- Exchange steps that a link hold has held run in notice order (spec/16 R457). -/
def State.runHeld (s : State) (c : Sched) : State :=
  if !s.hub.released then s
  else (c.ends.filter (s.hub.exch.contains ·)).foldl (fun s x => s.exchangeEnd c x.1 x.2) { s with hub := { s.hub with released := false } }

/-- `EXCHANGE_STEP`: PHASE goes to the group; then, if a launch asks for it, the hub waits for the group; then it posts PHASE. During
a link hold the step of a context of a function is held (spec/16 R456). -/
def execExchangeStep (dom : Nat) (s : State) : Out :=
  match s.hubView with
  | none => .next s
  | some c =>
    if s.hub.released then .next (s.runHeld c) else
    let n := (c.ctx dom).phase
    if !c.phaseEnded dom n then .next s
    else if !s.hub.exch.contains (dom, n) then
      .next ({ s with hub := { s.hub with exch := s.hub.exch ++ [(dom, n)] } }.sendBody (.phase dom n))
    else if s.hub.holdAt.isSome && dom ≠ 0 then .next s
    else .next (s.exchangeEnd c dom n)

/-- The counts of a histogram; a failed read or a reserved bit is the cause for which its dispatch is killed. -/
def State.readHist (s : State) (dom addr e : Nat) : Nat → (List Nat × Nat) × State
  | 0 => (([], 0), s)
  | n + 1 =>
    match s.readData dom (addr + 16 * e) 16 with
    | (.inr f, s) => (([], f.1 + 256 * f.2), s)
    | (.inl v, s) =>
      let h := ExpHeader.ofBits v
      if h.reserved then (([], Cause.protection + 256 * 2), s)
      else match s.readHist dom addr (e + 1) n with
        | ((cs, x), s) => ((h.count :: cs, x), s)

/-- `WHEEL_HISTOGRAM_READ`. -/
def execWheelHistogramRead (dom : Nat) (disp : Nat) (s : State) : Out :=
  match s.hubView.bind fun c => c.find dom disp with
  | none => .next s
  | some d =>
    if d.st = .ready && d.entry.wheel && d.hist.isNone then
      match s.readHist dom d.entry.taddr 0 d.entry.tcnt with
      | ((cs, x), s) => .next (s.post (.hist dom disp cs x))
    else .next s

end Sys2Proof.Machine
end

