-- ==== Sys2Proof/Machine/Containment.lean ====
section
/-! DEFINITION. Trap queues and uncorrectable tags (spec/14 R406 to R408, R414, R415, spec/16 R453, R455, R456, R474). -/
namespace Sys2Proof.Machine

/-! ## Writes to the host (spec/16 R453, R456, R457) -/

/-- An MSI-X message; while the link is lost it is dropped, counted and kept for one more signal. -/
def State.signal (s : State) (f v : Nat) : State :=
  if s.hub.holdAt.isSome then
    let x := s.func f
    ({ s with hub := { s.hub with dropped := s.hub.dropped + 1 } } : State).setFunc f
      { x with msixHeld := if x.msixHeld.contains v then x.msixHeld else x.msixHeld ++ [v] }
  else if s.hub.linkUp then { s with hub := { s.hub with msix := (f, v) :: s.hub.msix } }
  else s

/-! ## The trap queue writer (R414, R415) -/

/-- A ring size is legal: a power of two from 16 to 2^20. -/
def ringSize (n : Nat) : Bool := (firstBelow 17 fun k => decide (n = 2 ^ (k + 4))).isSome

/-- Counts n lost records in a queue's header. -/
def State.countLost (s : State) (dom q lost n : Nat) : State := s.memStore dom dom noDisp (q + 12) (bytesOfNat 4 (Nat.min (lost + n) 0xFFFFFFFF))

/-- Writes a record into a domain's queue, or counts it as lost. A queue that was empty signals its function (spec/16 R453); domain 0 has
none (R445). -/
def State.writeTrap (s : State) (t : Trap) : State :=
  let q := (s.ctx t.dom).trapq.toNat
  if q = 0 then ({ s with free := s.free + 1 }).logEvent 8 0x4004 (Config.openValue 0x4004 s.free) t.dom 0
  else
    match s.memRead t.dom t.dom q 64 with
    | (.inr _, s) => s
    | (.inl bs, s) =>
      let h := natOfBytes bs
      let wr := fieldNat 0 32 h
      let rd := fieldNat 32 32 h
      let size := fieldNat 64 32 h
      if !ringSize size || decide (size ≤ (wr + 2 ^ 32 - rd) % 2 ^ 32) then s.countLost t.dom q (fieldNat 96 32 h) 1
      else
        let s := s.memStore t.dom t.dom noDisp (q + 64 + 32 * (wr % size)) (bytesOfNat 32 t.rec_.toNat)
        let s := s.memStore t.dom t.dom noDisp q (bytesOfNat 4 (wr + 1))
        if wr = rd && t.dom ≠ 0 then s.signal (s.ctx t.dom).func 1 else s

/-- Adds the records of domain 0 that could not be held (spec/16 R474). -/
def State.addHeldLost (s : State) : State :=
  let n := s.hub.heldLost
  let q := (s.ctx 0).trapq.toNat
  if n = 0 || q = 0 then s
  else match s.memRead 0 0 q 64 with
    | (.inl bs, s) => ({ s with hub := { s.hub with heldLost := 0 } } : State).countLost 0 q (fieldNat 96 32 (natOfBytes bs)) n
    | (.inr _, s) => s

/-- `TRAP_QUEUE_WRITE`: the hub's queue writer takes the next record; records that waited for a place first take theirs (R407). -/
def execTrapQueueWrite (s : State) : Out :=
  let s := s.admitTraps
  match s.hub.heldTraps with
  | t :: ts =>
    if (s.keySlot 0).isSome then
      let s := ({ s with hub := { s.hub with heldTraps := ts } } : State).writeTrap t
      .next (if ts.isEmpty then s.addHeldLost else s)
    else match s.hub.traps with
      | [] => .next s
      | t :: ts => .next (takeWhileEmpty s t ts)
  | [] =>
    match s.hub.traps with
    | [] => .next s
    | t :: ts => .next (takeWhileEmpty s t ts)
where
  /-- The next record in arrival order: one of a domain whose slot is EMPTY is held, dropped, or written. -/
  takeWhileEmpty (s : State) (t : Trap) (ts : List Trap) : State :=
    let s : State := { s with hub := { s.hub with traps := ts } }
    if (s.keySlot t.dom).isSome then s.writeTrap t
    else if t.dom = 0 then
      if s.hub.heldTraps.length < 256 then { s with hub := { s.hub with heldTraps := s.hub.heldTraps ++ [t] } }
      else { s with hub := { s.hub with heldLost := s.hub.heldLost + 1 } }
    else match s.resetting t.dom with
      | some f => s.setFunc f { s.func f with lost := (s.func f).lost + 1 }
      | none => s

/-! ## Uncorrectable tags (R406, R408) -/

/-- The die of a structure. -/
def tagDie (code unit : Nat) : Nat :=
  if code ≤ 5 then unit / 256 else if code ≤ 0x0C then unit / 16 else if code = 0x0D then unit / 3 else if code = 0x0E then unit else 0

/-- Cores of a cluster. -/
def clusterCores (cl : Nat) : List Nat := (List.range 16).map (16 * cl + ·)

/-- Domain and dispatch of the region that holds a core. -/
def State.regionOf (s : State) (core : Nat) : List (Nat × Nat) := match (s.info core).dom with | some d => [(d, (s.info core).disp)] | none => []

/-- The tokens that the channel buffers of a core hold: in the slots that a handle counts as filled; a window that its task has not published
holds none yet (spec/03 R97). -/
def State.slotTokens (s : State) (core : Nat) : List Token :=
  (s.unit.handles.range (512 * core) 512).flatMap fun h => (List.range h.2.cnt).map fun k => s.slotOf (h.1 / 32) (h.2.slotAt k)

/-- The tokens in a core: in slots, links, operators, memory nodes, its Glaze island and its generators. -/
def State.coreTokens (s : State) (core : Nat) : List Token :=
  s.slotTokens core ++
  ((s.router.links.range (256 * core) 256).flatMap Prod.snd) ++
  ((s.router.ops.range (32 * core) 32).flatMap fun o => (o.2.ins.cells.flatMap Prod.snd) ++ o.2.outs.cells.filterMap Prod.snd) ++
  ((s.core.nodes.range (4 * core) 4).flatMap fun n =>
    (n.2.ins.cells.flatMap Prod.snd) ++ (n.2.outs.cells.filterMap Prod.snd) ++ n.2.queue.filterMap NodeReq.done) ++
  ((s.core.agens.range (4 * core) 4).flatMap fun g => g.2.trigq ++ g.2.out.toList) ++
  (let g := s.glaze core; g.inq ++ g.pipe.map Prod.fst ++ g.out.toList)

/-- The occupancy list of a core: the region's domain, and every domain of a token in it (spec/09 R268). -/
def State.coreHolders (s : State) (core : Nat) : List (Nat × Nat) :=
  s.regionOf core ++ ((s.coreTokens core).map Token.dom).eraseDups.map fun d => (d, if (s.info core).dom = some d then (s.info core).disp else noDisp)

/-- The occupancy list of a structure, with the dispatches that hold the entries (noDisp where an entry names none). -/
def State.occupants (s : State) (code unit : Nat) : List (Nat × Nat) :=
  match code with
  | 8 =>
    ((s.krecs unit).map fun r => (r.dom, r.disp)) ++ ((s.cluster.slots.range (128 * unit) 128).map fun k => (k.2.dom, k.2.disp)) ++
      ((s.cluster.kilns.range (4 * unit) 4).filterMap fun k => k.2.map fun t => (t.rec_.dom, t.rec_.disp)) ++
      (clusterCores unit).flatMap s.regionOf
  | 9 =>
    ((clusterCores unit).flatMap fun c => (s.cmdq c).map fun x => (x.dom, x.disp)) ++
      (((clusterCores unit).filter fun c => !(s.cluster.streams.range (24 * c) 24).isEmpty).flatMap s.regionOf) ++
      ((s.cluster.ports.range (512 * unit) 512).map fun p => (p.2.dom, p.2.disp))
  | 0x0A =>
    ((s.cluster.stage.filter fun l => l.cluster = unit).map fun l => (l.dom, l.disp)) ++
      (s.cluster.tiles.filter fun l => l.cluster = unit).map fun l => (l.dom, l.disp)
  | 0x0B => (s.cluster.cfgCache.filter fun c => c.cluster = unit).map fun c => (c.dom, noDisp)
  | 0x0C => (s.ctrlQ unit).map fun r => (r.dom, r.id / 2 ^ 32)
  | 0x0D => (s.mem.registered.filter fun w => w.engine = unit).map fun w => (w.dom, w.id / 2 ^ 32)
  | 0x0E =>
    ((s.dieOf unit).sched.disps.filter Disp.inTable).map (fun d => (d.dom, d.disp)) ++
      ((s.sync.counters.range (200000 + 32 * unit) 32).filter fun b => 0 < b.2.memb).map fun b => (b.2.dom, b.2.disp)
  | 0x0F =>
    ((s.hub.traps ++ s.hub.heldTraps).map fun t => (t.dom, bitsOf 160 32 t.rec_)) ++
      ((s.sync.counters.range 300000 64).filter fun b => 0 < b.2.memb).map (fun b => (b.2.dom, b.2.disp)) ++
      (((List.range 12).flatMap fun l => (s.fabLink l).doms).eraseDups.map fun d => (d, noDisp))
  | _ => s.coreHolders unit

/-- An operator slot without the tokens of some domains. -/
def OpSlot.dropDoms (o : OpSlot) (doms : List Nat) : OpSlot :=
  let keepIn (i : Nat × List Token) : Option (Nat × List Token) :=
    match i.2.filter fun x => !doms.contains x.dom with | [] => none | ts => some (i.1, ts)
  let keepOut (t : Nat × Option Token) : Bool := !(t.2.elim false fun x => doms.contains x.dom)
  { o with ins := ⟨o.ins.cells.filterMap keepIn⟩, outs := ⟨o.outs.cells.filter keepOut⟩ }

/-- A Comet port without its tokens and requests. -/
def CometPort.emptied (p : CometPort) : CometPort := { p with inq := [], reqs := [], outq := [], parked := none }

/-- Discards the entries of some domains that a structure holds. -/
def State.discardEntries (s : State) (code unit : Nat) (doms : List Nat) : State :=
  let mine (d : Nat) : Bool := doms.contains d
  let region := (s.regionOf unit).any fun r => mine r.1
  match code with
  | 1 => if region then
      { s with unit := { s.unit with
          tasks := s.unit.tasks.erase (128 * unit) 128, regs := s.unit.regs.erase (1024 * unit) 1024, preds := s.unit.preds.erase (128 * unit) 128 } }
      else s
  | 2 => if region then s.zeroPool unit else s
  | 3 =>
    let s := foldUp 512 s fun s h =>
      let pe := 16 * unit + h / 32
      let x := s.handle pe (h % 32)
      if (List.range x.cnt).any fun k => mine (s.slotOf pe (x.slotAt k)).dom then s.setHandle pe (h % 32) { x with cnt := 0 } else s
    { s with
      unit := { s.unit with slots := Map.drop s.unit.slots fun c => decide (c.1 / 4096 = unit) && mine c.2.dom }
      router := { s.router with
        links := Map.keepLists s.router.links (fun k => decide (k / 256 = unit)) (fun t => !mine t.dom)
        ops := Map.mapAt s.router.ops (fun c => decide (c.1 / 32 = unit)) fun o => o.dropDoms doms } }
  | 4 => if region then
      { s with
        core := { s.core with
          nodes := Map.mapAt s.core.nodes (fun c => decide (c.1 / 4 = unit)) fun n => { n with queue := [] }
          cursors := s.core.cursors.erase (4 * unit) 4 }
        sync := { s.sync with counters := s.sync.counters.erase (8 * unit) 8 } }
      else s
  | 5 => if region then s.setGlaze unit { s.glaze unit with inq := [], pipe := [], out := none } else s
  | 8 =>
    { s with cluster := { s.cluster with
        krecs := Map.keepLists s.cluster.krecs (fun k => decide (k = unit)) fun r => !mine r.dom
        slots := Map.drop s.cluster.slots fun c => decide (c.1 / 128 = unit) && mine c.2.dom
        kilns := Map.drop s.cluster.kilns fun c => decide (c.1 / 4 = unit) && c.2.elim false fun t => mine t.rec_.dom
        kctrs := Map.drop s.cluster.kctrs fun c =>
          decide (c.1 / 32 = unit) && (s.regionOf ((coresOfGranule (c.1 / 8)).headD 0)).any fun r => mine r.1 } }
  | 9 =>
    { s with cluster := { s.cluster with
        cmds := Map.keepLists s.cluster.cmds (fun k => decide (k / 16 = unit)) fun x => !mine x.dom
        streams := Map.drop s.cluster.streams fun c => decide (c.1 / 384 = unit) && mine (s.domOf (c.1 / 24))
        ports := Map.mapAt s.cluster.ports (fun c => decide (c.1 / 512 = unit) && mine c.2.dom) CometPort.emptied } }
  | 0x0A =>
    { s with cluster := { s.cluster with
        stage := s.cluster.stage.filter fun l => !(decide (l.cluster = unit) && mine l.dom)
        tiles := s.cluster.tiles.filter fun l => !(decide (l.cluster = unit) && mine l.dom) } }
  | 0x0B => { s with cluster := { s.cluster with cfgCache := s.cluster.cfgCache.filter fun c => !(decide (c.cluster = unit) && mine c.dom) } }
  | 0x0C => s.setCtrlQ unit ((s.ctrlQ unit).filter fun r => !mine r.dom)
  | 0x0D =>
    let hit (w : ParityWrite) : Bool := decide (w.engine = unit) && mine w.dom
    { s with mem := { s.mem with registered := s.mem.registered.filter fun w => !hit w } }
  | 0x0E =>
    let hit (c : Nat × Barrier) : Bool := decide (200000 + 32 * unit ≤ c.1) && decide (c.1 < 200032 + 32 * unit) && mine c.2.dom
    { s with sync := { s.sync with counters := Map.drop s.sync.counters hit } }
  | 0x0F =>
    let keep (f : SentFrame) : Bool := !(f.dom.elim false mine)
    { s with
      sync := { s.sync with counters := Map.drop s.sync.counters fun c => decide (300000 ≤ c.1) && mine c.2.dom }
      hub := { s.hub with traps := s.hub.traps.filter (fun t => !mine t.dom), heldTraps := s.hub.heldTraps.filter fun t => !mine t.dom }
      fab := { s.fab with
        links := Map.mapAt s.fab.links (fun _ => true) fun l => { l with replay := l.replay.filter keep } } }
  | _ => s

/-- `DETAIL` of R408. -/
def tagDetail (code : Nat) : Nat := code * 2 ^ 40 + 2 ^ 39

/-- A dispatch of domain 0 that may have made an entry which names no dispatch: it holds granules, on the die of the structure or, for one of
the hub, anywhere (log entry 113). -/
def Disp.mayHold (d : Disp) (code die : Nat) : Bool :=
  decide (d.dom = 0) && !d.st.final && d.granules.any fun g => decide (code = 0x0F) || decide (g / 64 = die)

/-- The dispatches of domain 0 that hold entries of a structure. -/
def State.zeroHolders (s : State) (code die : Nat) (holders : List (Nat × Nat)) : List Nat :=
  let zero := (holders.filter fun h => h.1 = 0).map Prod.snd
  (zero.flatMap fun x =>
    if x = noDisp then ((s.dieOf die).sched.disps.filter fun d => d.mayHold code die).map Disp.disp else [x]).eraseDups

/-- One listed domain: a tenant is terminated; of domain 0 the dispatches that hold entries are killed. -/
def State.tagResponse (s : State) (code die : Nat) (holders : List (Nat × Nat)) (dom : Nat) : State :=
  if dom = 0 then
    (s.zeroHolders code die holders).foldl
      (fun s disp => s.post (.error die 0 disp Cause.poolUe (tagDetail code) .tag)) s
  else s.post (.kill dom Cause.poolUe (tagDetail code) (some die) false)

/-- `TAG_UE`: a tag of a structure is uncorrectable. -/
def execTagUe (code : Nat) (unit : Nat) (s : State) : Out :=
  let holders := s.occupants code unit
  let doms := (holders.map Prod.fst).eraseDups
  let die := if code = 0x0F then (firstBelow 8 fun d => !s.lostDies.contains d).getD 0 else tagDie code unit
  let s := doms.foldl (fun s d => s.tagResponse code die holders d) s
  let s := s.discardEntries code unit doms
  .next (({ s with free := s.free + 1 }).logEvent (if code = 0x0F then 8 else die) 0x4003 (Config.openValue 0x4003 s.free) 0
    (if code = 0x0F then 0 else packFields [(12, 0), (3, die)]) true)

end Sys2Proof.Machine
end

