-- ==== Sys2Proof/Machine/System.lean ====
section
/-! DEFINITION. System registers, launches, the black box, the Saggar's instructions, keys, fuses, the debug port and the
watchdog (spec/04 R134 to R138, R144, R146, R148 to R154). -/
namespace Sys2Proof.Machine

/-! ## System registers (R134 to R138) -/

/-- `CSRR` (R137). -/
def execCsrr (w : Fields) (s : State) : Out :=
  runInstr { op := 0xED, perLane := false, d := .dst, a := .csrOnly } w
    (fun i => .done (i.putD i.s (scalarWord (i.word w.a 0).toNat))) s

/-- A value is inside the listed range of a register, its reserved bits zero (R134, R135, R136). -/
def csrRange (n v : Nat) : Bool :=
  let within (lo hi : Nat) : Bool := decide (lo ≤ v) && decide (v ≤ hi)
  match n with
  | 0x0A => decide (v < 256)
  | 0x0B => decide (v < 2 ^ 32)
  | 0x12 => decide (v < 2 ^ 32) && (firstBelow 4 fun k => decide (fieldNat (8 * k) 8 v = 0)).isNone
  | 0x13 => within 1 65535
  | 0x14 => within 1 (2 ^ 24 - 1)
  | 0x15 => within 10 40
  | 0x16 => within 12 31
  | 0x17 => within 1 65535
  | 0x18 => decide (v < 65536)
  | 0x19 => decide (v % 64 = 0)
  | 0x1A => decide (v % 4096 = 0)
  | _ => false

/-- A die has applied the notice at this place of the log (spec/13 R493: a `CSRW` performs when the writing die has). -/
def State.appliedBy (s : State) (die place : Nat) : Bool := decide (place < (s.dieOf die).applied)

/-- Writes the copy of a register that a task sees, but for `%age_dispatch` (R134). -/
def Issue.writeCsr (i : Issue) (n v : Nat) : State :=
  let s := i.s
  let d := s.dieOf i.die
  match n with
  | 0x0A => s.setTask i.pe i.slot { i.task with trapcause := BitVec.ofNat 8 v }
  | 0x0B => s.setTask i.pe i.slot { i.task with trapcnt := BitVec.ofNat 32 v }
  | 0x12 => s.setDieOf i.die { d with nocWrr := BitVec.ofNat 64 v }
  | 0x13 => (s.keepPromoted i.die).setDieOf i.die { d with agePromote := BitVec.ofNat 16 v }
  | 0x14 => s.setMigrateWait i.cluster (BitVec.ofNat 24 v)
  | 0x16 => { s with hub := { s.hub with wdogDflt := BitVec.ofNat 6 v } }
  | 0x17 => { s with hub := { s.hub with linkhold := BitVec.ofNat 16 v } }
  | 0x18 => s.setDieOf i.die { d with evmask := BitVec.ofNat 16 v }
  | 0x19 => s.setCtx i.dom { s.ctx i.dom with trapq := BitVec.ofNat 64 v }
  | 0x1A => s.setCtx i.dom { s.ctx i.dom with savea := BitVec.ofNat 64 v }
  | _ => s

/-- The system register that a descriptor names. -/
def csrNum (b : BitVec 8) : Nat := match opnd b with | .csr n => n | _ => 0

/-- `CSRW` (R137, R138); a write of `%age_dispatch` performs when its CSR notice has been applied (spec/13 R371). -/
def execCsrw (w : Fields) (s : State) : Out :=
  runInstr { op := 0xEE, perLane := false, d := .csrDst, a := .src } w
    (fun i =>
      let n := csrNum w.d
      let v := i.sa
      match i.task.wait with
      | .csrSent place => if i.s.appliedBy i.die place then .done i.s else .hold i.s
      | _ =>
        if !csrRange n v then i.illegal 5
        else if n = 0x15 then
          .hold ((i.s.setTask i.pe i.slot { i.task with wait := .csrSent i.s.hub.log.length }).post (.csr v))
        else .done (i.writeCsr n v)) s

/-! ## Launches, black box, watchdog (R144, R146, R153) -/

/-- `LAUNCH` (R144). -/
def execLaunch (w : Fields) (s : State) : Out :=
  runInstr { op := 0xEB, perLane := false, d := .predOnly, a := .src } w
    (fun i =>
      let q := Issue.predNum w.d
      if i.sa % 128 ≠ 0 then i.illegal 5
      else if i.s.unperformed i.pe i.slot then .hold i.s
      else if 16 ≤ i.s.launchesWaiting i.die i.dom then .done (i.s.setPredOf i.pe q 0)
      else match i.s.readPacket i.dom i.sa with
        | (p, s) => .done ((s.post (.launch i.dom p (some i.die))).setPredOf i.pe q 0xFFFFFFFF)) s

/-- `EVLOG` (R146). -/
def execEvlog (w : Fields) (s : State) : Out :=
  runInstr { op := 0xEF, perLane := false, a := .src } w
    (fun i => .done (i.s.logEvent i.die (i.imm % 2 ^ 16) i.sa i.dom (coreEventOrigin i.core (i.pe % 16)))) s

/-- `WDOG` (R153). -/
def execWdog (w : Fields) (s : State) : Out :=
  runInstr { op := 0xF7, perLane := false, super := true, a := .src, b := .src } w
    (fun i =>
      let dom := i.sa
      let v := i.sb
      if 1024 ≤ dom then i.illegal 5
      else if (1 ≤ v && v ≤ 4095) || decide (2 ^ 32 ≤ v) then i.illegal 6
      else .done (i.s.setCtx dom { i.s.ctx dom with wdog := v })) s

/-! ## The Saggar (R148, R149) -/

/-- The domain of a request that writes a status word. -/
def SagReq.dom : SagReq → Option Nat
  | .mext _ _ _ _ => none
  | .attest _ d _ _ _ => some d
  | .verify _ d _ _ _ _ => some d

/-- A request goes to the Saggar; one of a domain whose reset is in progress is abandoned (spec/16 R455). -/
def State.askSaggar (s : State) (r : SagReq) : State :=
  if (r.dom.bind s.resetting).isSome then s else { s with hub := { s.hub with sag := s.hub.sag ++ [r] } }

/-- `MEXT` (R148). -/
def execMext (w : Fields) (s : State) : Out :=
  runInstr { op := 0xF0, perLane := false, a := .src, prot := fun _ imm => decide (imm % 16 < 8) } w
    (fun i => .done (i.s.askSaggar (.mext i.die i.dom (i.imm % 16) i.wa))) s

/-- Requests of a domain that the Saggar has not finished. -/
def State.sagOutstanding (s : State) (dom : Nat) : Nat :=
  (s.hub.sag.filter fun r => decide (r.dom = some dom)).length

/-- A Saggar request (R149); a block that is not aligned is an illegal A (log entry 122). -/
def Issue.sagRequest (i : Issue) (r : SagReq) : Done :=
  let q := Issue.predNum i.w.d
  if i.sa % 64 ≠ 0 then i.illegal 5
  else if i.s.unperformed i.pe i.slot then .hold i.s
  else if 4 ≤ i.s.sagOutstanding i.dom then .done (i.s.setPredOf i.pe q 0)
  else .done ((i.s.askSaggar r).setPredOf i.pe q 0xFFFFFFFF)

def execAttest (w : Fields) (s : State) : Out :=
  runInstr { op := 0xF1, perLane := false, d := .predOnly, a := .src } w
    (fun i => i.sagRequest (.attest i.die i.dom i.sa i.pe i.slot)) s

/-- `SAGVFY`: its kind is 0 or 1. -/
def specSagvfy : OpSpec :=
  { op := 0xF2, perLane := false, d := .predOnly, a := .src, xok := fun _ _ imm => decide (imm % 16 < 2) }

def execSagvfyUnlock (w : Fields) (s : State) : Out :=
  runInstr specSagvfy w (fun i => i.sagRequest (.verify i.die i.dom i.sa (i.imm % 16) i.pe i.slot)) s

def execSagvfyManifest (w : Fields) (s : State) : Out :=
  runInstr specSagvfy w (fun i => i.sagRequest (.verify i.die i.dom i.sa (i.imm % 16) i.pe i.slot)) s

/-! ## Keys, fuses, the debug port (R150 to R152) -/

/-- `FUSERD` (R150). -/
def execFuserd (w : Fields) (s : State) : Out :=
  runInstr { op := 0xF5, perLane := false, super := true, d := .dst, xok := fun _ _ imm => decide (imm % 64 < 48) } w
    (fun i => .done (i.putD i.s (i.s.fuse (i.imm % 64)))) s

/-- `KEYWIPE` of one slot (R151). -/
def execKeywipe (w : Fields) (s : State) : Out :=
  runInstr { op := 0xF3, perLane := false, super := true, a := .src, mods := fun w => w.mod &&& 0b1110 = 0 } w
    (fun i => if i.sa = 0 || decide (1024 ≤ i.sa) then i.illegal 5 else .done (i.s.loadKey i.sa none)) s

/-- `KEYWIPE.all` (R151, R152). -/
def execKeywipeAll (w : Fields) (s : State) : Out :=
  runInstr { op := 0xF3, perLane := false, super := true, a := .src, mods := fun w => w.mod &&& 0b1110 = 0 } w
    (fun i =>
      if 1024 ≤ i.sa then i.illegal 5
      else .done { i.s with sag := { i.s.sag with keys := {}, lostKeys := [], lostCopies := [], wiped := i.s.sag.token.isSome } }) s

/-- Extends a measurement register with bytes (R148): the register and A enter SM3 with the least significant byte first, and the digest's first byte
becomes bits [7:0] (log entry 121). -/
def State.extend (s : State) (n : Nat) (bs : List Byte) : State :=
  s.setMeasReg n (BitVec.ofNat 256 (natOfBytes (Sm.sm3 (bytesOfNat 32 (s.measReg n).toNat ++ bs))))

/-- `DBGOPEN` (R152, spec/16 R474). -/
def execDbgopen (w : Fields) (s : State) : Out :=
  runInstr { op := 0xF4, perLane := false, super := true, d := .predOnly } w
    (fun i =>
      let q := Issue.predNum w.d
      match i.s.sag.token with
      | none => .done (i.s.setPredOf i.pe q 0)
      | some t =>
        if !i.s.sag.wiped then .done (i.s.setPredOf i.pe q 0) else
          let s := i.s.extend 7 (bytesOfNat 32 t.toNat)
          let s := (({ s with sag := { s.sag with dbgOpen := true } } : State).loadKey 0 s.sag.key0).followDebug
          .done ((s.logEvent 8 0x5008 0 0 0 true).setPredOf i.pe q 0xFFFFFFFF)) s

end Sys2Proof.Machine
end

