-- ==== Sys2Proof/Machine/HostPort.lean ====
section
/-! DEFINITION. The host's side of the PCI Express endpoint: launch register, mailbox, memory window, resets and link loss (spec/16
R445 to R457). -/
namespace Sys2Proof.Machine

/-! ## Functions and their domains (R445) -/

/-- The module has started: it has power, no boot step hangs, and it is not in management-only mode. -/
def State.started (s : State) : Bool := s.sag.power && !s.sag.mgmtOnly && s.sag.hung.isNone

/-- The host reaches the endpoint. -/
def State.hostUp (s : State) : Bool := s.hub.linkUp && s.started

/-- A function owns a domain; domain 0 belongs to none. -/
def State.owns (s : State) (f dom : Nat) : Bool := decide (0 < dom) && decide (dom < 1024) && decide ((s.ctx dom).func = f)

/-- A domain that a function may name in its launch register or its window: ACTIVE and its own, or domain 0 for the PF. -/
def State.mayName (s : State) (f dom : Nat) : Bool := (decide (f = 0) && decide (dom = 0)) || (s.owns f dom && decide ((s.ctx dom).cst = 1))

/-- A reset of the function is in progress (R454). -/
def State.inReset (s : State) (f : Nat) : Bool := (s.func 0).flr.isSome || (s.func f).flr.isSome

/-- An access of a virtual function shows that the host has set VF Enable (log entry 46). -/
def State.seen (s : State) (f : Nat) : State :=
  if f = 0 then s else { s with hub := { s.hub with vfEnable := true, numVfs := Nat.max s.hub.numVfs f } }

/-- An access that the endpoint takes. -/
def State.hostAccess (s : State) (f : Nat) (g : State → State) : Out := if s.hostUp then .next (g (s.seen f)) else .next s

/-! ## The launch register (R448) -/

/-- LAUNCH notices that the hub has posted for a domain and some live die has not applied. -/
def State.hubLaunches (s : State) (dom : Nat) : Nat :=
  let live := (List.range 8).filter fun d => !s.lostDies.contains d
  let applied := live.foldl (fun m d => Nat.min m (s.dieOf d).applied) s.hub.log.length
  ((s.hub.log.drop applied).filter fun n => match n with | .launch d _ none => decide (d = dom) | _ => false).length

/-- Why a write to `LAUNCHR` is dropped, 0 if it is posted; the reason that comes first here decides (log entry 47). -/
def State.launchWhy (s : State) (f v : Nat) : Nat :=
  if s.inReset f || s.hub.holdAt.isSome then 4
  else if fieldNat 62 2 v ≠ 0 || v % 128 ≠ 0 then 3
  else if !s.mayName f (fieldNat 52 10 v) then 1
  else if 16 ≤ s.hubLaunches (fieldNat 52 10 v) then 2
  else 0

/-- A dropped write is counted, and vector 2 says so (R453). -/
def State.dropLaunch (s : State) (f why : Nat) : State :=
  let x := s.func f
  (s.setFunc f { x with drops := if x.drops = 0xFFFFFFFF then x.drops else x.drops + 1, why := BitVec.ofNat 8 why }).signal f 2

/-- Posts LAUNCH with the packet that the hub reads. -/
def State.postLaunch (s : State) (dom addr : Nat) : State := match s.readPacket dom addr with | (p, s) => s.post (.launch dom p none)

/-- `LAUNCHR_WRITE`. -/
def execLaunchrWrite (func : Nat) (value : BitVec 64) (s : State) : Out :=
  let v := value.toNat
  if !s.started then .next s
  else
    let s := s.seen func
    let why := s.launchWhy func v
    .next (if why = 0 then s.postLaunch (fieldNat 52 10 v) (v % 2 ^ 52) else s.dropLaunch func why)

/-- `LSTAT_CLEAR`: the bits written as 1 are cleared. -/
def execLstatClear (func : Nat) (value : BitVec 64) (s : State) : Out :=
  s.hostAccess func fun s =>
    let x := s.func func
    s.setFunc func { x with drops := x.drops &&& ~~~(value.extractLsb' 32 32), why := x.why &&& ~~~(value.extractLsb' 0 8) }

/-! ## The mailbox (R449 to R451) -/

/-- A field of `MBCMD`, by its first byte and its size in bytes. -/
def Func.arg (x : Func) (byte n : Nat) : Nat := bitsOf (8 * byte) (8 * n) x.mbcmd

/-- Completes a command with an error code, 0 for none, and this response; vector 0 says so. -/
def State.mbAnswer (s : State) (f err : Nat) (rsp : BitVec 512) : State :=
  let s := if s.hub.holdAt.isSome then { s with hub := { s.hub with dropped := s.hub.dropped + 1 } } else s
  (s.setFunc f { s.func f with mbst := if err = 0 then 2 else 3, mberr := err, mbrsp := rsp, running := none }).signal f 0

/-- Completes a command whose response no rule states. -/
def State.mbEnd (s : State) (f err : Nat) : State := match s.openVal 0x140 with | (v, s) => s.mbAnswer f err (BitVec.ofNat 512 v)

/-- Completes a command in error, where no rule states the code: a free one. -/
def State.mbFail (s : State) (f : Nat) : State := match s.openVal 0x188 with | (v, s) => s.mbEnd f (1 + v % 255)

/-- A doorbell for the command of this code, with the domain that it names. While a reset is in progress commands are dropped; while one
runs the doorbell is another row's. -/
def State.doorbell (s : State) (f code : Nat) (run : Nat → State → State) : Out :=
  s.hostAccess f fun s =>
    let x := s.func f
    if s.inReset f || x.mbst = 1 || x.arg 0 2 ≠ code then s else run (x.arg 2 2) s

/-- A command that acts on a domain: with error code 0x02 if the function does not own it, or it is domain 0. -/
def State.owned (s : State) (f dom : Nat) (run : State → State) : State := if s.owns f dom then run s else s.mbEnd f 2

/-- The entry that the arguments describe (R450, R451; log entry 48), none if one is outside its range. -/
def Func.entryArgs (x : Func) : Option Ctx :=
  let c : Ctx :=
    { cst := 1, dtbase := BitVec.ofNat 64 (x.arg 8 8), dtcnt := x.arg 16 2, trapq := BitVec.ofNat 64 (x.arg 24 8)
      savea := BitVec.ofNat 64 (x.arg 32 8), savesz := x.arg 40 4 }
  if c.dtcnt ≤ 4096 && c.dtbase.toNat % 64 = 0 && c.trapq.toNat % 64 = 0 && c.savea.toNat % 4096 = 0 then some c else none

/-- The Saggar loads a slot with a fresh key (R403; spec/04 R152). -/
def State.freshKey (s : State) (slot : Nat) : State :=
  let r := Config.random s.free
  let s := s.loadKey slot (some { data := r.setWidth 128, tweak := r.extractLsb' 128 128 })
  { s with sag := { s.sag with wiped := false }, free := s.free + 1 }

/-- A context begins anew: each replica forgets the old one when it applies the notice that says so (spec/13 R370; log entry 39). -/
def State.renewContext (s : State) (dom : Nat) : State :=
  let s := s.post (.create dom)
  { s with
    fab := { s.fab with reached := s.fab.reached.erase (64 * dom) 64 }
    hub := { s.hub with exch := s.hub.exch.filter fun x => x.1 ≠ dom } }

/-- `MB_CREATE`. -/
def execMbCreate (func : Nat) (s : State) : Out :=
  s.doorbell func 1 fun dom s => s.owned func dom fun s =>
    if (s.ctx dom).cst ≠ 0 || (s.sag.token.isSome && !s.sag.dbgOpen) then s.mbEnd func 3
    else match (s.func func).entryArgs with
      | none => s.mbFail func
      | some c =>
        let s := s.setCtx dom { c with cst := 0, func }
        (((s.renewContext dom).freshKey dom).setCst dom 1).mbEnd func 0

/-- A KILL notice by the host; its cause is not given, but it is one of those of spec/06 R188. -/
def State.hostKill (s : State) (dom : Nat) (flr : Bool) : State :=
  match s.openVal 0x410 with | (c, s) => s.post (.kill dom (1 + c % 0x15) 0 none flr)

/-- Every live die has applied every KILL of a domain, no dispatch of it is under way, and no part of it remains. -/
def State.drained (s : State) (dom : Nat) : Bool :=
  ((List.range 8).filter fun d => !s.lostDies.contains d).all (fun die =>
    let d := s.dieOf die
    ((s.hub.log.drop d.applied).all fun n => match n with | .kill k _ _ _ _ => decide (k ≠ dom) | .launch k _ _ => decide (k ≠ dom) | _ => true) &&
      d.sched.disps.all fun x => decide (x.dom ≠ dom) || x.st.final) &&
  s.die.parts.all fun p => decide (p.dom ≠ dom)

/-- DESTROY and KILL: the first doorbell posts the notice, and the command runs until the domain has drained; it ends without the host, also
while the link is lost (R456). -/
def State.terminateCmd (s : State) (f code : Nat) (finish : Nat → State → State) : Out :=
  let x := s.func f
  match if x.mbst = 1 then x.running else none with
  | some (c, dom) => .next (if s.started && !s.inReset f && c = code && s.drained dom then (finish dom s).mbEnd f 0 else s)
  | none =>
    s.hostAccess f fun s =>
      if s.inReset f || x.mbst = 1 || x.arg 0 2 ≠ code then s
      else s.owned f (x.arg 2 2) fun s =>
        (s.setFunc f { x with mbst := 1, mberr := 0, running := some (code, x.arg 2 2) }).hostKill (x.arg 2 2) false

/-- The context entry of a domain becomes FREE; its owner stays. -/
def State.freeContext (s : State) (dom : Nat) : State :=
  let s := s.setCst dom 0
  s.setCtx dom { func := (s.ctx dom).func }

/-- `MB_DESTROY`. -/
def execMbDestroy (func : Nat) (s : State) : Out :=
  s.terminateCmd func 2 fun dom s => ((s.loadKey dom none).dropImages dom).freeContext dom

/-- `MB_KILL`. -/
def execMbKill (func : Nat) (s : State) : Out := s.terminateCmd func 5 fun _ s => s

/-- `MB_PREEMPT`. -/
def execMbPreempt (func : Nat) (s : State) : Out :=
  s.doorbell func 3 fun dom s => s.owned func dom fun s => (s.post (.preempt dom)).mbEnd func 0

/-- `MB_RESUME`. -/
def execMbResume (func : Nat) (s : State) : Out :=
  s.doorbell func 4 fun dom s => s.owned func dom fun s => (s.post (.resume dom)).mbEnd func 0

/-- `MB_ASSIGN`: by the PF, of its own domains that are FREE. -/
def execMbAssign (func : Nat) (s : State) : Out :=
  s.doorbell func 6 fun _ s =>
    let x := s.func func
    let vf := x.arg 8 8
    let doms := (List.range (x.arg 24 2)).map (x.arg 16 8 + ·)
    if 1024 < x.arg 16 8 + x.arg 24 8 || doms.any fun d => !s.owns func d then s.mbEnd func 2
    else if func ≠ 0 || decide (64 ≤ vf) || doms.any fun d => (s.ctx d).cst ≠ 0 then s.mbFail func
    else (doms.foldl (fun s d => s.setCtx d { s.ctx d with func := vf }) s).mbEnd func 0

/-- Units of the boot steps (R463), each as 2^16·step + unit; die-edge links in the order of their lower routers, those to the east first
(log entry 49). -/
def bootUnits : List Nat :=
  [0x10000, 0x20000, 0x30000] ++ (List.range 24).map (0x40000 + ·) ++ (List.range 3840).map (0x50000 + ·) ++ (List.range 8).map (0x60000 + ·) ++
    (List.range 40).map (0x70000 + ·) ++ (List.range 12).map (0x80000 + ·) ++ [0x90000, 0xA0000]

/-- The second copy of the boot record is the one in use: the valid copy with the higher sequence number (R464). -/
def SagState.second (g : SagState) : Bool := g.boot1.valid && (!g.boot0.valid || decide (g.boot0.seq < g.boot1.seq))

/-- The copy of the boot record in use; where neither is valid every mode is normal. -/
def SagState.record (g : SagState) : BootCopy := if g.second then g.boot1 else if g.boot0.valid then g.boot0 else {}

def State.bootEntry (s : State) (key : Nat) : BootEntry := s.sag.record.entries.find key {}

/-- Writes an entry: the copy that is not in use takes the whole record, with the next sequence number (log entry 119). -/
def State.setBootEntry (s : State) (key : Nat) (e : BootEntry) : State :=
  let c : BootCopy := { seq := s.sag.record.seq + 1, entries := s.sag.record.entries.put key e {} }
  { s with sag := if s.sag.second || !s.sag.boot0.valid then { s.sag with boot0 := c } else { s.sag with boot1 := c } }

/-- A boot-record entry as it is read (R464). -/
def State.bootBits (s : State) (key : Nat) : BitVec 128 :=
  let e := s.bootEntry key
  BitVec.ofNat 128 (packFields [(32, e.bootno.toNat), (4, e.mode), (4, e.last), (8, key / 65536), (16, key % 65536), (32, e.att.toNat)])

/-- The length of the run of excluded frames from f on. -/
def MemState.excludedRun (m : MemState) (f : Nat) : Nat → Nat
  | 0 => 0
  | n + 1 => if m.excluded f then 1 + m.excludedRun (f + 1) n else 0

/-- The k-th range of excluded frames: first frame and count. `prev`: the frame before f is excluded. -/
def MemState.excludedRange (m : MemState) (f k : Nat) (prev : Bool) : Nat → Option (Nat × Nat)
  | 0 => none
  | n + 1 =>
    if m.excluded f && !prev then
      if k = 0 then some (f, m.excludedRun f (n + 1)) else m.excludedRange (f + 1) (k - 1) true n
    else m.excludedRange (f + 1) k (m.excluded f) n

/-- QUERY with a selector of these, by the PF. -/
def State.query (s : State) (f : Nat) (sel : Nat → Bool) (answer : Nat → State → Option Nat) : Out :=
  s.doorbell f 7 fun _ s =>
    let x := s.func f
    if !sel (x.arg 8 8) then s
    else if f ≠ 0 then s.mbFail f
    else match answer (x.arg 16 8) s with
      | some v => s.mbAnswer f 0 (BitVec.ofNat 512 v)
      | none => s.mbFail f

/-- `MB_QUERY_BOOT_ENTRY`: a selector that neither form has completes in error here. -/
def execMbQueryBootEntry (func : Nat) (s : State) : Out :=
  s.query func (fun k => decide (k ≠ 1)) fun n s =>
    if (s.func func).arg 8 8 = 0 then bootUnits[n]?.map fun k => (s.bootBits k).toNat else none

/-- `MB_QUERY_EXCLUDED`. -/
def execMbQueryExcluded (func : Nat) (s : State) : Out :=
  s.query func (fun k => decide (k = 1)) fun n s => (s.mem.excludedRange 0 n false s.mem.frameCount).map fun r => packFields [(64, r.1), (64, r.2)]

/-- `MB_CLRBOOT`. -/
def execMbClrboot (func : Nat) (s : State) : Out :=
  s.doorbell func 8 fun _ s => if func ≠ 0 then s.mbFail func else ({ s with sag := { s.sag with clrboot := true } } : State).mbEnd func 0

/-- A dispatch of domain 0 is queued, placed or running, or a launch of it is on its way. -/
def State.superBusy (s : State) : Bool :=
  ((List.range 8).filter fun d => !s.lostDies.contains d).any fun die =>
    ((s.dieOf die).sched.disps.any fun x => decide (x.dom = 0) && !x.st.final) ||
      (s.hub.log.drop (s.dieOf die).applied).any fun n => match n with | .launch k _ _ => decide (k = 0) | _ => false

/-- `MB_SUPCFG`. -/
def execMbSupcfg (func : Nat) (s : State) : Out :=
  s.doorbell func 9 fun dom s =>
    if (dom = 0 && func ≠ 0) || (dom ≠ 0 && !s.owns func dom) then s.mbEnd func 2
    else if dom ≠ 0 then s.mbFail func
    else match (s.func func).entryArgs with
      | none => s.mbEnd func 4
      | some c => if s.superBusy then s.mbEnd func 3 else (s.setCtx 0 { c with wdog := (s.ctx 0).wdog }).mbEnd func 0

/-- `MB_DOORBELL_BUSY`. -/
def execMbDoorbellBusy (func : Nat) (s : State) : Out :=
  s.hostAccess func fun s => if (s.func func).mbst = 1 && !s.inReset func then s.setFunc func { s.func func with mberr := 1 } else s

/-- A base address register pair: its size in bytes, and whether the memory is prefetchable; each is 64 bits wide (R446). -/
structure Bar where
  size : Nat
  prefetchable : Bool
deriving DecidableEq, Repr

/-- The BARs of a function by pair: the register page with the capability list, the memory window, none at BAR4/5 (R446). -/
def barOf (f pair : Nat) : Option Bar :=
  match pair with
  | 0 => some { size := 2 ^ 20, prefetchable := false }
  | 1 => some { size := if f = 0 then 2 ^ 36 else 2 ^ 32, prefetchable := true }
  | _ => none

/-- The capabilities that configuration space lists (R444). -/
inductive PciCap where
  | pciExpress | powerManagement | msiX | srIov | aer
  /-- Its value is `%devid`. -/
  | deviceSerial (number : Nat)
  | dataLinkFeature | physical64 | physical128
deriving DecidableEq, Repr

/-- The capabilities of a function: SR-IOV is the PF's alone (R444; log entry 127). -/
def State.pciCaps (s : State) (f : Nat) : List PciCap :=
  [.pciExpress, .powerManagement, .msiX] ++ (if f = 0 then [.srIov] else []) ++
    [.aer, .deviceSerial (bitsOf 64 64 (s.fuse 0)), .dataLinkFeature, .physical64, .physical128]

/-! ## Other registers (R447) -/

/-- What a read of the register page answers; a read changes nothing, so the table has no row for it. -/
def State.registerRead (s : State) (f off : Nat) : Nat :=
  let x := s.func f
  if off % 8 ≠ 0 || ((barOf f 0).map Bar.size).getD 0 ≤ off then 0
  else if 0x100 ≤ off && off < 0x140 then bitsOf (8 * (off - 0x100)) 64 x.mbcmd
  else if 0x140 ≤ off && off < 0x180 then bitsOf (8 * (off - 0x140)) 64 x.mbrsp
  else if 0x10000 ≤ off then natOfBytes ((s.sag.caps.drop (off - 0x10000)).take 8)
  else match off with
    | 0x008 => packFields [(32, x.why.toNat), (32, x.drops.toNat)]
    | 0x040 => s.capAddr
    | 0x048 => x.winbase.toNat
    | 0x050 => x.windom.toNat
    | 0x188 => packFields [(8, x.mbst), (8, x.mberr)]
    | _ => 0

/-- `REGISTER_PAGE_BAD_ACCESS`. -/
def execRegisterPageBadAccess (_func : Nat) (offset : Nat) (size : Nat) (write : Bool) (s : State) : Out :=
  if write || (size = 8 && offset % 8 = 0) || !s.hostUp then .next s
  else .next { s with hub := { s.hub with readData := List.replicate size 0 } }

/-- `REGISTER_WRITE`. `LAUNCHR`, `LSTAT` and the doorbell of a known command have rows of their own; the doorbell of an unknown command
completes in error (log entry 48). -/
def execRegisterWrite (func : Nat) (offset : Nat) (value : BitVec 64) (s : State) : Out :=
  s.hostAccess func fun s =>
    let x := s.func func
    if offset % 8 ≠ 0 then s
    else if offset = 0x048 then s.setFunc func { x with winbase := value &&& 0xFFFFFFFF00000000 }
    else if offset = 0x050 then s.setFunc func { x with windom := value.setWidth 10 }
    else if 0x100 ≤ offset && offset < 0x140 then
      let lo := 8 * (offset - 0x100)
      s.setFunc func { x with mbcmd := (x.mbcmd &&& ~~~(BitVec.ofNat 512 ((2 ^ 64 - 1) * 2 ^ lo))) ||| BitVec.ofNat 512 (value.toNat * 2 ^ lo) }
    else if offset = 0x180 && bitAt 0 value && x.mbst ≠ 1 && !s.inReset func && (x.arg 0 2 = 0 || decide (9 < x.arg 0 2)) then s.mbFail func
    else s

/-! ## The memory window (R452) -/

/-- Bytes of a function's window (R446). -/
def windowSize (f : Nat) : Nat := ((barOf f 1).map Bar.size).getD 0

/-- `WINDOW_READ`: where a line or its key fails the read never faults, and what it returns is not stated. -/
def execWindowRead (func : Nat) (offset : Nat) (length : Nat) (s : State) : Out :=
  if windowSize func < offset + length then .next s
  else s.hostAccess func fun s =>
    let x := s.func func
    let dom := x.windom.toNat
    let put (s : State) (bs : List Byte) : State := { s with hub := { s.hub with readData := bs } }
    if !s.mayName func dom then put s (List.replicate length 0xFF)
    else match s.memRead dom dom (x.winbase.toNat + offset) length with
      | (.inl bs, s) => put s bs
      | (.inr _, s) => match s.openVal 0x452 with | (v, s) => put s (bytesOfNat length v)

/-- `WINDOW_WRITE`. -/
def execWindowWrite (func : Nat) (offset : Nat) (bytes : List Byte) (s : State) : Out :=
  if windowSize func < offset + bytes.length then .next s
  else s.hostAccess func fun s =>
    let x := s.func func
    let dom := x.windom.toNat
    if s.mayName func dom then s.memStore dom dom noDisp (x.winbase.toNat + offset) bytes else s

/-! ## Function-level reset (R454, R455) -/

/-- The domains of a reset: of the PF, every domain of every function. -/
def State.resetDoms (s : State) (f : Nat) : List Nat := (List.range 1024).filter fun d => decide (0 < d) && (decide (f = 0) || decide ((s.ctx d).func = f))

/-- A request that is abandoned in a reset of these domains: it writes no status word. -/
def SagReq.dropped (doms : List Nat) (r : SagReq) : Bool := (r.dom.map doms.contains).getD false

/-- Step 1: the KILL notices; Saggar requests of the domains are abandoned. -/
def State.startFlr (s : State) (f : Nat) : State :=
  if (s.func f).flr.isSome then s
  else
    let doms := s.resetDoms f
    let s := s.setFunc f { s.func f with flr := some 1 }
    let s := { s with hub := { s.hub with sag := s.hub.sag.filter fun r => !r.dropped doms, vfEnable := s.hub.vfEnable && f ≠ 0, numVfs := if f = 0 then 0 else s.hub.numVfs } }
    (doms.filter fun d => (s.ctx d).cst ≠ 0).foldl (fun s d => s.hostKill d true) s

/-- Steps 3 and 4 for one domain; its trap records still on their way find its slot EMPTY. -/
def State.wipeDomain (s : State) (f dom : Nat) : State :=
  let lost := ((s.hub.traps ++ s.hub.lateTraps).filter fun t => t.dom = dom).length
  let s := { s with hub := { s.hub with traps := s.hub.traps.filter (fun t => t.dom ≠ dom), lateTraps := s.hub.lateTraps.filter fun t => t.dom ≠ dom } }
  let s := s.setFunc f { s.func f with lost := (s.func f).lost + lost }
  let s := ((s.loadKey dom none).dropImages dom).setCst dom 0
  s.setCtx dom {}

/-- Steps 3 to 5. -/
def State.endFlr (s : State) (f : Nat) : State :=
  let s := (s.resetDoms f).foldl (fun s d => s.wipeDomain f d) s
  let lost := (s.func f).lost
  let s := if f = 0 then foldUp 64 s fun s k => s.setFunc k {} else s.setFunc f {}
  s.logEvent 8 0x5003 (packFields [(6, f), (26, 0), (32, lost)]) 0 0 true

/-- A reset that has begun ends once its domains have drained. -/
def State.flrStep (s : State) (f : Nat) : State :=
  if (s.func f).flr.isNone then s.startFlr f
  else if (s.resetDoms f).all s.drained then s.endFlr f
  else s

/-- `FLR`: the request, and later its end. A second one during the first restarts nothing. -/
def execFlr (func : Nat) (s : State) : Out := if s.sag.power then .next (s.flrStep func) else .next s

/-! ## Surprise link loss (R456, R457) -/

/-- `%linkhold` in cycles of the arithmetic clock (spec/00 R6). -/
def State.holdCycles (s : State) : Nat := s.hub.linkhold.toNat * 3300000

/-- `LINK_LOSS`: the link goes down; without a reset or a power-down request before it, it is lost. -/
def execLinkLoss (s : State) : Out :=
  if !s.hub.linkUp then .next s
  else
    let down := { s with hub := { s.hub with linkUp := false } }
    if s.hub.powerDown || (s.func 0).flr.isSome then .next down
    else .next (({ down with hub := { down.hub with holdAt := some s.now, dropped := 0, released := false } } : State).logEvent 8 0x5004 0 0 0 true)

/-- The hold ends as a reset of the PF does, and says so. -/
def State.expireHold (s : State) : State :=
  let s := s.logEvent 8 0x5006 s.hub.dropped.toNat 0 0 true
  ({ s with hub := { s.hub with holdAt := none } } : State).startFlr 0

/-- MSI-X messages that were dropped are signalled again, once per vector. -/
def State.resignal (s : State) : State :=
  foldUp 64 s fun s f => (s.func f).msixHeld.foldl (fun s v => s.signal f v) (s.setFunc f { s.func f with msixHeld := [] })

/-- The hold is released: held exchange steps run, as soon as the hub knows all notices. -/
def State.release (s : State) : State :=
  let s := { s with hub := { s.hub with released := true } }
  s.hubView.elim s s.runHeld

/-- `LINK_RETRAIN`: in the cycle of the expiry or later it counts as an expiry. -/
def execLinkRetrain (s : State) : Out :=
  if s.hub.linkUp || !s.started then .next s
  else
    let up (s : State) : State := { s with hub := { s.hub with linkUp := true, powerDown := false } }
    match s.hub.holdAt with
    | none => .next (up s)
    | some t =>
      if t + s.holdCycles ≤ s.now then .next (up s.expireHold)
      else
        let n := s.hub.dropped.toNat
        let s := ({ up s with hub := { (up s).hub with holdAt := none } } : State).logEvent 8 0x5005 n 0 0 true
        .next s.resignal.release

/-- `LINK_HOLD_EXPIRY`. -/
def execLinkHoldExpiry (s : State) : Out :=
  match s.hub.holdAt with
  | some t => if t + s.holdCycles ≤ s.now then .next s.expireHold else .next s
  | none => .next s

/-- `HOT_RESET`: with the return of a lost link, or by itself. -/
def execHotReset (s : State) : Out :=
  if !s.started then .next s
  else
    let up (s : State) : State := { s with hub := { s.hub with linkUp := true, powerDown := false } }
    .next (if s.hub.holdAt.isSome then up s.expireHold else (up s).startFlr 0)

/-- `PLDM_POWER_DOWN`: not in ROM recovery, which speaks PLDM type 5 only (R463). -/
def execPldmPowerDown (s : State) : Out := if s.sag.power && !s.sag.romOnly then .next { s with hub := { s.hub with powerDown := true } } else .next s

end Sys2Proof.Machine
end

