-- ==== Sys2Proof/Machine/Boot.lean ====
section
/-! DEFINITION. Starts of the module: cold start, warm reset, the boot record, power and heat (spec/16 R463 to R469, R477, spec/17 R481).
A start is one event (log entry 50). -/
namespace Sys2Proof.Machine

/-! ## The boot record (R463 to R465) -/

/-- The modes that R463 gives a step. -/
def bootModes (step : Nat) : List Nat := match step with | 2 | 5 | 6 | 7 => [0, 2] | 9 => [0, 1] | 10 => [0] | _ => [0, 1, 2]

/-- The next mode, where there is one. -/
def raiseMode (step m : Nat) : Nat := ((bootModes step).find? fun k => decide (m < k)).getD m

def State.bootEvent (s : State) (code key : Nat) : State := s.logEvent 8 code (bitsOf 0 64 (s.bootBits key)) 0 0 true

/-- A unit whose last attempt failed moves to its next mode (R465). -/
def State.raiseUnit (s : State) (key : Nat) : State :=
  let e := s.bootEntry key
  let m := raiseMode (key / 65536) e.mode
  if (e.last = 1 || e.last = 3) && m ≠ e.mode then (s.setBootEntry key { e with mode := m }).bootEvent 0x5002 key else s

/-- CLRBOOT makes every mode normal. -/
def State.clearModes (s : State) : State :=
  let s := bootUnits.foldl (fun s k => s.setBootEntry k { s.bootEntry k with mode := 0 }) s
  { s with sag := { s.sag with clrboot := false } }

/-- A step failed: its entry says so, and the start counts as failed. -/
def State.stepFailed (s : State) (key : Nat) : State :=
  let s := (s.setBootEntry key { s.bootEntry key with last := 3 }).bootEvent 0x5001 key
  { s with sag := { s.sag with failed := s.sag.failed + 1 } }

/-- One step of one unit, after those before it have succeeded; its entry reads STARTED until it ends. In its last resort a unit is taken out, or
the module is left in management-only mode, after step 0x01 in ROM recovery. -/
def State.bootUnit (a : Bool × State) (key : Nat) : Bool × State :=
  if !a.1 then a
  else
    let step := key / 65536
    let e := a.2.bootEntry key
    let e := { e with att := if e.att = 0xFFFFFFFF then e.att else e.att + 1, bootno := a.2.sag.bootno, last := 1 }
    let s := a.2.setBootEntry key e
    if e.mode = 2 then
      let s := s.setBootEntry key { e with last := 2 }
      if step ≤ 3 then (false, { s with sag := { s.sag with mgmtOnly := true, romOnly := decide (step = 1) } }) else (true, s)
    else
      let t : State := { s with free := s.free + 1 }
      match Config.bootEnd step (key % 65536) e.mode s.free % 3 with
      | 0 => (true, t.setBootEntry key { e with last := 2 })
      | 1 => (false, t.stepFailed key)
      | _ => (false, { t with sag := { t.sag with hung := some key } })

/-- The start number: one above the higher valid copy of the start counter, 0 if neither is valid (R464). -/
def State.countStart (s : State) : State :=
  let s := { s with sag := { s.sag with starts := s.sag.starts + 1 } }
  let next (v : BitVec 32) : State := { s with sag := { s.sag with start0 := some (v + 1), start1 := some (v + 1), bootno := v + 1 } }
  match s.sag.start0, s.sag.start1 with
  | some a, some b => next (if a.toNat < b.toNat then b else a)
  | some a, none => next a
  | none, some b => next b
  | none, none => { s with sag := { s.sag with bootno := 0 } }

/-- The record at the beginning of a start: one without a valid copy is made anew; modes rise. -/
def State.openRecord (s : State) (cold : Bool) : State :=
  let s := if s.sag.boot0.valid || s.sag.boot1.valid then s
    else ({ s with sag := { s.sag with boot0 := {}, boot1 := {} } } : State).logEvent 8 0x5001 s.sag.bootno.toNat 0 0 true
  if cold && s.sag.clrboot then s.clearModes else bootUnits.foldl State.raiseUnit s

/-! ## What a start leaves (R463, R466, R469, R474, spec/14 R392, R394, spec/17 R481) -/

/-- Pseudo-channels that the record maps out. -/
def State.bootMapped (s : State) : List Nat :=
  (List.range 3840).filter fun k => (s.bootEntry (0x50000 + k)).mode = 2 || (s.bootEntry (0x40000 + k / 160)).mode = 2

/-- Two units of one stripe are mapped out (R466). -/
def stripeLost (out : List Nat) : Bool := out.any fun a => out.any fun b => decide (a ≠ b) && decide (a % 160 = b % 160) && decide (a / 160 % 3 = b / 160 % 3)

/-- Die-edge links, by their lower router and direction. -/
def bootEdges : List (Nat × Nat) :=
  (List.range 128).flatMap fun r => ([1, 2].filter fun d => dieEdge r d).map fun d => (r, d)

/-- Dies and die-edge links that the record takes out are lost, and down, from the start. -/
def State.takeOut (s : State) : State :=
  let s := foldUp 8 s fun s d => if (s.bootEntry (0x60000 + d)).mode = 2 then s.postLoss d else s
  (bootEdges.foldl (fun a e => (a.1 + 1, if (a.2.bootEntry (0x70000 + a.1)).mode = 2 then a.2.meshDown e.1 e.2 else a.2)) (0, s)).2

/-- The fabric map comes into force, and the links that may train stand down until they do (R481, R480). Where the start counter is lost, one event
shows link 0's entry (R464; log entry 119). -/
def State.applyMap (s : State) : State :=
  let noCounter := s.sag.start0.isNone && s.sag.start1.isNone
  let s := if noCounter then s.bootEvent 0x5001 0x80000 else s
  match s.fab.flashMap with
  | none => s
  | some (fid, mid, es) =>
    let entry (v : BitVec 16) : MapEntry := { pri := bitsOf 12 4 v, alt := bitsOf 8 4 v, rv := bitAt 0 v }
    let s := { s with fab := { s.fab with fabricId := fid, moduleId := mid } }
    let s := foldUp 64 s fun s m => s.setMapEntry m (entry ((es[m]?).getD 0xFF00))
    foldUp 12 s fun s l =>
      let mode := (s.bootEntry (0x80000 + l)).mode
      if noCounter || mode = 2 then s else s.setFabLink l { s.fabLink l with st := .down, half := mode = 1 }

/-- Extends a measurement register with a digest (R469). -/
def State.measure (s : State) (n : Nat) (d : Word) : State := s.extend n (bytesOfNat 32 d.toNat)

/-- Measurements of a start (R469). -/
def State.measureStart (s : State) : State :=
  let s := s.measure 0 (if (s.bootEntry 0x10000).mode = 0 then s.sag.image0.getD (Config.imageDigest 0) else Config.imageDigest 2)
  let s := s.measure 1 (BitVec.ofNat 256 (natOfBytes (Sm.sm3 ((List.range 48).flatMap fun k => bytesOfNat 32 (s.fuse k).toNat))))
  let s := s.measure 2 (Config.bootDigest 2 (bootUnits.map fun k => (s.bootEntry k).mode))
  let s := s.measure 3 (s.sag.image1.getD (Config.imageDigest 1))
  -- whether a frame is excluded recurs every 240 frames (spec/14 R393)
  let s := s.measure 4 (Config.bootDigest 4 ((if s.mem.parity then 1 else 0) :: (List.range 240).filter s.mem.excluded))
  s.measure 5 (Config.bootDigest 5 [(s.sag.image0.getD 0).toNat, (s.sag.image1.getD 0).toNat])

/-- A fresh `SNONCE` (R471). -/
def State.renewNonce (s : State) : State :=
  { s with sag := { s.sag with snonce := (Config.random s.free).setWidth 128 }, free := s.free + 1 }

/-- What every start does, whatever it comes to: in BLANK the debug port opens, and `SNONCE` is drawn (R467, R471). -/
def State.beginStart (s : State) : State :=
  ({ s with sag := { s.sag with dbgOpen := s.sag.dbgOpen || decide (s.lifecycle = 0) } } : State).renewNonce

/-- The map-outs and the parity mode of a start (R466). -/
def State.mapOut (s : State) : State :=
  let out := s.bootMapped
  let want := s.sag.parityParam.getD (bitAt 0 (s.fuse 1))
  let s := if stripeLost out then s.bootEvent 0x5002 0xA0000 else s
  { s with mem := { s.mem with parity := want && !stripeLost out, mappedOut := out } }

/-- The end of a start that succeeds: the parity mode, the map-outs, the links, the capability list, the measurements. -/
def State.finishStart (s : State) : State :=
  let s := s.mapOut
  let linkRate := if (s.bootEntry 0x90000).mode = 1 then 64 else 128
  let s : State := { s with hub := { s.hub with linkUp := true, linkRate } }
  let s := s.takeOut.applyMap
  let trained := bitmapOf 12 fun l => decide ((s.fabLink l).st ≠ .disabled)
  let reduced := (List.range 12).any fun l => (s.fabLink l).half && decide ((s.fabLink l).st ≠ .disabled)
  (s.writeCaps (s.capList trained reduced)).measureStart

/-! ## Resets (R461, R463, R469, R474) -/

/-- The registers of a die that leaves reset. -/
def State.dieReset (s : State) (d : Nat) : State := s.setDieOf d { resetAt := s.now, heartbeat := s.now, sweptAt := s.now }

/-- What a warm reset leaves: device memory with its frames, the Saggar with its rings, fuses, flash and debug port. Slot 0 is loaded
again; the other slots are EMPTY, and every context but domain 0 is FREE. -/
def State.warmed (s : State) : State :=
  let links := foldUp 12 ({} : Map FabLink) fun m k => let l := s.fabLink k; m.put k { peer := l.peer, epoch := l.epoch, rawx := l.rawx } {}
  let t : State :=
    { mem := { bytes := s.mem.bytes, keys := s.mem.keys, faults := s.mem.faults, frames := s.mem.frames }
      hub := { ctxs := { cells := [(0, Ctx.supervisor)] }, rings := s.hub.rings, msix := s.hub.msix, readData := s.hub.readData
               sideband := s.hub.sideband, linkUp := false }
      sag := { s.sag with keys := { cells := [(0, s.sag.key0)] }, lostKeys := [], lostCopies := [], hung := none, meas := s.sag.meas.erase 0 7, caps := [] }
      fab := { flashMap := s.fab.flashMap, links }
      agenda := s.agenda, free := s.free, now := s.now, cur := s.cur }
  let t := { t with sag := { t.sag with meas := t.sag.meas.erase 8 8 } }
  foldUp 8 t State.dieReset

/-- What a cold start finds: fuses, flash and nothing else. -/
def State.cooled (s : State) : State :=
  let t := s.warmed
  let r := Config.random s.free
  let key : Option KeyPair := some { data := r.setWidth 128, tweak := r.extractLsb' 128 128 }
  { t with
    mem := {}
    hub := { t.hub with rings := {}, msix := [], readData := [], sideband := [] }
    sag := { fuses := s.sag.fuses, keys := { cells := [(0, key)] }, key0 := key, identity := s.sag.identity
             vendorX := s.sag.vendorX, vendorY := s.sag.vendorY, boot0 := s.sag.boot0, boot1 := s.sag.boot1, clrboot := s.sag.clrboot
             start0 := s.sag.start0, start1 := s.sag.start1, parityParam := s.sag.parityParam, compressOn := s.sag.compressOn, rawx := s.sag.rawx
             image0 := s.sag.image0, image1 := s.sag.image1 }
    fab := { flashMap := s.fab.flashMap }
    free := s.free + 1 }

/-- Starts until one succeeds or hangs, or four have failed since the cold start, or a last resort leaves the module in management-only mode. -/
def State.tryStarts (s : State) (cold : Bool) : Nat → State
  | 0 => { s with sag := { s.sag with mgmtOnly := true } }
  | n + 1 =>
    match bootUnits.foldl State.bootUnit (true, s.countStart.beginStart.openRecord cold) with
    | (true, s) => s.finishStart
    | (false, s) => if s.sag.mgmtOnly || s.sag.hung.isSome then s else s.warmed.tryStarts false n

/-- A warm reset, and the starts that follow. -/
def State.warmReset (s : State) : State :=
  if !s.sag.power || s.sag.mgmtOnly then s else s.warmed.tryStarts false (4 - s.sag.failed)

/-- `COLD_START`: after power-up of the Saggar. -/
def execColdStart (s : State) : Out :=
  if s.sag.power && decide (0 < s.sag.starts) then .next s else .next (s.cooled.tryStarts true 4)

/-- `WARM_RESET`. -/
def execWarmReset (s : State) : Out := .next s.warmReset

/-- `BOOT_STEP_TIMEOUT`: the step that hangs exceeds its limit, and is recorded as one that fails. -/
def execBootStepTimeout (bootStep : Nat) (unit : Nat) (s : State) : Out :=
  let key := 65536 * bootStep + unit
  .next (if s.sag.hung = some key then (s.stepFailed key).warmReset else s)

/-- `SAGGAR_POWER_LOSS`: all but fuses and flash is lost. -/
def execSaggarPowerLoss (s : State) : Out :=
  let t := s.cooled
  .next { t with sag := { t.sag with power := false, keys := {}, key0 := none }, hub := { t.hub with linkUp := false } }

/-! ## Power and heat (R477) -/

/-- An event of class 6; its code and payload are not given. -/
def State.heatEvent (s : State) : State :=
  match s.openVal 0x6000 with
  | (c, s) => match s.openVal 0x6001 with
    | (v, s) => s.logEvent 8 (0x6000 + c % 4096) v 0 0

/-- `THERMAL_THROTTLE`: issue gaps, which change only timing. -/
def execThermalThrottle (die : Nat) (s : State) : Out :=
  if !s.sag.power then .next s else .next ((s.setDieOf die { s.dieOf die with throttled := true }).heatEvent)

/-- `THERMAL_SHUTDOWN`: then a warm reset. -/
def execThermalShutdown (_die : Nat) (s : State) : Out := if !s.sag.power then .next s else .next s.heatEvent.warmReset

end Sys2Proof.Machine
end

