-- ==== Sys2Proof/Machine/Saggar.lean ====
section
/-! DEFINITION. The Saggar: its requests, the sideband, lifecycle (spec/04 R148, R149, spec/16 R460, R467 to R473, R496, spec/17 R480,
R481). -/
namespace Sys2Proof.Machine

/-! ## Signatures (R496) -/

/-- A hexadecimal digit as an upper-case ASCII character. -/
def hexDigit (v : Nat) : Byte := BitVec.ofNat 8 (if v < 10 then 48 + v else 55 + v)

/-- `%devid`. -/
def State.devid (s : State) : Nat := bitsOf 64 64 (s.fuse 0)

/-- `%devid` as sixteen digits, the most significant first. -/
def State.deviceName (s : State) : List Byte := (List.range 16).map fun k => hexDigit (s.devid / 16 ^ (15 - k) % 16)

/-- The default identifier of GB/T 35276: 1234567812345678. -/
def defaultName : List Byte := (List.range 16).map fun k => BitVec.ofNat 8 (49 + k % 8)

/-- Signs with the identity key and a fresh per-signature value, drawing again where the standard asks for another. -/
def State.signReport (s : State) (d : Nat) (m : List Byte) : Nat → List Byte × State
  | 0 => (bytesOfNat 64 (Config.random s.free).toNat, { s with free := s.free + 1 })
  | n + 1 =>
    match Sm.sign d (Config.random s.free).toNat s.deviceName m with
    | some sig => (sig, { s with free := s.free + 1 })
    | none => ({ s with free := s.free + 1 } : State).signReport d m n

/-! ## Reports (R471) -/

/-- Bytes 0 to 575 of a report. -/
def State.report (s : State) (dom : Nat) (nonce : Nat) (sideband : Bool) : List Byte :=
  bytesOfNat 8 (1 + 640 * 2 ^ 16) ++ bytesOfNat 8 s.devid ++
    bytesOfNat 4 (packFields [(8, s.lifecycle), (8, (if s.sag.dbgOpen then 1 else 0) + (if s.sag.token.isSome then 2 else 0)),
      (1, if s.mem.parity then 1 else 0), (1, if sideband then 1 else 0), (4, 0), (10, dom)]) ++
    bytesOfNat 4 s.sag.starts ++ bytesOfNat 16 nonce ++ bytesOfNat 16 s.sag.snonce.toNat ++ bytesOfNat 8 0 ++
    (List.range 16).flatMap fun n => bytesOfNat 32 (s.measReg n).toNat

/-- The signed report; none in BLANK, where there is no identity (R467). -/
def State.signedReport (s : State) (dom nonce : Nat) (sideband : Bool) : Option (List Byte) × State :=
  match if s.lifecycle = 0 then none else s.sag.identity with
  | none => (none, s)
  | some d =>
    let m := s.report dom nonce sideband
    match s.signReport d m 8 with
    | (sig, s) => (some (m ++ sig), s)

/-! ## Requests (R149, R470 to R473) -/

/-- Takes the first request of one sort that no earlier request of its die precedes. -/
def takeRequest (want : SagReq → Bool) (die : SagReq → Nat) : List Nat → List SagReq → Option (SagReq × List SagReq)
  | _, [] => none
  | seen, r :: rs =>
    if want r && !seen.contains (die r) then some (r, rs)
    else (takeRequest want die (die r :: seen) rs).map fun x => (x.1, r :: x.2)

def SagReq.die : SagReq → Nat
  | .mext d _ _ _ => d
  | .attest d _ _ _ _ => d
  | .verify d _ _ _ _ _ => d

/-- The next request of one sort is served. -/
def State.serveNext (s : State) (want : SagReq → Bool) (serve : SagReq → State → State) : Out :=
  if !s.sag.power then .next s
  else match takeRequest want SagReq.die [] s.hub.sag with
    | some (r, rs) => .next (serve r { s with hub := { s.hub with sag := rs } })
    | none => .next s

/-- What a request answers: its status, the reason of a FAIL, the bytes from byte 64 on. -/
structure SagAnswer where
  status : Nat
  reason : Option Nat := none
  body : List Byte := []

/-- Reads a block, answers, and writes the status word last. A block that cannot be read is abandoned (log entry 51). -/
def State.serveBlock (s : State) (dom addr least : Nat) (run : List Byte → State → SagAnswer × State) : State :=
  match s.memRead dom dom addr 64 with
  | (.inr _, s) => s
  | (.inl h, s) =>
    let len := natOfBytes ((h.drop 8).take 4)
    let finish (a : SagAnswer) (s : State) : State :=
      let s := s.memStore dom dom noDisp (addr + 64) a.body
      let s := match a.reason with | some r => s.memStore dom dom noDisp (addr + 32) (bytesOfNat 4 r) | none => s
      s.memStore dom dom noDisp addr (bytesOfNat 8 a.status)
    if len < least || 4096 < len then finish { status := 3 } s
    else match s.memRead dom dom addr len with
      | (.inr _, s) => s
      | (.inl bs, s) => match run bs s with | (a, s) => finish a s

/-- `SAGGAR_ATTEST_SERVE`. -/
def execSaggarAttestServe (s : State) : Out :=
  s.serveNext (fun r => match r with | .attest _ _ _ _ _ => true | _ => false) fun r s => match r with
    | .attest _ dom addr _ _ => s.serveBlock dom addr 704 fun bs s =>
      match s.signedReport dom (natOfBytes ((bs.drop 16).take 16)) false with
      | (some body, s) => ({ status := 1, body }, s)
      | (none, s) => ({ status := 2 }, s)
    | _ => s

/-- The vendor's key is the one of fuse word 2 (R473; log entry 52). -/
def State.vendorKeyOk (s : State) : Bool :=
  decide (Sm.beNat (Sm.sm3 (Sm.beBytes 32 s.sag.vendorX ++ Sm.beBytes 32 s.sag.vendorY)) = (s.fuse 2).toNat)

/-- The vendor's signature over the first n bytes of an object, which it follows. -/
def State.vendorSigned (s : State) (obj : List Byte) (n : Nat) : Bool :=
  Sm.verify s.sag.vendorX s.sag.vendorY defaultName (obj.take n) ((obj.drop n).take 64)

/-- A domain other than 0 is ACTIVE. -/
def State.tenantActive (s : State) : Bool := (List.range 1024).any fun d => decide (0 < d) && decide ((s.ctx d).cst = 1)

/-- The first failing check of a list. -/
def firstFailing (cs : List (Nat × Bool)) : Option Nat := (cs.find? fun c => !c.2).map Prod.fst

/-- The checks that a token of any use makes, with their reasons (R472, R473). -/
def State.tokenChecks (s : State) (obj : List Byte) : List (Nat × Bool) :=
  [(8, s.vendorKeyOk), (1, s.vendorSigned obj 32), (2, decide (natOfBytes (obj.take 8) = s.devid)),
   (3, decide (natOfBytes ((obj.drop 8).take 4) = bitsOf 0 3 (s.fuse 0))), (4, decide (natOfBytes ((obj.drop 16).take 16) = s.sag.snonce.toNat))]

/-- Kind 0: an unlock token. -/
def State.verifyToken (s : State) (obj : List Byte) : SagAnswer × State :=
  match firstFailing (s.tokenChecks obj ++ [(5, !s.tenantActive), (6, !(bitAt 1 (s.fuse 1)))]) with
  | some r => ({ status := 2, reason := some r }, s)
  | none =>
    let token := BitVec.ofNat 256 (natOfBytes (Sm.sm3 obj))
    let s := { s with sag := { s.sag with token := some token, wiped := false } }
    ({ status := 1 }, s.logEvent 8 0x5007 (natOfBytes (obj.take 8)) 0 0 true)

/-- Kind 1: a firmware manifest, whose image is read in device memory. -/
def State.verifyManifest (s : State) (dom : Nat) (obj : List Byte) : SagAnswer × State :=
  match firstFailing [(8, s.vendorKeyOk), (1, s.vendorSigned obj 64)] with
  | some r => ({ status := 2, reason := some r }, s)
  | none =>
    match s.memRead dom dom (natOfBytes (obj.take 8)) (natOfBytes ((obj.drop 8).take 8)) with
    | (.inr _, s) => ({ status := 2, reason := some 7 }, s)
    | (.inl image, s) =>
      let digest := (obj.drop 16).take 32
      if Sm.sm3 image = digest then ({ status := 1 }, s.extend 5 digest) else ({ status := 2, reason := some 7 }, s)

/-- `SAGGAR_VERIFY_SERVE`: `SNONCE` is drawn afresh after each request of kind 0. -/
def execSaggarVerifyServe (s : State) : Out :=
  s.serveNext (fun r => match r with | .verify _ _ _ _ _ _ => true | _ => false) fun r s => match r with
    | .verify _ dom addr kind _ _ =>
      let t := s.serveBlock dom addr 192 fun bs s =>
        if kind = 0 then s.verifyToken ((bs.drop 64).take 96) else s.verifyManifest dom ((bs.drop 64).take 128)
      if kind = 0 then t.renewNonce else t
    | _ => s

/-- `SAGGAR_MEXT_SERVE`. -/
def execSaggarMextServe (s : State) : Out :=
  s.serveNext (fun r => match r with | .mext _ _ _ _ => true | _ => false) fun r s => match r with
    | .mext _ _ n data => s.extend n (bytesOfNat 32 data.toNat)
    | _ => s

/-! ## The sideband (R460, R480, R481) -/

/-- An answer on the sideband, where ROM recovery gives none but PLDM type 5 (R463). -/
def State.answer (s : State) (bs : List Byte) : Out := if s.sag.power && !s.sag.romOnly then .next { s with hub := { s.hub with sideband := bs } } else .next s

/-- `PLDM_DISCOVERY`: the types that the Saggar carries, 0, 2 and 5, a bit each, then what the standard adds (log entry 53). -/
def execPldmDiscovery (s : State) : Out :=
  match s.openVal 0x460 with
  | (n, s) => match s.openVal 0x460 with | (v, s) => s.answer (bytesOfNat 8 0x25 ++ bytesOfNat (n % 256) v)

/-- Health of a die: 0 up, 1 lost, 2 excluded at boot. -/
def State.dieHealth (s : State) (d : Nat) : Nat := if (s.bootEntry (0x60000 + d)).mode = 2 then 2 else if s.lostDies.contains d then 1 else 0

/-- `PLDM_SENSOR_READ`: sensors 0 to 7 are the health of the dies, the others readings (log entry 53). -/
def execPldmSensorRead (sensor : Nat) (s : State) : Out :=
  if sensor < 8 then s.answer [BitVec.ofNat 8 (s.dieHealth sensor)]
  else ({ s with free := s.free + 1 } : State).answer (bytesOfNat 8 (Config.sensor (sensor + 2 ^ 16 * s.free)))

/-- `PLDM_FIRMWARE_UPDATE`: verified before activation, which the next start brings; it can set the parity mode of R466. -/
def execPldmFirmwareUpdate (component : Nat) (image : List Byte) (manifest : List Byte) (parity : Nat) (s : State) : Out :=
  if !s.sag.power then .next s
  else
    let s := if parity < 2 then { s with sag := { s.sag with parityParam := some (decide (parity = 1)) } } else s
    let digest := (manifest.drop 16).take 32
    let ok := s.vendorKeyOk && s.vendorSigned manifest 64 && decide (Sm.sm3 image = digest)
    let w := BitVec.ofNat 256 (natOfBytes digest)
    .next (if !ok then s
      else if component = 0 then { s with sag := { s.sag with image0 := some w } }
      else if component = 1 then { s with sag := { s.sag with image1 := some w } }
      else s)

/-- `BLACK_BOX_READ`: the count of a ring and one event, the newest first (log entry 53). -/
def execBlackBoxRead (ring : Nat) (index : Nat) (s : State) : Out :=
  let r := s.ring ring
  s.answer (bytesOfNat 4 r.count.toNat ++ match r.events[index]? with | some e => bytesOfNat 16 e.toNat | none => [])

/-- `BOOT_RECORD_READ`. -/
def execBootRecordRead (index : Nat) (s : State) : Out :=
  s.answer (match bootUnits[index]? with | some k => bytesOfNat 16 (s.bootBits k).toNat | none => [])

/-- `START_COUNTER_WRITE`: accepted only while both copies are invalid; it takes effect at the next start. -/
def execStartCounterWrite (value : BitVec 32) (s : State) : Out :=
  if s.sag.power && !s.sag.romOnly && s.sag.start0.isNone && s.sag.start1.isNone then
    .next { s with sag := { s.sag with start0 := some value, start1 := some value } }
  else .next s

/-- `PEER_EPOCH_READ`: the module and the epoch that a link saw at its last training. -/
def execPeerEpochRead (link : Nat) (s : State) : Out :=
  match (s.fabLink link).peer with
  | some m => s.answer (bytesOfNat 1 m ++ bytesOfNat 4 (s.fabLink link).epoch.toNat)
  | none => s.answer []

/-- `SIDEBAND_ATTEST`: requesting domain 0, with the sideband bit. -/
def execSidebandAttest (nonce : BitVec 128) (s : State) : Out :=
  match s.signedReport 0 nonce.toNat true with
  | (some bs, s) => s.answer bs
  | (none, s) => s.answer []

/-- `FABRIC_MAP_WRITE`: applied at boot step 0x08. -/
def execFabricMapWrite (fabricId : Nat) (moduleId : Nat) (entries : List (BitVec 16)) (s : State) : Out :=
  if s.sag.power && !s.sag.romOnly then .next { s with fab := { s.fab with flashMap := some (fabricId, moduleId, entries) } } else .next s

/-! ## Lifecycle (R467, R468) -/

/-- Blows the lifecycle fuses of a state, and logs it (R462). -/
def State.advanceLife (s : State) (code new : Nat) : State :=
  (s.setFuse 0 (s.fuse 0 ||| BitVec.ofNat 256 code)).logEvent 8 0x5009 new 0 0 true

/-- `VENDOR_PROVISION`. -/
def execVendorProvision (s : State) : Out :=
  if !s.sag.power || s.sag.romOnly || s.lifecycle ≠ 0 then .next s
  else .next (({ s with sag := { s.sag with identity := some (Config.identityKey ((List.range 16).map fun k => s.fuse (48 + k))) } } : State).advanceLife 1 1)

/-- `PRODUCTION_FUSING`. -/
def execProductionFusing (s : State) : Out := if !s.sag.power || s.sag.romOnly || s.lifecycle ≠ 1 then .next s else .next (s.advanceLife 3 2)

/-- `RMA_TOKEN`: a token of R473's form, whose unlock checks 5 and 6 do not concern it (log entry 54). -/
def execRmaToken (token : List Byte) (s : State) : Out :=
  if !s.sag.power || s.sag.romOnly || s.lifecycle = 0 || s.lifecycle = 3 || token.length ≠ 96 then .next s
  else if (firstFailing (s.tokenChecks token)).isSome then .next s
  else .next (s.advanceLife 7 3)

end Sys2Proof.Machine
end

