-- ==== Sys2Proof/Machine/Fabric.lean ====
section
/-! DEFINITION. Bexwen links, control bodies, remote exchange and remote atomics (spec/10 R301, spec/17 R478 to R492). -/
namespace Sys2Proof.Machine

/-! ## Packets (R481) -/

/-- A one-flit packet leaves for another module, or is discarded (R481). -/
def State.sendPacket (s : State) (h : Header) (flit : BitVec 512) : State :=
  match s.currentLink h.dmod with
  | some l => s.sendFlits l h.vc [flit]
  | none => s.fabEvent 0x7004 h.dom

/-! ## Remote atomics at the requester (R488, R490) -/

/-- A request has its result, and the command is answered. -/
def State.endAtom (s : State) (r : RAtom) (old : BitVec 64) (status : Nat) : State :=
  let s := { s with fab := { s.fab with ratoms := s.fab.ratoms.filter fun x => x ≠ r } }
  let s := if status = 2 then s.fabEvent 0x7005 r.dom else s
  match (s.cmdq r.core).findIdx? (fun c => decide (c.op = .ratom) && c.sent && decide (c.order = r.order)) with
  | some k => s.answerCmd r.core k (((s.cmdq r.core)[k]?).getD {}) (ratomWord (if status = 0 then old.toNat else 0) status) none
  | none => s

/-- Sends a request again, on the route's current link; it ends UNKNOWN without one, or after three resends. -/
def State.resendAtom (s : State) (r : RAtom) : State :=
  match s.currentLink r.modl with
  | none => s.endAtom r 0 2
  | some l =>
    if 3 ≤ r.resends then s.endAtom r 0 2
    else
      let again (x : RAtom) : RAtom := if x = r then { r with resends := r.resends + 1, sentAt := s.now, link := l } else x
      ({ s with fab := { s.fab with ratoms := s.fab.ratoms.map again } } : State).sendFlits l 0 [r.flit]

/-- Requests whose route has another current link than the one they were sent on are sent again at once (R490). -/
def State.rerouteAtoms (s : State) : State :=
  (s.fab.ratoms.filter fun r => decide (s.currentLink r.modl ≠ some r.link)).foldl State.resendAtom s

/-- `RATOM` (spec/10 R301). -/
def execRatom (w : Fields) (s : State) : Out :=
  runInstr { specComet 0xDE with
      fmts := some (atomFmts w), mods := fun w => w.mod.toNat < 8, d := { Pos.dst with chanOut := false }, a := .srcWide, b := .srcWide  } w
    (fun i =>
      if i.s.restartable (i.s.askerOf i.core) then .fail Cause.protection i.spec.op i.s
      else i.blockCmd { op := .ratom, ca := i.sa, tids := fieldNat 0 12 i.imm, fmt := i.fmt, aop := i.mod, data := BitVec.ofNat 256 i.sb
                        modl := fieldNat 12 6 i.imm }) s

/-- What a response does (R490): a duplicate is dropped. -/
def State.atomResponse (s : State) (flit : BitVec 512) : State :=
  let h := Header.ofBits flit
  match s.fab.ratoms.find? fun r => decide (r.modl = h.smod) && decide (r.seq = bitsOf 496 16 flit) && decide (r.slink = bitsOf 492 4 flit) with
  | some r => s.endAtom r (flit.extractLsb' 64 64) (bitsOf 490 2 flit)
  | none => s

/-- `REMOTE_ATOMIC_RESPONSE`. -/
def execRemoteAtomicResponse (flit : BitVec 512) (s : State) : Out :=
  let h := Header.ofBits flit
  if h.type = 5 && decide (h.dmod = s.fab.moduleId) then .next (s.atomResponse flit) else .next s

/-- `RATOM_RESEND_TIMEOUT`: 2^17 cycles after the last send. -/
def execRatomResendTimeout (index : Nat) (s : State) : Out :=
  match s.fab.ratoms[index]? with
  | some r => if r.sentAt + 2 ^ 17 ≤ s.now then .next (s.resendAtom r) else .next s
  | none => .next s

/-! ## Remote atomics at the target (R482, R489) -/

/-- The requester that stands for another module's access in the target's own context. -/
def remoteAsker (dom : Nat) : Asker := { comet := 0, dom, disp := noDisp }

/-- Performs a request at its controller: `RST` and the old value; a failure is posted to the context's trap queue here (log entry 58). -/
def State.performAtom (s : State) (dom fmt aop tid coords operand : Nat) : (Nat × BitVec 64) × State :=
  let a := remoteAsker dom
  let fail (s : State) (r : Word) : (Nat × BitVec 64) × State := ((3, 0), s.cometPost a r)
  if (s.ctx dom).cst ≠ 1 then fail s ((XFail.reason 8).record s a)
  else match s.xlatAtom a { op := .ratom, dom, ca := coords, tids := tid, fmt, aop, data := BitVec.ofNat 256 operand } with
    | (.failed r, s) => fail s r
    | (.parks _ _ _ _, s) => fail s (abandonedFail.record s a)
    | (.ok c, s) =>
      match s.hbmRead a c.src with
      | (.inr f, s) => fail s (f.record s a)
      | (.inl bs, s) =>
        let n := elemBytes fmt
        ((0, BitVec.ofNat 64 (natOfBytes bs)), s.hbmWrite a c.src (bytesOfNat n (aluNew fmt aop (natOfBytes bs) (operand % 2 ^ (8 * n)))))

/-- The response to a request (R488). -/
def State.atomReply (s : State) (flit : BitVec 512) (rst : Nat) (old : BitVec 64) : State :=
  let h := (Header.ofBits flit).reply 5 0
  s.sendPacket h (flitOf h (packFields
    [(64, old.toNat), (64, 0), (224, 0), (32, bitsOf 416 32 flit), (42, 0), (2, rst), (4, bitsOf 492 4 flit), (16, bitsOf 496 16 flit)]))

/-- Handles a request, in the first matching case of R489. -/
def State.atomRequest (s : State) (flit : BitVec 512) : State :=
  let h := Header.ofBits flit
  let seq := bitsOf 496 16 flit
  let key := 12 * h.smod + bitsOf 492 4 flit
  let t := s.dedup key
  if bitsOf 416 32 flit ≠ s.sag.bootno.toNat then s.atomReply flit 2 0
  else match t.ids.find? fun e => decide (e.1 = seq) with
    | some e => s.atomReply flit e.2.1 e.2.2
    | none =>
      let ahead := (seq + 2 ^ 16 - t.high) % 2 ^ 16
      if t.ids.isEmpty || (1 ≤ ahead && ahead ≤ 32767) then
        match s.performAtom h.dom (bitsOf 487 5 flit) (bitsOf 483 4 flit) (bitsOf 471 12 flit) (bitsOf 128 64 flit) (bitsOf 64 64 flit) with
        | ((rst, old), s) => (s.setDedup key { ids := ((seq, rst, old) :: t.ids).take 256, high := seq }).atomReply flit rst old
      else s.atomReply flit 2 0

/-- `REMOTE_ATOMIC_REQUEST`. -/
def execRemoteAtomicRequest (flit : BitVec 512) (s : State) : Out :=
  let h := Header.ofBits flit
  if h.type = 4 && decide (h.dmod = s.fab.moduleId) && decide (h.smod ≠ h.dmod) then .next (s.atomRequest flit) else .next s

/-! ## Remote exchange (R482, R486, R487) -/

/-- The record of a check that would park, of which `DETAIL` is not given. -/
def State.remotePark (s : State) (a : Asker) : Word := s.cometRecord a Cause.translation 6 (Config.openValue 0x486 s.free % 2 ^ 48)

/-- The target's checks of an exchange write of n bytes, from byte `start` of the element at these coordinates on, in its own context (R482),
and the parts that it writes. -/
def State.remoteResolve (s : State) (a : Asker) (tid coords start n : Nat) : (List Piece ⊕ Word) × State :=
  if (s.ctx a.dom).cst ≠ 1 then (.inr ((XFail.reason 8).record s a), s)
  else match s.descriptor a tid with
    | (.inr f, s) => (.inr (f.record s a), s)
    | (.inl t, s) =>
      match t.shape.offset coords with
      | none => (.inr ((XFail.reason 2).record s a), s)
      | some off =>
        if t.shape.span < off + start + n then (.inr ((XFail.reason 2).record s a), s)
        else match s.translate a tid t { write := true } (off + start) n [] (n / 65536 + 2) with
          | (.inr (.park _ _ _), s) => (.inr (s.remotePark a), { s with free := s.free + 1 })
          | (.inr f, s) => (.inr (f.record s a), s)
          | (.inl ps, s) => (.inl ps, s)

/-- Parts are whole frames. -/
def wholePieces (ps : List Piece) : Bool := ps.all fun p => decide (p.phys % 65536 = 0 ∧ p.len = 65536)

/-- What an exchange write does to its parts: the poison pattern of a staged line that has failed, whole frames in the form that they had at the source
(R487), or bytes. -/
def State.remoteStore (s : State) (a : Asker) (ps : List Piece) (bytes : List Byte) (raw : Bool) (form : ExchForm) : State :=
  if form.pattern then ps.foldl (fun s p => s.patternPiece a p) s
  else if raw then s.writeForms a ps form.units bytes
  else s.hbmWrite a ps bytes

/-- Performs an exchange write, as direct writes, or finds the record of its failure. The range of a raw one must be whole frames here too (spec/10
R300). -/
def State.remoteWrite (s : State) (dom tid coords start : Nat) (bytes : List Byte) (raw : Bool) (form : ExchForm) : Option Word × State :=
  let a := remoteAsker dom
  match s.remoteResolve a tid coords start bytes.length with
  | (.inr r, s) => (some r, s)
  | (.inl ps, s) =>
    if raw && !form.pattern && !wholePieces ps then (some ((XFail.reason 2).record s a), s) else (none, s.remoteStore a ps bytes raw form)

/-- The acknowledgement of an exchange write, on VC3 once it has performed: cause and `DETAIL` of a failure stand in its payload (log entry 36). -/
def State.exchAck (s : State) (h : Header) (r : Option Word) : State :=
  s.sendPacket h (flitOf h (match r with | some r => recCause r + 2 ^ 8 * recDetail r | none => 0))

/-- `REMOTE_EXCHANGE_WRITE`: a whole write of another module's endpoint at the hub's side of cluster[0,3]; `place` holds the coordinates and, from
bit 64 on, the bytes from their element; which `TAG` the write has is open. -/
def execRemoteExchangeWrite (smod : Nat) (dom : Nat) (tid : Nat) (place : Nat) (bytes : List Byte) (raw : Bool) (form : ExchForm)
    (s : State) : Out :=
  if decide (smod = s.fab.moduleId) then .next s
  else match s.openVal 0x486 with
    | (tag, s) =>
      match s.remoteWrite dom tid (place % 2 ^ 64) (place / 2 ^ 64) bytes raw form with
      | (r, s) => .next (s.exchAck { s.header 0 7 0 7 3 3 0 dom (tag % 4096) with dmod := smod } r)

/-- An exchange write on its way ends with a status; a failure has a record, which is posted. -/
def State.endExch (s : State) (e : ExchOut) (status : Nat) (r : Option Word) : State :=
  let s := { s with fab := { s.fab with exch := s.fab.exch.filter fun x => x.id ≠ e.id } }
  let a : Asker := { comet := cometOfCore e.core, dom := e.dom, disp := e.disp }
  let s := match r with | some r => s.cometPost a r | none => s
  if e.commit.isSome then s
  else match (s.cmdq e.core).findIdx? (fun c => decide (c.op = .xchg) && c.sent && decide (c.order = e.tag)) with
    | some k => s.finishCmd e.core k (((s.cmdq e.core)[k]?).getD {}) status
    | none => s

/-- The units of a raw write, frame by frame: none counted for a frame stored plain. -/
def framesOf : Nat → List Nat → List (List Nat)
  | 0, _ => []
  | _, [] => []
  | fuel + 1, us => (if (us.take 16).any (· = 0) then [] else (us.take 16).map (· - 1)) :: framesOf fuel (us.drop 16)

/-- A packet of an exchange write arrives: the write goes on, or begins anew where this is its first, as one does that is sent again. Once all of its
bytes have come it performs and is acknowledged (R486). -/
def State.exchArrive (s : State) (flits : List (BitVec 512)) : State :=
  let head := flits.headD 0
  let h := Header.ofBits head
  let pos := bitsOf 268 64 head
  let total := bitsOf 204 64 head
  let bytes := (flits.tail.flatMap fun f => bytesOfNat 64 f.toNat).take (total - pos)
  let mine (x : ExchIn) : Bool := decide (x.smod = h.smod) && decide (x.tag = h.tag) && decide (x.dom = h.dom)
  let fresh : ExchIn :=
    { smod := h.smod, tag := h.tag, dom := h.dom, tid := bitsOf 64 12 head, coords := bitsOf 76 64 head, start := bitsOf 140 64 head, total
      raw := bitAt 332 head, pattern := bitAt 333 head }
  let x := if pos = 0 then fresh else (s.fab.arriving.find? mine).getD fresh
  let rest := s.fab.arriving.filter fun y => !mine y
  if x.data.length ≠ pos then s
  else
    let x := { x with data := x.data ++ bytes, units := if pos % 4096 = 0 then x.units ++ [bitsOf 334 8 head] else x.units }
    if x.data.length < total && !bytes.isEmpty then { s with fab := { s.fab with arriving := rest ++ [x] } }
    else
      match ({ s with fab := { s.fab with arriving := rest } } : State).remoteWrite x.dom x.tid x.coords x.start x.data x.raw
          { units := if x.raw then framesOf x.units.length x.units else [], pattern := x.pattern } with
      | (r, s) => s.exchAck (h.reply 3 0) r

/-- A write acknowledgement of another module: cause and `DETAIL` of a failure stand in the payload (log entry 36). -/
def State.exchAnswer (s : State) (flit : BitVec 512) : State :=
  let h := Header.ofBits flit
  match s.fab.exch.find? fun e => decide (e.modl = h.smod) && decide (e.dom = h.dom) && decide (e.id % 4096 = h.tag) with
  | none => s
  | some e =>
    let cause := bitsOf 64 8 flit
    if cause = 0 then s.endExch e 0 none
    else s.endExch e 3 (some (s.cometRecord { comet := cometOfCore e.core, dom := e.dom, disp := e.disp } cause 6 (bitsOf 72 48 flit)))

/-! ## Control bodies (R483 to R485) -/

/-- A body of a module has come over the links, so that it is reachable if a current link leads to it (R481; log entry 120). -/
def State.heardFrom (s : State) (m : Nat) : State := { s with fab := { s.fab with unreachable := s.fab.unreachable.filter (· ≠ m) } }

/-- CTX: the group of the context changes, or not. -/
def State.ctxBody (s : State) (member dom : Nat) (active : Bool) : State := ((s.heardFrom member).setMember dom member active).fabAdvance

/-- PHASE: the highest phase. -/
def State.phaseBody (s : State) (member dom phase : Nat) : State :=
  let s := s.heardFrom member
  s.setReached dom member (some (match s.reached dom member with | some n => Nat.max n phase | none => phase))

def State.farrBody (s : State) (member dom bar gen : Nat) : State :=
  let s := s.heardFrom member
  let x := (member, dom, bar, gen)
  ({ s with fab := { s.fab with farr := if s.fab.farr.contains x then s.fab.farr else s.fab.farr ++ [x] } } : State).fabAdvance

def State.fexitBody (s : State) (member dom bar : Nat) : State :=
  let s := s.heardFrom member
  let x := (member, dom, bar)
  ({ s with fab := { s.fab with fexit := if s.fab.fexit.contains x then s.fab.fexit else s.fab.fexit ++ [x] } } : State).fabAdvance

/-- FBREAK: the counter breaks, now or when it is first used in the phase. -/
def State.fbreakBody (s : State) (member dom bar : Nat) : State :=
  let s := s.heardFrom member
  let x := (dom, bar)
  let s := { s with fab := { s.fab with fbreak := if s.fab.fbreak.contains x then s.fab.fbreak else s.fab.fbreak ++ [x] } }
  foldUp 64 s fun s k =>
    let b := s.barrier (300000 + k)
    if b.fab = some bar && decide (b.dom = dom) then s.setBarrier (300000 + k) { b with brk := true } else s

/-- `CTX_BODY`. -/
def execCtxBody (member : Nat) (dom : Nat) (active : Bool) (s : State) : Out := .next (s.ctxBody member dom active)

/-- `PHASE_BODY`. -/
def execPhaseBody (member : Nat) (dom : Nat) (phase : Nat) (s : State) : Out := .next (s.phaseBody member dom phase)

/-- `FARR_BODY`. -/
def execFarrBody (member : Nat) (dom : Nat) (bar : Nat) (gen : Nat) (s : State) : Out := .next (s.farrBody member dom bar gen)

/-- `FEXIT_BODY`. -/
def execFexitBody (member : Nat) (dom : Nat) (bar : Nat) (s : State) : Out := .next (s.fexitBody member dom bar)

/-- `FBREAK_BODY`. -/
def execFbreakBody (member : Nat) (dom : Nat) (bar : Nat) (s : State) : Out := .next (s.fbreakBody member dom bar)

/-- The control body of a frame: applied here, or sent on to the module that it is for (R481, R483). -/
def State.takeBody (s : State) (v : BitVec 512) : State :=
  let dst := bitsOf 4 6 v
  let src := bitsOf 10 6 v
  if dst = s.fab.moduleId then
    match bodyOf v with
    | some (.ctx dom active) => s.ctxBody src dom active
    | some (.phase dom n) => s.phaseBody src dom n
    | some (.farr dom bar gen) => s.farrBody src dom bar gen
    | some (.fexit dom bar) => s.fexitBody src dom bar
    | some (.fbreak dom bar) => s.fbreakBody src dom bar
    | _ => s
  else match s.currentLink dst with
    | some l => s.sendFlit l { fk := 2, vc := 0, bits := v }
    | none => s.fabEvent 0x7004 0

/-! ## Receiving frames (R478, R479, R481) -/

/-- Delivers a packet to this module's hub. -/
def State.deliver (s : State) (flits : List (BitVec 512)) : State :=
  let flit := flits.headD 0
  match (Header.ofBits flit).type with
  | 3 => s.exchAnswer flit
  | 4 => s.atomRequest flit
  | 5 => s.atomResponse flit
  | 0x0B => s.exchArrive flits
  | _ => s

/-- Notes how many flits of a packet are to come on a virtual channel, and where they go: a link, 12 for this hub, 13 for nowhere. -/
def State.setCont (s : State) (link vc n to_ : Nat) : State :=
  s.setFabLink link { s.fabLink link with cont := (s.fabLink link).cont.put vc (n, if n = 0 then 0 else to_) (0, 0) }

/-- A flit of a packet to this hub: the packet is delivered with its last. -/
def State.gather1 (s : State) (link vc n : Nat) (flit : BitVec 512) : State :=
  let l := s.fabLink link
  let flits := l.got.find vc [] ++ [flit]
  if n = 0 then (s.setFabLink link { l with got := l.got.put vc [] [] }).deliver flits
  else s.setFabLink link { l with got := l.got.put vc flits [] }

/-- Takes the flit of a frame: the first of a packet decides where the packet goes. -/
def State.takeFlit (s : State) (link vc : Nat) (flit : BitVec 512) : State :=
  match (s.fabLink link).cont.find vc (0, 0) with
  | (n + 1, to_) =>
    let s := s.setCont link vc n to_
    if to_ < 12 then s.sendFlit to_ { vc, bits := flit } else if to_ = 12 then s.gather1 link vc n flit else s
  | (0, _) =>
    let h := Header.ofBits flit
    if h.dmod = s.fab.moduleId then (s.setCont link vc h.lenm1 12).gather1 link vc h.lenm1 flit
    else match s.currentLink h.dmod with
      | some o => (s.setCont link vc h.lenm1 o).sendFlit o { vc, bits := flit, dom := some h.dom }
      | none => (s.setCont link vc h.lenm1 13).fabEvent 0x7004 h.dom

/-- Frames of the replay buffer up to an acknowledged one leave it. -/
def dropAcked (lack : Nat) (fs : List SentFrame) : List SentFrame :=
  match fs.findIdx? fun f => decide (bitsOf 52 12 f.bits = lack) with | some k => fs.drop (k + 1) | none => fs

/-- `LINK_FRAME_RECEIVE`: a frame that fails its CRC, or does not follow the last in order, is dropped. One that brings a flit or a control body is
taken; an idle one acknowledges, and no more. -/
def execLinkFrameReceive (link : Nat) (frame : BitVec 576) (s : State) : Out :=
  let l := s.fabLink link
  if l.st ≠ .up || Config.lcrc (frame.extractLsb' 32 544) ≠ frame.extractLsb' 0 32 then .next s
  else if bitsOf 52 12 frame ≠ (l.lack + 1) % 4096 then .next s
  else
    let got : FabLink := { l with lack := bitsOf 52 12 frame, replay := dropAcked (bitsOf 40 12 frame) l.replay }
    let s := s.setFabLink link (got.pump (s.setFabLink link got).hubDoms)
    let flit := frame.extractLsb' 64 512
    .next (match bitsOf 36 2 frame with
      | 0 => s.takeFlit link (bitsOf 38 2 frame) flit
      | 2 => s.takeBody flit
      | _ => s)

/-! ## Losing a module (R490 to R492) -/

/-- The exchange writes bound for a module end. -/
def State.failExch (s : State) (m : Nat) : State := (s.fab.exch.filter fun e => decide (e.modl = m)).foldl (fun s e => s.endExch e 3 none) s

/-- One LINK_DOWN record to each ACTIVE domain whose group held the module. -/
def State.postLinkDown (s : State) (m : Nat) : State :=
  ((List.range 1024).filter fun d => decide ((s.ctx d).cst = 1) && s.member d m).foldl
    (fun s d => s.queueTrap d (s.trapOf (s.ringDie 8) 0 (s.linkDownRecord d noDisp m) 0)) s

/-- Module m becomes unreachable (R492). -/
def State.loseModule (s : State) (m : Nat) : State :=
  let s := s.fabEvent 0x7003 0 true
  let s := { s with fab := { s.fab with unreachable := s.fab.unreachable ++ [m] } }
  let s := (s.failExch m).postLinkDown m
  ((s.fab.ratoms.filter fun r => decide (r.modl = m)).foldl (fun s r => s.endAtom r 0 2) s).fabAdvance

/-- `MODULE_UNREACHABLE`: a hop further on is lost; the loss of this hub's last link to a module is that link's own event. -/
def execModuleUnreachable (member : Nat) (s : State) : Out :=
  if s.reachable member then .next (s.loseModule member) else .next s

/-- A request that still waits for room on a link was carried by none: its command is sent afresh, or fails with LINK_DOWN (R490). -/
def State.unsendAtom (s : State) (r : RAtom) : State :=
  let s := { s with fab := { s.fab with ratoms := s.fab.ratoms.filter fun x => x ≠ r } }
  match (s.cmdq r.core).findIdx? (fun c => decide (c.op = .ratom) && c.sent && decide (c.order = r.order)) with
  | some k => s.putCmd r.core k { ((s.cmdq r.core)[k]?).getD {} with sent := false }
  | none => s

/-- Exchange writes whose route has another current link than the one they were sent on are sent again on it (R491). -/
def State.rerouteExch (s : State) : State :=
  (s.fab.exch.filter fun e => (s.currentLink e.modl).elim false fun l => decide (l ≠ e.link)).foldl State.sendPackets s

/-- A link goes down: its event; routes that used it switch, requests and exchange writes are sent again on the new one, and the modules that it
alone led to are lost (R481, R490 to R492). A module to which another path leads now is not known to be lost on that. -/
def State.bexDown (s : State) (link : Nat) : State :=
  let l := s.fabLink link
  let used := (List.range 64).filter fun m => decide (m ≠ s.fab.moduleId) && decide (s.currentLink m = some link)
  let s := s.setFabLink link { l with st := .down, fails := 0, replay := [], waiting := [], cont := {}, got := {} }
  let lost := used.filter fun m => (s.currentLink m).isNone && !s.fab.unreachable.contains m
  let s := { s with fab := { s.fab with unreachable := s.fab.unreachable.filter fun m => !(used.contains m && (s.currentLink m).isSome) } }
  let s := s.fabEvent 0x7001 0
  let s := (s.fab.ratoms.filter fun r => decide (r.link = link) && decide (r.resends = 0) && l.waiting.any fun w => decide (w.bits = r.flit)).foldl State.unsendAtom s
  let s := lost.foldl State.loseModule s
  (s.rerouteAtoms.rerouteExch).fabAdvance

/-- `LINK_REPLAY`: the sixteenth failure in a row takes the link down. -/
def execLinkReplay (link : Nat) (ok : Bool) (s : State) : Out :=
  let l := s.fabLink link
  if l.st ≠ .up then .next s
  else if ok then .next (s.setFabLink link { l with fails := 0 })
  else if 15 ≤ l.fails then .next (s.bexDown link)
  else .next (s.setFabLink link { l with fails := l.fails + 1 })

/-- `RECEIVER_LOCK_LOSS`. -/
def execReceiverLockLoss (link : Nat) (s : State) : Out := if (s.fabLink link).st = .up then .next (s.bexDown link) else .next s

/-! ## Training (R480, R483, R490, R491) -/

/-- What a fabric counter has told: FARR of its last generation and of the open one, once complete here; FEXIT; FBREAK (log entry 120). -/
def Barrier.bodies (b : Barrier) : List FabMsg :=
  match b.fab with
  | none => []
  | some id =>
    (if 0 < b.gen then [.farr b.dom id (b.gen - 1)] else []) ++ (if 0 < b.exp ∧ b.exp ≤ b.arr then [.farr b.dom id b.gen] else []) ++
      (if b.exp = 0 ∧ b.memb = 0 then [.fexit b.dom id] else []) ++ (if b.brk then [.fbreak b.dom id] else [])

/-- The whole context state goes out again: CTX of every context, PHASE of those that have ended one, and what the fabric counters have told. -/
def State.sendContexts (s : State) : State :=
  let s := foldUp 1024 s fun s dom =>
    let s := s.sendBody (.ctx dom (decide ((s.ctx dom).cst = 1)))
    let n := s.phaseOf (s.ringDie 8) dom
    -- a phase whose exchange step is under way has ended
    let ended := if s.hub.exch.contains (dom, n) then n + 1 else n
    if 0 < ended then s.sendBody (.phase dom (ended - 1)) else s
  foldUp 64 s fun s b => (s.barrier (300000 + b)).bodies.foldl State.sendBody s

/-- A training sends this module's identity body (R480). -/
def State.sendIdentity (s : State) (link : Nat) : State :=
  s.sendBody (.identity link s.fab.fabricId s.fab.moduleId s.sag.bootno ((if s.sag.compressOn then 1 else 0) + if s.sag.rawx then 2 else 0))

/-- What a training says of a module holds of every link that met it (R480: the epoch and the `RAWX` bit are the module's). -/
def State.keepPeer (s : State) (m : Nat) (epoch : BitVec 32) (rawx : Bool) : State :=
  foldUp 12 s fun s k => let l := s.fabLink k; if l.peer = some m then s.setFabLink k { l with epoch, rawx } else s

/-- A new epoch of a module ends every request to it. -/
def State.learnEpoch (s : State) (m : Nat) (epoch : BitVec 32) : State :=
  (s.fab.ratoms.filter fun r => decide (r.modl = m) && decide (r.epoch ≠ epoch)).foldl (fun s r => s.endAtom r 0 2) s

/-- `BEXWEN_RETRAIN`. -/
def execBexwenRetrain (link : Nat) (fabricId : Nat) (moduleId : Nat) (epoch : BitVec 32) (rawx : Bool) (s : State) : Out :=
  let l := s.fabLink link
  if l.st ≠ .down then .next s
  else if fabricId ≠ s.fab.fabricId || moduleId = s.fab.moduleId then
    .next (((s.sendIdentity link).setFabLink link { l with st := .disabled }).fabEvent 0x7006 0)
  else
    let up : FabLink :=
      { l with st := .up, lseq := 0, lack := 0xFFF, replay := [], waiting := [], fails := 0, peer := some moduleId, epoch, rawx, cont := {}, got := {} }
    let s := ((s.sendIdentity link).setFabLink link up).keepPeer moduleId epoch rawx
    let back (m : Nat) : Bool := decide (s.currentLink m = some link)
    let s := { s with fab := { s.fab with unreachable := s.fab.unreachable.filter fun m => !back m } }
    .next ((((s.fabEvent 0x7002 0).learnEpoch moduleId epoch).rerouteAtoms.rerouteExch.sendContexts).fabAdvance)

end Sys2Proof.Machine
end

