-- ==== Sys2Proof/Machine/Resume.lean ====
section
/-! DEFINITION. `RESUME` and `RESUME.fail` (spec/10 R282). -/
namespace Sys2Proof.Machine

/-- The Comet and port of a port identifier (R278). -/
def cometOfId (v : Nat) : Nat := 2 * (16 * fieldNat 13 3 v + fieldNat 9 4 v) + fieldNat 8 1 v

/-- The core of a port that is not a graph port: its number within the Comet's half. -/
def portCore (comet k : Nat) : Nat := 16 * (comet / 2) + 8 * (comet % 2) + k

def isGraphPort (p : Nat) : Bool := decide (p < 16) || (decide (216 ≤ p) && decide (p < 232))

/-- Retries the parked access of a port. -/
def State.retryPort (s : State) (comet p : Nat) (k : Parked) : State :=
  let s := (s.dropPage k.dom k.tid k.page).unpark comet p
  if isGraphPort p then
    let c := s.cometPort comet p
    match c.reqs.findIdx? GraphReq.held with
    | none => s
    | some n => s.graphAccess (s.portAsker comet p) p n ((c.reqs[n]?).getD {})
  else if 208 ≤ p then
    let core := portCore comet (p - 208)
    match k.fill with
    | some n => s.runFill (comet / 2) n (s.kslot (comet / 2) n)
    | none =>
      match (s.cmdq core).findIdx? (fun c => !c.translated) with
      | none => s
      | some n => s.translateAt core n (((s.cmdq core)[n]?).getD {})
  else
    let core := portCore comet ((p - 16) / 24)
    let reg := (p - 16) % 24
    let r := s.stream core reg
    let a := s.askerOf core
    if r.st = .closed then
      -- the pointer read of an `FOPEN` parks again, or goes on when the task issues again
      match s.descriptor a k.tid with
      | (.inr _, s) => s
      | (.inl t, s) =>
        match s.pageEntry a k.tid t k.page { read := true } with
        | (.inr (.park kind tid page), s) => s.parkPort a p kind tid page
        | (_, s) => s
    else s.fetchLine core reg k.values k.place

/-- The command whose part is abandoned fails; of a gather or scatter only the parked entry (R282, R297). -/
def State.abandonCmd (s : State) (core n : Nat) (c : Cmd) (entry : Nat) (r : Word) : State :=
  if c.op = .gath || c.op = .scat then s.putCmd core n { c with ents := [], bad := c.bad ++ [(entry, r)] } else s.failCmd core n c r

/-- Abandons the parked access of a port. -/
def State.abandonPort (s : State) (comet p : Nat) (k : Parked) : State :=
  if isGraphPort p then
    let s := s.unpark comet p
    let c := s.cometPort comet p
    match c.reqs.findIdx? GraphReq.held with
    | none => s
    | some n => s.failGraph (s.portAsker comet p) p n ((c.reqs[n]?).getD {}) abandonedFail
  else if 208 ≤ p then
    let core := portCore comet (p - 208)
    match k.fill with
    | some n =>
      let a := (s.kslot (comet / 2) n).asker
      (s.failFill (comet / 2) n Cause.translation (abandonedFail.record s a)).unpark comet p
    | none =>
      match (s.cmdq core).findIdx? (fun c => !c.translated) with
      | none => s.unpark comet p
      | some n =>
        let c := ((s.cmdq core)[n]?).getD {}
        (s.abandonCmd core n c k.place (abandonedFail.record s (c.asker core))).unpark comet p
  else
    let core := portCore comet ((p - 16) / 24)
    let reg := (p - 16) % 24
    let r := s.stream core reg
    if r.st = .closed then s.setCometPort comet p { s.cometPort comet p with parked := some { k with abandoned := true } }
    else (s.unpark comet p).failLine core reg k.values k.place abandonedFail

/-- `RESUME` and `RESUME.fail`. -/
def Issue.resume (i : Issue) (fail : Bool) : Done :=
  let q := Issue.predNum i.w.d
  let comet := cometOfId i.sa
  let p := i.sa % 256
  if 2 ^ 16 ≤ i.sa then i.illegal 5
  else match (i.s.cometPort comet p).parked with
    | none => .done (i.s.setPredOf i.pe q 0)
    | some k =>
      if k.abandoned then .done (i.s.setPredOf i.pe q 0)
      else .done ((if fail then i.s.abandonPort comet p k else i.s.retryPort comet p k).setPredOf i.pe q 0xFFFFFFFF)

def specResume : OpSpec := { specComet 0xE0 with mods := fun w => w.mod &&& 0b1110 = 0, d := .predOnly, a := .src, super := true }

def execResume (w : Fields) (s : State) : Out := runInstr specResume w (fun i => i.resume false) s

def execResumeFail (w : Fields) (s : State) : Out := runInstr specResume w (fun i => i.resume true) s

end Sys2Proof.Machine
end

