-- ==== Sys2Proof/Machine/Tasks.lean ====
section
/-! DEFINITION. Firings: readiness, choice, ageing, data and marker firings, suspension and realignment (spec/03 R99 to
R114), and the instructions that end or suspend one; timing detectors (spec/06 R195, R196). -/
namespace Sys2Proof.Machine

/-! ## Readiness (R99, R100) -/

/-- All declared ports from `lo` to `hi` - 1 satisfy `p`. -/
def Task.allPorts (t : Task) (lo hi : Nat) (p : Port → Bool) : Bool :=
  (firstFrom (fun k => (t.port k).declared && !p (t.port k)) lo (hi - lo)).isNone

def Task.someInput (t : Task) : Bool := (firstBelow 6 fun k => (t.port k).declared).isSome

/-- The marker values at the heads of the input ports. -/
def State.headValues (s : State) (pe : Nat) (t : Task) : List Nat :=
  ((List.range 6).filter fun k => (t.port k).declared).map fun k => (s.headOf pe (t.port k).handle).payload.toNat % 2 ^ 16

def allEqual (xs : List Nat) : Bool := match xs with | [] => true | x :: xs => xs.all (· = x)

/-- Every input holds a marker at its head. -/
def State.allMarkers (s : State) (pe : Nat) (t : Task) : Bool :=
  t.allPorts 0 6 fun q => s.dataCount pe q.handle = 0 && s.hasMarker pe q.handle

/-- Every output has at least n free slots. -/
def State.outputsFree (s : State) (pe : Nat) (t : Task) (n : Nat) : Bool := t.allPorts 6 12 fun q => decide (n ≤ s.freeOf pe q.handle)

/-- Ready for a data firing. -/
def State.dataReady (s : State) (pe : Nat) (t : Task) : Bool :=
  t.someInput && t.allPorts 0 6 (fun q => decide (q.count ≤ s.dataCount pe q.handle)) &&
    t.allPorts 6 12 (fun q => decide (q.count ≤ s.freeOf pe q.handle))

/-- Ready for a marker firing. -/
def State.markerReady (s : State) (pe : Nat) (t : Task) : Bool :=
  t.someInput && s.allMarkers pe t && s.outputsFree pe t (if allEqual (s.headValues pe t) then 1 else 2)

/-- Misaligned (R100). -/
def State.misaligned (s : State) (pe : Nat) (t : Task) : Bool :=
  t.someInput && !s.allMarkers pe t &&
    !t.allPorts 0 6 (fun q => !(s.hasMarker pe q.handle && decide (s.dataCount pe q.handle < q.count))) &&
    t.allPorts 0 6 (fun q => s.hasMarker pe q.handle || decide (q.count ≤ s.dataCount pe q.handle))

/-- A realigning task may perform its marker firing (R100 step 3). -/
def State.realignReady (s : State) (pe : Nat) (t : Task) : Bool :=
  s.allMarkers pe t && s.outputsFree pe t 1 &&
    (firstFrom (fun k => (t.port k).declared && !t.realigned.contains k) 6 6).isNone

/-! ## Choice (R103, R104) -/

/-- IDLE tasks whose conditions hold become READY, with `AGE` zero. -/
def State.refresh1 (s : State) (pe k : Nat) : State :=
  let t := s.task pe k
  if t.st = .idle && (s.dataReady pe t || s.markerReady pe t) then s.setTask pe k { t with st := .ready, age := 0, agedAt := none } else s

def State.refresh (s : State) (pe : Nat) : State := foldUp 8 s fun s k => s.refresh1 pe k

/-- The task competes under R103. -/
def State.competes (s : State) (pe k : Nat) : Bool :=
  let t := s.task pe k
  match t.st with
  | .ready | .suspended => true
  | .realign => s.realignReady pe t
  | _ => false

/-- The PE is enabled (spec/01 R48) and has no firing in progress. -/
def State.noFiring (s : State) (pe : Nat) : Bool :=
  (s.info (coreOfPe pe)).enabled &&
  (firstBelow 8 fun k => let t := s.task pe k; t.st = .firing || t.st = .marker).isNone

/-- Whether task k goes before task j in the order of R103, with `RRPTR` = r. -/
def State.goesBefore (s : State) (pe r k j : Nat) : Bool :=
  let a := s.task pe k
  let b := s.task pe j
  match a.agedAt, b.agedAt with
  | some x, some y => decide (x < y) || (decide (x = y) && decide (k < j))
  | some _, none => true
  | none, some _ => false
  | none, none =>
    decide (b.prio < a.prio) || (decide (a.prio = b.prio) && decide ((k + 15 - r) % 8 < (j + 15 - r) % 8))

/-- The task that the PE takes (R103). -/
def State.chosen (s : State) (pe : Nat) : Option Nat :=
  foldUp 8 none fun best k =>
    if s.competes pe k then
      match best with
      | none => some k
      | some j => if s.goesBefore pe (s.chooser pe).rrptr k j then some k else some j
    else best

/-- Ageing of the tasks not chosen, and of the choice itself (R104); `RRPTR`. -/
def State.noteChoice (s : State) (pe k : Nat) : State :=
  let c := s.chooser pe
  let n := c.choices + 1
  let s := foldUp 8 s fun s j =>
    let t := s.task pe j
    if j = k then s.setTask pe j { t with age := 0, agedAt := none }
    else if s.competes pe j && t.age < 7 then
      s.setTask pe j { t with age := t.age + 1, agedAt := if t.age + 1 = 7 then some n else none }
    else s
  (s.setChooser pe { rrptr := k, choices := n }).touch (coreOfPe pe)

/-! ## Data firings (R101) -/

/-- Zeroes the window slots of an output. -/
def State.clearWindow (s : State) (pe : Nat) (h : Handle) (k : Nat) : Nat → State
  | 0 => s
  | n + 1 => (s.setSlotOf pe (h.slotAt k) {}).clearWindow pe h (k + 1) n

/-- Taints the task with the poison tokens of one input window, in ascending order (R189). -/
def State.taintWindow (s : State) (pe : Nat) (h : Handle) (t : Task) (k : Nat) : Nat → Task
  | 0 => t
  | n + 1 =>
    let tok := s.slotOf pe (h.slotAt k)
    s.taintWindow pe h (if tok.poison then t.taint tok.payload else t) (k + 1) n

/-- Begins a data firing: windows, `ADVP`, `PC`, taint (R101, R105, R189). -/
def State.beginData (s : State) (pe k : Nat) : State :=
  let t := s.task pe k
  let t := foldUp 6 t fun t p =>
    let q := t.port p
    if q.declared then s.taintWindow pe (s.handle pe q.handle) t 0 q.count else t
  let s := foldUp 6 s fun s p =>
    let q := t.port (6 + p)
    if q.declared then s.clearWindow pe (s.handle pe q.handle) 0 q.count else s
  s.setTask pe k { t with st := .firing, pc := t.entry, ret := none, advp := {}, barp := none, wait := .none, serial := t.serial + 1 }

/-- `DATA_FIRING_START`: the PE's choice is a READY task whose data condition holds. -/
def execDataFiringStart (pe : Nat) (s : State) : Out :=
  let r := s.refresh pe
  if s.noFiring pe then
    match r.chosen pe with
    | some k => if (r.task pe k).st = .ready && r.dataReady pe (r.task pe k) then .next ((r.noteChoice pe k).beginData pe k) else .next s
    | none => .next s
  else .next s

/-- `SUSPENDED_RESUME` (R112). -/
def execSuspendedResume (pe : Nat) (s : State) : Out :=
  let r := s.refresh pe
  if s.noFiring pe then
    match r.chosen pe with
    | some k =>
      if (r.task pe k).st = .suspended then
        let s := r.noteChoice pe k
        .next (s.setTask pe k { s.task pe k with st := .firing })
      else .next s
    | none => .next s
  else .next s

/-! ## Marker firings (R108) -/

/-- Consumes the marker at the head of every input port. -/
def State.takeMarkers (s : State) (pe k : Nat) : State :=
  let t := s.task pe k
  foldUp 6 s fun s p => if (t.port p).declared then s.consume1 pe (t.port p).handle else s

/-- Emits a marker on every output port, after the poison token if one is given. -/
def State.emitMarkers (s : State) (pe k v : Nat) (poison : Option Word) : State :=
  let t := s.task pe k
  foldUp 6 s fun s p =>
    let q := t.port (6 + p)
    if q.declared then
      let s := match poison with | some r => s.publishPoison pe k q.handle r | none => s
      s.publish pe q.handle { payload := BitVec.ofNat 256 v, mark := true }
    else s

/-- Performs the marker firing of task k; a realigning task has emitted its poison before (R100, R108). -/
def State.fireMarker (s : State) (pe k : Nat) : State :=
  let t := s.task pe k
  let vs := s.headValues pe t
  let v := vs.foldl Nat.max 0
  let r := s.taskRecord pe k t.pc Cause.rateMismatch 0
  let poison := if allEqual vs || t.st = .realign then none else some r
  let s := (s.takeMarkers pe k).emitMarkers pe k v poison
  s.setTask pe k { s.task pe k with
    st := .idle, lc0 := 0, lc1 := 0, lc2 := 0, ret := none, advp := {}, barp := none, prec := none, ps := false
    realigned := [], lastMarker := some (BitVec.ofNat 16 v), wait := .none }

/-- `MARKER_FIRING`: the PE's choice fires its marker, or ends a realignment. -/
def execMarkerFiring (pe : Nat) (s : State) : Out :=
  let r := s.refresh pe
  if s.noFiring pe then
    match r.chosen pe with
    | some k =>
      let t := r.task pe k
      if t.st = .realign || (t.st = .ready && r.markerReady pe t) then .next ((r.noteChoice pe k).fireMarker pe k) else .next s
    | none => .next s
  else .next s

/-! ## Realignment (R100) -/

def execRealignStart (pe : Nat) (slot : Nat) (s : State) : Out :=
  let t := s.task pe slot
  if t.st = .idle && s.misaligned pe t then
    .next (s.setTask pe slot { t with st := .realign, realigned := [], age := 0, agedAt := none })
  else .next s

/-- Discards a data token at an input head; the record of a poison token goes to the core's trap port. -/
def execRealignDiscard (pe : Nat) (slot : Nat) (port : Nat) (s : State) : Out :=
  let t := s.task pe slot
  let q := t.port port
  let h := s.handle pe q.handle
  let tok := s.headOf pe q.handle
  if t.st = .realign && decide (port < 6) && q.declared && decide (0 < h.cnt) && !tok.mark then
    let s := (s.consume1 pe q.handle).touch (coreOfPe pe)
    .next (if tok.poison then s.corePost (coreOfPe pe) tok.payload else s)
  else .next s

def execRealignPoisonEmit (pe : Nat) (slot : Nat) (port : Nat) (s : State) : Out :=
  let t := s.task pe slot
  let q := t.port port
  if t.st = .realign && decide (6 ≤ port) && decide (port < 12) && q.declared && !t.realigned.contains port && decide (1 ≤ s.freeOf pe q.handle) then
    let r := s.taskRecord pe slot t.pc Cause.rateMismatch 0
    let s := (s.publishPoison pe slot q.handle r).touch (coreOfPe pe)
    .next (s.setTask pe slot { s.task pe slot with realigned := port :: t.realigned })
  else .next s

/-! ## Instructions that end, suspend or poison a firing -/

/-- An unassigned opcode (spec/01 R12, R27). -/
def execIllegalOp (op : BitVec 8) (w : Fields) (s : State) : Out :=
  match s.firingSlot s.cur with
  | none => .next s
  | some k => .next ((s.emit s.cur k Cause.illegalOp op.toNat).sequence s.cur k op w)

/-- A literal entry ends the firing and completes its windows (spec/03 R111). -/
def execExecLiteral (_ : Tiw) (s : State) : Out :=
  match s.firingSlot s.cur with
  | none => .next s
  | some k => .next (((s.emit s.cur k Cause.execLiteral 0).endFiring s.cur k Cause.execLiteral).touch (coreOfPe s.cur))

/-- `YIELD` (spec/04 R147). -/
def execYield (w : Fields) (s : State) : Out :=
  runInstr { op := 0xF6, perLane := false, noDone := true } w
    (fun i => .done (i.s.setTask i.pe i.slot { i.s.task i.pe i.slot with st := .suspended, age := 0, agedAt := none })) s

/-- `TRAP` (spec/04 R145). -/
def execTrap (w : Fields) (s : State) : Out :=
  runUnit { op := 0xEC, perLane := false } w (fun i => { poison := some (Cause.userTrap, 0, i.imm % 2 ^ 16) }) s

/-! ## Timing detectors (spec/06 R195, R196) -/

/-- A flag: the stamps of the last two, and permanent half-rate when it comes within 2^20 cycles of the older. -/
def Detector.flag (d : Detector) (now : Nat) : Detector :=
  let old := match d.flags with | [_, x] => decide (now ≤ x + 2 ^ 20) | _ => false
  { flags := (now :: d.flags).take 2, half := d.half || old }

/-- The event a flag logs, if any: 0x2003 in half-rate, 0x2004 on entering it. -/
def Detector.event (d : Detector) (now : Nat) : Option (Nat × Bool) :=
  if d.half then some (0x2003, false) else if (d.flag now).half then some (0x2004, true) else none

/-- The origin of a PE's event: its firing's slot and entry, while it holds one (R187, R197). -/
def State.firingOrigin (s : State) (pe : Nat) : Origin :=
  match s.firingSlot pe with
  | some k => s.coreOrigin 0 (coreOfPe pe) (pe % 16) k (s.task pe k).pc.toNat
  | none => s.coreOrigin 0 (coreOfPe pe) (pe % 16)

/-- `TIMING_DETECTOR_FLAG`: kind 0 a PE, 1 a bank ALU (32·core + bank), 2 a Kiln. The repeat costs time alone. The manual gives a bank ALU
no `OKIND`: it is 2 here, a memory node's; and an idle Kiln no domain: `DOM` is 0 here (log entry 103). -/
def execTimingDetectorFlag (kind : Nat) (unit : Nat) (s : State) : Out :=
  let log := fun (s : State) (o : Origin) (e : Option (Nat × Bool)) =>
    match e with
    | none => s
    | some (code, always) =>
      s.logEvent o.die code (bitsOf 176 40 (s.record 0 o)) o.dom (packFields [(4, o.elem), (4, o.core), (4, o.clu), (3, o.die)]) always
  match kind with
  | 0 =>
    let d := s.peDetector unit
    .next (log (s.setPeDetector unit (d.flag s.now)) (s.firingOrigin unit) (d.event s.now))
  | 1 =>
    let d := s.bankDetector unit
    .next (log (s.setBankDetector unit (d.flag s.now)) (s.coreOrigin 2 (unit / 32) (Config.openValue 1 (unit % 32) % 16)) (d.event s.now))
  | _ =>
    let d := s.kilnDetector unit
    let o := clusterOrigin 5 (unit / 4) (unit % 4) ((s.kiln unit).elim 0 fun t => t.rec_.dom) 0
    .next (log (s.setKilnDetector unit (d.flag s.now)) o (d.event s.now))

end Sys2Proof.Machine
end

