-- ==== Sys2Proof/Machine/Dispatch.lean ====
section
/-! DEFINITION. One arm per constructor of `Instr`, each one call of its meaning. -/
namespace Sys2Proof.Machine

def exec (i : Instr) (s : State) : Host.Outcome State Fault Refusal :=
  match i with
  | .nop w => Sys2Proof.Machine.execNop w s
  | .mov w => Sys2Proof.Machine.execMov w s
  | .ldi w => Sys2Proof.Machine.execLdi w s
  | .ldih w => Sys2Proof.Machine.execLdih w s
  | .ldl w => Sys2Proof.Machine.execLdl w s
  | .lea w => Sys2Proof.Machine.execLea w s
  | .add w => Sys2Proof.Machine.execAdd w s
  | .addc w => Sys2Proof.Machine.execAddc w s
  | .sub w => Sys2Proof.Machine.execSub w s
  | .subb w => Sys2Proof.Machine.execSubb w s
  | .neg w => Sys2Proof.Machine.execNeg w s
  | .abs w => Sys2Proof.Machine.execAbs w s
  | .min w => Sys2Proof.Machine.execMin w s
  | .max w => Sys2Proof.Machine.execMax w s
  | .clamp w => Sys2Proof.Machine.execClamp w s
  | .mul w => Sys2Proof.Machine.execMul w s
  | .mulh w => Sys2Proof.Machine.execMulh w s
  | .mad w => Sys2Proof.Machine.execMad w s
  | .div w => Sys2Proof.Machine.execDiv w s
  | .rem w => Sys2Proof.Machine.execRem w s
  | .adds w => Sys2Proof.Machine.execAdds w s
  | .subs w => Sys2Proof.Machine.execSubs w s
  | .avg w => Sys2Proof.Machine.execAvg w s
  | .absd w => Sys2Proof.Machine.execAbsd w s
  | .sad w => Sys2Proof.Machine.execSad w s
  | .wmul w => Sys2Proof.Machine.execWmul w s
  | .wadd w => Sys2Proof.Machine.execWadd w s
  | .doti w => Sys2Proof.Machine.execDoti w s
  | .and w => Sys2Proof.Machine.execAnd w s
  | .or w => Sys2Proof.Machine.execOr w s
  | .xor w => Sys2Proof.Machine.execXor w s
  | .andn w => Sys2Proof.Machine.execAndn w s
  | .orn w => Sys2Proof.Machine.execOrn w s
  | .shl w => Sys2Proof.Machine.execShl w s
  | .shr w => Sys2Proof.Machine.execShr w s
  | .sar w => Sys2Proof.Machine.execSar w s
  | .rol w => Sys2Proof.Machine.execRol w s
  | .bfx w => Sys2Proof.Machine.execBfx w s
  | .bfi w => Sys2Proof.Machine.execBfi w s
  | .popc w => Sys2Proof.Machine.execPopc w s
  | .clz w => Sys2Proof.Machine.execClz w s
  | .ctz w => Sys2Proof.Machine.execCtz w s
  | .brev w => Sys2Proof.Machine.execBrev w s
  | .cmp w => Sys2Proof.Machine.execCmp w s
  | .sel w => Sys2Proof.Machine.execSel w s
  | .sext w => Sys2Proof.Machine.execSext w s
  | .zext w => Sys2Proof.Machine.execZext w s
  | .packs w => Sys2Proof.Machine.execPacks w s
  | .qand w => Sys2Proof.Machine.execQand w s
  | .qor w => Sys2Proof.Machine.execQor w s
  | .qxor w => Sys2Proof.Machine.execQxor w s
  | .qnot w => Sys2Proof.Machine.execQnot w s
  | .qmov w => Sys2Proof.Machine.execQmov w s
  | .qany w => Sys2Proof.Machine.execQany w s
  | .lcset w => Sys2Proof.Machine.execLcset w s
  | .lcget w => Sys2Proof.Machine.execLcget w s
  | .fadd w => Sys2Proof.Machine.execFadd w s
  | .fsub w => Sys2Proof.Machine.execFsub w s
  | .fmul w => Sys2Proof.Machine.execFmul w s
  | .fma w => Sys2Proof.Machine.execFma w s
  | .fms w => Sys2Proof.Machine.execFms w s
  | .fnma w => Sys2Proof.Machine.execFnma w s
  | .fnms w => Sys2Proof.Machine.execFnms w s
  | .fdiv w => Sys2Proof.Machine.execFdiv w s
  | .fmin w => Sys2Proof.Machine.execFmin w s
  | .fmax w => Sys2Proof.Machine.execFmax w s
  | .fminn w => Sys2Proof.Machine.execFminn w s
  | .fmaxn w => Sys2Proof.Machine.execFmaxn w s
  | .fabs w => Sys2Proof.Machine.execFabs w s
  | .fneg w => Sys2Proof.Machine.execFneg w s
  | .fcpys w => Sys2Proof.Machine.execFcpys w s
  | .fcmp w => Sys2Proof.Machine.execFcmp w s
  | .fclass w => Sys2Proof.Machine.execFclass w s
  | .frint w => Sys2Proof.Machine.execFrint w s
  | .fdot w => Sys2Proof.Machine.execFdot w s
  | .vred w => Sys2Proof.Machine.execVred w s
  | .vscan w => Sys2Proof.Machine.execVscan w s
  | .vperm w => Sys2Proof.Machine.execVperm w s
  | .vshuf w => Sys2Proof.Machine.execVshuf w s
  | .vbcast w => Sys2Proof.Machine.execVbcast w s
  | .vsel w => Sys2Proof.Machine.execVsel w s
  | .vins w => Sys2Proof.Machine.execVins w s
  | .vext w => Sys2Proof.Machine.execVext w s
  | .vrot w => Sys2Proof.Machine.execVrot w s
  | .vcmpr w => Sys2Proof.Machine.execVcmpr w s
  | .vexpd w => Sys2Proof.Machine.execVexpd w s
  | .vzip w => Sys2Proof.Machine.execVzip w s
  | .vunzip w => Sys2Proof.Machine.execVunzip w s
  | .vsort w => Sys2Proof.Machine.execVsort w s
  | .viota w => Sys2Proof.Machine.execViota w s
  | .vmask w => Sys2Proof.Machine.execVmask w s
  | .cvt w => Sys2Proof.Machine.execCvt w s
  | .cvtfi w => Sys2Proof.Machine.execCvtfi w s
  | .cvtif w => Sys2Proof.Machine.execCvtif w s
  | .lgenc w => Sys2Proof.Machine.execLgenc w s
  | .lgdec w => Sys2Proof.Machine.execLgdec w s
  | .lgmul w => Sys2Proof.Machine.execLgmul w s
  | .t5pack w => Sys2Proof.Machine.execT5pack w s
  | .t5unpk w => Sys2Proof.Machine.execT5unpk w s
  | .rcp w => Sys2Proof.Machine.execRcp w s
  | .rsq w => Sys2Proof.Machine.execRsq w s
  | .sqrt w => Sys2Proof.Machine.execSqrt w s
  | .exp2 w => Sys2Proof.Machine.execExp2 w s
  | .lg2 w => Sys2Proof.Machine.execLg2 w s
  | .sinpi w => Sys2Proof.Machine.execSinpi w s
  | .cospi w => Sys2Proof.Machine.execCospi w s
  | .tanh w => Sys2Proof.Machine.execTanh w s
  | .erf w => Sys2Proof.Machine.execErf w s
  | .amaxv w => Sys2Proof.Machine.execAmaxv w s
  | .fscaleb w => Sys2Proof.Machine.execFscaleb w s
  | .fgetexp w => Sys2Proof.Machine.execFgetexp w s
  | .ld w => Sys2Proof.Machine.execLd w s
  | .st w => Sys2Proof.Machine.execSt w s
  | .ldv w => Sys2Proof.Machine.execLdv w s
  | .stv w => Sys2Proof.Machine.execStv w s
  | .atom w => Sys2Proof.Machine.execAtom w s
  | .atomr w => Sys2Proof.Machine.execAtomr w s
  | .cas w => Sys2Proof.Machine.execCas w s
  | .hins w => Sys2Proof.Machine.execHins w s
  | .copy w => Sys2Proof.Machine.execCopy w s
  | .fill w => Sys2Proof.Machine.execFill w s
  | .fence w => Sys2Proof.Machine.execFence w s
  | .adv w => Sys2Proof.Machine.execAdv w s
  | .emit w => Sys2Proof.Machine.execEmit w s
  | .emitm w => Sys2Proof.Machine.execEmitm w s
  | .testm w => Sys2Proof.Machine.execTestm w s
  | .nxtile w => Sys2Proof.Machine.execNxtile w s
  | .sopen w => Sys2Proof.Machine.execSopen w s
  | .sadv w => Sys2Proof.Machine.execSadv w s
  | .stend w => Sys2Proof.Machine.execStend w s
  | .sclose w => Sys2Proof.Machine.execSclose w s
  | .sread w => Sys2Proof.Machine.execSread w s
  | .fopen w => Sys2Proof.Machine.execFopen w s
  | .fadv w => Sys2Proof.Machine.execFadv w s
  | .ftend w => Sys2Proof.Machine.execFtend w s
  | .fclose w => Sys2Proof.Machine.execFclose w s
  | .fisect w => Sys2Proof.Machine.execFisect w s
  | .fisectc w => Sys2Proof.Machine.execFisectc w s
  | .tclaim w => Sys2Proof.Machine.execTclaim w s
  | .trel w => Sys2Proof.Machine.execTrel w s
  | .tfill w => Sys2Proof.Machine.execTfill w s
  | .ttask w => Sys2Proof.Machine.execTtask w s
  | .twait w => Sys2Proof.Machine.execTwait w s
  | .tstat w => Sys2Proof.Machine.execTstat w s
  | .scacc w => Sys2Proof.Machine.execScacc w s
  | .scale w => Sys2Proof.Machine.execScale w s
  | .ovfcfg w => Sys2Proof.Machine.execOvfcfg w s
  | .tdep w => Sys2Proof.Machine.execTdep w s
  | .tdepAdd w => Sys2Proof.Machine.execTdepAdd w s
  | .cpy w => Sys2Proof.Machine.execCpy w s
  | .gath w => Sys2Proof.Machine.execGath w s
  | .scat w => Sys2Proof.Machine.execScat w s
  | .fgrd w => Sys2Proof.Machine.execFgrd w s
  | .fgwr w => Sys2Proof.Machine.execFgwr w s
  | .xchg w => Sys2Proof.Machine.execXchg w s
  | .xchgRaw w => Sys2Proof.Machine.execXchgRaw w s
  | .ratom w => Sys2Proof.Machine.execRatom w s
  | .cwait w => Sys2Proof.Machine.execCwait w s
  | .resume w => Sys2Proof.Machine.execResume w s
  | .resumeFail w => Sys2Proof.Machine.execResumeFail w s
  | .pref w => Sys2Proof.Machine.execPref w s
  | .bara w => Sys2Proof.Machine.execBara w s
  | .barw w => Sys2Proof.Machine.execBarw w s
  | .barwT w => Sys2Proof.Machine.execBarwT w s
  | .barex w => Sys2Proof.Machine.execBarex w s
  | .launch w => Sys2Proof.Machine.execLaunch w s
  | .trap w => Sys2Proof.Machine.execTrap w s
  | .csrr w => Sys2Proof.Machine.execCsrr w s
  | .csrw w => Sys2Proof.Machine.execCsrw w s
  | .evlog w => Sys2Proof.Machine.execEvlog w s
  | .mext w => Sys2Proof.Machine.execMext w s
  | .attest w => Sys2Proof.Machine.execAttest w s
  | .sagvfyUnlock w => Sys2Proof.Machine.execSagvfyUnlock w s
  | .sagvfyManifest w => Sys2Proof.Machine.execSagvfyManifest w s
  | .keywipe w => Sys2Proof.Machine.execKeywipe w s
  | .keywipeAll w => Sys2Proof.Machine.execKeywipeAll w s
  | .dbgopen w => Sys2Proof.Machine.execDbgopen w s
  | .fuserd w => Sys2Proof.Machine.execFuserd w s
  | .yield w => Sys2Proof.Machine.execYield w s
  | .wdog w => Sys2Proof.Machine.execWdog w s
  | .illegalOp op w => Sys2Proof.Machine.execIllegalOp op w s
  | .execLiteral data => Sys2Proof.Machine.execExecLiteral data s
  | .dataFiringStart pe => Sys2Proof.Machine.execDataFiringStart pe s
  | .markerFiring pe => Sys2Proof.Machine.execMarkerFiring pe s
  | .suspendedResume pe => Sys2Proof.Machine.execSuspendedResume pe s
  | .realignStart pe slot => Sys2Proof.Machine.execRealignStart pe slot s
  | .realignDiscard pe slot port => Sys2Proof.Machine.execRealignDiscard pe slot port s
  | .realignPoisonEmit pe slot port => Sys2Proof.Machine.execRealignPoisonEmit pe slot port s
  | .timingDetectorFlag kind unit => Sys2Proof.Machine.execTimingDetectorFlag kind unit s
  | .localPortDeliver router => Sys2Proof.Machine.execLocalPortDeliver router s
  | .localPortTake router => Sys2Proof.Machine.execLocalPortTake router s
  | .routeHop router out port => Sys2Proof.Machine.execRouteHop router out port s
  | .elementPortTransfer router dir => Sys2Proof.Machine.execElementPortTransfer router dir s
  | .passFiring router slot => Sys2Proof.Machine.execPassFiring router slot s
  | .steerFiring router slot => Sys2Proof.Machine.execSteerFiring router slot s
  | .mergeFiring router slot => Sys2Proof.Machine.execMergeFiring router slot s
  | .forkFiring router slot => Sys2Proof.Machine.execForkFiring router slot s
  | .joinFiring router slot => Sys2Proof.Machine.execJoinFiring router slot s
  | .gateFiring router slot => Sys2Proof.Machine.execGateFiring router slot s
  | .filterFiring router slot => Sys2Proof.Machine.execFilterFiring router slot s
  | .operatorMarkerFiring router slot => Sys2Proof.Machine.execOperatorMarkerFiring router slot s
  | .operatorRealignDiscard router slot => Sys2Proof.Machine.execOperatorRealignDiscard router slot s
  | .carryFiring router slot => Sys2Proof.Machine.execCarryFiring router slot s
  | .irepFiring router slot => Sys2Proof.Machine.execIrepFiring router slot s
  | .loopgenLoad router slot => Sys2Proof.Machine.execLoopgenLoad router slot s
  | .loopgenEmit router slot => Sys2Proof.Machine.execLoopgenEmit router slot s
  | .sinkFiring router slot => Sys2Proof.Machine.execSinkFiring router slot s
  | .mcutPass router slot => Sys2Proof.Machine.execMcutPass router slot s
  | .mcutGatingRequest router slot => Sys2Proof.Machine.execMcutGatingRequest router slot s
  | .mcutRelease router slot => Sys2Proof.Machine.execMcutRelease router slot s
  | .memnodeAccept node port => Sys2Proof.Machine.execMemnodeAccept node port s
  | .memnodePerform node index => Sys2Proof.Machine.execMemnodePerform node index s
  | .memnodeResultEmit node port => Sys2Proof.Machine.execMemnodeResultEmit node port s
  | .memnodeMarker node port => Sys2Proof.Machine.execMemnodeMarker node port s
  | .memnodePairRealign node pair => Sys2Proof.Machine.execMemnodePairRealign node pair s
  | .poolEccWriteback core word => Sys2Proof.Machine.execPoolEccWriteback core word s
  | .agenSweepStart agen => Sys2Proof.Machine.execAgenSweepStart agen s
  | .agenTrigger agen => Sys2Proof.Machine.execAgenTrigger agen s
  | .agenEmit agen => Sys2Proof.Machine.execAgenEmit agen s
  | .agenGatingRequest agen => Sys2Proof.Machine.execAgenGatingRequest agen s
  | .glazeAccept core => Sys2Proof.Machine.execGlazeAccept core s
  | .glazeOutput core => Sys2Proof.Machine.execGlazeOutput core s
  | .barrierPerform index => Sys2Proof.Machine.execBarrierPerform index s
  | .trapQueueWrite => Sys2Proof.Machine.execTrapQueueWrite s
  | .cometAccess comet port index => Sys2Proof.Machine.execCometAccess comet port index s
  | .graphPortAccept comet port => Sys2Proof.Machine.execGraphPortAccept comet port s
  | .graphPortResult comet port => Sys2Proof.Machine.execGraphPortResult comet port s
  | .cometCommandPerform core index => Sys2Proof.Machine.execCometCommandPerform core index s
  | .streamFetch core reg half => Sys2Proof.Machine.execStreamFetch core reg half s
  | .streamFetchReturn core reg half line => Sys2Proof.Machine.execStreamFetchReturn core reg half line s
  | .gatherUnitServe stack => Sys2Proof.Machine.execGatherUnitServe stack s
  | .kilnSubtileIssue cluster => Sys2Proof.Machine.execKilnSubtileIssue cluster s
  | .kilnRecordFailReady cluster => Sys2Proof.Machine.execKilnRecordFailReady cluster s
  | .kilnSubtileStart kiln => Sys2Proof.Machine.execKilnSubtileStart kiln s
  | .kilnStep kiln => Sys2Proof.Machine.execKilnStep kiln s
  | .kilnSpillEnd kiln => Sys2Proof.Machine.execKilnSpillEnd kiln s
  | .kilnDrain kiln => Sys2Proof.Machine.execKilnDrain kiln s
  | .kilnRecordComplete cluster index => Sys2Proof.Machine.execKilnRecordComplete cluster index s
  | .kilnSubtileMigrate cluster => Sys2Proof.Machine.execKilnSubtileMigrate cluster s
  | .tfillSourceCheck cluster slot => Sys2Proof.Machine.execTfillSourceCheck cluster slot s
  | .tfillComplete cluster slot => Sys2Proof.Machine.execTfillComplete cluster slot s
  | .meshFlitHop router out => Sys2Proof.Machine.execMeshFlitHop router out s
  | .packetAgePromote router input vc => Sys2Proof.Machine.execPacketAgePromote router input vc s
  | .meshCrcReplay router dir ok => Sys2Proof.Machine.execMeshCrcReplay router dir ok s
  | .controllerRead controller => Sys2Proof.Machine.execControllerRead controller s
  | .parityRebuild line => Sys2Proof.Machine.execParityRebuild line s
  | .controllerWrite controller => Sys2Proof.Machine.execControllerWrite controller s
  | .parityUpdate index => Sys2Proof.Machine.execParityUpdate index s
  | .tagUe code unit => Sys2Proof.Machine.execTagUe code unit s
  | .loaderFrameRead cluster => Sys2Proof.Machine.execLoaderFrameRead cluster s
  | .configCacheLookup cluster => Sys2Proof.Machine.execConfigCacheLookup cluster s
  | .quiescenceSweep die => Sys2Proof.Machine.execQuiescenceSweep die s
  | .dieHeartbeat die => Sys2Proof.Machine.execDieHeartbeat die s
  | .heartbeatMissing die => Sys2Proof.Machine.execHeartbeatMissing die s
  | .deadlockTimeout die dom disp => Sys2Proof.Machine.execDeadlockTimeout die dom disp s
  | .watchdogExpiry die dom => Sys2Proof.Machine.execWatchdogExpiry die dom s
  | .hubTick => Sys2Proof.Machine.execHubTick s
  | .launchNoticeApply die => Sys2Proof.Machine.execLaunchNoticeApply die s
  | .tickNoticeApply die => Sys2Proof.Machine.execTickNoticeApply die s
  | .loadedNoticeApply die => Sys2Proof.Machine.execLoadedNoticeApply die s
  | .endedNoticeApply die => Sys2Proof.Machine.execEndedNoticeApply die s
  | .savedNoticeApply die => Sys2Proof.Machine.execSavedNoticeApply die s
  | .committedNoticeApply die => Sys2Proof.Machine.execCommittedNoticeApply die s
  | .errorNoticeApply die => Sys2Proof.Machine.execErrorNoticeApply die s
  | .preemptNoticeApply die => Sys2Proof.Machine.execPreemptNoticeApply die s
  | .resumeNoticeApply die => Sys2Proof.Machine.execResumeNoticeApply die s
  | .killNoticeApply die => Sys2Proof.Machine.execKillNoticeApply die s
  | .killDrainEnd die dom disp => Sys2Proof.Machine.execKillDrainEnd die dom disp s
  | .watchdogNoticeApply die => Sys2Proof.Machine.execWatchdogNoticeApply die s
  | .digestNoticeApply => Sys2Proof.Machine.execDigestNoticeApply s
  | .csrNoticeApply die => Sys2Proof.Machine.execCsrNoticeApply die s
  | .phaseNoticeApply die => Sys2Proof.Machine.execPhaseNoticeApply die s
  | .histNoticeApply die => Sys2Proof.Machine.execHistNoticeApply die s
  | .dieLossApply die => Sys2Proof.Machine.execDieLossApply die s
  | .linkSplitApply die => Sys2Proof.Machine.execLinkSplitApply die s
  | .wheelHistogramRead dom disp => Sys2Proof.Machine.execWheelHistogramRead dom disp s
  | .saveAreaAllocate => Sys2Proof.Machine.execSaveAreaAllocate s
  | .saveRecordWrite die dom disp => Sys2Proof.Machine.execSaveRecordWrite die dom disp s
  | .commitWrite die dom disp => Sys2Proof.Machine.execCommitWrite die dom disp s
  | .exchangeStep dom => Sys2Proof.Machine.execExchangeStep dom s
  | .launchrWrite func value => Sys2Proof.Machine.execLaunchrWrite func value s
  | .lstatClear func value => Sys2Proof.Machine.execLstatClear func value s
  | .mbCreate func => Sys2Proof.Machine.execMbCreate func s
  | .mbDestroy func => Sys2Proof.Machine.execMbDestroy func s
  | .mbPreempt func => Sys2Proof.Machine.execMbPreempt func s
  | .mbResume func => Sys2Proof.Machine.execMbResume func s
  | .mbKill func => Sys2Proof.Machine.execMbKill func s
  | .mbAssign func => Sys2Proof.Machine.execMbAssign func s
  | .mbQueryBootEntry func => Sys2Proof.Machine.execMbQueryBootEntry func s
  | .mbQueryExcluded func => Sys2Proof.Machine.execMbQueryExcluded func s
  | .mbClrboot func => Sys2Proof.Machine.execMbClrboot func s
  | .mbSupcfg func => Sys2Proof.Machine.execMbSupcfg func s
  | .mbDoorbellBusy func => Sys2Proof.Machine.execMbDoorbellBusy func s
  | .windowRead func offset length => Sys2Proof.Machine.execWindowRead func offset length s
  | .windowWrite func offset bytes => Sys2Proof.Machine.execWindowWrite func offset bytes s
  | .registerPageBadAccess func offset size write => Sys2Proof.Machine.execRegisterPageBadAccess func offset size write s
  | .registerWrite func offset value => Sys2Proof.Machine.execRegisterWrite func offset value s
  | .flr func => Sys2Proof.Machine.execFlr func s
  | .linkLoss => Sys2Proof.Machine.execLinkLoss s
  | .linkRetrain => Sys2Proof.Machine.execLinkRetrain s
  | .linkHoldExpiry => Sys2Proof.Machine.execLinkHoldExpiry s
  | .hotReset => Sys2Proof.Machine.execHotReset s
  | .coldStart => Sys2Proof.Machine.execColdStart s
  | .warmReset => Sys2Proof.Machine.execWarmReset s
  | .bootStepTimeout bootStep unit => Sys2Proof.Machine.execBootStepTimeout bootStep unit s
  | .pldmDiscovery => Sys2Proof.Machine.execPldmDiscovery s
  | .pldmSensorRead sensor => Sys2Proof.Machine.execPldmSensorRead sensor s
  | .pldmFirmwareUpdate component image manifest parity => Sys2Proof.Machine.execPldmFirmwareUpdate component image manifest parity s
  | .blackBoxRead ring index => Sys2Proof.Machine.execBlackBoxRead ring index s
  | .bootRecordRead index => Sys2Proof.Machine.execBootRecordRead index s
  | .startCounterWrite value => Sys2Proof.Machine.execStartCounterWrite value s
  | .peerEpochRead link => Sys2Proof.Machine.execPeerEpochRead link s
  | .sidebandAttest nonce => Sys2Proof.Machine.execSidebandAttest nonce s
  | .fabricMapWrite fabricId moduleId entries => Sys2Proof.Machine.execFabricMapWrite fabricId moduleId entries s
  | .vendorProvision => Sys2Proof.Machine.execVendorProvision s
  | .saggarAttestServe => Sys2Proof.Machine.execSaggarAttestServe s
  | .saggarVerifyServe => Sys2Proof.Machine.execSaggarVerifyServe s
  | .saggarMextServe => Sys2Proof.Machine.execSaggarMextServe s
  | .thermalThrottle die => Sys2Proof.Machine.execThermalThrottle die s
  | .thermalShutdown die => Sys2Proof.Machine.execThermalShutdown die s
  | .linkFrameReceive link frame => Sys2Proof.Machine.execLinkFrameReceive link frame s
  | .linkReplay link ok => Sys2Proof.Machine.execLinkReplay link ok s
  | .bexwenRetrain link fabricId moduleId epoch rawx => Sys2Proof.Machine.execBexwenRetrain link fabricId moduleId epoch rawx s
  | .ctxBody member dom active => Sys2Proof.Machine.execCtxBody member dom active s
  | .phaseBody member dom phase => Sys2Proof.Machine.execPhaseBody member dom phase s
  | .farrBody member dom bar gen => Sys2Proof.Machine.execFarrBody member dom bar gen s
  | .fexitBody member dom bar => Sys2Proof.Machine.execFexitBody member dom bar s
  | .fbreakBody member dom bar => Sys2Proof.Machine.execFbreakBody member dom bar s
  | .remoteExchangeWrite smod dom tid offset bytes raw form => Sys2Proof.Machine.execRemoteExchangeWrite smod dom tid offset bytes raw form s
  | .remoteAtomicRequest flit => Sys2Proof.Machine.execRemoteAtomicRequest flit s
  | .remoteAtomicResponse flit => Sys2Proof.Machine.execRemoteAtomicResponse flit s
  | .ratomResendTimeout index => Sys2Proof.Machine.execRatomResendTimeout index s
  | .moduleUnreachable member => Sys2Proof.Machine.execModuleUnreachable member s
  | .receiverLockLoss link => Sys2Proof.Machine.execReceiverLockLoss link s
  | .saggarPowerLoss => Sys2Proof.Machine.execSaggarPowerLoss s
  | .pldmPowerDown => Sys2Proof.Machine.execPldmPowerDown s
  | .productionFusing => Sys2Proof.Machine.execProductionFusing s
  | .rmaToken token => Sys2Proof.Machine.execRmaToken token s

end Sys2Proof.Machine
end

