-- ==== Sys2Proof/WellFormed.lean ====
section
/-! DEFINITION. Which terms of `Instr` are instructions of the machine: a variant row carries the bit that selects it,
an unassigned opcode is one of R27, and a unit number names a unit of the package (spec/00 R4 to R7, spec/01 R28). -/
namespace Sys2Proof

/-- The opcode values of R27. -/
def unassigned (op : Nat) : Bool :=
  (0x38 ≤ op && op < 0x40) || (0x63 ≤ op && op < 0x80) || (0x94 ≤ op && op < 0xA0) || (0xBB ≤ op && op < 0xC0) ||
  (0xCA ≤ op && op < 0xD8) || (0xE2 ≤ op && op < 0xE8) || (0xF8 ≤ op && op < 0x100)

/-- The object that `SAGVFY` names, `IMM`[3:0] (spec/04 R149): 1 is a manifest. -/
def Fields.manifest (w : Fields) : Bool := w.x.extractLsb' 0 4 = 1#4

/-- A structure of R406 that has an occupancy list: its code, and the unit that holds it, a core, a cluster (also as the home of a
memory controller), a stack, a die or the hub (spec/14 R406). -/
def tagStructure (code unit : Nat) : Bool :=
  if 1 ≤ code && code ≤ 5 then unit < 2048 else if 8 ≤ code && code ≤ 0x0C then unit < 128
  else if code = 0x0D then unit < 24 else if code = 0x0E then unit < 8 else code = 0x0F && unit = 0

/-- The well-formed instructions. -/
def Instr.wf (i : Instr) : Bool :=
  match i with
  | .nop _ => true
  | .mov _ => true
  | .ldi _ => true
  | .ldih _ => true
  | .ldl _ => true
  | .lea _ => true
  | .add _ => true
  | .addc _ => true
  | .sub _ => true
  | .subb _ => true
  | .neg _ => true
  | .abs _ => true
  | .min _ => true
  | .max _ => true
  | .clamp _ => true
  | .mul _ => true
  | .mulh _ => true
  | .mad _ => true
  | .div _ => true
  | .rem _ => true
  | .adds _ => true
  | .subs _ => true
  | .avg _ => true
  | .absd _ => true
  | .sad _ => true
  | .wmul _ => true
  | .wadd _ => true
  | .doti _ => true
  | .and _ => true
  | .or _ => true
  | .xor _ => true
  | .andn _ => true
  | .orn _ => true
  | .shl _ => true
  | .shr _ => true
  | .sar _ => true
  | .rol _ => true
  | .bfx _ => true
  | .bfi _ => true
  | .popc _ => true
  | .clz _ => true
  | .ctz _ => true
  | .brev _ => true
  | .cmp _ => true
  | .sel _ => true
  | .sext _ => true
  | .zext _ => true
  | .packs _ => true
  | .qand _ => true
  | .qor _ => true
  | .qxor _ => true
  | .qnot _ => true
  | .qmov _ => true
  | .qany _ => true
  | .lcset _ => true
  | .lcget _ => true
  | .fadd _ => true
  | .fsub _ => true
  | .fmul _ => true
  | .fma _ => true
  | .fms _ => true
  | .fnma _ => true
  | .fnms _ => true
  | .fdiv _ => true
  | .fmin _ => true
  | .fmax _ => true
  | .fminn _ => true
  | .fmaxn _ => true
  | .fabs _ => true
  | .fneg _ => true
  | .fcpys _ => true
  | .fcmp _ => true
  | .fclass _ => true
  | .frint _ => true
  | .fdot _ => true
  | .vred _ => true
  | .vscan _ => true
  | .vperm _ => true
  | .vshuf _ => true
  | .vbcast _ => true
  | .vsel _ => true
  | .vins _ => true
  | .vext _ => true
  | .vrot _ => true
  | .vcmpr _ => true
  | .vexpd _ => true
  | .vzip _ => true
  | .vunzip _ => true
  | .vsort _ => true
  | .viota _ => true
  | .vmask _ => true
  | .cvt _ => true
  | .cvtfi _ => true
  | .cvtif _ => true
  | .lgenc _ => true
  | .lgdec _ => true
  | .lgmul _ => true
  | .t5pack _ => true
  | .t5unpk _ => true
  | .rcp _ => true
  | .rsq _ => true
  | .sqrt _ => true
  | .exp2 _ => true
  | .lg2 _ => true
  | .sinpi _ => true
  | .cospi _ => true
  | .tanh _ => true
  | .erf _ => true
  | .amaxv _ => true
  | .fscaleb _ => true
  | .fgetexp _ => true
  | .ld _ => true
  | .st _ => true
  | .ldv _ => true
  | .stv _ => true
  | .atom _ => true
  | .atomr _ => true
  | .cas _ => true
  | .hins _ => true
  | .copy _ => true
  | .fill _ => true
  | .fence _ => true
  | .adv _ => true
  | .emit _ => true
  | .emitm _ => true
  | .testm _ => true
  | .nxtile _ => true
  | .sopen _ => true
  | .sadv _ => true
  | .stend _ => true
  | .sclose _ => true
  | .sread _ => true
  | .fopen _ => true
  | .fadv _ => true
  | .ftend _ => true
  | .fclose _ => true
  | .fisect _ => true
  | .fisectc _ => true
  | .tclaim _ => true
  | .trel _ => true
  | .tfill _ => true
  | .ttask _ => true
  | .twait _ => true
  | .tstat _ => true
  | .scacc _ => true
  | .scale _ => true
  | .ovfcfg _ => true
  | .tdep w => !w.mod.getLsbD 0
  | .tdepAdd w => w.mod.getLsbD 0
  | .cpy _ => true
  | .gath _ => true
  | .scat _ => true
  | .fgrd _ => true
  | .fgwr _ => true
  | .xchg w => !w.mod.getLsbD 1
  | .xchgRaw w => w.mod.getLsbD 1
  | .ratom _ => true
  | .cwait _ => true
  | .resume w => !w.mod.getLsbD 0
  | .resumeFail w => w.mod.getLsbD 0
  | .pref _ => true
  | .bara _ => true
  | .barw w => !w.mod.getLsbD 0
  | .barwT w => w.mod.getLsbD 0
  | .barex _ => true
  | .launch _ => true
  | .trap _ => true
  | .csrr _ => true
  | .csrw _ => true
  | .evlog _ => true
  | .mext _ => true
  | .attest _ => true
  | .sagvfyUnlock w => !w.manifest
  | .sagvfyManifest w => w.manifest
  | .keywipe w => !w.mod.getLsbD 0
  | .keywipeAll w => w.mod.getLsbD 0
  | .dbgopen _ => true
  | .fuserd _ => true
  | .yield _ => true
  | .wdog _ => true
  | .illegalOp op _ => unassigned op.toNat
  | .execLiteral _ => true
  | .dataFiringStart pe => pe < 32768
  | .markerFiring pe => pe < 32768
  | .suspendedResume pe => pe < 32768
  | .realignStart pe slot => pe < 32768 && slot < 8
  | .realignDiscard pe slot port => pe < 32768 && slot < 8 && port < 6
  | .realignPoisonEmit pe slot port => pe < 32768 && slot < 8 && 6 ≤ port && port < 12
  | .timingDetectorFlag kind unit => (kind = 0 && unit < 32768 || kind = 1 && unit < 65536 || kind = 2 && unit < 512)
  | .localPortDeliver router => router < 32768
  | .localPortTake router => router < 32768
  | .routeHop router out port => router < 32768 && (out < 4 && port = 0 || (out = 5 || out = 6) && port < 4)
  | .elementPortTransfer router dir => router < 32768 && dir < 2
  | .passFiring router _ => router < 32768
  | .steerFiring router _ => router < 32768
  | .mergeFiring router _ => router < 32768
  | .forkFiring router _ => router < 32768
  | .joinFiring router _ => router < 32768
  | .gateFiring router _ => router < 32768
  | .filterFiring router _ => router < 32768
  | .operatorMarkerFiring router _ => router < 32768
  | .operatorRealignDiscard router _ => router < 32768
  | .carryFiring router _ => router < 32768
  | .irepFiring router _ => router < 32768
  | .loopgenLoad router _ => router < 32768
  | .loopgenEmit router _ => router < 32768
  | .sinkFiring router _ => router < 32768
  | .mcutPass router _ => router < 32768
  | .mcutGatingRequest router _ => router < 32768
  | .mcutRelease router _ => router < 32768
  | .memnodeAccept node port => node < 8192 && port < 5
  | .memnodePerform node _ => node < 8192
  | .memnodeResultEmit node port => node < 8192 && port < 3
  | .memnodeMarker node port => node < 8192 && port < 3
  | .memnodePairRealign node pair => node < 8192 && pair < 2
  | .poolEccWriteback core word => core < 2048 && word < 65536
  | .agenSweepStart agen => agen < 8192
  | .agenTrigger agen => agen < 8192
  | .agenEmit agen => agen < 8192
  | .agenGatingRequest agen => agen < 8192
  | .glazeAccept core => core < 2048
  | .glazeOutput core => core < 2048
  | .barrierPerform _ => true
  | .trapQueueWrite => true
  | .cometAccess comet port _ => comet < 256 && port < 256
  | .graphPortAccept comet port => comet < 256 && port < 256
  | .graphPortResult comet port => comet < 256 && port < 256
  | .cometCommandPerform core _ => core < 2048
  | .streamFetch core reg half => core < 2048 && reg < 24 && half < 2
  | .streamFetchReturn core reg half _ => core < 2048 && reg < 24 && half < 2
  | .gatherUnitServe stack => stack < 24
  | .kilnSubtileIssue cluster => cluster < 128
  | .kilnRecordFailReady cluster => cluster < 128
  | .kilnSubtileStart kiln => kiln < 512
  | .kilnStep kiln => kiln < 512
  | .kilnSpillEnd kiln => kiln < 512
  | .kilnDrain kiln => kiln < 512
  | .kilnRecordComplete cluster _ => cluster < 128
  | .kilnSubtileMigrate cluster => cluster < 128
  | .tfillSourceCheck cluster slot => cluster < 128 && slot < 128
  | .tfillComplete cluster slot => cluster < 128 && slot < 128
  | .meshFlitHop router out => router < 128 && out < 12
  | .packetAgePromote router input vc => router < 128 && input < 12 && vc < 4
  | .meshCrcReplay router dir _ => router < 128 && dir < 4
  | .controllerRead controller => controller < 128
  | .parityRebuild _ => true
  | .controllerWrite controller => controller < 128
  | .parityUpdate _ => true
  | .tagUe code unit => tagStructure code unit
  | .loaderFrameRead cluster => cluster < 128
  | .configCacheLookup cluster => cluster < 128
  | .quiescenceSweep die => die < 8
  | .dieHeartbeat die => die < 8
  | .heartbeatMissing die => die < 8
  | .deadlockTimeout die dom _ => die < 8 && dom < 1024
  | .watchdogExpiry die dom => die < 8 && dom < 1024
  | .hubTick => true
  | .launchNoticeApply die => die < 8
  | .tickNoticeApply die => die < 8
  | .loadedNoticeApply die => die < 8
  | .endedNoticeApply die => die < 8
  | .savedNoticeApply die => die < 8
  | .committedNoticeApply die => die < 8
  | .errorNoticeApply die => die < 8
  | .preemptNoticeApply die => die < 8
  | .resumeNoticeApply die => die < 8
  | .killNoticeApply die => die < 8
  | .killDrainEnd die dom _ => die < 8 && dom < 1024
  | .watchdogNoticeApply die => die < 8
  | .digestNoticeApply => true
  | .csrNoticeApply die => die < 8
  | .phaseNoticeApply die => die < 8
  | .histNoticeApply die => die < 8
  | .dieLossApply die => die < 8
  | .linkSplitApply die => die < 8
  | .wheelHistogramRead dom _ => dom < 1024
  | .saveAreaAllocate => true
  | .saveRecordWrite die dom _ => die < 8 && dom < 1024
  | .commitWrite die dom _ => die < 8 && dom < 1024
  | .exchangeStep dom => dom < 1024
  | .launchrWrite func _ => func < 64
  | .lstatClear func _ => func < 64
  | .mbCreate func => func < 64
  | .mbDestroy func => func < 64
  | .mbPreempt func => func < 64
  | .mbResume func => func < 64
  | .mbKill func => func < 64
  | .mbAssign func => func < 64
  | .mbQueryBootEntry func => func < 64
  | .mbQueryExcluded func => func < 64
  | .mbClrboot func => func < 64
  | .mbSupcfg func => func < 64
  | .mbDoorbellBusy func => func < 64
  | .windowRead func _ _ => func < 64
  | .windowWrite func _ _ => func < 64
  | .registerPageBadAccess func offset size _ => func < 64 && (size ≠ 8 || offset % 8 ≠ 0)
  | .registerWrite func offset _ => func < 64 && offset % 8 = 0
  | .flr func => func < 64
  | .linkLoss => true
  | .linkRetrain => true
  | .linkHoldExpiry => true
  | .hotReset => true
  | .coldStart => true
  | .warmReset => true
  | .bootStepTimeout _ _ => true
  | .pldmDiscovery => true
  | .pldmSensorRead _ => true
  | .pldmFirmwareUpdate _ _ _ _ => true
  | .blackBoxRead ring _ => ring < 9
  | .bootRecordRead _ => true
  | .startCounterWrite _ => true
  | .peerEpochRead link => link < 12
  | .sidebandAttest _ => true
  | .fabricMapWrite _ moduleId entries => moduleId < 64 && entries.length ≤ 64
  | .vendorProvision => true
  | .saggarAttestServe => true
  | .saggarVerifyServe => true
  | .saggarMextServe => true
  | .thermalThrottle die => die < 8
  | .thermalShutdown die => die < 8
  | .linkFrameReceive link _ => link < 12
  | .linkReplay link _ => link < 12
  | .bexwenRetrain link _ moduleId _ _ => link < 12 && moduleId < 64
  | .ctxBody member dom _ => member < 64 && dom < 1024
  | .phaseBody member dom _ => member < 64 && dom < 1024
  | .farrBody member dom _ _ => member < 64 && dom < 1024
  | .fexitBody member dom _ => member < 64 && dom < 1024
  | .fbreakBody member dom _ => member < 64 && dom < 1024
  | .remoteExchangeWrite smod dom _ _ _ _ _ => smod < 64 && dom < 1024
  | .remoteAtomicRequest _ => true
  | .remoteAtomicResponse _ => true
  | .ratomResendTimeout _ => true
  | .moduleUnreachable member => member < 64
  | .receiverLockLoss link => link < 12
  | .saggarPowerLoss => true
  | .pldmPowerDown => true
  | .productionFusing => true
  | .rmaToken _ => true

end Sys2Proof
end

