-- ==== Sys2Proof/Decode.lean ====
section
/-! DEFINITION. From the 112 bits and the tag of a store entry to the instruction, and back (spec/01 R11,
R26, R27, R111). The decoder is total: an unassigned opcode decodes to `illegalOp` and a literal entry to
`execLiteral`, which the manual gives effects. The events of the other units have no encoding. -/
namespace Sys2Proof

/-- Field [hi:lo] of a word, counted from bit `lo`, `n` bits wide. -/
def tiwField (lo n : Nat) (w : Tiw) : BitVec n := w.extractLsb' lo n

/-- The fields of R11 other than `OP`. -/
def fieldsOf (w : Tiw) : Fields :=
  { nxt := tiwField 101 3 w, tgt := tiwField 93 8 w, pq := tiwField 90 3 w, pg := w.getLsbD 89
    fmt := tiwField 84 5 w, mod := tiwField 80 4 w, d := tiwField 72 8 w, a := tiwField 64 8 w
    b := tiwField 56 8 w, c := tiwField 48 8 w, x := tiwField 0 48 w }

/-- `OP`, bits [111:104]. -/
def opOf (w : Tiw) : BitVec 8 := tiwField 104 8 w

/-- The word with these fields, written from the table of R11. -/
def wordOf (op : BitVec 8) (f : Fields) : Tiw :=
  op ++ (f.nxt ++ (f.tgt ++ (f.pq ++ (BitVec.ofBool f.pg ++ (f.fmt ++ (f.mod ++ (f.d ++ (f.a ++ (f.b ++
    (f.c ++ f.x))))))))))

/-- Integer and address, 0x00 to 0x3F of the opcode map (R26). -/
def decodeInteger (op : Nat) (f : Fields) : Option Instr :=
  match op with
  | 0x00 => some (.nop f)
  | 0x01 => some (.mov f)
  | 0x02 => some (.ldi f)
  | 0x03 => some (.ldih f)
  | 0x04 => some (.ldl f)
  | 0x05 => some (.lea f)
  | 0x06 => some (.add f)
  | 0x07 => some (.addc f)
  | 0x08 => some (.sub f)
  | 0x09 => some (.subb f)
  | 0x0A => some (.neg f)
  | 0x0B => some (.abs f)
  | 0x0C => some (.min f)
  | 0x0D => some (.max f)
  | 0x0E => some (.clamp f)
  | 0x0F => some (.mul f)
  | 0x10 => some (.mulh f)
  | 0x11 => some (.mad f)
  | 0x12 => some (.div f)
  | 0x13 => some (.rem f)
  | 0x14 => some (.and f)
  | 0x15 => some (.or f)
  | 0x16 => some (.xor f)
  | 0x17 => some (.andn f)
  | 0x18 => some (.orn f)
  | 0x19 => some (.shl f)
  | 0x1A => some (.shr f)
  | 0x1B => some (.sar f)
  | 0x1C => some (.rol f)
  | 0x1D => some (.bfx f)
  | 0x1E => some (.bfi f)
  | 0x1F => some (.popc f)
  | 0x20 => some (.clz f)
  | 0x21 => some (.ctz f)
  | 0x22 => some (.brev f)
  | 0x23 => some (.cmp f)
  | 0x24 => some (.sel f)
  | 0x25 => some (.sext f)
  | 0x26 => some (.zext f)
  | 0x27 => some (.packs f)
  | 0x28 => some (.qand f)
  | 0x29 => some (.qor f)
  | 0x2A => some (.qxor f)
  | 0x2B => some (.qnot f)
  | 0x2C => some (.qmov f)
  | 0x2D => some (.qany f)
  | 0x2E => some (.lcset f)
  | 0x2F => some (.lcget f)
  | 0x30 => some (.adds f)
  | 0x31 => some (.subs f)
  | 0x32 => some (.avg f)
  | 0x33 => some (.absd f)
  | 0x34 => some (.sad f)
  | 0x35 => some (.wmul f)
  | 0x36 => some (.wadd f)
  | 0x37 => some (.doti f)
  | _ => none

/-- Vector and floating point, 0x40 to 0x7F of the opcode map (R26). -/
def decodeVector (op : Nat) (f : Fields) : Option Instr :=
  match op with
  | 0x40 => some (.fadd f)
  | 0x41 => some (.fsub f)
  | 0x42 => some (.fmul f)
  | 0x43 => some (.fma f)
  | 0x44 => some (.fms f)
  | 0x45 => some (.fnma f)
  | 0x46 => some (.fnms f)
  | 0x47 => some (.fdiv f)
  | 0x48 => some (.fmin f)
  | 0x49 => some (.fmax f)
  | 0x4A => some (.fminn f)
  | 0x4B => some (.fmaxn f)
  | 0x4C => some (.fabs f)
  | 0x4D => some (.fneg f)
  | 0x4E => some (.fcpys f)
  | 0x4F => some (.fcmp f)
  | 0x50 => some (.fclass f)
  | 0x51 => some (.frint f)
  | 0x52 => some (.fdot f)
  | 0x53 => some (.vred f)
  | 0x54 => some (.vscan f)
  | 0x55 => some (.vperm f)
  | 0x56 => some (.vshuf f)
  | 0x57 => some (.vbcast f)
  | 0x58 => some (.vsel f)
  | 0x59 => some (.vins f)
  | 0x5A => some (.vext f)
  | 0x5B => some (.vrot f)
  | 0x5C => some (.vcmpr f)
  | 0x5D => some (.vexpd f)
  | 0x5E => some (.vzip f)
  | 0x5F => some (.vunzip f)
  | 0x60 => some (.vsort f)
  | 0x61 => some (.viota f)
  | 0x62 => some (.vmask f)
  | _ => none

/-- Conversion and special function, 0x80 to 0x9F of the opcode map (R26). -/
def decodeConvert (op : Nat) (f : Fields) : Option Instr :=
  match op with
  | 0x80 => some (.cvt f)
  | 0x81 => some (.cvtfi f)
  | 0x82 => some (.cvtif f)
  | 0x83 => some (.lgenc f)
  | 0x84 => some (.lgdec f)
  | 0x85 => some (.lgmul f)
  | 0x86 => some (.t5pack f)
  | 0x87 => some (.t5unpk f)
  | 0x88 => some (.rcp f)
  | 0x89 => some (.rsq f)
  | 0x8A => some (.sqrt f)
  | 0x8B => some (.exp2 f)
  | 0x8C => some (.lg2 f)
  | 0x8D => some (.sinpi f)
  | 0x8E => some (.cospi f)
  | 0x8F => some (.tanh f)
  | 0x90 => some (.erf f)
  | 0x91 => some (.amaxv f)
  | 0x92 => some (.fscaleb f)
  | 0x93 => some (.fgetexp f)
  | _ => none

/-- Memory, channel, stream and fibre, 0xA0 to 0xBF of the opcode map (R26). -/
def decodeMemory (op : Nat) (f : Fields) : Option Instr :=
  match op with
  | 0xA0 => some (.ld f)
  | 0xA1 => some (.st f)
  | 0xA2 => some (.ldv f)
  | 0xA3 => some (.stv f)
  | 0xA4 => some (.atom f)
  | 0xA5 => some (.atomr f)
  | 0xA6 => some (.cas f)
  | 0xA7 => some (.hins f)
  | 0xA8 => some (.copy f)
  | 0xA9 => some (.fill f)
  | 0xAA => some (.fence f)
  | 0xAB => some (.adv f)
  | 0xAC => some (.emit f)
  | 0xAD => some (.emitm f)
  | 0xAE => some (.testm f)
  | 0xAF => some (.nxtile f)
  | 0xB0 => some (.sopen f)
  | 0xB1 => some (.sadv f)
  | 0xB2 => some (.stend f)
  | 0xB3 => some (.sclose f)
  | 0xB4 => some (.fopen f)
  | 0xB5 => some (.fadv f)
  | 0xB6 => some (.ftend f)
  | 0xB7 => some (.fclose f)
  | 0xB8 => some (.fisect f)
  | 0xB9 => some (.fisectc f)
  | 0xBA => some (.sread f)
  | _ => none

/-- Kiln, Comet and control, 0xC0 to 0xFF of the opcode map (R26). -/
def decodeControl (op : Nat) (f : Fields) : Option Instr :=
  match op with
  | 0xC0 => some (.tclaim f)
  | 0xC1 => some (.trel f)
  | 0xC2 => some (.tfill f)
  | 0xC3 => some (.ttask f)
  | 0xC4 => some (.twait f)
  | 0xC5 => some (.tstat f)
  | 0xC6 => some (.scacc f)
  | 0xC7 => some (.scale f)
  | 0xC8 => some (.ovfcfg f)
  | 0xC9 => some (if f.mod.getLsbD 0 then .tdepAdd f else .tdep f)
  | 0xD8 => some (.cpy f)
  | 0xD9 => some (.gath f)
  | 0xDA => some (.scat f)
  | 0xDB => some (.fgrd f)
  | 0xDC => some (.fgwr f)
  | 0xDD => some (if f.mod.getLsbD 1 then .xchgRaw f else .xchg f)
  | 0xDE => some (.ratom f)
  | 0xDF => some (.cwait f)
  | 0xE0 => some (if f.mod.getLsbD 0 then .resumeFail f else .resume f)
  | 0xE1 => some (.pref f)
  | 0xE8 => some (.bara f)
  | 0xE9 => some (if f.mod.getLsbD 0 then .barwT f else .barw f)
  | 0xEA => some (.barex f)
  | 0xEB => some (.launch f)
  | 0xEC => some (.trap f)
  | 0xED => some (.csrr f)
  | 0xEE => some (.csrw f)
  | 0xEF => some (.evlog f)
  | 0xF0 => some (.mext f)
  | 0xF1 => some (.attest f)
  | 0xF2 => some (if f.manifest then .sagvfyManifest f else .sagvfyUnlock f)
  | 0xF3 => some (if f.mod.getLsbD 0 then .keywipeAll f else .keywipe f)
  | 0xF4 => some (.dbgopen f)
  | 0xF5 => some (.fuserd f)
  | 0xF6 => some (.yield f)
  | 0xF7 => some (.wdog f)
  | _ => none

/-- The instruction of a code entry: the opcode map, and `illegalOp` for the values of R27. -/
def decodeCode (w : Tiw) : Instr :=
  let op := (opOf w).toNat
  let f := fieldsOf w
  let r := if op < 0x40 then decodeInteger op f else if op < 0x80 then decodeVector op f
    else if op < 0xA0 then decodeConvert op f else if op < 0xC0 then decodeMemory op f else decodeControl op f
  r.getD (.illegalOp (opOf w) f)

/-- The instruction of a store entry with its tag (R31). -/
def decodeEntry (literal : Bool) (w : Tiw) : Instr := if literal then .execLiteral w else decodeCode w

/-- Why bytes are no store entry. -/
inductive DecodeError where
  /-- Fewer than fourteen bytes are left. -/
  | truncated
deriving DecidableEq, Repr

/-- Fourteen bytes, the first least significant (R10), as one word; `none` when fewer are left. -/
def takeBytes : Nat → List Byte → Option (Nat × List Byte)
  | 0, bs => some (0, bs)
  | _ + 1, [] => none
  | n + 1, b :: bs => (takeBytes n bs).map fun r => (b.toNat + 256 * r.1, r.2)

/-- The decoder over bytes: one code or literal entry from the front of a list, with the rest. -/
def decodeBytes (literal : Bool) (bs : List Byte) : Except DecodeError (Instr × List Byte) :=
  match takeBytes 14 bs with
  | none => .error .truncated
  | some (v, rest) => .ok (decodeEntry literal (BitVec.ofNat 112 v), rest)

/-- The opcode value of an instruction that has an encoding (R26). -/
def opcodeOf (i : Instr) : Option (BitVec 8) :=
  match i with
  | .nop _ => some 0x00
  | .mov _ => some 0x01
  | .ldi _ => some 0x02
  | .ldih _ => some 0x03
  | .ldl _ => some 0x04
  | .lea _ => some 0x05
  | .add _ => some 0x06
  | .addc _ => some 0x07
  | .sub _ => some 0x08
  | .subb _ => some 0x09
  | .neg _ => some 0x0A
  | .abs _ => some 0x0B
  | .min _ => some 0x0C
  | .max _ => some 0x0D
  | .clamp _ => some 0x0E
  | .mul _ => some 0x0F
  | .mulh _ => some 0x10
  | .mad _ => some 0x11
  | .div _ => some 0x12
  | .rem _ => some 0x13
  | .adds _ => some 0x30
  | .subs _ => some 0x31
  | .avg _ => some 0x32
  | .absd _ => some 0x33
  | .sad _ => some 0x34
  | .wmul _ => some 0x35
  | .wadd _ => some 0x36
  | .doti _ => some 0x37
  | .and _ => some 0x14
  | .or _ => some 0x15
  | .xor _ => some 0x16
  | .andn _ => some 0x17
  | .orn _ => some 0x18
  | .shl _ => some 0x19
  | .shr _ => some 0x1A
  | .sar _ => some 0x1B
  | .rol _ => some 0x1C
  | .bfx _ => some 0x1D
  | .bfi _ => some 0x1E
  | .popc _ => some 0x1F
  | .clz _ => some 0x20
  | .ctz _ => some 0x21
  | .brev _ => some 0x22
  | .cmp _ => some 0x23
  | .sel _ => some 0x24
  | .sext _ => some 0x25
  | .zext _ => some 0x26
  | .packs _ => some 0x27
  | .qand _ => some 0x28
  | .qor _ => some 0x29
  | .qxor _ => some 0x2A
  | .qnot _ => some 0x2B
  | .qmov _ => some 0x2C
  | .qany _ => some 0x2D
  | .lcset _ => some 0x2E
  | .lcget _ => some 0x2F
  | .fadd _ => some 0x40
  | .fsub _ => some 0x41
  | .fmul _ => some 0x42
  | .fma _ => some 0x43
  | .fms _ => some 0x44
  | .fnma _ => some 0x45
  | .fnms _ => some 0x46
  | .fdiv _ => some 0x47
  | .fmin _ => some 0x48
  | .fmax _ => some 0x49
  | .fminn _ => some 0x4A
  | .fmaxn _ => some 0x4B
  | .fabs _ => some 0x4C
  | .fneg _ => some 0x4D
  | .fcpys _ => some 0x4E
  | .fcmp _ => some 0x4F
  | .fclass _ => some 0x50
  | .frint _ => some 0x51
  | .fdot _ => some 0x52
  | .vred _ => some 0x53
  | .vscan _ => some 0x54
  | .vperm _ => some 0x55
  | .vshuf _ => some 0x56
  | .vbcast _ => some 0x57
  | .vsel _ => some 0x58
  | .vins _ => some 0x59
  | .vext _ => some 0x5A
  | .vrot _ => some 0x5B
  | .vcmpr _ => some 0x5C
  | .vexpd _ => some 0x5D
  | .vzip _ => some 0x5E
  | .vunzip _ => some 0x5F
  | .vsort _ => some 0x60
  | .viota _ => some 0x61
  | .vmask _ => some 0x62
  | .cvt _ => some 0x80
  | .cvtfi _ => some 0x81
  | .cvtif _ => some 0x82
  | .lgenc _ => some 0x83
  | .lgdec _ => some 0x84
  | .lgmul _ => some 0x85
  | .t5pack _ => some 0x86
  | .t5unpk _ => some 0x87
  | .rcp _ => some 0x88
  | .rsq _ => some 0x89
  | .sqrt _ => some 0x8A
  | .exp2 _ => some 0x8B
  | .lg2 _ => some 0x8C
  | .sinpi _ => some 0x8D
  | .cospi _ => some 0x8E
  | .tanh _ => some 0x8F
  | .erf _ => some 0x90
  | .amaxv _ => some 0x91
  | .fscaleb _ => some 0x92
  | .fgetexp _ => some 0x93
  | .ld _ => some 0xA0
  | .st _ => some 0xA1
  | .ldv _ => some 0xA2
  | .stv _ => some 0xA3
  | .atom _ => some 0xA4
  | .atomr _ => some 0xA5
  | .cas _ => some 0xA6
  | .hins _ => some 0xA7
  | .copy _ => some 0xA8
  | .fill _ => some 0xA9
  | .fence _ => some 0xAA
  | .adv _ => some 0xAB
  | .emit _ => some 0xAC
  | .emitm _ => some 0xAD
  | .testm _ => some 0xAE
  | .nxtile _ => some 0xAF
  | .sopen _ => some 0xB0
  | .sadv _ => some 0xB1
  | .stend _ => some 0xB2
  | .sclose _ => some 0xB3
  | .sread _ => some 0xBA
  | .fopen _ => some 0xB4
  | .fadv _ => some 0xB5
  | .ftend _ => some 0xB6
  | .fclose _ => some 0xB7
  | .fisect _ => some 0xB8
  | .fisectc _ => some 0xB9
  | .tclaim _ => some 0xC0
  | .trel _ => some 0xC1
  | .tfill _ => some 0xC2
  | .ttask _ => some 0xC3
  | .twait _ => some 0xC4
  | .tstat _ => some 0xC5
  | .scacc _ => some 0xC6
  | .scale _ => some 0xC7
  | .ovfcfg _ => some 0xC8
  | .tdep _ => some 0xC9
  | .tdepAdd _ => some 0xC9
  | .cpy _ => some 0xD8
  | .gath _ => some 0xD9
  | .scat _ => some 0xDA
  | .fgrd _ => some 0xDB
  | .fgwr _ => some 0xDC
  | .xchg _ => some 0xDD
  | .xchgRaw _ => some 0xDD
  | .ratom _ => some 0xDE
  | .cwait _ => some 0xDF
  | .resume _ => some 0xE0
  | .resumeFail _ => some 0xE0
  | .pref _ => some 0xE1
  | .bara _ => some 0xE8
  | .barw _ => some 0xE9
  | .barwT _ => some 0xE9
  | .barex _ => some 0xEA
  | .launch _ => some 0xEB
  | .trap _ => some 0xEC
  | .csrr _ => some 0xED
  | .csrw _ => some 0xEE
  | .evlog _ => some 0xEF
  | .mext _ => some 0xF0
  | .attest _ => some 0xF1
  | .sagvfyUnlock _ => some 0xF2
  | .sagvfyManifest _ => some 0xF2
  | .keywipe _ => some 0xF3
  | .keywipeAll _ => some 0xF3
  | .dbgopen _ => some 0xF4
  | .fuserd _ => some 0xF5
  | .yield _ => some 0xF6
  | .wdog _ => some 0xF7
  | .illegalOp op _ => some op
  | .execLiteral _ => none
  | .dataFiringStart _ => none
  | .markerFiring _ => none
  | .suspendedResume _ => none
  | .realignStart _ _ => none
  | .realignDiscard _ _ _ => none
  | .realignPoisonEmit _ _ _ => none
  | .timingDetectorFlag _ _ => none
  | .localPortDeliver _ => none
  | .localPortTake _ => none
  | .routeHop _ _ _ => none
  | .elementPortTransfer _ _ => none
  | .passFiring _ _ => none
  | .steerFiring _ _ => none
  | .mergeFiring _ _ => none
  | .forkFiring _ _ => none
  | .joinFiring _ _ => none
  | .gateFiring _ _ => none
  | .filterFiring _ _ => none
  | .operatorMarkerFiring _ _ => none
  | .operatorRealignDiscard _ _ => none
  | .carryFiring _ _ => none
  | .irepFiring _ _ => none
  | .loopgenLoad _ _ => none
  | .loopgenEmit _ _ => none
  | .sinkFiring _ _ => none
  | .mcutPass _ _ => none
  | .mcutGatingRequest _ _ => none
  | .mcutRelease _ _ => none
  | .memnodeAccept _ _ => none
  | .memnodePerform _ _ => none
  | .memnodeResultEmit _ _ => none
  | .memnodeMarker _ _ => none
  | .memnodePairRealign _ _ => none
  | .poolEccWriteback _ _ => none
  | .agenSweepStart _ => none
  | .agenTrigger _ => none
  | .agenEmit _ => none
  | .agenGatingRequest _ => none
  | .glazeAccept _ => none
  | .glazeOutput _ => none
  | .barrierPerform _ => none
  | .trapQueueWrite => none
  | .cometAccess _ _ _ => none
  | .graphPortAccept _ _ => none
  | .graphPortResult _ _ => none
  | .cometCommandPerform _ _ => none
  | .streamFetch _ _ _ => none
  | .streamFetchReturn _ _ _ _ => none
  | .gatherUnitServe _ => none
  | .kilnSubtileIssue _ => none
  | .kilnRecordFailReady _ => none
  | .kilnSubtileStart _ => none
  | .kilnStep _ => none
  | .kilnSpillEnd _ => none
  | .kilnDrain _ => none
  | .kilnRecordComplete _ _ => none
  | .kilnSubtileMigrate _ => none
  | .tfillSourceCheck _ _ => none
  | .tfillComplete _ _ => none
  | .meshFlitHop _ _ => none
  | .packetAgePromote _ _ _ => none
  | .meshCrcReplay _ _ _ => none
  | .controllerRead _ => none
  | .parityRebuild _ => none
  | .controllerWrite _ => none
  | .parityUpdate _ => none
  | .tagUe _ _ => none
  | .loaderFrameRead _ => none
  | .configCacheLookup _ => none
  | .quiescenceSweep _ => none
  | .dieHeartbeat _ => none
  | .heartbeatMissing _ => none
  | .deadlockTimeout _ _ _ => none
  | .watchdogExpiry _ _ => none
  | .hubTick => none
  | .launchNoticeApply _ => none
  | .tickNoticeApply _ => none
  | .loadedNoticeApply _ => none
  | .endedNoticeApply _ => none
  | .savedNoticeApply _ => none
  | .committedNoticeApply _ => none
  | .errorNoticeApply _ => none
  | .preemptNoticeApply _ => none
  | .resumeNoticeApply _ => none
  | .killNoticeApply _ => none
  | .killDrainEnd _ _ _ => none
  | .watchdogNoticeApply _ => none
  | .digestNoticeApply => none
  | .csrNoticeApply _ => none
  | .phaseNoticeApply _ => none
  | .histNoticeApply _ => none
  | .dieLossApply _ => none
  | .linkSplitApply _ => none
  | .wheelHistogramRead _ _ => none
  | .saveAreaAllocate => none
  | .saveRecordWrite _ _ _ => none
  | .commitWrite _ _ _ => none
  | .exchangeStep _ => none
  | .launchrWrite _ _ => none
  | .lstatClear _ _ => none
  | .mbCreate _ => none
  | .mbDestroy _ => none
  | .mbPreempt _ => none
  | .mbResume _ => none
  | .mbKill _ => none
  | .mbAssign _ => none
  | .mbQueryBootEntry _ => none
  | .mbQueryExcluded _ => none
  | .mbClrboot _ => none
  | .mbSupcfg _ => none
  | .mbDoorbellBusy _ => none
  | .windowRead _ _ _ => none
  | .windowWrite _ _ _ => none
  | .registerPageBadAccess _ _ _ _ => none
  | .registerWrite _ _ _ => none
  | .flr _ => none
  | .linkLoss => none
  | .linkRetrain => none
  | .linkHoldExpiry => none
  | .hotReset => none
  | .coldStart => none
  | .warmReset => none
  | .bootStepTimeout _ _ => none
  | .pldmDiscovery => none
  | .pldmSensorRead _ => none
  | .pldmFirmwareUpdate _ _ _ _ => none
  | .blackBoxRead _ _ => none
  | .bootRecordRead _ => none
  | .startCounterWrite _ => none
  | .peerEpochRead _ => none
  | .sidebandAttest _ => none
  | .fabricMapWrite _ _ _ => none
  | .vendorProvision => none
  | .saggarAttestServe => none
  | .saggarVerifyServe => none
  | .saggarMextServe => none
  | .thermalThrottle _ => none
  | .thermalShutdown _ => none
  | .linkFrameReceive _ _ => none
  | .linkReplay _ _ => none
  | .bexwenRetrain _ _ _ _ _ => none
  | .ctxBody _ _ _ => none
  | .phaseBody _ _ _ => none
  | .farrBody _ _ _ _ => none
  | .fexitBody _ _ _ => none
  | .fbreakBody _ _ _ => none
  | .remoteExchangeWrite _ _ _ _ _ _ _ => none
  | .remoteAtomicRequest _ => none
  | .remoteAtomicResponse _ => none
  | .ratomResendTimeout _ => none
  | .moduleUnreachable _ => none
  | .receiverLockLoss _ => none
  | .saggarPowerLoss => none
  | .pldmPowerDown => none
  | .productionFusing => none
  | .rmaToken _ => none

/-- The fields of an instruction that has an encoding. -/
def operandsOf (i : Instr) : Option Fields :=
  match i with
  | .nop w => some w
  | .mov w => some w
  | .ldi w => some w
  | .ldih w => some w
  | .ldl w => some w
  | .lea w => some w
  | .add w => some w
  | .addc w => some w
  | .sub w => some w
  | .subb w => some w
  | .neg w => some w
  | .abs w => some w
  | .min w => some w
  | .max w => some w
  | .clamp w => some w
  | .mul w => some w
  | .mulh w => some w
  | .mad w => some w
  | .div w => some w
  | .rem w => some w
  | .adds w => some w
  | .subs w => some w
  | .avg w => some w
  | .absd w => some w
  | .sad w => some w
  | .wmul w => some w
  | .wadd w => some w
  | .doti w => some w
  | .and w => some w
  | .or w => some w
  | .xor w => some w
  | .andn w => some w
  | .orn w => some w
  | .shl w => some w
  | .shr w => some w
  | .sar w => some w
  | .rol w => some w
  | .bfx w => some w
  | .bfi w => some w
  | .popc w => some w
  | .clz w => some w
  | .ctz w => some w
  | .brev w => some w
  | .cmp w => some w
  | .sel w => some w
  | .sext w => some w
  | .zext w => some w
  | .packs w => some w
  | .qand w => some w
  | .qor w => some w
  | .qxor w => some w
  | .qnot w => some w
  | .qmov w => some w
  | .qany w => some w
  | .lcset w => some w
  | .lcget w => some w
  | .fadd w => some w
  | .fsub w => some w
  | .fmul w => some w
  | .fma w => some w
  | .fms w => some w
  | .fnma w => some w
  | .fnms w => some w
  | .fdiv w => some w
  | .fmin w => some w
  | .fmax w => some w
  | .fminn w => some w
  | .fmaxn w => some w
  | .fabs w => some w
  | .fneg w => some w
  | .fcpys w => some w
  | .fcmp w => some w
  | .fclass w => some w
  | .frint w => some w
  | .fdot w => some w
  | .vred w => some w
  | .vscan w => some w
  | .vperm w => some w
  | .vshuf w => some w
  | .vbcast w => some w
  | .vsel w => some w
  | .vins w => some w
  | .vext w => some w
  | .vrot w => some w
  | .vcmpr w => some w
  | .vexpd w => some w
  | .vzip w => some w
  | .vunzip w => some w
  | .vsort w => some w
  | .viota w => some w
  | .vmask w => some w
  | .cvt w => some w
  | .cvtfi w => some w
  | .cvtif w => some w
  | .lgenc w => some w
  | .lgdec w => some w
  | .lgmul w => some w
  | .t5pack w => some w
  | .t5unpk w => some w
  | .rcp w => some w
  | .rsq w => some w
  | .sqrt w => some w
  | .exp2 w => some w
  | .lg2 w => some w
  | .sinpi w => some w
  | .cospi w => some w
  | .tanh w => some w
  | .erf w => some w
  | .amaxv w => some w
  | .fscaleb w => some w
  | .fgetexp w => some w
  | .ld w => some w
  | .st w => some w
  | .ldv w => some w
  | .stv w => some w
  | .atom w => some w
  | .atomr w => some w
  | .cas w => some w
  | .hins w => some w
  | .copy w => some w
  | .fill w => some w
  | .fence w => some w
  | .adv w => some w
  | .emit w => some w
  | .emitm w => some w
  | .testm w => some w
  | .nxtile w => some w
  | .sopen w => some w
  | .sadv w => some w
  | .stend w => some w
  | .sclose w => some w
  | .sread w => some w
  | .fopen w => some w
  | .fadv w => some w
  | .ftend w => some w
  | .fclose w => some w
  | .fisect w => some w
  | .fisectc w => some w
  | .tclaim w => some w
  | .trel w => some w
  | .tfill w => some w
  | .ttask w => some w
  | .twait w => some w
  | .tstat w => some w
  | .scacc w => some w
  | .scale w => some w
  | .ovfcfg w => some w
  | .tdep w => some w
  | .tdepAdd w => some w
  | .cpy w => some w
  | .gath w => some w
  | .scat w => some w
  | .fgrd w => some w
  | .fgwr w => some w
  | .xchg w => some w
  | .xchgRaw w => some w
  | .ratom w => some w
  | .cwait w => some w
  | .resume w => some w
  | .resumeFail w => some w
  | .pref w => some w
  | .bara w => some w
  | .barw w => some w
  | .barwT w => some w
  | .barex w => some w
  | .launch w => some w
  | .trap w => some w
  | .csrr w => some w
  | .csrw w => some w
  | .evlog w => some w
  | .mext w => some w
  | .attest w => some w
  | .sagvfyUnlock w => some w
  | .sagvfyManifest w => some w
  | .keywipe w => some w
  | .keywipeAll w => some w
  | .dbgopen w => some w
  | .fuserd w => some w
  | .yield w => some w
  | .wdog w => some w
  | .illegalOp _ w => some w
  | .execLiteral _ => none
  | .dataFiringStart _ => none
  | .markerFiring _ => none
  | .suspendedResume _ => none
  | .realignStart _ _ => none
  | .realignDiscard _ _ _ => none
  | .realignPoisonEmit _ _ _ => none
  | .timingDetectorFlag _ _ => none
  | .localPortDeliver _ => none
  | .localPortTake _ => none
  | .routeHop _ _ _ => none
  | .elementPortTransfer _ _ => none
  | .passFiring _ _ => none
  | .steerFiring _ _ => none
  | .mergeFiring _ _ => none
  | .forkFiring _ _ => none
  | .joinFiring _ _ => none
  | .gateFiring _ _ => none
  | .filterFiring _ _ => none
  | .operatorMarkerFiring _ _ => none
  | .operatorRealignDiscard _ _ => none
  | .carryFiring _ _ => none
  | .irepFiring _ _ => none
  | .loopgenLoad _ _ => none
  | .loopgenEmit _ _ => none
  | .sinkFiring _ _ => none
  | .mcutPass _ _ => none
  | .mcutGatingRequest _ _ => none
  | .mcutRelease _ _ => none
  | .memnodeAccept _ _ => none
  | .memnodePerform _ _ => none
  | .memnodeResultEmit _ _ => none
  | .memnodeMarker _ _ => none
  | .memnodePairRealign _ _ => none
  | .poolEccWriteback _ _ => none
  | .agenSweepStart _ => none
  | .agenTrigger _ => none
  | .agenEmit _ => none
  | .agenGatingRequest _ => none
  | .glazeAccept _ => none
  | .glazeOutput _ => none
  | .barrierPerform _ => none
  | .trapQueueWrite => none
  | .cometAccess _ _ _ => none
  | .graphPortAccept _ _ => none
  | .graphPortResult _ _ => none
  | .cometCommandPerform _ _ => none
  | .streamFetch _ _ _ => none
  | .streamFetchReturn _ _ _ _ => none
  | .gatherUnitServe _ => none
  | .kilnSubtileIssue _ => none
  | .kilnRecordFailReady _ => none
  | .kilnSubtileStart _ => none
  | .kilnStep _ => none
  | .kilnSpillEnd _ => none
  | .kilnDrain _ => none
  | .kilnRecordComplete _ _ => none
  | .kilnSubtileMigrate _ => none
  | .tfillSourceCheck _ _ => none
  | .tfillComplete _ _ => none
  | .meshFlitHop _ _ => none
  | .packetAgePromote _ _ _ => none
  | .meshCrcReplay _ _ _ => none
  | .controllerRead _ => none
  | .parityRebuild _ => none
  | .controllerWrite _ => none
  | .parityUpdate _ => none
  | .tagUe _ _ => none
  | .loaderFrameRead _ => none
  | .configCacheLookup _ => none
  | .quiescenceSweep _ => none
  | .dieHeartbeat _ => none
  | .heartbeatMissing _ => none
  | .deadlockTimeout _ _ _ => none
  | .watchdogExpiry _ _ => none
  | .hubTick => none
  | .launchNoticeApply _ => none
  | .tickNoticeApply _ => none
  | .loadedNoticeApply _ => none
  | .endedNoticeApply _ => none
  | .savedNoticeApply _ => none
  | .committedNoticeApply _ => none
  | .errorNoticeApply _ => none
  | .preemptNoticeApply _ => none
  | .resumeNoticeApply _ => none
  | .killNoticeApply _ => none
  | .killDrainEnd _ _ _ => none
  | .watchdogNoticeApply _ => none
  | .digestNoticeApply => none
  | .csrNoticeApply _ => none
  | .phaseNoticeApply _ => none
  | .histNoticeApply _ => none
  | .dieLossApply _ => none
  | .linkSplitApply _ => none
  | .wheelHistogramRead _ _ => none
  | .saveAreaAllocate => none
  | .saveRecordWrite _ _ _ => none
  | .commitWrite _ _ _ => none
  | .exchangeStep _ => none
  | .launchrWrite _ _ => none
  | .lstatClear _ _ => none
  | .mbCreate _ => none
  | .mbDestroy _ => none
  | .mbPreempt _ => none
  | .mbResume _ => none
  | .mbKill _ => none
  | .mbAssign _ => none
  | .mbQueryBootEntry _ => none
  | .mbQueryExcluded _ => none
  | .mbClrboot _ => none
  | .mbSupcfg _ => none
  | .mbDoorbellBusy _ => none
  | .windowRead _ _ _ => none
  | .windowWrite _ _ _ => none
  | .registerPageBadAccess _ _ _ _ => none
  | .registerWrite _ _ _ => none
  | .flr _ => none
  | .linkLoss => none
  | .linkRetrain => none
  | .linkHoldExpiry => none
  | .hotReset => none
  | .coldStart => none
  | .warmReset => none
  | .bootStepTimeout _ _ => none
  | .pldmDiscovery => none
  | .pldmSensorRead _ => none
  | .pldmFirmwareUpdate _ _ _ _ => none
  | .blackBoxRead _ _ => none
  | .bootRecordRead _ => none
  | .startCounterWrite _ => none
  | .peerEpochRead _ => none
  | .sidebandAttest _ => none
  | .fabricMapWrite _ _ _ => none
  | .vendorProvision => none
  | .saggarAttestServe => none
  | .saggarVerifyServe => none
  | .saggarMextServe => none
  | .thermalThrottle _ => none
  | .thermalShutdown _ => none
  | .linkFrameReceive _ _ => none
  | .linkReplay _ _ => none
  | .bexwenRetrain _ _ _ _ _ => none
  | .ctxBody _ _ _ => none
  | .phaseBody _ _ _ => none
  | .farrBody _ _ _ _ => none
  | .fexitBody _ _ _ => none
  | .fbreakBody _ _ _ => none
  | .remoteExchangeWrite _ _ _ _ _ _ _ => none
  | .remoteAtomicRequest _ => none
  | .remoteAtomicResponse _ => none
  | .ratomResendTimeout _ => none
  | .moduleUnreachable _ => none
  | .receiverLockLoss _ => none
  | .saggarPowerLoss => none
  | .pldmPowerDown => none
  | .productionFusing => none
  | .rmaToken _ => none

/-- The encoder: the tag and the word of a store entry; `none` for an event, which has no encoding. -/
def encode (i : Instr) : Option (Bool × Tiw) :=
  match i with
  | .execLiteral data => some (true, data)
  | i => (opcodeOf i).bind fun op => (operandsOf i).map fun f => (false, wordOf op f)

/-- The host's question: the instruction of the word numbered as spec/opcode_table.json numbers it. A word is one
code entry of 112 bits; the bits above `nbits` are zero. -/
def decodeTableWord (nbits w : Nat) : Option Instr :=
  match decodeBytes false ((List.range 14).map fun k => BitVec.ofNat 8 (w % 2 ^ nbits / 256 ^ k)) with
  | .ok (i, _) => some i
  | .error _ => none

end Sys2Proof
end

