-- ==== Sys2Proof/Machine/Fetch.lean ====
section
/-! DEFINITION. Fetching an instruction of a PE, and placing one. -/
namespace Sys2Proof.Machine

/-- The store entry at the PC of the firing of a PE (spec/03 R105). -/
def State.fetch (s : State) (pe : Nat) : Option (Nat × StoreEntry) :=
  (s.firingSlot pe).map fun t => (t, s.entry pe (s.task pe t).pc.toNat)

/-- An uncorrectable error in the fetched entry emits ILLEGAL_OP with `DETAIL`[8] = 1 and ends the firing as at a
literal entry (spec/06 R194; log entry 23). -/
def State.fetchFault (s : State) (pe slot : Nat) (w : Tiw) : State :=
  ((s.emit pe slot Cause.illegalOp ((opOf w).toNat + 256)).endFiring pe slot Cause.execLiteral).touch (coreOfPe pe)

/-- The slot and entry at which an instruction is placed so that PE 0 issues it next. -/
def State.placeSlot (s : State) : Nat := (s.firingSlot 0).getD 0

/-- PE 0 holds a firing, and the entry at its PC is this code word. -/
def State.place (s : State) (w : Tiw) : State :=
  let k := s.placeSlot
  let t := s.task 0 k
  (s.setTask 0 k { t with st := .firing, valid := true }).setEntry 0 t.pc.toNat { word := w }

end Sys2Proof.Machine
end

