-- ==== Sys2Proof/Machine/Upsets.lean ====
section
/-! DEFINITION. Upsets: what the manual lets happen to stored bits at any time (spec/06 R193 to R195, spec/08 R251,
spec/09 R259, spec/14 R397). Log entry 16. -/
namespace Sys2Proof.Machine

/-- The upset names units of the package. -/
def Upset.wf (u : Upset) : Bool :=
  match u with
  | .register pe r => pe < 32768 && r < 64
  | .slot pe n => pe < 32768 && n < 256
  | .store pe n => pe < 32768 && n < 256
  | .poolWord c w _ => c < 2048 && w < 65536
  | .glaze c k => c < 2048 && k < 523
  | .line l => l < 24 * 2 ^ 31
  | .opWord cl _ => cl < 128
  | .ovfEntry k e => k < 512 && e < 4096
  | .tileLine cl _ _ w => cl < 128 && w < 8
  | .stageLine cl _ _ _ w => cl < 128 && w < 8
  | .cacheFrame cl _ _ => cl < 128
  | .keyCopy cl k => cl < 128 && k < 1024
  | .keyMaster k => k < 1024
  | .bootCopy k => k < 2
  | .startCopy k => k < 2

/-- The handle of a PE whose buffer holds a slot. -/
def State.handleOfSlot (s : State) (pe n : Nat) : Option Nat :=
  firstBelow 32 fun h => let x := s.handle pe h; x.valid && decide (x.base ≤ n) && decide (n ≤ x.base + x.cntm1)

/-- The task slot of a PE that owns a handle. -/
def State.taskOfHandle (s : State) (pe h : Nat) : Option Nat :=
  firstBelow 8 fun t => (s.task pe t).valid && ((s.task pe t).portOf h).isSome

/-- An uncorrectable error in a slot's payload turns the token into a poison token (R194). -/
def State.slotUpset (s : State) (pe n : Nat) : State :=
  match s.handleOfSlot pe n with
  | none => s
  | some h =>
    let t := (s.taskOfHandle pe h).getD 0
    let r := s.record Cause.poolUe (s.coreOrigin 8 (coreOfPe pe) (pe % 16) t) n
    s.setSlotOf pe n { payload := r, poison := true, dom := s.domOf (coreOfPe pe) }

/-- A parity failure of an island in use stays until the next load; its event has a payload that the manual does not give (spec/09
R259; log entry 14). A data token in the output buffer has not left yet. -/
def State.glazeUpset (s : State) (c k : Nat) : State :=
  let g := s.glaze c
  if g.inUse && !g.bads.contains k then
    let s := ({ s.setGlaze c { g with bads := g.bads ++ [k] } with free := s.free + 1 }).logEvent (dieOfCore c) 0x2012
      (Config.openValue 0x2012 s.free) (s.domOf c) (coreEventOrigin c 0) true
    s.setGlaze c { s.glaze c with out := (s.glaze c).out.map (s.glazeBad c) }
  else s

/-- A frame of the n-th configuration-cache entry of a cluster (spec/01 R47). -/
def badFrame (cl frame : Nat) : Nat → List CacheImage → List CacheImage
  | _, [] => []
  | n, c :: cs =>
    if c.cluster ≠ cl then c :: badFrame cl frame n cs
    else match n with
      | 0 => { c with bad := frame :: c.bad } :: cs
      | n + 1 => c :: badFrame cl frame n cs

/-- Marks a line of a list. -/
def markLine {α : Type} (p : α → Bool) (f : α → α) : List α → List α
  | [] => []
  | x :: xs => if p x then f x :: xs else x :: markLine p f xs

/-- A further error in a pool word: a second single error is more than the code corrects, and a word that has failed stays so
(spec/08 R251, R252; log entry 16). -/
def PoolFault.hit (f : PoolFault) (hard : Bool) : PoolFault :=
  match f with
  | .good => if hard then .uncorrectable else .correctable
  | .pattern => .pattern
  | _ => .uncorrectable

/-- A controller's copy of a loaded key slot fails: it is repaired from the hub's master copy; if that is lost too, the copy is, and the slot's
domain is terminated, domain 0 apart (spec/14 R403, R410). The rule names no cause (log entry 110). -/
def State.keyUpset (s : State) (cl k : Nat) : State :=
  if !s.sag.lostKeys.contains k || (s.keySlot k).isNone then s
  else
    let s := { s with sag := { s.sag with lostCopies := if s.sag.lostCopies.contains (1024 * cl + k) then s.sag.lostCopies else (1024 * cl + k) :: s.sag.lostCopies } }
    if k = 0 then s else match s.openVal 0x403 with | (c, s) => s.post (.kill k (1 + c % 0x15) 0 none false)

def applyUpset (u : Upset) (s : State) : State :=
  match u with
  | .register pe r => s.setBadReg pe r true
  | .slot pe n => s.slotUpset pe n
  | .store pe n => s.setEntry pe n { s.entry pe n with ue := true }
  | .poolWord c w hard => s.setPoolFault c w ((s.poolFault c w).hit hard)
  | .glaze c k => s.glazeUpset c k
  | .line l => s.setLineFault l .uncorrectable
  | .opWord cl w => { s with cluster := { s.cluster with opBad := if s.cluster.opBad.contains (2 ^ 20 * cl + w) then s.cluster.opBad else (2 ^ 20 * cl + w) :: s.cluster.opBad } }
  | .ovfEntry k e => match s.kiln k with
    | some t => s.setKiln k (some { t with ovf := ⟨t.ovf.cells.map fun c => if c.1 = e then (c.1, c.2.map fun x => { x with bad := true }) else c⟩ })
    | none => s
  | .tileLine cl k l w => { s with cluster := { s.cluster with
      tiles := markLine (fun x => decide (x.cluster = cl ∧ x.key = k ∧ x.line = l)) (fun x => { x with bad := w :: x.bad }) s.cluster.tiles } }
  | .stageLine cl dom disp l w => { s with cluster := { s.cluster with
      stage := markLine (fun x => decide (x.cluster = cl ∧ x.dom = dom ∧ x.disp = disp ∧ x.line = l)) (fun x => { x with bad := w :: x.bad }) s.cluster.stage } }
  | .cacheFrame cl n f => { s with cluster := { s.cluster with cfgCache := badFrame cl f n s.cluster.cfgCache } }
  | .keyCopy cl k => s.keyUpset cl k
  | .keyMaster k => { s with sag := { s.sag with lostKeys := if s.sag.lostKeys.contains k then s.sag.lostKeys else k :: s.sag.lostKeys } }
  | .bootCopy k => { s with sag :=
      if k = 0 then { s.sag with boot0 := { s.sag.boot0 with valid := false } } else { s.sag with boot1 := { s.sag.boot1 with valid := false } } }
  | .startCopy k => { s with sag := if k = 0 then { s.sag with start0 := none } else { s.sag with start1 := none } }

end Sys2Proof.Machine
end

