-- ==== Sys2Proof/Machine/Step.lean ====
section
/-! DEFINITION. One step: the agent at the head of the agenda acts; with an empty agenda a free choice acts. -/
namespace Sys2Proof.Machine

/-- Who acts when the agenda is empty: a free choice, since the manual fixes no relative timing of units (spec/03 R115,
spec/13 R493). Log entry 24. -/
opaque schedule : Nat → Agent

/-- The agent names units of the package. An instruction of task code issues from its PE's firing alone, so it is no event (spec/03
R102). -/
def Agent.wf (a : Agent) : Bool :=
  match a with
  | .issue pe => decide (pe < 32768)
  | .event i => i.wf && (encode i).isNone
  | .upset u => u.wf

/-- A free choice among the agents that name units of the package. -/
def freeAgent (n : Nat) : Agent := if (schedule n).wf then schedule n else .issue 0

/-- The agent that acts, and the state without it, later by a free number of cycles. -/
def State.next (s : State) : Agent × State :=
  let s' := { s with now := s.now + Config.elapse s.free, free := s.free + 1 }
  match s.agenda with
  | [] => (freeAgent s.free, s')
  | a :: as => (a, { s' with agenda := as })

/-- A PE issues the instruction at the PC of its firing, if it holds one. -/
def issue (pe : Nat) (s : State) : Host.Outcome State Fault Refusal :=
  match s.fetch pe with
  | none => .next s
  | some (slot, e) =>
    if e.ue then .next (s.fetchFault pe slot e.word)
    else exec (decodeEntry e.literal e.word) { s with cur := pe }

def step (s : State) : Host.Outcome State Fault Refusal :=
  match s.next with
  | (a, s) =>
    if a.wf then
      match a with
      | .issue pe => issue pe s
      | .event i => exec i s
      | .upset u => .next (applyUpset u s)
    else .refused .illFormed

/-- The state with this instruction where PE 0 fetches next, and PE 0 about to issue. -/
def State.withFetchWord (s : State) (nbits w : Nat) : State :=
  { s.place (BitVec.ofNat 112 (w % 2 ^ nbits)) with agenda := [.issue 0] }

end Sys2Proof.Machine
end

