-- ==== Sys2Proof/Safety.lean ====
section
/-! DEFINITION. The terms in which claims are stated: what a safe run is, when an instruction executes normally
(spec/01 R12), and what it writes and leaves. The LD8 itself never stops at an instruction: a failing one emits poison
(spec/06). -/
namespace Sys2Proof.Machine

/-- The step answers a next state. -/
def runs (s : State) : Prop := ∃ t, step s = .next t

/-- The memories stand in their canonical form. -/
def State.memWf (s : State) : Prop := s.mem.wf = true ∧ s.core.pool.wf 0 = true

/-! ## Normal execution -/

/-- The instruction with fields `w` of the task in `slot` of PE `s.cur`, as it issues. -/
abbrev State.at (s : State) (spec : OpSpec) (w : Fields) (slot : Nat) : Issue := { s, pe := s.cur, slot, w, spec }

/-- The task in `slot` holds the firing of PE `s.cur`, the instruction passes every check of R12, and no register it
reads is upset (R193). -/
abbrev Ready (spec : OpSpec) (w : Fields) (slot : Nat) (s : State) : Prop :=
  s.firingSlot s.cur = some slot ∧ (s.at spec w slot).check = none ∧
  ∀ n ∈ (s.at spec w slot).regsRead, s.badReg s.cur n = false ∧ s.damagedReg s.cur n = false

/-- `Ready`, and an instruction whose guard acts on its whole effect has it on (R17). -/
abbrev ReadyOn (spec : OpSpec) (w : Fields) (slot : Nat) (s : State) : Prop :=
  Ready spec w slot s ∧ (s.at spec w slot).guard.getLsbD 0 = true

/-- The instruction is performed with `m` as the state that its own effect leaves, and then `NXT` decides where the task
goes on (R14). -/
def Performs (i : Instr) (op : Nat) (w : Fields) (slot : Nat) (s m : State) : Prop :=
  exec i s = .next (m.sequence s.cur slot (BitVec.ofNat 8 op) w)

/-! ## What an instruction writes and leaves -/

/-- What `D` holds in the state m. -/
def Issue.destIn (i : Issue) (m : State) : Word := ({ i with s := m } : Issue).oldD

/-- m is the issue state but for the word of `D` (and, for a register, what R193 keeps of its writes). A `D` of 0x90 discards. -/
def Issue.OnlyD (i : Issue) (m : State) : Prop :=
  match opnd i.w.d with
  | .reg n =>
    m = { i.s with unit := { i.s.unit with regs := m.unit.regs, oplog := m.unit.oplog, badRegs := m.unit.badRegs, damaged := m.unit.damaged } } ∧
    ∀ k, k ≠ 64 * i.pe + n → m.unit.regs.find k 0 = i.s.unit.regs.find k 0 ∧
      m.unit.badRegs.find k false = i.s.unit.badRegs.find k false ∧ m.unit.damaged.find k false = i.s.unit.damaged.find k false
  | .chan h =>
    m = { i.s with unit := { i.s.unit with slots := m.unit.slots } } ∧
    ∀ k, k ≠ 256 * i.pe + (i.s.handle i.pe h).slotAt i.offD → m.unit.slots.find k {} = i.s.unit.slots.find k {}
  | _ => m = i.s

/-- The state m with the predicates of s. -/
def State.withPreds (m s : State) : State := { m with unit := { m.unit with preds := s.unit.preds } }

/-- Predicate q alone differs between the issue state and m. -/
def Issue.OnlyQ (i : Issue) (q : Nat) (m : State) : Prop :=
  m.withPreds i.s = i.s ∧ ∀ k, k ≠ 8 * i.pe + q → m.unit.preds.find k 0 = i.s.unit.preds.find k 0

/-- Lane k of width `wd` of `D` is `f k` where the guard bit is 1 and keeps its value elsewhere (R17). -/
def Issue.Lanes (i : Issue) (wd : Nat) (m : State) (f : Nat → Nat) : Prop :=
  opnd i.w.d ≠ .zero → ∀ k < 256 / wd,
    laneOf wd k (i.destIn m) = if i.guard.getLsbD k then f k % 2 ^ wd else laneOf wd k i.oldD

/-- Bit n of `D` is `f n` where the guard bit of its lane, or of its byte, is 1, and keeps its value elsewhere (R17, R119). -/
def Issue.Bits (i : Issue) (m : State) (f : Nat → Bool) : Prop :=
  opnd i.w.d ≠ .zero → ∀ n < 256,
    (i.destIn m).getLsbD n = if i.guard.getLsbD (n / Nat.max i.lw 8) then f n else i.oldD.getLsbD n

/-- No lane of width `wd` is enabled (R17); a lane narrower than 8 bits goes with its byte (R119). -/
def Issue.Masked (i : Issue) (wd : Nat) : Prop := ∀ k < 256 / Nat.max wd 8, i.guard.getLsbD k = false

/-- The instruction completes for every operand form that passes the checks: the lanes of width `wd` of `D` are those of
`f`, and nothing else changes before `NXT`; where no lane is enabled nothing at all is written (R17). -/
def WritesLanes (c : Fields → Instr) (spec : Fields → OpSpec) (wd : Issue → Nat) (f : Issue → Nat → Nat) : Prop :=
  ∀ w slot s, Ready (spec w) w slot s → ∃ m, Performs (c w) (spec w).op w slot s m ∧ (s.at (spec w) w slot).OnlyD m ∧
    (s.at (spec w) w slot).Lanes (wd (s.at (spec w) w slot)) m (f (s.at (spec w) w slot)) ∧
    ((s.at (spec w) w slot).Masked (wd (s.at (spec w) w slot)) → m = s)

/-- As `WritesLanes`, bit by bit. -/
def WritesBits (c : Fields → Instr) (spec : Fields → OpSpec) (f : Issue → Nat → Bool) : Prop :=
  ∀ w slot s, Ready (spec w) w slot s → ∃ m, Performs (c w) (spec w).op w slot s m ∧ (s.at (spec w) w slot).OnlyD m ∧
    (s.at (spec w) w slot).Bits m (f (s.at (spec w) w slot)) ∧ ((s.at (spec w) w slot).Masked (s.at (spec w) w slot).lw → m = s)

/-- The instruction completes: with the guard on, `D` is the whole word `f`; with it off, nothing changes before `NXT`. -/
def WritesScalar (c : Fields → Instr) (spec : Fields → OpSpec) (f : Issue → Nat) : Prop :=
  ∀ w slot s, Ready (spec w) w slot s → ∃ m, Performs (c w) (spec w).op w slot s m ∧
    if (s.at (spec w) w slot).guard.getLsbD 0 then
      (s.at (spec w) w slot).OnlyD m ∧
        (opnd w.d ≠ .zero → (s.at (spec w) w slot).destIn m = BitVec.ofNat 256 (f (s.at (spec w) w slot)))
    else m = s

/-- The instruction completes and writes the whole word `f` to `D`, whatever its guard holds. -/
def WritesWord (c : Fields → Instr) (spec : Fields → OpSpec) (f : Issue → Nat) : Prop :=
  ∀ w slot s, Ready (spec w) w slot s → ∃ m, Performs (c w) (spec w).op w slot s m ∧ (s.at (spec w) w slot).OnlyD m ∧
    (opnd w.d ≠ .zero → (s.at (spec w) w slot).destIn m = BitVec.ofNat 256 (f (s.at (spec w) w slot)))

/-- The instruction completes: bit k of the predicate that `D` names is `f k`, and nothing else changes before `NXT`. -/
def WritesPred (c : Fields → Instr) (spec : Fields → OpSpec) (f : Issue → Nat → Bool) : Prop :=
  ∀ w slot s, Ready (spec w) w slot s → ∃ m, Performs (c w) (spec w).op w slot s m ∧
    (s.at (spec w) w slot).OnlyQ (Issue.predNum w.d) m ∧
    ∀ k < 32, (m.predOf s.cur (Issue.predNum w.d)).getLsbD k = f (s.at (spec w) w slot) k

/-- The instruction completes, with lanes for `D` and a carry bit for each lane in the predicate that `C` names (R124). -/
def WritesCarry (c : Fields → Instr) (spec : Fields → OpSpec) (f : Issue → Nat → Nat) (g : Issue → Nat → Bool) : Prop :=
  ∀ w slot s, Ready (spec w) w slot s → ∃ m, Performs (c w) (spec w).op w slot s m ∧
    (s.at (spec w) w slot).OnlyD (m.withPreds s) ∧
    (∀ k, k ≠ 8 * s.cur + Issue.predNum w.c → m.unit.preds.find k 0 = s.unit.preds.find k 0) ∧
    (s.at (spec w) w slot).Lanes (fmtWidth w.fmt.toNat) m (f (s.at (spec w) w slot)) ∧
    ((s.at (spec w) w slot).Masked (fmtWidth w.fmt.toNat) → m.withPreds s = s) ∧
    ∀ k < 32, (m.predOf s.cur (Issue.predNum w.c)).getLsbD k =
      (decide (k < fmtLanes w.fmt.toNat) && if (s.at (spec w) w slot).guard.getLsbD k then g (s.at (spec w) w slot) k
        else (s.predOf s.cur (Issue.predNum w.c)).getLsbD k)

/-- The instruction completes and writes lanes; unless `.nz` is set, an enabled lane whose divisor is zero makes it emit poison beside its
results (R126), whose `DETAIL` names every lane with a zero divisor (R188). -/
def WritesQuotient (c : Fields → Instr) (spec : Fields → OpSpec) (f : Issue → Nat → Nat) : Prop :=
  ∀ w slot s, Ready (spec w) w slot s →
    let x := s.at (spec w) w slot
    let z := bitmapOf x.ln fun k => decide (x.b k = 0)
    let enabled := ∃ k < x.ln, x.guard.getLsbD k = true ∧ x.b k = 0
    ∃ m, ((enabled ∧ w.mod.getLsbD 0 = false → Performs (c w) (spec w).op w slot s (m.emit s.cur slot Cause.divZero z)) ∧
        (¬ (enabled ∧ w.mod.getLsbD 0 = false) → Performs (c w) (spec w).op w slot s m)) ∧
      x.OnlyD m ∧ x.Lanes x.lw m (f x) ∧ (x.Masked x.lw → m = s)

/-- Bit k of a predicate from the lanes of `FMT`: 0 at and above the lane count, and kept where the guard is off (R118). -/
def Issue.laneBit (i : Issue) (b : BitVec 8) (f : Nat → Bool) (k : Nat) : Bool :=
  decide (k < i.ln) && if i.guard.getLsbD k then f k else (i.predVal b).getLsbD k

/-- Bit k of a predicate written bit by bit under the guard (R118, R133). -/
def Issue.guardBit (i : Issue) (b : BitVec 8) (f : Nat → Bool) (k : Nat) : Bool :=
  if i.guard.getLsbD k then f k else (i.predVal b).getLsbD k

/-- The value that a blocking request brought back. -/
def Wait.value (w : Wait) : Word := match w with | .memDone v _ => v | _ => 0

/-- The record of the failure that a blocking request brought back. -/
def Wait.failure (w : Wait) : Option Word := match w with | .memDone _ f => f | _ => Option.none

/-- Where the guard is on and `cond` holds, the instruction completes and its own effect leaves the state `m`. -/
def Completes (c : Fields → Instr) (spec : Fields → OpSpec) (cond : Issue → Prop) (m : Issue → State) : Prop :=
  ∀ w slot s, ReadyOn (spec w) w slot s → cond (s.at (spec w) w slot) →
    Performs (c w) (spec w).op w slot s (m (s.at (spec w) w slot))

/-- Where the guard is on and `cond` holds, the instruction holds issue: it is not yet performed, and leaves the state `m`. -/
def Holds (c : Fields → Instr) (spec : Fields → OpSpec) (cond : Issue → Prop) (m : Issue → State) : Prop :=
  ∀ w slot s, ReadyOn (spec w) w slot s → cond (s.at (spec w) w slot) → exec (c w) s = .next (m (s.at (spec w) w slot))

/-- Where the guard is on and `cond` holds, the instruction takes an exception: its only effect is a poison token of this cause
and `DETAIL`, and it goes on by `NXT` (R13). -/
def Fails (c : Fields → Instr) (spec : Fields → OpSpec) (cond : Issue → Prop) (cause : Nat) (detail : Issue → Nat) : Prop :=
  ∀ w slot s, ReadyOn (spec w) w slot s → cond (s.at (spec w) w slot) →
    Performs (c w) (spec w).op w slot s (s.emit s.cur slot cause (detail (s.at (spec w) w slot)))

/-- With the guard off the instruction does nothing but go on by `NXT` (R17). -/
def SkipsOff (c : Fields → Instr) (spec : Fields → OpSpec) : Prop :=
  ∀ w slot s, Ready (spec w) w slot s → (s.at (spec w) w slot).guard.getLsbD 0 = false → Performs (c w) (spec w).op w slot s s

end Sys2Proof.Machine
end

