-- ==== Sys2Proof/Certificates/Slice0/Obligations.lean ====
section
/-! DEFINITION. The statements for the provers. -/

open Sys2Proof Sys2Proof.Machine

/-! ## The unit: integer instructions -/

/-- R122, R123, R125: the moves and the integer arithmetic complete and write these lanes. -/
def Claims.IntegerLanes : Prop :=
  WritesBits .mov (fun _ => spec1 0x01 (List.range 15)) (fun x n => x.wa.getLsbD n) ∧
  WritesBits .ldi (fun _ => { op := 0x02, fmts := some (List.range 15), d := .dst, a := .immOnly })
    (fun x n => x.immLane.testBit (n % x.lw)) ∧
  WritesLanes .ldih (fun _ => { op := 0x03, fmts := some [2, 3, 6, 7], d := .regOnly, a := .immOnly, readsD := true }) Issue.lw
    (fun x k => laneOf x.lw k x.oldD % 2 ^ (x.lw - 16) + x.imm % 2 ^ 16 * 2 ^ (x.lw - 16)) ∧
  WritesLanes .lea (fun _ => { spec3 0x05 [2, 3, 6, 7] with mods := fun _ => true }) Issue.lw
    (fun x k => x.a k + x.b k * 2 ^ x.mod + x.c k) ∧
  WritesLanes .add (fun _ => spec2 0x06 intFmts) Issue.lw (fun x k => x.a k + x.b k) ∧
  WritesLanes .sub (fun _ => spec2 0x08 intFmts) Issue.lw (fun x k => x.a k + (2 ^ x.lw - x.b k)) ∧
  WritesLanes .neg (fun _ => { spec1 0x0A intFmts with mods := modSat }) Issue.lw (fun x k => fit x.sgn x.sat x.lw (-x.ai k)) ∧
  WritesLanes .abs (fun _ => { spec1 0x0B intFmts with mods := modSat }) Issue.lw (fun x k => fit x.sgn x.sat x.lw (x.ai k).natAbs) ∧
  WritesLanes .min (fun _ => spec2 0x0C intFmts) Issue.lw (fun x k => if x.ai k ≤ x.bi k then x.a k else x.b k) ∧
  WritesLanes .max (fun _ => spec2 0x0D intFmts) Issue.lw (fun x k => if x.ai k ≤ x.bi k then x.b k else x.a k) ∧
  WritesLanes .clamp (fun _ => spec3 0x0E intFmts) Issue.lw
    (fun x k => if x.ci k < x.ai k ∨ x.ci k < x.bi k then x.c k else if x.ai k ≤ x.bi k then x.b k else x.a k) ∧
  WritesLanes .mul (fun _ => { spec2 0x0F intFmts with mods := modSat }) Issue.lw (fun x k => fit x.sgn x.sat x.lw (x.ai k * x.bi k)) ∧
  WritesLanes .mulh (fun _ => spec2 0x10 intFmts) Issue.lw (fun x k => wrapTo x.lw (x.ai k * x.bi k / 2 ^ x.lw)) ∧
  WritesLanes .mad (fun _ => { spec3 0x11 intFmts with mods := modSat }) Issue.lw
    (fun x k => fit x.sgn x.sat x.lw (x.ai k * x.bi k + x.ci k)) ∧
  WritesLanes .adds (fun _ => spec2 0x30 intFmts) Issue.lw (fun x k => fit x.sgn true x.lw (x.ai k + x.bi k)) ∧
  WritesLanes .subs (fun _ => spec2 0x31 intFmts) Issue.lw (fun x k => fit x.sgn true x.lw (x.ai k - x.bi k)) ∧
  WritesLanes .avg (fun _ => spec2 0x32 intFmts) Issue.lw (fun x k => wrapTo x.lw ((x.ai k + x.bi k + 1) / 2)) ∧
  WritesLanes .absd (fun _ => spec2 0x33 intFmts) Issue.lw (fun x k => (x.ai k - x.bi k).natAbs)

/-- R124: `ADDC` and `SUBB` chain a carry through the predicate of `C`. -/
def Claims.CarryLanes : Prop :=
  WritesCarry .addc (fun _ => { spec2 0x07 intFmts with c := .predOnly })
    (fun x k => x.a k + x.b k + if (x.predVal x.w.c).getLsbD k then 1 else 0)
    (fun x k => decide (2 ^ x.lw ≤ x.a k + x.b k + if (x.predVal x.w.c).getLsbD k then 1 else 0)) ∧
  WritesCarry .subb (fun _ => { spec2 0x09 intFmts with c := .predOnly })
    (fun x k => wrapTo x.lw ((x.a k : Int) - x.b k - if (x.predVal x.w.c).getLsbD k then 1 else 0))
    (fun x k => decide (x.a k < x.b k + if (x.predVal x.w.c).getLsbD k then 1 else 0))

/-- R126: `DIV` and `REM`, with the results for a zero divisor and for the most negative dividend by −1. -/
def Claims.Quotients : Prop :=
  WritesQuotient .div (fun _ => { spec2 0x12 intFmts with mods := modSatBit0 })
    (fun x k => if x.b k = 0 then 2 ^ x.lw - 1
      else if x.sgn = true ∧ x.a k = 2 ^ (x.lw - 1) ∧ x.b k = 2 ^ x.lw - 1 then
        (if x.sat then 2 ^ (x.lw - 1) - 1 else 2 ^ (x.lw - 1))
      else wrapTo x.lw ((x.ai k).tdiv (x.bi k))) ∧
  WritesQuotient .rem (fun _ => { spec2 0x13 intFmts with mods := modBit0 })
    (fun x k => if x.b k = 0 then x.a k else wrapTo x.lw ((x.ai k).tmod (x.bi k)))

/-- R123, R127: the sums of absolute differences, the widening instructions and the dot product. An immediate or a lane index in the
wide operand stands in that operand's own lanes (the model's reading, log entry 99). -/
def Claims.WideLanes : Prop :=
  WritesScalar .sad (fun _ => { spec3 0x34 intFmts with perLane := false })
    (fun x => (x.sc + ((List.range x.ln).map fun k => (x.ai k - x.bi k).natAbs).sum) % 2 ^ 64) ∧
  WritesLanes .wmul (fun _ => { spec2 0x35 [0, 1, 2, 4, 5, 6] with mods := modBit0 }) (fun x => 2 * x.lw)
    (fun x j => wrapTo (2 * x.lw) (x.ai (x.half + j) * x.bi (x.half + j))) ∧
  WritesLanes .wadd (fun _ => { spec2 0x36 [0, 1, 2, 4, 5, 6] with mods := modSatBit0 }) (fun x => 2 * x.lw)
    (fun x j => fit x.sgn x.sat (2 * x.lw) (laneInt x.sgn (2 * x.lw) (laneOf (2 * x.lw) j x.wideA) + x.bi (x.half + j))) ∧
  WritesLanes .doti (fun _ => { spec3 0x37 [0, 4] with mods := modSat }) (fun _ => 32)
    (fun x j => fit x.sgn x.sat 32 (laneInt x.sgn 32 (laneOf 32 j x.wideC) + (x.ai (4 * j) * x.bi (4 * j) +
      x.ai (4 * j + 1) * x.bi (4 * j + 1) + x.ai (4 * j + 2) * x.bi (4 * j + 2) + x.ai (4 * j + 3) * x.bi (4 * j + 3))))

/-- R128, R119: the bitwise instructions, over all formats from i8 to n64 and b1. -/
def Claims.BitwiseLogic : Prop :=
  WritesBits .and (fun _ => spec2 0x14 intB1) (fun x n => x.wa.getLsbD n && x.wb.getLsbD n) ∧
  WritesBits .or (fun _ => spec2 0x15 intB1) (fun x n => x.wa.getLsbD n || x.wb.getLsbD n) ∧
  WritesBits .xor (fun _ => spec2 0x16 intB1) (fun x n => x.wa.getLsbD n ^^ x.wb.getLsbD n) ∧
  WritesBits .andn (fun _ => spec2 0x17 intB1) (fun x n => x.wa.getLsbD n && !x.wb.getLsbD n) ∧
  WritesBits .orn (fun _ => spec2 0x18 intB1) (fun x n => x.wa.getLsbD n || !x.wb.getLsbD n)

/-- R128, R129: shifts, rotations, counts and bit fields. -/
def Claims.ShiftsAndFields : Prop :=
  WritesLanes .shl (fun _ => { spec2 0x19 intFmts with mods := modSat }) Issue.lw
    (fun x k => if x.b k < x.lw then fit x.sgn x.sat x.lw (x.ai k * 2 ^ x.b k)
      else if x.sat = true ∧ x.a k ≠ 0 then wrapTo x.lw (if x.ai k < 0 then minInt x.sgn x.lw else maxInt x.sgn x.lw) else 0) ∧
  WritesLanes .shr (fun _ => spec2 0x1A intFmts) Issue.lw (fun x k => x.a k / 2 ^ x.b k) ∧
  WritesLanes .sar (fun _ => spec2 0x1B intFmts) Issue.lw (fun x k => wrapTo x.lw (signedOf x.lw (x.a k) / 2 ^ x.b k)) ∧
  WritesLanes .rol (fun _ => spec2 0x1C intFmts) Issue.lw
    (fun x k => x.a k * 2 ^ (x.b k % x.lw) + x.a k / 2 ^ (x.lw - x.b k % x.lw)) ∧
  WritesLanes .bfx (fun _ => { op := 0x1D, fmts := some intFmts, d := .dst, a := .srcNoImm, xok := fun _ w imm => fieldOk true w imm }) Issue.lw
    (fun x k => if x.sgn then wrapTo x.lw (signedOf (fldLen x.imm) (x.a k / 2 ^ fldPos x.imm))
      else x.a k / 2 ^ fldPos x.imm % 2 ^ fldLen x.imm) ∧
  WritesLanes .bfi (fun _ => { op := 0x1E, fmts := some intFmts, d := .dst, a := .srcNoImm, b := .src, xok := fun _ w imm => fieldOk true w imm }) Issue.lw
    (fun x k => x.a k % 2 ^ fldPos x.imm + x.b k % 2 ^ fldLen x.imm * 2 ^ fldPos x.imm +
      x.a k / 2 ^ (fldPos x.imm + fldLen x.imm) * 2 ^ (fldPos x.imm + fldLen x.imm)) ∧
  WritesLanes .popc (fun _ => spec1 0x1F intFmts) Issue.lw
    (fun x k => ((List.range x.lw).filter fun n => (x.a k).testBit n).length) ∧
  WritesLanes .clz (fun _ => spec1 0x20 intFmts) Issue.lw
    (fun x k => (firstBelow x.lw fun n => (x.a k).testBit (x.lw - 1 - n)).getD x.lw) ∧
  WritesLanes .ctz (fun _ => spec1 0x21 intFmts) Issue.lw (fun x k => (firstBelow x.lw fun n => (x.a k).testBit n).getD x.lw) ∧
  WritesLanes .brev (fun _ => spec1 0x22 intFmts) Issue.lw (fun x k => bitmapOf x.lw fun n => (x.a k).testBit (x.lw - 1 - n)) ∧
  WritesLanes .sext (fun _ => { op := 0x25, fmts := some intFmts, d := .dst, a := .srcNoImm, xok := fun _ w imm => fieldOk false w imm }) Issue.lw
    (fun x k => wrapTo x.lw (signedOf (fldLen x.imm) (x.a k))) ∧
  WritesLanes .zext (fun _ => { op := 0x26, fmts := some intFmts, d := .dst, a := .srcNoImm, xok := fun _ w imm => fieldOk false w imm }) Issue.lw
    (fun x k => x.a k % 2 ^ fldLen x.imm)

/-- R130, R131, R132: comparison, selection and packing. -/
def Claims.CompareSelectPack : Prop :=
  WritesPred .cmp (fun _ => { op := 0x23, fmts := some intFmts, d := .predOnly, a := .src, b := .src, mods := fun w => w.mod.toNat < 6 })
    (fun x => x.laneBit x.w.d fun k => match x.mod with
      | 0 => decide (x.ai k = x.bi k) | 1 => decide (x.ai k ≠ x.bi k) | 2 => decide (x.ai k < x.bi k)
      | 3 => decide (x.ai k ≤ x.bi k) | 4 => decide (x.bi k < x.ai k) | _ => decide (x.bi k ≤ x.ai k)) ∧
  WritesLanes .sel (fun _ => { spec2 0x24 (intFmts ++ floatFmts) with c := .predOnly }) Issue.lw
    (fun x k => if (x.predVal x.w.c).getLsbD k then x.a k else x.b k) ∧
  WritesLanes .packs (fun _ => { spec2 0x27 [1, 2, 3, 5, 6, 7] with mods := modBit0 }) (fun x => x.lw / 2)
    (fun x j => fit (x.sgn && !x.w.mod.getLsbD 0) true (x.lw / 2) (if j < x.ln then x.ai j else x.bi (j - x.ln)))

/-- R133, R118: the predicate instructions write bit by bit under the guard. -/
def Claims.Predicates : Prop :=
  WritesPred .qand (fun _ => specQ 0x28) (fun x => x.guardBit x.w.d fun k => (x.predVal x.w.a).getLsbD k && (x.predVal x.w.b).getLsbD k) ∧
  WritesPred .qor (fun _ => specQ 0x29) (fun x => x.guardBit x.w.d fun k => (x.predVal x.w.a).getLsbD k || (x.predVal x.w.b).getLsbD k) ∧
  WritesPred .qxor (fun _ => specQ 0x2A) (fun x => x.guardBit x.w.d fun k => (x.predVal x.w.a).getLsbD k ^^ (x.predVal x.w.b).getLsbD k) ∧
  WritesPred .qnot (fun _ => specQ1 0x2B) (fun x => x.guardBit x.w.d fun k => !(x.predVal x.w.a).getLsbD k) ∧
  WritesPred .qmov (fun _ => { op := 0x2C, d := .predOnly, a := .predOrSrc })
    (fun x => x.guardBit x.w.d fun k => match opnd x.w.a with | .pred q => (x.s.predOf x.pe q).getLsbD k | _ => x.wa.getLsbD k) ∧
  WritesPred .qany (fun _ => specQ1 0x2D) (fun x => x.guardBit x.w.d fun _ => decide (x.predVal x.w.a ≠ 0))

/-- R122, R133, R17: `LDL`, `LCGET` and `LCSET` act as a whole under the guard. -/
def Claims.LoopCounters : Prop :=
  WritesScalar .ldl (fun _ => { op := 0x04, d := .dst, perLane := false, xok := fun s _ imm => (s.entry s.cur (imm % 256)).literal })
    (fun x => (x.s.entry x.pe (x.imm % 256)).word.toNat) ∧
  WritesScalar .lcget (fun _ => { op := 0x2F, d := .dst, a := .lcOnly, perLane := false })
    (fun x => (x.task.lc (lcNum x.w.a)).toNat) ∧
  ∀ w slot s, Ready { op := 0x2E, d := .lcOnly, a := .src, perLane := false } w slot s →
    let x := s.at { op := 0x2E, d := .lcOnly, a := .src, perLane := false } w slot
    Performs (.lcset w) 0x2E w slot s
      (if x.guard.getLsbD 0 then s.setTask s.cur slot ((s.task s.cur slot).setLc (lcNum w.d) (BitVec.ofNat 16 x.sa)) else s)

/-! ## The unit: vector, floating-point and conversion instructions -/

/-- R159: the floating-point arithmetic forms each lane exactly and rounds it once. -/
def Claims.FloatArithmetic : Prop :=
  let once (c : Fields → Instr) (sp : OpSpec) (f : Issue → Nat → FVal) : Prop :=
    WritesLanes c (fun _ => sp) Issue.lw fun x k => x.ff.round x.rm x.sat x.ftz (f x k)
  once .fadd (specF2 0x40) (fun x k => .add x.rm (x.av k) (x.bv k)) ∧
  once .fsub (specF2 0x41) (fun x k => .add x.rm (x.av k) (x.bv k).neg) ∧
  once .fmul (specF2 0x42) (fun x k => .mul (x.av k) (x.bv k)) ∧
  once .fma (specF3 0x43) (fun x k => .add x.rm (.mul (x.av k) (x.bv k)) (x.cv k)) ∧
  once .fms (specF3 0x44) (fun x k => .add x.rm (.mul (x.av k) (x.bv k)) (x.cv k).neg) ∧
  once .fnma (specF3 0x45) (fun x k => .add x.rm (FVal.mul (x.av k) (x.bv k)).neg (x.cv k)) ∧
  once .fnms (specF3 0x46) (fun x k => .add x.rm (FVal.mul (x.av k) (x.bv k)).neg (x.cv k).neg) ∧
  once .fdiv (specF2 0x47) (fun x k => .div (x.av k) (x.bv k)) ∧
  once .fscaleb { specF2 0x92 with laneCheck := false } (fun x k => (x.av k).scale (x.scaleBy k))

/-- R160 to R166: minimum and maximum, sign edits, classes, integral rounding, exponents and the dot product. -/
def Claims.FloatSelection : Prop :=
  let m1 (op : Nat) : OpSpec := { specF2 op with mods := modBit0 }
  WritesLanes .fmin (fun _ => m1 0x48) Issue.lw (fun x k => x.ff.pick false false x.ftz (x.a k) (x.b k)) ∧
  WritesLanes .fmax (fun _ => m1 0x49) Issue.lw (fun x k => x.ff.pick true false x.ftz (x.a k) (x.b k)) ∧
  WritesLanes .fminn (fun _ => m1 0x4A) Issue.lw (fun x k => x.ff.pick false true x.ftz (x.a k) (x.b k)) ∧
  WritesLanes .fmaxn (fun _ => m1 0x4B) Issue.lw (fun x k => x.ff.pick true true x.ftz (x.a k) (x.b k)) ∧
  WritesLanes .fabs (fun _ => spec1 0x4C floatFmts) Issue.lw (fun x k => x.a k % x.ff.signBit) ∧
  WritesLanes .fneg (fun _ => spec1 0x4D floatFmts) Issue.lw (fun x k => x.a k ^^^ x.ff.signBit) ∧
  WritesLanes .fcpys (fun _ => spec2 0x4E floatFmts) Issue.lw
    (fun x k => x.a k % x.ff.signBit + x.b k / x.ff.signBit * x.ff.signBit) ∧
  WritesPred .fcmp (fun _ => { op := 0x4F, fmts := some floatFmts, d := .predOnly, a := .src, b := .src, mods := modAny })
    (fun x => x.laneBit x.w.d fun k => fcmpHolds (x.mod / 2) (x.av k) (x.bv k)) ∧
  WritesLanes .fclass (fun _ => { spec1 0x50 floatFmts with mods := modBit0 }) Issue.lw
    (fun x k => 2 ^ x.ff.classOf x.ftz (x.a k)) ∧
  WritesLanes .frint (fun _ => { spec1 0x51 floatFmts with mods := modRf }) Issue.lw
    (fun x k => x.ff.integral x.rm x.ftz (x.a k)) ∧
  WritesLanes .fgetexp (fun _ => { spec1 0x93 floatFmts with mods := modBit0, laneCheck := false }) Issue.lw
    (fun x k => x.ff.round 0 false false (x.av k).exponent) ∧
  WritesLanes .fdot (fun _ => { spec3 0x52 [8, 9] with mods := modAny }) (fun _ => 32)
    (fun x j => f32.round x.rm x.sat x.ftz (.add x.rm (f32.decode x.ftz (laneOf 32 j x.f32C)) (f32.decode false
      (f32.round x.rm false x.ftz
        (.add x.rm (.mul (x.av (2 * j)) (x.bv (2 * j))) (.mul (x.av (2 * j + 1)) (x.bv (2 * j + 1))))))))

/-- R167, R168, R169: reductions and scans; a disabled lane stands for the identity. -/
def Claims.Reductions : Prop :=
  WritesWord .vred (fun _ => { specRed 0x53 false with wholeD := true })
    (fun x =>
      if isFloat x.fmt ∨ rop x.imm ≠ 0 then
        let t := ((treeFold (ropApply x.fmt (rop x.imm) x.rm x.ftz) 5 ((List.range x.ln).map x.redLane)).head?).getD 0
        if isFloat x.fmt then x.ff.saturate x.sat t else t
      else fit x.sgn x.sat x.lw (((List.range x.ln).map fun k => if x.guard.getLsbD k then x.ai k else 0).sum)) ∧
  WritesLanes .vscan (fun _ => specRed 0x54 true) Issue.lw
    (fun x k =>
      let n := if excl x.imm then k else k + 1
      if isFloat x.fmt then x.ff.saturate x.sat (x.scanBefore n)
      else if rop x.imm = 0 then fit x.sgn x.sat x.lw (((List.range n).map fun k => if x.guard.getLsbD k then x.ai k else 0).sum)
      else x.scanBefore n)

/-- R170 to R175: the lane-movement instructions. -/
def Claims.LaneMovement : Prop :=
  WritesLanes .vperm (fun _ => spec3 0x55 permFmts) Issue.lw
    (fun x k => if x.c k < x.ln then x.a (x.c k) else if x.c k < 2 * x.ln then x.b (x.c k - x.ln) else 0) ∧
  WritesLanes .vshuf (fun _ => { spec1 0x56 permFmts with xok := fun _ _ imm => imm % 2 ^ 16 / 2 ^ 8 = 0 }) Issue.lw
    (fun x k => x.a (4 * (k / 4) + fieldNat (2 * (k % 4)) 2 x.imm)) ∧
  WritesLanes .vbcast (fun _ => { spec1 0x57 permFmts with
      xok := fun _ w imm => laneFieldOk w imm && (opnd w.a ≠ .imm || decide (imm % 32 = 0)) }) Issue.lw
    (fun x _ => x.a (x.imm % 32)) ∧
  WritesBits .vsel (fun _ => spec3 0x58 (List.range 15)) (fun x n => if x.wc.getLsbD n then x.wa.getLsbD n else x.wb.getLsbD n) ∧
  WritesLanes .vins (fun _ => { spec2 0x59 permFmts with xok := fun _ w imm => laneFieldOk w imm }) Issue.lw
    (fun x k => if k = x.imm % 32 then x.a 0 else x.b k) ∧
  WritesLanes .vext (fun _ => { spec1 0x5A permFmts with xok := fun _ w imm => laneFieldOk w imm }) Issue.lw
    (fun x k => if k = 0 then x.a (x.imm % 32) else 0) ∧
  WritesLanes .vcmpr (fun _ => { spec1 0x5C permFmts with b := .predOnly }) Issue.lw
    (fun x j => match firstBelow x.ln fun n => (x.predVal x.w.b).getLsbD n && rankIn (x.predVal x.w.b) n = j with
      | some n => x.a n | none => 0) ∧
  WritesLanes .vexpd (fun _ => { spec1 0x5D permFmts with b := .predOnly }) Issue.lw
    (fun x k => if (x.predVal x.w.b).getLsbD k then x.a (rankIn (x.predVal x.w.b) k) else 0) ∧
  WritesLanes .vzip (fun _ => { spec2 0x5E permFmts with mods := modBit0 }) Issue.lw
    (fun x k => if k % 2 = 0 then x.a (x.half + k / 2) else x.b (x.half + k / 2)) ∧
  WritesLanes .vunzip (fun _ => { spec2 0x5F permFmts with mods := modBit0 }) Issue.lw
    (fun x k => let h := if x.w.mod.getLsbD 0 then 1 else 0
      if k < x.ln / 2 then x.a (2 * k + h) else x.b (2 * (k - x.ln / 2) + h)) ∧
  WritesLanes .vsort (fun _ => { spec1 0x60 permFmts with mods := modBit0 }) Issue.lw
    (fun x k =>
      let xs := (List.range x.ln).map x.a
      let less := fun u v => if x.w.mod.getLsbD 0 then sortsBelow x.fmt v u else sortsBelow x.fmt u v
      (sortBy less (xs.filter fun v => !sortsLast x.fmt v) ++ xs.filter (sortsLast x.fmt)).getD k 0) ∧
  WritesLanes .viota (fun _ => { op := 0x61, fmts := some intFmts, d := .dst, a := .predOnly }) Issue.lw
    (fun x k => ((List.range k).filter fun n => (x.predVal x.w.a).getLsbD n).length) ∧
  WritesPred .vmask (fun _ => { op := 0x62, fmts := some permFmts, d := .predOnly, a := .src })
    (fun x => x.laneBit x.w.d fun k => decide (k < x.sa))

/-- The opcode's form of `VROT` for these fields: of predicates, or of words (R172). -/
def rotSpec (both : Bool) : OpSpec :=
  { op := 0x5B, fmts := some permFmts, d := if both then .predOnly else .dst, a := if both then .predOnly else .src, b := .src }

/-- R172: `VROT` moves lane i to lane (i + n) mod L, of a word, and of a predicate when `D` and `A` are both predicates. -/
def Claims.Rotations : Prop :=
  (∀ w slot s, (∀ q p, opnd w.d = .pred q → opnd w.a ≠ .pred p) → Ready (rotSpec false) w slot s →
    let x := s.at (rotSpec false) w slot
    ∃ m, Performs (.vrot w) 0x5B w slot s m ∧ x.OnlyD m ∧
      (opnd w.d ≠ .zero → ∀ k < x.ln, x.guard.getLsbD ((k + x.sb) % x.ln) = true →
        laneOf x.lw ((k + x.sb) % x.ln) (x.destIn m) = x.a k)) ∧
  ∀ w slot s q p, opnd w.d = .pred q → opnd w.a = .pred p → Ready (rotSpec true) w slot s →
    let x := s.at (rotSpec true) w slot
    ∃ m, Performs (.vrot w) 0x5B w slot s m ∧ x.OnlyQ q m ∧ (∀ k, x.ln ≤ k → (m.predOf s.cur q).getLsbD k = false) ∧
      ∀ k < x.ln, x.guard.getLsbD ((k + x.sb) % x.ln) = true →
        (m.predOf s.cur q).getLsbD ((k + x.sb) % x.ln) = (s.predOf s.cur p).getLsbD k

/-- How the lanes of a conversion pair up (R177): lane k of `D` from the lanes of `SF`, or kept. -/
def convLane (x : Issue) (conv : Nat → Nat) (k : Nat) : Nat :=
  let ls := fmtLanes (cvtSf x.imm)
  let src := fun j => conv (laneOf (fmtWidth (cvtSf x.imm)) j (x.wordIn (cvtSf x.imm) x.w.a x.offA))
  if x.ln ≤ ls then src (cvtPart x.imm * x.ln + k)
  else if cvtPart x.imm * ls ≤ k ∧ k < cvtPart x.imm * ls + ls then src (k - cvtPart x.imm * ls) else laneOf x.lw k x.oldD

/-- R177 to R182: the conversions; a lane index in `A` stands in the lanes of `SF` (the model's reading, log entry 99). -/
def Claims.Conversions : Prop :=
  WritesLanes .cvt (fun w => { specCvt 0x80 (intFmts ++ floatFmts) w
        (fun sf => if isInt w.fmt.toNat then isInt sf else isFloat sf) with
      mods := fun w' => !isInt w.fmt.toNat || w'.mod &&& 0b1101 = 0 }) Issue.lw
    (fun x => convLane x fun v =>
      if isInt x.fmt then fit x.sgn x.sat x.lw (laneInt (fmtSigned (cvtSf x.imm)) (fmtWidth (cvtSf x.imm)) v)
      else x.ff.round x.rm x.sat x.ftz ((ffmt (cvtSf x.imm)).decode x.ftz v)) ∧
  WritesLanes .cvtfi (fun w => { specCvt 0x81 intFmts w isFloat with mods := modRf }) Issue.lw
    (fun x => convLane x fun v => match (ffmt (cvtSf x.imm)).decode x.ftz v with
      | .nan => 0
      | .inf neg => wrapTo x.lw (if neg then minInt x.sgn x.lw else maxInt x.sgn x.lw)
      | u => fit x.sgn true x.lw (u.toInt x.rm)) ∧
  WritesLanes .cvtif (fun w => { specCvt 0x82 floatFmts w isInt with mods := fun w => w.mod &&& 0b0001 = 0 }) Issue.lw
    (fun x => convLane x fun v =>
      x.ff.round x.rm x.sat false (FVal.ofInt (laneInt (fmtSigned (cvtSf x.imm)) (fmtWidth (cvtSf x.imm)) v))) ∧
  WritesLanes .lgenc (fun w => specCvt 0x83 [12] w isFloat) Issue.lw
    (fun x => convLane x fun v => lgEncode ((ffmt (cvtSf x.imm)).decode false v)) ∧
  WritesLanes .lgdec (fun w => specCvt 0x84 floatFmts w fun sf => decide (sf = 12)) Issue.lw
    (fun x => convLane x fun v => x.ff.round 0 false false (lgDecode v)) ∧
  WritesLanes .lgmul (fun _ => { spec2 0x85 [12] with laneCheck := false, xok := fun _ _ imm => decide (imm % 2 ^ 9 = 0) })
    Issue.lw (fun x k => lgMul (x.a k) (x.b k))

/-- The opcode's form of the t5 instructions. -/
def t5Spec (op : Nat) : OpSpec :=
  { spec1 op [0, 1] with laneCheck := false, xok := fun _ w imm => t5Ok w imm }

/-- The lowest byte of `A` that is reserved and holds one of the trits that `PART` selects (R183). -/
def t5Reserved (x : Issue) : Option Nat :=
  firstBelow 32 fun b => decide (x.ln * cvtPart x.imm / 5 ≤ b) && decide (b ≤ (x.ln * cvtPart x.imm + x.ln - 1) / 5) &&
    decide (243 ≤ laneOf 8 b x.tritsA)

/-- R183, R184: `T5UNPK` unpacks trits, or emits T5_RESERVED and writes nothing; `T5PACK` packs signs. -/
def Claims.Trits : Prop :=
  (∀ w slot s, Ready (t5Spec 0x87) w slot s → t5Reserved (s.at (t5Spec 0x87) w slot) = none →
    let x := s.at (t5Spec 0x87) w slot
    ∃ m, Performs (.t5unpk w) 0x87 w slot s m ∧ x.OnlyD m ∧ x.Lanes x.lw m fun j =>
      let t := x.ln * cvtPart x.imm + j
      wrapTo x.lw ((laneOf 8 (t / 5) x.tritsA / 3 ^ (t % 5) % 3 : Nat) - 1)) ∧
  (∀ w slot s b, Ready (t5Spec 0x87) w slot s → t5Reserved (s.at (t5Spec 0x87) w slot) = some b →
    Performs (.t5unpk w) 0x87 w slot s (s.emit s.cur slot Cause.t5Reserved b)) ∧
  WritesWord .t5pack (fun _ => { t5Spec 0x86 with readsD := true, wholeD := true })
    (fun x =>
      let t0 := x.ln * cvtPart x.imm
      let digit := fun t => if t0 ≤ t ∧ t < t0 + x.ln ∧ x.guard.getLsbD (t - t0) = true then
          (if x.ai (t - t0) < 0 then 0 else if x.ai (t - t0) = 0 then 1 else 2) else t5Old x.oldD t
      (mkWord 8 32 fun b => digit (5 * b) + digit (5 * b + 1) * 3 + digit (5 * b + 2) * 9 + digit (5 * b + 3) * 27 +
        digit (5 * b + 4) * 81).toNat)

/-- R88, R185: lane k of a special function: the value of the operand in f32, rounded in the mode of `RM` for f32 and to nearest for
bf16 and f16, which then round it to their own format. -/
def fnLane (f : Special.Fn) (x : Issue) (k : Nat) : Nat :=
  x.ff.round x.rm x.sat x.ftz (f32.decode false (Special.f32Of f (if x.fmt = 10 then x.rm else 0) (x.av k)))

/-- R89: the special function takes an operand of the value v to the pattern of r, in each of its formats and rounding modes. -/
def Special.Takes (f : Special.Fn) (v r : FVal) : Prop :=
  ∀ g ∈ [bf16, f16, f32], ∀ rm sat ftz, g.round rm sat ftz (f32.decode false (Special.f32Of f rm v)) = g.round rm sat ftz r

/-- R88, R89, R185, R186: the special functions complete and give the results of R89 for special operands; `AMAXV` completes, and its
result is the greater of the running word and the contribution of the enabled lanes. -/
def Obligations.SpecialFunctions : Prop :=
  let fn (c : Fields → Instr) (op : Nat) (f : Special.Fn) : Prop := WritesLanes c (fun _ => specFn op) Issue.lw (fnLane f)
  let zero (neg : Bool) : FVal := .fin neg 0 1
  let one (neg : Bool) : FVal := .fin neg 1 1
  fn .rcp 0x88 .rcp ∧ fn .rsq 0x89 .rsq ∧ fn .sqrt 0x8A .sqrt ∧ fn .exp2 0x8B .exp2 ∧ fn .lg2 0x8C .lg2 ∧
  fn .sinpi 0x8D .sinpi ∧ fn .cospi 0x8E .cospi ∧ fn .tanh 0x8F .tanh ∧ fn .erf 0x90 .erf ∧
  (∀ f, Special.Takes f .nan .nan) ∧
  (∀ s d, Special.Takes .sqrt (.fin s 0 d) (zero s) ∧ Special.Takes .rcp (.fin s 0 d) (.inf s) ∧ Special.Takes .rsq (.fin s 0 d) (.inf s) ∧
    (0 < d → Special.Takes .exp2 (.fin s 0 d) (one false)) ∧ Special.Takes .lg2 (.fin s 0 d) (.inf true) ∧
    Special.Takes .sinpi (.fin s 0 d) (zero s) ∧ Special.Takes .tanh (.fin s 0 d) (zero s) ∧ Special.Takes .erf (.fin s 0 d) (zero s)) ∧
  (∀ n d, 0 < n → Special.Takes .sqrt (.fin true n d) .nan ∧ Special.Takes .rsq (.fin true n d) .nan ∧
    Special.Takes .lg2 (.fin true n d) .nan) ∧
  Special.Takes .sqrt (.inf true) .nan ∧ Special.Takes .rsq (.inf true) .nan ∧ Special.Takes .lg2 (.inf true) .nan ∧
  Special.Takes .sqrt (.inf false) (.inf false) ∧ Special.Takes .rsq (.inf false) (zero false) ∧
  Special.Takes .lg2 (.inf false) (.inf false) ∧ Special.Takes .exp2 (.inf false) (.inf false) ∧
  Special.Takes .exp2 (.inf true) (zero false) ∧ Special.Takes .lg2 (one false) (zero false) ∧
  (∀ s, Special.Takes .rcp (.inf s) (zero s) ∧ Special.Takes .tanh (.inf s) (one s) ∧ Special.Takes .erf (.inf s) (one s) ∧
    Special.Takes .sinpi (.inf s) .nan ∧ Special.Takes .cospi (.inf s) .nan) ∧
  (∀ s n d, 0 < d → Special.Takes .sinpi (.fin s (n * d) d) (zero s) ∧
    Special.Takes .cospi (.fin s ((2 * n + 1) * d) (2 * d)) (zero false)) ∧
  WritesWord .amaxv (fun _ => { spec2 0x91 (intFmts ++ floatFmts) with laneCheck := false, wholeD := true })
    (fun x =>
      let on := (List.range x.ln).filter fun k => x.guard.getLsbD k
      let most := (on.map fun k =>
        if isFloat x.fmt then (let v := x.ff.decode false (x.a k); if v.isNan then 0 else f32.round 2 false false v.abs)
        else (x.ai k).natAbs).foldl Nat.max 0
      let c := if isFloat x.fmt then most + (if on.any fun k => (x.ff.decode false (x.a k)).isNan then 2 ^ 31 else 0)
        else Nat.min most (2 ^ 31 - 1)
      Nat.max (x.wb.toNat % 2 ^ 32) c)

/-! ## System registers, traps, launches and the Saggar's instructions -/

/-- R134, R137, R138: `CSRR` reads a register; `CSRW` of a value in its range writes it, and reading it back gives the value;
a value out of range takes ILLEGAL_OPERAND; `%age_dispatch` is written by a notice, and the write completes once the writing die has
applied it. -/
def Claims.SystemRegisters : Prop :=
  let rd : OpSpec := { op := 0xED, perLane := false, d := .dst, a := .csrOnly }
  let wr : OpSpec := { op := 0xEE, perLane := false, d := .csrDst, a := .src }
  WritesScalar .csrr (fun _ => rd) (fun x => x.csr (csrNum x.w.a) % 2 ^ 64) ∧
  Completes .csrw (fun _ => wr)
    (fun x => (∀ p, x.task.wait ≠ .csrSent p) ∧ csrRange (csrNum x.w.d) x.sa = true ∧ csrNum x.w.d ≠ 0x15)
    (fun x => x.writeCsr (csrNum x.w.d) x.sa) ∧
  (∀ w slot s, ReadyOn wr w slot s → csrRange (csrNum w.d) (s.at wr w slot).sa = true → csrNum w.d ≠ 0x15 →
    ({ s.at wr w slot with s := (s.at wr w slot).writeCsr (csrNum w.d) (s.at wr w slot).sa } : Issue).csr (csrNum w.d)
      = (s.at wr w slot).sa) ∧
  Fails .csrw (fun _ => wr) (fun x => (∀ p, x.task.wait ≠ .csrSent p) ∧ csrRange (csrNum x.w.d) x.sa = false)
    Cause.illegalOperand (fun _ => 0xEE + 256 * 5) ∧
  Holds .csrw (fun _ => wr)
    (fun x => (∀ p, x.task.wait ≠ .csrSent p) ∧ csrRange 0x15 x.sa = true ∧ csrNum x.w.d = 0x15)
    (fun x => (x.s.setTask x.pe x.slot { x.task with wait := .csrSent x.s.hub.log.length }).post (.csr x.sa)) ∧
  Completes .csrw (fun _ => wr) (fun x => ∃ p, x.task.wait = .csrSent p ∧ x.s.appliedBy x.die p = true) (fun x => x.s) ∧
  SkipsOff .csrw (fun _ => wr)

/-- R144: `LAUNCH` posts the notice of a packet and answers all ones, or finds the domain's queue full and answers zero; an
address that is no multiple of 128 takes ILLEGAL_OPERAND; it waits for the task's earlier requests. -/
def Claims.Launches : Prop :=
  let sp : OpSpec := { op := 0xEB, perLane := false, d := .predOnly, a := .src }
  Fails .launch (fun _ => sp) (fun x => x.sa % 128 ≠ 0) Cause.illegalOperand (fun _ => 0xEB + 256 * 5) ∧
  Holds .launch (fun _ => sp) (fun x => x.sa % 128 = 0 ∧ x.s.unperformed x.pe x.slot = true) (fun x => x.s) ∧
  Completes .launch (fun _ => sp)
    (fun x => x.sa % 128 = 0 ∧ x.s.unperformed x.pe x.slot = false ∧ 16 ≤ x.s.launchesWaiting x.die x.dom)
    (fun x => x.s.setPredOf x.pe (Issue.predNum x.w.d) 0) ∧
  Completes .launch (fun _ => sp)
    (fun x => x.sa % 128 = 0 ∧ x.s.unperformed x.pe x.slot = false ∧ x.s.launchesWaiting x.die x.dom < 16)
    (fun x => ((x.s.readPacket x.dom x.sa).2.post (.launch x.dom (x.s.readPacket x.dom x.sa).1 (some x.die))).setPredOf
      x.pe (Issue.predNum x.w.d) 0xFFFFFFFF) ∧
  SkipsOff .launch (fun _ => sp)

/-- R145, R146, R147, R153: `TRAP` raises USER_TRAP with its code, `YIELD` suspends, `EVLOG` appends an event, `WDOG` sets a
limit within its range. -/
def Claims.TrapsAndYields : Prop :=
  Completes .trap (fun _ => { op := 0xEC, perLane := false }) (fun _ => True)
    (fun x => x.s.emit x.pe x.slot Cause.userTrap 0 (x.imm % 2 ^ 16)) ∧
  SkipsOff .trap (fun _ => { op := 0xEC, perLane := false }) ∧
  Completes .yield (fun _ => { op := 0xF6, perLane := false, noDone := true }) (fun _ => True)
    (fun x => x.s.setTask x.pe x.slot { x.task with st := .suspended, age := 0, agedAt := none }) ∧
  SkipsOff .yield (fun _ => { op := 0xF6, perLane := false, noDone := true }) ∧
  Completes .evlog (fun _ => { op := 0xEF, perLane := false, a := .src }) (fun _ => True)
    (fun x => x.s.logEvent x.die (x.imm % 2 ^ 16) x.sa x.dom (coreEventOrigin x.core (x.pe % 16))) ∧
  (let sp : OpSpec := { op := 0xF7, perLane := false, super := true, a := .src, b := .src }
   Completes .wdog (fun _ => sp) (fun x => x.sa < 1024 ∧ (x.sb = 0 ∨ 4096 ≤ x.sb ∧ x.sb < 2 ^ 32))
     (fun x => x.s.setCtx x.sa { x.s.ctx x.sa with wdog := x.sb }) ∧
   Fails .wdog (fun _ => sp) (fun x => 1024 ≤ x.sa) Cause.illegalOperand (fun _ => 0xF7 + 256 * 5) ∧
   Fails .wdog (fun _ => sp) (fun x => x.sa < 1024 ∧ (1 ≤ x.sb ∧ x.sb ≤ 4095 ∨ 2 ^ 32 ≤ x.sb)) Cause.illegalOperand
     (fun _ => 0xF7 + 256 * 6))

/-- R148, R149: `MEXT` queues an extension; `ATTEST` and `SAGVFY` queue a request and answer all ones, or find four outstanding
and answer zero. -/
def Claims.SaggarRequests : Prop :=
  let free (x : Issue) : Prop := x.sa % 64 = 0 ∧ x.s.unperformed x.pe x.slot = false
  let asks (c : Fields → Instr) (sp : OpSpec) (r : Issue → SagReq) : Prop :=
    Completes c (fun _ => sp) (fun x => free x ∧ x.s.sagOutstanding x.dom < 4)
      (fun x => (x.s.askSaggar (r x)).setPredOf x.pe (Issue.predNum x.w.d) 0xFFFFFFFF) ∧
    Completes c (fun _ => sp) (fun x => free x ∧ 4 ≤ x.s.sagOutstanding x.dom)
      (fun x => x.s.setPredOf x.pe (Issue.predNum x.w.d) 0) ∧
    Fails c (fun _ => sp) (fun x => x.sa % 64 ≠ 0) Cause.illegalOperand (fun _ => sp.op + 256 * 5)
  Completes .mext (fun _ => { op := 0xF0, perLane := false, a := .src, prot := fun _ imm => decide (imm % 16 < 8) })
    (fun _ => True) (fun x => x.s.askSaggar (.mext x.die x.dom (x.imm % 16) x.wa)) ∧
  asks .attest { op := 0xF1, perLane := false, d := .predOnly, a := .src } (fun x => .attest x.die x.dom x.sa x.pe x.slot) ∧
  asks .sagvfyUnlock specSagvfy (fun x => .verify x.die x.dom x.sa (x.imm % 16) x.pe x.slot) ∧
  asks .sagvfyManifest specSagvfy (fun x => .verify x.die x.dom x.sa (x.imm % 16) x.pe x.slot)

/-- R150, R151, R152: `FUSERD` reads a fuse word, `KEYWIPE` empties one key slot or all of them, `DBGOPEN` opens the debug port
only for an accepted token after a wipe of all keys. -/
def Claims.KeysAndFuses : Prop :=
  let wipe : OpSpec := { op := 0xF3, perLane := false, super := true, a := .src, mods := fun w => w.mod &&& 0b1110 = 0 }
  let dbg : OpSpec := { op := 0xF4, perLane := false, super := true, d := .predOnly }
  WritesScalar .fuserd (fun _ => { op := 0xF5, perLane := false, super := true, d := .dst, xok := fun _ _ imm => decide (imm % 64 < 48) })
    (fun x => (x.s.fuse (x.imm % 64)).toNat) ∧
  Completes .keywipe (fun _ => wipe) (fun x => 0 < x.sa ∧ x.sa < 1024) (fun x => x.s.loadKey x.sa none) ∧
  (∀ k j cl (s : State), let t := s.loadKey k none
    t.keyAt k cl = none ∧ (j ≠ k → t.keySlot j = s.keySlot j) ∧ t.mem = s.mem ∧ t.unit = s.unit) ∧
  Fails .keywipe (fun _ => wipe) (fun x => x.sa = 0 ∨ 1024 ≤ x.sa) Cause.illegalOperand (fun _ => 0xF3 + 256 * 5) ∧
  (∀ w slot s, ReadyOn wipe w slot s → (s.at wipe w slot).sa < 1024 → ∃ m, Performs (.keywipeAll w) 0xF3 w slot s m ∧
    (∀ k cl, m.keySlot k = none ∧ m.keyAt k cl = none) ∧ m.sag.wiped = s.sag.token.isSome ∧
    m = { s with sag := { s.sag with keys := m.sag.keys, lostKeys := [], lostCopies := [], wiped := m.sag.wiped } }) ∧
  Completes .dbgopen (fun _ => dbg) (fun x => x.s.sag.token = none ∨ x.s.sag.wiped = false)
    (fun x => x.s.setPredOf x.pe (Issue.predNum x.w.d) 0) ∧
  ∀ w slot s tok, ReadyOn dbg w slot s → s.sag.token = some tok → s.sag.wiped = true →
    ∃ m, Performs (.dbgopen w) 0xF4 w slot s m ∧ m.predOf s.cur (Issue.predNum w.d) = 0xFFFFFFFF ∧ m.sag.dbgOpen = true ∧
      m.keySlot 0 = s.sag.key0 ∧ m.measReg 7 = (s.extend 7 (bytesOfNat 32 tok.toNat)).measReg 7

/-! ## Barriers -/

/-- R141: `BARA` arms a counter of its core at once and sends its operation to any other; R265: a count above `MEMB` breaks it, and the
record of the break taints the task; R262: the operations of one cycle come at a counter in ascending order of their PEs. `DETAIL`[11:8] of
a failed check of the counter is 8 (R364). -/
def Claims.BarrierArm : Prop :=
  let sp : OpSpec := { specBar 0xE8 with a := .src }
  let ok (x : Issue) : Prop := 1 ≤ x.sa ∧ x.sa ≤ 65535
  Fails .bara (fun _ => sp) (fun x => ¬ok x) Cause.illegalOperand (fun _ => 0xE8 + 256 * 5) ∧
  Completes .bara (fun _ => sp) (fun x => ok x ∧ barScope x.imm ≠ 0) (fun x => x.sendBar x.counter (.arm x.sa)) ∧
  Completes .bara (fun _ => sp) (fun x => ok x ∧ barScope x.imm = 0 ∧ 0 < (x.s.barrier x.counter).arr)
    (fun x => (x.s.takeTurn x.counter (x.pe + 1)).emit x.pe x.slot Cause.illegalOperand (0xE8 + 256 * 8)) ∧
  Completes .bara (fun _ => sp)
    (fun x => ok x ∧ barScope x.imm = 0 ∧ (x.s.barrier x.counter).arr = 0 ∧ x.sa ≤ (x.s.barrier x.counter).memb)
    (fun x => (x.s.takeTurn x.counter (x.pe + 1)).setBarrier x.counter { x.s.barrier x.counter with exp := x.sa }) ∧
  Completes .bara (fun _ => sp)
    (fun x => ok x ∧ barScope x.imm = 0 ∧ (x.s.barrier x.counter).arr = 0 ∧ (x.s.barrier x.counter).memb < x.sa)
    (fun x =>
      let t := ((x.s.takeTurn x.counter (x.pe + 1)).setBarrier x.counter { x.s.barrier x.counter with exp := x.sa }).breakCounter x.counter
      x.taintWith t (t.brokenRecord x.counter 0 (barId x.imm))) ∧
  ∀ k p q (s : State), let t := s.takeTurn k p; let u := t.takeTurn k q
    s.now ≤ t.now ∧ (t.now < u.now ∨ (t.now = u.now ∧ p < q)) ∧ t.sync.counters = s.sync.counters ∧ t.mem = s.mem ∧ t.unit = s.unit

/-- R142: `BARW` arrives, and `BARW.t` tests, at a counter of the core. The last arrival closes the generation and answers all ones; an
earlier one answers zero and leaves an arrival pending; a broken counter answers all ones, ends the pending arrival and taints the task. R364:
beyond the core the operation is sent and awaited, and what comes back finishes the instruction in the same way. That `BRK` comes before the
check of `BARP` at core scope and after it beyond is the model's reading (log entry 128); the record's `DETAIL` for a failed check of a
counter or of `BARP` is field 8, by R364 and log entry 64. -/
def Claims.BarrierArrive : Prop :=
  let sp : OpSpec := { specBar 0xE9 with d := .predOnly, mods := fun w => w.mod &&& 0b1110 = 0 }
  let b (x : Issue) : Barrier := x.s.barrier x.counter
  let here (x : Issue) : Prop := barScope x.imm = 0 ∧ x.task.wait = .none ∧ (b x).brk = false
  let q (x : Issue) : Nat := Issue.predNum x.w.d
  let turn (x : Issue) : State := x.s.takeTurn x.counter (x.pe + 1)
  Completes .barw (fun _ => sp)
    (fun x => here x ∧ x.task.barp = none ∧ 0 < (b x).exp ∧ (b x).arr + 1 ≠ (b x).exp)
    (fun x => (((turn x).setBarrier x.counter { b x with arr := (b x).arr + 1 }).setPredOf x.pe (q x) 0).setTask x.pe x.slot
      { x.task with barp := some { scope := 0, bar := barId x.imm, gen := (b x).gen } }) ∧
  Completes .barw (fun _ => sp)
    (fun x => here x ∧ x.task.barp = none ∧ 0 < (b x).exp ∧ (b x).arr + 1 = (b x).exp)
    (fun x => ((((turn x).setBarrier x.counter { b x with arr := (b x).arr + 1 }).closeGen x.counter 0 (barId x.imm)).setPredOf
      x.pe (q x) 0xFFFFFFFF).setTask x.pe x.slot { x.task with barp := none }) ∧
  let refused (x : Issue) (t : State) : State := t.emit x.pe x.slot Cause.illegalOperand (0xE9 + 256 * 8)
  let broken (x : Issue) (t : State) : State :=
    let u := (t.setPredOf x.pe (q x) 0xFFFFFFFF).setTask x.pe x.slot { t.task x.pe x.slot with barp := none }
    u.setTask x.pe x.slot ((u.task x.pe x.slot).taint (u.brokenRecord x.counter (barScope x.imm) (barId x.imm)))
  Completes .barw (fun _ => sp) (fun x => here x ∧ (x.task.barp ≠ none ∨ (b x).exp = 0)) (fun x => refused x (turn x)) ∧
  (∀ c, c = Instr.barw ∨ c = Instr.barwT →
    Completes c (fun _ => sp) (fun x => barScope x.imm = 0 ∧ x.task.wait = .none ∧ (b x).brk = true) (fun x => broken x (turn x)) ∧
    (∀ ill rel gen, Completes c (fun _ => sp) (fun x => x.task.wait = .barDone true ill rel gen) (fun x => broken x x.s)) ∧
    (∀ rel gen, Completes c (fun _ => sp) (fun x => x.task.wait = .barDone false true rel gen) (fun x => refused x x.s)) ∧
    (∀ gen, Completes c (fun _ => sp) (fun x => x.task.wait = .barDone false false true gen)
      (fun x => (x.s.setPredOf x.pe (q x) 0xFFFFFFFF).setTask x.pe x.slot { x.task with barp := none })) ∧
    (∀ gen, Completes c (fun _ => sp) (fun x => x.task.wait = .barDone false false false gen)
      (fun x => (x.s.setPredOf x.pe (q x) 0).setTask x.pe x.slot
        { x.task with barp := some { scope := barScope x.imm, bar := barId x.imm, gen } })) ∧
    Holds c (fun _ => sp) (fun x => x.task.wait = .barSent) (fun x => x.s)) ∧
  Fails .barw (fun _ => sp) (fun x => barScope x.imm ≠ 0 ∧ x.task.wait = .none ∧ x.task.barp ≠ none) Cause.illegalOperand
    (fun _ => 0xE9 + 256 * 8) ∧
  Fails .barwT (fun _ => sp) (fun x => barScope x.imm ≠ 0 ∧ x.task.wait = .none ∧ x.task.barp = none) Cause.illegalOperand
    (fun _ => 0xE9 + 256 * 8) ∧
  Holds .barw (fun _ => sp) (fun x => barScope x.imm ≠ 0 ∧ x.task.wait = .none ∧ x.task.barp = none)
    (fun x => (x.sendBar x.counter .arrive).setTask x.pe x.slot { x.task with wait := .barSent }) ∧
  Completes .barwT (fun _ => sp)
    (fun x => here x ∧ ∃ g, x.task.barp = some { scope := 0, bar := barId x.imm, gen := g } ∧ (b x).gen ≠ g)
    (fun x => ((turn x).setPredOf x.pe (q x) 0xFFFFFFFF).setTask x.pe x.slot { x.task with barp := none }) ∧
  Completes .barwT (fun _ => sp)
    (fun x => here x ∧ x.task.barp = some { scope := 0, bar := barId x.imm, gen := (b x).gen })
    (fun x => ((turn x).setPredOf x.pe (q x) 0).setTask x.pe x.slot x.task) ∧
  Completes .barwT (fun _ => sp) (fun x => here x ∧ ∀ p, x.task.barp = some p → p.names 0 (barId x.imm) = false)
    (fun x => refused x (turn x))

/-- R143, R364: `BAREX` leaves a counter, takes back the arrival of its task that the open generation holds, and closes a generation that
has all its arrivals then; an operation beyond the core performs at its counter later, in the order of its PE. The field 8 of a counter whose
`MEMB` is 0 is R364's; the place that one cycle gives each operation is R262's. -/
def Claims.BarrierExit : Prop :=
  let sp : OpSpec := specBar 0xEA
  let b (x : Issue) : Barrier := x.s.barrier x.counter
  Completes .barex (fun _ => sp)
    (fun x => barScope x.imm = 0 ∧ x.task.barp = none ∧ 0 < (b x).memb ∧ (b x).exp = 0)
    (fun x => (x.s.takeTurn x.counter (x.pe + 1)).setBarrier x.counter { b x with memb := (b x).memb - 1 }) ∧
  (let turn (x : Issue) : State := x.s.takeTurn x.counter (x.pe + 1)
   let mine (x : Issue) : Bool := x.task.barp.elim false fun p => p.names 0 (barId x.imm)
   let arr (x : Issue) : Nat := if mine x && decide (x.task.barp.map Barp.gen = some (b x).gen) then (b x).arr - 1 else (b x).arr
   let exp (x : Issue) : Nat := Nat.min (b x).exp ((b x).memb - 1)
   let left (x : Issue) : State := (turn x).setBarrier x.counter { b x with arr := arr x, memb := (b x).memb - 1, exp := exp x }
   let leave (x : Issue) (t : State) : State := if mine x then t.setTask x.pe x.slot { t.task x.pe x.slot with barp := none } else t
   Completes .barex (fun _ => sp) (fun x => barScope x.imm = 0 ∧ 0 < (b x).memb ∧ ¬ (0 < exp x ∧ exp x ≤ arr x)) (fun x => leave x (left x)) ∧
   Completes .barex (fun _ => sp) (fun x => barScope x.imm = 0 ∧ 0 < (b x).memb ∧ 0 < exp x ∧ exp x ≤ arr x)
     (fun x => leave x ((left x).closeGen x.counter 0 (barId x.imm))) ∧
   Completes .barex (fun _ => sp) (fun x => barScope x.imm = 0 ∧ (b x).memb = 0)
     (fun x => (turn x).emit x.pe x.slot Cause.illegalOperand (0xEA + 256 * 8)) ∧
   Completes .barex (fun _ => sp) (fun x => barScope x.imm ≠ 0 ∧ (x.task.barp.elim false fun p => p.names (barScope x.imm) (barId x.imm)) = true)
     (fun x =>
       let t := x.sendBar x.counter (.exit (x.task.barp.map Barp.gen))
       t.setTask x.pe x.slot { t.task x.pe x.slot with barp := none })) ∧
  Completes .barex (fun _ => sp) (fun x => barScope x.imm ≠ 0 ∧ (x.task.barp.elim false fun p => p.names (barScope x.imm) (barId x.imm)) = false)
    (fun x => x.sendBar x.counter (.exit none)) ∧
  ∀ index s op, s.sync.flying[index]? = some op → (∀ o ∈ s.sync.flying.take index, o.pe ≠ op.pe) →
    let t := { s with sync := { s.sync with flying := s.sync.flying.take index ++ s.sync.flying.drop (index + 1) } }
    exec (.barrierPerform index) s =
      .next (((t.atCounter op.pe op.counter op.scope op.bar op.kind).2.barAnswer op
        (t.atCounter op.pe op.counter op.scope op.bar op.kind).1).touch (coreOfPe op.pe))

/-! ## Firings -/

/-- R101, R105, R108, R112: a firing begins when a PE without one takes the task that R103 chooses: a data firing starts at the
task's entry with nothing advanced, a suspended task goes on, a marker firing ends idle with its counters cleared. -/
def Claims.FiringsBegin : Prop :=
  (∀ pe k s, s.noFiring pe = true → (s.refresh pe).chosen pe = some k →
    ((s.refresh pe).task pe k).st = .ready → (s.refresh pe).dataReady pe ((s.refresh pe).task pe k) = true →
    ∃ t, exec (.dataFiringStart pe) s = .next t ∧ t = ((s.refresh pe).noteChoice pe k).beginData pe k ∧
      (t.task pe k).st = .firing ∧ (t.task pe k).pc = ((t.task pe k)).entry ∧ (t.task pe k).ret = none ∧ (t.task pe k).advp = {} ∧
      (t.task pe k).barp = none) ∧
  (∀ pe k s, s.noFiring pe = true → (s.refresh pe).chosen pe = some k → ((s.refresh pe).task pe k).st = .suspended →
    exec (.suspendedResume pe) s = .next (((s.refresh pe).noteChoice pe k).setTask pe k
      { ((s.refresh pe).noteChoice pe k).task pe k with st := .firing })) ∧
  (∀ pe k s, s.noFiring pe = true → (s.refresh pe).chosen pe = some k →
    (((s.refresh pe).task pe k).st = .realign ∨
      ((s.refresh pe).task pe k).st = .ready ∧ (s.refresh pe).markerReady pe ((s.refresh pe).task pe k) = true) →
    ∃ t, exec (.markerFiring pe) s = .next t ∧ t = ((s.refresh pe).noteChoice pe k).fireMarker pe k ∧ (t.task pe k).st = .idle ∧
      (t.task pe k).lc0 = 0 ∧ (t.task pe k).lc1 = 0 ∧ (t.task pe k).lc2 = 0 ∧ (t.task pe k).prec = none ∧ (t.task pe k).barp = none)

/-- R100: a misaligned task realigns: it discards data tokens up to the markers of its inputs, which are ports 0 to 5, posts the record of a discarded
poison token, and emits one RATE_MISMATCH poison token on every output, ports 6 to 11, whose record holds the PC of the slot (the model's choice, log
entry 60). -/
def Claims.Realignment : Prop :=
  (∀ pe k s, (s.task pe k).st = .idle → s.misaligned pe (s.task pe k) = true →
    exec (.realignStart pe k) s =
      .next (s.setTask pe k { s.task pe k with st := .realign, realigned := [], age := 0, agedAt := none })) ∧
  (∀ pe k p s, p < 6 → (s.task pe k).st = .realign → ((s.task pe k).port p).declared = true →
    0 < (s.handle pe ((s.task pe k).port p).handle).cnt → (s.headOf pe ((s.task pe k).port p).handle).mark = false →
    let h := ((s.task pe k).port p).handle
    let t := (s.consume1 pe h).touch (coreOfPe pe)
    exec (.realignDiscard pe k p) s =
      .next (if (s.headOf pe h).poison then t.corePost (coreOfPe pe) (s.headOf pe h).payload else t)) ∧
  ∀ pe k p s, 6 ≤ p → p < 12 → (s.task pe k).st = .realign → ((s.task pe k).port p).declared = true → (s.task pe k).realigned.contains p = false →
    1 ≤ s.freeOf pe ((s.task pe k).port p).handle →
    let t := (s.publishPoison pe k ((s.task pe k).port p).handle (s.taskRecord pe k (s.task pe k).pc Cause.rateMismatch 0)).touch
      (coreOfPe pe)
    exec (.realignPoisonEmit pe k p) s = .next (t.setTask pe k { t.task pe k with realigned := p :: (s.task pe k).realigned })

/-- R12, R27, R111, R194: an unassigned opcode emits ILLEGAL_OP and goes on; a literal entry emits EXEC_LITERAL and ends the firing;
an entry that failed its check emits ILLEGAL_OP with `DETAIL`[8] and ends the firing. -/
def Claims.BadEntries : Prop :=
  (∀ op w s k, s.firingSlot s.cur = some k →
    exec (.illegalOp op w) s = .next ((s.emit s.cur k Cause.illegalOp op.toNat).sequence s.cur k op w)) ∧
  (∀ word s k, s.firingSlot s.cur = some k →
    exec (.execLiteral word) s =
      .next (((s.emit s.cur k Cause.execLiteral 0).endFiring s.cur k Cause.execLiteral).touch (coreOfPe s.cur))) ∧
  ∀ pe s k e, s.fetch pe = some (k, e) → e.ue = true → issue pe s = .next (s.fetchFault pe k e.word)

/-! ## Memory nodes -/

/-- R235 to R240: a posted memory instruction hands its request to its node, and waits while the node takes none. -/
def Claims.PostedRequests : Prop :=
  let posts (c : Fields → Instr) (sp : Fields → OpSpec) (r : Issue → Request) : Prop :=
    Completes c sp (fun x => (x.s.node (nodeNum x.core x.imm)).room = true)
      (fun x => x.s.acceptReq (nodeNum x.core x.imm) { src := .pe x.pe x.slot, op := .settled, blocking := false } (r x)) ∧
    Holds c sp (fun x => (x.s.node (nodeNum x.core x.imm)).room = false) (fun x => x.s) ∧ SkipsOff c sp
  posts .st (fun _ => { specMem 0xA1 with b := .srcNoImm }) (fun x => { x.memReq .st with data := BitVec.ofNat 256 x.sb }) ∧
  posts .stv (fun _ => { specMem 0xA3 with b := .srcNoImm }) (fun x => { x.memReq .stv with data := x.wb }) ∧
  posts .atom (fun w => { specMem 0xA4 with fmts := some (atomFmts w), mods := fun w => w.mod.toNat < 8, b := .srcNoImm })
    (fun x => { x.memReq .atom with data := BitVec.ofNat 256 x.sb, fmt := some x.fmt, aop := x.mod }) ∧
  posts .copy (fun _ => { specMem 0xA8 with a := .srcNoChan, b := .srcNoChan, c := .srcNoChan })
    (fun x => { x.memReq .copy with coords2 := x.sb, len := x.sc, tidd := fieldNat 16 12 x.imm }) ∧
  posts .fill (fun _ => { specMem 0xA9 with b := .srcNoImm, c := .srcNoImm })
    (fun x => { x.memReq .fill with data := x.wb, len := x.sc })

/-- R236 to R238, R240, R242: a blocking memory instruction sends its request, holds issue, and completes with the value that came
back; a failure that came back taints the task, and its result is zero. -/
def Claims.BlockingRequests : Prop :=
  let blocks (c : Fields → Instr) (sp : Fields → OpSpec) (r : Issue → Request) (put : Issue → State → Word → State) : Prop :=
    Holds c sp (fun x => x.task.wait = .none ∧ (x.s.node (nodeNum x.core x.imm)).room = true)
      (fun x => (x.s.setTask x.pe x.slot { x.task with wait := .memSent }).acceptReq (nodeNum x.core x.imm)
        { src := .pe x.pe x.slot, op := .settled, blocking := true } (r x)) ∧
    Holds c sp (fun x => x.task.wait = .none ∧ (x.s.node (nodeNum x.core x.imm)).room = false) (fun x => x.s) ∧
    Holds c sp (fun x => x.task.wait = .memSent) (fun x => x.s) ∧
    Completes c sp (fun x => x.task.wait = .memDone x.task.wait.value none) (fun x => put x x.s x.task.wait.value) ∧
    (∀ f, Completes c sp (fun x => x.task.wait = .memDone x.task.wait.value (some f))
      (fun x => (put x x.s 0).setTask x.pe x.slot (((put x x.s 0).task x.pe x.slot).taint f)))
  blocks .ld (fun _ => { specMem 0xA0 with d := .dst }) (fun x => x.memReq .ld) Issue.putD ∧
  blocks .ldv (fun _ => { specMem 0xA2 with d := .dst }) (fun x => x.memReq .ldv) Issue.putD ∧
  blocks .atomr (fun w => { specMem 0xA5 with fmts := some (atomFmts w), mods := fun w => w.mod.toNat < 8, d := .dst, b := .srcNoImm })
    (fun x => { x.memReq .atom with data := BitVec.ofNat 256 x.sb, fmt := some x.fmt, aop := x.mod }) Issue.putD ∧
  blocks .cas (fun _ => { specMem 0xA6 with fmts := some (word64Fmts ++ [10, 11]), d := .dst, b := .srcNoImm, c := .srcNoImm })
    (fun x => { x.memReq .cas with data := BitVec.ofNat 256 x.sb, data2 := BitVec.ofNat 64 x.sc, fmt := some x.fmt }) Issue.putD ∧
  blocks .hins (fun _ => { specMem 0xA7 (some .ordered) with fmts := some [2, 6, 10], d := .predOnly })
    (fun x => { x.memReq .hins with coords := 0, data := BitVec.ofNat 256 x.sa, fmt := some x.fmt })
    (fun x s v => s.setPredOf x.pe (Issue.predNum x.w.d) (flagPred (v ≠ 0)))

/-- R109, R241, R243 to R247: the fence, the channel instructions and the schedule cursor. -/
def Obligations.ChannelInstructions : Prop :=
  let fence : OpSpec := { op := 0xAA, d := .dst, perLane := false, xok := fun _ _ imm => decide (fieldNat 0 3 imm < 6) }
  let adv : OpSpec := { portSpec 0xAB with a := { portIn := true, portOut := true }, b := .src, xok := fun _ w _ => bitsOf 32 8 w.x = 0 }
  let emit : OpSpec := { portSpec 0xAC with
    fmts := some (List.range 15), d := { portOut := true }, a := .src, xok := fun _ w _ => bitsOf 40 8 w.x = 0 }
  let emitm : OpSpec := { portSpec 0xAD with d := { portOut := true }, a := .immOnly, xok := fun _ w _ => bitsOf 40 8 w.x = 0 }
  let testm : OpSpec := { portSpec 0xAE with d := .predOnly, a := { portIn := true }, xok := fun _ w _ => bitsOf 32 8 w.x = 0 }
  let nxt : OpSpec := { portSpec 0xAF with d := { chanOut := true }, c := .predOnly }
  let count (x : Issue) (b : BitVec 8) : Nat := (x.task.port (x.portNum b)).count
  let done (x : Issue) (b : BitVec 8) : Nat := x.task.adv (x.portNum b)
  let buf (x : Issue) (b : BitVec 8) : Nat := (x.task.port (x.portNum b)).handle
  Completes .fence (fun _ => fence) (fun x => fieldNat 0 3 x.imm = 0 ∨ x.s.unperformed x.pe x.slot = false)
    (fun x => x.putD x.s (BitVec.ofNat 256 (fieldNat 0 3 x.imm))) ∧
  Holds .fence (fun _ => fence) (fun x => fieldNat 0 3 x.imm ≠ 0 ∧ x.s.unperformed x.pe x.slot = true) (fun x => x.s) ∧
  Completes .adv (fun _ => adv) (fun x => 1 ≤ x.sb ∧ x.sb ≤ 255 ∧ done x x.w.a + x.sb ≤ count x x.w.a)
    (fun x => x.s.advance x.pe x.slot (x.portNum x.w.a) x.sb) ∧
  Fails .adv (fun _ => adv) (fun x => x.sb = 0 ∨ 255 < x.sb ∨ count x x.w.a < done x x.w.a + x.sb) Cause.illegalOperand
    (fun _ => 0xAB + 256 * 6) ∧
  Completes .emit (fun _ => emit) (fun x => done x x.w.d < count x x.w.d)
    (fun x => (x.putD x.s x.wa).advance x.pe x.slot (x.portNum x.w.d) 1) ∧
  Fails .emit (fun _ => emit) (fun x => count x x.w.d ≤ done x x.w.d) Cause.illegalOperand (fun _ => 0xAC + 256 * 4) ∧
  Completes .emitm (fun _ => emitm) (fun x => done x x.w.d = count x x.w.d ∧ x.s.freeOf x.pe (buf x x.w.d) ≠ 0)
    (fun x => x.s.publish x.pe (buf x x.w.d) { payload := BitVec.ofNat 256 (x.imm % 2 ^ 16), mark := true }) ∧
  Fails .emitm (fun _ => emitm) (fun x => done x x.w.d ≠ count x x.w.d) Cause.illegalOperand (fun _ => 0xAD + 256 * 4) ∧
  Completes .testm (fun _ => testm)
    (fun x => count x x.w.a < (x.s.handle x.pe (buf x x.w.a)).cntm1 + 1 ∧
      count x x.w.a - done x x.w.a < (x.s.handle x.pe (buf x x.w.a)).cnt)
    (fun x => x.s.setPredOf x.pe (Issue.predNum x.w.d) (if (x.s.slotOf x.pe
      ((x.s.handle x.pe (buf x x.w.a)).slotAt (count x x.w.a - done x x.w.a))).mark then 0xFFFFFFFF else 0)) ∧
  Completes .nxtile (fun _ => nxt)
    (fun x => (x.s.cursor x.core (x.imm % 4)).next < (x.s.cursor x.core (x.imm % 4)).count ∧
      x.s.failingWord x.core (x.info.spaceBase false + (x.s.cursor x.core (x.imm % 4)).base +
        32 * (x.s.cursor x.core (x.imm % 4)).next) 32 = none)
    (fun x =>
      let c := x.s.cursor x.core (x.imm % 4)
      let a := x.info.spaceBase false + c.base + 32 * c.next
      let t := (x.s.setCursor x.core (x.imm % 4) { c with next := c.next + 1 }).setPredOf x.pe (Issue.predNum x.w.c) 0xFFFFFFFF
      x.putD (t.correctWords x.core a 32) (BitVec.ofNat 256 (natOfBytes (x.s.poolBytes x.core a 32)))) ∧
  ∀ w slot s, ReadyOn nxt w slot s →
    let x := s.at nxt w slot
    let k := (s.handle s.cur (Issue.chanNum w.d)).slotAt x.offD
    (s.cursor x.core (x.imm % 4)).count ≤ (s.cursor x.core (x.imm % 4)).next →
    ∃ m, Performs (.nxtile w) 0xAF w slot s m ∧ m.predOf s.cur (Issue.predNum w.c) = 0 ∧
      (m.slotOf s.cur k).payload = 0xFFFF ∧ (m.slotOf s.cur k).mark = true

/-- R227, R242: accepting a request, or rejecting it, stores nothing and changes no register, predicate or channel slot. -/
def Claims.RequestFrame : Prop :=
  ∀ node q r s, let t := State.acceptReq s node q r
    t.core.pool = s.core.pool ∧ t.mem = s.mem ∧ t.unit.regs = s.unit.regs ∧ t.unit.preds = s.unit.preds ∧ t.unit.slots = s.unit.slots ∧
    t.sag = s.sag ∧ t.cluster = s.cluster

/-- R229, R232, R230: a node accepts a request from its ports, emits a result or a marker, and realigns a pair of inputs. R251: a word of the pool
that a read has corrected is written back. -/
def Obligations.NodePorts : Prop :=
  (∀ node tok s, (s.node node).room = true → (s.node node).headOf 0 = some tok → tok.mark = false → tok.poison = false →
    exec (.memnodeAccept node 0) s = .next ((s.setNode node ((s.node node).popIn 0)).acceptReq node
      { src := .ld, op := .settled, req := tok } (tokenRequest tok {} false true (s.domOf (node / 4))))) ∧
  (∀ node port tok data s, port = 1 ∨ port = 3 → (s.node node).room = true → (s.node node).headOf port = some tok →
    (s.node node).headOf (port + 1) = some data → tok.mark = false → data.mark = false → tok.poison = false → data.poison = false →
    exec (.memnodeAccept node port) s = .next ((s.setNode node (((s.node node).popIn port).popIn (port + 1))).acceptReq node
      { src := if port = 1 then .st else .at, op := .settled, req := tok }
      (tokenRequest tok data (port = 3) false (s.domOf (node / 4))))) ∧
  (∀ node port k q t s, (s.node node).firstOf port = some k → (s.node node).queue[k]? = some q → q.done = some t →
    s.nodeFree node port = true →
    exec (.memnodeResultEmit node port) s =
      .next (((s.setNode node { s.node node with queue := dropAt k (s.node node).queue }).nodeEmit node port t).touch (node / 4))) ∧
  (∀ node tok s, (s.node node).valid = true → (s.node node).firstOf 0 = none → s.nodeFree node 0 = true →
    (s.node node).headOf 0 = some tok → tok.mark = true →
    exec (.memnodeMarker node 0) s = .next (((s.setNode node { (s.node node).popIn 0 with starts := [], hist := [] }).nodeEmit node 0
      { tok with dom := s.domOf (node / 4) }).touch (node / 4))) ∧
  (∀ node x y s, (s.node node).headOf 1 = some x → (s.node node).headOf 2 = some y → x.mark = true → y.mark = false → y.poison = false →
    exec (.memnodePairRealign node 0) s = .next ((s.setNode node { (s.node node).popIn 2 with
      realign := (s.node node).realign.put 0 true false }).touch (node / 4))) ∧
  ∀ core word s, s.poolFault core word = .corrected →
    exec (.poolEccWriteback core word) s = .next (s.setPoolFault core word .good)

/-- The request at a place of a node's queue may have its next access, in the turn of the bank that this reaches (R224, R230). -/
def Claims.Served (s : State) (node index : Nat) (q : NodeReq) : Prop :=
  (s.node node).queue[index]? = some q ∧ (s.node node).mayPerform index = true ∧ ∀ w, q.op.nextWord = some w → s.bankTurn node w = true

/-- But for n bytes of a core's pool from a, every byte of every pool, the package's memory and the registers are the same. -/
def Claims.PoolBut (s t : State) (core a n : Nat) : Prop :=
  (∀ k, (k < 2 ^ 19 * core + a ∨ 2 ^ 19 * core + a + n ≤ k) → t.core.pool.find k 0 = s.core.pool.find k 0) ∧ t.mem = s.mem ∧ t.unit.regs = s.unit.regs

/-- The request at a place of a node's queue has performed and its token waits for its port. -/
def Claims.Answered (t : State) (node index : Nat) (q : NodeReq) (payload : Word) : Prop :=
  (t.node node).queue[index]? = some { q with done := some { payload, dom := t.domOf (node / 4) } }

/-- R224, R230, R233, R237, R239, R240: an access that writes, in its bank's turn, writes exactly its bytes, the first least significant, and leaves every other
byte of every pool and all of the package's memory: a store, whatever it comes from, a poisoned store its words, a `FILL` and a `COPY` the bytes that
fall in one pool word, a `HINS` one slot. A store of a port leaves its completion for `ack`. -/
def Obligations.StorePerforms : Prop :=
  (∀ node index s q a n v, Claims.Served s node index q → q.op = .store a n v false →
    s.failingWord (node / 4) a n (fun w => !coversWord a n w) = none →
    ∃ t, exec (.memnodePerform node index) s = .next t ∧
      (∀ j < n, t.poolByte (node / 4) (a + j) = BitVec.ofNat 8 (v.toNat / 256 ^ j)) ∧ Claims.PoolBut s t (node / 4) a n ∧
      (q.src = .st → Claims.Answered t node index q q.req.payload)) ∧
  (∀ node index s q a n v, Claims.Served s node index q → q.op = .store a n v true →
    let w := wordsOf a n
    ∃ t, exec (.memnodePerform node index) s = .next t ∧
      (∀ k < w.2, t.poolFault (node / 4) (w.1 + k) = .pattern ∧ ∀ j < 8, t.poolByte (node / 4) (8 * (w.1 + k) + j) = 0) ∧
      Claims.PoolBut s t (node / 4) (8 * w.1) (8 * w.2)) ∧
  (∀ node index s q dst n v, Claims.Served s node index q → q.op = .fill dst n v → n ≠ 0 →
    let m := Nat.min (32 - dst % 32) n
    s.failingWord (node / 4) dst n (fun w => !coversWord dst n w) = none → s.failingWord (node / 4) dst m (fun w => !coversWord dst m w) = none →
    ∃ t, exec (.memnodePerform node index) s = .next t ∧
      (∀ j < m, t.poolByte (node / 4) (dst + j) = BitVec.ofNat 8 (laneOf 8 (j % 32) v)) ∧ Claims.PoolBut s t (node / 4) dst m) ∧
  (∀ node index s q src dst n bs, Claims.Served s node index q → q.op = .writing src dst n bs → n ≠ 0 →
    let a := dst + (n - bs.length)
    let m := Nat.min (32 - a % 32) bs.length
    (bs.length = n → s.failingWord (node / 4) dst n (fun w => !coversWord dst n w) = none) →
    s.failingWord (node / 4) a m (fun w => !coversWord a m w) = none →
    ∃ t, exec (.memnodePerform node index) s = .next t ∧
      (∀ j < m, t.poolByte (node / 4) (a + j) = bs.getD j 0) ∧ Claims.PoolBut s t (node / 4) a m) ∧
  ∀ node index s q a h k v ws, Claims.Served s node index q → q.op = .heapWrite a h ((k, v) :: ws) →
    ∃ t, exec (.memnodePerform node index) s = .next t ∧
      (∀ j < 8, t.poolByte (node / 4) (heapAddr a h k + j) = BitVec.ofNat 8 (v / 256 ^ j)) ∧ Claims.PoolBut s t (node / 4) (heapAddr a h k) 8

/-- R224, R230, R236, R237, R239, R240: an access that reads, in its bank's turn, changes no byte: a load brings its bytes back to the task that waits for
it, or on `rd`; a `COPY` reads its source, and a `HINS` its heap, whatever they find there. -/
def Obligations.LoadPerforms : Prop :=
  (∀ node index s q a n, Claims.Served s node index q → q.op = .load a n → s.failingWord (node / 4) a n = none →
    let v := BitVec.ofNat 256 (natOfBytes (s.poolBytes (node / 4) a n))
    ∃ t, exec (.memnodePerform node index) s = .next t ∧ t.core.pool = s.core.pool ∧ t.mem = s.mem ∧ t.unit.regs = s.unit.regs ∧
      (∀ pe slot, q.src = .pe pe slot → q.blocking = true → (s.task pe slot).wait = .memSent → (t.task pe slot).wait = .memDone v none) ∧
      (q.src = .ld → Claims.Answered t node index q v)) ∧
  ∀ node index s q, Claims.Served s node index q →
    ((∃ src dst n, q.op = .copy src dst n) ∨ (∃ src dst n got, q.op = .reading src dst n got) ∨ (∃ a h fmt e, q.op = .hins a h fmt e) ∨
      ∃ a h fmt e got, q.op = .heapRead a h fmt e got) →
    ∃ t, exec (.memnodePerform node index) s = .next t ∧ t.core.pool = s.core.pool ∧ t.mem = s.mem ∧ t.unit.regs = s.unit.regs

/-- R224, R234, R238: an atomic, posted or blocking or of the port `at`, reads its element and writes the operation's result in one access, in its bank's
turn; a `CAS` writes where it finds the value it expects. The old value comes back to a waiting task, or on `ak`. Every other byte keeps its value. -/
def Obligations.AtomicPerforms : Prop :=
  (∀ node index s q a fmt aop v, Claims.Served s node index q → q.op = .atomic a fmt aop v false → s.failingWord (node / 4) a (elemBytes fmt) = none →
    let n := elemBytes fmt
    let old := natOfBytes (s.poolBytes (node / 4) a n)
    ∃ t, exec (.memnodePerform node index) s = .next t ∧
      (∀ j < n, t.poolByte (node / 4) (a + j) = BitVec.ofNat 8 (aluNew fmt aop old (v.toNat % 2 ^ (8 * n)) / 256 ^ j)) ∧
      Claims.PoolBut s t (node / 4) a n ∧
      (∀ pe slot, q.src = .pe pe slot → q.blocking = true → (s.task pe slot).wait = .memSent →
        (t.task pe slot).wait = .memDone (BitVec.ofNat 256 old) none) ∧
      (q.src = .at → Claims.Answered t node index q (BitVec.ofNat 256 (old % 2 ^ 64)))) ∧
  ∀ node index s q a fmt cmp swap, Claims.Served s node index q → q.op = .cas a fmt cmp swap → s.failingWord (node / 4) a (elemBytes fmt) = none →
    let n := elemBytes fmt
    let old := natOfBytes (s.poolBytes (node / 4) a n)
    let new := if old = cmp.toNat % 2 ^ (8 * n) then swap.toNat % 2 ^ (8 * n) else old
    ∃ t, exec (.memnodePerform node index) s = .next t ∧
      (∀ j < n, t.poolByte (node / 4) (a + j) = BitVec.ofNat 8 (new / 256 ^ j)) ∧ Claims.PoolBut s t (node / 4) a n ∧
      ∀ pe slot, q.src = .pe pe slot → q.blocking = true → (s.task pe slot).wait = .memSent →
        (t.task pe slot).wait = .memDone (BitVec.ofNat 256 old) none

/-! ## The router array -/

/-- R200 to R203: a port of a router moves one token along the route that every choice it faces picks, from the route's input to its
output, and those choices turn to it (which choices face each other, log entry 28). -/
def Claims.RoutesMove : Prop :=
  let moved (r e : Nat) (tok : Token) (s : State) : State :=
    ((s.popInput r (s.route r e)).pushOutput r (s.route r e) tok).touch (coreOfRouter r)
  (∀ r e tok s, s.giveChoice r 4 0 = some e → s.inputHead r (s.route r e) = some tok → (s.route r e).inp < 4 → (s.route r e).outp = 4 →
    exec (.localPortDeliver r) s = .next ((moved r e tok s).setLocalInLast r e)) ∧
  (∀ r e tok s, s.takeChoice r 4 = some e → s.giveChoice r (s.route r e).outp (s.route r e).outh = some e →
    s.inputHead r (s.route r e) = some tok → (s.route r e).inp = 4 → (s.route r e).outp < 4 →
    exec (.localPortTake r) s =
      .next (((moved r e tok s).setLocalOutLast r e).setLinkLast r (s.route r e).outp (s.route r e).outvc)) ∧
  (∀ r e tok s, s.giveChoice r 7 0 = some e → s.inputHead r (s.route r e) = some tok → (s.route r e).inp < 4 → (s.route r e).outp = 7 →
    exec (.elementPortTransfer r 1) s = .next ((moved r e tok s).setElemInLast r e)) ∧
  (∀ r e tok s, s.takeChoice r 7 = some e → s.giveChoice r (s.route r e).outp (s.route r e).outh = some e →
    s.inputHead r (s.route r e) = some tok → (s.route r e).inp = 7 → (s.route r e).outp < 4 →
    exec (.elementPortTransfer r 0) s =
      .next (((moved r e tok s).setElemOutLast r e).setLinkLast r (s.route r e).outp (s.route r e).outvc)) ∧
  (∀ r out port e tok s, out < 4 → s.giveChoice r out port = some e → s.inputHead r (s.route r e) = some tok → (s.route r e).inp < 4 →
    (s.route r e).outp = out → exec (.routeHop r out port) s = .next ((moved r e tok s).setLinkLast r out (s.route r e).outvc)) ∧
  (∀ r out port e tok s, out = 5 ∨ out = 6 → s.giveChoice r out port = some e → s.inputHead r (s.route r e) = some tok →
    (s.route r e).inp < 4 → (s.route r e).outp = out → exec (.routeHop r out port) s = .next (moved r e tok s)) ∧
  (∀ r out port e s, s.giveChoice r out port = some e → s.won r e = true → exec (.routeHop r out port) s = .next (s.serveRoute r e)) ∧
  (∀ r out vc e (s : State), out < 4 → e < 64 → (s.route r e).outvc < 4 → s.routeReady r e = true → (s.route r e).outp = out → s.won r e = true →
    ∃ e', s.giveChoice r out vc = some e' ∧ (s.route r e').outp = out ∧ s.routeReady r e' = true ∧ s.won r e' = true) ∧
  ∀ r port e (s : State), port = 4 ∨ port = 7 → e < 64 → s.routeReady r e = true → (s.route r e).inp = port →
    ∃ e', s.takeChoice r port = some e' ∧ (s.route r e').inp = port ∧ s.routeReady r e' = true

/-- R199, R97, R98: a token that a route delivers to a PE leaves the neighbour link's buffer and stands behind the tokens of its input
buffer; one of another domain, but for domain 0, stands there as poison with a PROTECTION record. -/
def Claims.DeliveryToPe : Prop :=
  ∀ r e tok ts s, s.giveChoice r 4 0 = some e → (s.route r e).inp < 4 → (s.route r e).outp = 4 →
    s.link r (s.route r e).inp (s.route r e).invc = tok :: ts → (s.islandAt r (s.route r e).outvc).attached = false →
    s.glazeAt r (s.route r e).outvc = false →
    let x := s.handle r (s.route r e).outh
    ∃ t, exec (.localPortDeliver r) s = .next t ∧ t.link r (s.route r e).inp (s.route r e).invc = ts ∧
      (t.handle r (s.route r e).outh).cnt = x.cnt + 1 ∧
      (tok.dom = 0 ∨ tok.dom = s.domOf (coreOfPe r) → t.slotOf r (x.slotAt x.cnt) = tok) ∧
      (tok.dom ≠ 0 → tok.dom ≠ s.domOf (coreOfPe r) → (t.slotOf r (x.slotAt x.cnt)).poison = true ∧
        (t.slotOf r (x.slotAt x.cnt)).mark = false ∧ (t.slotOf r (x.slotAt x.cnt)).dom = s.domOf (coreOfPe r) ∧
        recCause (t.slotOf r (x.slotAt x.cnt)).payload = Cause.protection) ∧
      t.mem = s.mem ∧ t.core.pool = s.core.pool

/-- R206, R209, R210: a stateless operator that holds its inputs and has room fires: it takes them and emits what its code says. -/
def Claims.OperatorsFire : Prop :=
  (∀ r k t s, let o := s.opSlot r k
    o.fires 0 = true → o.data 0 = some t → o.free 0 = true →
    exec (.passFiring r k) s = .next (s.fired r k ((o.pop 0).put 0 (s.opToken r t)))) ∧
  (∀ r k c t s, let o := s.opSlot r k
    let n := if o.test c then 0 else 1
    o.fires 1 = true → o.data 0 = some c → o.data 1 = some t → c.poison = false → o.free n = true →
    exec (.steerFiring r k) s = .next (s.fired r k (((o.pop 0).pop 1).put n (s.opToken r t)))) ∧
  (∀ r k c t s, let o := s.opSlot r k
    let n := if o.test c then 1 else 2
    o.fires 2 = true → o.data 0 = some c → o.data n = some t → c.poison = false → o.free 0 = true →
    exec (.mergeFiring r k) s = .next (s.fired r k (((o.pop 0).pop n).put 0 (s.opToken r t)))) ∧
  (∀ r k t s, let o := s.opSlot r k
    o.fires 6 = true → o.data 0 = some t → o.outputs.all o.free = true →
    exec (.forkFiring r k) s = .next (s.fired r k (o.outputs.foldl (fun o n => o.put n (s.opToken r t)) (o.pop 0)))) ∧
  (∀ r k n ns t s, let o := s.opSlot r k
    o.fires 7 = true → o.free 0 = true → o.inputs = n :: ns → o.data n = some t →
    (∀ m ∈ o.inputs, ∃ u, o.data m = some u ∧ u.poison = false) →
    exec (.joinFiring r k) s = .next (s.fired r k ((o.inputs.foldl OpSlot.pop o).put 0 (s.opToken r t)))) ∧
  (∀ r k c s, let o := s.opSlot r k
    o.fires 9 = true → o.data 0 = some c → c.poison = false → o.test c = false →
    exec (.gateFiring r k) s = .next (s.fired r k (o.pop 0))) ∧
  (∀ r k c t s, let o := s.opSlot r k
    o.fires 9 = true → o.data 0 = some c → c.poison = false → o.test c = true → o.data 1 = some t → o.free 0 = true →
    exec (.gateFiring r k) s = .next (s.fired r k (((o.pop 0).pop 1).put 0 (s.opToken r t)))) ∧
  (∀ r k c t s, let o := s.opSlot r k
    o.fires 10 = true → o.data 0 = some c → o.data 1 = some t → c.poison = false → o.test c = true → o.free 0 = true →
    exec (.filterFiring r k) s = .next (s.fired r k (((o.pop 0).pop 1).put 0 (s.opToken r t)))) ∧
  ∀ r k c t s, let o := s.opSlot r k
    o.fires 10 = true → o.data 0 = some c → o.data 1 = some t → c.poison = false → o.test c = false →
    exec (.filterFiring r k) s = .next ((s.fired r k ((o.pop 0).pop 1)).postIf r t)

/-- R211, R212: equal markers on all inputs become one marker on all outputs; a misaligned operator discards data up to its markers. -/
def Claims.OperatorMarkers : Prop :=
  (∀ r k n t s, let o := s.opSlot r k
    o.used = true → stateless o.opc = true → o.outputs.all o.free = true → o.follow = none → o.realign = false → o.inputs ≠ [] →
    (∀ m ∈ o.inputs, ∃ u, o.head m = some u ∧ u.mark = true ∧ u.payload.toNat % 2 ^ 16 = n) → t = s.opToken r (markerToken n) →
    exec (.operatorMarkerFiring r k) s = .next (s.fired r k ((o.inputs.foldl OpSlot.pop o).emitAll t))) ∧
  ∀ r k n t s, let o := s.opSlot r k
    o.used = true → stateless o.opc = true → o.follow = none → o.misaligned = true → (o.inputs.filter fun m => (o.data m).isSome) = [n] →
    o.data n = some t →
    exec (.operatorRealignDiscard r k) s =
      .next ((((s.setOpSlot r k { o.pop n with realign := true, discards := o.discards ||| 2 ^ n }).postIf r t)).touch (coreOfRouter r))

/-- R213 to R217: the operators with state: `CARRY`, `IREP`, `LOOPGEN`, `SINK` and `MCUT`. -/
def Obligations.StatefulOperators : Prop :=
  (∀ r k t s, let o := s.opSlot r k
    o.fires 3 = true → o.st = .carryInit → o.head 0 = some t → o.free 0 = true →
    exec (.carryFiring r k) s = .next (s.fired r k
      { (o.pop 0).put 0 (s.opToken r t) with st := if t.mark then .carryWait false else .carryLoop })) ∧
  (∀ r k c b s, let o := s.opSlot r k
    o.fires 3 = true → o.st = .carryLoop → o.head 1 = some c → c.mark = false → c.poison = false → o.test c = true →
    o.head 2 = some b → b.mark = false → o.free 0 = true →
    exec (.carryFiring r k) s = .next (s.fired r k (((o.pop 1).pop 2).put 0 (s.opToken r b)))) ∧
  (∀ r k c s, let o := s.opSlot r k
    o.fires 3 = true → o.st = .carryLoop → o.head 1 = some c → c.mark = false → c.poison = false → o.test c = false →
    exec (.carryFiring r k) s = .next (s.fired r k { o.pop 1 with st := .carryInit })) ∧
  (∀ r k t s, let o := s.opSlot r k
    o.used = true → o.opc = 4 → o.follow = none → o.st = .irepEmpty → o.head 0 = some t → t.mark = false →
    exec (.irepFiring r k) s = .next (s.fired r k { o.pop 0 with st := .irepHold t false })) ∧
  (∀ r k t b c s, let o := s.opSlot r k
    o.used = true → o.opc = 4 → o.follow = none → o.st = .irepHold t b → o.head 1 = some c → c.mark = false → c.poison = false →
    o.test c = true → o.free 0 = true →
    exec (.irepFiring r k) s = .next (s.fired r k { (o.pop 1).put 0 (s.opToken r t) with st := .irepHold t true })) ∧
  (∀ r k t s, let o := s.opSlot r k
    o.fires 5 = true → o.st = .loopIdle → o.head 0 = some t → t.mark = false → t.poison = false →
    exec (.loopgenLoad r k) s = .next (s.fired r k { o.pop 0 with st := .loopCount (t.payload.toNat % 2 ^ 32) 0 })) ∧
  (∀ r k n i s, let o := s.opSlot r k
    o.fires 5 = true → o.free 0 = true → o.st = .loopCount n i →
    exec (.loopgenEmit r k) s = .next (s.fired r k (if i < n then { o.put 0 (s.opToken r (loopToken true i)) with st := .loopCount n (i + 1) }
      else { o.put 0 (s.opToken r (loopToken false n)) with st := .loopIdle }))) ∧
  (∀ r k t s, let o := s.opSlot r k
    o.fires 8 = true → o.head 0 = some t → (t.mark = false ∨ o.param.testBit 0 = false) →
    exec (.sinkFiring r k) s = .next ((s.fired r k (o.pop 0)).postIf r t)) ∧
  (∀ r k t s, let o := s.opSlot r k
    o.fires 11 = true → o.st = .mcutArmed → o.head 0 = some t → t.mark = true → o.free 0 = true →
    ∃ u, exec (.mcutPass r k) s = .next u ∧ (u.opSlot r k).st = .mcutCut ∧ (u.opSlot r k).outs.find 0 none = some (s.opToken r t) ∧
      (u.opSlot r k).lastMarker = some (t.payload.extractLsb' 0 16)) ∧
  (∀ r k s, s.stateOfCore (coreOfRouter r) = some .gating → (s.opSlot r k).used = true → (s.opSlot r k).opc = 11 →
    (s.opSlot r k).st = .mcutOpen →
    exec (.mcutGatingRequest r k) s = .next (s.setOpSlot r k { s.opSlot r k with st := .mcutArmed })) ∧
  ∀ r k s, s.stateOfCore (coreOfRouter r) = some .running → (s.opSlot r k).used = true → (s.opSlot r k).opc = 11 →
    exec (.mcutRelease r k) s = .next (s.setOpSlot r k { s.opSlot r k with st := .mcutOpen })

/-- R254 to R259, R269 to R271, R195, R196: Glaze islands, address generators and timing detectors. A token of a Glaze island stands in stage 1 when
it enters and in stage 4 three cycles in which the output was free later; when it leaves stage 4 every other token advances by one stage; a marker or
a poison token comes out as it went in. The third flag of a timing detector within 2^20 cycles halves the clock for 2^20 cycles (R196). The stage that
each token carries, and the failing number that the record of several parity failures names, are the model's (log entries 65, 130). -/
def Obligations.IslandsAndGenerators : Prop :=
  (∀ c t ts s, (s.glaze c).inUse = true → (∀ x ∈ ((s.glaze c).flow s.now).pipe, x.2 ≠ 0) → (s.glaze c).inq = t :: ts →
    let g := (s.glaze c).flow s.now
    exec (.glazeAccept c) s = .next ((s.setGlaze c { g with inq := ts, pipe := g.pipe ++ [(t, 0)] }).touch c)) ∧
  (∀ c t ts s, ((s.glaze c).flow s.now).pipe = (t, 3) :: ts → (s.glaze c).out = none →
    let g := (s.glaze c).flow s.now
    ∃ u, exec (.glazeOutput c) s = .next ((s.setGlaze c { g with
        pipe := ts.map fun x => (x.1, x.2 + 1), pipeAt := g.pipeAt + 1, out := some u }).touch c) ∧
      (t.mark = true ∨ t.poison = true → u = t) ∧
      (t.mark = false → t.poison = false → (s.glaze c).bads = [] →
        u = { payload := (s.glaze c).decode t.payload, dom := s.domOf c }) ∧
      ∀ k ks, t.mark = false → t.poison = false → (s.glaze c).bads = k :: ks → k < 2 ^ 48 →
        u.poison = true ∧ recCause u.payload = Cause.poolUe ∧ recDetail u.payload = k ∧ u.dom = s.domOf c) ∧
  (∀ (g : Glaze) t a ts now, g.pipe = (t, a) :: ts → g.out = none → g.pipeAt + (3 - a) ≤ now → a ≤ 3 →
    (g.flow now).pipe.head? = some (t, 3)) ∧
  (∀ n s, (s.agen n).valid = true → (s.info (n / 4)).enabled = true → (s.agen n).gate ≠ 2 → (s.agen n).trig = false →
    (s.agen n).swept = false → (s.agen n).st = .idle →
    exec (.agenSweepStart n) s = .next ((s.setAgen n { s.agen n with st := .sweep 0 0 0 0 0, swept := true }).touch (n / 4))) ∧
  (∀ n t ts s, (s.agen n).valid = true → (s.info (n / 4)).enabled = true → (s.agen n).gate ≠ 2 → (s.agen n).trig = true →
    (s.agen n).st = .idle → (s.agen n).trigq = t :: ts → (t.dom = 0 ∨ t.dom = s.domOf (n / 4)) → t.mark = false → t.poison = false →
    exec (.agenTrigger n) s =
      .next ((s.setAgen n { s.agen n with trigq := ts, st := .sweep 0 0 0 0 (t.payload.setWidth 64) }).touch (n / 4))) ∧
  (∀ n t ts s, (s.agen n).valid = true → (s.info (n / 4)).enabled = true → (s.agen n).gate = 0 → (s.agen n).trig = true →
    (s.agen n).st = .idle → (s.agen n).trigq = t :: ts → (t.dom = 0 ∨ t.dom = s.domOf (n / 4)) → (t.mark = true ∨ t.poison = true) →
    (s.agen n).out = none →
    exec (.agenTrigger n) s =
      .next ((s.setAgen n { s.agen n with trigq := ts, out := some { t with dom := s.domOf (n / 4) } }).touch (n / 4))) ∧
  (∀ n i0 i1 i2 i3 off s, s.agenOpen n = true → (s.agen n).st = .sweep i0 i1 i2 i3 off →
    exec (.agenEmit n) s = .next ((s.setAgen n { s.agen n with
      st := (s.agen n).advance i0 i1 i2 i3 off
      out := some { payload := (s.agen n).token i0 i1 i2 i3 off, dom := s.domOf (n / 4) } }).touch (n / 4))) ∧
  (∀ n s, s.stateOfCore (n / 4) = some .gating → (s.agen n).valid = true → (s.agen n).gate = 0 →
    exec (.agenGatingRequest n) s = .next (s.setAgen n { s.agen n with gate := 1 })) ∧
  (∀ pe s, ∃ t, exec (.timingDetectorFlag 0 pe) s = .next t ∧ t.peDetector pe = (s.peDetector pe).flag s.now ∧
    t.unit.regs = s.unit.regs ∧ t.unit.tasks = s.unit.tasks ∧ t.mem = s.mem ∧ t.core.pool = s.core.pool) ∧
  (∀ b s, ∃ t, exec (.timingDetectorFlag 1 b) s = .next t ∧ t.bankDetector b = (s.bankDetector b).flag s.now ∧ t.unit = s.unit ∧
    t.mem = s.mem ∧ t.core.pool = s.core.pool) ∧
  (∀ k s, ∃ t, exec (.timingDetectorFlag 2 k) s = .next t ∧ t.kilnDetector k = (s.kilnDetector k).flag s.now ∧ t.unit = s.unit ∧
    t.mem = s.mem ∧ t.core.pool = s.core.pool) ∧
  ∀ (d : Detector) n₁ n₂ n, d.flags = [n₁, n₂] → ((d.flag n).flags = [n, n₁] ∧
    ((d.flag n).half = true ↔ d.half = true ∨ n ≤ n₂ + 2 ^ 20))

/-! ## Comets -/

/-- R279: a graph port accepts a request while fewer than 16 of its group are on their way or have results that have not left the port,
performs those that may, and emits results in order; R280: an access that needs a missing page parks its port, or in a part that is being killed
is discarded (R281). -/
def Claims.GraphPorts : Prop :=
  (∀ c p t ts s, (s.cometPort c p).parked = none → s.groupOf c p = .read → (s.cometPort c p).inq = t :: ts → t.mark = false →
    t.poison = false → (s.cometPort c p).reqs.length + ((s.cometPort c (p + 1)).outq.filter fun r => !r.mark).length < 16 →
    exec (.graphPortAccept c p) s = .next ((s.popPort c p).pushReq c p { req := t })) ∧
  (∀ c p k q ps bs s₁ s₂ s, (s.cometPort c p).reqs[k]? = some q → q.held = false →
    s.graphMay (s.portAsker c p) (s.cometPort c p).reqs k q = true → q.write = false →
    s.graphPieces (s.portAsker c p) q = (.inl ps, s₁) → s₁.hbmRead (s.portAsker c p) ps = (.inl bs, s₂) →
    exec (.cometAccess c p k) s = .next ((s₂.putReq c p k
      { q with held := false, done := some { payload := BitVec.ofNat 256 (natOfBytes bs), dom := (s.portAsker c p).dom } }).touchPort c p)) ∧
  (∀ c p k q ps s₁ s, (s.cometPort c p).reqs[k]? = some q → q.held = false →
    s.graphMay (s.portAsker c p) (s.cometPort c p).reqs k q = true → q.write = true → q.data.poison = false →
    s.restartable (s.portAsker c p) = false → s.graphPieces (s.portAsker c p) q = (.inl ps, s₁) →
    exec (.cometAccess c p k) s = .next (((s₁.hbmWrite (s.portAsker c p) ps
      (bytesOfNat ((ps.map Piece.len).foldl (· + ·) 0) q.data.payload.toNat)).putReq c p k
        { q with held := false, done := some { q.req with dom := (s.portAsker c p).dom } }).touchPort c p)) ∧
  (∀ c p k q kind tid page s₁ s, (s.cometPort c p).reqs[k]? = some q → q.held = false →
    s.graphMay (s.portAsker c p) (s.cometPort c p).reqs k q = true → q.write = false →
    s.graphPieces (s.portAsker c p) q = (.inr (.park kind tid page), s₁) → s₁.isParked c p = false → s₁.drains (s.portAsker c p) = false →
    exec (.cometAccess c p k) s =
      .next (((s₁.putReq c p k { q with held := true }).parkPort (s.portAsker c p) p kind tid page).touchPort c p)) ∧
  (∀ c p k q kind tid page s₁ s, (s.cometPort c p).reqs[k]? = some q → q.held = false →
    s.graphMay (s.portAsker c p) (s.cometPort c p).reqs k q = true → q.write = false →
    s.graphPieces (s.portAsker c p) q = (.inr (.park kind tid page), s₁) → s₁.drains (s.portAsker c p) = true →
    exec (.cometAccess c p k) s = .next ((s₁.dropReq c p k).touchPort c p)) ∧
  (∀ c p q qs t s, s.groupOf c p ≠ .none → (s.cometPort c p).reqs = q :: qs → q.done = some t →
    (s.cometPort c ((s.groupOf c p).outPort p)).outq.length < 2 →
    exec (.graphPortResult c p) s = .next (((s.setCometPort c p { s.cometPort c p with reqs := qs }).portEmit c
      ((s.groupOf c p).outPort p) t).touchPort c p))

/-- R294 to R303: a command enters the queue of its core, which holds 16 and takes none while its port is parked (R280), in its Comet's order of
acceptance; a blocking one holds issue, and completes with its result; one that failed leaves its record with the task. -/
def Claims.CometCommands : Prop :=
  let place (x : Issue) : Nat := x.s.accepted (cometOfCore x.core)
  let enters (x : Issue) : State := x.s.setAccepted (cometOfCore x.core) (place x + 1)
  let takes (x : Issue) : Prop := (x.s.cmdq x.core).length < 16 ∧ x.s.isParked (cometOfCore x.core) (commandPort x.core) = false
  let queues (c : Fields → Instr) (sp : Fields → OpSpec) (ok : Issue → Prop) (r : Issue → Cmd) : Prop :=
    Completes c sp (fun x => ok x ∧ takes x)
      (fun x => (enters x).setCmdq x.core (x.s.cmdq x.core ++
        [{ r x with pe := x.pe, slot := x.slot, dom := x.dom, disp := x.disp, tag := freeTag (x.s.cmdq x.core), order := place x }])) ∧
    Holds c sp (fun x => ok x ∧ ¬takes x) (fun x => x.s)
  let short (x : Issue) : Prop := x.sc < 2 ^ 32
  let fgrd : OpSpec := { specComet 0xDB with mods := fun w => w.mod &&& 0b1110 = 0, d := .dst, a := .src }
  queues .cpy (fun _ => { specComet 0xD8 with
      a := .srcWide, b := .srcWide, c := .srcWide
      xok := fun _ _ imm => decide (fieldNat 18 2 imm < 2) && decide (fieldNat 16 2 imm < 2) && fieldNat 10 6 imm = 0 })
    short (Issue.copyCmd · .cpy) ∧
  queues .gath (fun _ => specGather 0xD9) short (Issue.gatherCmd · .gath) ∧
  queues .scat (fun _ => specGather 0xDA) short (Issue.gatherCmd · .scat) ∧
  queues .fgwr (fun _ => { specComet 0xDC with mods := fun w => w.mod &&& 0b1110 = 0, a := .src, b := .src }) (fun _ => True)
    (fun x => { op := .fgwr, ca := x.sa, tids := fieldNat 0 12 x.imm, cc := fieldNat 12 4 x.imm, g := fineWidth x.w
                data := BitVec.ofNat 256 (x.wb.toNat % 2 ^ 128) }) ∧
  queues .xchg (fun _ => specXchg) short (Issue.copyCmd · .xchg) ∧
  queues .xchgRaw (fun _ => specXchg) short (Issue.copyCmd · .xchg) ∧
  queues .pref (fun _ => { specComet 0xE1 with a := .src, b := .src }) (fun x => x.sb ≤ 2 ^ 21)
    (fun x => { op := .pref, ca := x.sa, n := x.sb, tids := fieldNat 0 12 x.imm }) ∧
  Holds .fgrd (fun _ => fgrd) (fun x => x.task.wait = .none ∧ takes x)
    (fun x => ((enters x).setCmdq x.core (x.s.cmdq x.core ++
      [{ op := .fgrd, ca := x.sa, tids := fieldNat 0 12 x.imm, g := fineWidth x.w, pe := x.pe, slot := x.slot, dom := x.dom
         disp := x.disp, tag := freeTag (x.s.cmdq x.core), order := place x }])).setTask x.pe x.slot
      { x.task with wait := .memSent }) ∧
  Completes .fgrd (fun _ => fgrd) (fun x => x.task.wait = .memDone x.task.wait.value none) (fun x => x.putD x.s x.task.wait.value) ∧
  ∀ f, Completes .fgrd (fun _ => fgrd) (fun x => x.task.wait = .memDone x.task.wait.value (some f))
    (fun x => x.taintRec (x.putD x.s x.task.wait.value) f)

/-- R302: `CWAIT` takes its count from a completion counter when it is first in line and the count is there, else waits in line. -/
def Claims.CompletionCounters : Prop :=
  let sp : OpSpec := { specComet 0xDF with d := .dst, a := .src }
  let line (x : Issue) : List (Nat × Nat) :=
    let ws := (x.s.cc x.core (x.imm % 16)).waiters
    if ws.contains (x.pe, x.slot) then ws else ws ++ [(x.pe, x.slot)]
  let ok (x : Issue) : Prop := 1 ≤ x.sa ∧ x.sa ≤ 65535
  let first (x : Issue) : Prop := (line x).head? = some (x.pe, x.slot) ∧ x.sa ≤ (x.s.cc x.core (x.imm % 16)).count
  Completes .cwait (fun _ => sp) (fun x => ok x ∧ first x)
    (fun x => x.putD (x.s.setCc x.core (x.imm % 16)
        { count := (x.s.cc x.core (x.imm % 16)).count - x.sa, status := 0, waiters := (line x).tail })
      (BitVec.ofNat 256 (packFields [(4, x.imm % 16), (4, 0), (2, (x.s.cc x.core (x.imm % 16)).status)]))) ∧
  Holds .cwait (fun _ => sp) (fun x => ok x ∧ ¬first x)
    (fun x => (x.s.setCc x.core (x.imm % 16) { x.s.cc x.core (x.imm % 16) with waiters := line x }).setTask x.pe x.slot
      { x.task with wait := .counter }) ∧
  Fails .cwait (fun _ => sp) (fun x => ¬ok x) Cause.illegalOperand (fun _ => 0xDF + 256 * 5)

/-- R282: `RESUME` retries, and `RESUME.fail` abandons, the access parked at the port that `A` names and answers all ones; with none
parked there it answers zero. -/
def Claims.ParkedAccesses : Prop :=
  let port (x : Issue) : Option Parked := (x.s.cometPort (cometOfId x.sa) (x.sa % 256)).parked
  let q (x : Issue) : Nat := Issue.predNum x.w.d
  let one (c : Fields → Instr) (f : Issue → Parked → State) : Prop :=
    Completes c (fun _ => specResume) (fun x => x.sa < 2 ^ 16 ∧ port x = none) (fun x => x.s.setPredOf x.pe (q x) 0) ∧
    (∀ k, Completes c (fun _ => specResume) (fun x => x.sa < 2 ^ 16 ∧ port x = some k ∧ k.abandoned = false)
      (fun x => (f x k).setPredOf x.pe (q x) 0xFFFFFFFF)) ∧
    Fails c (fun _ => specResume) (fun x => 2 ^ 16 ≤ x.sa) Cause.illegalOperand (fun _ => 0xE0 + 256 * 5)
  one .resume (fun x k => x.s.retryPort (cometOfId x.sa) (x.sa % 256) k) ∧
  one .resumeFail (fun x k => x.s.abandonPort (cometOfId x.sa) (x.sa % 256) k)

/-- R295, R298, R299, R301, R363: a translated command performs when none that was accepted before it reaches bytes that it reaches, be it of
its own core or of another of the Comet (R428): a fine-grain read or write and an atomic send one request to the controller of their bytes, whose
response ends them: with the bytes read, with the completion counter, or with the old value; a copy without bytes only counts. The entries of a gather
are read by the unit of their stack, which takes the request that its die's controller has received and answers it when its last entry is read; the
response that brings the last entry completes the gather. The bodies of the packets are the model's own (log entry 36). -/
def Claims.CommandsPerform : Prop :=
  let may (s : State) (core k : Nat) (c : Cmd) : Prop :=
    (s.cmdq core)[k]? = some c ∧ c.translated = true ∧ c.sent = false ∧ (∀ d ∈ (s.cmdq core).take k, d.overlaps c = false) ∧
      s.waitsOther core c = false
  let asks (s : State) (core k : Nat) (c : Cmd) (p : Piece) (type n : Nat) : State :=
    let a := c.asker core
    ((s.inject a.cluster (1 + a.comet % 2) (s.header a.cluster (1 + a.comet % 2) (s.homeOf p.phys) 3 type 0 0 a.dom (cmdTag core c.tag))
      (requestPayload p.phys p.key n (p.key + 2 ^ 32 * c.disp) (c.data.toNat % 2 ^ (8 * n)) c.fmt c.aop) []).putCmd core k
        { c with sent := true }).touch core
  let response (s : State) (core k : Nat) (c : Cmd) (type : Nat) (f : Flit) (t : State) : Prop :=
    (s.cmdq core)[k]? = some c ∧ c.translated = true ∧ c.sent = true ∧ ∃ fs,
      s.takePacket (c.asker core).cluster (1 + (c.asker core).comet % 2) (fun b => let x := Header.ofBits b
        decide (x.type = type) && decide (x.tag = cmdTag core c.tag) && decide (bitsOf 186 32 b = c.disp)) = (some (f :: fs), t)
  (∀ core k c p ps s, may s core k c → c.op = .fgrd → c.src = p :: ps → s.restartable (c.asker core) = false →
    exec (.cometCommandPerform core k) s = .next (asks s core k c p 0 c.g)) ∧
  (∀ core k c p ps s, may s core k c → c.op = .fgwr → c.src = p :: ps → s.restartable (c.asker core) = false →
    exec (.cometCommandPerform core k) s = .next (asks s core k c p 2 c.g)) ∧
  (∀ core k c p ps s, may s core k c → c.op = .ratom → s.isRemote c = false → c.src = p :: ps →
    exec (.cometCommandPerform core k) s = .next (asks s core k c p 4 (elemBytes c.fmt))) ∧
  (∀ core k c f t s, c.op = .fgrd → response s core k c 1 f t → bitsOf 138 2 f.bits = 0 →
    exec (.cometCommandPerform core k) s = .next (t.answerCmd core k c (BitVec.ofNat 256 (bitsOf 256 128 f.bits)) none)) ∧
  (∀ core k c f t s, c.op = .fgwr → response s core k c 3 f t → bitsOf 138 2 f.bits = 0 →
    exec (.cometCommandPerform core k) s =
      .next ((t.tilesWritten (c.asker core) c (bytesOfNat c.g c.data.toNat)).finishCmd core k c 0)) ∧
  (∀ core k c f t s, c.op = .ratom → response s core k c 5 f t → bitsOf 138 2 f.bits = 0 →
    let n := elemBytes c.fmt
    let v := bitsOf 256 128 f.bits
    exec (.cometCommandPerform core k) s =
      .next ((t.tilesWritten (c.asker core) c (bytesOfNat n (aluNew c.fmt c.aop v (c.data.toNat % 2 ^ (8 * n))))).answerCmd core k c
        (ratomWord v 0) none)) ∧
  (∀ core k c f t s, c.op = .fgrd → response s core k c 1 f t → bitsOf 138 2 f.bits ≠ 0 →
    exec (.cometCommandPerform core k) s = .next (t.answerCmd core k c 0
      (some ((statusFail (bitsOf 138 2 f.bits) (t.homeOf (bitsOf 64 64 f.bits))).record t (c.asker core))))) ∧
  (∀ core k c s, may s core k c → c.op = .cpy → c.raw = false → c.n = 0 → s.waitsSlice core c = false →
    exec (.cometCommandPerform core k) s =
      .next (((s.dropCmd core k).setCc core c.cc ((s.cc core c.cc).complete 0)).touch core)) ∧
  (∀ core k c bs t u s, may s core k c → c.op = .cpy → c.raw = false → c.n ≠ 0 → c.dsp = true → s.copyRead core (c.asker core) c = (.inl bs, t) →
    t.cometPoolWrite core c.dsta bs = (none, u) → s.waitsSlice core c = false →
    exec (.cometCommandPerform core k) s =
      .next (((u.dropCmd core k).setCc core c.cc (((u.dropCmd core k).cc core c.cc).complete 0)).touch core)) ∧
  (∀ core k c s, (s.cmdq core)[k]? = some c → c.translated = false → s.mayTranslate core k c = true →
    exec (.cometCommandPerform core k) s = .next (s.translateAt core k c)) ∧
  (∀ (c : CompCtr) st, c.count < 65535 → (c.complete st).count = c.count + 1 ∧ (c.complete st).status = Nat.max c.status st) ∧
  (∀ st r rs e e' es bs t u s, s.acceptGather st = t → t.gatherQ st = r :: rs → r.todo = e :: e' :: es → t.readPiece r.asker e.2 = (.inl bs, u) →
    exec (.gatherUnitServe st) s = .next (u.setGatherQ st ({ r with todo := e' :: es, served := r.served ++ [(e.1, 0, bs)] } :: rs))) ∧
  (∀ st r rs e bs t u s, s.acceptGather st = t → t.gatherQ st = r :: rs → r.todo = [e] → t.readPiece r.asker e.2 = (.inl bs, u) →
    exec (.gatherUnitServe st) s = .next ((u.setGatherQ st rs).replyGather { r with todo := [], served := r.served ++ [(e.1, 0, bs)] })) ∧
  (∀ st n f ds (s t : State), let via := 16 * (st / 3) + n
    let mine (b : BitVec 512) : Bool := decide ((Header.ofBits b).type = 6) && decide (bitsOf 218 8 b = st)
    (firstBelow 16 fun n => ((s.takePacket (16 * (st / 3) + n) 3 mine).1).isSome) = some n → s.takePacket via 3 mine = (some (f :: ds), t) →
    let r : GatherReq := { via, hdr := BitVec.ofNat 64 f.bits.toNat, id := flitId f.bits, todo := gatherEntries f.bits (ds.map Flit.bits) }
    (t.dispOf r.asker.die r.asker.dom r.asker.disp).isSome = true → s.acceptGather st = t.setGatherQ st (t.gatherQ st ++ [r])) ∧
  ∀ core k c f ds j bs t u s, (s.cmdq core)[k]? = some c → c.translated = true → c.sent = true → c.op = .gath → c.parts = 1 → c.bad = [] →
    s.takePacket (c.asker core).cluster (1 + (c.asker core).comet % 2)
      (fun b => let x := Header.ofBits b; decide (x.type = 7) && decide (x.tag = cmdTag core c.tag)) = (some (f :: ds), t) →
    flitId f.bits = c.id → gatheredOf c.g f.bits (ds.map Flit.bits) = [(j, 0, bs)] → t.cometPoolWrite core (c.dsta + c.g * j) bs = (none, u) →
    let v := (u.putCmd core k { c with parts := 0 }).touch core
    exec (.cometCommandPerform core k) s =
      .next ((v.dropCmd core k).setCc core c.cc (((v.dropCmd core k).cc core c.cc).complete 0))

/-- R286 to R290: stream registers: opening, advancing, testing, closing and reading, each in its turn at the register (R287); the fibre forms act in
the same way (R291). A POISONED register leaves a copy of its record with the task (R289, R290). -/
def Claims.StreamRegisters : Prop :=
  let turn (x : Issue) : State := (x.inTurn (streamNum x.w.a)).s
  let advances (c : Fields → Instr) (sp : OpSpec) : Prop :=
    Completes c (fun _ => sp) (fun x => x.streamA.st ≠ .closed ∧ 1 ≤ x.sb ∧ x.sb < 2 ^ 32)
      (fun x => (turn x).setStream x.core (streamNum x.w.a) (x.streamA.advance x.sb)) ∧
    Fails c (fun _ => sp) (fun x => x.streamA.st = .closed) Cause.illegalOperand (fun _ => sp.op + 256 * 5)
  let tests (c : Fields → Instr) (sp : OpSpec) : Prop :=
    Completes c (fun _ => sp) (fun x => x.streamA.st = .opened) (fun x => (turn x).setPredOf x.pe (Issue.predNum x.w.d) 0) ∧
    Completes c (fun _ => sp) (fun x => x.streamA.st = .atEnd) (fun x => (turn x).setPredOf x.pe (Issue.predNum x.w.d) 0xFFFFFFFF) ∧
    ∀ r, Completes c (fun _ => sp) (fun x => x.streamA.st = .poisoned ∧ x.streamA.prec = some r)
      (fun x => x.taintRec ((turn x).setPredOf x.pe (Issue.predNum x.w.d) 0xFFFFFFFF) r)
  let closes (c : Fields → Instr) (sp : OpSpec) : Prop :=
    Completes c (fun _ => sp) (fun x => x.streamA.st ≠ .closed)
      (fun x => ((turn x).setStream x.core (streamNum x.w.a) {}).unpark (cometOfCore x.core) (streamPort x.core (streamNum x.w.a)))
  let sopen : OpSpec := { specStream 0xB0 with d := .streamOnly, a := .src, b := .src }
  let sread : OpSpec := { specStream 0xBA with mods := fun w => w.mod &&& 0b1110 = 0, d := .dst, a := { stream := true, fibre := true } }
  (∀ w slot s t u, ReadyOn sopen w slot s → let x := s.at sopen w slot
    x.sb < 2 ^ 32 → (s.stream x.core (streamNum w.d)).st = .closed →
    (x.inTurn (streamNum w.d)).s.descriptor x.asker (fieldNat 0 12 x.imm) = (.inl t, u) →
    (t.shape.offset x.sa).isSome = true → t.shape.linear x.sa + x.sb ≤ t.shape.total →
    Performs (.sopen w) 0xB0 w slot s (u.setStream x.core (streamNum w.d)
      { st := if x.sb = 0 then .atEnd else .opened, tid := fieldNat 0 12 x.imm, shape := t.shape, md := t.md
        beg := t.shape.linear x.sa, len := x.sb })) ∧
  Fails .sopen (fun _ => sopen) (fun x => x.sb < 2 ^ 32 ∧ (x.s.stream x.core (streamNum x.w.d)).st ≠ .closed) Cause.illegalOperand
    (fun _ => 0xB0 + 256 * 4) ∧
  advances .sadv { specStream 0xB1 with a := .streamOnly, b := .src } ∧
  advances .fadv { specStream 0xB5 with a := .fibreOnly, b := .src } ∧
  tests .stend { specStream 0xB2 with d := .predOnly, a := .streamOnly } ∧
  tests .ftend { specStream 0xB6 with d := .predOnly, a := .fibreOnly } ∧
  closes .sclose { specStream 0xB3 with a := .streamOnly } ∧
  closes .fclose { specStream 0xB7 with a := .fibreOnly } ∧
  Completes .sread (fun _ => sread) (fun x => x.w.mod.getLsbD 0 = false ∧ x.streamA.st = .atEnd) (fun x => x.putD (turn x) 0) ∧
  (∀ r, Completes .sread (fun _ => sread) (fun x => x.w.mod.getLsbD 0 = false ∧ x.streamA.st = .poisoned ∧ x.streamA.prec = some r)
    (fun x => x.taintRec (x.putD (turn x) 0) r)) ∧
  ∀ v, Completes .sread (fun _ => sread)
    (fun x => x.w.mod.getLsbD 0 = false ∧ x.streamA.st = .opened ∧
      let h := x.streamA.half false
      h.readWord x.streamA (256 / h.shape.bits) = some v ∧ h.firstBad x.streamA (256 / h.shape.bits) = none)
    (fun x => x.putD (turn x) v)

/-- R288, R291, R292, R293: fibres open over two pointers of a tensor, their lines are fetched ahead, and two of them are merged. -/
def Claims.Fibres : Prop :=
  let fopen : OpSpec := { specStream 0xB4 with
    mods := fun w => w.mod &&& 0b1110 = 0, d := .fibreOnly, a := { Pos.src with chanIn := false, chanOut := false } }
  let start (x : Issue) : Merge := { a := x.streamA, b := x.streamB, count := 0, found := [] }
  let both (x : Issue) : Prop := x.task.wait = .none ∧ x.streamA.st ≠ .closed ∧ x.streamB.st ≠ .closed ∧ streamNum x.w.a ≠ streamNum x.w.b
  let merged (x : Issue) (lanes : Bool) : Merge := mergeSteps lanes (x.streamA.len + x.streamB.len + 1) (start x)
  let good (m : Merge) : Prop := m.a.st ≠ .poisoned ∧ m.b.st ≠ .poisoned ∧ m.waits = false
  let turns (x : Issue) : State := ((x.inTurn (streamNum x.w.a)).inTurn (streamNum x.w.b)).s
  let left (x : Issue) (m : Merge) : State := ((turns x).setStream x.core (streamNum x.w.a) m.a).setStream x.core (streamNum x.w.b) m.b
  (∀ w slot s tp s₁ ti s₂ tv s₃ p s₄ q s₅, ReadyOn fopen w slot s → let x := s.at fopen w slot
    let tid (lo : Nat) : Nat := fieldNat lo 12 x.imm
    w.mod.getLsbD 0 = false → x.sa < 2 ^ 32 → (s.stream x.core (streamNum w.d)).st = .closed →
    (s.cometPort x.asker.comet (streamPort x.core (streamNum w.d))).parked = none →
    (x.inTurn (streamNum w.d)).s.fibreTensor x.asker (tid 12) true = (.inl tp, s₁) → s₁.fibreTensor x.asker (tid 24) true = (.inl ti, s₂) →
    s₂.fibreTensor x.asker (tid 36) false = (.inl tv, s₃) → x.sa + 1 < tp.shape.ext0 →
    s₃.readPointer x.asker (tid 12) tp x.sa = (.inl p, s₄) → s₄.readPointer x.asker (tid 12) tp (x.sa + 1) = (.inl q, s₅) →
    Performs (.fopen w) 0xB4 w slot s (s₅.setStream x.core (streamNum w.d)
      (fibreOpened (tid 24) (tid 36) false ti tv p q ((XFail.reason 2).record s₅ x.asker)))) ∧
  (∀ tidi tidv ti tv p q w, p ≤ q → q ≤ ti.shape.ext0 → q ≤ tv.shape.ext0 →
    let f := fibreOpened tidi tidv false ti tv p q w
    f.beg = p ∧ f.len = q - p ∧ f.st = if p = q then .atEnd else .opened) ∧
  Completes .fisect (fun _ => { specStream 0xB8 with d := .dst, a := .fibreOnly, b := .fibreOnly, c := .predOnly })
    (fun x => both x ∧ good (merged x true))
    (fun x => let m := merged x true
      (x.putD (left x m) (mkWord 32 8 fun k => (m.found.reverse[k]?).getD 0)).setPredOf x.pe (Issue.predNum x.w.c)
        (BitVec.ofNat 32 (2 ^ m.found.length - 1))) ∧
  Completes .fisectc (fun _ => { specStream 0xB9 with d := .dst, a := .fibreOnly, b := .fibreOnly })
    (fun x => both x ∧ good (merged x false))
    (fun x => let m := merged x false; x.putD (left x m) (scalarWord m.count)) ∧
  (∀ core reg line s, (s.stream core reg).st = .opened → s.isParked (cometOfCore core) (streamPort core reg) = false →
    (s.stream core reg).nextLine false = some line →
    exec (.streamFetch core reg 0) s = .next ((s.fetchLine core reg false line).touch core)) ∧
  ∀ core reg line f ds phys s t, let a := s.askerOf core
    let h := (s.stream core reg).half false
    let waits (b : BitVec 512) (x : Nat × Nat) : Bool := decide (x.2 = bitsOf 64 64 b ∧ bitsOf 186 32 b = a.disp)
    s.takePacket a.cluster (1 + a.comet % 2) (fun b => let x := Header.ofBits b
      decide (x.type = 1) && decide (x.tag = fetchTag core reg 0) && ((h.pend.any fun x => decide (x.1 = line) && waits b x) ||
        !(h.pend.any (waits b)))) = (some (f :: ds), t) →
    bitsOf 64 64 f.bits = phys → bitsOf 186 32 f.bits = a.disp → (line, phys) ∈ h.pend → bitsOf 138 2 f.bits = 0 →
    s.sliceFull a.cluster a.dom = false →
    let d := ((ds.head?).map Flit.bits).getD 0
    exec (.streamFetchReturn core reg 0 line) s =
      .next (((t.setStream core reg ((s.stream core reg).setHalf false (h.fill line (bytesOfNat 64 d.toNat)))).fillTile a
        (bitsOf 154 10 f.bits) (phys / 64) d).touch core)

/-! ## The Kilns -/

/-- R332 to R334, R337 to R339: the instructions that claim, release and fill operand slots, enqueue records, and set limits. -/
def Claims.KilnInstructions : Prop :=
  let slot (x : Issue) (n : Nat) : KSlot := x.s.kslot x.cluster n
  Completes .tclaim (fun _ => { specKiln 0xC0 with d := .dst, a := .src })
    (fun x => 1 ≤ x.sa ∧ x.sa ≤ 128 ∧ x.s.freeRun x.cluster x.sa = none) (fun x => x.putD x.s 0) ∧
  (∀ a, Completes .tclaim (fun _ => { specKiln 0xC0 with d := .dst, a := .src })
    (fun x => 1 ≤ x.sa ∧ x.sa ≤ 128 ∧ x.s.freeRun x.cluster x.sa = some a)
    (fun x => x.putD (foldUp x.sa x.s fun s k => s.setKslot x.cluster (a + k) { st := .claimed, dom := x.dom, disp := x.disp })
      (scalarWord (a + 256)))) ∧
  Completes .trel (fun _ => { specKiln 0xC1 with a := .src, b := .src })
    (fun x => x.sa < 128 ∧ 1 ≤ x.sb ∧ x.sa + x.sb ≤ 128 ∧
      ∀ k < x.sb, (slot x (x.sa + k)).st ≠ .free ∧ (slot x (x.sa + k)).dom = x.dom)
    (fun x => foldUp x.sb x.s fun s k => s.setKslot x.cluster (x.sa + k)
      (if (s.kslot x.cluster (x.sa + k)).pins = 0 && (s.kslot x.cluster (x.sa + k)).st ≠ .filling then {}
       else { s.kslot x.cluster (x.sa + k) with relp := true })) ∧
  (∀ w sl s fmt t, let sp : OpSpec := { specKiln 0xC2 with
      a := .srcNoImm, b := .srcNoImm, xok := fun _ _ imm => decide (fieldNat 13 2 imm < 3) }
    ReadyOn sp w sl s → let x := s.at sp w sl
    x.sa < 128 → (slot x x.sa).st ≠ .free → (slot x x.sa).st ≠ .filling → (slot x x.sa).dom = x.dom → (slot x x.sa).relp = false →
    (slot x x.sa).pins = 0 → s.fillFmt x.core (s.askerOf x.core) (fieldNat 12 1 x.imm = 1) (fieldNat 0 12 x.imm) = (fmt, t) →
    Performs (.tfill w) 0xC2 w sl s (t.setKslot x.cluster x.sa
      { slot x x.sa with st := .filling, kind := fieldNat 13 2 x.imm, fmt, cause := 0, fpe := x.pe, fslot := sl, fdisp := x.disp, ftid := fieldNat 0 12 x.imm
                         fpool := fieldNat 12 1 x.imm = 1, fcoord := BitVec.ofNat 64 x.sb, fchecked := false })) ∧
  Completes .ttask (fun _ => { specKiln 0xC3 with a := { reg := true, chanIn := true, chanOut := true } })
    (fun x => (x.s.krecs x.cluster).length < 64) (fun x => x.enqueueRecord x.wa) ∧
  Holds .ttask (fun _ => { specKiln 0xC3 with a := { reg := true, chanIn := true, chanOut := true } })
    (fun x => 64 ≤ (x.s.krecs x.cluster).length) (fun x => x.s) ∧
  Completes .ovfcfg (fun _ => { specKiln 0xC8 with a := .src })
    (fun x => ∃ e c, x.sa = e + 2 ^ 16 * c ∧ 1 ≤ e ∧ e ≤ 256 ∧ 1 ≤ c ∧ c ≤ 127)
    (fun x => x.s.setLimitsOf (granuleOfCore x.core) { elim := x.sa % 512, clim := x.sa / 2 ^ 16 }) ∧
  WritesLanes .scacc (fun _ => specScale 0xC6) Issue.lw (fun x k =>
    f32.round x.rm x.sat x.ftz (.add x.rm (x.f32Lane x.w.c x.offC k) (.mul (x.drained k) (x.f32Lane x.w.b x.offB k)))) ∧
  WritesLanes .scale (fun _ => specScale 0xC7) Issue.lw (fun x k =>
    f32.round x.rm x.sat x.ftz (.mul (.mul (x.drained k) (x.f32Lane x.w.b x.offB k)) (x.f32Lane x.w.c x.offC k)))

/-- R312, R335, R336, R338: the dependence counters of a cluster: waiting for a count, setting and adding to it, and reading it. -/
def Claims.KilnCounters : Prop :=
  let ctr (x : Issue) : KCtr := x.s.kctr x.cluster (x.imm % 32)
  let dep : OpSpec := { specCtr 0xC9 with mods := fun w => w.mod &&& 0b1110 = 0 }
  let stat : OpSpec := { specKiln 0xC5 with
    d := .dst, xok := fun _ _ imm => decide (imm % 64 ≤ 32), prot := fun s imm => decide (imm % 64 < 32) && foreignCtr s (imm % 32) }
  Completes .twait (fun _ => specCtr 0xC4) (fun x => 1 ≤ x.sa ∧ x.sa ≤ 65535 ∧ x.sa ≤ (ctr x).count ∧ (ctr x).failed = false)
    (fun x => x.putD x.s (BitVec.ofNat 256 (packFields [(5, x.imm % 32), (3, 0), (2, 0)]))) ∧
  Holds .twait (fun _ => specCtr 0xC4) (fun x => 1 ≤ x.sa ∧ x.sa ≤ 65535 ∧ (ctr x).count < x.sa) (fun x => x.s) ∧
  Completes .tdep (fun _ => dep) (fun x => x.sa < 65536)
    (fun x => x.putD (x.s.setDep x.cluster (x.imm % 32) { count := x.sa }) (scalarWord (ctr x).count)) ∧
  Completes .tdepAdd (fun _ => dep) (fun x => x.sa < 65536)
    (fun x => x.putD (x.s.setKctr x.cluster (x.imm % 32) { ctr x with count := Nat.min ((ctr x).count + x.sa) 65535 })
      (scalarWord (ctr x).count)) ∧
  (∀ cl n c (s : State), n < 32 → let t := s.setDep cl n c
    t.kctr cl n = c ∧ (t.krecs cl).map KRec.word = (s.krecs cl).map KRec.word ∧ ∀ r ∈ t.krecs cl, r.readyAt ≠ none → r ∈ s.krecs cl) ∧
  Completes .tstat (fun _ => stat) (fun x => x.imm % 64 < 32)
    (fun x => x.putD x.s (scalarWord ((x.s.kctr x.cluster (x.imm % 64)).count + 2 ^ 16 * (x.s.kctr x.cluster (x.imm % 64)).status)))

/-- R316, R317, R322 to R328: the sub-tiles of a ready record are issued, start, step, spill, drain, and complete the record; a sub-tile that has
waited longer than `%migrate_wait` moves with copies of its slots to a neighbour cluster with a free Kiln and room. -/
def Claims.KilnEvents : Prop :=
  (∀ cl n k r s, s.oldestReady cl = some n → s.freeKiln cl = some k → (s.krecs cl)[n]? = some r → s.failedSlot cl r = none →
    let r' : KRec := { r with next := r.next + 1, running := r.running + 1 }
    exec (.kilnSubtileIssue cl) s =
      .next (((s.putRec cl n r').setKiln k (some { home := cl, rec_ := r', s := r.next })).touch (coreOfPe r.pe))) ∧
  (∀ cl n k r s, s.oldestReady cl = some n → (s.krecs cl)[n]? = some r → s.failedSlot cl r = some k →
    exec (.kilnRecordFailReady cl) s = .next (s.putRec cl n { r with
      failure := some (s.kilnRecord cl (r.gran % 4) (s.kslot cl k).cause r.dom r.disp (kilnDetail r.next false 0 r.enq 0)) })) ∧
  (∀ k t s, s.kiln k = some t → t.phase = .issued → (t.rec_.isInt = true ∨ t.rec_.acc = false) →
    exec (.kilnSubtileStart k) s = .next (s.setKiln k (some { t with phase := .computing }))) ∧
  (∀ k t x s, s.kiln k = some t → t.phase = .computing → t.k < t.rec_.k → t.rec_.bf ≠ 13 → t.rec_.isInt = false →
    s.stepOperands (k / 4) t t.k = .inl x →
    exec (.kilnStep k) s = .next ((s.touch (coreOfPe t.rec_.pe)).setKiln k (some (floatStep t x.1 x.2)))) ∧
  (∀ k t vs u s, s.kiln k = some t → t.phase = .issued → t.rec_.isInt = false → t.rec_.acc = true → s.readAcc t = (.inl vs, u) →
    exec (.kilnSubtileStart k) s =
      .next (u.setKiln k (some { t with phase := .computing, acc := tableOf 0 (128 * t.rowCount) fun e => (vs[e]?).getD 0 }))) ∧
  (∀ k t x u s, s.kiln k = some t → t.phase = .computing → t.k < t.rec_.k → t.rec_.bf ≠ 13 → t.rec_.isInt = true →
    s.stepOperands (k / 4) t t.k = .inl x → intStep t [x] = .inl u →
    exec (.kilnStep k) s = .next ((s.touch (coreOfPe t.rec_.pe)).setKiln k (some u))) ∧
  (∀ k t x y u s, s.kiln k = some t → t.phase = .computing → t.k + 1 < t.rec_.k → t.rec_.bf = 13 → t.rec_.isInt = true →
    s.stepOperands (k / 4) t t.k = .inl x → s.stepOperands (k / 4) t (t.k + 1) = .inl y → intStep t [x, y] = .inl u →
    exec (.kilnStep k) s = .next ((s.touch (coreOfPe t.rec_.pe)).setKiln k (some u))) ∧
  (∀ k t f s, s.kiln k = some t → t.phase = .computing → t.k < t.rec_.k → s.stepOperands (k / 4) t t.k = .inr f →
    exec (.kilnStep k) s = .next (s.failSub k t f)) ∧
  (∀ k t s, s.kiln k = some t → t.phase = .spilling → t.bufferBad = false →
    ∃ u, exec (.kilnSpillEnd k) s = .next u ∧
      u.kiln k = some { t with phase := .computing, lanes := {}, ovf := {}, spilled := true } ∧
      u.core.pool = (s.intRows t).2.core.pool) ∧
  (∀ k t s, s.kiln k = some t → t.phase = .computing → t.rec_.k ≤ t.k → t.rec_.isInt = false → t.rec_.amen = false → t.bufferBad = false →
    exec (.kilnDrain k) s = .next (((((s.floatRows t).setKiln k none).freeCopies k t).updRec t fun x =>
      { x with running := x.running - 1, drained := x.drained + 1 }).touch (coreOfPe t.rec_.pe))) ∧
  (∀ k t s, s.kiln k = some t → t.phase = .computing → t.rec_.k ≤ t.k → t.rec_.isInt = true → t.rec_.amen = false → t.bufferBad = false →
    exec (.kilnDrain k) s = .next ((((((s.intRows t).2).setKiln k none).freeCopies k t).updRec t fun x =>
      { x with running := x.running - 1, drained := x.drained + 1 }).touch (coreOfPe t.rec_.pe))) ∧
  (∀ cl n r s, (s.krecs cl)[n]? = some r → r.running = 0 → r.failure = none → r.drained = r.total → r.sen = true → r.sctrOk = true →
    r.cport = 0 →
    let t := (s.setKrecs cl (dropAt n (s.krecs cl))).unpin cl r.pinned
    exec (.kilnRecordComplete cl n) s = .next ((t.setKctr cl r.sctr { t.kctr cl r.sctr with
      count := Nat.min ((t.kctr cl r.sctr).count + 1) 65535
      record := if (t.kctr cl r.sctr).failed then (t.kctr cl r.sctr).record else (t.kctr cl r.sctr).record.or none }).touch (coreOfPe r.pe))) ∧
  (∀ (cl : Nat) (s : State), (s.noteReady cl).oldestWaiting cl = none → exec (.kilnSubtileMigrate cl) s = .next (s.noteReady cl)) ∧
  (∀ (cl n : Nat) (r : KRec) (s : State), (s.krecs cl)[n]? = some r →
    ((s.noteReady cl).krecs cl)[n]? = some ({ r with
      readyAt := if s.recReady cl r && decide (r.next < r.total) then r.readyAt.or (some s.now) else none } : KRec)) ∧
  (∀ (cl n : Nat) (r : KRec) (c : Nat) (free : List Nat) (k : Nat) (s : State), let u := s.noteReady cl
    u.oldestWaiting cl = some n → (u.krecs cl)[n]? = some r → u.freeKiln cl = none → u.failedSlot cl r = none →
    u.migrationTarget cl (r.subSlots r.next).length = some (c, free) → u.freeKiln c = some k →
    let pairs := (r.subSlots r.next).zip free
    let v := pairs.foldl (fun s p => s.copySlot r cl p.1 c p.2) u
    let r' : KRec := { r with next := r.next + 1, running := r.running + 1 }
    let st := v.kstat cl r.dom r.disp
    c ∈ clusterNeighbours cl ∧ (∀ x ∈ free, (u.kslot c x).st = .free) ∧
    exec (.kilnSubtileMigrate cl) s = .next ((((v.putRec cl n r').setKstat { st with migr := Nat.min (st.migr + 1) 255 }).setKiln k
      (some { home := cl, rec_ := r', s := r.next, migrated := true, slots := pairs })).touch (coreOfPe r.pe))) ∧
  ∀ r cl m c m' (s : State), let t := s.copySlot r cl m c m'
    (∀ j < 32768, m' < 128 → t.opByte c m' j = s.opByte cl m j) ∧ (t.kslot c m').st = (s.kslot cl m).st ∧ (t.kslot c m').pins = 1 ∧
      (t.kslot c m').dom = r.dom ∧ (t.kslot c m').disp = r.disp ∧ t.mem = s.mem ∧ t.core = s.core

/-- R322, R323, R324: an integer step adds each product to its lane, and lane and carry together hold the exact sum; below its limits the
step completes; at them it traps, or the tile as it stood is spilled first. -/
def Obligations.IntegerSteps : Prop :=
  (∀ (clim : Nat) (lane : Int) (e : Option OvfEntry) (ps : List (Option Int)), -(2 ^ 23) ≤ lane → lane < 2 ^ 23 → (∀ p ∈ ps, ∃ v : Int, p = some v ∧ v.natAbs ≤ 2 ^ 23) →
    let r := ps.foldl (LaneSum.add clim) { lane, entry := e }
    r.lane < 2 ^ 23 ∧ -(2 ^ 23) ≤ r.lane ∧ (r.entry.getD {}).invalid = (e.getD {}).invalid ∧
      r.lane + 2 ^ 24 * (r.entry.getD {}).carry = lane + 2 ^ 24 * (e.getD {}).carry + (ps.map fun p => (p.getD 0 : Int)).sum) ∧
  (∀ clim (x : LaneSum), (x.add clim none).lane = x.lane ∧ ((x.add clim none).entry.getD {}).invalid = true) ∧
  (∀ t ops e, let n := 128 * t.rec_.rows (t.s / t.rec_.nb)
    let after := t.addAt (stepProducts t.rec_ ops)
    t.elem = none → e < n → (∀ e < n, ((t.ovf.find e none).elim false OvfEntry.bad) = false) →
    (tableOf none n fun e => (after e).entry).cells.length ≤ t.rec_.elim → (∀ e < n, (after e).spills = false) →
    ∃ u, intStep t ops = .inl u ∧ u.k = t.k + ops.length ∧ u.phase = t.phase ∧ u.lanes.find e 0 = (after e).lane ∧
      u.ovf.find e none = (after e).entry) ∧
  ∀ t ops, let n := 128 * t.rec_.rows (t.s / t.rec_.nb)
    let after := t.addAt (stepProducts t.rec_ ops)
    t.elem = none → (∀ e < n, ((t.ovf.find e none).elim false OvfEntry.bad) = false) →
    (t.rec_.elim < (tableOf none n fun e => (after e).entry).cells.length ∨ ∃ e < n, (after e).spills = true) →
    (t.rec_.trap = true → ∃ f, intStep t ops = .inr f ∧ f.cause = Cause.ovfFull ∧ f.kiln = false) ∧
    (t.rec_.trap = false → t.again = false → intStep t ops = .inl { t with phase := .spilling, again := true })

/-- R333: a fill checks the kind of its source, then its block becomes FULL in operand memory. -/
def Claims.OperandFills : Prop :=
  (∀ cl n t s, (s.kslot cl n).st = .filling → (s.kslot cl n).fchecked = false → (s.kslot cl n).fpool = true →
    s.poolTensor (s.kslot cl n).core (s.kslot cl n).ftid = some t → fillFits (s.kslot cl n).kind t.shape = true →
    exec (.tfillSourceCheck cl n) s = .next (s.setKslot cl n { s.kslot cl n with fchecked := true, fmt := t.fmt })) ∧
  (∀ cl n bs t s, (s.kslot cl n).st = .filling → (s.kslot cl n).fchecked = true → (s.kslot cl n).fpool = true →
    s.fillBlock cl (s.kslot cl n) = (.bytes bs, t) → (t.kslot cl n).relp = false →
    ∃ u, exec (.tfillComplete cl n) s = .next u ∧ (u.kslot cl n).st = .full ∧ (u.kslot cl n).cause = 0 ∧
      (∀ j < bs.length, bs.length ≤ 2 ^ 15 → u.opByte cl n j = bs.getD j 0) ∧ u.mem = t.mem ∧ u.core.pool = t.core.pool)

/-! ## Mesh and memory controllers -/

/-- R356 to R361, R441: a router grants one flit of an output, which leaves its input and stands at the far end of the link, or is delivered; old
packets are promoted; the sixteenth failed replay in a row takes a link down, and its traffic goes by the next link of that edge (R441). That this
detour costs four cycles more, and which link it takes, are the model's choice (log entry 116). -/
def Obligations.MeshMoves : Prop :=
  (∀ r out v turn count f h q s, s.discardBad r = none → (s.meshOut r out).sentAt ≠ some s.now →
    s.serve r out = some (v, turn, count) → s.offer r out v = some (f, h) → out < 4 → meshNext r out = some q →
    ∃ t, exec (.meshFlitHop r out) s = .next t ∧ (t.meshOut r out).sentAt = some s.now ∧
      t.meshIn q (opposite out) v = ((s.setMeshIn r h.input v (if f.last then freshHead s.now ((s.meshIn r h.input v).drop 1)
        else (s.meshIn r h.input v).drop 1)).meshIn q (opposite out) v) ++
        [{ f with since := s.now + (if dieEdge r out then 9 else 2) + (if (s.detour r out).isSome then 4 else 0), promoted := false }] ∧ t.mem = s.mem ∧ t.unit = s.unit) ∧
  (∀ r out v turn count f h s, s.discardBad r = none → (s.meshOut r out).sentAt ≠ some s.now →
    s.serve r out = some (v, turn, count) → s.offer r out v = some (f, h) → 4 ≤ out →
    ∃ t, exec (.meshFlitHop r out) s = .next t ∧ (t.meshOut r out).sentAt = some s.now ∧
      t.meshDone r out = s.meshDone r out ++ [f] ∧ t.mem = s.mem ∧ t.unit = s.unit) ∧
  (∀ r out v h f (s : State), s.credit r out v = true → (s.meshOut r out).hold.find v none = some h → s.candidate r h.input v = some f → f.head = false →
    s.offer r out v = some (f, { h with promoted := h.promoted || decide (s.agePromote r ≤ h.age) })) ∧
  (∀ r i vc f fs s, s.meshIn r i vc = f :: fs → f.head = true → f.since ≤ s.now → s.agePromote r ≤ s.now - f.since →
    exec (.packetAgePromote r i vc) s = .next (s.setMeshIn r i vc ({ f with promoted := true } :: fs))) ∧
  (∀ r dir s, (meshNext r dir).isSome = true → (s.meshOut r dir).down = false →
    exec (.meshCrcReplay r dir true) s = .next (s.setMeshOut r dir { s.meshOut r dir with fails := 0 })) ∧
  (∀ r dir s, (meshNext r dir).isSome = true → (s.meshOut r dir).down = false → (s.meshOut r dir).fails < 15 →
    exec (.meshCrcReplay r dir false) s = .next (s.setMeshOut r dir { s.meshOut r dir with fails := (s.meshOut r dir).fails + 1 })) ∧
  ∀ r dir s, (meshNext r dir).isSome = true → (s.meshOut r dir).down = false → 15 ≤ (s.meshOut r dir).fails →
    exec (.meshCrcReplay r dir false) s = .next (s.meshDown r dir)

/-- R396 to R400, R405, R408, R301, R355: controllers serve reads, writes and atomics in order at each line; a write in protected mode has performed
once its parity is written, and a rebuild waits for it; an uncorrectable tag terminates the domains on its list, and kills the dispatches of domain 0
that hold entries. The bodies of the packets are the model's own (log entry 36). -/
def Obligations.MemoryControllers : Prop :=
  (∀ cl k r s, let t := s.acceptCtrl cl
    t.ctrlPick cl (fun r => !r.write) = some (k, r) → t.needsRebuild r = false →
    exec (.controllerRead cl) s = .next (t.serveRead cl k r)) ∧
  (∀ cl k (r : CtrlReq) bs (t u : State), let q := t.setCtrlQ cl ((t.ctrlQ cl).take k ++ (t.ctrlQ cl).drop (k + 1))
    q.memRead r.key r.dom r.addr r.len = (.inl bs, u) →
    t.serveRead cl k r = if bs.length ≤ 16 then u.ctrlReply cl r.hdr 1 r.addr r.id 0 [] (natOfBytes bs)
      else u.ctrlReply cl r.hdr 1 r.addr r.id 0 [BitVec.ofNat 512 (natOfBytes bs)]) ∧
  (∀ line cl k r s, s.rebuildFor line = some (cl, k, r) → (s.storedLines r.addr).any s.writeRegistered = false →
    exec (.parityRebuild line) s = .next (s.serveRead cl k r)) ∧
  (∀ line cl k r s, s.rebuildFor line = some (cl, k, r) → line ∈ s.storedLines r.addr → s.writeRegistered line = true →
    exec (.parityRebuild line) s = .next s) ∧
  (∀ cl k r s, let t := s.acceptCtrl cl
    t.ctrlPick cl CtrlReq.write = some (k, r) → r.atom = none → t.needsRebuild r = false → t.parityFull r.dom (t.mem.lineOf r.addr) = false →
    let u := (t.setCtrlQ cl ((t.ctrlQ cl).take k ++ (t.ctrlQ cl).drop (k + 1))).memStore r.key r.dom (r.id / 2 ^ 32) r.addr r.data
    exec (.controllerWrite cl) s = .next (if u.mem.parity && (u.keySlot r.key).isSome then
        { u with mem := { u.mem with
          registered := u.mem.registered ++ [{ line := t.mem.lineOf r.addr, hdr := r.hdr, addr := r.addr, id := r.id }] } }
      else u.ctrlReply cl r.hdr 3 r.addr r.id 0 [])) ∧
  (∀ cl k r fmt aop bs v s, let t := s.acceptCtrl cl
    t.ctrlPick cl CtrlReq.write = some (k, r) → r.atom = some (fmt, aop) → t.needsRebuild r = false → t.parityFull r.dom (t.mem.lineOf r.addr) = false →
    (t.setCtrlQ cl ((t.ctrlQ cl).take k ++ (t.ctrlQ cl).drop (k + 1))).memRead r.key r.dom r.addr r.len = (.inl bs, v) →
    let u := v.memStore r.key r.dom (r.id / 2 ^ 32) r.addr (bytesOfNat r.len (aluNew fmt aop (natOfBytes bs) (natOfBytes r.data)))
    exec (.controllerWrite cl) s = .next (if u.mem.parity && (u.keySlot r.key).isSome then
        { u with mem := { u.mem with
          registered := u.mem.registered ++ [{ line := v.mem.lineOf r.addr, hdr := r.hdr, addr := r.addr, id := r.id, old := some (natOfBytes bs) }] } }
      else u.ctrlReply cl r.hdr 5 r.addr r.id 0 [] (natOfBytes bs))) ∧
  (∀ k w s, s.mem.registered[k]? = some w →
    let t : State := { s with mem := { s.mem with registered := s.mem.registered.take k ++ s.mem.registered.drop (k + 1) } }
    exec (.parityUpdate k) s = .next (t.ctrlReply (t.homeOf w.addr) w.hdr (if w.old.isSome then 5 else 3) w.addr w.id 0 [] (w.old.getD 0))) ∧
  ∀ code unit s, ∃ t, exec (.tagUe code unit) s = .next t ∧
    (∀ dom ∈ (s.occupants code unit).map Prod.fst, dom ≠ 0 → ∃ die, .kill dom Cause.poolUe (tagDetail code) (some die) false ∈ t.hub.log) ∧
    ∀ disp, (0, disp) ∈ s.occupants code unit → disp ≠ noDisp →
      ∃ die, .error die 0 disp Cause.poolUe (tagDetail code) .tag ∈ t.hub.log

/-! ## Loading and the dispatchers -/

/-- R45 to R48, R367, R368: an idle loader begins a load with the END pair of its image, whose digest the configuration cache is searched
for, and reads frame after frame. -/
def Obligations.ImageLoads : Prop :=
  (∀ cl p d e w₀ w₁ t u s, (s.loader cl).busy = false → s.nextJob cl = some (p, d, e) →
    s.readFrame p.dom ((p.image d e).1 + 32 * ((p.image d e).2 - 2)) = (.inl w₀, t) →
    t.readFrame p.dom ((p.image d e).1 + 32 * ((p.image d e).2 - 1)) = (.inl w₁, u) →
    let digest := digestOf (Frm.ofWord w₀) (Frm.ofWord w₁)
    (u.cluster.cfgCache.any fun c => c.is cl p.dom (p.image d e).1 digest) = false →
    exec (.configCacheLookup cl) s = .next (u.setLoader cl
      { busy := true, dom := p.dom, disp := p.disp, expert := e, img := (p.image d e).1, nf := (p.image d e).2, hit := false, digest })) ∧
  (∀ cl p d e w₀ w₁ t u s, (s.loader cl).busy = false → s.nextJob cl = some (p, d, e) →
    s.readFrame p.dom ((p.image d e).1 + 32 * ((p.image d e).2 - 2)) = (.inl w₀, t) →
    t.readFrame p.dom ((p.image d e).1 + 32 * ((p.image d e).2 - 1)) = (.inl w₁, u) →
    let digest := digestOf (Frm.ofWord w₀) (Frm.ofWord w₁)
    (u.cluster.cfgCache.any fun c => c.is cl p.dom (p.image d e).1 digest) = true →
    exec (.configCacheLookup cl) s = .next ((u.pinImage cl p.dom (p.image d e).1 digest true).setLoader cl
      { busy := true, dom := p.dom, disp := p.disp, expert := e, img := (p.image d e).1, nf := (p.image d e).2, hit := true, digest })) ∧
  (∀ cl p d w t s, s.partOf (cl / 16) (s.loader cl).dom (s.loader cl).disp = some p → s.dispOfPart p = some d →
    (s.loader cl).busy = true → d.loads = true → s.nextFrame cl (s.loader cl) = (.inl w, t) →
    (Frm.ofWord w).bad = false → ((loadRegions d (p.toLoad d cl (s.loader cl).expert)).any (Frm.ofWord w).badTarget) = false →
    ((s.loader cl).frames.head?).elim false (fun v => (Frm.ofWord v).isEnd 0) = false → (s.loader cl).next + 1 < 2 ^ 20 →
    exec (.loaderFrameRead cl) s = .next (t.setLoader cl { s.loader cl with
      next := (s.loader cl).next + 1, frames := w :: (s.loader cl).frames, stray := (s.loader cl).stray || (Frm.ofWord w).isEnd 1 })) ∧
  (∀ cl p d w t s, s.partOf (cl / 16) (s.loader cl).dom (s.loader cl).disp = some p → s.dispOfPart p = some d →
    (s.loader cl).busy = true → d.loads = true → s.nextFrame cl (s.loader cl) = (.inl w, t) → (Frm.ofWord w).bad = true →
    exec (.loaderFrameRead cl) s = .next (t.reportLoad cl p d (s.loader cl).expert 1)) ∧
  ∀ cl p d pattern t s, s.partOf (cl / 16) (s.loader cl).dom (s.loader cl).disp = some p → s.dispOfPart p = some d →
    (s.loader cl).busy = true → d.loads = true → s.nextFrame cl (s.loader cl) = (.inr (.ue pattern), t) →
    exec (.loaderFrameRead cl) s = .next (t.reportLoad cl p d (s.loader cl).expert 5)

/-- R366, R371, R372, R384, R388 to R390, R410: the sweeps and timers of the dies and of the hub, and the notices that they post; a drain ends 4,096
cycles after its kill (R410), with the reset notice that is the model's own; a digest that differs (R372) takes a die out. The free granules that a
die loss carries, and the reset notice, are the model's (log entry 39). -/
def Obligations.DispatcherTimers : Prop :=
  (∀ die s, (s.dieOf die).sweptAt + 32 ≤ s.now → s.lostDies.contains die = false →
    exec (.quiescenceSweep die) s = .next ((s.die.parts.filter fun p => p.die = die).foldl State.sweepPart
      (s.setDieOf die { s.dieOf die with sweptAt := s.now }))) ∧
  (∀ die s, (s.dieOf die).heartbeat + 4096 ≤ s.now → s.lostDies.contains die = false →
    exec (.dieHeartbeat die) s = .next (s.setDieOf die { s.dieOf die with heartbeat := s.now })) ∧
  (∀ die s, (s.dieOf die).heartbeat + 16384 ≤ s.now → s.lostDies.contains die = false →
    exec (.heartbeatMissing die) s = .next (s.post (.dieLoss die s.rooms))) ∧
  (∀ die dom disp p s, s.partOf die dom disp = some p → s.partIn p .running = true → p.reported = false → s.partActive p = true →
    s.partStill p = true → s.partParked p = false →
    exec (.deadlockTimeout die dom disp) s =
      .next ((s.setPart { p with reported := true }).post (.error die dom disp Cause.deadlock 0 .plain))) ∧
  (∀ die dom p t₀ s, p ∈ s.die.parts → p.die = die → p.dom = dom → s.partIn p .gating = true → p.gatedAt = some t₀ →
    t₀ + p.limit ≤ s.now → (s.hub.log.drop (s.dieOf die).applied).contains (.watchdog die dom) = false →
    exec (.watchdogExpiry die dom) s = .next (s.post (.watchdog die dom))) ∧
  (∀ s, let ticks := (s.hub.log.filter fun n => match n with | .tick _ => true | _ => false).length
    512 * (ticks + 1) ≤ s.now - (s.dieOf 0).resetAt → exec .hubTick s = .next (s.post (.tick (ticks + 1)))) ∧
  (∀ die dom disp p t₀ d s, s.partOf die dom disp = some p → p.killedAt = some t₀ → s.dispOfPart p = some d →
    (2 ≤ p.sweeps ∨ t₀ + 4096 ≤ s.now) →
    exec (.killDrainEnd die dom disp) s = .next (((s.killRecords p d).foldl (fun s r => s.queueTrap dom r) (s.resetRegion p)).post
      (.reset die dom disp))) ∧
  ∀ s, (∀ d < 8, s.lostDies.contains d = false → ∃ v, (d, v) ∈ s.digests (s.hub.judged + 1)) →
    dissenters ((s.digests (s.hub.judged + 1)).filter fun d => ((List.range 8).filter fun x => !s.lostDies.contains x).contains d.1) = [] →
    exec .digestNoticeApply s = .next { s with hub := { s.hub with judged := s.hub.judged + 1 } }

/-- R370, R371: a die takes the next notice of the hub's order and changes its replica of the schedule by it, in its turn and no other
way; after a TICK it posts its DIGEST. -/
def Obligations.NoticesApply : Prop :=
  let takes (c : Nat → Instr) (n : Notice) (f : Work → Work) : Prop :=
    ∀ die s, s.nextNotice die = some n → exec (c die) s = .next (s.applyTo die f)
  (∀ die f (s : State), let w := (f { sched := (s.dieOf die).sched }).settle.letIn.place
    w.acts = [] → s.applyTo die f = s.setDieOf die { s.dieOf die with sched := w.sched.noteEnds, applied := (s.dieOf die).applied + 1 }) ∧
  (∀ dom p x, takes .launchNoticeApply (.launch dom p x) (·.launch dom p)) ∧
  (∀ n die s, s.nextNotice die = some (.tick n) → let t := s.applyTo die Work.tick
    exec (.tickNoticeApply die) s = .next (t.post (.digest die n (Config.replicaHash (t.dieOf die).sched.words)))) ∧
  (∀ d dom disp st, takes .loadedNoticeApply (.loaded d dom disp st) (·.loaded d dom disp st)) ∧
  (∀ d dom disp e k, takes .endedNoticeApply (.ended d dom disp e k) (·.ended d dom disp e k)) ∧
  (∀ d dom disp, takes .savedNoticeApply (.saved d dom disp) (·.saved d dom disp)) ∧
  (∀ d dom disp k, takes .committedNoticeApply (.committed d dom disp k) (·.committed d dom disp k)) ∧
  (∀ d dom disp c x k, takes .errorNoticeApply (.error d dom disp c x k) (·.error d dom disp c x k)) ∧
  (∀ dom, takes .preemptNoticeApply (.preempt dom) (·.preempt dom)) ∧
  (∀ dom, takes .resumeNoticeApply (.resume dom) (·.resume dom)) ∧
  (∀ dom c x d f, takes .killNoticeApply (.kill dom c x d f) (·.killDomain dom c x d f)) ∧
  (∀ d dom, takes .watchdogNoticeApply (.watchdog d dom) (·.watchdog d dom)) ∧
  (∀ v, takes .csrNoticeApply (.csr v) (fun w => { w with sched := { w.sched with ageDispatch := v } })) ∧
  (∀ dom k t e, takes .phaseNoticeApply (.phase dom k t e) (·.phase dom k t e)) ∧
  (∀ dom disp cs c, takes .histNoticeApply (.hist dom disp cs c) (·.hist dom disp cs c)) ∧
  (∀ x rooms die s, s.nextNotice die = some (.dieLoss x rooms) →
    exec (.dieLossApply die) s = .next (s.applyTo die (·.dieLoss x rooms ((s.dieOf die).applied + 1)))) ∧
  (∀ a b, takes .linkSplitApply (.linkSplit a b) (·.split a b))

/-- R370, R373, R376, R379, R383, R387, R388, R390, R391, R410, R421, R423, R431, R437, R439, R441: what each notice changes in the replica of a die,
and what the die does about it, by the state that the replica held: ticks and the event of a late die (R373, R391), histograms (R431), watchdogs
(R388). A WATCHDOG in domain 0 and a die loss without termination are read as log entry 77 says. -/
def Obligations.NoticeEffects : Prop :=
  let gives (c : Nat → Instr) (n : Notice) (held : Sched → Prop) (w : Sched → Work) : Prop :=
    ∀ die s, s.nextNotice die = some n → held (s.dieOf die).sched →
      exec (c die) s = .next (s.applyTo die (fun _ => w (s.dieOf die).sched))
  let set (c : Sched) (d k : Disp) : Sched := { c with disps := c.disps.map fun x => if x.is d.dom d.disp then k else x }
  let same (c : Sched) : Work := { sched := c }
  let killed (d : Disp) (cause : Nat) (reason : Option Nat) : Disp := { d with st := .killed, was := d.st, cause, reason }
  let requeued (d : Disp) (cause : Nat) : Disp := { d with st := .requeued, was := d.st, cause, requeues := d.requeues + 1 }
  let free (dom : Nat) (c : Sched) : Prop := (c.ctx dom).terminated = false
  let live (d : Disp) : Prop := d.st = .running ∨ d.st = .gating ∨ (d.st = .saved ∧ d.granules ≠ [])
  let others (dom : Nat) (c : Sched) : List (Nat × Packet) := c.late.filter fun x => x.1 ≠ dom
  -- LAUNCH
  (∀ dom p x, gives .launchNoticeApply (.launch dom p x) (fun c => (c.ctx dom).terminated = true ∧ (c.ctx dom).silent = false)
    fun c => { sched := c, acts := [.rejected dom Cause.protection (9 + 256 * 0xFFFF)] }) ∧
  (∀ dom p x, gives .launchNoticeApply (.launch dom p x) (fun c => (c.ctx dom).terminated = true ∧ (c.ctx dom).silent = true) same) ∧
  (∀ dom (p : Packet) x, p.unreadable = true → gives .launchNoticeApply (.launch dom p x) (free dom)
    fun c => { sched := c, acts := [if p.noKey then .rejected dom Cause.protection (6 + 256 * 0xFFFF) else .rejected dom Cause.hbmUe (256 * 0xFFFF)] }) ∧
  (∀ dom (p : Packet) x, p.unreadable = false → p.bad = true → gives .launchNoticeApply (.launch dom p x) (free dom)
    fun c => { sched := c, acts := [.rejected dom Cause.protection (1 + 256 * 0xFFFF)] }) ∧
  (∀ dom (p : Packet) x e, p.unreadable = false → p.bad = false → p.rtv = false → p.entries = [e] → e.refused dom 0 [e] = false →
    e.fixed ≠ none → gives .launchNoticeApply (.launch dom p x)
      (fun c => free dom c ∧ c.ninth dom = false ∧ ∀ y ∈ c.late, y.1 ≠ dom) fun c =>
      let x := c.ctx dom
      let d : Disp := { dom, disp := x.launches % 65536 * 65536, entry := e, fab := p.fab, phase := x.phase + e.phi }
      { sched := { c.setCtx dom { x with launches := x.launches + 1 } with
          disps := (c.disps.filter fun y => !(y.is dom d.disp && y.st.final)) ++ [d] } }) ∧
  (∀ dom (p : Packet) x, p.unreadable = false → p.bad = false → gives .launchNoticeApply (.launch dom p x)
    (fun c => free dom c ∧ (c.ninth dom = true ∨ ∃ y ∈ c.late, y.1 = dom)) fun c => { sched := { c with late := c.late ++ [(dom, p)] } }) ∧
  -- TICK
  (∀ n die s d, s.nextNotice die = some (.tick n) → let c := (s.dieOf die).sched
    c.blocked = none → c.scan = [d] → c.find d.dom d.disp = some d → d.level < 3 →
    let next : Disp := { d with ticks := d.ticks + 1 }
    let w : Work := if c.ageLimit ≤ 512 * (d.ticks + 1) then
        { sched := { c with disps := (c.disps.filter fun y => !y.is d.dom d.disp) ++ [{ d with level := d.level + 1, ticks := 0 }] }
          acts := [.event 0x3003 next] }
      else { sched := set c d next }
    let t := s.applyTo die fun _ => w
    exec (.tickNoticeApply die) s = .next (t.post (.digest die n (Config.replicaHash (t.dieOf die).sched.words)))) ∧
  -- the reports of dies
  (∀ n dom disp st d, gives .loadedNoticeApply (.loaded n dom disp st)
    (fun c => c.find dom disp = some d ∧ (d.st = .placed ∨ d.st = .loading))
    fun c => { sched := set c d { d with loaded := d.loaded ++ [(n, st)] } }) ∧
  (∀ n dom disp e k d, gives .endedNoticeApply (.ended n dom disp e k)
    (fun c => c.find dom disp = some d ∧ (d.st = .running ∨ d.st = .gating) ∧ d.redealt ≤ k)
    fun c => { sched := set c d { d with ended := d.ended ++ [(n, e)] } }) ∧
  (∀ n dom disp d, gives .savedNoticeApply (.saved n dom disp) (fun c => c.find dom disp = some d ∧ d.st = .saved)
    fun c => { sched := set c d { d with savedDies := d.savedDies ++ [n] } }) ∧
  (∀ n dom disp k d, gives .committedNoticeApply (.committed n dom disp k)
    (fun c => c.find dom disp = some d ∧ d.st = .draining ∧ d.redealt ≤ k)
    fun c => { sched := set c d { d with committedDies := d.committedDies ++ [n] } }) ∧
  -- ERROR
  (∀ n dom disp cause d, cause ≠ Cause.stageOverflow → cause ≠ Cause.deadlock → gives .errorNoticeApply (.error n dom disp cause 0 .plain)
    (fun c => c.find dom disp = some d ∧ live d ∧ d.entry.rst = true ∧ d.requeues < 2)
    fun c => { sched := set c d (requeued d cause), acts := [.event 0x3002 (requeued d cause), .cut (requeued d cause)] }) ∧
  (∀ n disp cause d, cause ≠ Cause.stageOverflow → cause ≠ Cause.deadlock → gives .errorNoticeApply (.error n 0 disp cause 0 .plain)
    (fun c => c.find 0 disp = some d ∧ live d ∧ (d.entry.rst = true → 2 ≤ d.requeues))
    fun c => { sched := set c d (killed d cause none), acts := [.cut (killed d cause none)] }) ∧
  (∀ n dom disp cause d, cause = Cause.stageOverflow ∨ cause = Cause.deadlock → gives .errorNoticeApply (.error n dom disp cause 0 .plain)
    (fun c => c.find dom disp = some d ∧ live d)
    fun c => { sched := set c d (killed d cause none), acts := [.cut (killed d cause none)] }) ∧
  -- PREEMPT and RESUME
  (∀ dom d, gives .preemptNoticeApply (.preempt dom)
    (fun c => (c.ctx dom).held = false ∧ (c.disps.filter fun x => x.dom = dom) = [d] ∧ d.st = .running)
    fun c => { sched := set (c.setCtx dom { c.ctx dom with held := true }) d { d with st := .gating }, acts := [.gate { d with st := .gating }] }) ∧
  (∀ dom, gives .preemptNoticeApply (.preempt dom) (fun c => (c.ctx dom).held = true) same) ∧
  (∀ dom, gives .resumeNoticeApply (.resume dom) (fun _ => True) fun c => { sched := c.setCtx dom { c.ctx dom with held := false } }) ∧
  -- KILL and WATCHDOG
  (∀ dom cause x by_ flr d, dom ≠ 0 → gives .killNoticeApply (.kill dom cause x by_ flr)
    (fun c => free dom c ∧ (c.disps.filter fun x => x.dom = dom) = [d] ∧ d.st = .running)
    fun c =>
      let y := { set (c.setCtx dom { c.ctx dom with terminated := true }) d (killed d cause none) with late := others dom c }
      { sched := if flr then y.setCtx dom { y.ctx dom with silent := true } else y
        acts := [.terminated dom cause x by_, .cut (killed d cause none)] }) ∧
  (∀ dom cause x by_, gives .killNoticeApply (.kill dom cause x by_ false) (fun c => dom = 0 ∨ (c.ctx dom).terminated = true) same) ∧
  (∀ n d, gives .watchdogNoticeApply (.watchdog n 0)
    (fun c => (c.disps.filter fun x => decide (x.dom = 0) && decide (x.st = .gating)) = [d])
    fun c => { sched := set c d (killed d Cause.watchdog none), acts := [.cut (killed d Cause.watchdog none)] }) ∧
  (∀ n dom d, dom ≠ 0 → gives .watchdogNoticeApply (.watchdog n dom)
    (fun c => free dom c ∧ (c.disps.filter fun x => x.dom = dom) = [d] ∧ d.st = .gating)
    fun c => { sched := { set (c.setCtx dom { c.ctx dom with terminated := true }) d (killed d Cause.watchdog none) with late := others dom c }
               acts := [.terminated dom Cause.watchdog 0 (some n), .cut (killed d Cause.watchdog none)] }) ∧
  (∀ n dom, gives .watchdogNoticeApply (.watchdog n dom) (fun c => ∀ d ∈ c.disps, d.dom = dom → d.st ≠ .gating) same) ∧
  -- CSR, PHASE and HIST
  (∀ v, gives .csrNoticeApply (.csr v) (fun _ => True) fun c => { sched := { c with ageDispatch := v } }) ∧
  (∀ dom n table e, gives .phaseNoticeApply (.phase dom n table e) (fun c => (c.ctx dom).phase = n ∧ (c.ctx dom).updates = [])
    fun c => { sched := c.setCtx dom { c.ctx dom with phase := n + 1 }, acts := [.drop dom] }) ∧
  (∀ dom n es e u, u.1 ≤ n + 1 → gives .phaseNoticeApply (.phase dom n (some es) e)
    (fun c => (c.ctx dom).phase = n ∧ (c.ctx dom).updates = [u] ∧ c.otherHeld dom = false ∧ (c.ctx dom).repver = false)
    fun c => { sched := c.setCtx dom { c.ctx dom with phase := n + 1, updates := [], repver := true, table1 := replicaTable es }
               acts := [.drop dom] }) ∧
  (∀ dom disp cs d, gives .histNoticeApply (.hist dom disp cs 0) (fun c => c.find dom disp = some d ∧ d.st = .ready ∧ d.hist = none)
    fun c => { sched := set c d { d with hist := some cs } }) ∧
  (∀ dom disp cs d, gives .histNoticeApply (.hist dom disp cs Cause.hbmUe)
    (fun c => c.find dom disp = some d ∧ d.st = .ready ∧ d.hist = none)
    fun c => { sched := set c d (killed d Cause.hbmUe none), acts := [.record 1 DispSt.ready.code Cause.hbmUe 0 (killed d Cause.hbmUe none)] }) ∧
  (∀ dom disp cs d, gives .histNoticeApply (.hist dom disp cs (Cause.protection + 256 * 2))
    (fun c => c.find dom disp = some d ∧ d.st = .ready ∧ d.hist = none)
    fun c => let k := killed d Cause.protection (some 2)
      { sched := set c d k, acts := [.record 1 DispSt.ready.code Cause.protection 2 k] }) ∧
  -- losses
  (∀ n rooms, gives .dieLossApply (.dieLoss n rooms)
    (fun c => c.lost.contains n = false ∧ ∀ d ∈ c.disps, ∀ g ∈ d.granules, g / 64 ≠ n)
    fun c => { sched := { c with lost := c.lost ++ [n] }, acts := [.silence n] }) ∧
  (∀ n rooms d, d.entry.wheel = false → gives .dieLossApply (.dieLoss n rooms)
    (fun c => c.lost.contains n = false ∧ c.disps = [d] ∧ d.st = .running ∧ d.entry.rst = true ∧ d.requeues < 2 ∧ ∃ g ∈ d.granules, g / 64 = n)
    fun c => { sched := { c with lost := c.lost ++ [n], disps := [requeued d Cause.dieLost] }
               acts := [.silence n, .event 0x3002 (requeued d Cause.dieLost), .cut (requeued d Cause.dieLost)] }) ∧
  (∀ a b, gives .linkSplitApply (.linkSplit a b)
    (fun c => c.splits.contains (Nat.min a b, Nat.max a b) = false ∧ ∀ d ∈ c.disps,
      (∀ g ∈ c.liveGranules d, g / 64 ≠ a ∧ g / 64 ≠ b) ∧ c.spansSplit (c.liveGranules d) = false)
    fun c => { sched := { c with splits := c.splits ++ [(Nat.min a b, Nat.max a b)] } }) ∧
  ∀ a b d, gives .linkSplitApply (.linkSplit a b)
    (fun c => c.splits = [] ∧ c.disps = [d] ∧ d.st = .running ∧ d.entry.rst = false ∧ (∃ g ∈ c.liveGranules d, g / 64 = a) ∧
      ∃ g ∈ c.liveGranules d, g / 64 = b)
    fun c => { sched := { c with splits := [(Nat.min a b, Nat.max a b)], disps := [killed d Cause.linkDown none] }
               acts := [.cut (killed d Cause.linkDown none)] }

/-- R377, R384 to R387, R412, R423, R431: saving a part, committing it, reading a WHEEL histogram, and ending a phase. -/
def Claims.SavesAndPhases : Prop :=
  (∀ q qs p es k off t s, s.hub.saveReqs = q :: qs → let s₀ : State := { s with hub := { s.hub with saveReqs := qs } }
    s₀.partOf q.die q.dom q.disp = some p → s₀.directory q.dom = (some es, t) →
    (firstBelow 256 fun k => ((es[k]?).getD default).len = 0) = some k → fitAt es (4096 * (t.ctx q.dom).savesz) q.len = some off →
    exec .saveAreaAllocate s =
      .next ((t.writeEntry q.dom k { disp := q.disp, len := q.len, die := q.die, off }).setPart { p with grant := some (k, off) })) ∧
  (∀ die dom disp p d k off accs t s, s.partOf die dom disp = some p → s.dispOfPart p = some d → d.st = .saved → d.entry.rst = false →
    p.saved = false → p.reported = false → p.grant = some (k, off) → s.readAccs p.cores = (.inl accs, t) →
    exec (.saveRecordWrite die dom disp) s = .next (((t.memStore p.dom p.dom p.disp ((t.ctx p.dom).savea.toNat + off)
      (t.saveRecord p accs)).setPart { p with saved := true }).post (.saved p.die p.dom p.disp))) ∧
  (∀ die dom disp p d s, s.partOf die dom disp = some p → s.dispOfPart p = some d → d.st = .saved → d.entry.rst = false →
    p.saved = false → p.grant = none → p.asked = false →
    let t := s.setPart { p with asked := true }
    exec (.saveRecordWrite die dom disp) s = .next { t with hub := { t.hub with
      saveReqs := t.hub.saveReqs ++ [{ die, dom, disp, len := t.recordLength p }] } }) ∧
  (∀ die dom disp p d k off s, s.partOf die dom disp = some p → s.dispOfPart p = some d → d.st = .saved → d.entry.rst = true →
    p.saved = false → p.grant = some (k, off) →
    exec (.saveRecordWrite die dom disp) s = .next (((s.discardStaged p).setPart { p with saved := true }).post (.saved die dom disp))) ∧
  (∀ die dom disp p d s, s.partOf die dom disp = some p → s.dispOfPart p = some d → d.st = .draining → p.committed = false →
    d.entry.wheel = false →
    let t := (s.commitLines die (s.cluster.stage.filter fun l =>
      decide (l.dom = dom) && decide (l.disp = disp) && decide (l.cluster / 16 = die))).discardStaged p
    t.commitOut p = false →
    exec (.commitWrite die dom disp) s =
      .next ((t.setPart { p with committed := true }).post (.committed die dom disp (t.dieOf die).applied))) ∧
  (∀ dom disp d cs x t s, (s.hubView.bind fun c => c.find dom disp) = some d → d.st = .ready → d.entry.wheel = true → d.hist = none →
    s.readHist dom d.entry.taddr 0 d.entry.tcnt = ((cs, x), t) →
    exec (.wheelHistogramRead dom disp) s = .next (t.post (.hist dom disp cs x))) ∧
  (∀ dom c s, s.hubView = some c → s.hub.released = false → c.phaseEnded dom (c.ctx dom).phase = true →
    s.hub.exch.contains (dom, (c.ctx dom).phase) = false →
    exec (.exchangeStep dom) s = .next (({ s with hub := { s.hub with exch := s.hub.exch ++ [(dom, (c.ctx dom).phase)] } } : State).sendBody
      (.phase dom (c.ctx dom).phase))) ∧
  (∀ dom c s, s.hubView = some c → s.hub.released = false → c.phaseEnded dom (c.ctx dom).phase = true →
    s.hub.exch.contains (dom, (c.ctx dom).phase) = true → (s.hub.holdAt = none ∨ dom = 0) →
    exec (.exchangeStep dom) s = .next (s.exchangeEnd c dom (c.ctx dom).phase)) ∧
  ∀ dom c s, s.hubView = some c → s.hub.released = true →
    exec (.exchangeStep dom) s = .next ((c.ends.filter (s.hub.exch.contains ·)).foldl (fun s x => s.exchangeEnd c x.1 x.2)
      { s with hub := { s.hub with released := false } })

/-- R192, R407, R414, R415, R474: the hub's queue writer takes the next trap record, in arrival order, when its domain's key slot is loaded, and writes it
behind the others of the queue, whose header is laid out as R414 has it; a record of a domain without a trap queue is dropped with an event, one of
domain 0 whose slot is EMPTY is held, one of another is dropped. Held records go first once slot 0 is loaded. A record of a ninth domain waits for a
place in the writer's queue (which of those that wait goes first, log entry 129). -/
def Claims.TrapQueueWrites : Prop :=
  let next (s : State) (t : Trap) (ts : List Trap) : Prop := s.hub.lateTraps = [] ∧ s.hub.heldTraps = [] ∧ s.hub.traps = t :: ts
  (∀ t ts s, next s t ts → (s.keySlot t.dom).isSome = true →
    exec .trapQueueWrite s = .next (({ s with hub := { s.hub with traps := ts } } : State).writeTrap t)) ∧
  (∀ t ts s, next s t ts → (s.keySlot t.dom).isSome = true → (s.ctx t.dom).trapq = 0 →
    exec .trapQueueWrite s = .next (({ s with hub := { s.hub with traps := ts }, free := s.free + 1 } : State).logEvent 8 0x4004
      (Config.openValue 0x4004 s.free) t.dom 0)) ∧
  (∀ t ts s, next s t ts → s.keySlot 0 = none → t.dom = 0 →
    exec .trapQueueWrite s = .next { s with hub := { s.hub with traps := ts, heldTraps := [t] } }) ∧
  (∀ t ts s, next s t ts → s.keySlot t.dom = none → t.dom ≠ 0 → s.resetting t.dom = none →
    exec .trapQueueWrite s = .next { s with hub := { s.hub with traps := ts } }) ∧
  (∀ t t' ts (s : State), s.hub.lateTraps = [] → s.hub.heldTraps = t :: t' :: ts → (s.keySlot 0).isSome = true →
    exec .trapQueueWrite s = .next (({ s with hub := { s.hub with heldTraps := t' :: ts } } : State).writeTrap t)) ∧
  (∀ t (s : State), s.hub.lateTraps = [t] → (s.hub.traps.any fun x => decide (x.dom = t.dom)) = true →
    s.admitTraps = { s with hub := { s.hub with lateTraps := [], traps := s.hub.traps ++ [t] } }) ∧
  ∀ (t : Trap) h (u s : State) q size wr rd lost, (s.ctx t.dom).trapq.toNat = q → q ≠ 0 → s.memRead t.dom t.dom q 64 = (.inl h, u) →
    natOfBytes h % 2 ^ 128 = wr + 2 ^ 32 * rd + 2 ^ 64 * size + 2 ^ 96 * lost → wr < 2 ^ 32 → rd < 2 ^ 32 → size < 2 ^ 32 → lost < 2 ^ 32 →
    ringSize size = true → (wr + 2 ^ 32 - rd) % 2 ^ 32 < size → wr ≠ rd →
    s.writeTrap t = (u.memStore t.dom t.dom noDisp (q + 64 + 32 * (wr % size)) (bytesOfNat 32 t.rec_.toNat)).memStore t.dom t.dom noDisp q
      (bytesOfNat 4 (wr + 1))

/-! ## The host -/

/-- R447 to R453: the launch register, the registers, the mailbox's doorbell and the memory window of a function, the PF or a VF. That an access of a VF
shows VF Enable set (`State.seen`) is the model's reading (log entry 46), and so is the order of the bits of WHY (log entry 47). A read of a window that
fails returns what the manual leaves open. -/
def Obligations.HostRegisters : Prop :=
  (∀ f (v : BitVec 64) s, s.started = true → (s.seen f).launchWhy f v.toNat = 0 →
    exec (.launchrWrite f v) s = .next ((s.seen f).postLaunch (fieldNat 52 10 v.toNat) (v.toNat % 2 ^ 52))) ∧
  (∀ f (v : BitVec 64) s, s.started = true → (s.seen f).launchWhy f v.toNat ≠ 0 →
    exec (.launchrWrite f v) s = .next ((s.seen f).dropLaunch f ((s.seen f).launchWhy f v.toNat))) ∧
  (∀ f (v : BitVec 64) s, s.hostUp = true → ∃ t, exec (.lstatClear f v) s = .next t ∧
    (t.func f).drops = (s.func f).drops &&& ~~~(v.extractLsb' 32 32) ∧ (t.func f).why = (s.func f).why &&& ~~~(v.extractLsb' 0 8) ∧
    t.mem = s.mem ∧ t.unit = s.unit) ∧
  (∀ f (v : BitVec 64) s, s.hostUp = true → ∃ t, exec (.registerWrite f 0x048 v) s = .next t ∧
    (t.func f).winbase = v &&& 0xFFFFFFFF00000000 ∧ t.mem = s.mem ∧ t.unit = s.unit) ∧
  (∀ f (v : BitVec 64) s, s.hostUp = true → ∃ t, exec (.registerWrite f 0x050 v) s = .next t ∧
    (t.func f).windom = v.setWidth 10 ∧ t.mem = s.mem ∧ t.unit = s.unit) ∧
  (∀ f off n s, s.hostUp = true → (n ≠ 8 ∨ off % 8 ≠ 0) →
    exec (.registerPageBadAccess f off n false) s = .next { s with hub := { s.hub with readData := List.replicate n 0 } }) ∧
  (∀ f off n s, exec (.registerPageBadAccess f off n true) s = .next s) ∧
  (∀ f s, s.hostUp = true → (s.func f).mbst = 1 → s.inReset f = false →
    exec (.mbDoorbellBusy f) s = .next ((s.seen f).setFunc f { s.func f with mberr := 1 })) ∧
  (∀ f off n bs (t s : State), let u := s.seen f
    off + n ≤ windowSize f → s.hostUp = true → u.mayName f (u.func f).windom.toNat = true →
    u.memRead (u.func f).windom.toNat (u.func f).windom.toNat ((u.func f).winbase.toNat + off) n = (.inl bs, t) →
    exec (.windowRead f off n) s = .next { t with hub := { t.hub with readData := bs } }) ∧
  (∀ f off n e (t s : State), let u := s.seen f
    off + n ≤ windowSize f → s.hostUp = true → u.mayName f (u.func f).windom.toNat = true →
    u.memRead (u.func f).windom.toNat (u.func f).windom.toNat ((u.func f).winbase.toNat + off) n = (.inr e, t) →
    ∃ bs, bs.length = n ∧ exec (.windowRead f off n) s = .next { t with free := t.free + 1, hub := { t.hub with readData := bs } }) ∧
  (∀ f off n (s : State), let u := s.seen f
    off + n ≤ windowSize f → s.hostUp = true → u.mayName f (u.func f).windom.toNat = false →
    exec (.windowRead f off n) s = .next { u with hub := { u.hub with readData := List.replicate n 0xFF } }) ∧
  ∀ f off bs (s : State), let u := s.seen f
    off + bs.length ≤ windowSize f → s.hostUp = true →
    exec (.windowWrite f off bs) s = .next (if u.mayName f (u.func f).windom.toNat then
      u.memStore (u.func f).windom.toNat (u.func f).windom.toNat noDisp ((u.func f).winbase.toNat + off) bs else u)

/-- R449 to R451: a mailbox command names its domain, which its function must own, and completes; DESTROY and KILL run until the domain has drained.
The places of the arguments of CREATE, ASSIGN, SUPCFG and QUERY and the error codes are the model's choice (log entry 48), and so are the two steps of
a command that runs on (log entry 82). -/
def Obligations.MailboxCommands : Prop :=
  let rings (f code : Nat) (s : State) : Prop :=
    s.hostUp = true ∧ s.inReset f = false ∧ (s.func f).mbst ≠ 1 ∧ (s.func f).arg 0 2 = code ∧ s.seen f = s
  let dom (f : Nat) (s : State) : Nat := (s.func f).arg 2 2
  let runs1 (c : Nat → Instr) (code : Nat) : Prop :=
    (∀ f s, rings f code s → s.owns f (dom f s) = true →
      exec (c f) s = .next ((s.setFunc f { s.func f with mbst := 1, mberr := 0, running := some (code, dom f s) }).hostKill (dom f s) false)) ∧
    ∀ f s, rings f code s → s.owns f (dom f s) = false → exec (c f) s = .next (s.mbEnd f 2)
  (∀ f s c, rings f 1 s → s.owns f (dom f s) = true → (s.ctx (dom f s)).cst = 0 → s.sag.token = none →
    (s.func f).entryArgs = some c →
    exec (.mbCreate f) s = .next (((((s.setCtx (dom f s) { c with cst := 0, func := f }).renewContext (dom f s)).freshKey (dom f s)).setCst
      (dom f s) 1).mbEnd f 0)) ∧
  (∀ f s, rings f 1 s → s.owns f (dom f s) = true → (s.ctx (dom f s)).cst ≠ 0 → exec (.mbCreate f) s = .next (s.mbEnd f 3)) ∧
  runs1 .mbDestroy 2 ∧ runs1 .mbKill 5 ∧
  (∀ f d s, s.started = true → s.inReset f = false → (s.func f).mbst = 1 → (s.func f).running = some (5, d) → s.drained d = true →
    exec (.mbKill f) s = .next (s.mbEnd f 0)) ∧
  (∀ f d s, s.started = true → s.inReset f = false → (s.func f).mbst = 1 → (s.func f).running = some (2, d) → s.drained d = true →
    exec (.mbDestroy f) s = .next ((((s.loadKey d none).dropImages d).freeContext d).mbEnd f 0)) ∧
  (∀ f s, rings f 3 s → s.owns f (dom f s) = true → exec (.mbPreempt f) s = .next ((s.post (.preempt (dom f s))).mbEnd f 0)) ∧
  (∀ f s, rings f 4 s → s.owns f (dom f s) = true → exec (.mbResume f) s = .next ((s.post (.resume (dom f s))).mbEnd f 0)) ∧
  (∀ s, rings 0 6 s → let x := s.func 0
    let doms := (List.range (x.arg 24 2)).map (x.arg 16 8 + ·)
    (∀ d ∈ doms, s.owns 0 d = true) → x.arg 16 8 + x.arg 24 8 ≤ 1024 → x.arg 8 8 < 64 → (∀ d ∈ doms, (s.ctx d).cst = 0) →
    exec (.mbAssign 0) s = .next ((doms.foldl (fun s d => s.setCtx d { s.ctx d with func := x.arg 8 8 }) s).mbEnd 0 0)) ∧
  (∀ f s d, rings f 6 s → let x := s.func f
    d ∈ (List.range (x.arg 24 2)).map (x.arg 16 8 + ·) → s.owns f d = false → exec (.mbAssign f) s = .next (s.mbEnd f 2)) ∧
  (∀ s k, rings 0 7 s → (s.func 0).arg 8 8 = 0 → bootUnits[(s.func 0).arg 16 8]? = some k →
    exec (.mbQueryBootEntry 0) s = .next (s.mbAnswer 0 0 (BitVec.ofNat 512 (s.bootBits k).toNat))) ∧
  (∀ s r, rings 0 7 s → (s.func 0).arg 8 8 = 1 → s.mem.excludedRange 0 ((s.func 0).arg 16 8) false s.mem.frameCount = some r →
    exec (.mbQueryExcluded 0) s = .next (s.mbAnswer 0 0 (BitVec.ofNat 512 (packFields [(64, r.1), (64, r.2)])))) ∧
  (∀ s, rings 0 8 s → exec (.mbClrboot 0) s = .next (({ s with sag := { s.sag with clrboot := true } } : State).mbEnd 0 0)) ∧
  ∀ s c, rings 0 9 s → dom 0 s = 0 → (s.func 0).entryArgs = some c → s.superBusy = false →
    exec (.mbSupcfg 0) s = .next ((s.setCtx 0 { c with wdog := (s.ctx 0).wdog }).mbEnd 0 0)

/-- R454 to R457: function-level reset, and the loss, hold and return of the host's link. A reset posts a KILL for each of its domains that is not
FREE, and ends with these FREE and their keys EMPTY. The two steps of a reset are the model's (log entry 82), and so are the reset of the PF by a hot
reset without a hold, and the moment at which held steps run (log entry 85). -/
def Obligations.ResetsAndLink : Prop :=
  let up (s : State) : State := { s with hub := { s.hub with linkUp := true, powerDown := false } }
  (∀ f s, s.sag.power = true → (s.func f).flr = none → exec (.flr f) s = .next (s.startFlr f)) ∧
  (∀ f (s : State) d, (s.func f).flr = none → d ∈ s.resetDoms f → (s.ctx d).cst ≠ 0 →
    ((s.startFlr f).func f).flr = some 1 ∧ ∃ cause, .kill d cause 0 none true ∈ (s.startFlr f).hub.log) ∧
  (∀ f p s, s.sag.power = true → (s.func f).flr = some p → (s.resetDoms f).all s.drained = true →
    exec (.flr f) s = .next (s.endFlr f)) ∧
  (∀ f (s : State) d, d ∈ s.resetDoms f → ((s.endFlr f).ctx d).cst = 0 ∧ (s.endFlr f).keySlot d = none ∧ ((s.endFlr f).func f).flr = none) ∧
  (∀ s, s.hub.linkUp = true → s.hub.powerDown = false → (s.func 0).flr = none →
    ∃ t, exec .linkLoss s = .next t ∧ t.hub.linkUp = false ∧ t.hub.holdAt = some s.now ∧ t.hub.dropped = 0 ∧ t.mem = s.mem) ∧
  (∀ s, s.hub.linkUp = true → s.hub.powerDown = true → exec .linkLoss s = .next { s with hub := { s.hub with linkUp := false } }) ∧
  (∀ t₀ s, s.hub.holdAt = some t₀ → t₀ + s.holdCycles ≤ s.now → exec .linkHoldExpiry s = .next s.expireHold) ∧
  (∀ s, s.hub.linkUp = false → s.started = true → s.hub.holdAt = none → exec .linkRetrain s = .next (up s)) ∧
  (∀ t₀ s, s.hub.linkUp = false → s.started = true → s.hub.holdAt = some t₀ → t₀ + s.holdCycles ≤ s.now →
    exec .linkRetrain s = .next (up s.expireHold)) ∧
  (∀ t₀ s, s.hub.linkUp = false → s.started = true → s.hub.holdAt = some t₀ → s.now < t₀ + s.holdCycles →
    let t : State := { s with hub := { s.hub with linkUp := true, powerDown := false, holdAt := none } }
    exec .linkRetrain s = .next ((t.logEvent 8 0x5005 s.hub.dropped.toNat 0 0 true).resignal.release)) ∧
  (∀ s, s.started = true → s.hub.holdAt = none → exec .hotReset s = .next ((up s).startFlr 0)) ∧
  (∀ t₀ s, s.started = true → s.hub.holdAt = some t₀ → exec .hotReset s = .next (up s.expireHold)) ∧
  (∀ s, s.sag.power = true → s.sag.romOnly = false → exec .pldmPowerDown s = .next { s with hub := { s.hub with powerDown := true } }) ∧
  ∀ s, s.sag.romOnly = true → exec .pldmPowerDown s = .next s

/-! ## Starts, sideband and security -/

/-- R463 to R466, R469, R474, R477: what resets, starts, power loss and heat leave. A start is one step (log entry 50), which copy of the boot record
it takes is the model's choice (log entry 119), and so is what survives a warm reset (log entry 83). -/
def Obligations.StartsAndPower : Prop :=
  (∀ s, (s.sag.power = false ∨ s.sag.starts = 0) → exec .coldStart s = .next (s.cooled.tryStarts true 4)) ∧
  (∀ s : State, s.cooled.mem = {} ∧ s.cooled.unit = {} ∧ s.cooled.core = {} ∧ s.cooled.sag.fuses = s.sag.fuses ∧ s.cooled.sag.power = true ∧
    s.cooled.sag.dbgOpen = false ∧ s.cooled.sag.token = none ∧ (s.cooled.keySlot 0).isSome = true ∧
    ∀ k, k ≠ 0 → s.cooled.keySlot k = none) ∧
  (∀ s, s.sag.power = true → s.sag.mgmtOnly = false →
    exec .warmReset s = .next (s.warmed.tryStarts false (4 - s.sag.failed))) ∧
  (∀ s : State, s.warmed.mem.bytes = s.mem.bytes ∧ s.warmed.unit = {} ∧ s.warmed.core = {} ∧ s.warmed.cluster = {} ∧
    s.warmed.sag.dbgOpen = s.sag.dbgOpen ∧ s.warmed.sag.fuses = s.sag.fuses ∧ s.warmed.hub.rings = s.hub.rings ∧
    s.warmed.keySlot 0 = s.sag.key0 ∧ (∀ k, k ≠ 0 → s.warmed.keySlot k = none) ∧ s.warmed.measReg 7 = s.measReg 7 ∧
    s.warmed.measReg 0 = 0) ∧
  (∀ step unit s, s.sag.hung = some (65536 * step + unit) →
    exec (.bootStepTimeout step unit) s = .next (s.stepFailed (65536 * step + unit)).warmReset) ∧
  (∀ key (s : State), let t := s.setBootEntry key { s.bootEntry key with last := 3 }
    t.bootEntry key = { s.bootEntry key with last := 3 } ∧
      s.stepFailed key = { t.bootEvent 0x5001 key with sag := { t.sag with failed := t.sag.failed + 1 } } ∧
      (s.stepFailed key).bootEntry key = { s.bootEntry key with last := 3 }) ∧
  (∀ k (s : State), s.sag.second = true → s.sag.boot0.valid = true →
    ∀ e, (s.setBootEntry k e).sag.boot1 = s.sag.boot1 ∧ (s.setBootEntry k e).sag.boot0.seq = s.sag.boot1.seq + 1) ∧
  (∀ s, ∃ t, exec .saggarPowerLoss s = .next t ∧ t.sag.power = false ∧ t.sag.fuses = s.sag.fuses ∧ (∀ k, t.keySlot k = none) ∧
    t.hub.linkUp = false ∧ t.unit = {} ∧ t.mem = {}) ∧
  (∀ die s, s.sag.power = true → ∃ t, exec (.thermalThrottle die) s = .next t ∧ (t.dieOf die).throttled = true ∧ t.mem = s.mem ∧
    t.unit = s.unit) ∧
  ∀ die s, s.sag.power = true → exec (.thermalShutdown die) s = .next s.heatEvent.warmReset

/-- R460, R462 to R464, R467, R468, R480, R481: the sideband's reads and writes, and the lifecycle's one-way steps. The bytes of a discovery, the
numbers of the sensors and the layout of the black box are taken from outside the manual (log entry 53); what a module that recovers from its boot ROM
answers, and the order of an RMA token's checks, are the model's (log entries 119, 54). -/
def Obligations.SidebandAndLifecycle : Prop :=
  let serves (s : State) : Prop := s.sag.power = true ∧ s.sag.romOnly = false
  let shows (s : State) (bs : List Byte) : Host.Outcome State Fault Refusal := .next { s with hub := { s.hub with sideband := bs } }
  (∀ s, serves s → ∃ t, exec .pldmDiscovery s = .next t ∧ t = { s with hub := { s.hub with sideband := t.hub.sideband }, free := t.free } ∧
    t.hub.sideband.take 8 = bytesOfNat 8 0x25) ∧
  (∀ n s, n < 8 → serves s → exec (.pldmSensorRead n) s = shows s [BitVec.ofNat 8 (s.dieHealth n)]) ∧
  (∀ c img man p s, s.sag.power = true → 2 ≤ p → (s.vendorKeyOk && s.vendorSigned man 64 && decide (Sm.sm3 img = (man.drop 16).take 32)) = false →
    exec (.pldmFirmwareUpdate c img man p) s = .next s) ∧
  (∀ img man p s, s.sag.power = true → 2 ≤ p → s.vendorKeyOk = true → s.vendorSigned man 64 = true → Sm.sm3 img = (man.drop 16).take 32 →
    exec (.pldmFirmwareUpdate 0 img man p) s =
      .next { s with sag := { s.sag with image0 := some (BitVec.ofNat 256 (natOfBytes ((man.drop 16).take 32))) } }) ∧
  (∀ r k e s, serves s → (s.ring r).events[k]? = some e →
    exec (.blackBoxRead r k) s = shows s (bytesOfNat 4 (s.ring r).count.toNat ++ bytesOfNat 16 e.toNat)) ∧
  (∀ n k s, serves s → bootUnits[n]? = some k → exec (.bootRecordRead n) s = shows s (bytesOfNat 16 (s.bootBits k).toNat)) ∧
  (∀ v s, serves s → s.sag.start0 = none → s.sag.start1 = none →
    exec (.startCounterWrite v) s = .next { s with sag := { s.sag with start0 := some v, start1 := some v } }) ∧
  (∀ n s, 8 ≤ n → serves s → ∃ t, exec (.pldmSensorRead n) s = .next t ∧
    t = { s with hub := { s.hub with sideband := t.hub.sideband }, free := t.free } ∧ t.hub.sideband.length = 8) ∧
  (∀ s, s.sag.power = true → s.sag.romOnly = true → exec .pldmDiscovery s = .next { s with free := s.free + 2 }) ∧
  (∀ v x s, s.sag.start0 = some x → exec (.startCounterWrite v) s = .next s) ∧
  (∀ l m s, serves s → (s.fabLink l).peer = some m →
    exec (.peerEpochRead l) s = shows s (bytesOfNat 1 m ++ bytesOfNat 4 (s.fabLink l).epoch.toNat)) ∧
  (∀ (n : BitVec 128) bs t s, serves t → s.signedReport 0 n.toNat true = (some bs, t) →
    exec (.sidebandAttest n) s = shows t bs) ∧
  (∀ f m es s, serves s →
    exec (.fabricMapWrite f m es) s = .next { s with fab := { s.fab with flashMap := some (f, m, es) } }) ∧
  (∀ s, serves s → s.lifecycle = 0 → ∃ t, exec .vendorProvision s = .next t ∧ t.sag.identity.isSome = true ∧
    t.fuse 0 = s.fuse 0 ||| 1 ∧ t.mem = s.mem) ∧
  (∀ tok s, s.sag.romOnly = true → exec .productionFusing s = .next s ∧ exec (.rmaToken tok) s = .next s) ∧
  (∀ s, s.sag.power = true → s.sag.romOnly = false → s.lifecycle = 1 →
    ∃ t, exec .productionFusing s = .next t ∧ t.fuse 0 = s.fuse 0 ||| 3 ∧ t.mem = s.mem) ∧
  ∀ tok s, s.sag.power = true → s.sag.romOnly = false → (s.lifecycle = 1 ∨ s.lifecycle = 2) → tok.length = 96 → firstFailing (s.tokenChecks tok) = none →
    ∃ t, exec (.rmaToken tok) s = .next t ∧ t.fuse 0 = s.fuse 0 ||| 7 ∧ t.mem = s.mem

/-- R149, R469 to R473: the Saggar serves requests in the order of each die, and writes the status word last. A `MEXT` of a length that is no multiple
of 64 is taken (log entry 84), and the byte order of a measurement is the model's choice (log entry 121). -/
def Obligations.SaggarServes : Prop :=
  let next (s : State) (want : SagReq → Bool) (r : SagReq) (rs : List SagReq) : Prop :=
    s.sag.power = true ∧ takeRequest want SagReq.die [] s.hub.sag = some (r, rs)
  (∀ d dom n (v : Word) rs s, next s (fun r => match r with | .mext _ _ _ _ => true | _ => false) (.mext d dom n v) rs →
    exec .saggarMextServe s = .next (({ s with hub := { s.hub with sag := rs } } : State).extend n (bytesOfNat 32 v.toNat))) ∧
  (∀ d dom addr pe sl rs h bs body s₁ s₂ s₃ s,
    next s (fun r => match r with | .attest _ _ _ _ _ => true | _ => false) (.attest d dom addr pe sl) rs →
    ({ s with hub := { s.hub with sag := rs } } : State).memRead dom dom addr 64 = (.inl h, s₁) →
    let len := natOfBytes ((h.drop 8).take 4)
    704 ≤ len → len ≤ 4096 → s₁.memRead dom dom addr len = (.inl bs, s₂) →
    s₂.signedReport dom (natOfBytes ((bs.drop 16).take 16)) false = (some body, s₃) →
    exec .saggarAttestServe s =
      .next ((s₃.memStore dom dom noDisp (addr + 64) body).memStore dom dom noDisp addr (bytesOfNat 8 1))) ∧
  (∀ d dom addr pe sl rs h bs s₁ s₂ s,
    next s (fun r => match r with | .verify _ _ _ _ _ _ => true | _ => false) (.verify d dom addr 0 pe sl) rs →
    ({ s with hub := { s.hub with sag := rs } } : State).memRead dom dom addr 64 = (.inl h, s₁) →
    let len := natOfBytes ((h.drop 8).take 4)
    192 ≤ len → len ≤ 4096 → s₁.memRead dom dom addr len = (.inl bs, s₂) →
    let obj := (bs.drop 64).take 96
    firstFailing (s₂.tokenChecks obj ++ [(5, !s₂.tenantActive), (6, !(bitAt 1 (s₂.fuse 1)))]) = none →
    let t : State := { s₂ with sag := { s₂.sag with token := some (BitVec.ofNat 256 (natOfBytes (Sm.sm3 obj))), wiped := false } }
    exec .saggarVerifyServe s =
      .next ((((t.logEvent 8 0x5007 (natOfBytes (obj.take 8)) 0 0 true).memStore dom dom noDisp (addr + 64) []).memStore dom dom noDisp addr
        (bytesOfNat 8 1)).renewNonce))

/-! ## Other modules -/

/-- R478 to R481, R490 to R492: links between modules: frames received in order, replays, training, and the loss of a module. A frame stays in
the replay buffer of 256 until it is acknowledged; a flit waits while that is full, behind another of its virtual channel that waits, and while its
domain would be the ninth of the hub (R407). What is sent again at a training, and that a module further on counts as reachable once a body of it has
come, is log entry 120. -/
def Claims.BexwenLinks : Prop :=
  (∀ l (f : BitVec 576) s, (s.fabLink l).st = .up → Config.lcrc (f.extractLsb' 32 544) = f.extractLsb' 0 32 →
    bitsOf 52 12 f = ((s.fabLink l).lack + 1) % 4096 →
    let got : FabLink := { s.fabLink l with lack := bitsOf 52 12 f, replay := dropAcked (bitsOf 40 12 f) (s.fabLink l).replay }
    let t := s.setFabLink l (got.pump (s.setFabLink l got).hubDoms)
    exec (.linkFrameReceive l f) s =
      .next (if bitsOf 36 2 f = 0 then t.takeFlit l (bitsOf 38 2 f) (f.extractLsb' 64 512)
        else if bitsOf 36 2 f = 2 then t.takeBody (f.extractLsb' 64 512) else t)) ∧
  (∀ l (f : BitVec 576) s, (Config.lcrc (f.extractLsb' 32 544) ≠ f.extractLsb' 0 32 ∨
      bitsOf 52 12 f ≠ ((s.fabLink l).lack + 1) % 4096) → exec (.linkFrameReceive l f) s = .next s) ∧
  (∀ (l : FabLink) doms (w : OutFlit), (∀ x ∈ l.waiting, x.vc ≠ w.vc) → l.replay.length < 256 →
    (∀ d, w.dom = some d → fits (doms ++ l.doms).eraseDups d = true) →
    l.offer doms w = { l with replay := l.replay ++ [{ bits := packFrame w.bits w.vc w.fk l.lseq l.lack, dom := w.dom }]
                              lseq := (l.lseq + 1) % 4096 }) ∧
  (∀ (l : FabLink) doms (w : OutFlit), (256 ≤ l.replay.length ∨ (∃ x ∈ l.waiting, x.vc = w.vc) ∨
      ∃ d, w.dom = some d ∧ fits (doms ++ l.doms).eraseDups d = false) →
    l.offer doms w = { l with waiting := l.waiting ++ [w] }) ∧
  (∀ l s, (s.fabLink l).st = .up → exec (.linkReplay l true) s = .next (s.setFabLink l { s.fabLink l with fails := 0 })) ∧
  (∀ l s, (s.fabLink l).st = .up → (s.fabLink l).fails < 15 →
    exec (.linkReplay l false) s = .next (s.setFabLink l { s.fabLink l with fails := (s.fabLink l).fails + 1 })) ∧
  (∀ l s, (s.fabLink l).st = .up → 15 ≤ (s.fabLink l).fails → exec (.linkReplay l false) s = .next (s.bexDown l)) ∧
  (∀ l s, (s.fabLink l).st = .up → exec (.receiverLockLoss l) s = .next (s.bexDown l)) ∧
  (∀ l fid mid ep rx s, (s.fabLink l).st = .down → (fid ≠ s.fab.fabricId ∨ mid = s.fab.moduleId) →
    exec (.bexwenRetrain l fid mid ep rx) s =
      .next (((s.sendIdentity l).setFabLink l { s.fabLink l with st := .disabled }).fabEvent 0x7006 0)) ∧
  (∀ l mid ep rx s, (s.fabLink l).st = .down → mid ≠ s.fab.moduleId →
    let s₁ := ((s.sendIdentity l).setFabLink l { s.fabLink l with
      st := .up, lseq := 0, lack := 0xFFF, replay := [], waiting := [], fails := 0, peer := some mid, epoch := ep, rawx := rx
      cont := {}, got := {} }).keepPeer mid ep rx
    let s₂ : State := { s₁ with fab := { s₁.fab with unreachable := s₁.fab.unreachable.filter fun m => !decide (s₁.currentLink m = some l) } }
    exec (.bexwenRetrain l s.fab.fabricId mid ep rx) s =
      .next (((((s₂.fabEvent 0x7002 0).learnEpoch mid ep).rerouteAtoms.rerouteExch).sendContexts).fabAdvance)) ∧
  (∀ l k m ep rx (s : State), k < 12 → (s.fabLink k).peer = some m →
    ((s.keepPeer m ep rx).fabLink k).epoch = ep ∧ ((s.keepPeer m ep rx).fabLink k).rawx = rx ∧ ((s.keepPeer m ep rx).fabLink l).st = (s.fabLink l).st) ∧
  ∀ m s, s.reachable m = true → s.fab.ratoms = [] → s.fab.exch = [] →
    let t := s.fabEvent 0x7003 0 true
    exec (.moduleUnreachable m) s =
      .next ((({ t with fab := { t.fab with unreachable := t.fab.unreachable ++ [m] } } : State).postLinkDown m).fabAdvance)

/-- R483 to R485: the bodies that the modules of a fabric group send each other. That a body makes its module reachable again, and what the
counters have told, is the model's (log entries 86, 120). -/
def Claims.FabricBodies : Prop :=
  let from_ (s : State) (m : Nat) : State := { s with fab := { s.fab with unreachable := s.fab.unreachable.filter (· ≠ m) } }
  (∀ m dom a s, exec (.ctxBody m dom a) s = .next ((from_ s m).setMember dom m a).fabAdvance) ∧
  (∀ m dom n k s, s.reached dom m = some k → exec (.phaseBody m dom n) s = .next ((from_ s m).setReached dom m (some (Nat.max k n)))) ∧
  (∀ m dom n s, s.reached dom m = none → exec (.phaseBody m dom n) s = .next ((from_ s m).setReached dom m (some n))) ∧
  (∀ m dom b g s, (m, dom, b, g) ∉ s.fab.farr →
    exec (.farrBody m dom b g) s = .next ({ s with fab := { (from_ s m).fab with farr := s.fab.farr ++ [(m, dom, b, g)] } } : State).fabAdvance) ∧
  (∀ m dom b s, (m, dom, b) ∉ s.fab.fexit →
    exec (.fexitBody m dom b) s = .next ({ s with fab := { (from_ s m).fab with fexit := s.fab.fexit ++ [(m, dom, b)] } } : State).fabAdvance) ∧
  ∀ m dom b k s, k < 64 → (s.barrier (300000 + k)).fab = some b → (s.barrier (300000 + k)).dom = dom →
    ∃ t, exec (.fbreakBody m dom b) s = .next t ∧ (t.barrier (300000 + k)).brk = true ∧ (dom, b) ∈ t.fab.fbreak ∧ t.mem = s.mem ∧
      t.unit = s.unit

/-- R300, R301, R482, R486 to R490: exchange writes and atomics between modules. A `RATOM` enters the queue of its core and holds issue until its
result comes, whichever module it goes to; one that no link can carry comes back with status 3. The bodies of the packets, the acknowledgement of an
exchange among them, are the model's choice (log entry 36), and so is the origin of the LINK_DOWN record (log entry 57). -/
def Obligations.RemoteAccesses : Prop :=
  let sp (w : Fields) : OpSpec := { specComet 0xDE with
    fmts := some (atomFmts w), mods := fun w => w.mod.toNat < 8, d := { Pos.dst with chanOut := false }, a := .srcWide, b := .srcWide  }
  let free (x : Issue) : Prop := x.s.restartable (x.s.askerOf x.core) = false
  let place (x : Issue) : Nat := x.s.accepted (cometOfCore x.core)
  let takes (x : Issue) : Prop := (x.s.cmdq x.core).length < 16 ∧ x.s.isParked (cometOfCore x.core) (commandPort x.core) = false
  Fails .ratom sp (fun x => ¬free x) Cause.protection (fun _ => 0xDE) ∧
  Holds .ratom sp (fun x => free x ∧ x.task.wait = .none ∧ takes x)
    (fun x => ((x.s.setAccepted (cometOfCore x.core) (place x + 1)).setCmdq x.core (x.s.cmdq x.core ++
      [{ op := .ratom, ca := x.sa, tids := fieldNat 0 12 x.imm, fmt := x.fmt, aop := x.mod, data := BitVec.ofNat 256 x.sb
         modl := fieldNat 12 6 x.imm, pe := x.pe, slot := x.slot, dom := x.dom, disp := x.disp, tag := freeTag (x.s.cmdq x.core)
         order := place x }])).setTask x.pe x.slot { x.task with wait := .memSent }) ∧
  Holds .ratom sp (fun x => free x ∧ x.task.wait = .none ∧ ¬takes x) (fun x => x.s) ∧
  Completes .ratom sp (fun x => free x ∧ x.task.wait = .memDone x.task.wait.value none) (fun x => x.putD x.s x.task.wait.value) ∧
  (∀ core k c v f (s : State), (s.task c.pe c.slot).wait = .memSent →
    ((s.answerCmd core k c v f).task c.pe c.slot) = { s.task c.pe c.slot with wait := .memDone v f }) ∧
  (∀ core k c s, (s.cmdq core)[k]? = some c → c.translated = true → c.sent = false → (∀ d ∈ (s.cmdq core).take k, d.overlaps c = false) →
    s.waitsOther core c = false → c.op = .ratom → s.isRemote c = true → s.reachable c.modl = false →
    exec (.cometCommandPerform core k) s = .next (((s.cometPost (c.asker core) (s.linkDownRecord c.dom c.disp c.modl)).answerCmd core k c
      (ratomWord 0 3) none).touch core)) ∧
  (∀ r old st k c (s : State), let t : State := { s with fab := { s.fab with ratoms := s.fab.ratoms.filter fun x => x ≠ r } }
    (s.cmdq r.core).findIdx? (fun c => decide (c.op = .ratom) && c.sent && decide (c.order = r.order)) = some k →
    (s.cmdq r.core)[k]? = some c → st ≠ 2 →
    s.endAtom r old st = t.answerCmd r.core k c (ratomWord (if st = 0 then old.toNat else 0) st) none) ∧
  (let from_ (s : State) : State := (s.openVal 0x486).2
   let acks (s t : State) (smod dom : Nat) (r : Option Word) : State :=
     t.exchAck { t.header 0 7 0 7 3 3 0 dom ((s.openVal 0x486).1 % 4096) with dmod := smod } r
   let finds (s : State) (dom tid at_ n : Nat) : (List Piece ⊕ Word) × State :=
     (from_ s).remoteResolve (remoteAsker dom) tid (at_ % 2 ^ 64) (at_ / 2 ^ 64) n
   (∀ smod dom tid at_ bs raw z r t s, smod ≠ s.fab.moduleId → finds s dom tid at_ bs.length = (.inr r, t) →
     exec (.remoteExchangeWrite smod dom tid at_ bs raw z) s = .next (acks s t smod dom (some r))) ∧
   (∀ smod dom tid at_ bs (form : ExchForm) ps t s, smod ≠ s.fab.moduleId → form.pattern = false →
     finds s dom tid at_ bs.length = (.inl ps, t) →
     exec (.remoteExchangeWrite smod dom tid at_ bs false form) s = .next (acks s (t.hbmWrite (remoteAsker dom) ps bs) smod dom none)) ∧
   (∀ smod dom tid at_ bs (form : ExchForm) ps t s, smod ≠ s.fab.moduleId → form.pattern = false → wholePieces ps = true →
     finds s dom tid at_ bs.length = (.inl ps, t) →
     exec (.remoteExchangeWrite smod dom tid at_ bs true form) s =
       .next (acks s (t.writeForms (remoteAsker dom) ps form.units bs) smod dom none)) ∧
   (∀ smod dom tid at_ bs (form : ExchForm) ps t s, smod ≠ s.fab.moduleId → form.pattern = false → wholePieces ps = false →
     finds s dom tid at_ bs.length = (.inl ps, t) →
     exec (.remoteExchangeWrite smod dom tid at_ bs true form) s =
       .next (acks s t smod dom (some ((XFail.reason 2).record t (remoteAsker dom)))))) ∧
  (∀ dom fmt aop tid coords operand (s : State), (s.ctx dom).cst ≠ 1 →
    s.performAtom dom fmt aop tid coords operand =
      ((3, 0), s.cometPost (remoteAsker dom) ((XFail.reason 8).record s (remoteAsker dom)))) ∧
  (∀ dom fmt aop tid coords operand c bs (s t u : State), (s.ctx dom).cst = 1 →
    s.xlatAtom (remoteAsker dom) { op := .ratom, dom, ca := coords, tids := tid, fmt, aop, data := BitVec.ofNat 256 operand } = (.ok c, t) →
    t.hbmRead (remoteAsker dom) c.src = (.inl bs, u) →
    s.performAtom dom fmt aop tid coords operand = ((0, BitVec.ofNat 64 (natOfBytes bs)), u.hbmWrite (remoteAsker dom) c.src
      (bytesOfNat (elemBytes fmt) (aluNew fmt aop (natOfBytes bs) (operand % 2 ^ (8 * elemBytes fmt)))))) ∧
  (let asks (f : BitVec 512) (s : State) : Prop :=
     (Header.ofBits f).type = 4 ∧ (Header.ofBits f).dmod = s.fab.moduleId ∧ (Header.ofBits f).smod ≠ s.fab.moduleId ∧
     bitsOf 416 32 f = s.sag.bootno.toNat
   let seq (f : BitVec 512) : Nat := bitsOf 496 16 f
   let table (f : BitVec 512) (s : State) : Dedup := s.dedup (12 * (Header.ofBits f).smod + bitsOf 492 4 f)
   let ahead (f : BitVec 512) (s : State) : Nat := (seq f + 2 ^ 16 - (table f s).high) % 2 ^ 16
   (∀ f rst old (s t : State), asks f s → (∀ e ∈ (table f s).ids, e.1 ≠ seq f) →
     ((table f s).ids = [] ∨ (1 ≤ ahead f s ∧ ahead f s ≤ 32767)) →
     s.performAtom (Header.ofBits f).dom (bitsOf 487 5 f) (bitsOf 483 4 f) (bitsOf 471 12 f) (bitsOf 128 64 f) (bitsOf 64 64 f) = ((rst, old), t) →
     exec (.remoteAtomicRequest f) s = .next ((t.setDedup (12 * (Header.ofBits f).smod + bitsOf 492 4 f)
       { ids := ((seq f, rst, old) :: (table f s).ids).take 256, high := seq f }).atomReply f rst old)) ∧
   (∀ f s, asks f s → (∀ e ∈ (table f s).ids, e.1 ≠ seq f) → (table f s).ids ≠ [] → (ahead f s = 0 ∨ 32767 < ahead f s) →
     exec (.remoteAtomicRequest f) s = .next (s.atomReply f 2 0)) ∧
   ∀ f rst old (s : State), rst < 4 → ∃ x, s.atomReply f rst old = s.sendPacket ((Header.ofBits f).reply 5 0) x ∧
     bitsOf 496 16 x = seq f ∧ bitsOf 492 4 x = bitsOf 492 4 f ∧ bitsOf 490 2 x = rst ∧ bitsOf 416 32 x = bitsOf 416 32 f ∧
     x.extractLsb' 64 64 = old) ∧
  (∀ (f : BitVec 512) s, (Header.ofBits f).type = 4 → (Header.ofBits f).dmod = s.fab.moduleId → (Header.ofBits f).smod ≠ s.fab.moduleId →
    bitsOf 416 32 f ≠ s.sag.bootno.toNat → exec (.remoteAtomicRequest f) s = .next (s.atomReply f 2 0)) ∧
  (∀ (f : BitVec 512) e s, (Header.ofBits f).type = 4 → (Header.ofBits f).dmod = s.fab.moduleId → (Header.ofBits f).smod ≠ s.fab.moduleId →
    bitsOf 416 32 f = s.sag.bootno.toNat →
    (s.dedup (12 * (Header.ofBits f).smod + bitsOf 492 4 f)).ids.find? (fun e => decide (e.1 = bitsOf 496 16 f)) = some e →
    exec (.remoteAtomicRequest f) s = .next (s.atomReply f e.2.1 e.2.2)) ∧
  (∀ (f : BitVec 512) r s, (Header.ofBits f).type = 5 → (Header.ofBits f).dmod = s.fab.moduleId →
    (s.fab.ratoms.find? fun r => decide (r.modl = (Header.ofBits f).smod) && decide (r.seq = bitsOf 496 16 f) &&
      decide (r.slink = bitsOf 492 4 f)) = some r →
    exec (.remoteAtomicResponse f) s = .next (s.endAtom r (f.extractLsb' 64 64) (bitsOf 490 2 f))) ∧
  (∀ k r s, s.fab.ratoms[k]? = some r → r.sentAt + 2 ^ 17 ≤ s.now → (s.currentLink r.modl = none ∨ 3 ≤ r.resends) →
    exec (.ratomResendTimeout k) s = .next (s.endAtom r 0 2)) ∧
  ∀ k r l s, s.fab.ratoms[k]? = some r → r.sentAt + 2 ^ 17 ≤ s.now → s.currentLink r.modl = some l → r.resends < 3 →
    exec (.ratomResendTimeout k) s = .next ((({ s with fab := { s.fab with ratoms := s.fab.ratoms.map fun x =>
      if x = r then { r with resends := r.resends + 1, sentAt := s.now, link := l } else x } } : State).sendFlits l 0 [r.flit]))

/-! ## Encoding -/

/-- R11, R26: the encoding of a well-formed instruction decodes to it, with every field at every value. -/
def Obligations.EncodeDecode : Prop :=
  ∀ i tag word, i.wf = true → encode i = some (tag, word) → decodeEntry tag word = i

/-- R11, R26, R31: an entry's instruction encodes to that entry: decoding drops no bit. -/
def Obligations.DecodeEncode : Prop :=
  ∀ tag word, encode (decodeEntry tag word) = some (tag, word)

/-- R26, R27, R31: every entry decodes to a well-formed instruction: an unassigned opcode, and only that, to `illegalOp`; a literal
entry, and only that, to `execLiteral`. -/
def Obligations.DecodedWellFormed : Prop :=
  ∀ tag word, (decodeEntry tag word).wf = true ∧
    ((∃ op f, decodeEntry tag word = .illegalOp op f) ↔ tag = false ∧ unassigned (opOf word).toNat = true) ∧
    ((∃ d, decodeEntry tag word = .execLiteral d) ↔ tag = true)

/-- R10, R11, R26: words of the manual's examples, field by field, and the word of an empty entry. -/
def Obligations.DecodedWords : Prop :=
  let f (nxt : BitVec 3) (tgt : BitVec 8) (pq : BitVec 3) (pg : Bool) (fmt : BitVec 5) (mod : BitVec 4) (d a b c : BitVec 8)
    (x : BitVec 48) : Fields := { nxt, tgt, pq, pg, fmt, mod, d, a, b, c, x }
  decodeEntry false 0 = .nop (f 0 0 0 false 0 0 0 0 0 0 0) ∧
  decodeEntry false 0x0682_0420_0304_4590_0000_0200_0000 = .add (f 4 0x10 1 false 2 0 0x03 0x04 0x45 0x90 0x0000_0200_0000) ∧
  decodeEntry false 0x43E0_00A6_0501_0209_0000_0000_0000 = .fma (f 7 0 0 false 10 6 0x05 0x01 0x02 0x09 0) ∧
  decodeEntry false 0x5B80_4000_0606_9190_0000_0000_001E = .vrot (f 4 2 0 false 0 0 0x06 0x06 0x91 0x90 0x1E) ∧
  decodeEntry false 0xA100_0000_9040_0190_0000_0000_8001 = .st (f 0 0 0 false 0 0 0x90 0x40 0x01 0x90 0x8001) ∧
  decodeEntry false 0xA500_0065_0601_0290_0000_0000_C00A = .atomr (f 0 0 0 false 6 5 0x06 0x01 0x02 0x90 0xC00A) ∧
  decodeEntry false 0xC300_0000_9003_9090_0000_0000_0000 = .ttask (f 0 0 0 false 0 0 0x90 0x03 0x90 0x90 0) ∧
  decodeEntry false 0xE000_0000_6204_9090_0000_0000_0000 = .resume (f 0 0 0 false 0 0 0x62 0x04 0x90 0x90 0) ∧
  decodeEntry false 0xE944_6400_6190_9090_0000_0000_0301 = .barw (f 2 0x23 1 false 0 0 0x61 0x90 0x90 0x90 0x301) ∧
  decodeEntry false 0xF300_0001_9090_9090_0000_0000_0000 = .keywipeAll (f 0 0 0 false 0 1 0x90 0x90 0x90 0x90 0)

/-! ## The step -/

/-- R105, R194: a step of a PE that holds a firing runs the instruction that its entry decodes to, at a later time, or fails the fetch
of an entry that cannot be corrected; a step of another unit runs its event; a PE without a firing issues nothing. That a list of agents
says who acts is the model's choice (log entries 2 and 24). -/
def Obligations.StepRunsDecoded : Prop :=
  let later (s : State) (as : List Agent) : State := { s with now := s.now + Config.elapse s.free, free := s.free + 1, agenda := as }
  (∀ pe slot i as s, s.agenda = .issue pe :: as → pe < 32768 → s.firingSlot pe = some slot →
    (s.entry pe (s.task pe slot).pc.toNat).ue = false → i.wf = true →
    encode i = some ((s.entry pe (s.task pe slot).pc.toNat).literal, (s.entry pe (s.task pe slot).pc.toNat).word) →
    step s = exec i { later s as with cur := pe }) ∧
  (∀ pe slot as s, s.agenda = .issue pe :: as → pe < 32768 → s.firingSlot pe = some slot →
    (s.entry pe (s.task pe slot).pc.toNat).ue = true →
    step s = .next ((later s as).fetchFault pe slot (s.entry pe (s.task pe slot).pc.toNat).word)) ∧
  (∀ pe as s, s.agenda = .issue pe :: as → pe < 32768 → s.firingSlot pe = none → step s = .next (later s as)) ∧
  (∀ i as s, s.agenda = .event i :: as → i.wf = true → encode i = none → step s = exec i (later s as)) ∧
  ∀ s, s.agenda = [] → ∃ a, a.wf = true ∧ step s = step { s with agenda := [a] }

/-- R187 (the machine never stops at an instruction: a failing one emits poison): every instruction answers a next state, and so does
every step but one whose agenda names a unit that the package does not have. -/
def Obligations.EveryInstructionAnswers : Prop :=
  (∀ i s, ∃ t, exec i s = .next t) ∧
  ∀ s, (∀ a as, s.agenda = a :: as → a.wf = true) → ∃ t, step s = .next t

/-- The memories of the reset state stand in their canonical form. -/
def Obligations.ResetMemoryCanonical : Prop := State.reset.memWf

/-- Every step keeps the canonical form of the pools and of the package's memory. -/
def Obligations.StepKeepsMemoryCanonical : Prop :=
  ∀ s t, s.memWf → step s = .next t → t.memWf

/-- R11, R92, R95, R134, R136, R332, R450, R451, R469, R481: the reset values that the manual gives. -/
def Obligations.ResetValues : Prop :=
  (∀ pe n, State.reset.reg pe n = 0 ∧ State.reset.predOf pe n = 0 ∧ State.reset.entry pe n = {} ∧
    (State.reset.chooser pe).rrptr = 7 ∧ (State.reset.peDetector pe).half = false) ∧
  decodeEntry (State.reset.entry 0 0).literal (State.reset.entry 0 0).word = .nop ⟨0, 0, 0, false, 0, 0, 0, 0, 0, 0, 0⟩ ∧
  (∀ pe k, (State.reset.task pe k).st = .empty ∧ (State.reset.task pe k).ret = none ∧ (State.reset.task pe k).lc0 = 0 ∧
    (State.reset.task pe k).lc1 = 0 ∧ (State.reset.task pe k).lc2 = 0 ∧ (∀ p, (State.reset.task pe k).adv p = 0) ∧
    (State.reset.task pe k).age = 0 ∧ (State.reset.task pe k).lanecfg = 0 ∧ (State.reset.task pe k).barp = none ∧
    (State.reset.task pe k).prec = none ∧ (State.reset.task pe k).trapcause = 0 ∧ (State.reset.task pe k).trapcnt = 0) ∧
  (∀ d dom, (State.reset.dieOf d).nocWrr = 0x0202_0808 ∧
    (State.reset.dieOf d).agePromote = 256 ∧ (State.reset.dieOf d).sched.ageDispatch = 20 ∧ (State.reset.dieOf d).evmask = 0xFFFF ∧
    State.reset.phaseOf d dom = 0 ∧ (State.reset.ctxSched d dom).repver = false ∧ State.reset.cycleOf d = 0) ∧
  (∀ k, State.reset.migrateWait k = 4096 ∧ State.reset.limitsOf k = { elim := 256, clim := 127 }) ∧
  State.reset.hub.wdogDflt = 22 ∧ State.reset.hub.linkhold = 5000 ∧
  (∀ dom, (State.reset.ctx dom).trapq = 0 ∧ (State.reset.ctx dom).savea = 0 ∧ (State.reset.ctx dom).savesz = 0 ∧
    (State.reset.ctx dom).cst = if dom = 0 then 1 else 0) ∧
  (∀ k, State.reset.measReg k = 0) ∧ State.reset.sag.token = none ∧
  State.reset.fab.fabricId = 0 ∧ State.reset.fab.moduleId = 0 ∧ (∀ m, State.reset.mapEntry m = { pri := 15, alt := 15, rv := false }) ∧
  ∀ l, (State.reset.fabLink l).st = .disabled

/-! ## Sequencing and exceptions -/

/-- R14, R15, R16: `NOP` does nothing else, and after any instruction `NXT` selects the next entry from the state that the
instruction's own effect leaves. Nothing but the task changes. -/
def Obligations.SequenceNext : Prop :=
  (∀ w slot s, Ready { op := 0 } w slot s → Performs (.nop w) 0 w slot s s) ∧
  ∀ pe slot op w (m : State),
    let t := m.sequence pe slot op w
    let x := m.task pe slot
    let y := t.task pe slot
    let q := m.predOf pe w.pq.toNat
    let v := x.lc (w.pq.toNat % 4) - 1
    (w.nxt = 0 → y = { x with pc := x.pc + 1, wait := .none }) ∧
    (w.nxt = 1 → y = { x with pc := w.tgt, wait := .none }) ∧
    (w.nxt = 2 → y = { x with pc := if q ≠ 0 then w.tgt else x.pc + 1, wait := .none }) ∧
    (w.nxt = 3 → y = { x with pc := if q = 0 then w.tgt else x.pc + 1, wait := .none }) ∧
    (w.nxt = 4 → loopOk w = true →
      y = { x.setLc (w.pq.toNat % 4) v with pc := if v ≠ 0 then w.tgt else x.pc + 1, wait := .none }) ∧
    (w.nxt = 4 → loopOk w = false → y = { x with pc := x.pc + 1, wait := .none }) ∧
    (w.nxt = 5 → y = { x with ret := some (x.pc + 1), pc := w.tgt, wait := .none }) ∧
    (∀ e, w.nxt = 6 → x.ret = some e → y = { x with ret := none, pc := e, wait := .none }) ∧
    (w.nxt = 6 → x.ret = none →
      t = ((m.touch (coreOfPe pe)).emit pe slot Cause.illegalOperand (op.toNat + 9 * 256)).endFiring pe slot Cause.rateMismatch) ∧
    (w.nxt = 7 → t = (m.touch (coreOfPe pe)).endFiring pe slot Cause.rateMismatch) ∧
    (w.nxt ≠ 7 → (w.nxt ≠ 6 ∨ x.ret ≠ none) →
      t = { m with act := t.act, unit := { m.unit with tasks := t.unit.tasks } } ∧
      ∀ k, k ≠ 8 * pe + slot → t.unit.tasks.find k {} = m.unit.tasks.find k {})

/-- R109, R111, R113, R191: at the end of a firing every declared port has advanced by its count at least, the task is IDLE, and a
record that no token carried is counted. Registers, predicates and memories keep their values. -/
def Obligations.FiringEnds : Prop :=
  ∀ pe slot cause (m : State),
    let t := m.endFiring pe slot cause
    let x := m.task pe slot
    let y := t.task pe slot
    y.st = .idle ∧ y.wait = .none ∧ y.pc = x.pc ∧
    (∀ p < 12, (x.port p).declared = true → y.adv p = Nat.max (x.adv p) (x.port p).count) ∧
    (x.shortPorts = 0 → (x.prec = none ∨ x.ps = true) → y = { x with st := .idle, wait := .none }) ∧
    (∀ r, x.shortPorts = 0 → x.prec = some r → x.ps = false → y = { x.counted r with st := .idle, wait := .none, ps := true }) ∧
    t.unit.regs = m.unit.regs ∧ t.unit.preds = m.unit.preds ∧ t.unit.store = m.unit.store ∧ t.core.pool = m.core.pool ∧ t.mem = m.mem

/-- R12, R13: an instruction that fails a check has one effect, a poison token that taints its task, and goes on by `NXT`; the
domain's right is checked before the fields, and these in the order `NXT`, `FMT`, `MOD`, `D`, `A`, `B`, `C`, `X` (for the order within
the fields, log entry 21). -/
def Claims.FailedChecks : Prop :=
  (∀ spec w slot body s c d, s.firingSlot s.cur = some slot → (s.at spec w slot).check = some (c, d) →
    runInstr spec w body s = .next ((s.emit s.cur slot c d).sequence s.cur slot (BitVec.ofNat 8 spec.op) w)) ∧
  (∀ spec w slot (s : State), (s.at spec w slot).barred = true → (s.at spec w slot).check = some (Cause.protection, spec.op)) ∧
  (∀ spec w slot (s : State) f, (s.at spec w slot).barred = false → (s.at spec w slot).badField = some f →
    (s.at spec w slot).check = some (Cause.illegalOperand, spec.op + 256 * f)) ∧
  (∀ spec w slot (s : State), (s.at spec w slot).barred = false → w.nxt = 4 → loopOk w = false →
    (s.at spec w slot).check = some (Cause.illegalOperand, spec.op + 256 * 1)) ∧
  (∀ spec w slot (s : State) fs, (s.at spec w slot).barred = false → (s.at spec w slot).nxtOk = true → spec.fmts = some fs →
    w.fmt.toNat ∉ fs → (s.at spec w slot).check = some (Cause.illegalOperand, spec.op + 256 * 2)) ∧
  ∀ pe slot c d (s : State),
    let t := s.emit pe slot c d
    t = { s with unit := { s.unit with tasks := t.unit.tasks } } ∧
    (∀ k, k ≠ 8 * pe + slot → t.unit.tasks.find k {} = s.unit.tasks.find k {}) ∧
    t.task pe slot = { s.task pe slot with prec := (t.task pe slot).prec, ps := (t.task pe slot).ps } ∧
    (t.task pe slot).prec ≠ none

/-- R12, R26, R135: outside domain 0 a supervisor-only instruction only emits PROTECTION, whatever its fields hold, and so do a read
of `%trapq` or `%savearea` and a write of a register that domain 0 alone may write; in every domain `MEXT` of meas[0] to meas[7] does (R148). -/
def Obligations.SupervisorOnly : Prop :=
  let barred (c : Fields → Instr) (op : Nat) : Prop :=
    ∀ w slot s, s.firingSlot s.cur = some slot → s.domOf (coreOfPe s.cur) ≠ 0 →
      Performs (c w) op w slot s (s.emit s.cur slot Cause.protection op)
  barred .resume 0xE0 ∧ barred .resumeFail 0xE0 ∧ barred .keywipe 0xF3 ∧ barred .keywipeAll 0xF3 ∧ barred .dbgopen 0xF4 ∧
  barred .fuserd 0xF5 ∧ barred .wdog 0xF7 ∧
  (∀ w slot s n, s.firingSlot s.cur = some slot → s.domOf (coreOfPe s.cur) ≠ 0 → opnd w.d = .csr n → 0x12 ≤ n → n ≤ 0x1A →
    Performs (.csrw w) 0xEE w slot s (s.emit s.cur slot Cause.protection 0xEE)) ∧
  (∀ w slot s n, s.firingSlot s.cur = some slot → s.domOf (coreOfPe s.cur) ≠ 0 → opnd w.a = .csr n → (n = 0x19 ∨ n = 0x1A) →
    Performs (.csrr w) 0xED w slot s (s.emit s.cur slot Cause.protection 0xED)) ∧
  let mext : OpSpec := { op := 0xF0, perLane := false, a := .src, prot := fun _ imm => decide (imm % 16 < 8) }
  ∀ w slot s, s.firingSlot s.cur = some slot → (s.at mext w slot).imm % 16 < 8 →
    Performs (.mext w) 0xF0 w slot s (s.emit s.cur slot Cause.protection 0xF0)

/-- R17: with the guard off these instructions of the unit and the task do nothing, and go on by `NXT`. -/
def Claims.OffUnit : Prop :=
  SkipsOff .ldl (fun _ => { op := 0x04, d := .dst, perLane := false, xok := fun s _ imm => (s.entry s.cur (imm % 256)).literal }) ∧
  SkipsOff .lcset (fun _ => { op := 0x2E, d := .lcOnly, a := .src, perLane := false }) ∧
  SkipsOff .lcget (fun _ => { op := 0x2F, d := .dst, a := .lcOnly, perLane := false }) ∧
  SkipsOff .sad (fun _ => { spec3 0x34 intFmts with perLane := false }) ∧
  SkipsOff .fence (fun _ => { op := 0xAA, d := .dst, perLane := false, xok := fun _ _ imm => decide (fieldNat 0 3 imm < 6) }) ∧
  SkipsOff .adv (fun _ => { portSpec 0xAB with a := { portIn := true, portOut := true }, b := .src, xok := fun _ w _ => bitsOf 32 8 w.x = 0 }) ∧
  SkipsOff .emit (fun _ => { portSpec 0xAC with
    fmts := some (List.range 15), d := { portOut := true }, a := .src, xok := fun _ w _ => bitsOf 40 8 w.x = 0 }) ∧
  SkipsOff .emitm (fun _ => { portSpec 0xAD with d := { portOut := true }, a := .immOnly, xok := fun _ w _ => bitsOf 40 8 w.x = 0 }) ∧
  SkipsOff .testm (fun _ => { portSpec 0xAE with d := .predOnly, a := { portIn := true }, xok := fun _ w _ => bitsOf 32 8 w.x = 0 }) ∧
  SkipsOff .nxtile (fun _ => { portSpec 0xAF with d := { chanOut := true }, c := .predOnly }) ∧
  SkipsOff .trap (fun _ => { op := 0xEC, perLane := false }) ∧
  SkipsOff .yield (fun _ => { op := 0xF6, perLane := false, noDone := true })

/-- R17: with the guard off these instructions of the memory nodes do nothing, and go on by `NXT`. -/
def Claims.OffNodes : Prop :=
  SkipsOff .ld (fun _ => { specMem 0xA0 with d := .dst }) ∧
  SkipsOff .st (fun _ => { specMem 0xA1 with b := .srcNoImm }) ∧
  SkipsOff .ldv (fun _ => { specMem 0xA2 with d := .dst }) ∧
  SkipsOff .stv (fun _ => { specMem 0xA3 with b := .srcNoImm }) ∧
  SkipsOff .atom (fun w => { specMem 0xA4 with fmts := some (atomFmts w), mods := fun w => w.mod.toNat < 8, b := .srcNoImm }) ∧
  SkipsOff .atomr (fun w => { specMem 0xA5 with
    fmts := some (atomFmts w), mods := fun w => w.mod.toNat < 8, d := .dst, b := .srcNoImm }) ∧
  SkipsOff .cas (fun _ => { specMem 0xA6 with fmts := some (word64Fmts ++ [10, 11]), d := .dst, b := .srcNoImm, c := .srcNoImm }) ∧
  SkipsOff .hins (fun _ => { specMem 0xA7 (some .ordered) with fmts := some [2, 6, 10], d := .predOnly }) ∧
  SkipsOff .copy (fun _ => { specMem 0xA8 with a := .srcNoChan, b := .srcNoChan, c := .srcNoChan }) ∧
  SkipsOff .fill (fun _ => { specMem 0xA9 with b := .srcNoImm, c := .srcNoImm })

/-- R17: with the guard off these instructions of the Comets and the Kilns do nothing, and go on by `NXT`. -/
def Claims.OffCluster : Prop :=
  SkipsOff .sopen (fun _ => { specStream 0xB0 with d := .streamOnly, a := .src, b := .src }) ∧
  SkipsOff .sadv (fun _ => { specStream 0xB1 with a := .streamOnly, b := .src }) ∧
  SkipsOff .stend (fun _ => { specStream 0xB2 with d := .predOnly, a := .streamOnly }) ∧
  SkipsOff .sclose (fun _ => { specStream 0xB3 with a := .streamOnly }) ∧
  SkipsOff .fopen (fun _ => { specStream 0xB4 with
    mods := fun w => w.mod &&& 0b1110 = 0, d := .fibreOnly, a := { Pos.src with chanIn := false, chanOut := false } }) ∧
  SkipsOff .fadv (fun _ => { specStream 0xB5 with a := .fibreOnly, b := .src }) ∧
  SkipsOff .ftend (fun _ => { specStream 0xB6 with d := .predOnly, a := .fibreOnly }) ∧
  SkipsOff .fclose (fun _ => { specStream 0xB7 with a := .fibreOnly }) ∧
  SkipsOff .fisect (fun _ => { specStream 0xB8 with d := .dst, a := .fibreOnly, b := .fibreOnly, c := .predOnly }) ∧
  SkipsOff .fisectc (fun _ => { specStream 0xB9 with d := .dst, a := .fibreOnly, b := .fibreOnly }) ∧
  SkipsOff .sread (fun _ => { specStream 0xBA with mods := fun w => w.mod &&& 0b1110 = 0, d := .dst, a := { stream := true, fibre := true } }) ∧
  SkipsOff .tclaim (fun _ => { specKiln 0xC0 with d := .dst, a := .src }) ∧
  SkipsOff .trel (fun _ => { specKiln 0xC1 with a := .src, b := .src }) ∧
  SkipsOff .tfill (fun _ => { specKiln 0xC2 with a := .srcNoImm, b := .srcNoImm, xok := fun _ _ imm => decide (fieldNat 13 2 imm < 3) }) ∧
  SkipsOff .ttask (fun _ => { specKiln 0xC3 with a := { reg := true, chanIn := true, chanOut := true } }) ∧
  SkipsOff .twait (fun _ => (specCtr 0xC4)) ∧
  SkipsOff .tstat (fun _ => { specKiln 0xC5 with
    d := .dst, xok := fun _ _ imm => decide (imm % 64 ≤ 32), prot := fun s imm => decide (imm % 64 < 32) && foreignCtr s (imm % 32) }) ∧
  SkipsOff .ovfcfg (fun _ => { specKiln 0xC8 with a := .src }) ∧
  SkipsOff .tdep (fun _ => { specCtr 0xC9 with mods := fun w => w.mod &&& 0b1110 = 0 }) ∧
  SkipsOff .tdepAdd (fun _ => { specCtr 0xC9 with mods := fun w => w.mod &&& 0b1110 = 0 }) ∧
  SkipsOff .cpy (fun _ => { specComet 0xD8 with
    a := .srcWide, b := .srcWide, c := .srcWide
    xok := fun _ _ imm => decide (fieldNat 18 2 imm < 2) && decide (fieldNat 16 2 imm < 2) && fieldNat 10 6 imm = 0 }) ∧
  SkipsOff .gath (fun _ => (specGather 0xD9)) ∧
  SkipsOff .scat (fun _ => (specGather 0xDA)) ∧
  SkipsOff .fgrd (fun _ => { specComet 0xDB with mods := fun w => w.mod &&& 0b1110 = 0, d := .dst, a := .src }) ∧
  SkipsOff .fgwr (fun _ => { specComet 0xDC with mods := fun w => w.mod &&& 0b1110 = 0, a := .src, b := .src }) ∧
  SkipsOff .xchg (fun _ => specXchg) ∧
  SkipsOff .xchgRaw (fun _ => specXchg) ∧
  SkipsOff .ratom (fun w => { specComet 0xDE with
    fmts := some (atomFmts w), mods := fun w => w.mod.toNat < 8, d := { Pos.dst with chanOut := false }, a := .srcWide, b := .srcWide }) ∧
  SkipsOff .cwait (fun _ => { specComet 0xDF with d := .dst, a := .src }) ∧
  SkipsOff .resume (fun _ => specResume) ∧
  SkipsOff .resumeFail (fun _ => specResume) ∧
  SkipsOff .pref (fun _ => { specComet 0xE1 with a := .src, b := .src })

/-- R17: with the guard off these instructions of the barriers and the system do nothing, and go on by `NXT`. -/
def Claims.OffSystem : Prop :=
  SkipsOff .bara (fun _ => { specBar 0xE8 with a := .src }) ∧
  SkipsOff .barw (fun _ => { specBar 0xE9 with d := .predOnly, mods := fun w => w.mod &&& 0b1110 = 0 }) ∧
  SkipsOff .barwT (fun _ => { specBar 0xE9 with d := .predOnly, mods := fun w => w.mod &&& 0b1110 = 0 }) ∧
  SkipsOff .barex (fun _ => (specBar 0xEA)) ∧
  SkipsOff .launch (fun _ => { op := 0xEB, perLane := false, d := .predOnly, a := .src }) ∧
  SkipsOff .csrr (fun _ => { op := 0xED, perLane := false, d := .dst, a := .csrOnly }) ∧
  SkipsOff .csrw (fun _ => { op := 0xEE, perLane := false, d := .csrDst, a := .src }) ∧
  SkipsOff .evlog (fun _ => { op := 0xEF, perLane := false, a := .src }) ∧
  SkipsOff .mext (fun _ => { op := 0xF0, perLane := false, a := .src, prot := fun _ imm => decide (imm % 16 < 8) }) ∧
  SkipsOff .attest (fun _ => { op := 0xF1, perLane := false, d := .predOnly, a := .src }) ∧
  SkipsOff .sagvfyUnlock (fun _ => specSagvfy) ∧
  SkipsOff .sagvfyManifest (fun _ => specSagvfy) ∧
  SkipsOff .keywipe (fun _ => { op := 0xF3, perLane := false, super := true, a := .src, mods := fun w => w.mod &&& 0b1110 = 0 }) ∧
  SkipsOff .keywipeAll (fun _ => { op := 0xF3, perLane := false, super := true, a := .src, mods := fun w => w.mod &&& 0b1110 = 0 }) ∧
  SkipsOff .dbgopen (fun _ => { op := 0xF4, perLane := false, super := true, d := .predOnly }) ∧
  SkipsOff .fuserd (fun _ => { op := 0xF5, perLane := false, super := true, d := .dst, xok := fun _ _ imm => decide (imm % 64 < 48) }) ∧
  SkipsOff .wdog (fun _ => { op := 0xF7, perLane := false, super := true, a := .src, b := .src })

/-- R17: with its guard off an instruction without lanes does nothing, and goes on by `NXT`. -/
def Obligations.GuardOff : Prop := Claims.OffUnit ∧ Claims.OffNodes ∧ Claims.OffCluster ∧ Claims.OffSystem

/-- R193: a register whose parity fails is rewritten from the operand log and the instruction runs again; without a log entry, or once
the register is damaged, the instruction emits RF_PARITY; a write under a full guard clears the damage. Said of `MOV`, `MAD`, `LDIH` and `ST`, which
read a register at each of the positions A, B, C and D, whatever their guard holds: that a guard that is off leaves the check standing is the model's
choice (log entry 100). -/
def Obligations.RegisterParity : Prop :=
  let parity (c : Fields → Instr) (sp : OpSpec) : Prop :=
    let reads (w : Fields) (slot n : Nat) (s : State) : Prop :=
      s.firingSlot s.cur = some slot ∧ (s.task s.cur slot).wait = .none ∧ (s.at sp w slot).check = none ∧ n ∈ (s.at sp w slot).regsRead ∧
        ∀ k ∈ (s.at sp w slot).regsRead, k ≠ n → s.badReg s.cur k = false ∧ s.damagedReg s.cur k = false
    (∀ w slot n m v s, reads w slot n s → s.badReg s.cur n = true → s.damagedReg s.cur n = false →
      (s.oplog s.cur).find? (fun e => e.1 = n) = some (m, v) →
      exec (c w) s = exec (c w)
        (((s.setReg s.cur n v).setBadReg s.cur n false).peEvent s.cur 0x2001 slot (s.task s.cur slot).pc.toNat false)) ∧
    (∀ w slot n s, reads w slot n s → s.badReg s.cur n = true → s.damagedReg s.cur n = false →
      (s.oplog s.cur).find? (fun e => e.1 = n) = none →
      Performs (c w) sp.op w slot s
        ((((s.setDamagedReg s.cur n true).setBadReg s.cur n false).peEvent s.cur 0x2002 slot (s.task s.cur slot).pc.toNat true).emit
          s.cur slot Cause.rfParity n)) ∧
    ∀ w slot n s, reads w slot n s → s.damagedReg s.cur n = true →
      Performs (c w) sp.op w slot s (s.emit s.cur slot Cause.rfParity n)
  let mov : OpSpec := spec1 0x01 (List.range 15)
  parity .mov mov ∧ parity .mad { spec3 0x11 intFmts with mods := modSat } ∧
  parity .ldih { op := 0x03, fmts := some [2, 3, 6, 7], d := .regOnly, a := .immOnly, readsD := true } ∧
  parity .st { specMem 0xA1 with b := .srcNoImm } ∧
  ∀ w slot n s, Ready mov w slot s → opnd w.d = .reg n → ¬(s.at mov w slot).Masked (s.at mov w slot).lw →
    ∃ m, Performs (.mov w) 0x01 w slot s m ∧
      m.damagedReg s.cur n = (if (s.at mov w slot).guard = 0xFFFFFFFF then false else s.damagedReg s.cur n) ∧
      (m.oplog s.cur).head? = some (n, m.reg s.cur n)

/-- R187, R189, R190, R191: a poison record holds its origin in these fields; the first record taints its task and later ones are
counted in it; a tainted task publishes its record in place of a token, and counts that. -/
def Obligations.PoisonRecords : Prop :=
  (∀ pe slot pc c d code (s : State), c < 256 → d < 2 ^ 48 → pe < 32768 → slot < 8 → code < 2 ^ 16 →
    let r := s.taskRecord pe slot pc c d code
    recCause r = c ∧ recDetail r = d ∧ recNsup r = 0 ∧ bitsOf 248 8 r = 1 ∧ bitsOf 216 16 r = code ∧ bitsOf 212 4 r = 0 ∧
    recDie r = pe / 4096 ∧ bitsOf 205 4 r = pe / 256 % 16 ∧ bitsOf 201 4 r = pe / 16 % 16 ∧ bitsOf 197 4 r = pe % 16 ∧
    bitsOf 194 3 r = slot ∧ bitsOf 186 8 r = pc.toNat ∧ recStamp r = s.cycleOf (pe / 4096)) ∧
  (∀ pe slot c d code (s : State), (s.task pe slot).prec = none →
    ((s.emit pe slot c d code).task pe slot) =
      { s.task pe slot with prec := some (s.taskRecord pe slot (s.task pe slot).pc c d code), ps := false }) ∧
  (∀ pe slot c d code p (s : State), (s.task pe slot).prec = some p →
    ((s.emit pe slot c d code).task pe slot) = { s.task pe slot with prec := some (bumpNsup p) }) ∧
  (∀ p, recNsup (bumpNsup p) = Nat.min 255 (recNsup p + 1) ∧ bitsOf 0 240 (bumpNsup p) = bitsOf 0 240 p ∧
    bitsOf 248 8 (bumpNsup p) = bitsOf 248 8 p) ∧
  ∀ pe slot h r (s : State), (s.task pe slot).prec = some r →
    let t := s.publishWindow1 pe slot h
    let k := (s.handle pe h).slotAt 0
    t.slotOf pe k = { payload := r, poison := true, dom := s.domOf (coreOfPe pe) } ∧ (t.handle pe h).cnt = (s.handle pe h).cnt + 1 ∧
    t.task pe slot = { (s.task pe slot).counted r with ps := true }

/-! ## Statements of several parts -/

/-- R12, R13, R27, R111, R194: an instruction that fails a check emits one poison token and goes on by `NXT`; at a literal entry, or an entry that
failed its own check, the firing ends. The order in which the fields are checked is the model's reading (log entry 21), and that an entry with a
failed check ends the firing too (log entry 23). -/
def Obligations.FailedChecks : Prop :=
  Claims.FailedChecks ∧ Claims.BadEntries

/-- R122, R123, R125, R127: the moves, the integer arithmetic and the widening instructions complete and write these lanes. An immediate or a lane
index in a wide operand stands in that operand's own lanes, which is the model's reading (log entry 99). -/
def Obligations.IntegerArithmetic : Prop :=
  Claims.IntegerLanes ∧ Claims.WideLanes

/-- R124, R126, R188: carry chains, and division with its results for a zero divisor and for overflow. `DETAIL` of R188 names every lane with a zero
divisor, disabled ones too, which is the model's reading (log entry 25). -/
def Obligations.CarriesAndQuotients : Prop :=
  Claims.CarryLanes ∧ Claims.Quotients

/-- R128, R129, R119: bitwise logic, shifts, rotations, counts and bit fields. `SAR` of an n format shifts the sign in (log entry 26), and the bits of
`X` that an opcode does not use are ignored (log entry 27): the model's readings. -/
def Obligations.BitOperations : Prop :=
  Claims.BitwiseLogic ∧ Claims.ShiftsAndFields

/-- R130 to R133, R118, R17: comparison, selection, packing, predicates, literals and loop counters. `LDL` of an entry that failed its check (log
entry 101) and the immediate of `QMOV` (log entry 22) are read as those entries say. -/
def Obligations.ComparesAndPredicates : Prop :=
  Claims.CompareSelectPack ∧ Claims.Predicates ∧ Claims.LoopCounters

/-- R159 to R166: the floating-point instructions. An immediate in `C` of `FDOT` stands in f32 lanes, which is the model's reading (log entry 99). -/
def Obligations.FloatLanes : Prop :=
  Claims.FloatArithmetic ∧ Claims.FloatSelection

/-- R167 to R175: reductions, scans and the instructions that move lanes. -/
def Obligations.LanesMove : Prop :=
  Claims.Reductions ∧ Claims.LaneMovement ∧ Claims.Rotations

/-- R177 to R184: conversions between formats, and packed trits. -/
def Obligations.FormatsConvert : Prop :=
  Claims.Conversions ∧ Claims.Trits

/-- R134 to R138, R144 to R147, R153, R371, R493: special registers, launches, traps, yields, events and watchdog limits. The poster of a `LAUNCH` has
read its packet (R371); a write of %age_dispatch completes once the die that makes it has applied the notice (R371, R493). -/
def Obligations.SystemInstructions : Prop :=
  Claims.SystemRegisters ∧ Claims.Launches ∧ Claims.TrapsAndYields

/-- R148 to R152, R474: the instructions that ask the Saggar, read fuses and wipe keys; `DBGOPEN` loads slot 0 again (R474). An `A` that is not
aligned takes ILLEGAL_OPERAND, field 5 (log entry 122), `KEYWIPE.all` takes any slot number (log entry 42), and the byte order of the measurement is
the model's choice (log entry 121). -/
def Obligations.SecurityInstructions : Prop :=
  Claims.SaggarRequests ∧ Claims.KeysAndFuses

/-- R141 to R143, R262, R264, R265, R364: arming, arriving at, testing and leaving a counter. Fields 8 and the names that a pending arrival covers are
the model's (log entry 64), and so is the order of the checks of a break and of the pending arrival (log entry 128). -/
def Obligations.Barriers : Prop :=
  Claims.BarrierArm ∧ Claims.BarrierArrive ∧ Claims.BarrierExit

/-- R100, R101, R105, R108, R112: how a firing begins, and realignment. The PC in the record of a realignment, and a marker firing as one step, are
the model's choice (log entry 60). -/
def Obligations.Firings : Prop :=
  Claims.FiringsBegin ∧ Claims.Realignment

/-- R235 to R240, R242: posted and blocking memory instructions at their node's port. -/
def Obligations.MemoryRequests : Prop :=
  Claims.PostedRequests ∧ Claims.BlockingRequests ∧ Claims.RequestFrame

/-- R97, R98, R199 to R203: the ports of a router move tokens along its routes. -/
def Obligations.Routes : Prop :=
  Claims.RoutesMove ∧ Claims.DeliveryToPe

/-- R206, R209 to R212: the stateless operators on data and on markers. -/
def Obligations.Operators : Prop :=
  Claims.OperatorsFire ∧ Claims.OperatorMarkers

/-- R279, R280, R281, R295, R298, R299, R301, R363: graph ports, and commands that perform. The bodies of the packets are the model's own (log entry
36). -/
def Obligations.CometAccesses : Prop :=
  Claims.GraphPorts ∧ Claims.CommandsPerform

/-- R282, R294 to R303: Comet commands, completion counters and parked accesses. -/
def Obligations.CometInstructions : Prop :=
  Claims.CometCommands ∧ Claims.CompletionCounters ∧ Claims.ParkedAccesses

/-- R286 to R293: the stream and fibre registers. The body of the packet that returns a line is the model's choice (log entry 36), and a full slice is
read as log entry 80 says. -/
def Obligations.StreamsAndFibres : Prop :=
  Claims.StreamRegisters ∧ Claims.Fibres

/-- R312, R332 to R339: operand slots, records, limits, dependence counters and scaling. That a fill takes its format when it issues is the model's
choice (log entry 72). -/
def Obligations.KilnControl : Prop :=
  Claims.KilnInstructions ∧ Claims.KilnCounters

/-- R316, R317, R322 to R328, R333: the Kiln's records, sub-tiles and fills. That the first migration step notes when a record became ready, and that
a spill writes when it ends, are the model's choice (log entry 72). -/
def Obligations.KilnRuns : Prop :=
  Claims.KilnEvents ∧ Claims.OperandFills

/-- R192, R377, R384 to R387, R412, R414, R415, R423, R431, R457, R474: saves, commits, phases and trap queues, with the records that the hub holds
for domain 0 (R474). -/
def Obligations.SavesPhasesTraps : Prop :=
  Claims.SavesAndPhases ∧ Claims.TrapQueueWrites

/-- R478 to R485, R490 to R492: links between modules and the bodies they carry. Which bodies are sent again to a module that joins, the identity's
among them (log entry 120), and that FBREAK is kept (log entry 86), are the model's choice. -/
def Obligations.FabricTraffic : Prop :=
  Claims.BexwenLinks ∧ Claims.FabricBodies

/-- R131: `SEL` takes each lane from A or from B, bit for bit, by the bit of the predicate C, in the integer formats and, whatever the lane width, the
floating-point ones; its guard acts on what it has selected; b1, lg6 and t5 are illegal operands. -/
def Obligations.SelectLanes : Prop :=
  let sp : OpSpec := { spec2 0x24 (intFmts ++ floatFmts) with c := .predOnly }
  WritesLanes .sel (fun _ => sp) Issue.lw (fun x k => if (x.predVal x.w.c).getLsbD k then x.a k else x.b k) ∧
  (∀ w slot s, s.firingSlot s.cur = some slot → (s.at sp w slot).barred = false → (w.fmt = 12 ∨ w.fmt = 13 ∨ w.fmt = 14) →
    ∃ d, Performs (.sel w) 0x24 w slot s (s.emit s.cur slot Cause.illegalOperand d)) ∧
  ∀ w slot (s : State), 8 ≤ w.fmt.toNat → w.fmt.toNat ≤ 11 → (s.at sp w slot).fmtOk = true
end

