-- ==== Sys2Proof/Laws/Dispatch.lean ====
section
/-! SUPPORT. Each arm of the dispatch, by name. -/
namespace Sys2Proof.Machine

theorem exec_nop w (s : State) : exec (.nop w) s = execNop w s := rfl
theorem exec_mov w (s : State) : exec (.mov w) s = execMov w s := rfl
theorem exec_ldi w (s : State) : exec (.ldi w) s = execLdi w s := rfl
theorem exec_ldih w (s : State) : exec (.ldih w) s = execLdih w s := rfl
theorem exec_ldl w (s : State) : exec (.ldl w) s = execLdl w s := rfl
theorem exec_lea w (s : State) : exec (.lea w) s = execLea w s := rfl
theorem exec_add w (s : State) : exec (.add w) s = execAdd w s := rfl
theorem exec_addc w (s : State) : exec (.addc w) s = execAddc w s := rfl
theorem exec_sub w (s : State) : exec (.sub w) s = execSub w s := rfl
theorem exec_subb w (s : State) : exec (.subb w) s = execSubb w s := rfl
theorem exec_neg w (s : State) : exec (.neg w) s = execNeg w s := rfl
theorem exec_abs w (s : State) : exec (.abs w) s = execAbs w s := rfl
theorem exec_min w (s : State) : exec (.min w) s = execMin w s := rfl
theorem exec_max w (s : State) : exec (.max w) s = execMax w s := rfl
theorem exec_clamp w (s : State) : exec (.clamp w) s = execClamp w s := rfl
theorem exec_mul w (s : State) : exec (.mul w) s = execMul w s := rfl
theorem exec_mulh w (s : State) : exec (.mulh w) s = execMulh w s := rfl
theorem exec_mad w (s : State) : exec (.mad w) s = execMad w s := rfl
theorem exec_div w (s : State) : exec (.div w) s = execDiv w s := rfl
theorem exec_rem w (s : State) : exec (.rem w) s = execRem w s := rfl
theorem exec_adds w (s : State) : exec (.adds w) s = execAdds w s := rfl
theorem exec_subs w (s : State) : exec (.subs w) s = execSubs w s := rfl
theorem exec_avg w (s : State) : exec (.avg w) s = execAvg w s := rfl
theorem exec_absd w (s : State) : exec (.absd w) s = execAbsd w s := rfl
theorem exec_sad w (s : State) : exec (.sad w) s = execSad w s := rfl
theorem exec_wmul w (s : State) : exec (.wmul w) s = execWmul w s := rfl
theorem exec_wadd w (s : State) : exec (.wadd w) s = execWadd w s := rfl
theorem exec_doti w (s : State) : exec (.doti w) s = execDoti w s := rfl
theorem exec_and w (s : State) : exec (.and w) s = execAnd w s := rfl
theorem exec_or w (s : State) : exec (.or w) s = execOr w s := rfl
theorem exec_xor w (s : State) : exec (.xor w) s = execXor w s := rfl
theorem exec_andn w (s : State) : exec (.andn w) s = execAndn w s := rfl
theorem exec_orn w (s : State) : exec (.orn w) s = execOrn w s := rfl
theorem exec_shl w (s : State) : exec (.shl w) s = execShl w s := rfl
theorem exec_shr w (s : State) : exec (.shr w) s = execShr w s := rfl
theorem exec_sar w (s : State) : exec (.sar w) s = execSar w s := rfl
theorem exec_rol w (s : State) : exec (.rol w) s = execRol w s := rfl
theorem exec_bfx w (s : State) : exec (.bfx w) s = execBfx w s := rfl
theorem exec_bfi w (s : State) : exec (.bfi w) s = execBfi w s := rfl
theorem exec_popc w (s : State) : exec (.popc w) s = execPopc w s := rfl
theorem exec_clz w (s : State) : exec (.clz w) s = execClz w s := rfl
theorem exec_ctz w (s : State) : exec (.ctz w) s = execCtz w s := rfl
theorem exec_brev w (s : State) : exec (.brev w) s = execBrev w s := rfl
theorem exec_cmp w (s : State) : exec (.cmp w) s = execCmp w s := rfl
theorem exec_sel w (s : State) : exec (.sel w) s = execSel w s := rfl
theorem exec_sext w (s : State) : exec (.sext w) s = execSext w s := rfl
theorem exec_zext w (s : State) : exec (.zext w) s = execZext w s := rfl
theorem exec_packs w (s : State) : exec (.packs w) s = execPacks w s := rfl
theorem exec_qand w (s : State) : exec (.qand w) s = execQand w s := rfl
theorem exec_qor w (s : State) : exec (.qor w) s = execQor w s := rfl
theorem exec_qxor w (s : State) : exec (.qxor w) s = execQxor w s := rfl
theorem exec_qnot w (s : State) : exec (.qnot w) s = execQnot w s := rfl
theorem exec_qmov w (s : State) : exec (.qmov w) s = execQmov w s := rfl
theorem exec_qany w (s : State) : exec (.qany w) s = execQany w s := rfl
theorem exec_lcset w (s : State) : exec (.lcset w) s = execLcset w s := rfl
theorem exec_lcget w (s : State) : exec (.lcget w) s = execLcget w s := rfl
theorem exec_fadd w (s : State) : exec (.fadd w) s = execFadd w s := rfl
theorem exec_fsub w (s : State) : exec (.fsub w) s = execFsub w s := rfl
theorem exec_fmul w (s : State) : exec (.fmul w) s = execFmul w s := rfl
theorem exec_fma w (s : State) : exec (.fma w) s = execFma w s := rfl
theorem exec_fms w (s : State) : exec (.fms w) s = execFms w s := rfl
theorem exec_fnma w (s : State) : exec (.fnma w) s = execFnma w s := rfl
theorem exec_fnms w (s : State) : exec (.fnms w) s = execFnms w s := rfl
theorem exec_fdiv w (s : State) : exec (.fdiv w) s = execFdiv w s := rfl
theorem exec_fmin w (s : State) : exec (.fmin w) s = execFmin w s := rfl
theorem exec_fmax w (s : State) : exec (.fmax w) s = execFmax w s := rfl
theorem exec_fminn w (s : State) : exec (.fminn w) s = execFminn w s := rfl
theorem exec_fmaxn w (s : State) : exec (.fmaxn w) s = execFmaxn w s := rfl
theorem exec_fabs w (s : State) : exec (.fabs w) s = execFabs w s := rfl
theorem exec_fneg w (s : State) : exec (.fneg w) s = execFneg w s := rfl
theorem exec_fcpys w (s : State) : exec (.fcpys w) s = execFcpys w s := rfl
theorem exec_fcmp w (s : State) : exec (.fcmp w) s = execFcmp w s := rfl
theorem exec_fclass w (s : State) : exec (.fclass w) s = execFclass w s := rfl
theorem exec_frint w (s : State) : exec (.frint w) s = execFrint w s := rfl
theorem exec_fdot w (s : State) : exec (.fdot w) s = execFdot w s := rfl
theorem exec_vred w (s : State) : exec (.vred w) s = execVred w s := rfl
theorem exec_vscan w (s : State) : exec (.vscan w) s = execVscan w s := rfl
theorem exec_vperm w (s : State) : exec (.vperm w) s = execVperm w s := rfl
theorem exec_vshuf w (s : State) : exec (.vshuf w) s = execVshuf w s := rfl
theorem exec_vbcast w (s : State) : exec (.vbcast w) s = execVbcast w s := rfl
theorem exec_vsel w (s : State) : exec (.vsel w) s = execVsel w s := rfl
theorem exec_vins w (s : State) : exec (.vins w) s = execVins w s := rfl
theorem exec_vext w (s : State) : exec (.vext w) s = execVext w s := rfl
theorem exec_vrot w (s : State) : exec (.vrot w) s = execVrot w s := rfl
theorem exec_vcmpr w (s : State) : exec (.vcmpr w) s = execVcmpr w s := rfl
theorem exec_vexpd w (s : State) : exec (.vexpd w) s = execVexpd w s := rfl
theorem exec_vzip w (s : State) : exec (.vzip w) s = execVzip w s := rfl
theorem exec_vunzip w (s : State) : exec (.vunzip w) s = execVunzip w s := rfl
theorem exec_vsort w (s : State) : exec (.vsort w) s = execVsort w s := rfl
theorem exec_viota w (s : State) : exec (.viota w) s = execViota w s := rfl
theorem exec_vmask w (s : State) : exec (.vmask w) s = execVmask w s := rfl
theorem exec_cvt w (s : State) : exec (.cvt w) s = execCvt w s := rfl
theorem exec_cvtfi w (s : State) : exec (.cvtfi w) s = execCvtfi w s := rfl
theorem exec_cvtif w (s : State) : exec (.cvtif w) s = execCvtif w s := rfl
theorem exec_lgenc w (s : State) : exec (.lgenc w) s = execLgenc w s := rfl
theorem exec_lgdec w (s : State) : exec (.lgdec w) s = execLgdec w s := rfl
theorem exec_lgmul w (s : State) : exec (.lgmul w) s = execLgmul w s := rfl
theorem exec_t5pack w (s : State) : exec (.t5pack w) s = execT5pack w s := rfl
theorem exec_t5unpk w (s : State) : exec (.t5unpk w) s = execT5unpk w s := rfl
theorem exec_rcp w (s : State) : exec (.rcp w) s = execRcp w s := rfl
theorem exec_rsq w (s : State) : exec (.rsq w) s = execRsq w s := rfl
theorem exec_sqrt w (s : State) : exec (.sqrt w) s = execSqrt w s := rfl
theorem exec_exp2 w (s : State) : exec (.exp2 w) s = execExp2 w s := rfl
theorem exec_lg2 w (s : State) : exec (.lg2 w) s = execLg2 w s := rfl
theorem exec_sinpi w (s : State) : exec (.sinpi w) s = execSinpi w s := rfl
theorem exec_cospi w (s : State) : exec (.cospi w) s = execCospi w s := rfl
theorem exec_tanh w (s : State) : exec (.tanh w) s = execTanh w s := rfl
theorem exec_erf w (s : State) : exec (.erf w) s = execErf w s := rfl
theorem exec_amaxv w (s : State) : exec (.amaxv w) s = execAmaxv w s := rfl
theorem exec_fscaleb w (s : State) : exec (.fscaleb w) s = execFscaleb w s := rfl
theorem exec_fgetexp w (s : State) : exec (.fgetexp w) s = execFgetexp w s := rfl
theorem exec_ld w (s : State) : exec (.ld w) s = execLd w s := rfl
theorem exec_st w (s : State) : exec (.st w) s = execSt w s := rfl
theorem exec_ldv w (s : State) : exec (.ldv w) s = execLdv w s := rfl
theorem exec_stv w (s : State) : exec (.stv w) s = execStv w s := rfl
theorem exec_atom w (s : State) : exec (.atom w) s = execAtom w s := rfl
theorem exec_atomr w (s : State) : exec (.atomr w) s = execAtomr w s := rfl
theorem exec_cas w (s : State) : exec (.cas w) s = execCas w s := rfl
theorem exec_hins w (s : State) : exec (.hins w) s = execHins w s := rfl
theorem exec_copy w (s : State) : exec (.copy w) s = execCopy w s := rfl
theorem exec_fill w (s : State) : exec (.fill w) s = execFill w s := rfl
theorem exec_fence w (s : State) : exec (.fence w) s = execFence w s := rfl
theorem exec_adv w (s : State) : exec (.adv w) s = execAdv w s := rfl
theorem exec_emit w (s : State) : exec (.emit w) s = execEmit w s := rfl
theorem exec_emitm w (s : State) : exec (.emitm w) s = execEmitm w s := rfl
theorem exec_testm w (s : State) : exec (.testm w) s = execTestm w s := rfl
theorem exec_nxtile w (s : State) : exec (.nxtile w) s = execNxtile w s := rfl
theorem exec_sopen w (s : State) : exec (.sopen w) s = execSopen w s := rfl
theorem exec_sadv w (s : State) : exec (.sadv w) s = execSadv w s := rfl
theorem exec_stend w (s : State) : exec (.stend w) s = execStend w s := rfl
theorem exec_sclose w (s : State) : exec (.sclose w) s = execSclose w s := rfl
theorem exec_sread w (s : State) : exec (.sread w) s = execSread w s := rfl
theorem exec_fopen w (s : State) : exec (.fopen w) s = execFopen w s := rfl
theorem exec_fadv w (s : State) : exec (.fadv w) s = execFadv w s := rfl
theorem exec_ftend w (s : State) : exec (.ftend w) s = execFtend w s := rfl
theorem exec_fclose w (s : State) : exec (.fclose w) s = execFclose w s := rfl
theorem exec_fisect w (s : State) : exec (.fisect w) s = execFisect w s := rfl
theorem exec_fisectc w (s : State) : exec (.fisectc w) s = execFisectc w s := rfl
theorem exec_tclaim w (s : State) : exec (.tclaim w) s = execTclaim w s := rfl
theorem exec_trel w (s : State) : exec (.trel w) s = execTrel w s := rfl
theorem exec_tfill w (s : State) : exec (.tfill w) s = execTfill w s := rfl
theorem exec_ttask w (s : State) : exec (.ttask w) s = execTtask w s := rfl
theorem exec_twait w (s : State) : exec (.twait w) s = execTwait w s := rfl
theorem exec_tstat w (s : State) : exec (.tstat w) s = execTstat w s := rfl
theorem exec_scacc w (s : State) : exec (.scacc w) s = execScacc w s := rfl
theorem exec_scale w (s : State) : exec (.scale w) s = execScale w s := rfl
theorem exec_ovfcfg w (s : State) : exec (.ovfcfg w) s = execOvfcfg w s := rfl
theorem exec_tdep w (s : State) : exec (.tdep w) s = execTdep w s := rfl
theorem exec_tdepAdd w (s : State) : exec (.tdepAdd w) s = execTdepAdd w s := rfl
theorem exec_cpy w (s : State) : exec (.cpy w) s = execCpy w s := rfl
theorem exec_gath w (s : State) : exec (.gath w) s = execGath w s := rfl
theorem exec_scat w (s : State) : exec (.scat w) s = execScat w s := rfl
theorem exec_fgrd w (s : State) : exec (.fgrd w) s = execFgrd w s := rfl
theorem exec_fgwr w (s : State) : exec (.fgwr w) s = execFgwr w s := rfl
theorem exec_xchg w (s : State) : exec (.xchg w) s = execXchg w s := rfl
theorem exec_xchgRaw w (s : State) : exec (.xchgRaw w) s = execXchgRaw w s := rfl
theorem exec_ratom w (s : State) : exec (.ratom w) s = execRatom w s := rfl
theorem exec_cwait w (s : State) : exec (.cwait w) s = execCwait w s := rfl
theorem exec_resume w (s : State) : exec (.resume w) s = execResume w s := rfl
theorem exec_resumeFail w (s : State) : exec (.resumeFail w) s = execResumeFail w s := rfl
theorem exec_pref w (s : State) : exec (.pref w) s = execPref w s := rfl
theorem exec_bara w (s : State) : exec (.bara w) s = execBara w s := rfl
theorem exec_barw w (s : State) : exec (.barw w) s = execBarw w s := rfl
theorem exec_barwT w (s : State) : exec (.barwT w) s = execBarwT w s := rfl
theorem exec_barex w (s : State) : exec (.barex w) s = execBarex w s := rfl
theorem exec_launch w (s : State) : exec (.launch w) s = execLaunch w s := rfl
theorem exec_trap w (s : State) : exec (.trap w) s = execTrap w s := rfl
theorem exec_csrr w (s : State) : exec (.csrr w) s = execCsrr w s := rfl
theorem exec_csrw w (s : State) : exec (.csrw w) s = execCsrw w s := rfl
theorem exec_evlog w (s : State) : exec (.evlog w) s = execEvlog w s := rfl
theorem exec_mext w (s : State) : exec (.mext w) s = execMext w s := rfl
theorem exec_attest w (s : State) : exec (.attest w) s = execAttest w s := rfl
theorem exec_sagvfyUnlock w (s : State) : exec (.sagvfyUnlock w) s = execSagvfyUnlock w s := rfl
theorem exec_sagvfyManifest w (s : State) : exec (.sagvfyManifest w) s = execSagvfyManifest w s := rfl
theorem exec_keywipe w (s : State) : exec (.keywipe w) s = execKeywipe w s := rfl
theorem exec_keywipeAll w (s : State) : exec (.keywipeAll w) s = execKeywipeAll w s := rfl
theorem exec_dbgopen w (s : State) : exec (.dbgopen w) s = execDbgopen w s := rfl
theorem exec_fuserd w (s : State) : exec (.fuserd w) s = execFuserd w s := rfl
theorem exec_yield w (s : State) : exec (.yield w) s = execYield w s := rfl
theorem exec_wdog w (s : State) : exec (.wdog w) s = execWdog w s := rfl
theorem exec_illegalOp op w (s : State) : exec (.illegalOp op w) s = execIllegalOp op w s := rfl
theorem exec_execLiteral data (s : State) : exec (.execLiteral data) s = execExecLiteral data s := rfl
theorem exec_dataFiringStart pe (s : State) : exec (.dataFiringStart pe) s = execDataFiringStart pe s := rfl
theorem exec_markerFiring pe (s : State) : exec (.markerFiring pe) s = execMarkerFiring pe s := rfl
theorem exec_suspendedResume pe (s : State) : exec (.suspendedResume pe) s = execSuspendedResume pe s := rfl
theorem exec_realignStart pe slot (s : State) : exec (.realignStart pe slot) s = execRealignStart pe slot s := rfl
theorem exec_realignDiscard pe slot port (s : State) : exec (.realignDiscard pe slot port) s = execRealignDiscard pe slot port s := rfl
theorem exec_realignPoisonEmit pe slot port (s : State) : exec (.realignPoisonEmit pe slot port) s = execRealignPoisonEmit pe slot port s := rfl
theorem exec_timingDetectorFlag kind unit (s : State) : exec (.timingDetectorFlag kind unit) s = execTimingDetectorFlag kind unit s := rfl
theorem exec_localPortDeliver router (s : State) : exec (.localPortDeliver router) s = execLocalPortDeliver router s := rfl
theorem exec_localPortTake router (s : State) : exec (.localPortTake router) s = execLocalPortTake router s := rfl
theorem exec_routeHop router out port (s : State) : exec (.routeHop router out port) s = execRouteHop router out port s := rfl
theorem exec_elementPortTransfer router dir (s : State) : exec (.elementPortTransfer router dir) s = execElementPortTransfer router dir s := rfl
theorem exec_passFiring router slot (s : State) : exec (.passFiring router slot) s = execPassFiring router slot s := rfl
theorem exec_steerFiring router slot (s : State) : exec (.steerFiring router slot) s = execSteerFiring router slot s := rfl
theorem exec_mergeFiring router slot (s : State) : exec (.mergeFiring router slot) s = execMergeFiring router slot s := rfl
theorem exec_forkFiring router slot (s : State) : exec (.forkFiring router slot) s = execForkFiring router slot s := rfl
theorem exec_joinFiring router slot (s : State) : exec (.joinFiring router slot) s = execJoinFiring router slot s := rfl
theorem exec_gateFiring router slot (s : State) : exec (.gateFiring router slot) s = execGateFiring router slot s := rfl
theorem exec_filterFiring router slot (s : State) : exec (.filterFiring router slot) s = execFilterFiring router slot s := rfl
theorem exec_operatorMarkerFiring router slot (s : State) : exec (.operatorMarkerFiring router slot) s = execOperatorMarkerFiring router slot s := rfl
theorem exec_operatorRealignDiscard router slot (s : State) : exec (.operatorRealignDiscard router slot) s = execOperatorRealignDiscard router slot s := rfl
theorem exec_carryFiring router slot (s : State) : exec (.carryFiring router slot) s = execCarryFiring router slot s := rfl
theorem exec_irepFiring router slot (s : State) : exec (.irepFiring router slot) s = execIrepFiring router slot s := rfl
theorem exec_loopgenLoad router slot (s : State) : exec (.loopgenLoad router slot) s = execLoopgenLoad router slot s := rfl
theorem exec_loopgenEmit router slot (s : State) : exec (.loopgenEmit router slot) s = execLoopgenEmit router slot s := rfl
theorem exec_sinkFiring router slot (s : State) : exec (.sinkFiring router slot) s = execSinkFiring router slot s := rfl
theorem exec_mcutPass router slot (s : State) : exec (.mcutPass router slot) s = execMcutPass router slot s := rfl
theorem exec_mcutGatingRequest router slot (s : State) : exec (.mcutGatingRequest router slot) s = execMcutGatingRequest router slot s := rfl
theorem exec_mcutRelease router slot (s : State) : exec (.mcutRelease router slot) s = execMcutRelease router slot s := rfl
theorem exec_memnodeAccept node port (s : State) : exec (.memnodeAccept node port) s = execMemnodeAccept node port s := rfl
theorem exec_memnodePerform node index (s : State) : exec (.memnodePerform node index) s = execMemnodePerform node index s := rfl
theorem exec_memnodeResultEmit node port (s : State) : exec (.memnodeResultEmit node port) s = execMemnodeResultEmit node port s := rfl
theorem exec_memnodeMarker node port (s : State) : exec (.memnodeMarker node port) s = execMemnodeMarker node port s := rfl
theorem exec_memnodePairRealign node pair (s : State) : exec (.memnodePairRealign node pair) s = execMemnodePairRealign node pair s := rfl
theorem exec_poolEccWriteback core word (s : State) : exec (.poolEccWriteback core word) s = execPoolEccWriteback core word s := rfl
theorem exec_agenSweepStart agen (s : State) : exec (.agenSweepStart agen) s = execAgenSweepStart agen s := rfl
theorem exec_agenTrigger agen (s : State) : exec (.agenTrigger agen) s = execAgenTrigger agen s := rfl
theorem exec_agenEmit agen (s : State) : exec (.agenEmit agen) s = execAgenEmit agen s := rfl
theorem exec_agenGatingRequest agen (s : State) : exec (.agenGatingRequest agen) s = execAgenGatingRequest agen s := rfl
theorem exec_glazeAccept core (s : State) : exec (.glazeAccept core) s = execGlazeAccept core s := rfl
theorem exec_glazeOutput core (s : State) : exec (.glazeOutput core) s = execGlazeOutput core s := rfl
theorem exec_barrierPerform index (s : State) : exec (.barrierPerform index) s = execBarrierPerform index s := rfl
theorem exec_trapQueueWrite (s : State) : exec (.trapQueueWrite) s = execTrapQueueWrite s := rfl
theorem exec_cometAccess comet port index (s : State) : exec (.cometAccess comet port index) s = execCometAccess comet port index s := rfl
theorem exec_graphPortAccept comet port (s : State) : exec (.graphPortAccept comet port) s = execGraphPortAccept comet port s := rfl
theorem exec_graphPortResult comet port (s : State) : exec (.graphPortResult comet port) s = execGraphPortResult comet port s := rfl
theorem exec_cometCommandPerform core index (s : State) : exec (.cometCommandPerform core index) s = execCometCommandPerform core index s := rfl
theorem exec_streamFetch core reg half (s : State) : exec (.streamFetch core reg half) s = execStreamFetch core reg half s := rfl
theorem exec_streamFetchReturn core reg half line (s : State) : exec (.streamFetchReturn core reg half line) s = execStreamFetchReturn core reg half line s := rfl
theorem exec_gatherUnitServe stack (s : State) : exec (.gatherUnitServe stack) s = execGatherUnitServe stack s := rfl
theorem exec_kilnSubtileIssue cluster (s : State) : exec (.kilnSubtileIssue cluster) s = execKilnSubtileIssue cluster s := rfl
theorem exec_kilnRecordFailReady cluster (s : State) : exec (.kilnRecordFailReady cluster) s = execKilnRecordFailReady cluster s := rfl
theorem exec_kilnSubtileStart kiln (s : State) : exec (.kilnSubtileStart kiln) s = execKilnSubtileStart kiln s := rfl
theorem exec_kilnStep kiln (s : State) : exec (.kilnStep kiln) s = execKilnStep kiln s := rfl
theorem exec_kilnSpillEnd kiln (s : State) : exec (.kilnSpillEnd kiln) s = execKilnSpillEnd kiln s := rfl
theorem exec_kilnDrain kiln (s : State) : exec (.kilnDrain kiln) s = execKilnDrain kiln s := rfl
theorem exec_kilnRecordComplete cluster index (s : State) : exec (.kilnRecordComplete cluster index) s = execKilnRecordComplete cluster index s := rfl
theorem exec_kilnSubtileMigrate cluster (s : State) : exec (.kilnSubtileMigrate cluster) s = execKilnSubtileMigrate cluster s := rfl
theorem exec_tfillSourceCheck cluster slot (s : State) : exec (.tfillSourceCheck cluster slot) s = execTfillSourceCheck cluster slot s := rfl
theorem exec_tfillComplete cluster slot (s : State) : exec (.tfillComplete cluster slot) s = execTfillComplete cluster slot s := rfl
theorem exec_meshFlitHop router out (s : State) : exec (.meshFlitHop router out) s = execMeshFlitHop router out s := rfl
theorem exec_packetAgePromote router input vc (s : State) : exec (.packetAgePromote router input vc) s = execPacketAgePromote router input vc s := rfl
theorem exec_meshCrcReplay router dir ok (s : State) : exec (.meshCrcReplay router dir ok) s = execMeshCrcReplay router dir ok s := rfl
theorem exec_controllerRead controller (s : State) : exec (.controllerRead controller) s = execControllerRead controller s := rfl
theorem exec_parityRebuild line (s : State) : exec (.parityRebuild line) s = execParityRebuild line s := rfl
theorem exec_controllerWrite controller (s : State) : exec (.controllerWrite controller) s = execControllerWrite controller s := rfl
theorem exec_parityUpdate index (s : State) : exec (.parityUpdate index) s = execParityUpdate index s := rfl
theorem exec_tagUe code unit (s : State) : exec (.tagUe code unit) s = execTagUe code unit s := rfl
theorem exec_loaderFrameRead cluster (s : State) : exec (.loaderFrameRead cluster) s = execLoaderFrameRead cluster s := rfl
theorem exec_configCacheLookup cluster (s : State) : exec (.configCacheLookup cluster) s = execConfigCacheLookup cluster s := rfl
theorem exec_quiescenceSweep die (s : State) : exec (.quiescenceSweep die) s = execQuiescenceSweep die s := rfl
theorem exec_dieHeartbeat die (s : State) : exec (.dieHeartbeat die) s = execDieHeartbeat die s := rfl
theorem exec_heartbeatMissing die (s : State) : exec (.heartbeatMissing die) s = execHeartbeatMissing die s := rfl
theorem exec_deadlockTimeout die dom disp (s : State) : exec (.deadlockTimeout die dom disp) s = execDeadlockTimeout die dom disp s := rfl
theorem exec_watchdogExpiry die dom (s : State) : exec (.watchdogExpiry die dom) s = execWatchdogExpiry die dom s := rfl
theorem exec_hubTick (s : State) : exec (.hubTick) s = execHubTick s := rfl
theorem exec_launchNoticeApply die (s : State) : exec (.launchNoticeApply die) s = execLaunchNoticeApply die s := rfl
theorem exec_tickNoticeApply die (s : State) : exec (.tickNoticeApply die) s = execTickNoticeApply die s := rfl
theorem exec_loadedNoticeApply die (s : State) : exec (.loadedNoticeApply die) s = execLoadedNoticeApply die s := rfl
theorem exec_endedNoticeApply die (s : State) : exec (.endedNoticeApply die) s = execEndedNoticeApply die s := rfl
theorem exec_savedNoticeApply die (s : State) : exec (.savedNoticeApply die) s = execSavedNoticeApply die s := rfl
theorem exec_committedNoticeApply die (s : State) : exec (.committedNoticeApply die) s = execCommittedNoticeApply die s := rfl
theorem exec_errorNoticeApply die (s : State) : exec (.errorNoticeApply die) s = execErrorNoticeApply die s := rfl
theorem exec_preemptNoticeApply die (s : State) : exec (.preemptNoticeApply die) s = execPreemptNoticeApply die s := rfl
theorem exec_resumeNoticeApply die (s : State) : exec (.resumeNoticeApply die) s = execResumeNoticeApply die s := rfl
theorem exec_killNoticeApply die (s : State) : exec (.killNoticeApply die) s = execKillNoticeApply die s := rfl
theorem exec_killDrainEnd die dom disp (s : State) : exec (.killDrainEnd die dom disp) s = execKillDrainEnd die dom disp s := rfl
theorem exec_watchdogNoticeApply die (s : State) : exec (.watchdogNoticeApply die) s = execWatchdogNoticeApply die s := rfl
theorem exec_digestNoticeApply (s : State) : exec (.digestNoticeApply) s = execDigestNoticeApply s := rfl
theorem exec_csrNoticeApply die (s : State) : exec (.csrNoticeApply die) s = execCsrNoticeApply die s := rfl
theorem exec_phaseNoticeApply die (s : State) : exec (.phaseNoticeApply die) s = execPhaseNoticeApply die s := rfl
theorem exec_histNoticeApply die (s : State) : exec (.histNoticeApply die) s = execHistNoticeApply die s := rfl
theorem exec_dieLossApply die (s : State) : exec (.dieLossApply die) s = execDieLossApply die s := rfl
theorem exec_linkSplitApply die (s : State) : exec (.linkSplitApply die) s = execLinkSplitApply die s := rfl
theorem exec_wheelHistogramRead dom disp (s : State) : exec (.wheelHistogramRead dom disp) s = execWheelHistogramRead dom disp s := rfl
theorem exec_saveAreaAllocate (s : State) : exec (.saveAreaAllocate) s = execSaveAreaAllocate s := rfl
theorem exec_saveRecordWrite die dom disp (s : State) : exec (.saveRecordWrite die dom disp) s = execSaveRecordWrite die dom disp s := rfl
theorem exec_commitWrite die dom disp (s : State) : exec (.commitWrite die dom disp) s = execCommitWrite die dom disp s := rfl
theorem exec_exchangeStep dom (s : State) : exec (.exchangeStep dom) s = execExchangeStep dom s := rfl
theorem exec_launchrWrite func value (s : State) : exec (.launchrWrite func value) s = execLaunchrWrite func value s := rfl
theorem exec_lstatClear func value (s : State) : exec (.lstatClear func value) s = execLstatClear func value s := rfl
theorem exec_mbCreate func (s : State) : exec (.mbCreate func) s = execMbCreate func s := rfl
theorem exec_mbDestroy func (s : State) : exec (.mbDestroy func) s = execMbDestroy func s := rfl
theorem exec_mbPreempt func (s : State) : exec (.mbPreempt func) s = execMbPreempt func s := rfl
theorem exec_mbResume func (s : State) : exec (.mbResume func) s = execMbResume func s := rfl
theorem exec_mbKill func (s : State) : exec (.mbKill func) s = execMbKill func s := rfl
theorem exec_mbAssign func (s : State) : exec (.mbAssign func) s = execMbAssign func s := rfl
theorem exec_mbQueryBootEntry func (s : State) : exec (.mbQueryBootEntry func) s = execMbQueryBootEntry func s := rfl
theorem exec_mbQueryExcluded func (s : State) : exec (.mbQueryExcluded func) s = execMbQueryExcluded func s := rfl
theorem exec_mbClrboot func (s : State) : exec (.mbClrboot func) s = execMbClrboot func s := rfl
theorem exec_mbSupcfg func (s : State) : exec (.mbSupcfg func) s = execMbSupcfg func s := rfl
theorem exec_mbDoorbellBusy func (s : State) : exec (.mbDoorbellBusy func) s = execMbDoorbellBusy func s := rfl
theorem exec_windowRead func offset length (s : State) : exec (.windowRead func offset length) s = execWindowRead func offset length s := rfl
theorem exec_windowWrite func offset bytes (s : State) : exec (.windowWrite func offset bytes) s = execWindowWrite func offset bytes s := rfl
theorem exec_registerPageBadAccess func offset size write (s : State) : exec (.registerPageBadAccess func offset size write) s = execRegisterPageBadAccess func offset size write s := rfl
theorem exec_registerWrite func offset value (s : State) : exec (.registerWrite func offset value) s = execRegisterWrite func offset value s := rfl
theorem exec_flr func (s : State) : exec (.flr func) s = execFlr func s := rfl
theorem exec_linkLoss (s : State) : exec (.linkLoss) s = execLinkLoss s := rfl
theorem exec_linkRetrain (s : State) : exec (.linkRetrain) s = execLinkRetrain s := rfl
theorem exec_linkHoldExpiry (s : State) : exec (.linkHoldExpiry) s = execLinkHoldExpiry s := rfl
theorem exec_hotReset (s : State) : exec (.hotReset) s = execHotReset s := rfl
theorem exec_coldStart (s : State) : exec (.coldStart) s = execColdStart s := rfl
theorem exec_warmReset (s : State) : exec (.warmReset) s = execWarmReset s := rfl
theorem exec_bootStepTimeout bootStep unit (s : State) : exec (.bootStepTimeout bootStep unit) s = execBootStepTimeout bootStep unit s := rfl
theorem exec_pldmDiscovery (s : State) : exec (.pldmDiscovery) s = execPldmDiscovery s := rfl
theorem exec_pldmSensorRead sensor (s : State) : exec (.pldmSensorRead sensor) s = execPldmSensorRead sensor s := rfl
theorem exec_pldmFirmwareUpdate component image manifest parity (s : State) : exec (.pldmFirmwareUpdate component image manifest parity) s = execPldmFirmwareUpdate component image manifest parity s := rfl
theorem exec_blackBoxRead ring index (s : State) : exec (.blackBoxRead ring index) s = execBlackBoxRead ring index s := rfl
theorem exec_bootRecordRead index (s : State) : exec (.bootRecordRead index) s = execBootRecordRead index s := rfl
theorem exec_startCounterWrite value (s : State) : exec (.startCounterWrite value) s = execStartCounterWrite value s := rfl
theorem exec_peerEpochRead link (s : State) : exec (.peerEpochRead link) s = execPeerEpochRead link s := rfl
theorem exec_sidebandAttest nonce (s : State) : exec (.sidebandAttest nonce) s = execSidebandAttest nonce s := rfl
theorem exec_fabricMapWrite fabricId moduleId entries (s : State) : exec (.fabricMapWrite fabricId moduleId entries) s = execFabricMapWrite fabricId moduleId entries s := rfl
theorem exec_vendorProvision (s : State) : exec (.vendorProvision) s = execVendorProvision s := rfl
theorem exec_saggarAttestServe (s : State) : exec (.saggarAttestServe) s = execSaggarAttestServe s := rfl
theorem exec_saggarVerifyServe (s : State) : exec (.saggarVerifyServe) s = execSaggarVerifyServe s := rfl
theorem exec_saggarMextServe (s : State) : exec (.saggarMextServe) s = execSaggarMextServe s := rfl
theorem exec_thermalThrottle die (s : State) : exec (.thermalThrottle die) s = execThermalThrottle die s := rfl
theorem exec_thermalShutdown die (s : State) : exec (.thermalShutdown die) s = execThermalShutdown die s := rfl
theorem exec_linkFrameReceive link frame (s : State) : exec (.linkFrameReceive link frame) s = execLinkFrameReceive link frame s := rfl
theorem exec_linkReplay link ok (s : State) : exec (.linkReplay link ok) s = execLinkReplay link ok s := rfl
theorem exec_bexwenRetrain link fabricId moduleId epoch rawx (s : State) : exec (.bexwenRetrain link fabricId moduleId epoch rawx) s = execBexwenRetrain link fabricId moduleId epoch rawx s := rfl
theorem exec_ctxBody member dom active (s : State) : exec (.ctxBody member dom active) s = execCtxBody member dom active s := rfl
theorem exec_phaseBody member dom phase (s : State) : exec (.phaseBody member dom phase) s = execPhaseBody member dom phase s := rfl
theorem exec_farrBody member dom bar gen (s : State) : exec (.farrBody member dom bar gen) s = execFarrBody member dom bar gen s := rfl
theorem exec_fexitBody member dom bar (s : State) : exec (.fexitBody member dom bar) s = execFexitBody member dom bar s := rfl
theorem exec_fbreakBody member dom bar (s : State) : exec (.fbreakBody member dom bar) s = execFbreakBody member dom bar s := rfl
theorem exec_remoteExchangeWrite smod dom tid offset bytes raw form (s : State) : exec (.remoteExchangeWrite smod dom tid offset bytes raw form) s = execRemoteExchangeWrite smod dom tid offset bytes raw form s := rfl
theorem exec_remoteAtomicRequest flit (s : State) : exec (.remoteAtomicRequest flit) s = execRemoteAtomicRequest flit s := rfl
theorem exec_remoteAtomicResponse flit (s : State) : exec (.remoteAtomicResponse flit) s = execRemoteAtomicResponse flit s := rfl
theorem exec_ratomResendTimeout index (s : State) : exec (.ratomResendTimeout index) s = execRatomResendTimeout index s := rfl
theorem exec_moduleUnreachable member (s : State) : exec (.moduleUnreachable member) s = execModuleUnreachable member s := rfl
theorem exec_receiverLockLoss link (s : State) : exec (.receiverLockLoss link) s = execReceiverLockLoss link s := rfl
theorem exec_saggarPowerLoss (s : State) : exec (.saggarPowerLoss) s = execSaggarPowerLoss s := rfl
theorem exec_pldmPowerDown (s : State) : exec (.pldmPowerDown) s = execPldmPowerDown s := rfl
theorem exec_productionFusing (s : State) : exec (.productionFusing) s = execProductionFusing s := rfl
theorem exec_rmaToken token (s : State) : exec (.rmaToken token) s = execRmaToken token s := rfl

end Sys2Proof.Machine
end

