-- ==== Sys2Proof/Laws/Fold.lean ====
section
/-! SUPPORT. What every step of a fold keeps, the fold keeps. -/
namespace Sys2Proof.Machine

theorem foldUpFrom_keeps {β : Type} {P : β → Prop} {f : β → Nat → β} (h : ∀ b k, P b → P (f b k)) : ∀ n i b, P b → P (foldUpFrom f i n b)
  | 0, _, _, hb => hb
  | n + 1, i, b, hb => foldUpFrom_keeps h n (i + 1) (f b i) (h b i hb)

theorem foldUp_keeps {β : Type} {P : β → Prop} {f : β → Nat → β} {n : Nat} {b : β} (hb : P b) (h : ∀ b k, P b → P (f b k)) : P (foldUp n b f) :=
  foldUpFrom_keeps h n 0 b hb

theorem foldl_keeps {α β : Type} {P : β → Prop} {f : β → α → β} (h : ∀ b a, P b → P (f b a)) : ∀ (xs : List α) (b : β), P b → P (xs.foldl f b)
  | [], _, hb => hb
  | x :: xs, b, hb => foldl_keeps h xs (f b x) (h b x hb)

end Sys2Proof.Machine
end

