-- ==== Sys2Proof/Laws/Hbm.lean ====
section
/-! SUPPORT. Reads of the package's memory where no line is at fault change nothing and answer its bytes (spec/14 R392 to R405). -/
namespace Sys2Proof.Machine

/-- A line that can be read, of a unit stored plain, is read (stripe parity in force). -/
theorem State.readLine_good {s : State} {p dom : Nat} (hm : s.mem.parity = true) (hp : p / 65536 < s.mem.frameCount) (hu : s.linesUsed p = 64)
    (hg : s.lineGood (s.mem.lineOf p) = true) : s.readLine p dom = (none, s) := by
  have hf : s.lineFault (s.mem.lineOf p) = .good := by
    simp only [State.lineGood, Bool.and_eq_true, decide_eq_true_eq] at hg; exact hg.1
  simp [State.readLine, State.readStored, hu, Nat.not_le.2 hp, hf, hm, hg]

/-- So are the lines of a range, where every controller holds the key slot. -/
theorem State.readLines_good {s : State} {slot dom hi : Nat} (hk : ∀ p < hi, s.keyLost slot p = false)
    (h : ∀ p < hi, s.readLine p dom = (none, s)) : ∀ fuel p n, p + n ≤ hi → s.readLines slot p n dom fuel = (none, s)
  | 0, _, _, _ => rfl
  | fuel + 1, p, n, hn => by
    simp only [State.readLines]
    split
    · rfl
    · rename_i h0
      have hm : Nat.min n (64 - p % 64) ≤ n := Nat.min_le_left ..
      rw [if_neg (by simp [hk p (by omega)])]
      simp only [h p (by omega)]
      exact State.readLines_good hk h fuel _ _ (by omega)

/-- A controller holds a loaded slot while no copy of it is lost. -/
theorem State.keyLost_none {s : State} {slot : Nat} {key : KeyPair} (hk : s.keySlot slot = some key) (hl : s.sag.lostCopies = []) (p : Nat) :
    s.keyLost slot p = false := by
  simp [State.keyLost, State.keyAt, hk, hl]

/-- A read under a loaded key slot answers the bytes and leaves the state. -/
theorem State.memRead_good {s : State} {slot dom p n hi : Nat} {key : KeyPair} (hk : s.keySlot slot = some key) (hl : s.sag.lostCopies = [])
    (h : ∀ p < hi, s.readLine p dom = (none, s)) (hn : p + n ≤ hi) : s.memRead slot dom p n = (.inl (s.mem.getBytes key p n), s) := by
  simp only [State.memRead, hk, State.readLines_good (fun q _ => State.keyLost_none hk hl q) h _ _ _ hn]

end Sys2Proof.Machine
end

