-- ==== Sys2Proof/Laws/Lanes.lean ====
section
/-! SUPPORT. Fields and lanes: what a joined word shows, lane by lane and bit by bit. -/
namespace Sys2Proof

theorem fieldNat_lt (lo n v : Nat) : fieldNat lo n v < 2 ^ n := Nat.mod_lt _ (Nat.two_pow_pos n)

theorem laneOf_lt (w k : Nat) (v : Word) : laneOf w k v < 2 ^ w := fieldNat_lt ..

theorem fieldNat_testBit (lo n v k : Nat) : (fieldNat lo n v).testBit k = (decide (k < n) && v.testBit (lo + k)) := by
  simp [fieldNat, Nat.testBit_mod_two_pow, Nat.testBit_shiftRight]

theorem joinFrom_lt (w : Nat) (f : Nat → Nat) : ∀ n i, joinFrom w f i n < 2 ^ (w * n)
  | 0, _ => by simp [joinFrom]
  | n + 1, i => by
    have ih := joinFrom_lt w f n (i + 1)
    have h : f i % 2 ^ w < 2 ^ w := Nat.mod_lt _ (Nat.two_pow_pos w)
    rw [joinFrom, Nat.mul_succ, Nat.add_comm (w * n) w, Nat.pow_add]
    calc f i % 2 ^ w + 2 ^ w * joinFrom w f (i + 1) n < 2 ^ w * 1 + 2 ^ w * joinFrom w f (i + 1) n := by omega
      _ = 2 ^ w * (1 + joinFrom w f (i + 1) n) := by ring
      _ ≤ 2 ^ w * 2 ^ (w * n) := Nat.mul_le_mul_left _ (by omega)

/-- Lane k of a joined number. -/
theorem fieldNat_joinFrom (w : Nat) (f : Nat → Nat) : ∀ n i k, k < n → fieldNat (w * k) w (joinFrom w f i n) = f (i + k) % 2 ^ w
  | 0, _, _, h => absurd h (Nat.not_lt_zero _)
  | n + 1, i, 0, _ => by
    simp [fieldNat, joinFrom, Nat.add_mul_mod_self_left]
  | n + 1, i, k + 1, h => by
    have ih := fieldNat_joinFrom w f n (i + 1) k (by omega)
    rw [show i + (k + 1) = i + 1 + k by omega, ← ih]
    simp only [fieldNat, joinFrom, Nat.shiftRight_eq_div_pow]
    rw [Nat.mul_succ, Nat.add_comm (w * k) w, Nat.pow_add, ← Nat.div_div_eq_div_mul,
      Nat.add_mul_div_left _ _ (Nat.two_pow_pos w), Nat.div_eq_of_lt (Nat.mod_lt _ (Nat.two_pow_pos w)), Nat.zero_add]

/-- Lane k of a word made of lanes (spec/02 R58). -/
theorem laneOf_mkWord {w n k : Nat} (f : Nat → Nat) (hw : w * n ≤ 256) (hk : k < n) : laneOf w k (mkWord w n f) = f k % 2 ^ w := by
  have h : joinFrom w f 0 n < 2 ^ 256 := lt_of_lt_of_le (joinFrom_lt w f n 0) (Nat.pow_le_pow_right (by decide) hw)
  have := fieldNat_joinFrom w f n 0 k hk
  simp only [laneOf, mkWord, BitVec.toNat_ofNat, Nat.mod_eq_of_lt h, Nat.zero_add] at this ⊢
  exact this

/-- Bit of a lane. -/
theorem laneOf_testBit (w k n : Nat) (v : Word) : (laneOf w k v).testBit n = (decide (n < w) && v.getLsbD (w * k + n)) := by
  simp [laneOf, fieldNat_testBit, BitVec.getLsbD]

/-- A bit of a word, by the lane it lies in. -/
theorem getLsbD_eq_lane {w n : Nat} (hw : 0 < w) (v : Word) : v.getLsbD n = (laneOf w (n / w) v).testBit (n % w) := by
  rw [laneOf_testBit, Nat.div_add_mod]; simp [Nat.mod_lt n hw]

/-- Bit i of a bitmap. -/
theorem bitmapOf_testBit (f : Nat → Bool) {n k : Nat} (h : k < n) : (bitmapOf n f).testBit k = f k := by
  have := fieldNat_joinFrom 1 (fun i => if f i then 1 else 0) n 0 k h
  have e : (bitmapOf n f).testBit k = decide (fieldNat (1 * k) 1 (bitmapOf n f) = 1) := by
    rw [Nat.testBit_eq_decide_div_mod_eq, fieldNat, Nat.shiftRight_eq_div_pow]; simp
  rw [e, bitmapOf, this]; simp only [Nat.zero_add]; cases f k <;> rfl

theorem bitmapOf_lt (n : Nat) (f : Nat → Bool) : bitmapOf n f < 2 ^ n := by simpa [bitmapOf] using joinFrom_lt 1 _ n 0

namespace Machine

/-! ## Formats -/

theorem fmtWidth_pos (f : Nat) : 0 < fmtWidth f := by unfold fmtWidth; split <;> decide
theorem fmtWidth_dvd (f : Nat) : fmtWidth f * fmtLanes f = 256 := by unfold fmtLanes fmtWidth; split <;> rfl

/-! ## Merging under the guard (R17, R119) -/

/-- A merged word: a lane whose guard bit is 1 is new, every other keeps its value. -/
theorem laneOf_guardMerge {w k : Nat} (g : Pred) (old new : Word) (h8 : 8 ≤ w) (hw : w * (256 / w) ≤ 256) (hk : k < 256 / w) :
    laneOf w k (guardMerge w g old new) = if g.getLsbD k then laneOf w k new else laneOf w k old := by
  have e : Nat.max w 8 = w := Nat.max_eq_left h8
  simp only [guardMerge, e]
  rw [laneOf_mkWord _ hw hk]
  split <;> exact Nat.mod_eq_of_lt (fieldNat_lt ..)

/-- A lane result merged under the guard. -/
theorem laneOf_lanesOf (i : Issue) {w k : Nat} (f : Nat → Nat) (h8 : 8 ≤ w) (hw : w * (256 / w) ≤ 256) (hk : k < 256 / w) :
    laneOf w k (i.lanesOf w f) = if i.guard.getLsbD k then f k % 2 ^ w else laneOf w k i.oldD := by
  rw [Issue.lanesOf, laneOf_guardMerge _ _ _ h8 hw hk, laneOf_mkWord _ hw hk]

/-- A merged word, bit by bit; a format narrower than a byte goes with its byte. -/
theorem getLsbD_guardMerge {w n : Nat} (g : Pred) (old new : Word) (hw : Nat.max w 8 * (256 / Nat.max w 8) = 256) (hn : n < 256) :
    (guardMerge w g old new).getLsbD n = if g.getLsbD (n / Nat.max w 8) then new.getLsbD n else old.getLsbD n := by
  have h8 : 8 ≤ Nat.max w 8 := Nat.le_max_right ..
  have hp : 0 < Nat.max w 8 := by omega
  have hk : n / Nat.max w 8 < 256 / Nat.max w 8 := by
    rw [Nat.div_lt_iff_lt_mul hp, Nat.mul_comm, hw]; exact hn
  rw [getLsbD_eq_lane hp, getLsbD_eq_lane hp new, getLsbD_eq_lane hp old]
  simp only [guardMerge]
  rw [laneOf_mkWord _ (by omega) hk]
  split <;> rw [Nat.mod_eq_of_lt (laneOf_lt ..)]

/-! ## Predicates (R118) -/

/-- A predicate written from lane results. -/
theorem getLsbD_lanePred {lanes k : Nat} (g old : Pred) (f : Nat → Bool) (hk : k < 32) :
    (lanePred lanes g old f).getLsbD k = (decide (k < lanes) && if g.getLsbD k then f k else old.getLsbD k) := by
  have hm : Nat.min lanes 32 ≤ 32 := Nat.min_le_right ..
  have hl := lt_of_lt_of_le (bitmapOf_lt (Nat.min lanes 32) fun i => if g.getLsbD i then f i else old.getLsbD i)
    (Nat.pow_le_pow_right (by decide : 0 < 2) hm)
  rw [lanePred, BitVec.getLsbD_ofNat]
  simp only [hk, decide_true, Bool.true_and]
  by_cases h : k < lanes
  · have h' : k < Nat.min lanes 32 := Nat.lt_min.mpr ⟨h, hk⟩
    simp [bitmapOf_testBit _ h', h]
  · have h' : Nat.min lanes 32 ≤ k := le_trans (Nat.min_le_left ..) (by omega)
    rw [Nat.testBit_lt_two_pow (lt_of_lt_of_le (bitmapOf_lt _ _) (Nat.pow_le_pow_right (by decide) h'))]
    simp [h]

/-- A predicate written bit by bit. -/
theorem getLsbD_bitPred {k : Nat} (g old new : Pred) (hk : k < 32) :
    (bitPred g old new).getLsbD k = if g.getLsbD k then new.getLsbD k else old.getLsbD k := by
  simp only [bitPred, BitVec.getLsbD_or, BitVec.getLsbD_and, BitVec.getLsbD_not, hk, decide_true, Bool.true_and]
  cases g.getLsbD k <;> simp

end Machine
end Sys2Proof
end

