-- ==== Sys2Proof/Laws/Maps.lean ====
section
/-! SUPPORT. The sparse tables: what is read back after a write, and that every operation keeps the canonical form. -/
namespace Sys2Proof

variable {α : Type}

/-! ## Reading back -/

theorem Map.findIn_insertIn_same (d : α) (k : Nat) (v : α) : ∀ cs, Map.findIn d k (Map.insertIn k v cs) = v
  | [] => by simp [Map.insertIn, Map.findIn]
  | (j, u) :: cs => by
    simp only [Map.insertIn]
    split
    · simp [Map.findIn]
    · split
      · simp [Map.findIn]
      · rename_i h
        have : j ≠ k := fun e => h e.symm
        simp [Map.findIn, this, Map.findIn_insertIn_same d k v cs]

theorem Map.findIn_insertIn_other (d : α) {k n : Nat} (h : n ≠ k) (v : α) :
    ∀ cs, Map.findIn d n (Map.insertIn k v cs) = Map.findIn d n cs
  | [] => by simp [Map.insertIn, Map.findIn, h.symm]
  | (j, u) :: cs => by
    simp only [Map.insertIn]
    split
    · simp [Map.findIn, h.symm]
    · split
      · rename_i e; subst e; simp [Map.findIn, h.symm]
      · simp only [Map.findIn, Map.findIn_insertIn_other d h v cs]

theorem Map.findIn_filter_same (d : α) (k : Nat) : ∀ cs : List (Nat × α), Map.findIn d k (cs.filter fun c => c.1 ≠ k) = d
  | [] => rfl
  | (j, u) :: cs => by
    by_cases h : j = k <;> simp only [List.filter, h, ne_eq, not_true_eq_false, decide_false, not_false_eq_true, decide_true]
    · exact Map.findIn_filter_same d k cs
    · simp only [Map.findIn, h, if_false]; exact Map.findIn_filter_same d k cs

theorem Map.findIn_filter_other (d : α) {k n : Nat} (h : n ≠ k) :
    ∀ cs : List (Nat × α), Map.findIn d n (cs.filter fun c => c.1 ≠ k) = Map.findIn d n cs
  | [] => rfl
  | (j, u) :: cs => by
    by_cases e : j = k
    · subst e
      have : j ≠ n := h.symm
      simp only [List.filter, ne_eq, not_true_eq_false, decide_false, Map.findIn, this, if_false]
      exact Map.findIn_filter_other d h cs
    · simp only [List.filter, ne_eq, e, not_false_eq_true, decide_true, Map.findIn]
      split
      · rfl
      · exact Map.findIn_filter_other d h cs

theorem Map.find_insert_same (m : Map α) (k : Nat) (v d : α) : (m.insert k v).find k d = v := Map.findIn_insertIn_same ..
theorem Map.find_insert_other (m : Map α) {k n : Nat} (h : n ≠ k) (v d : α) : (m.insert k v).find n d = m.find n d :=
  Map.findIn_insertIn_other _ h ..

variable [DecidableEq α]

theorem Map.find_put_same (m : Map α) (k : Nat) (v d : α) : (m.put k v d).find k d = v := by
  simp only [Map.put, Map.find, Map.putIn]
  split
  · rename_i h; rw [Map.findIn_filter_same, h]
  · exact Map.findIn_insertIn_same ..

theorem Map.find_put_other (m : Map α) {k n : Nat} (h : n ≠ k) (v d : α) : (m.put k v d).find n d = m.find n d := by
  simp only [Map.put, Map.find, Map.putIn]
  split
  · exact Map.findIn_filter_other d h _
  · exact Map.findIn_insertIn_other d h ..

theorem Map.find_put (m : Map α) (k n : Nat) (v d : α) : (m.put k v d).find n d = if n = k then v else m.find n d := by
  split
  · rename_i h; subst h; exact Map.find_put_same ..
  · rename_i h; exact Map.find_put_other _ h ..

theorem Map.find_putList_outside (d : α) {n : Nat} :
    ∀ (vs : List α) (k : Nat) (m : Map α), (n < k ∨ k + vs.length ≤ n) → (Map.putList d k vs m).find n d = m.find n d
  | [], _, _, _ => rfl
  | v :: vs, k, m, h => by
    simp only [List.length_cons] at h
    rw [Map.putList, Map.find_putList_outside d vs (k + 1) _ (by omega), Map.find_put_other _ (by omega)]

theorem Map.find_putList_inside (d : α) {i : Nat} :
    ∀ (vs : List α) (k : Nat) (m : Map α) (h : i < vs.length), (Map.putList d k vs m).find (k + i) d = vs[i]
  | v :: vs, k, m, h => by
    rw [Map.putList]
    cases i with
    | zero => rw [Map.find_putList_outside d vs (k + 1) _ (by omega)]; exact Map.find_put_same ..
    | succ i =>
      have := Map.find_putList_inside d vs (k + 1) (m.put k v d) (i := i) (by simpa using h)
      rw [show k + (i + 1) = k + 1 + i by omega, this]; rfl

/-! ## The canonical form -/

omit [DecidableEq α] in
theorem Map.risingFrom_mono {lo lo' : Nat} (h : lo' ≤ lo) : ∀ cs : List (Nat × α), Map.risingFrom lo cs = true → Map.risingFrom lo' cs = true
  | [], _ => rfl
  | (j, v) :: cs, hc => by
    simp only [Map.risingFrom, Bool.and_eq_true, decide_eq_true_eq] at hc ⊢
    exact ⟨by omega, hc.2⟩

omit [DecidableEq α] in
theorem Map.risingFrom_filter (p : Nat × α → Bool) : ∀ {lo : Nat} (cs : List (Nat × α)), Map.risingFrom lo cs = true → Map.risingFrom lo (cs.filter p) = true
  | _, [], _ => rfl
  | lo, (j, v) :: cs, h => by
    simp only [Map.risingFrom, Bool.and_eq_true, decide_eq_true_eq] at h
    have ih := Map.risingFrom_filter p cs h.2
    simp only [List.filter]
    split
    · simp only [Map.risingFrom, Bool.and_eq_true, decide_eq_true_eq]; exact ⟨h.1, ih⟩
    · exact Map.risingFrom_mono (by omega) _ ih

omit [DecidableEq α] in
theorem Map.risingFrom_insertIn {k : Nat} (v : α) :
    ∀ {lo : Nat} (cs : List (Nat × α)), lo ≤ k → Map.risingFrom lo cs = true → Map.risingFrom lo (Map.insertIn k v cs) = true
  | lo, [], hk, _ => by simp [Map.insertIn, Map.risingFrom, hk]
  | lo, (j, u) :: cs, hk, h => by
    simp only [Map.risingFrom, Bool.and_eq_true, decide_eq_true_eq] at h
    simp only [Map.insertIn]
    split
    · simp only [Map.risingFrom, Bool.and_eq_true, decide_eq_true_eq]; exact ⟨hk, by omega, h.2⟩
    · split
      · rename_i e; subst e; simp only [Map.risingFrom, Bool.and_eq_true, decide_eq_true_eq]; exact h
      · simp only [Map.risingFrom, Bool.and_eq_true, decide_eq_true_eq]
        exact ⟨h.1, Map.risingFrom_insertIn v cs (by omega) h.2⟩

theorem Map.noneIs_filter (d : α) (p : Nat × α → Bool) : ∀ cs, Map.noneIs d cs = true → Map.noneIs d (cs.filter p) = true
  | [], _ => rfl
  | (j, v) :: cs, h => by
    simp only [Map.noneIs, Bool.and_eq_true] at h
    simp only [List.filter]
    split
    · simp only [Map.noneIs, Bool.and_eq_true]; exact ⟨h.1, Map.noneIs_filter d p cs h.2⟩
    · exact Map.noneIs_filter d p cs h.2

theorem Map.noneIs_insertIn {d v : α} (hv : v ≠ d) (k : Nat) : ∀ cs, Map.noneIs d cs = true → Map.noneIs d (Map.insertIn k v cs) = true
  | [], _ => by simp [Map.insertIn, Map.noneIs, hv]
  | (j, u) :: cs, h => by
    simp only [Map.noneIs, Bool.and_eq_true, decide_eq_true_eq] at h
    simp only [Map.insertIn]
    split
    · simp [Map.noneIs, hv, h]
    · split
      · simp [Map.noneIs, hv, h]
      · simp [Map.noneIs, h, Map.noneIs_insertIn hv k cs h.2]

/-- A write keeps the canonical form. -/
theorem Map.wf_put {m : Map α} {d : α} (h : m.wf d = true) (k : Nat) (v : α) : (m.put k v d).wf d = true := by
  simp only [Map.wf, Bool.and_eq_true] at h ⊢
  simp only [Map.put, Map.putIn]
  split
  · exact ⟨Map.risingFrom_filter _ _ h.1, Map.noneIs_filter d _ _ h.2⟩
  · rename_i hv
    exact ⟨Map.risingFrom_insertIn v _ (by omega) h.1, Map.noneIs_insertIn hv k _ h.2⟩

theorem Map.wf_putList {d : α} : ∀ (vs : List α) (k : Nat) {m : Map α}, m.wf d = true → (Map.putList d k vs m).wf d = true
  | [], _, _, h => h
  | v :: vs, k, _, h => Map.wf_putList vs (k + 1) (Map.wf_put h k v)

theorem Map.wf_erase {m : Map α} {d : α} (h : m.wf d = true) (lo n : Nat) : (m.erase lo n).wf d = true := by
  simp only [Map.wf, Bool.and_eq_true] at h ⊢
  exact ⟨Map.risingFrom_filter _ _ h.1, Map.noneIs_filter d _ _ h.2⟩

omit [DecidableEq α] in
theorem Map.rising_insertList : ∀ (vs : List α) (k : Nat) {m : Map α}, Map.risingFrom 0 m.cells = true →
    Map.risingFrom 0 (Map.insertList k vs m).cells = true
  | [], _, _, h => h
  | v :: vs, k, _, h => Map.rising_insertList vs (k + 1) (Map.risingFrom_insertIn v _ (by omega) h)

end Sys2Proof
end

