-- ==== Sys2Proof/Laws/Memory.lean ====
section
/-! SUPPORT. The memories: what a read gives after a write, what a write leaves, and that every operation keeps the canonical form. -/
namespace Sys2Proof

variable {α : Type}

/-! ## Tables in which an unlisted key has no value -/

theorem Map.map_insertIn (k : Nat) (v : α) :
    ∀ cs : List (Nat × α), (Map.insertIn k v cs).map (fun c => (c.1, some c.2)) = Map.insertIn k (some v) (cs.map fun c => (c.1, some c.2))
  | [] => rfl
  | (j, u) :: cs => by
    simp only [Map.insertIn, List.map_cons]
    split
    · rfl
    · split
      · rfl
      · simp only [List.map_cons, Map.map_insertIn k v cs]

theorem Map.get?_insert_same (m : Map α) (k : Nat) (v : α) : (m.insert k v).get? k = some v := by
  simp only [Map.get?, Map.insert, Map.map_insertIn, Map.findIn_insertIn_same]

theorem Map.get?_insert_other (m : Map α) {k n : Nat} (h : n ≠ k) (v : α) : (m.insert k v).get? n = m.get? n := by
  simp only [Map.get?, Map.insert, Map.map_insertIn, Map.findIn_insertIn_other none h]

theorem Map.get?_insertList_outside {n : Nat} :
    ∀ (vs : List α) (k : Nat) (m : Map α), (n < k ∨ k + vs.length ≤ n) → (Map.insertList k vs m).get? n = m.get? n
  | [], _, _, _ => rfl
  | v :: vs, k, m, h => by
    simp only [List.length_cons] at h
    rw [Map.insertList, Map.get?_insertList_outside vs (k + 1) _ (by omega), Map.get?_insert_other _ (by omega)]

theorem Map.get?_insertList_inside {i : Nat} :
    ∀ (vs : List α) (k : Nat) (m : Map α) (h : i < vs.length), (Map.insertList k vs m).get? (k + i) = some vs[i]
  | v :: vs, k, m, h => by
    rw [Map.insertList]
    cases i with
    | zero => rw [Map.get?_insertList_outside vs (k + 1) _ (by omega)]; exact Map.get?_insert_same ..
    | succ i =>
      have e := Map.get?_insertList_inside vs (k + 1) (m.insert k v) (i := i) (by simpa using h)
      rw [show k + (i + 1) = k + 1 + i by omega, e]; rfl

theorem Map.getList_eq [DecidableEq α] (d : α) : ∀ (n k : Nat) (m : Map α), Map.getList m d k n = (List.range n).map fun i => m.find (k + i) d
  | 0, _, _ => rfl
  | n + 1, k, m => by
    rw [Map.getList, Map.getList_eq d n (k + 1) m, List.range_succ_eq_map, List.map_cons, List.map_map]
    simp only [Nat.add_zero, List.cons.injEq, true_and]
    exact List.map_congr_left fun i _ => by simp only [Function.comp, Nat.succ_eq_add_one]; rw [show k + 1 + i = k + (i + 1) by omega]

end Sys2Proof

namespace Sys2Proof.Machine

/-! ## HBM (spec/14 R404, R405) -/

theorem MemState.wf_rekey {m : MemState} (h : m.wf = true) (key : KeyPair) (blk : Nat) : (m.rekey key blk).wf = true := by
  simp only [MemState.rekey]
  split
  · exact h
  · split
    · exact h
    · exact Map.rising_insertList _ _ h

/-- Writing bytes keeps the canonical form. -/
theorem MemState.wf_putBytes {m : MemState} (h : m.wf = true) (key : KeyPair) (p : Nat) (bs : List Byte) : (m.putBytes key p bs).wf = true :=
  Map.rising_insertList _ _ (foldUp_keeps (P := fun m : MemState => m.wf = true) h fun _ _ hm => MemState.wf_rekey hm ..)

theorem MemState.keys_rekey (m : MemState) (key : KeyPair) (blk b : Nat) :
    (m.rekey key blk).keys.find b none = if b = blk then some key else m.keys.find b none := by
  simp only [MemState.rekey]
  split
  · rw [Map.find_put]
  · rename_i w hw
    split
    · rename_i e; subst e
      split
      · rename_i e; subst e; exact hw
      · rfl
    · rw [Map.find_put]

theorem MemState.keys_rekeys (key : KeyPair) (b : Nat) : ∀ (n i q : Nat) (m : MemState), q + i ≤ b → b < q + i + n →
    (foldUpFrom (fun (m : MemState) k => m.rekey key (q + k)) i n m).keys.find b none = some key
  | 0, _, _, _, h1, h2 => by omega
  | n + 1, i, q, m, h1, h2 => by
    rw [foldUpFrom]
    by_cases e : b = q + i
    · subst e
      refine foldUpFrom_keeps (P := fun m : MemState => m.keys.find (q + i) none = some key) (fun m k hm => ?_) n (i + 1) _ ?_
      · rw [MemState.keys_rekey]; split
        · rfl
        · exact hm
      · rw [MemState.keys_rekey, if_pos rfl]
    · exact MemState.keys_rekeys key b n (i + 1) q _ (by omega) (by omega)

/-- A byte read under the key it was written with is the byte written. -/
theorem MemState.byte_putBytes (m : MemState) (key : KeyPair) (p : Nat) (bs : List Byte) {i : Nat} (h : i < bs.length) :
    (m.putBytes key p bs).byte key (p + i) = bs[i] := by
  have hk : (m.putBytes key p bs).keys.find ((p + i) / 16) none = some key := by
    simp only [MemState.putBytes, foldUp, blocksOf]
    refine MemState.keys_rekeys key _ _ 0 (p / 16) m ?_ ?_
    · omega
    · rw [if_neg (by omega)]; omega
  have hb : (m.putBytes key p bs).bytes.get? (p + i) = some bs[i] := Map.get?_insertList_inside bs p _ h
  simp only [MemState.byte, hk, if_true, hb, Option.getD_some]

/-- So does a whole range. -/
theorem MemState.getBytes_putBytes (m : MemState) (key : KeyPair) (p : Nat) (bs : List Byte) : (m.putBytes key p bs).getBytes key p bs.length = bs := by
  apply List.ext_getElem
  · simp [MemState.getBytes]
  · intro i h1 h2
    simp only [MemState.getBytes, List.getElem_map, List.getElem_range]
    exact MemState.byte_putBytes m key p bs h2

/-! ## What accesses leave of the memories -/

/-- The bytes of HBM with their keys, and the pools, are the same. -/
def State.SameBytes (t s : State) : Prop := t.mem.bytes = s.mem.bytes ∧ t.mem.keys = s.mem.keys ∧ t.core.pool = s.core.pool

theorem State.SameBytes.refl (s : State) : s.SameBytes s := ⟨rfl, rfl, rfl⟩

theorem State.SameBytes.trans {s t u : State} (h : u.SameBytes t) (h' : t.SameBytes s) : u.SameBytes s :=
  ⟨h.1.trans h'.1, h.2.1.trans h'.2.1, h.2.2.trans h'.2.2⟩

theorem State.SameBytes.memWf {t s : State} (h : t.SameBytes s) (hs : s.memWf) : t.memWf := by
  simp only [State.memWf, MemState.wf, h.1, h.2.2]; exact hs

theorem State.logEvent_same (s : State) (ring code payload dom origin : Nat) (always : Bool) :
    (s.logEvent ring code payload dom origin always).SameBytes s := by
  simp only [State.logEvent]; split <;> exact State.SameBytes.refl _

theorem State.lineEvent_same (s : State) (l dom code : Nat) (always : Bool) : (s.lineEvent l dom code always).SameBytes s :=
  State.logEvent_same ..

theorem State.queueTrap_same (s : State) (dom : Nat) (r : Word) : (s.queueTrap dom r).SameBytes s := by
  unfold State.queueTrap
  split <;> exact ⟨rfl, rfl, rfl⟩

theorem State.postRecord_same (s : State) (die : Nat) (r : Word) (more : Nat) (pattern : Bool) : (s.postRecord die r more pattern).SameBytes s := by
  refine .trans ?_ (State.queueTrap_same s (recDom r) (s.trapOf die 0 r more))
  simp only [State.postRecord, State.respond]
  split
  · split
    · split <;> exact ⟨rfl, rfl, rfl⟩
    · exact .refl _
  · exact .refl _

theorem State.rebuildLine_same (s : State) (l dom : Nat) : (s.rebuildLine l dom).2.SameBytes s := by
  have h : (s.settleLine l).SameBytes s := ⟨rfl, rfl, rfl⟩
  simp only [State.rebuildLine]
  split
  · split
    · exact h
    · exact (State.lineEvent_same ..).trans (State.SameBytes.trans ⟨rfl, rfl, rfl⟩ h)
  · exact (State.lineEvent_same ..).trans h

theorem State.readStored_same (s : State) (p dom : Nat) : (s.readStored p dom).2.SameBytes s := by
  simp only [State.readStored]
  repeat' split
  all_goals first
    | exact State.SameBytes.refl _
    | (have h := State.rebuildLine_same s (s.mem.lineOf p) dom; rename_i e; rw [e] at h; exact h)

theorem State.readStoredFrom_same (dom : Nat) : ∀ (n : Nat) (s : State) (p : Nat), (s.readStoredFrom p dom n).2.SameBytes s
  | 0, s, _ => State.SameBytes.refl s
  | n + 1, s, p => by
    simp only [State.readStoredFrom]
    have h := State.readStored_same s p dom
    split <;> rename_i e <;> rw [e] at h
    · exact h
    · exact (State.readStoredFrom_same dom n _ _).trans h

theorem State.readLine_same (s : State) (p dom : Nat) : (s.readLine p dom).2.SameBytes s := by
  simp only [State.readLine]
  split
  · exact State.readStoredFrom_same ..
  · exact State.readStored_same ..

theorem State.readLines_same (slot dom : Nat) : ∀ (fuel : Nat) (s : State) (p n : Nat), (s.readLines slot p n dom fuel).2.SameBytes s
  | 0, s, _, _ => State.SameBytes.refl s
  | fuel + 1, s, p, n => by
    simp only [State.readLines]
    have h := State.readLine_same s p dom
    split
    · exact State.SameBytes.refl _
    · split
      · exact State.SameBytes.refl _
      · split <;> rename_i e <;> rw [e] at h
        · exact h
        · exact (State.readLines_same slot dom fuel _ _ _).trans h

/-- A read of HBM changes no byte. -/
theorem State.memRead_same (s : State) (slot dom p n : Nat) : (s.memRead slot dom p n).2.SameBytes s := by
  simp only [State.memRead]
  split
  · exact State.SameBytes.refl _
  · have h := State.readLines_same slot dom (n / 64 + 2) s p n
    split <;> rename_i e <;> rw [e] at h <;> exact h

theorem State.updateParity_same (s : State) (l : Nat) (d : Bool) (w : Nat → Bool) : (s.updateParity l d w).SameBytes s := by
  simp only [State.updateParity]
  repeat' split
  all_goals exact ⟨rfl, rfl, rfl⟩

theorem State.writeLine_same (s : State) (p n dom : Nat) (w : Nat → Bool) : (s.writeLine p n dom w).2.SameBytes s := by
  have hr : (if n = 64 then (true, s) else s.rebuildLine (s.mem.lineOf p) dom).2.SameBytes s := by
    split
    · exact State.SameBytes.refl _
    · exact State.rebuildLine_same ..
  unfold State.writeLine
  dsimp only
  generalize (if n = 64 then (true, s) else s.rebuildLine (s.mem.lineOf p) dom) = r at hr
  repeat' split
  all_goals first
    | exact State.SameBytes.refl _
    | exact State.updateParity_same ..
    | exact hr
    | exact State.SameBytes.trans ⟨rfl, rfl, rfl⟩ hr
    | exact (State.updateParity_same ..).trans (State.SameBytes.trans ⟨rfl, rfl, rfl⟩ hr)

/-- Expanding compressed frames changes no byte. -/
theorem State.expandUnit_same (s : State) (f dom i : Nat) : (s.expandUnit f dom i).SameBytes s := by
  unfold State.expandUnit
  dsimp only
  by_cases hu : 64 ≤ s.linesUsed (65536 * f + 4096 * i)
  · rw [if_pos hu]; exact State.SameBytes.refl _
  · rw [if_neg hu]
    have h := State.readStoredFrom_same dom (s.linesUsed (65536 * f + 4096 * i)) s (65536 * f + 4096 * i)
    revert h
    generalize s.readStoredFrom (65536 * f + 4096 * i) dom (s.linesUsed (65536 * f + 4096 * i)) = r
    obtain ⟨o, t⟩ := r
    intro h
    cases o with
    | none => exact foldUp_keeps (P := fun t : State => t.SameBytes s) h fun _ _ ht => (State.writeLine_same ..).trans ht
    | some _ => exact foldUp_keeps (P := fun t : State => t.SameBytes s) h fun _ _ ht => State.SameBytes.trans ⟨rfl, rfl, rfl⟩ ht

theorem State.expandFrame_same (s : State) (slot p dom : Nat) : (s.expandFrame slot p dom).SameBytes s := by
  simp only [State.expandFrame]
  split
  · have h : (foldUp 16 s fun s i => s.expandUnit (p / 65536) dom i).SameBytes s :=
      foldUp_keeps (P := fun t : State => t.SameBytes s) (State.SameBytes.refl s) fun _ _ ht => (State.expandUnit_same ..).trans ht
    revert h
    generalize (foldUp 16 s fun s i => s.expandUnit (p / 65536) dom i) = t
    exact fun h => ⟨h.1, h.2.1, h.2.2⟩
  · exact State.SameBytes.refl _

theorem State.expandFrames_same (s : State) (slot p n dom : Nat) : (s.expandFrames slot p n dom).SameBytes s :=
  foldUp_keeps (P := fun t : State => t.SameBytes s) (State.SameBytes.refl s) fun _ _ ht => (State.expandFrame_same ..).trans ht

theorem State.writeLines_memWf (slot : Nat) (key : KeyPair) (dom : Nat) (w : Nat → Bool) :
    ∀ (fuel : Nat) (s : State) (p : Nat) (bs : List Byte) (fail : Option MemFail), s.memWf → (s.writeLines slot key dom p bs fail w fuel).2.memWf
  | 0, _, _, _, _, h => h
  | fuel + 1, s, p, bs, fail, h => by
    have hl : (if s.keyLost slot p then (some (.key (s.homeOf p)), s)
        else s.writeLine p (Nat.min bs.length (64 - p % 64)) dom w : Option MemFail × State).2.memWf := by
      split
      · exact h
      · exact (State.writeLine_same ..).memWf h
    simp only [State.writeLines]
    split
    · exact h
    · split <;> rename_i e <;> rw [e] at hl
      · exact State.writeLines_memWf slot key dom w fuel _ _ _ _ hl
      · exact State.writeLines_memWf slot key dom w fuel _ _ _ _ ⟨MemState.wf_putBytes hl.1 .., hl.2⟩

/-- A write of HBM keeps the canonical form. -/
theorem State.memWrite_memWf {s : State} (h : s.memWf) (slot dom p : Nat) (bs : List Byte) (w : Nat → Bool) :
    (s.memWrite slot dom p bs w).2.memWf := by
  simp only [State.memWrite]
  split
  · exact h
  · split
    · exact h
    · exact State.writeLines_memWf _ _ _ _ _ _ _ _ _ ((State.expandFrames_same ..).memWf h)

theorem State.postWrite_same (s : State) (dom disp p : Nat) (f : Option MemFail) : (s.postWrite dom disp p f).SameBytes s := by
  unfold State.postWrite
  split
  · exact State.SameBytes.refl _
  · exact State.postRecord_same ..

theorem State.memStore_memWf {s : State} (h : s.memWf) (slot dom disp p : Nat) (bs : List Byte) : (s.memStore slot dom disp p bs).memWf :=
  (State.postWrite_same ..).memWf (State.memWrite_memWf h ..)

/-! ## The pools (spec/08 R223, R252) -/

theorem State.setPoolByte_memWf {s : State} (h : s.memWf) (c a : Nat) (v : Byte) : (s.setPoolByte c a v).memWf := ⟨h.1, Map.wf_put h.2 ..⟩

theorem State.zeroPool_memWf {s : State} (h : s.memWf) (c : Nat) : (s.zeroPool c).memWf := ⟨h.1, Map.wf_erase h.2 ..⟩

theorem State.keepOld_same (s : State) (core a n : Nat) : (s.keepOld core a n).SameBytes s :=
  foldUp_keeps (P := fun t : State => t.SameBytes s) (State.SameBytes.refl s) fun t k h => by
    dsimp only
    split
    · exact h
    · exact State.SameBytes.trans ⟨rfl, rfl, rfl⟩ h

theorem State.markWords_same (s : State) (core a n : Nat) (f : PoolFault) (p : Nat → Bool) : (s.markWords core a n f p).SameBytes s :=
  foldUp_keeps (P := fun t : State => t.SameBytes s) (State.SameBytes.refl s) fun t k h => by
    split
    · exact State.SameBytes.trans ⟨rfl, rfl, rfl⟩ h
    · exact h

theorem State.correctWords_same (s : State) (core a n : Nat) : (s.correctWords core a n).SameBytes s :=
  foldUp_keeps (P := fun t : State => t.SameBytes s) (State.SameBytes.refl s) fun t k h => by
    dsimp only
    split
    · exact (State.logEvent_same ..).trans (State.SameBytes.trans ⟨rfl, rfl, rfl⟩ h)
    · exact h

theorem State.meetFailing_same (s : State) (core a n : Nat) (p : Nat → Bool) : (s.meetFailing core a n p).SameBytes s :=
  foldUp_keeps (P := fun t : State => t.SameBytes s) (State.SameBytes.refl s) fun t k h => by
    split
    · exact (State.logEvent_same ..).trans (State.SameBytes.trans ⟨rfl, rfl, rfl⟩ h)
    · exact h

/-- A read of the pool changes no byte. -/
theorem State.poolRead_same (s : State) (core a n : Nat) : (s.poolRead core a n).2.SameBytes s := by
  simp only [State.poolRead]
  split
  · exact (State.correctWords_same ..).trans (State.meetFailing_same ..)
  · exact State.correctWords_same ..

/-- What a store leaves in the pools; HBM is unchanged. -/
theorem State.poolStore_pool (s : State) (core a : Nat) (bs : List Byte) :
    (s.poolStore core a bs).core.pool = s.core.pool.putList 0 (2 ^ 19 * core + a) bs ∧ (s.poolStore core a bs).mem.bytes = s.mem.bytes := by
  have h := State.markWords_same { s.keepOld core a bs.length with core := { (s.keepOld core a bs.length).core with
    pool := (s.keepOld core a bs.length).core.pool.putList 0 (2 ^ 19 * core + a) bs } } core a bs.length .good (coversWord a bs.length)
  have k := State.keepOld_same s core a bs.length
  exact ⟨h.2.2.trans (by rw [← k.2.2]), h.1.trans k.1⟩

theorem State.poolStore_memWf {s : State} (h : s.memWf) (core a : Nat) (bs : List Byte) : (s.poolStore core a bs).memWf := by
  have e := State.poolStore_pool s core a bs
  exact ⟨by simp only [MemState.wf, e.2]; exact h.1, by rw [e.1]; exact Map.wf_putList _ _ h.2⟩

theorem State.poolWrite_memWf {s : State} (h : s.memWf) (core a : Nat) (bs : List Byte) : (s.poolWrite core a bs).2.memWf := by
  simp only [State.poolWrite]
  split
  · exact (State.meetFailing_same ..).memWf h
  · exact State.poolStore_memWf h ..

theorem State.poolPattern_memWf {s : State} (h : s.memWf) (core a n : Nat) : (s.poolPattern core a n).memWf :=
  (State.markWords_same ..).memWf (State.poolStore_memWf h ..)

/-- A read of the bytes stored gives them back. -/
theorem State.poolBytes_poolStore (s : State) (core a : Nat) (bs : List Byte) : (s.poolStore core a bs).poolBytes core a bs.length = bs := by
  rw [State.poolBytes, (State.poolStore_pool s core a bs).1, Map.getList_eq]
  apply List.ext_getElem
  · simp
  · intro i h1 h2
    simp only [List.getElem_map, List.getElem_range]
    exact Map.find_putList_inside 0 bs _ _ h2

/-- A store leaves every other byte of every pool. -/
theorem State.poolByte_poolStore_other (s : State) (core a : Nat) (bs : List Byte) {c b : Nat}
    (h : 2 ^ 19 * c + b < 2 ^ 19 * core + a ∨ 2 ^ 19 * core + a + bs.length ≤ 2 ^ 19 * c + b) :
    (s.poolStore core a bs).poolByte c b = s.poolByte c b := by
  simp only [State.poolByte, (State.poolStore_pool s core a bs).1]
  exact Map.find_putList_outside 0 bs _ _ h

end Sys2Proof.Machine
end

