-- ==== Sys2Proof/Laws/PerInstr.lean ====
section
/-! SUPPORT. Statements made for every instruction, one lemma a constructor. -/
namespace Sys2Proof.Laws

theorem opOf_wordOf (op : BitVec 8) (f : Fields) : opOf (wordOf op f) = op := by
  unfold opOf tiwField wordOf
  ext k hk
  rw [BitVec.getElem_extractLsb', BitVec.getLsbD_append, if_neg (by omega), ← BitVec.getLsbD_eq_getElem]
  congr 1
  omega

theorem fieldsOf_wordOf (op : BitVec 8) (f : Fields) : fieldsOf (wordOf op f) = f := by
  obtain ⟨nxt, tgt, pq, pg, fmt, mod, d, a, b, c, x⟩ := f
  unfold fieldsOf tiwField wordOf
  congr 1
  case e_pg => simp only [BitVec.getLsbD_append]; simp
  all_goals
    ext k hk
    rw [BitVec.getElem_extractLsb', ← BitVec.getLsbD_eq_getElem]
    simp only [BitVec.getLsbD_append]
    simp (disch := omega) only [if_neg, if_pos]
    exact congrArg _ (by omega)

/-- The word that the encoder gives an instruction holds its opcode and its fields where R11 puts them. -/
def WellEncoded.Statement (i : Instr) : Prop :=
  ∀ word, encode i = some (false, word) → opcodeOf i = some (opOf word) ∧ operandsOf i = some (fieldsOf word)

theorem wellEncoded (i : Instr) (h : ∀ d, i ≠ .execLiteral d) : WellEncoded.Statement i := by
  intro word hw
  have he : encode i = (opcodeOf i).bind fun op => (operandsOf i).map fun f => (false, wordOf op f) := by
    unfold encode
    split
    · exact absurd rfl (h _)
    · rfl
  rw [he] at hw
  cases ho : opcodeOf i with
  | none => simp [ho] at hw
  | some op =>
    cases hf : operandsOf i with
    | none => simp [ho, hf] at hw
    | some f =>
      simp [ho, hf] at hw
      rw [← hw, opOf_wordOf, fieldsOf_wordOf]
      exact ⟨rfl, rfl⟩

theorem WellEncoded.nop (a) : WellEncoded.Statement (.nop a) := wellEncoded _ (by intro d h; cases h)
theorem WellEncoded.mov (a) : WellEncoded.Statement (.mov a) := wellEncoded _ (by intro d h; cases h)
theorem WellEncoded.ldi (a) : WellEncoded.Statement (.ldi a) := wellEncoded _ (by intro d h; cases h)
theorem WellEncoded.ldih (a) : WellEncoded.Statement (.ldih a) := wellEncoded _ (by intro d h; cases h)
theorem WellEncoded.ldl (a) : WellEncoded.Statement (.ldl a) := wellEncoded _ (by intro d h; cases h)
theorem WellEncoded.lea (a) : WellEncoded.Statement (.lea a) := wellEncoded _ (by intro d h; cases h)
theorem WellEncoded.add (a) : WellEncoded.Statement (.add a) := wellEncoded _ (by intro d h; cases h)
theorem WellEncoded.addc (a) : WellEncoded.Statement (.addc a) := wellEncoded _ (by intro d h; cases h)
theorem WellEncoded.sub (a) : WellEncoded.Statement (.sub a) := wellEncoded _ (by intro d h; cases h)
theorem WellEncoded.subb (a) : WellEncoded.Statement (.subb a) := wellEncoded _ (by intro d h; cases h)
theorem WellEncoded.neg (a) : WellEncoded.Statement (.neg a) := wellEncoded _ (by intro d h; cases h)
theorem WellEncoded.abs (a) : WellEncoded.Statement (.abs a) := wellEncoded _ (by intro d h; cases h)
theorem WellEncoded.min (a) : WellEncoded.Statement (.min a) := wellEncoded _ (by intro d h; cases h)
theorem WellEncoded.max (a) : WellEncoded.Statement (.max a) := wellEncoded _ (by intro d h; cases h)
theorem WellEncoded.clamp (a) : WellEncoded.Statement (.clamp a) := wellEncoded _ (by intro d h; cases h)
theorem WellEncoded.mul (a) : WellEncoded.Statement (.mul a) := wellEncoded _ (by intro d h; cases h)
theorem WellEncoded.mulh (a) : WellEncoded.Statement (.mulh a) := wellEncoded _ (by intro d h; cases h)
theorem WellEncoded.mad (a) : WellEncoded.Statement (.mad a) := wellEncoded _ (by intro d h; cases h)
theorem WellEncoded.div (a) : WellEncoded.Statement (.div a) := wellEncoded _ (by intro d h; cases h)
theorem WellEncoded.rem (a) : WellEncoded.Statement (.rem a) := wellEncoded _ (by intro d h; cases h)
theorem WellEncoded.adds (a) : WellEncoded.Statement (.adds a) := wellEncoded _ (by intro d h; cases h)
theorem WellEncoded.subs (a) : WellEncoded.Statement (.subs a) := wellEncoded _ (by intro d h; cases h)
theorem WellEncoded.avg (a) : WellEncoded.Statement (.avg a) := wellEncoded _ (by intro d h; cases h)
theorem WellEncoded.absd (a) : WellEncoded.Statement (.absd a) := wellEncoded _ (by intro d h; cases h)
theorem WellEncoded.sad (a) : WellEncoded.Statement (.sad a) := wellEncoded _ (by intro d h; cases h)
theorem WellEncoded.wmul (a) : WellEncoded.Statement (.wmul a) := wellEncoded _ (by intro d h; cases h)
theorem WellEncoded.wadd (a) : WellEncoded.Statement (.wadd a) := wellEncoded _ (by intro d h; cases h)
theorem WellEncoded.doti (a) : WellEncoded.Statement (.doti a) := wellEncoded _ (by intro d h; cases h)
theorem WellEncoded.and (a) : WellEncoded.Statement (.and a) := wellEncoded _ (by intro d h; cases h)
theorem WellEncoded.or (a) : WellEncoded.Statement (.or a) := wellEncoded _ (by intro d h; cases h)
theorem WellEncoded.xor (a) : WellEncoded.Statement (.xor a) := wellEncoded _ (by intro d h; cases h)
theorem WellEncoded.andn (a) : WellEncoded.Statement (.andn a) := wellEncoded _ (by intro d h; cases h)
theorem WellEncoded.orn (a) : WellEncoded.Statement (.orn a) := wellEncoded _ (by intro d h; cases h)
theorem WellEncoded.shl (a) : WellEncoded.Statement (.shl a) := wellEncoded _ (by intro d h; cases h)
theorem WellEncoded.shr (a) : WellEncoded.Statement (.shr a) := wellEncoded _ (by intro d h; cases h)
theorem WellEncoded.sar (a) : WellEncoded.Statement (.sar a) := wellEncoded _ (by intro d h; cases h)
theorem WellEncoded.rol (a) : WellEncoded.Statement (.rol a) := wellEncoded _ (by intro d h; cases h)
theorem WellEncoded.bfx (a) : WellEncoded.Statement (.bfx a) := wellEncoded _ (by intro d h; cases h)
theorem WellEncoded.bfi (a) : WellEncoded.Statement (.bfi a) := wellEncoded _ (by intro d h; cases h)
theorem WellEncoded.popc (a) : WellEncoded.Statement (.popc a) := wellEncoded _ (by intro d h; cases h)
theorem WellEncoded.clz (a) : WellEncoded.Statement (.clz a) := wellEncoded _ (by intro d h; cases h)
theorem WellEncoded.ctz (a) : WellEncoded.Statement (.ctz a) := wellEncoded _ (by intro d h; cases h)
theorem WellEncoded.brev (a) : WellEncoded.Statement (.brev a) := wellEncoded _ (by intro d h; cases h)
theorem WellEncoded.cmp (a) : WellEncoded.Statement (.cmp a) := wellEncoded _ (by intro d h; cases h)
theorem WellEncoded.sel (a) : WellEncoded.Statement (.sel a) := wellEncoded _ (by intro d h; cases h)
theorem WellEncoded.sext (a) : WellEncoded.Statement (.sext a) := wellEncoded _ (by intro d h; cases h)
theorem WellEncoded.zext (a) : WellEncoded.Statement (.zext a) := wellEncoded _ (by intro d h; cases h)
theorem WellEncoded.packs (a) : WellEncoded.Statement (.packs a) := wellEncoded _ (by intro d h; cases h)
theorem WellEncoded.qand (a) : WellEncoded.Statement (.qand a) := wellEncoded _ (by intro d h; cases h)
theorem WellEncoded.qor (a) : WellEncoded.Statement (.qor a) := wellEncoded _ (by intro d h; cases h)
theorem WellEncoded.qxor (a) : WellEncoded.Statement (.qxor a) := wellEncoded _ (by intro d h; cases h)
theorem WellEncoded.qnot (a) : WellEncoded.Statement (.qnot a) := wellEncoded _ (by intro d h; cases h)
theorem WellEncoded.qmov (a) : WellEncoded.Statement (.qmov a) := wellEncoded _ (by intro d h; cases h)
theorem WellEncoded.qany (a) : WellEncoded.Statement (.qany a) := wellEncoded _ (by intro d h; cases h)
theorem WellEncoded.lcset (a) : WellEncoded.Statement (.lcset a) := wellEncoded _ (by intro d h; cases h)
theorem WellEncoded.lcget (a) : WellEncoded.Statement (.lcget a) := wellEncoded _ (by intro d h; cases h)
theorem WellEncoded.fadd (a) : WellEncoded.Statement (.fadd a) := wellEncoded _ (by intro d h; cases h)
theorem WellEncoded.fsub (a) : WellEncoded.Statement (.fsub a) := wellEncoded _ (by intro d h; cases h)
theorem WellEncoded.fmul (a) : WellEncoded.Statement (.fmul a) := wellEncoded _ (by intro d h; cases h)
theorem WellEncoded.fma (a) : WellEncoded.Statement (.fma a) := wellEncoded _ (by intro d h; cases h)
theorem WellEncoded.fms (a) : WellEncoded.Statement (.fms a) := wellEncoded _ (by intro d h; cases h)
theorem WellEncoded.fnma (a) : WellEncoded.Statement (.fnma a) := wellEncoded _ (by intro d h; cases h)
theorem WellEncoded.fnms (a) : WellEncoded.Statement (.fnms a) := wellEncoded _ (by intro d h; cases h)
theorem WellEncoded.fdiv (a) : WellEncoded.Statement (.fdiv a) := wellEncoded _ (by intro d h; cases h)
theorem WellEncoded.fmin (a) : WellEncoded.Statement (.fmin a) := wellEncoded _ (by intro d h; cases h)
theorem WellEncoded.fmax (a) : WellEncoded.Statement (.fmax a) := wellEncoded _ (by intro d h; cases h)
theorem WellEncoded.fminn (a) : WellEncoded.Statement (.fminn a) := wellEncoded _ (by intro d h; cases h)
theorem WellEncoded.fmaxn (a) : WellEncoded.Statement (.fmaxn a) := wellEncoded _ (by intro d h; cases h)
theorem WellEncoded.fabs (a) : WellEncoded.Statement (.fabs a) := wellEncoded _ (by intro d h; cases h)
theorem WellEncoded.fneg (a) : WellEncoded.Statement (.fneg a) := wellEncoded _ (by intro d h; cases h)
theorem WellEncoded.fcpys (a) : WellEncoded.Statement (.fcpys a) := wellEncoded _ (by intro d h; cases h)
theorem WellEncoded.fcmp (a) : WellEncoded.Statement (.fcmp a) := wellEncoded _ (by intro d h; cases h)
theorem WellEncoded.fclass (a) : WellEncoded.Statement (.fclass a) := wellEncoded _ (by intro d h; cases h)
theorem WellEncoded.frint (a) : WellEncoded.Statement (.frint a) := wellEncoded _ (by intro d h; cases h)
theorem WellEncoded.fdot (a) : WellEncoded.Statement (.fdot a) := wellEncoded _ (by intro d h; cases h)
theorem WellEncoded.vred (a) : WellEncoded.Statement (.vred a) := wellEncoded _ (by intro d h; cases h)
theorem WellEncoded.vscan (a) : WellEncoded.Statement (.vscan a) := wellEncoded _ (by intro d h; cases h)
theorem WellEncoded.vperm (a) : WellEncoded.Statement (.vperm a) := wellEncoded _ (by intro d h; cases h)
theorem WellEncoded.vshuf (a) : WellEncoded.Statement (.vshuf a) := wellEncoded _ (by intro d h; cases h)
theorem WellEncoded.vbcast (a) : WellEncoded.Statement (.vbcast a) := wellEncoded _ (by intro d h; cases h)
theorem WellEncoded.vsel (a) : WellEncoded.Statement (.vsel a) := wellEncoded _ (by intro d h; cases h)
theorem WellEncoded.vins (a) : WellEncoded.Statement (.vins a) := wellEncoded _ (by intro d h; cases h)
theorem WellEncoded.vext (a) : WellEncoded.Statement (.vext a) := wellEncoded _ (by intro d h; cases h)
theorem WellEncoded.vrot (a) : WellEncoded.Statement (.vrot a) := wellEncoded _ (by intro d h; cases h)
theorem WellEncoded.vcmpr (a) : WellEncoded.Statement (.vcmpr a) := wellEncoded _ (by intro d h; cases h)
theorem WellEncoded.vexpd (a) : WellEncoded.Statement (.vexpd a) := wellEncoded _ (by intro d h; cases h)
theorem WellEncoded.vzip (a) : WellEncoded.Statement (.vzip a) := wellEncoded _ (by intro d h; cases h)
theorem WellEncoded.vunzip (a) : WellEncoded.Statement (.vunzip a) := wellEncoded _ (by intro d h; cases h)
theorem WellEncoded.vsort (a) : WellEncoded.Statement (.vsort a) := wellEncoded _ (by intro d h; cases h)
theorem WellEncoded.viota (a) : WellEncoded.Statement (.viota a) := wellEncoded _ (by intro d h; cases h)
theorem WellEncoded.vmask (a) : WellEncoded.Statement (.vmask a) := wellEncoded _ (by intro d h; cases h)
theorem WellEncoded.cvt (a) : WellEncoded.Statement (.cvt a) := wellEncoded _ (by intro d h; cases h)
theorem WellEncoded.cvtfi (a) : WellEncoded.Statement (.cvtfi a) := wellEncoded _ (by intro d h; cases h)
theorem WellEncoded.cvtif (a) : WellEncoded.Statement (.cvtif a) := wellEncoded _ (by intro d h; cases h)
theorem WellEncoded.lgenc (a) : WellEncoded.Statement (.lgenc a) := wellEncoded _ (by intro d h; cases h)
theorem WellEncoded.lgdec (a) : WellEncoded.Statement (.lgdec a) := wellEncoded _ (by intro d h; cases h)
theorem WellEncoded.lgmul (a) : WellEncoded.Statement (.lgmul a) := wellEncoded _ (by intro d h; cases h)
theorem WellEncoded.t5pack (a) : WellEncoded.Statement (.t5pack a) := wellEncoded _ (by intro d h; cases h)
theorem WellEncoded.t5unpk (a) : WellEncoded.Statement (.t5unpk a) := wellEncoded _ (by intro d h; cases h)
theorem WellEncoded.rcp (a) : WellEncoded.Statement (.rcp a) := wellEncoded _ (by intro d h; cases h)
theorem WellEncoded.rsq (a) : WellEncoded.Statement (.rsq a) := wellEncoded _ (by intro d h; cases h)
theorem WellEncoded.sqrt (a) : WellEncoded.Statement (.sqrt a) := wellEncoded _ (by intro d h; cases h)
theorem WellEncoded.exp2 (a) : WellEncoded.Statement (.exp2 a) := wellEncoded _ (by intro d h; cases h)
theorem WellEncoded.lg2 (a) : WellEncoded.Statement (.lg2 a) := wellEncoded _ (by intro d h; cases h)
theorem WellEncoded.sinpi (a) : WellEncoded.Statement (.sinpi a) := wellEncoded _ (by intro d h; cases h)
theorem WellEncoded.cospi (a) : WellEncoded.Statement (.cospi a) := wellEncoded _ (by intro d h; cases h)
theorem WellEncoded.tanh (a) : WellEncoded.Statement (.tanh a) := wellEncoded _ (by intro d h; cases h)
theorem WellEncoded.erf (a) : WellEncoded.Statement (.erf a) := wellEncoded _ (by intro d h; cases h)
theorem WellEncoded.amaxv (a) : WellEncoded.Statement (.amaxv a) := wellEncoded _ (by intro d h; cases h)
theorem WellEncoded.fscaleb (a) : WellEncoded.Statement (.fscaleb a) := wellEncoded _ (by intro d h; cases h)
theorem WellEncoded.fgetexp (a) : WellEncoded.Statement (.fgetexp a) := wellEncoded _ (by intro d h; cases h)
theorem WellEncoded.ld (a) : WellEncoded.Statement (.ld a) := wellEncoded _ (by intro d h; cases h)
theorem WellEncoded.st (a) : WellEncoded.Statement (.st a) := wellEncoded _ (by intro d h; cases h)
theorem WellEncoded.ldv (a) : WellEncoded.Statement (.ldv a) := wellEncoded _ (by intro d h; cases h)
theorem WellEncoded.stv (a) : WellEncoded.Statement (.stv a) := wellEncoded _ (by intro d h; cases h)
theorem WellEncoded.atom (a) : WellEncoded.Statement (.atom a) := wellEncoded _ (by intro d h; cases h)
theorem WellEncoded.atomr (a) : WellEncoded.Statement (.atomr a) := wellEncoded _ (by intro d h; cases h)
theorem WellEncoded.cas (a) : WellEncoded.Statement (.cas a) := wellEncoded _ (by intro d h; cases h)
theorem WellEncoded.hins (a) : WellEncoded.Statement (.hins a) := wellEncoded _ (by intro d h; cases h)
theorem WellEncoded.copy (a) : WellEncoded.Statement (.copy a) := wellEncoded _ (by intro d h; cases h)
theorem WellEncoded.fill (a) : WellEncoded.Statement (.fill a) := wellEncoded _ (by intro d h; cases h)
theorem WellEncoded.fence (a) : WellEncoded.Statement (.fence a) := wellEncoded _ (by intro d h; cases h)
theorem WellEncoded.adv (a) : WellEncoded.Statement (.adv a) := wellEncoded _ (by intro d h; cases h)
theorem WellEncoded.emit (a) : WellEncoded.Statement (.emit a) := wellEncoded _ (by intro d h; cases h)
theorem WellEncoded.emitm (a) : WellEncoded.Statement (.emitm a) := wellEncoded _ (by intro d h; cases h)
theorem WellEncoded.testm (a) : WellEncoded.Statement (.testm a) := wellEncoded _ (by intro d h; cases h)
theorem WellEncoded.nxtile (a) : WellEncoded.Statement (.nxtile a) := wellEncoded _ (by intro d h; cases h)
theorem WellEncoded.sopen (a) : WellEncoded.Statement (.sopen a) := wellEncoded _ (by intro d h; cases h)
theorem WellEncoded.sadv (a) : WellEncoded.Statement (.sadv a) := wellEncoded _ (by intro d h; cases h)
theorem WellEncoded.stend (a) : WellEncoded.Statement (.stend a) := wellEncoded _ (by intro d h; cases h)
theorem WellEncoded.sclose (a) : WellEncoded.Statement (.sclose a) := wellEncoded _ (by intro d h; cases h)
theorem WellEncoded.sread (a) : WellEncoded.Statement (.sread a) := wellEncoded _ (by intro d h; cases h)
theorem WellEncoded.fopen (a) : WellEncoded.Statement (.fopen a) := wellEncoded _ (by intro d h; cases h)
theorem WellEncoded.fadv (a) : WellEncoded.Statement (.fadv a) := wellEncoded _ (by intro d h; cases h)
theorem WellEncoded.ftend (a) : WellEncoded.Statement (.ftend a) := wellEncoded _ (by intro d h; cases h)
theorem WellEncoded.fclose (a) : WellEncoded.Statement (.fclose a) := wellEncoded _ (by intro d h; cases h)
theorem WellEncoded.fisect (a) : WellEncoded.Statement (.fisect a) := wellEncoded _ (by intro d h; cases h)
theorem WellEncoded.fisectc (a) : WellEncoded.Statement (.fisectc a) := wellEncoded _ (by intro d h; cases h)
theorem WellEncoded.tclaim (a) : WellEncoded.Statement (.tclaim a) := wellEncoded _ (by intro d h; cases h)
theorem WellEncoded.trel (a) : WellEncoded.Statement (.trel a) := wellEncoded _ (by intro d h; cases h)
theorem WellEncoded.tfill (a) : WellEncoded.Statement (.tfill a) := wellEncoded _ (by intro d h; cases h)
theorem WellEncoded.ttask (a) : WellEncoded.Statement (.ttask a) := wellEncoded _ (by intro d h; cases h)
theorem WellEncoded.twait (a) : WellEncoded.Statement (.twait a) := wellEncoded _ (by intro d h; cases h)
theorem WellEncoded.tstat (a) : WellEncoded.Statement (.tstat a) := wellEncoded _ (by intro d h; cases h)
theorem WellEncoded.scacc (a) : WellEncoded.Statement (.scacc a) := wellEncoded _ (by intro d h; cases h)
theorem WellEncoded.scale (a) : WellEncoded.Statement (.scale a) := wellEncoded _ (by intro d h; cases h)
theorem WellEncoded.ovfcfg (a) : WellEncoded.Statement (.ovfcfg a) := wellEncoded _ (by intro d h; cases h)
theorem WellEncoded.tdep (a) : WellEncoded.Statement (.tdep a) := wellEncoded _ (by intro d h; cases h)
theorem WellEncoded.tdepAdd (a) : WellEncoded.Statement (.tdepAdd a) := wellEncoded _ (by intro d h; cases h)
theorem WellEncoded.cpy (a) : WellEncoded.Statement (.cpy a) := wellEncoded _ (by intro d h; cases h)
theorem WellEncoded.gath (a) : WellEncoded.Statement (.gath a) := wellEncoded _ (by intro d h; cases h)
theorem WellEncoded.scat (a) : WellEncoded.Statement (.scat a) := wellEncoded _ (by intro d h; cases h)
theorem WellEncoded.fgrd (a) : WellEncoded.Statement (.fgrd a) := wellEncoded _ (by intro d h; cases h)
theorem WellEncoded.fgwr (a) : WellEncoded.Statement (.fgwr a) := wellEncoded _ (by intro d h; cases h)
theorem WellEncoded.xchg (a) : WellEncoded.Statement (.xchg a) := wellEncoded _ (by intro d h; cases h)
theorem WellEncoded.xchgRaw (a) : WellEncoded.Statement (.xchgRaw a) := wellEncoded _ (by intro d h; cases h)
theorem WellEncoded.ratom (a) : WellEncoded.Statement (.ratom a) := wellEncoded _ (by intro d h; cases h)
theorem WellEncoded.cwait (a) : WellEncoded.Statement (.cwait a) := wellEncoded _ (by intro d h; cases h)
theorem WellEncoded.resume (a) : WellEncoded.Statement (.resume a) := wellEncoded _ (by intro d h; cases h)
theorem WellEncoded.resumeFail (a) : WellEncoded.Statement (.resumeFail a) := wellEncoded _ (by intro d h; cases h)
theorem WellEncoded.pref (a) : WellEncoded.Statement (.pref a) := wellEncoded _ (by intro d h; cases h)
theorem WellEncoded.bara (a) : WellEncoded.Statement (.bara a) := wellEncoded _ (by intro d h; cases h)
theorem WellEncoded.barw (a) : WellEncoded.Statement (.barw a) := wellEncoded _ (by intro d h; cases h)
theorem WellEncoded.barwT (a) : WellEncoded.Statement (.barwT a) := wellEncoded _ (by intro d h; cases h)
theorem WellEncoded.barex (a) : WellEncoded.Statement (.barex a) := wellEncoded _ (by intro d h; cases h)
theorem WellEncoded.launch (a) : WellEncoded.Statement (.launch a) := wellEncoded _ (by intro d h; cases h)
theorem WellEncoded.trap (a) : WellEncoded.Statement (.trap a) := wellEncoded _ (by intro d h; cases h)
theorem WellEncoded.csrr (a) : WellEncoded.Statement (.csrr a) := wellEncoded _ (by intro d h; cases h)
theorem WellEncoded.csrw (a) : WellEncoded.Statement (.csrw a) := wellEncoded _ (by intro d h; cases h)
theorem WellEncoded.evlog (a) : WellEncoded.Statement (.evlog a) := wellEncoded _ (by intro d h; cases h)
theorem WellEncoded.mext (a) : WellEncoded.Statement (.mext a) := wellEncoded _ (by intro d h; cases h)
theorem WellEncoded.attest (a) : WellEncoded.Statement (.attest a) := wellEncoded _ (by intro d h; cases h)
theorem WellEncoded.sagvfyUnlock (a) : WellEncoded.Statement (.sagvfyUnlock a) := wellEncoded _ (by intro d h; cases h)
theorem WellEncoded.sagvfyManifest (a) : WellEncoded.Statement (.sagvfyManifest a) := wellEncoded _ (by intro d h; cases h)
theorem WellEncoded.keywipe (a) : WellEncoded.Statement (.keywipe a) := wellEncoded _ (by intro d h; cases h)
theorem WellEncoded.keywipeAll (a) : WellEncoded.Statement (.keywipeAll a) := wellEncoded _ (by intro d h; cases h)
theorem WellEncoded.dbgopen (a) : WellEncoded.Statement (.dbgopen a) := wellEncoded _ (by intro d h; cases h)
theorem WellEncoded.fuserd (a) : WellEncoded.Statement (.fuserd a) := wellEncoded _ (by intro d h; cases h)
theorem WellEncoded.yield (a) : WellEncoded.Statement (.yield a) := wellEncoded _ (by intro d h; cases h)
theorem WellEncoded.wdog (a) : WellEncoded.Statement (.wdog a) := wellEncoded _ (by intro d h; cases h)
theorem WellEncoded.illegalOp (a) (b) : WellEncoded.Statement (.illegalOp a b) := wellEncoded _ (by intro d h; cases h)
theorem WellEncoded.execLiteral (a) : WellEncoded.Statement (.execLiteral a) := fun _ h => nomatch h
theorem WellEncoded.dataFiringStart (a) : WellEncoded.Statement (.dataFiringStart a) := wellEncoded _ (by intro d h; cases h)
theorem WellEncoded.markerFiring (a) : WellEncoded.Statement (.markerFiring a) := wellEncoded _ (by intro d h; cases h)
theorem WellEncoded.suspendedResume (a) : WellEncoded.Statement (.suspendedResume a) := wellEncoded _ (by intro d h; cases h)
theorem WellEncoded.realignStart (a) (b) : WellEncoded.Statement (.realignStart a b) := wellEncoded _ (by intro d h; cases h)
theorem WellEncoded.realignDiscard (a) (b) (c) : WellEncoded.Statement (.realignDiscard a b c) := wellEncoded _ (by intro d h; cases h)
theorem WellEncoded.realignPoisonEmit (a) (b) (c) : WellEncoded.Statement (.realignPoisonEmit a b c) := wellEncoded _ (by intro d h; cases h)
theorem WellEncoded.timingDetectorFlag (a) (b) : WellEncoded.Statement (.timingDetectorFlag a b) := wellEncoded _ (by intro d h; cases h)
theorem WellEncoded.localPortDeliver (a) : WellEncoded.Statement (.localPortDeliver a) := wellEncoded _ (by intro d h; cases h)
theorem WellEncoded.localPortTake (a) : WellEncoded.Statement (.localPortTake a) := wellEncoded _ (by intro d h; cases h)
theorem WellEncoded.routeHop (a) (b) (c) : WellEncoded.Statement (.routeHop a b c) := wellEncoded _ (by intro d h; cases h)
theorem WellEncoded.elementPortTransfer (a) (b) : WellEncoded.Statement (.elementPortTransfer a b) := wellEncoded _ (by intro d h; cases h)
theorem WellEncoded.passFiring (a) (b) : WellEncoded.Statement (.passFiring a b) := wellEncoded _ (by intro d h; cases h)
theorem WellEncoded.steerFiring (a) (b) : WellEncoded.Statement (.steerFiring a b) := wellEncoded _ (by intro d h; cases h)
theorem WellEncoded.mergeFiring (a) (b) : WellEncoded.Statement (.mergeFiring a b) := wellEncoded _ (by intro d h; cases h)
theorem WellEncoded.forkFiring (a) (b) : WellEncoded.Statement (.forkFiring a b) := wellEncoded _ (by intro d h; cases h)
theorem WellEncoded.joinFiring (a) (b) : WellEncoded.Statement (.joinFiring a b) := wellEncoded _ (by intro d h; cases h)
theorem WellEncoded.gateFiring (a) (b) : WellEncoded.Statement (.gateFiring a b) := wellEncoded _ (by intro d h; cases h)
theorem WellEncoded.filterFiring (a) (b) : WellEncoded.Statement (.filterFiring a b) := wellEncoded _ (by intro d h; cases h)
theorem WellEncoded.operatorMarkerFiring (a) (b) : WellEncoded.Statement (.operatorMarkerFiring a b) := wellEncoded _ (by intro d h; cases h)
theorem WellEncoded.operatorRealignDiscard (a) (b) : WellEncoded.Statement (.operatorRealignDiscard a b) := wellEncoded _ (by intro d h; cases h)
theorem WellEncoded.carryFiring (a) (b) : WellEncoded.Statement (.carryFiring a b) := wellEncoded _ (by intro d h; cases h)
theorem WellEncoded.irepFiring (a) (b) : WellEncoded.Statement (.irepFiring a b) := wellEncoded _ (by intro d h; cases h)
theorem WellEncoded.loopgenLoad (a) (b) : WellEncoded.Statement (.loopgenLoad a b) := wellEncoded _ (by intro d h; cases h)
theorem WellEncoded.loopgenEmit (a) (b) : WellEncoded.Statement (.loopgenEmit a b) := wellEncoded _ (by intro d h; cases h)
theorem WellEncoded.sinkFiring (a) (b) : WellEncoded.Statement (.sinkFiring a b) := wellEncoded _ (by intro d h; cases h)
theorem WellEncoded.mcutPass (a) (b) : WellEncoded.Statement (.mcutPass a b) := wellEncoded _ (by intro d h; cases h)
theorem WellEncoded.mcutGatingRequest (a) (b) : WellEncoded.Statement (.mcutGatingRequest a b) := wellEncoded _ (by intro d h; cases h)
theorem WellEncoded.mcutRelease (a) (b) : WellEncoded.Statement (.mcutRelease a b) := wellEncoded _ (by intro d h; cases h)
theorem WellEncoded.memnodeAccept (a) (b) : WellEncoded.Statement (.memnodeAccept a b) := wellEncoded _ (by intro d h; cases h)
theorem WellEncoded.memnodePerform (a) (b) : WellEncoded.Statement (.memnodePerform a b) := wellEncoded _ (by intro d h; cases h)
theorem WellEncoded.memnodeResultEmit (a) (b) : WellEncoded.Statement (.memnodeResultEmit a b) := wellEncoded _ (by intro d h; cases h)
theorem WellEncoded.memnodeMarker (a) (b) : WellEncoded.Statement (.memnodeMarker a b) := wellEncoded _ (by intro d h; cases h)
theorem WellEncoded.memnodePairRealign (a) (b) : WellEncoded.Statement (.memnodePairRealign a b) := wellEncoded _ (by intro d h; cases h)
theorem WellEncoded.poolEccWriteback (a) (b) : WellEncoded.Statement (.poolEccWriteback a b) := wellEncoded _ (by intro d h; cases h)
theorem WellEncoded.agenSweepStart (a) : WellEncoded.Statement (.agenSweepStart a) := wellEncoded _ (by intro d h; cases h)
theorem WellEncoded.agenTrigger (a) : WellEncoded.Statement (.agenTrigger a) := wellEncoded _ (by intro d h; cases h)
theorem WellEncoded.agenEmit (a) : WellEncoded.Statement (.agenEmit a) := wellEncoded _ (by intro d h; cases h)
theorem WellEncoded.agenGatingRequest (a) : WellEncoded.Statement (.agenGatingRequest a) := wellEncoded _ (by intro d h; cases h)
theorem WellEncoded.glazeAccept (a) : WellEncoded.Statement (.glazeAccept a) := wellEncoded _ (by intro d h; cases h)
theorem WellEncoded.glazeOutput (a) : WellEncoded.Statement (.glazeOutput a) := wellEncoded _ (by intro d h; cases h)
theorem WellEncoded.barrierPerform (a) : WellEncoded.Statement (.barrierPerform a) := wellEncoded _ (by intro d h; cases h)
theorem WellEncoded.trapQueueWrite : WellEncoded.Statement (.trapQueueWrite) := wellEncoded _ (by intro d h; cases h)
theorem WellEncoded.cometAccess (a) (b) (c) : WellEncoded.Statement (.cometAccess a b c) := wellEncoded _ (by intro d h; cases h)
theorem WellEncoded.graphPortAccept (a) (b) : WellEncoded.Statement (.graphPortAccept a b) := wellEncoded _ (by intro d h; cases h)
theorem WellEncoded.graphPortResult (a) (b) : WellEncoded.Statement (.graphPortResult a b) := wellEncoded _ (by intro d h; cases h)
theorem WellEncoded.cometCommandPerform (a) (b) : WellEncoded.Statement (.cometCommandPerform a b) := wellEncoded _ (by intro d h; cases h)
theorem WellEncoded.streamFetch (a) (b) (c) : WellEncoded.Statement (.streamFetch a b c) := wellEncoded _ (by intro d h; cases h)
theorem WellEncoded.streamFetchReturn (a) (b) (c) (d) : WellEncoded.Statement (.streamFetchReturn a b c d) := wellEncoded _ (by intro d h; cases h)
theorem WellEncoded.gatherUnitServe (a) : WellEncoded.Statement (.gatherUnitServe a) := wellEncoded _ (by intro d h; cases h)
theorem WellEncoded.kilnSubtileIssue (a) : WellEncoded.Statement (.kilnSubtileIssue a) := wellEncoded _ (by intro d h; cases h)
theorem WellEncoded.kilnRecordFailReady (a) : WellEncoded.Statement (.kilnRecordFailReady a) := wellEncoded _ (by intro d h; cases h)
theorem WellEncoded.kilnSubtileStart (a) : WellEncoded.Statement (.kilnSubtileStart a) := wellEncoded _ (by intro d h; cases h)
theorem WellEncoded.kilnStep (a) : WellEncoded.Statement (.kilnStep a) := wellEncoded _ (by intro d h; cases h)
theorem WellEncoded.kilnSpillEnd (a) : WellEncoded.Statement (.kilnSpillEnd a) := wellEncoded _ (by intro d h; cases h)
theorem WellEncoded.kilnDrain (a) : WellEncoded.Statement (.kilnDrain a) := wellEncoded _ (by intro d h; cases h)
theorem WellEncoded.kilnRecordComplete (a) (b) : WellEncoded.Statement (.kilnRecordComplete a b) := wellEncoded _ (by intro d h; cases h)
theorem WellEncoded.kilnSubtileMigrate (a) : WellEncoded.Statement (.kilnSubtileMigrate a) := wellEncoded _ (by intro d h; cases h)
theorem WellEncoded.tfillSourceCheck (a) (b) : WellEncoded.Statement (.tfillSourceCheck a b) := wellEncoded _ (by intro d h; cases h)
theorem WellEncoded.tfillComplete (a) (b) : WellEncoded.Statement (.tfillComplete a b) := wellEncoded _ (by intro d h; cases h)
theorem WellEncoded.meshFlitHop (a) (b) : WellEncoded.Statement (.meshFlitHop a b) := wellEncoded _ (by intro d h; cases h)
theorem WellEncoded.packetAgePromote (a) (b) (c) : WellEncoded.Statement (.packetAgePromote a b c) := wellEncoded _ (by intro d h; cases h)
theorem WellEncoded.meshCrcReplay (a) (b) (c) : WellEncoded.Statement (.meshCrcReplay a b c) := wellEncoded _ (by intro d h; cases h)
theorem WellEncoded.controllerRead (a) : WellEncoded.Statement (.controllerRead a) := wellEncoded _ (by intro d h; cases h)
theorem WellEncoded.parityRebuild (a) : WellEncoded.Statement (.parityRebuild a) := wellEncoded _ (by intro d h; cases h)
theorem WellEncoded.controllerWrite (a) : WellEncoded.Statement (.controllerWrite a) := wellEncoded _ (by intro d h; cases h)
theorem WellEncoded.parityUpdate (a) : WellEncoded.Statement (.parityUpdate a) := wellEncoded _ (by intro d h; cases h)
theorem WellEncoded.tagUe (a) (b) : WellEncoded.Statement (.tagUe a b) := wellEncoded _ (by intro d h; cases h)
theorem WellEncoded.loaderFrameRead (a) : WellEncoded.Statement (.loaderFrameRead a) := wellEncoded _ (by intro d h; cases h)
theorem WellEncoded.configCacheLookup (a) : WellEncoded.Statement (.configCacheLookup a) := wellEncoded _ (by intro d h; cases h)
theorem WellEncoded.quiescenceSweep (a) : WellEncoded.Statement (.quiescenceSweep a) := wellEncoded _ (by intro d h; cases h)
theorem WellEncoded.dieHeartbeat (a) : WellEncoded.Statement (.dieHeartbeat a) := wellEncoded _ (by intro d h; cases h)
theorem WellEncoded.heartbeatMissing (a) : WellEncoded.Statement (.heartbeatMissing a) := wellEncoded _ (by intro d h; cases h)
theorem WellEncoded.deadlockTimeout (a) (b) (c) : WellEncoded.Statement (.deadlockTimeout a b c) := wellEncoded _ (by intro d h; cases h)
theorem WellEncoded.watchdogExpiry (a) (b) : WellEncoded.Statement (.watchdogExpiry a b) := wellEncoded _ (by intro d h; cases h)
theorem WellEncoded.hubTick : WellEncoded.Statement (.hubTick) := wellEncoded _ (by intro d h; cases h)
theorem WellEncoded.launchNoticeApply (a) : WellEncoded.Statement (.launchNoticeApply a) := wellEncoded _ (by intro d h; cases h)
theorem WellEncoded.tickNoticeApply (a) : WellEncoded.Statement (.tickNoticeApply a) := wellEncoded _ (by intro d h; cases h)
theorem WellEncoded.loadedNoticeApply (a) : WellEncoded.Statement (.loadedNoticeApply a) := wellEncoded _ (by intro d h; cases h)
theorem WellEncoded.endedNoticeApply (a) : WellEncoded.Statement (.endedNoticeApply a) := wellEncoded _ (by intro d h; cases h)
theorem WellEncoded.savedNoticeApply (a) : WellEncoded.Statement (.savedNoticeApply a) := wellEncoded _ (by intro d h; cases h)
theorem WellEncoded.committedNoticeApply (a) : WellEncoded.Statement (.committedNoticeApply a) := wellEncoded _ (by intro d h; cases h)
theorem WellEncoded.errorNoticeApply (a) : WellEncoded.Statement (.errorNoticeApply a) := wellEncoded _ (by intro d h; cases h)
theorem WellEncoded.preemptNoticeApply (a) : WellEncoded.Statement (.preemptNoticeApply a) := wellEncoded _ (by intro d h; cases h)
theorem WellEncoded.resumeNoticeApply (a) : WellEncoded.Statement (.resumeNoticeApply a) := wellEncoded _ (by intro d h; cases h)
theorem WellEncoded.killNoticeApply (a) : WellEncoded.Statement (.killNoticeApply a) := wellEncoded _ (by intro d h; cases h)
theorem WellEncoded.killDrainEnd (a) (b) (c) : WellEncoded.Statement (.killDrainEnd a b c) := wellEncoded _ (by intro d h; cases h)
theorem WellEncoded.watchdogNoticeApply (a) : WellEncoded.Statement (.watchdogNoticeApply a) := wellEncoded _ (by intro d h; cases h)
theorem WellEncoded.digestNoticeApply : WellEncoded.Statement (.digestNoticeApply) := wellEncoded _ (by intro d h; cases h)
theorem WellEncoded.csrNoticeApply (a) : WellEncoded.Statement (.csrNoticeApply a) := wellEncoded _ (by intro d h; cases h)
theorem WellEncoded.phaseNoticeApply (a) : WellEncoded.Statement (.phaseNoticeApply a) := wellEncoded _ (by intro d h; cases h)
theorem WellEncoded.histNoticeApply (a) : WellEncoded.Statement (.histNoticeApply a) := wellEncoded _ (by intro d h; cases h)
theorem WellEncoded.dieLossApply (a) : WellEncoded.Statement (.dieLossApply a) := wellEncoded _ (by intro d h; cases h)
theorem WellEncoded.linkSplitApply (a) : WellEncoded.Statement (.linkSplitApply a) := wellEncoded _ (by intro d h; cases h)
theorem WellEncoded.wheelHistogramRead (a) (b) : WellEncoded.Statement (.wheelHistogramRead a b) := wellEncoded _ (by intro d h; cases h)
theorem WellEncoded.saveAreaAllocate : WellEncoded.Statement (.saveAreaAllocate) := wellEncoded _ (by intro d h; cases h)
theorem WellEncoded.saveRecordWrite (a) (b) (c) : WellEncoded.Statement (.saveRecordWrite a b c) := wellEncoded _ (by intro d h; cases h)
theorem WellEncoded.commitWrite (a) (b) (c) : WellEncoded.Statement (.commitWrite a b c) := wellEncoded _ (by intro d h; cases h)
theorem WellEncoded.exchangeStep (a) : WellEncoded.Statement (.exchangeStep a) := wellEncoded _ (by intro d h; cases h)
theorem WellEncoded.launchrWrite (a) (b) : WellEncoded.Statement (.launchrWrite a b) := wellEncoded _ (by intro d h; cases h)
theorem WellEncoded.lstatClear (a) (b) : WellEncoded.Statement (.lstatClear a b) := wellEncoded _ (by intro d h; cases h)
theorem WellEncoded.mbCreate (a) : WellEncoded.Statement (.mbCreate a) := wellEncoded _ (by intro d h; cases h)
theorem WellEncoded.mbDestroy (a) : WellEncoded.Statement (.mbDestroy a) := wellEncoded _ (by intro d h; cases h)
theorem WellEncoded.mbPreempt (a) : WellEncoded.Statement (.mbPreempt a) := wellEncoded _ (by intro d h; cases h)
theorem WellEncoded.mbResume (a) : WellEncoded.Statement (.mbResume a) := wellEncoded _ (by intro d h; cases h)
theorem WellEncoded.mbKill (a) : WellEncoded.Statement (.mbKill a) := wellEncoded _ (by intro d h; cases h)
theorem WellEncoded.mbAssign (a) : WellEncoded.Statement (.mbAssign a) := wellEncoded _ (by intro d h; cases h)
theorem WellEncoded.mbQueryBootEntry (a) : WellEncoded.Statement (.mbQueryBootEntry a) := wellEncoded _ (by intro d h; cases h)
theorem WellEncoded.mbQueryExcluded (a) : WellEncoded.Statement (.mbQueryExcluded a) := wellEncoded _ (by intro d h; cases h)
theorem WellEncoded.mbClrboot (a) : WellEncoded.Statement (.mbClrboot a) := wellEncoded _ (by intro d h; cases h)
theorem WellEncoded.mbSupcfg (a) : WellEncoded.Statement (.mbSupcfg a) := wellEncoded _ (by intro d h; cases h)
theorem WellEncoded.mbDoorbellBusy (a) : WellEncoded.Statement (.mbDoorbellBusy a) := wellEncoded _ (by intro d h; cases h)
theorem WellEncoded.windowRead (a) (b) (c) : WellEncoded.Statement (.windowRead a b c) := wellEncoded _ (by intro d h; cases h)
theorem WellEncoded.windowWrite (a) (b) (c) : WellEncoded.Statement (.windowWrite a b c) := wellEncoded _ (by intro d h; cases h)
theorem WellEncoded.registerPageBadAccess (a) (b) (c) (d) : WellEncoded.Statement (.registerPageBadAccess a b c d) := wellEncoded _ (by intro d h; cases h)
theorem WellEncoded.registerWrite (a) (b) (c) : WellEncoded.Statement (.registerWrite a b c) := wellEncoded _ (by intro d h; cases h)
theorem WellEncoded.flr (a) : WellEncoded.Statement (.flr a) := wellEncoded _ (by intro d h; cases h)
theorem WellEncoded.linkLoss : WellEncoded.Statement (.linkLoss) := wellEncoded _ (by intro d h; cases h)
theorem WellEncoded.linkRetrain : WellEncoded.Statement (.linkRetrain) := wellEncoded _ (by intro d h; cases h)
theorem WellEncoded.linkHoldExpiry : WellEncoded.Statement (.linkHoldExpiry) := wellEncoded _ (by intro d h; cases h)
theorem WellEncoded.hotReset : WellEncoded.Statement (.hotReset) := wellEncoded _ (by intro d h; cases h)
theorem WellEncoded.coldStart : WellEncoded.Statement (.coldStart) := wellEncoded _ (by intro d h; cases h)
theorem WellEncoded.warmReset : WellEncoded.Statement (.warmReset) := wellEncoded _ (by intro d h; cases h)
theorem WellEncoded.bootStepTimeout (a) (b) : WellEncoded.Statement (.bootStepTimeout a b) := wellEncoded _ (by intro d h; cases h)
theorem WellEncoded.pldmDiscovery : WellEncoded.Statement (.pldmDiscovery) := wellEncoded _ (by intro d h; cases h)
theorem WellEncoded.pldmSensorRead (a) : WellEncoded.Statement (.pldmSensorRead a) := wellEncoded _ (by intro d h; cases h)
theorem WellEncoded.pldmFirmwareUpdate (a) (b) (c) (d) : WellEncoded.Statement (.pldmFirmwareUpdate a b c d) := wellEncoded _ (by intro d h; cases h)
theorem WellEncoded.blackBoxRead (a) (b) : WellEncoded.Statement (.blackBoxRead a b) := wellEncoded _ (by intro d h; cases h)
theorem WellEncoded.bootRecordRead (a) : WellEncoded.Statement (.bootRecordRead a) := wellEncoded _ (by intro d h; cases h)
theorem WellEncoded.startCounterWrite (a) : WellEncoded.Statement (.startCounterWrite a) := wellEncoded _ (by intro d h; cases h)
theorem WellEncoded.peerEpochRead (a) : WellEncoded.Statement (.peerEpochRead a) := wellEncoded _ (by intro d h; cases h)
theorem WellEncoded.sidebandAttest (a) : WellEncoded.Statement (.sidebandAttest a) := wellEncoded _ (by intro d h; cases h)
theorem WellEncoded.fabricMapWrite (a) (b) (c) : WellEncoded.Statement (.fabricMapWrite a b c) := wellEncoded _ (by intro d h; cases h)
theorem WellEncoded.vendorProvision : WellEncoded.Statement (.vendorProvision) := wellEncoded _ (by intro d h; cases h)
theorem WellEncoded.saggarAttestServe : WellEncoded.Statement (.saggarAttestServe) := wellEncoded _ (by intro d h; cases h)
theorem WellEncoded.saggarVerifyServe : WellEncoded.Statement (.saggarVerifyServe) := wellEncoded _ (by intro d h; cases h)
theorem WellEncoded.saggarMextServe : WellEncoded.Statement (.saggarMextServe) := wellEncoded _ (by intro d h; cases h)
theorem WellEncoded.thermalThrottle (a) : WellEncoded.Statement (.thermalThrottle a) := wellEncoded _ (by intro d h; cases h)
theorem WellEncoded.thermalShutdown (a) : WellEncoded.Statement (.thermalShutdown a) := wellEncoded _ (by intro d h; cases h)
theorem WellEncoded.linkFrameReceive (a) (b) : WellEncoded.Statement (.linkFrameReceive a b) := wellEncoded _ (by intro d h; cases h)
theorem WellEncoded.linkReplay (a) (b) : WellEncoded.Statement (.linkReplay a b) := wellEncoded _ (by intro d h; cases h)
theorem WellEncoded.bexwenRetrain (a) (b) (c) (d) (e) : WellEncoded.Statement (.bexwenRetrain a b c d e) := wellEncoded _ (by intro d h; cases h)
theorem WellEncoded.ctxBody (a) (b) (c) : WellEncoded.Statement (.ctxBody a b c) := wellEncoded _ (by intro d h; cases h)
theorem WellEncoded.phaseBody (a) (b) (c) : WellEncoded.Statement (.phaseBody a b c) := wellEncoded _ (by intro d h; cases h)
theorem WellEncoded.farrBody (a) (b) (c) (d) : WellEncoded.Statement (.farrBody a b c d) := wellEncoded _ (by intro d h; cases h)
theorem WellEncoded.fexitBody (a) (b) (c) : WellEncoded.Statement (.fexitBody a b c) := wellEncoded _ (by intro d h; cases h)
theorem WellEncoded.fbreakBody (a) (b) (c) : WellEncoded.Statement (.fbreakBody a b c) := wellEncoded _ (by intro d h; cases h)
theorem WellEncoded.remoteExchangeWrite (a) (b) (c) (d) (e) (f) (g) : WellEncoded.Statement (.remoteExchangeWrite a b c d e f g) := wellEncoded _ (by intro d h; cases h)
theorem WellEncoded.remoteAtomicRequest (a) : WellEncoded.Statement (.remoteAtomicRequest a) := wellEncoded _ (by intro d h; cases h)
theorem WellEncoded.remoteAtomicResponse (a) : WellEncoded.Statement (.remoteAtomicResponse a) := wellEncoded _ (by intro d h; cases h)
theorem WellEncoded.ratomResendTimeout (a) : WellEncoded.Statement (.ratomResendTimeout a) := wellEncoded _ (by intro d h; cases h)
theorem WellEncoded.moduleUnreachable (a) : WellEncoded.Statement (.moduleUnreachable a) := wellEncoded _ (by intro d h; cases h)
theorem WellEncoded.receiverLockLoss (a) : WellEncoded.Statement (.receiverLockLoss a) := wellEncoded _ (by intro d h; cases h)
theorem WellEncoded.saggarPowerLoss : WellEncoded.Statement (.saggarPowerLoss) := wellEncoded _ (by intro d h; cases h)
theorem WellEncoded.pldmPowerDown : WellEncoded.Statement (.pldmPowerDown) := wellEncoded _ (by intro d h; cases h)
theorem WellEncoded.productionFusing : WellEncoded.Statement (.productionFusing) := wellEncoded _ (by intro d h; cases h)
theorem WellEncoded.rmaToken (a) : WellEncoded.Statement (.rmaToken a) := wellEncoded _ (by intro d h; cases h)

end Sys2Proof.Laws
end

