-- ==== Sys2Proof/Laws/State.lean ====
section
/-! SUPPORT. Each update of a table of State: what it leaves, field by field, and what is read back. -/
namespace Sys2Proof.Machine

variable (s : State)

@[simp] theorem setTask_router (pe t : Nat) (v : Task) : (s.setTask pe t v).router = s.router := rfl
@[simp] theorem setTask_core (pe t : Nat) (v : Task) : (s.setTask pe t v).core = s.core := rfl
@[simp] theorem setTask_sync (pe t : Nat) (v : Task) : (s.setTask pe t v).sync = s.sync := rfl
@[simp] theorem setTask_cluster (pe t : Nat) (v : Task) : (s.setTask pe t v).cluster = s.cluster := rfl
@[simp] theorem setTask_mesh (pe t : Nat) (v : Task) : (s.setTask pe t v).mesh = s.mesh := rfl
@[simp] theorem setTask_mem (pe t : Nat) (v : Task) : (s.setTask pe t v).mem = s.mem := rfl
@[simp] theorem setTask_die (pe t : Nat) (v : Task) : (s.setTask pe t v).die = s.die := rfl
@[simp] theorem setTask_hub (pe t : Nat) (v : Task) : (s.setTask pe t v).hub = s.hub := rfl
@[simp] theorem setTask_sag (pe t : Nat) (v : Task) : (s.setTask pe t v).sag = s.sag := rfl
@[simp] theorem setTask_fab (pe t : Nat) (v : Task) : (s.setTask pe t v).fab = s.fab := rfl
@[simp] theorem setTask_agenda (pe t : Nat) (v : Task) : (s.setTask pe t v).agenda = s.agenda := rfl
@[simp] theorem setTask_free (pe t : Nat) (v : Task) : (s.setTask pe t v).free = s.free := rfl
@[simp] theorem setTask_now (pe t : Nat) (v : Task) : (s.setTask pe t v).now = s.now := rfl
@[simp] theorem setTask_cur (pe t : Nat) (v : Task) : (s.setTask pe t v).cur = s.cur := rfl
@[simp] theorem setTask_act (pe t : Nat) (v : Task) : (s.setTask pe t v).act = s.act := rfl
@[simp] theorem setTask_unit_store (pe t : Nat) (v : Task) : (s.setTask pe t v).unit.store = s.unit.store := rfl
@[simp] theorem setTask_unit_slots (pe t : Nat) (v : Task) : (s.setTask pe t v).unit.slots = s.unit.slots := rfl
@[simp] theorem setTask_unit_handles (pe t : Nat) (v : Task) : (s.setTask pe t v).unit.handles = s.unit.handles := rfl
@[simp] theorem setTask_unit_regs (pe t : Nat) (v : Task) : (s.setTask pe t v).unit.regs = s.unit.regs := rfl
@[simp] theorem setTask_unit_preds (pe t : Nat) (v : Task) : (s.setTask pe t v).unit.preds = s.unit.preds := rfl
@[simp] theorem setTask_unit_choosers (pe t : Nat) (v : Task) : (s.setTask pe t v).unit.choosers = s.unit.choosers := rfl
@[simp] theorem setTask_unit_badRegs (pe t : Nat) (v : Task) : (s.setTask pe t v).unit.badRegs = s.unit.badRegs := rfl
@[simp] theorem setTask_unit_damaged (pe t : Nat) (v : Task) : (s.setTask pe t v).unit.damaged = s.unit.damaged := rfl
@[simp] theorem setTask_unit_oplog (pe t : Nat) (v : Task) : (s.setTask pe t v).unit.oplog = s.unit.oplog := rfl
@[simp] theorem setTask_unit_detectors (pe t : Nat) (v : Task) : (s.setTask pe t v).unit.detectors = s.unit.detectors := rfl
theorem setTask_unit_tasks (pe t : Nat) (v : Task) : (s.setTask pe t v).unit.tasks = s.unit.tasks.put (8 * pe + t) v {} := rfl
/-- What `setTask` wrote is read back. -/
@[simp] theorem task_setTask_same (pe t : Nat) (v : Task) : (s.setTask pe t v).task pe t = v := Map.find_put_same ..
theorem task_setTask_other (pe t : Nat) (v : Task) (pe' t' : Nat) (hne : 8 * pe' + t' ≠ 8 * pe + t) : (s.setTask pe t v).task pe' t' = s.task pe' t' := Map.find_put_other _ hne ..

@[simp] theorem setReg_router (pe n : Nat) (v : Word) : (s.setReg pe n v).router = s.router := rfl
@[simp] theorem setReg_core (pe n : Nat) (v : Word) : (s.setReg pe n v).core = s.core := rfl
@[simp] theorem setReg_sync (pe n : Nat) (v : Word) : (s.setReg pe n v).sync = s.sync := rfl
@[simp] theorem setReg_cluster (pe n : Nat) (v : Word) : (s.setReg pe n v).cluster = s.cluster := rfl
@[simp] theorem setReg_mesh (pe n : Nat) (v : Word) : (s.setReg pe n v).mesh = s.mesh := rfl
@[simp] theorem setReg_mem (pe n : Nat) (v : Word) : (s.setReg pe n v).mem = s.mem := rfl
@[simp] theorem setReg_die (pe n : Nat) (v : Word) : (s.setReg pe n v).die = s.die := rfl
@[simp] theorem setReg_hub (pe n : Nat) (v : Word) : (s.setReg pe n v).hub = s.hub := rfl
@[simp] theorem setReg_sag (pe n : Nat) (v : Word) : (s.setReg pe n v).sag = s.sag := rfl
@[simp] theorem setReg_fab (pe n : Nat) (v : Word) : (s.setReg pe n v).fab = s.fab := rfl
@[simp] theorem setReg_agenda (pe n : Nat) (v : Word) : (s.setReg pe n v).agenda = s.agenda := rfl
@[simp] theorem setReg_free (pe n : Nat) (v : Word) : (s.setReg pe n v).free = s.free := rfl
@[simp] theorem setReg_now (pe n : Nat) (v : Word) : (s.setReg pe n v).now = s.now := rfl
@[simp] theorem setReg_cur (pe n : Nat) (v : Word) : (s.setReg pe n v).cur = s.cur := rfl
@[simp] theorem setReg_act (pe n : Nat) (v : Word) : (s.setReg pe n v).act = s.act := rfl
@[simp] theorem setReg_unit_store (pe n : Nat) (v : Word) : (s.setReg pe n v).unit.store = s.unit.store := rfl
@[simp] theorem setReg_unit_slots (pe n : Nat) (v : Word) : (s.setReg pe n v).unit.slots = s.unit.slots := rfl
@[simp] theorem setReg_unit_handles (pe n : Nat) (v : Word) : (s.setReg pe n v).unit.handles = s.unit.handles := rfl
@[simp] theorem setReg_unit_tasks (pe n : Nat) (v : Word) : (s.setReg pe n v).unit.tasks = s.unit.tasks := rfl
@[simp] theorem setReg_unit_preds (pe n : Nat) (v : Word) : (s.setReg pe n v).unit.preds = s.unit.preds := rfl
@[simp] theorem setReg_unit_choosers (pe n : Nat) (v : Word) : (s.setReg pe n v).unit.choosers = s.unit.choosers := rfl
@[simp] theorem setReg_unit_badRegs (pe n : Nat) (v : Word) : (s.setReg pe n v).unit.badRegs = s.unit.badRegs := rfl
@[simp] theorem setReg_unit_damaged (pe n : Nat) (v : Word) : (s.setReg pe n v).unit.damaged = s.unit.damaged := rfl
@[simp] theorem setReg_unit_oplog (pe n : Nat) (v : Word) : (s.setReg pe n v).unit.oplog = s.unit.oplog := rfl
@[simp] theorem setReg_unit_detectors (pe n : Nat) (v : Word) : (s.setReg pe n v).unit.detectors = s.unit.detectors := rfl
theorem setReg_unit_regs (pe n : Nat) (v : Word) : (s.setReg pe n v).unit.regs = s.unit.regs.put (64 * pe + n) v 0 := rfl
/-- What `setReg` wrote is read back. -/
@[simp] theorem reg_setReg_same (pe n : Nat) (v : Word) : (s.setReg pe n v).reg pe n = v := Map.find_put_same ..
theorem reg_setReg_other (pe n : Nat) (v : Word) (pe' n' : Nat) (hne : 64 * pe' + n' ≠ 64 * pe + n) : (s.setReg pe n v).reg pe' n' = s.reg pe' n' := Map.find_put_other _ hne ..

@[simp] theorem setPredOf_router (pe q : Nat) (v : Pred) : (s.setPredOf pe q v).router = s.router := rfl
@[simp] theorem setPredOf_core (pe q : Nat) (v : Pred) : (s.setPredOf pe q v).core = s.core := rfl
@[simp] theorem setPredOf_sync (pe q : Nat) (v : Pred) : (s.setPredOf pe q v).sync = s.sync := rfl
@[simp] theorem setPredOf_cluster (pe q : Nat) (v : Pred) : (s.setPredOf pe q v).cluster = s.cluster := rfl
@[simp] theorem setPredOf_mesh (pe q : Nat) (v : Pred) : (s.setPredOf pe q v).mesh = s.mesh := rfl
@[simp] theorem setPredOf_mem (pe q : Nat) (v : Pred) : (s.setPredOf pe q v).mem = s.mem := rfl
@[simp] theorem setPredOf_die (pe q : Nat) (v : Pred) : (s.setPredOf pe q v).die = s.die := rfl
@[simp] theorem setPredOf_hub (pe q : Nat) (v : Pred) : (s.setPredOf pe q v).hub = s.hub := rfl
@[simp] theorem setPredOf_sag (pe q : Nat) (v : Pred) : (s.setPredOf pe q v).sag = s.sag := rfl
@[simp] theorem setPredOf_fab (pe q : Nat) (v : Pred) : (s.setPredOf pe q v).fab = s.fab := rfl
@[simp] theorem setPredOf_agenda (pe q : Nat) (v : Pred) : (s.setPredOf pe q v).agenda = s.agenda := rfl
@[simp] theorem setPredOf_free (pe q : Nat) (v : Pred) : (s.setPredOf pe q v).free = s.free := rfl
@[simp] theorem setPredOf_now (pe q : Nat) (v : Pred) : (s.setPredOf pe q v).now = s.now := rfl
@[simp] theorem setPredOf_cur (pe q : Nat) (v : Pred) : (s.setPredOf pe q v).cur = s.cur := rfl
@[simp] theorem setPredOf_act (pe q : Nat) (v : Pred) : (s.setPredOf pe q v).act = s.act := rfl
@[simp] theorem setPredOf_unit_store (pe q : Nat) (v : Pred) : (s.setPredOf pe q v).unit.store = s.unit.store := rfl
@[simp] theorem setPredOf_unit_slots (pe q : Nat) (v : Pred) : (s.setPredOf pe q v).unit.slots = s.unit.slots := rfl
@[simp] theorem setPredOf_unit_handles (pe q : Nat) (v : Pred) : (s.setPredOf pe q v).unit.handles = s.unit.handles := rfl
@[simp] theorem setPredOf_unit_tasks (pe q : Nat) (v : Pred) : (s.setPredOf pe q v).unit.tasks = s.unit.tasks := rfl
@[simp] theorem setPredOf_unit_regs (pe q : Nat) (v : Pred) : (s.setPredOf pe q v).unit.regs = s.unit.regs := rfl
@[simp] theorem setPredOf_unit_choosers (pe q : Nat) (v : Pred) : (s.setPredOf pe q v).unit.choosers = s.unit.choosers := rfl
@[simp] theorem setPredOf_unit_badRegs (pe q : Nat) (v : Pred) : (s.setPredOf pe q v).unit.badRegs = s.unit.badRegs := rfl
@[simp] theorem setPredOf_unit_damaged (pe q : Nat) (v : Pred) : (s.setPredOf pe q v).unit.damaged = s.unit.damaged := rfl
@[simp] theorem setPredOf_unit_oplog (pe q : Nat) (v : Pred) : (s.setPredOf pe q v).unit.oplog = s.unit.oplog := rfl
@[simp] theorem setPredOf_unit_detectors (pe q : Nat) (v : Pred) : (s.setPredOf pe q v).unit.detectors = s.unit.detectors := rfl
theorem setPredOf_unit_preds (pe q : Nat) (v : Pred) : (s.setPredOf pe q v).unit.preds = s.unit.preds.put (8 * pe + q) v 0 := rfl
/-- What `setPredOf` wrote is read back. -/
@[simp] theorem predOf_setPredOf_same (pe q : Nat) (v : Pred) : (s.setPredOf pe q v).predOf pe q = v := Map.find_put_same ..
theorem predOf_setPredOf_other (pe q : Nat) (v : Pred) (pe' q' : Nat) (hne : 8 * pe' + q' ≠ 8 * pe + q) : (s.setPredOf pe q v).predOf pe' q' = s.predOf pe' q' := Map.find_put_other _ hne ..

@[simp] theorem setSlotOf_router (pe n : Nat) (v : Token) : (s.setSlotOf pe n v).router = s.router := rfl
@[simp] theorem setSlotOf_core (pe n : Nat) (v : Token) : (s.setSlotOf pe n v).core = s.core := rfl
@[simp] theorem setSlotOf_sync (pe n : Nat) (v : Token) : (s.setSlotOf pe n v).sync = s.sync := rfl
@[simp] theorem setSlotOf_cluster (pe n : Nat) (v : Token) : (s.setSlotOf pe n v).cluster = s.cluster := rfl
@[simp] theorem setSlotOf_mesh (pe n : Nat) (v : Token) : (s.setSlotOf pe n v).mesh = s.mesh := rfl
@[simp] theorem setSlotOf_mem (pe n : Nat) (v : Token) : (s.setSlotOf pe n v).mem = s.mem := rfl
@[simp] theorem setSlotOf_die (pe n : Nat) (v : Token) : (s.setSlotOf pe n v).die = s.die := rfl
@[simp] theorem setSlotOf_hub (pe n : Nat) (v : Token) : (s.setSlotOf pe n v).hub = s.hub := rfl
@[simp] theorem setSlotOf_sag (pe n : Nat) (v : Token) : (s.setSlotOf pe n v).sag = s.sag := rfl
@[simp] theorem setSlotOf_fab (pe n : Nat) (v : Token) : (s.setSlotOf pe n v).fab = s.fab := rfl
@[simp] theorem setSlotOf_agenda (pe n : Nat) (v : Token) : (s.setSlotOf pe n v).agenda = s.agenda := rfl
@[simp] theorem setSlotOf_free (pe n : Nat) (v : Token) : (s.setSlotOf pe n v).free = s.free := rfl
@[simp] theorem setSlotOf_now (pe n : Nat) (v : Token) : (s.setSlotOf pe n v).now = s.now := rfl
@[simp] theorem setSlotOf_cur (pe n : Nat) (v : Token) : (s.setSlotOf pe n v).cur = s.cur := rfl
@[simp] theorem setSlotOf_act (pe n : Nat) (v : Token) : (s.setSlotOf pe n v).act = s.act := rfl
@[simp] theorem setSlotOf_unit_store (pe n : Nat) (v : Token) : (s.setSlotOf pe n v).unit.store = s.unit.store := rfl
@[simp] theorem setSlotOf_unit_handles (pe n : Nat) (v : Token) : (s.setSlotOf pe n v).unit.handles = s.unit.handles := rfl
@[simp] theorem setSlotOf_unit_tasks (pe n : Nat) (v : Token) : (s.setSlotOf pe n v).unit.tasks = s.unit.tasks := rfl
@[simp] theorem setSlotOf_unit_regs (pe n : Nat) (v : Token) : (s.setSlotOf pe n v).unit.regs = s.unit.regs := rfl
@[simp] theorem setSlotOf_unit_preds (pe n : Nat) (v : Token) : (s.setSlotOf pe n v).unit.preds = s.unit.preds := rfl
@[simp] theorem setSlotOf_unit_choosers (pe n : Nat) (v : Token) : (s.setSlotOf pe n v).unit.choosers = s.unit.choosers := rfl
@[simp] theorem setSlotOf_unit_badRegs (pe n : Nat) (v : Token) : (s.setSlotOf pe n v).unit.badRegs = s.unit.badRegs := rfl
@[simp] theorem setSlotOf_unit_damaged (pe n : Nat) (v : Token) : (s.setSlotOf pe n v).unit.damaged = s.unit.damaged := rfl
@[simp] theorem setSlotOf_unit_oplog (pe n : Nat) (v : Token) : (s.setSlotOf pe n v).unit.oplog = s.unit.oplog := rfl
@[simp] theorem setSlotOf_unit_detectors (pe n : Nat) (v : Token) : (s.setSlotOf pe n v).unit.detectors = s.unit.detectors := rfl
theorem setSlotOf_unit_slots (pe n : Nat) (v : Token) : (s.setSlotOf pe n v).unit.slots = s.unit.slots.put (256 * pe + n) v {} := rfl
/-- What `setSlotOf` wrote is read back. -/
@[simp] theorem slotOf_setSlotOf_same (pe n : Nat) (v : Token) : (s.setSlotOf pe n v).slotOf pe n = v := Map.find_put_same ..
theorem slotOf_setSlotOf_other (pe n : Nat) (v : Token) (pe' n' : Nat) (hne : 256 * pe' + n' ≠ 256 * pe + n) : (s.setSlotOf pe n v).slotOf pe' n' = s.slotOf pe' n' := Map.find_put_other _ hne ..

@[simp] theorem setEntry_router (pe n : Nat) (v : StoreEntry) : (s.setEntry pe n v).router = s.router := rfl
@[simp] theorem setEntry_core (pe n : Nat) (v : StoreEntry) : (s.setEntry pe n v).core = s.core := rfl
@[simp] theorem setEntry_sync (pe n : Nat) (v : StoreEntry) : (s.setEntry pe n v).sync = s.sync := rfl
@[simp] theorem setEntry_cluster (pe n : Nat) (v : StoreEntry) : (s.setEntry pe n v).cluster = s.cluster := rfl
@[simp] theorem setEntry_mesh (pe n : Nat) (v : StoreEntry) : (s.setEntry pe n v).mesh = s.mesh := rfl
@[simp] theorem setEntry_mem (pe n : Nat) (v : StoreEntry) : (s.setEntry pe n v).mem = s.mem := rfl
@[simp] theorem setEntry_die (pe n : Nat) (v : StoreEntry) : (s.setEntry pe n v).die = s.die := rfl
@[simp] theorem setEntry_hub (pe n : Nat) (v : StoreEntry) : (s.setEntry pe n v).hub = s.hub := rfl
@[simp] theorem setEntry_sag (pe n : Nat) (v : StoreEntry) : (s.setEntry pe n v).sag = s.sag := rfl
@[simp] theorem setEntry_fab (pe n : Nat) (v : StoreEntry) : (s.setEntry pe n v).fab = s.fab := rfl
@[simp] theorem setEntry_agenda (pe n : Nat) (v : StoreEntry) : (s.setEntry pe n v).agenda = s.agenda := rfl
@[simp] theorem setEntry_free (pe n : Nat) (v : StoreEntry) : (s.setEntry pe n v).free = s.free := rfl
@[simp] theorem setEntry_now (pe n : Nat) (v : StoreEntry) : (s.setEntry pe n v).now = s.now := rfl
@[simp] theorem setEntry_cur (pe n : Nat) (v : StoreEntry) : (s.setEntry pe n v).cur = s.cur := rfl
@[simp] theorem setEntry_act (pe n : Nat) (v : StoreEntry) : (s.setEntry pe n v).act = s.act := rfl
@[simp] theorem setEntry_unit_slots (pe n : Nat) (v : StoreEntry) : (s.setEntry pe n v).unit.slots = s.unit.slots := rfl
@[simp] theorem setEntry_unit_handles (pe n : Nat) (v : StoreEntry) : (s.setEntry pe n v).unit.handles = s.unit.handles := rfl
@[simp] theorem setEntry_unit_tasks (pe n : Nat) (v : StoreEntry) : (s.setEntry pe n v).unit.tasks = s.unit.tasks := rfl
@[simp] theorem setEntry_unit_regs (pe n : Nat) (v : StoreEntry) : (s.setEntry pe n v).unit.regs = s.unit.regs := rfl
@[simp] theorem setEntry_unit_preds (pe n : Nat) (v : StoreEntry) : (s.setEntry pe n v).unit.preds = s.unit.preds := rfl
@[simp] theorem setEntry_unit_choosers (pe n : Nat) (v : StoreEntry) : (s.setEntry pe n v).unit.choosers = s.unit.choosers := rfl
@[simp] theorem setEntry_unit_badRegs (pe n : Nat) (v : StoreEntry) : (s.setEntry pe n v).unit.badRegs = s.unit.badRegs := rfl
@[simp] theorem setEntry_unit_damaged (pe n : Nat) (v : StoreEntry) : (s.setEntry pe n v).unit.damaged = s.unit.damaged := rfl
@[simp] theorem setEntry_unit_oplog (pe n : Nat) (v : StoreEntry) : (s.setEntry pe n v).unit.oplog = s.unit.oplog := rfl
@[simp] theorem setEntry_unit_detectors (pe n : Nat) (v : StoreEntry) : (s.setEntry pe n v).unit.detectors = s.unit.detectors := rfl
theorem setEntry_unit_store (pe n : Nat) (v : StoreEntry) : (s.setEntry pe n v).unit.store = s.unit.store.put (256 * pe + n) v {} := rfl
/-- What `setEntry` wrote is read back. -/
@[simp] theorem entry_setEntry_same (pe n : Nat) (v : StoreEntry) : (s.setEntry pe n v).entry pe n = v := Map.find_put_same ..
theorem entry_setEntry_other (pe n : Nat) (v : StoreEntry) (pe' n' : Nat) (hne : 256 * pe' + n' ≠ 256 * pe + n) : (s.setEntry pe n v).entry pe' n' = s.entry pe' n' := Map.find_put_other _ hne ..

@[simp] theorem setHandle_router (pe h : Nat) (v : Handle) : (s.setHandle pe h v).router = s.router := rfl
@[simp] theorem setHandle_core (pe h : Nat) (v : Handle) : (s.setHandle pe h v).core = s.core := rfl
@[simp] theorem setHandle_sync (pe h : Nat) (v : Handle) : (s.setHandle pe h v).sync = s.sync := rfl
@[simp] theorem setHandle_cluster (pe h : Nat) (v : Handle) : (s.setHandle pe h v).cluster = s.cluster := rfl
@[simp] theorem setHandle_mesh (pe h : Nat) (v : Handle) : (s.setHandle pe h v).mesh = s.mesh := rfl
@[simp] theorem setHandle_mem (pe h : Nat) (v : Handle) : (s.setHandle pe h v).mem = s.mem := rfl
@[simp] theorem setHandle_die (pe h : Nat) (v : Handle) : (s.setHandle pe h v).die = s.die := rfl
@[simp] theorem setHandle_hub (pe h : Nat) (v : Handle) : (s.setHandle pe h v).hub = s.hub := rfl
@[simp] theorem setHandle_sag (pe h : Nat) (v : Handle) : (s.setHandle pe h v).sag = s.sag := rfl
@[simp] theorem setHandle_fab (pe h : Nat) (v : Handle) : (s.setHandle pe h v).fab = s.fab := rfl
@[simp] theorem setHandle_agenda (pe h : Nat) (v : Handle) : (s.setHandle pe h v).agenda = s.agenda := rfl
@[simp] theorem setHandle_free (pe h : Nat) (v : Handle) : (s.setHandle pe h v).free = s.free := rfl
@[simp] theorem setHandle_now (pe h : Nat) (v : Handle) : (s.setHandle pe h v).now = s.now := rfl
@[simp] theorem setHandle_cur (pe h : Nat) (v : Handle) : (s.setHandle pe h v).cur = s.cur := rfl
@[simp] theorem setHandle_act (pe h : Nat) (v : Handle) : (s.setHandle pe h v).act = s.act := rfl
@[simp] theorem setHandle_unit_store (pe h : Nat) (v : Handle) : (s.setHandle pe h v).unit.store = s.unit.store := rfl
@[simp] theorem setHandle_unit_slots (pe h : Nat) (v : Handle) : (s.setHandle pe h v).unit.slots = s.unit.slots := rfl
@[simp] theorem setHandle_unit_tasks (pe h : Nat) (v : Handle) : (s.setHandle pe h v).unit.tasks = s.unit.tasks := rfl
@[simp] theorem setHandle_unit_regs (pe h : Nat) (v : Handle) : (s.setHandle pe h v).unit.regs = s.unit.regs := rfl
@[simp] theorem setHandle_unit_preds (pe h : Nat) (v : Handle) : (s.setHandle pe h v).unit.preds = s.unit.preds := rfl
@[simp] theorem setHandle_unit_choosers (pe h : Nat) (v : Handle) : (s.setHandle pe h v).unit.choosers = s.unit.choosers := rfl
@[simp] theorem setHandle_unit_badRegs (pe h : Nat) (v : Handle) : (s.setHandle pe h v).unit.badRegs = s.unit.badRegs := rfl
@[simp] theorem setHandle_unit_damaged (pe h : Nat) (v : Handle) : (s.setHandle pe h v).unit.damaged = s.unit.damaged := rfl
@[simp] theorem setHandle_unit_oplog (pe h : Nat) (v : Handle) : (s.setHandle pe h v).unit.oplog = s.unit.oplog := rfl
@[simp] theorem setHandle_unit_detectors (pe h : Nat) (v : Handle) : (s.setHandle pe h v).unit.detectors = s.unit.detectors := rfl
theorem setHandle_unit_handles (pe h : Nat) (v : Handle) : (s.setHandle pe h v).unit.handles = s.unit.handles.put (32 * pe + h) v {} := rfl
/-- What `setHandle` wrote is read back. -/
@[simp] theorem handle_setHandle_same (pe h : Nat) (v : Handle) : (s.setHandle pe h v).handle pe h = v := Map.find_put_same ..
theorem handle_setHandle_other (pe h : Nat) (v : Handle) (pe' h' : Nat) (hne : 32 * pe' + h' ≠ 32 * pe + h) : (s.setHandle pe h v).handle pe' h' = s.handle pe' h' := Map.find_put_other _ hne ..

@[simp] theorem setChooser_router (pe : Nat) (v : Chooser) : (s.setChooser pe v).router = s.router := rfl
@[simp] theorem setChooser_core (pe : Nat) (v : Chooser) : (s.setChooser pe v).core = s.core := rfl
@[simp] theorem setChooser_sync (pe : Nat) (v : Chooser) : (s.setChooser pe v).sync = s.sync := rfl
@[simp] theorem setChooser_cluster (pe : Nat) (v : Chooser) : (s.setChooser pe v).cluster = s.cluster := rfl
@[simp] theorem setChooser_mesh (pe : Nat) (v : Chooser) : (s.setChooser pe v).mesh = s.mesh := rfl
@[simp] theorem setChooser_mem (pe : Nat) (v : Chooser) : (s.setChooser pe v).mem = s.mem := rfl
@[simp] theorem setChooser_die (pe : Nat) (v : Chooser) : (s.setChooser pe v).die = s.die := rfl
@[simp] theorem setChooser_hub (pe : Nat) (v : Chooser) : (s.setChooser pe v).hub = s.hub := rfl
@[simp] theorem setChooser_sag (pe : Nat) (v : Chooser) : (s.setChooser pe v).sag = s.sag := rfl
@[simp] theorem setChooser_fab (pe : Nat) (v : Chooser) : (s.setChooser pe v).fab = s.fab := rfl
@[simp] theorem setChooser_agenda (pe : Nat) (v : Chooser) : (s.setChooser pe v).agenda = s.agenda := rfl
@[simp] theorem setChooser_free (pe : Nat) (v : Chooser) : (s.setChooser pe v).free = s.free := rfl
@[simp] theorem setChooser_now (pe : Nat) (v : Chooser) : (s.setChooser pe v).now = s.now := rfl
@[simp] theorem setChooser_cur (pe : Nat) (v : Chooser) : (s.setChooser pe v).cur = s.cur := rfl
@[simp] theorem setChooser_act (pe : Nat) (v : Chooser) : (s.setChooser pe v).act = s.act := rfl
@[simp] theorem setChooser_unit_store (pe : Nat) (v : Chooser) : (s.setChooser pe v).unit.store = s.unit.store := rfl
@[simp] theorem setChooser_unit_slots (pe : Nat) (v : Chooser) : (s.setChooser pe v).unit.slots = s.unit.slots := rfl
@[simp] theorem setChooser_unit_handles (pe : Nat) (v : Chooser) : (s.setChooser pe v).unit.handles = s.unit.handles := rfl
@[simp] theorem setChooser_unit_tasks (pe : Nat) (v : Chooser) : (s.setChooser pe v).unit.tasks = s.unit.tasks := rfl
@[simp] theorem setChooser_unit_regs (pe : Nat) (v : Chooser) : (s.setChooser pe v).unit.regs = s.unit.regs := rfl
@[simp] theorem setChooser_unit_preds (pe : Nat) (v : Chooser) : (s.setChooser pe v).unit.preds = s.unit.preds := rfl
@[simp] theorem setChooser_unit_badRegs (pe : Nat) (v : Chooser) : (s.setChooser pe v).unit.badRegs = s.unit.badRegs := rfl
@[simp] theorem setChooser_unit_damaged (pe : Nat) (v : Chooser) : (s.setChooser pe v).unit.damaged = s.unit.damaged := rfl
@[simp] theorem setChooser_unit_oplog (pe : Nat) (v : Chooser) : (s.setChooser pe v).unit.oplog = s.unit.oplog := rfl
@[simp] theorem setChooser_unit_detectors (pe : Nat) (v : Chooser) : (s.setChooser pe v).unit.detectors = s.unit.detectors := rfl
theorem setChooser_unit_choosers (pe : Nat) (v : Chooser) : (s.setChooser pe v).unit.choosers = s.unit.choosers.put (pe) v {} := rfl
/-- What `setChooser` wrote is read back. -/
@[simp] theorem chooser_setChooser_same (pe : Nat) (v : Chooser) : (s.setChooser pe v).chooser pe = v := Map.find_put_same ..
theorem chooser_setChooser_other (pe : Nat) (v : Chooser) (pe' : Nat) (hne : pe' ≠ pe) : (s.setChooser pe v).chooser pe' = s.chooser pe' := Map.find_put_other _ hne ..

@[simp] theorem setBadReg_router (pe n : Nat) (v : Bool) : (s.setBadReg pe n v).router = s.router := rfl
@[simp] theorem setBadReg_core (pe n : Nat) (v : Bool) : (s.setBadReg pe n v).core = s.core := rfl
@[simp] theorem setBadReg_sync (pe n : Nat) (v : Bool) : (s.setBadReg pe n v).sync = s.sync := rfl
@[simp] theorem setBadReg_cluster (pe n : Nat) (v : Bool) : (s.setBadReg pe n v).cluster = s.cluster := rfl
@[simp] theorem setBadReg_mesh (pe n : Nat) (v : Bool) : (s.setBadReg pe n v).mesh = s.mesh := rfl
@[simp] theorem setBadReg_mem (pe n : Nat) (v : Bool) : (s.setBadReg pe n v).mem = s.mem := rfl
@[simp] theorem setBadReg_die (pe n : Nat) (v : Bool) : (s.setBadReg pe n v).die = s.die := rfl
@[simp] theorem setBadReg_hub (pe n : Nat) (v : Bool) : (s.setBadReg pe n v).hub = s.hub := rfl
@[simp] theorem setBadReg_sag (pe n : Nat) (v : Bool) : (s.setBadReg pe n v).sag = s.sag := rfl
@[simp] theorem setBadReg_fab (pe n : Nat) (v : Bool) : (s.setBadReg pe n v).fab = s.fab := rfl
@[simp] theorem setBadReg_agenda (pe n : Nat) (v : Bool) : (s.setBadReg pe n v).agenda = s.agenda := rfl
@[simp] theorem setBadReg_free (pe n : Nat) (v : Bool) : (s.setBadReg pe n v).free = s.free := rfl
@[simp] theorem setBadReg_now (pe n : Nat) (v : Bool) : (s.setBadReg pe n v).now = s.now := rfl
@[simp] theorem setBadReg_cur (pe n : Nat) (v : Bool) : (s.setBadReg pe n v).cur = s.cur := rfl
@[simp] theorem setBadReg_act (pe n : Nat) (v : Bool) : (s.setBadReg pe n v).act = s.act := rfl
@[simp] theorem setBadReg_unit_store (pe n : Nat) (v : Bool) : (s.setBadReg pe n v).unit.store = s.unit.store := rfl
@[simp] theorem setBadReg_unit_slots (pe n : Nat) (v : Bool) : (s.setBadReg pe n v).unit.slots = s.unit.slots := rfl
@[simp] theorem setBadReg_unit_handles (pe n : Nat) (v : Bool) : (s.setBadReg pe n v).unit.handles = s.unit.handles := rfl
@[simp] theorem setBadReg_unit_tasks (pe n : Nat) (v : Bool) : (s.setBadReg pe n v).unit.tasks = s.unit.tasks := rfl
@[simp] theorem setBadReg_unit_regs (pe n : Nat) (v : Bool) : (s.setBadReg pe n v).unit.regs = s.unit.regs := rfl
@[simp] theorem setBadReg_unit_preds (pe n : Nat) (v : Bool) : (s.setBadReg pe n v).unit.preds = s.unit.preds := rfl
@[simp] theorem setBadReg_unit_choosers (pe n : Nat) (v : Bool) : (s.setBadReg pe n v).unit.choosers = s.unit.choosers := rfl
@[simp] theorem setBadReg_unit_damaged (pe n : Nat) (v : Bool) : (s.setBadReg pe n v).unit.damaged = s.unit.damaged := rfl
@[simp] theorem setBadReg_unit_oplog (pe n : Nat) (v : Bool) : (s.setBadReg pe n v).unit.oplog = s.unit.oplog := rfl
@[simp] theorem setBadReg_unit_detectors (pe n : Nat) (v : Bool) : (s.setBadReg pe n v).unit.detectors = s.unit.detectors := rfl
theorem setBadReg_unit_badRegs (pe n : Nat) (v : Bool) : (s.setBadReg pe n v).unit.badRegs = s.unit.badRegs.put (64 * pe + n) v false := rfl
/-- What `setBadReg` wrote is read back. -/
@[simp] theorem badReg_setBadReg_same (pe n : Nat) (v : Bool) : (s.setBadReg pe n v).badReg pe n = v := Map.find_put_same ..
theorem badReg_setBadReg_other (pe n : Nat) (v : Bool) (pe' n' : Nat) (hne : 64 * pe' + n' ≠ 64 * pe + n) : (s.setBadReg pe n v).badReg pe' n' = s.badReg pe' n' := Map.find_put_other _ hne ..

@[simp] theorem setDamagedReg_router (pe n : Nat) (v : Bool) : (s.setDamagedReg pe n v).router = s.router := rfl
@[simp] theorem setDamagedReg_core (pe n : Nat) (v : Bool) : (s.setDamagedReg pe n v).core = s.core := rfl
@[simp] theorem setDamagedReg_sync (pe n : Nat) (v : Bool) : (s.setDamagedReg pe n v).sync = s.sync := rfl
@[simp] theorem setDamagedReg_cluster (pe n : Nat) (v : Bool) : (s.setDamagedReg pe n v).cluster = s.cluster := rfl
@[simp] theorem setDamagedReg_mesh (pe n : Nat) (v : Bool) : (s.setDamagedReg pe n v).mesh = s.mesh := rfl
@[simp] theorem setDamagedReg_mem (pe n : Nat) (v : Bool) : (s.setDamagedReg pe n v).mem = s.mem := rfl
@[simp] theorem setDamagedReg_die (pe n : Nat) (v : Bool) : (s.setDamagedReg pe n v).die = s.die := rfl
@[simp] theorem setDamagedReg_hub (pe n : Nat) (v : Bool) : (s.setDamagedReg pe n v).hub = s.hub := rfl
@[simp] theorem setDamagedReg_sag (pe n : Nat) (v : Bool) : (s.setDamagedReg pe n v).sag = s.sag := rfl
@[simp] theorem setDamagedReg_fab (pe n : Nat) (v : Bool) : (s.setDamagedReg pe n v).fab = s.fab := rfl
@[simp] theorem setDamagedReg_agenda (pe n : Nat) (v : Bool) : (s.setDamagedReg pe n v).agenda = s.agenda := rfl
@[simp] theorem setDamagedReg_free (pe n : Nat) (v : Bool) : (s.setDamagedReg pe n v).free = s.free := rfl
@[simp] theorem setDamagedReg_now (pe n : Nat) (v : Bool) : (s.setDamagedReg pe n v).now = s.now := rfl
@[simp] theorem setDamagedReg_cur (pe n : Nat) (v : Bool) : (s.setDamagedReg pe n v).cur = s.cur := rfl
@[simp] theorem setDamagedReg_act (pe n : Nat) (v : Bool) : (s.setDamagedReg pe n v).act = s.act := rfl
@[simp] theorem setDamagedReg_unit_store (pe n : Nat) (v : Bool) : (s.setDamagedReg pe n v).unit.store = s.unit.store := rfl
@[simp] theorem setDamagedReg_unit_slots (pe n : Nat) (v : Bool) : (s.setDamagedReg pe n v).unit.slots = s.unit.slots := rfl
@[simp] theorem setDamagedReg_unit_handles (pe n : Nat) (v : Bool) : (s.setDamagedReg pe n v).unit.handles = s.unit.handles := rfl
@[simp] theorem setDamagedReg_unit_tasks (pe n : Nat) (v : Bool) : (s.setDamagedReg pe n v).unit.tasks = s.unit.tasks := rfl
@[simp] theorem setDamagedReg_unit_regs (pe n : Nat) (v : Bool) : (s.setDamagedReg pe n v).unit.regs = s.unit.regs := rfl
@[simp] theorem setDamagedReg_unit_preds (pe n : Nat) (v : Bool) : (s.setDamagedReg pe n v).unit.preds = s.unit.preds := rfl
@[simp] theorem setDamagedReg_unit_choosers (pe n : Nat) (v : Bool) : (s.setDamagedReg pe n v).unit.choosers = s.unit.choosers := rfl
@[simp] theorem setDamagedReg_unit_badRegs (pe n : Nat) (v : Bool) : (s.setDamagedReg pe n v).unit.badRegs = s.unit.badRegs := rfl
@[simp] theorem setDamagedReg_unit_oplog (pe n : Nat) (v : Bool) : (s.setDamagedReg pe n v).unit.oplog = s.unit.oplog := rfl
@[simp] theorem setDamagedReg_unit_detectors (pe n : Nat) (v : Bool) : (s.setDamagedReg pe n v).unit.detectors = s.unit.detectors := rfl
theorem setDamagedReg_unit_damaged (pe n : Nat) (v : Bool) : (s.setDamagedReg pe n v).unit.damaged = s.unit.damaged.put (64 * pe + n) v false := rfl
/-- What `setDamagedReg` wrote is read back. -/
@[simp] theorem damagedReg_setDamagedReg_same (pe n : Nat) (v : Bool) : (s.setDamagedReg pe n v).damagedReg pe n = v := Map.find_put_same ..
theorem damagedReg_setDamagedReg_other (pe n : Nat) (v : Bool) (pe' n' : Nat) (hne : 64 * pe' + n' ≠ 64 * pe + n) : (s.setDamagedReg pe n v).damagedReg pe' n' = s.damagedReg pe' n' := Map.find_put_other _ hne ..

@[simp] theorem setOplog_router (pe : Nat) (v : List (Nat×Word)) : (s.setOplog pe v).router = s.router := rfl
@[simp] theorem setOplog_core (pe : Nat) (v : List (Nat×Word)) : (s.setOplog pe v).core = s.core := rfl
@[simp] theorem setOplog_sync (pe : Nat) (v : List (Nat×Word)) : (s.setOplog pe v).sync = s.sync := rfl
@[simp] theorem setOplog_cluster (pe : Nat) (v : List (Nat×Word)) : (s.setOplog pe v).cluster = s.cluster := rfl
@[simp] theorem setOplog_mesh (pe : Nat) (v : List (Nat×Word)) : (s.setOplog pe v).mesh = s.mesh := rfl
@[simp] theorem setOplog_mem (pe : Nat) (v : List (Nat×Word)) : (s.setOplog pe v).mem = s.mem := rfl
@[simp] theorem setOplog_die (pe : Nat) (v : List (Nat×Word)) : (s.setOplog pe v).die = s.die := rfl
@[simp] theorem setOplog_hub (pe : Nat) (v : List (Nat×Word)) : (s.setOplog pe v).hub = s.hub := rfl
@[simp] theorem setOplog_sag (pe : Nat) (v : List (Nat×Word)) : (s.setOplog pe v).sag = s.sag := rfl
@[simp] theorem setOplog_fab (pe : Nat) (v : List (Nat×Word)) : (s.setOplog pe v).fab = s.fab := rfl
@[simp] theorem setOplog_agenda (pe : Nat) (v : List (Nat×Word)) : (s.setOplog pe v).agenda = s.agenda := rfl
@[simp] theorem setOplog_free (pe : Nat) (v : List (Nat×Word)) : (s.setOplog pe v).free = s.free := rfl
@[simp] theorem setOplog_now (pe : Nat) (v : List (Nat×Word)) : (s.setOplog pe v).now = s.now := rfl
@[simp] theorem setOplog_cur (pe : Nat) (v : List (Nat×Word)) : (s.setOplog pe v).cur = s.cur := rfl
@[simp] theorem setOplog_act (pe : Nat) (v : List (Nat×Word)) : (s.setOplog pe v).act = s.act := rfl
@[simp] theorem setOplog_unit_store (pe : Nat) (v : List (Nat×Word)) : (s.setOplog pe v).unit.store = s.unit.store := rfl
@[simp] theorem setOplog_unit_slots (pe : Nat) (v : List (Nat×Word)) : (s.setOplog pe v).unit.slots = s.unit.slots := rfl
@[simp] theorem setOplog_unit_handles (pe : Nat) (v : List (Nat×Word)) : (s.setOplog pe v).unit.handles = s.unit.handles := rfl
@[simp] theorem setOplog_unit_tasks (pe : Nat) (v : List (Nat×Word)) : (s.setOplog pe v).unit.tasks = s.unit.tasks := rfl
@[simp] theorem setOplog_unit_regs (pe : Nat) (v : List (Nat×Word)) : (s.setOplog pe v).unit.regs = s.unit.regs := rfl
@[simp] theorem setOplog_unit_preds (pe : Nat) (v : List (Nat×Word)) : (s.setOplog pe v).unit.preds = s.unit.preds := rfl
@[simp] theorem setOplog_unit_choosers (pe : Nat) (v : List (Nat×Word)) : (s.setOplog pe v).unit.choosers = s.unit.choosers := rfl
@[simp] theorem setOplog_unit_badRegs (pe : Nat) (v : List (Nat×Word)) : (s.setOplog pe v).unit.badRegs = s.unit.badRegs := rfl
@[simp] theorem setOplog_unit_damaged (pe : Nat) (v : List (Nat×Word)) : (s.setOplog pe v).unit.damaged = s.unit.damaged := rfl
@[simp] theorem setOplog_unit_detectors (pe : Nat) (v : List (Nat×Word)) : (s.setOplog pe v).unit.detectors = s.unit.detectors := rfl
theorem setOplog_unit_oplog (pe : Nat) (v : List (Nat×Word)) : (s.setOplog pe v).unit.oplog = s.unit.oplog.put (pe) v [] := rfl
/-- What `setOplog` wrote is read back. -/
@[simp] theorem oplog_setOplog_same (pe : Nat) (v : List (Nat×Word)) : (s.setOplog pe v).oplog pe = v := Map.find_put_same ..
theorem oplog_setOplog_other (pe : Nat) (v : List (Nat×Word)) (pe' : Nat) (hne : pe' ≠ pe) : (s.setOplog pe v).oplog pe' = s.oplog pe' := Map.find_put_other _ hne ..

@[simp] theorem setPeDetector_router (pe : Nat) (v : Detector) : (s.setPeDetector pe v).router = s.router := rfl
@[simp] theorem setPeDetector_core (pe : Nat) (v : Detector) : (s.setPeDetector pe v).core = s.core := rfl
@[simp] theorem setPeDetector_sync (pe : Nat) (v : Detector) : (s.setPeDetector pe v).sync = s.sync := rfl
@[simp] theorem setPeDetector_cluster (pe : Nat) (v : Detector) : (s.setPeDetector pe v).cluster = s.cluster := rfl
@[simp] theorem setPeDetector_mesh (pe : Nat) (v : Detector) : (s.setPeDetector pe v).mesh = s.mesh := rfl
@[simp] theorem setPeDetector_mem (pe : Nat) (v : Detector) : (s.setPeDetector pe v).mem = s.mem := rfl
@[simp] theorem setPeDetector_die (pe : Nat) (v : Detector) : (s.setPeDetector pe v).die = s.die := rfl
@[simp] theorem setPeDetector_hub (pe : Nat) (v : Detector) : (s.setPeDetector pe v).hub = s.hub := rfl
@[simp] theorem setPeDetector_sag (pe : Nat) (v : Detector) : (s.setPeDetector pe v).sag = s.sag := rfl
@[simp] theorem setPeDetector_fab (pe : Nat) (v : Detector) : (s.setPeDetector pe v).fab = s.fab := rfl
@[simp] theorem setPeDetector_agenda (pe : Nat) (v : Detector) : (s.setPeDetector pe v).agenda = s.agenda := rfl
@[simp] theorem setPeDetector_free (pe : Nat) (v : Detector) : (s.setPeDetector pe v).free = s.free := rfl
@[simp] theorem setPeDetector_now (pe : Nat) (v : Detector) : (s.setPeDetector pe v).now = s.now := rfl
@[simp] theorem setPeDetector_cur (pe : Nat) (v : Detector) : (s.setPeDetector pe v).cur = s.cur := rfl
@[simp] theorem setPeDetector_act (pe : Nat) (v : Detector) : (s.setPeDetector pe v).act = s.act := rfl
@[simp] theorem setPeDetector_unit_store (pe : Nat) (v : Detector) : (s.setPeDetector pe v).unit.store = s.unit.store := rfl
@[simp] theorem setPeDetector_unit_slots (pe : Nat) (v : Detector) : (s.setPeDetector pe v).unit.slots = s.unit.slots := rfl
@[simp] theorem setPeDetector_unit_handles (pe : Nat) (v : Detector) : (s.setPeDetector pe v).unit.handles = s.unit.handles := rfl
@[simp] theorem setPeDetector_unit_tasks (pe : Nat) (v : Detector) : (s.setPeDetector pe v).unit.tasks = s.unit.tasks := rfl
@[simp] theorem setPeDetector_unit_regs (pe : Nat) (v : Detector) : (s.setPeDetector pe v).unit.regs = s.unit.regs := rfl
@[simp] theorem setPeDetector_unit_preds (pe : Nat) (v : Detector) : (s.setPeDetector pe v).unit.preds = s.unit.preds := rfl
@[simp] theorem setPeDetector_unit_choosers (pe : Nat) (v : Detector) : (s.setPeDetector pe v).unit.choosers = s.unit.choosers := rfl
@[simp] theorem setPeDetector_unit_badRegs (pe : Nat) (v : Detector) : (s.setPeDetector pe v).unit.badRegs = s.unit.badRegs := rfl
@[simp] theorem setPeDetector_unit_damaged (pe : Nat) (v : Detector) : (s.setPeDetector pe v).unit.damaged = s.unit.damaged := rfl
@[simp] theorem setPeDetector_unit_oplog (pe : Nat) (v : Detector) : (s.setPeDetector pe v).unit.oplog = s.unit.oplog := rfl
theorem setPeDetector_unit_detectors (pe : Nat) (v : Detector) : (s.setPeDetector pe v).unit.detectors = s.unit.detectors.put (pe) v {} := rfl
/-- What `setPeDetector` wrote is read back. -/
@[simp] theorem peDetector_setPeDetector_same (pe : Nat) (v : Detector) : (s.setPeDetector pe v).peDetector pe = v := Map.find_put_same ..
theorem peDetector_setPeDetector_other (pe : Nat) (v : Detector) (pe' : Nat) (hne : pe' ≠ pe) : (s.setPeDetector pe v).peDetector pe' = s.peDetector pe' := Map.find_put_other _ hne ..

@[simp] theorem setLink_unit (r dir vc : Nat) (v : List (Token)) : (s.setLink r dir vc v).unit = s.unit := rfl
@[simp] theorem setLink_core (r dir vc : Nat) (v : List (Token)) : (s.setLink r dir vc v).core = s.core := rfl
@[simp] theorem setLink_sync (r dir vc : Nat) (v : List (Token)) : (s.setLink r dir vc v).sync = s.sync := rfl
@[simp] theorem setLink_cluster (r dir vc : Nat) (v : List (Token)) : (s.setLink r dir vc v).cluster = s.cluster := rfl
@[simp] theorem setLink_mesh (r dir vc : Nat) (v : List (Token)) : (s.setLink r dir vc v).mesh = s.mesh := rfl
@[simp] theorem setLink_mem (r dir vc : Nat) (v : List (Token)) : (s.setLink r dir vc v).mem = s.mem := rfl
@[simp] theorem setLink_die (r dir vc : Nat) (v : List (Token)) : (s.setLink r dir vc v).die = s.die := rfl
@[simp] theorem setLink_hub (r dir vc : Nat) (v : List (Token)) : (s.setLink r dir vc v).hub = s.hub := rfl
@[simp] theorem setLink_sag (r dir vc : Nat) (v : List (Token)) : (s.setLink r dir vc v).sag = s.sag := rfl
@[simp] theorem setLink_fab (r dir vc : Nat) (v : List (Token)) : (s.setLink r dir vc v).fab = s.fab := rfl
@[simp] theorem setLink_agenda (r dir vc : Nat) (v : List (Token)) : (s.setLink r dir vc v).agenda = s.agenda := rfl
@[simp] theorem setLink_free (r dir vc : Nat) (v : List (Token)) : (s.setLink r dir vc v).free = s.free := rfl
@[simp] theorem setLink_now (r dir vc : Nat) (v : List (Token)) : (s.setLink r dir vc v).now = s.now := rfl
@[simp] theorem setLink_cur (r dir vc : Nat) (v : List (Token)) : (s.setLink r dir vc v).cur = s.cur := rfl
@[simp] theorem setLink_act (r dir vc : Nat) (v : List (Token)) : (s.setLink r dir vc v).act = s.act := rfl
@[simp] theorem setLink_router_linkLast (r dir vc : Nat) (v : List (Token)) : (s.setLink r dir vc v).router.linkLast = s.router.linkLast := rfl
@[simp] theorem setLink_router_localInLast (r dir vc : Nat) (v : List (Token)) : (s.setLink r dir vc v).router.localInLast = s.router.localInLast := rfl
@[simp] theorem setLink_router_localOutLast (r dir vc : Nat) (v : List (Token)) : (s.setLink r dir vc v).router.localOutLast = s.router.localOutLast := rfl
@[simp] theorem setLink_router_elemInLast (r dir vc : Nat) (v : List (Token)) : (s.setLink r dir vc v).router.elemInLast = s.router.elemInLast := rfl
@[simp] theorem setLink_router_elemOutLast (r dir vc : Nat) (v : List (Token)) : (s.setLink r dir vc v).router.elemOutLast = s.router.elemOutLast := rfl
@[simp] theorem setLink_router_routes (r dir vc : Nat) (v : List (Token)) : (s.setLink r dir vc v).router.routes = s.router.routes := rfl
@[simp] theorem setLink_router_ops (r dir vc : Nat) (v : List (Token)) : (s.setLink r dir vc v).router.ops = s.router.ops := rfl
@[simp] theorem setLink_router_islands (r dir vc : Nat) (v : List (Token)) : (s.setLink r dir vc v).router.islands = s.router.islands := rfl
theorem setLink_router_links (r dir vc : Nat) (v : List (Token)) : (s.setLink r dir vc v).router.links = s.router.links.put ((4 * r + dir) * 4 + vc) v [] := rfl
/-- What `setLink` wrote is read back. -/
@[simp] theorem link_setLink_same (r dir vc : Nat) (v : List (Token)) : (s.setLink r dir vc v).link r dir vc = v := Map.find_put_same ..
theorem link_setLink_other (r dir vc : Nat) (v : List (Token)) (r' dir' vc' : Nat) (hne : (4 * r' + dir') * 4 + vc' ≠ (4 * r + dir) * 4 + vc) : (s.setLink r dir vc v).link r' dir' vc' = s.link r' dir' vc' := Map.find_put_other _ hne ..

@[simp] theorem setLinkLast_unit (r dir : Nat) (v : Nat) : (s.setLinkLast r dir v).unit = s.unit := rfl
@[simp] theorem setLinkLast_core (r dir : Nat) (v : Nat) : (s.setLinkLast r dir v).core = s.core := rfl
@[simp] theorem setLinkLast_sync (r dir : Nat) (v : Nat) : (s.setLinkLast r dir v).sync = s.sync := rfl
@[simp] theorem setLinkLast_cluster (r dir : Nat) (v : Nat) : (s.setLinkLast r dir v).cluster = s.cluster := rfl
@[simp] theorem setLinkLast_mesh (r dir : Nat) (v : Nat) : (s.setLinkLast r dir v).mesh = s.mesh := rfl
@[simp] theorem setLinkLast_mem (r dir : Nat) (v : Nat) : (s.setLinkLast r dir v).mem = s.mem := rfl
@[simp] theorem setLinkLast_die (r dir : Nat) (v : Nat) : (s.setLinkLast r dir v).die = s.die := rfl
@[simp] theorem setLinkLast_hub (r dir : Nat) (v : Nat) : (s.setLinkLast r dir v).hub = s.hub := rfl
@[simp] theorem setLinkLast_sag (r dir : Nat) (v : Nat) : (s.setLinkLast r dir v).sag = s.sag := rfl
@[simp] theorem setLinkLast_fab (r dir : Nat) (v : Nat) : (s.setLinkLast r dir v).fab = s.fab := rfl
@[simp] theorem setLinkLast_agenda (r dir : Nat) (v : Nat) : (s.setLinkLast r dir v).agenda = s.agenda := rfl
@[simp] theorem setLinkLast_free (r dir : Nat) (v : Nat) : (s.setLinkLast r dir v).free = s.free := rfl
@[simp] theorem setLinkLast_now (r dir : Nat) (v : Nat) : (s.setLinkLast r dir v).now = s.now := rfl
@[simp] theorem setLinkLast_cur (r dir : Nat) (v : Nat) : (s.setLinkLast r dir v).cur = s.cur := rfl
@[simp] theorem setLinkLast_act (r dir : Nat) (v : Nat) : (s.setLinkLast r dir v).act = s.act := rfl
@[simp] theorem setLinkLast_router_links (r dir : Nat) (v : Nat) : (s.setLinkLast r dir v).router.links = s.router.links := rfl
@[simp] theorem setLinkLast_router_localInLast (r dir : Nat) (v : Nat) : (s.setLinkLast r dir v).router.localInLast = s.router.localInLast := rfl
@[simp] theorem setLinkLast_router_localOutLast (r dir : Nat) (v : Nat) : (s.setLinkLast r dir v).router.localOutLast = s.router.localOutLast := rfl
@[simp] theorem setLinkLast_router_elemInLast (r dir : Nat) (v : Nat) : (s.setLinkLast r dir v).router.elemInLast = s.router.elemInLast := rfl
@[simp] theorem setLinkLast_router_elemOutLast (r dir : Nat) (v : Nat) : (s.setLinkLast r dir v).router.elemOutLast = s.router.elemOutLast := rfl
@[simp] theorem setLinkLast_router_routes (r dir : Nat) (v : Nat) : (s.setLinkLast r dir v).router.routes = s.router.routes := rfl
@[simp] theorem setLinkLast_router_ops (r dir : Nat) (v : Nat) : (s.setLinkLast r dir v).router.ops = s.router.ops := rfl
@[simp] theorem setLinkLast_router_islands (r dir : Nat) (v : Nat) : (s.setLinkLast r dir v).router.islands = s.router.islands := rfl
theorem setLinkLast_router_linkLast (r dir : Nat) (v : Nat) : (s.setLinkLast r dir v).router.linkLast = s.router.linkLast.put (4 * r + dir) v 3 := rfl
/-- What `setLinkLast` wrote is read back. -/
@[simp] theorem linkLast_setLinkLast_same (r dir : Nat) (v : Nat) : (s.setLinkLast r dir v).linkLast r dir = v := Map.find_put_same ..
theorem linkLast_setLinkLast_other (r dir : Nat) (v : Nat) (r' dir' : Nat) (hne : 4 * r' + dir' ≠ 4 * r + dir) : (s.setLinkLast r dir v).linkLast r' dir' = s.linkLast r' dir' := Map.find_put_other _ hne ..

@[simp] theorem setLocalInLast_unit (r : Nat) (v : Nat) : (s.setLocalInLast r v).unit = s.unit := rfl
@[simp] theorem setLocalInLast_core (r : Nat) (v : Nat) : (s.setLocalInLast r v).core = s.core := rfl
@[simp] theorem setLocalInLast_sync (r : Nat) (v : Nat) : (s.setLocalInLast r v).sync = s.sync := rfl
@[simp] theorem setLocalInLast_cluster (r : Nat) (v : Nat) : (s.setLocalInLast r v).cluster = s.cluster := rfl
@[simp] theorem setLocalInLast_mesh (r : Nat) (v : Nat) : (s.setLocalInLast r v).mesh = s.mesh := rfl
@[simp] theorem setLocalInLast_mem (r : Nat) (v : Nat) : (s.setLocalInLast r v).mem = s.mem := rfl
@[simp] theorem setLocalInLast_die (r : Nat) (v : Nat) : (s.setLocalInLast r v).die = s.die := rfl
@[simp] theorem setLocalInLast_hub (r : Nat) (v : Nat) : (s.setLocalInLast r v).hub = s.hub := rfl
@[simp] theorem setLocalInLast_sag (r : Nat) (v : Nat) : (s.setLocalInLast r v).sag = s.sag := rfl
@[simp] theorem setLocalInLast_fab (r : Nat) (v : Nat) : (s.setLocalInLast r v).fab = s.fab := rfl
@[simp] theorem setLocalInLast_agenda (r : Nat) (v : Nat) : (s.setLocalInLast r v).agenda = s.agenda := rfl
@[simp] theorem setLocalInLast_free (r : Nat) (v : Nat) : (s.setLocalInLast r v).free = s.free := rfl
@[simp] theorem setLocalInLast_now (r : Nat) (v : Nat) : (s.setLocalInLast r v).now = s.now := rfl
@[simp] theorem setLocalInLast_cur (r : Nat) (v : Nat) : (s.setLocalInLast r v).cur = s.cur := rfl
@[simp] theorem setLocalInLast_act (r : Nat) (v : Nat) : (s.setLocalInLast r v).act = s.act := rfl
@[simp] theorem setLocalInLast_router_links (r : Nat) (v : Nat) : (s.setLocalInLast r v).router.links = s.router.links := rfl
@[simp] theorem setLocalInLast_router_linkLast (r : Nat) (v : Nat) : (s.setLocalInLast r v).router.linkLast = s.router.linkLast := rfl
@[simp] theorem setLocalInLast_router_localOutLast (r : Nat) (v : Nat) : (s.setLocalInLast r v).router.localOutLast = s.router.localOutLast := rfl
@[simp] theorem setLocalInLast_router_elemInLast (r : Nat) (v : Nat) : (s.setLocalInLast r v).router.elemInLast = s.router.elemInLast := rfl
@[simp] theorem setLocalInLast_router_elemOutLast (r : Nat) (v : Nat) : (s.setLocalInLast r v).router.elemOutLast = s.router.elemOutLast := rfl
@[simp] theorem setLocalInLast_router_routes (r : Nat) (v : Nat) : (s.setLocalInLast r v).router.routes = s.router.routes := rfl
@[simp] theorem setLocalInLast_router_ops (r : Nat) (v : Nat) : (s.setLocalInLast r v).router.ops = s.router.ops := rfl
@[simp] theorem setLocalInLast_router_islands (r : Nat) (v : Nat) : (s.setLocalInLast r v).router.islands = s.router.islands := rfl
theorem setLocalInLast_router_localInLast (r : Nat) (v : Nat) : (s.setLocalInLast r v).router.localInLast = s.router.localInLast.put (r) v 63 := rfl
/-- What `setLocalInLast` wrote is read back. -/
@[simp] theorem localInLast_setLocalInLast_same (r : Nat) (v : Nat) : (s.setLocalInLast r v).localInLast r = v := Map.find_put_same ..
theorem localInLast_setLocalInLast_other (r : Nat) (v : Nat) (r' : Nat) (hne : r' ≠ r) : (s.setLocalInLast r v).localInLast r' = s.localInLast r' := Map.find_put_other _ hne ..

@[simp] theorem setLocalOutLast_unit (r : Nat) (v : Nat) : (s.setLocalOutLast r v).unit = s.unit := rfl
@[simp] theorem setLocalOutLast_core (r : Nat) (v : Nat) : (s.setLocalOutLast r v).core = s.core := rfl
@[simp] theorem setLocalOutLast_sync (r : Nat) (v : Nat) : (s.setLocalOutLast r v).sync = s.sync := rfl
@[simp] theorem setLocalOutLast_cluster (r : Nat) (v : Nat) : (s.setLocalOutLast r v).cluster = s.cluster := rfl
@[simp] theorem setLocalOutLast_mesh (r : Nat) (v : Nat) : (s.setLocalOutLast r v).mesh = s.mesh := rfl
@[simp] theorem setLocalOutLast_mem (r : Nat) (v : Nat) : (s.setLocalOutLast r v).mem = s.mem := rfl
@[simp] theorem setLocalOutLast_die (r : Nat) (v : Nat) : (s.setLocalOutLast r v).die = s.die := rfl
@[simp] theorem setLocalOutLast_hub (r : Nat) (v : Nat) : (s.setLocalOutLast r v).hub = s.hub := rfl
@[simp] theorem setLocalOutLast_sag (r : Nat) (v : Nat) : (s.setLocalOutLast r v).sag = s.sag := rfl
@[simp] theorem setLocalOutLast_fab (r : Nat) (v : Nat) : (s.setLocalOutLast r v).fab = s.fab := rfl
@[simp] theorem setLocalOutLast_agenda (r : Nat) (v : Nat) : (s.setLocalOutLast r v).agenda = s.agenda := rfl
@[simp] theorem setLocalOutLast_free (r : Nat) (v : Nat) : (s.setLocalOutLast r v).free = s.free := rfl
@[simp] theorem setLocalOutLast_now (r : Nat) (v : Nat) : (s.setLocalOutLast r v).now = s.now := rfl
@[simp] theorem setLocalOutLast_cur (r : Nat) (v : Nat) : (s.setLocalOutLast r v).cur = s.cur := rfl
@[simp] theorem setLocalOutLast_act (r : Nat) (v : Nat) : (s.setLocalOutLast r v).act = s.act := rfl
@[simp] theorem setLocalOutLast_router_links (r : Nat) (v : Nat) : (s.setLocalOutLast r v).router.links = s.router.links := rfl
@[simp] theorem setLocalOutLast_router_linkLast (r : Nat) (v : Nat) : (s.setLocalOutLast r v).router.linkLast = s.router.linkLast := rfl
@[simp] theorem setLocalOutLast_router_localInLast (r : Nat) (v : Nat) : (s.setLocalOutLast r v).router.localInLast = s.router.localInLast := rfl
@[simp] theorem setLocalOutLast_router_elemInLast (r : Nat) (v : Nat) : (s.setLocalOutLast r v).router.elemInLast = s.router.elemInLast := rfl
@[simp] theorem setLocalOutLast_router_elemOutLast (r : Nat) (v : Nat) : (s.setLocalOutLast r v).router.elemOutLast = s.router.elemOutLast := rfl
@[simp] theorem setLocalOutLast_router_routes (r : Nat) (v : Nat) : (s.setLocalOutLast r v).router.routes = s.router.routes := rfl
@[simp] theorem setLocalOutLast_router_ops (r : Nat) (v : Nat) : (s.setLocalOutLast r v).router.ops = s.router.ops := rfl
@[simp] theorem setLocalOutLast_router_islands (r : Nat) (v : Nat) : (s.setLocalOutLast r v).router.islands = s.router.islands := rfl
theorem setLocalOutLast_router_localOutLast (r : Nat) (v : Nat) : (s.setLocalOutLast r v).router.localOutLast = s.router.localOutLast.put (r) v 63 := rfl
/-- What `setLocalOutLast` wrote is read back. -/
@[simp] theorem localOutLast_setLocalOutLast_same (r : Nat) (v : Nat) : (s.setLocalOutLast r v).localOutLast r = v := Map.find_put_same ..
theorem localOutLast_setLocalOutLast_other (r : Nat) (v : Nat) (r' : Nat) (hne : r' ≠ r) : (s.setLocalOutLast r v).localOutLast r' = s.localOutLast r' := Map.find_put_other _ hne ..

@[simp] theorem setElemInLast_unit (r : Nat) (v : Nat) : (s.setElemInLast r v).unit = s.unit := rfl
@[simp] theorem setElemInLast_core (r : Nat) (v : Nat) : (s.setElemInLast r v).core = s.core := rfl
@[simp] theorem setElemInLast_sync (r : Nat) (v : Nat) : (s.setElemInLast r v).sync = s.sync := rfl
@[simp] theorem setElemInLast_cluster (r : Nat) (v : Nat) : (s.setElemInLast r v).cluster = s.cluster := rfl
@[simp] theorem setElemInLast_mesh (r : Nat) (v : Nat) : (s.setElemInLast r v).mesh = s.mesh := rfl
@[simp] theorem setElemInLast_mem (r : Nat) (v : Nat) : (s.setElemInLast r v).mem = s.mem := rfl
@[simp] theorem setElemInLast_die (r : Nat) (v : Nat) : (s.setElemInLast r v).die = s.die := rfl
@[simp] theorem setElemInLast_hub (r : Nat) (v : Nat) : (s.setElemInLast r v).hub = s.hub := rfl
@[simp] theorem setElemInLast_sag (r : Nat) (v : Nat) : (s.setElemInLast r v).sag = s.sag := rfl
@[simp] theorem setElemInLast_fab (r : Nat) (v : Nat) : (s.setElemInLast r v).fab = s.fab := rfl
@[simp] theorem setElemInLast_agenda (r : Nat) (v : Nat) : (s.setElemInLast r v).agenda = s.agenda := rfl
@[simp] theorem setElemInLast_free (r : Nat) (v : Nat) : (s.setElemInLast r v).free = s.free := rfl
@[simp] theorem setElemInLast_now (r : Nat) (v : Nat) : (s.setElemInLast r v).now = s.now := rfl
@[simp] theorem setElemInLast_cur (r : Nat) (v : Nat) : (s.setElemInLast r v).cur = s.cur := rfl
@[simp] theorem setElemInLast_act (r : Nat) (v : Nat) : (s.setElemInLast r v).act = s.act := rfl
@[simp] theorem setElemInLast_router_links (r : Nat) (v : Nat) : (s.setElemInLast r v).router.links = s.router.links := rfl
@[simp] theorem setElemInLast_router_linkLast (r : Nat) (v : Nat) : (s.setElemInLast r v).router.linkLast = s.router.linkLast := rfl
@[simp] theorem setElemInLast_router_localInLast (r : Nat) (v : Nat) : (s.setElemInLast r v).router.localInLast = s.router.localInLast := rfl
@[simp] theorem setElemInLast_router_localOutLast (r : Nat) (v : Nat) : (s.setElemInLast r v).router.localOutLast = s.router.localOutLast := rfl
@[simp] theorem setElemInLast_router_elemOutLast (r : Nat) (v : Nat) : (s.setElemInLast r v).router.elemOutLast = s.router.elemOutLast := rfl
@[simp] theorem setElemInLast_router_routes (r : Nat) (v : Nat) : (s.setElemInLast r v).router.routes = s.router.routes := rfl
@[simp] theorem setElemInLast_router_ops (r : Nat) (v : Nat) : (s.setElemInLast r v).router.ops = s.router.ops := rfl
@[simp] theorem setElemInLast_router_islands (r : Nat) (v : Nat) : (s.setElemInLast r v).router.islands = s.router.islands := rfl
theorem setElemInLast_router_elemInLast (r : Nat) (v : Nat) : (s.setElemInLast r v).router.elemInLast = s.router.elemInLast.put (r) v 63 := rfl
/-- What `setElemInLast` wrote is read back. -/
@[simp] theorem elemInLast_setElemInLast_same (r : Nat) (v : Nat) : (s.setElemInLast r v).elemInLast r = v := Map.find_put_same ..
theorem elemInLast_setElemInLast_other (r : Nat) (v : Nat) (r' : Nat) (hne : r' ≠ r) : (s.setElemInLast r v).elemInLast r' = s.elemInLast r' := Map.find_put_other _ hne ..

@[simp] theorem setElemOutLast_unit (r : Nat) (v : Nat) : (s.setElemOutLast r v).unit = s.unit := rfl
@[simp] theorem setElemOutLast_core (r : Nat) (v : Nat) : (s.setElemOutLast r v).core = s.core := rfl
@[simp] theorem setElemOutLast_sync (r : Nat) (v : Nat) : (s.setElemOutLast r v).sync = s.sync := rfl
@[simp] theorem setElemOutLast_cluster (r : Nat) (v : Nat) : (s.setElemOutLast r v).cluster = s.cluster := rfl
@[simp] theorem setElemOutLast_mesh (r : Nat) (v : Nat) : (s.setElemOutLast r v).mesh = s.mesh := rfl
@[simp] theorem setElemOutLast_mem (r : Nat) (v : Nat) : (s.setElemOutLast r v).mem = s.mem := rfl
@[simp] theorem setElemOutLast_die (r : Nat) (v : Nat) : (s.setElemOutLast r v).die = s.die := rfl
@[simp] theorem setElemOutLast_hub (r : Nat) (v : Nat) : (s.setElemOutLast r v).hub = s.hub := rfl
@[simp] theorem setElemOutLast_sag (r : Nat) (v : Nat) : (s.setElemOutLast r v).sag = s.sag := rfl
@[simp] theorem setElemOutLast_fab (r : Nat) (v : Nat) : (s.setElemOutLast r v).fab = s.fab := rfl
@[simp] theorem setElemOutLast_agenda (r : Nat) (v : Nat) : (s.setElemOutLast r v).agenda = s.agenda := rfl
@[simp] theorem setElemOutLast_free (r : Nat) (v : Nat) : (s.setElemOutLast r v).free = s.free := rfl
@[simp] theorem setElemOutLast_now (r : Nat) (v : Nat) : (s.setElemOutLast r v).now = s.now := rfl
@[simp] theorem setElemOutLast_cur (r : Nat) (v : Nat) : (s.setElemOutLast r v).cur = s.cur := rfl
@[simp] theorem setElemOutLast_act (r : Nat) (v : Nat) : (s.setElemOutLast r v).act = s.act := rfl
@[simp] theorem setElemOutLast_router_links (r : Nat) (v : Nat) : (s.setElemOutLast r v).router.links = s.router.links := rfl
@[simp] theorem setElemOutLast_router_linkLast (r : Nat) (v : Nat) : (s.setElemOutLast r v).router.linkLast = s.router.linkLast := rfl
@[simp] theorem setElemOutLast_router_localInLast (r : Nat) (v : Nat) : (s.setElemOutLast r v).router.localInLast = s.router.localInLast := rfl
@[simp] theorem setElemOutLast_router_localOutLast (r : Nat) (v : Nat) : (s.setElemOutLast r v).router.localOutLast = s.router.localOutLast := rfl
@[simp] theorem setElemOutLast_router_elemInLast (r : Nat) (v : Nat) : (s.setElemOutLast r v).router.elemInLast = s.router.elemInLast := rfl
@[simp] theorem setElemOutLast_router_routes (r : Nat) (v : Nat) : (s.setElemOutLast r v).router.routes = s.router.routes := rfl
@[simp] theorem setElemOutLast_router_ops (r : Nat) (v : Nat) : (s.setElemOutLast r v).router.ops = s.router.ops := rfl
@[simp] theorem setElemOutLast_router_islands (r : Nat) (v : Nat) : (s.setElemOutLast r v).router.islands = s.router.islands := rfl
theorem setElemOutLast_router_elemOutLast (r : Nat) (v : Nat) : (s.setElemOutLast r v).router.elemOutLast = s.router.elemOutLast.put (r) v 63 := rfl
/-- What `setElemOutLast` wrote is read back. -/
@[simp] theorem elemOutLast_setElemOutLast_same (r : Nat) (v : Nat) : (s.setElemOutLast r v).elemOutLast r = v := Map.find_put_same ..
theorem elemOutLast_setElemOutLast_other (r : Nat) (v : Nat) (r' : Nat) (hne : r' ≠ r) : (s.setElemOutLast r v).elemOutLast r' = s.elemOutLast r' := Map.find_put_other _ hne ..

@[simp] theorem setRoute_unit (r e : Nat) (v : Route) : (s.setRoute r e v).unit = s.unit := rfl
@[simp] theorem setRoute_core (r e : Nat) (v : Route) : (s.setRoute r e v).core = s.core := rfl
@[simp] theorem setRoute_sync (r e : Nat) (v : Route) : (s.setRoute r e v).sync = s.sync := rfl
@[simp] theorem setRoute_cluster (r e : Nat) (v : Route) : (s.setRoute r e v).cluster = s.cluster := rfl
@[simp] theorem setRoute_mesh (r e : Nat) (v : Route) : (s.setRoute r e v).mesh = s.mesh := rfl
@[simp] theorem setRoute_mem (r e : Nat) (v : Route) : (s.setRoute r e v).mem = s.mem := rfl
@[simp] theorem setRoute_die (r e : Nat) (v : Route) : (s.setRoute r e v).die = s.die := rfl
@[simp] theorem setRoute_hub (r e : Nat) (v : Route) : (s.setRoute r e v).hub = s.hub := rfl
@[simp] theorem setRoute_sag (r e : Nat) (v : Route) : (s.setRoute r e v).sag = s.sag := rfl
@[simp] theorem setRoute_fab (r e : Nat) (v : Route) : (s.setRoute r e v).fab = s.fab := rfl
@[simp] theorem setRoute_agenda (r e : Nat) (v : Route) : (s.setRoute r e v).agenda = s.agenda := rfl
@[simp] theorem setRoute_free (r e : Nat) (v : Route) : (s.setRoute r e v).free = s.free := rfl
@[simp] theorem setRoute_now (r e : Nat) (v : Route) : (s.setRoute r e v).now = s.now := rfl
@[simp] theorem setRoute_cur (r e : Nat) (v : Route) : (s.setRoute r e v).cur = s.cur := rfl
@[simp] theorem setRoute_act (r e : Nat) (v : Route) : (s.setRoute r e v).act = s.act := rfl
@[simp] theorem setRoute_router_links (r e : Nat) (v : Route) : (s.setRoute r e v).router.links = s.router.links := rfl
@[simp] theorem setRoute_router_linkLast (r e : Nat) (v : Route) : (s.setRoute r e v).router.linkLast = s.router.linkLast := rfl
@[simp] theorem setRoute_router_localInLast (r e : Nat) (v : Route) : (s.setRoute r e v).router.localInLast = s.router.localInLast := rfl
@[simp] theorem setRoute_router_localOutLast (r e : Nat) (v : Route) : (s.setRoute r e v).router.localOutLast = s.router.localOutLast := rfl
@[simp] theorem setRoute_router_elemInLast (r e : Nat) (v : Route) : (s.setRoute r e v).router.elemInLast = s.router.elemInLast := rfl
@[simp] theorem setRoute_router_elemOutLast (r e : Nat) (v : Route) : (s.setRoute r e v).router.elemOutLast = s.router.elemOutLast := rfl
@[simp] theorem setRoute_router_ops (r e : Nat) (v : Route) : (s.setRoute r e v).router.ops = s.router.ops := rfl
@[simp] theorem setRoute_router_islands (r e : Nat) (v : Route) : (s.setRoute r e v).router.islands = s.router.islands := rfl
theorem setRoute_router_routes (r e : Nat) (v : Route) : (s.setRoute r e v).router.routes = s.router.routes.put (64 * r + e) v {} := rfl
/-- What `setRoute` wrote is read back. -/
@[simp] theorem route_setRoute_same (r e : Nat) (v : Route) : (s.setRoute r e v).route r e = v := Map.find_put_same ..
theorem route_setRoute_other (r e : Nat) (v : Route) (r' e' : Nat) (hne : 64 * r' + e' ≠ 64 * r + e) : (s.setRoute r e v).route r' e' = s.route r' e' := Map.find_put_other _ hne ..

@[simp] theorem setOpSlot_unit (r k : Nat) (v : OpSlot) : (s.setOpSlot r k v).unit = s.unit := rfl
@[simp] theorem setOpSlot_core (r k : Nat) (v : OpSlot) : (s.setOpSlot r k v).core = s.core := rfl
@[simp] theorem setOpSlot_sync (r k : Nat) (v : OpSlot) : (s.setOpSlot r k v).sync = s.sync := rfl
@[simp] theorem setOpSlot_cluster (r k : Nat) (v : OpSlot) : (s.setOpSlot r k v).cluster = s.cluster := rfl
@[simp] theorem setOpSlot_mesh (r k : Nat) (v : OpSlot) : (s.setOpSlot r k v).mesh = s.mesh := rfl
@[simp] theorem setOpSlot_mem (r k : Nat) (v : OpSlot) : (s.setOpSlot r k v).mem = s.mem := rfl
@[simp] theorem setOpSlot_die (r k : Nat) (v : OpSlot) : (s.setOpSlot r k v).die = s.die := rfl
@[simp] theorem setOpSlot_hub (r k : Nat) (v : OpSlot) : (s.setOpSlot r k v).hub = s.hub := rfl
@[simp] theorem setOpSlot_sag (r k : Nat) (v : OpSlot) : (s.setOpSlot r k v).sag = s.sag := rfl
@[simp] theorem setOpSlot_fab (r k : Nat) (v : OpSlot) : (s.setOpSlot r k v).fab = s.fab := rfl
@[simp] theorem setOpSlot_agenda (r k : Nat) (v : OpSlot) : (s.setOpSlot r k v).agenda = s.agenda := rfl
@[simp] theorem setOpSlot_free (r k : Nat) (v : OpSlot) : (s.setOpSlot r k v).free = s.free := rfl
@[simp] theorem setOpSlot_now (r k : Nat) (v : OpSlot) : (s.setOpSlot r k v).now = s.now := rfl
@[simp] theorem setOpSlot_cur (r k : Nat) (v : OpSlot) : (s.setOpSlot r k v).cur = s.cur := rfl
@[simp] theorem setOpSlot_act (r k : Nat) (v : OpSlot) : (s.setOpSlot r k v).act = s.act := rfl
@[simp] theorem setOpSlot_router_links (r k : Nat) (v : OpSlot) : (s.setOpSlot r k v).router.links = s.router.links := rfl
@[simp] theorem setOpSlot_router_linkLast (r k : Nat) (v : OpSlot) : (s.setOpSlot r k v).router.linkLast = s.router.linkLast := rfl
@[simp] theorem setOpSlot_router_localInLast (r k : Nat) (v : OpSlot) : (s.setOpSlot r k v).router.localInLast = s.router.localInLast := rfl
@[simp] theorem setOpSlot_router_localOutLast (r k : Nat) (v : OpSlot) : (s.setOpSlot r k v).router.localOutLast = s.router.localOutLast := rfl
@[simp] theorem setOpSlot_router_elemInLast (r k : Nat) (v : OpSlot) : (s.setOpSlot r k v).router.elemInLast = s.router.elemInLast := rfl
@[simp] theorem setOpSlot_router_elemOutLast (r k : Nat) (v : OpSlot) : (s.setOpSlot r k v).router.elemOutLast = s.router.elemOutLast := rfl
@[simp] theorem setOpSlot_router_routes (r k : Nat) (v : OpSlot) : (s.setOpSlot r k v).router.routes = s.router.routes := rfl
@[simp] theorem setOpSlot_router_islands (r k : Nat) (v : OpSlot) : (s.setOpSlot r k v).router.islands = s.router.islands := rfl
theorem setOpSlot_router_ops (r k : Nat) (v : OpSlot) : (s.setOpSlot r k v).router.ops = s.router.ops.put (2 * r + k) v {} := rfl
/-- What `setOpSlot` wrote is read back. -/
@[simp] theorem opSlot_setOpSlot_same (r k : Nat) (v : OpSlot) : (s.setOpSlot r k v).opSlot r k = v := Map.find_put_same ..
theorem opSlot_setOpSlot_other (r k : Nat) (v : OpSlot) (r' k' : Nat) (hne : 2 * r' + k' ≠ 2 * r + k) : (s.setOpSlot r k v).opSlot r' k' = s.opSlot r' k' := Map.find_put_other _ hne ..

@[simp] theorem setIslandAt_unit (r vc : Nat) (v : IslandPort) : (s.setIslandAt r vc v).unit = s.unit := rfl
@[simp] theorem setIslandAt_core (r vc : Nat) (v : IslandPort) : (s.setIslandAt r vc v).core = s.core := rfl
@[simp] theorem setIslandAt_sync (r vc : Nat) (v : IslandPort) : (s.setIslandAt r vc v).sync = s.sync := rfl
@[simp] theorem setIslandAt_cluster (r vc : Nat) (v : IslandPort) : (s.setIslandAt r vc v).cluster = s.cluster := rfl
@[simp] theorem setIslandAt_mesh (r vc : Nat) (v : IslandPort) : (s.setIslandAt r vc v).mesh = s.mesh := rfl
@[simp] theorem setIslandAt_mem (r vc : Nat) (v : IslandPort) : (s.setIslandAt r vc v).mem = s.mem := rfl
@[simp] theorem setIslandAt_die (r vc : Nat) (v : IslandPort) : (s.setIslandAt r vc v).die = s.die := rfl
@[simp] theorem setIslandAt_hub (r vc : Nat) (v : IslandPort) : (s.setIslandAt r vc v).hub = s.hub := rfl
@[simp] theorem setIslandAt_sag (r vc : Nat) (v : IslandPort) : (s.setIslandAt r vc v).sag = s.sag := rfl
@[simp] theorem setIslandAt_fab (r vc : Nat) (v : IslandPort) : (s.setIslandAt r vc v).fab = s.fab := rfl
@[simp] theorem setIslandAt_agenda (r vc : Nat) (v : IslandPort) : (s.setIslandAt r vc v).agenda = s.agenda := rfl
@[simp] theorem setIslandAt_free (r vc : Nat) (v : IslandPort) : (s.setIslandAt r vc v).free = s.free := rfl
@[simp] theorem setIslandAt_now (r vc : Nat) (v : IslandPort) : (s.setIslandAt r vc v).now = s.now := rfl
@[simp] theorem setIslandAt_cur (r vc : Nat) (v : IslandPort) : (s.setIslandAt r vc v).cur = s.cur := rfl
@[simp] theorem setIslandAt_act (r vc : Nat) (v : IslandPort) : (s.setIslandAt r vc v).act = s.act := rfl
@[simp] theorem setIslandAt_router_links (r vc : Nat) (v : IslandPort) : (s.setIslandAt r vc v).router.links = s.router.links := rfl
@[simp] theorem setIslandAt_router_linkLast (r vc : Nat) (v : IslandPort) : (s.setIslandAt r vc v).router.linkLast = s.router.linkLast := rfl
@[simp] theorem setIslandAt_router_localInLast (r vc : Nat) (v : IslandPort) : (s.setIslandAt r vc v).router.localInLast = s.router.localInLast := rfl
@[simp] theorem setIslandAt_router_localOutLast (r vc : Nat) (v : IslandPort) : (s.setIslandAt r vc v).router.localOutLast = s.router.localOutLast := rfl
@[simp] theorem setIslandAt_router_elemInLast (r vc : Nat) (v : IslandPort) : (s.setIslandAt r vc v).router.elemInLast = s.router.elemInLast := rfl
@[simp] theorem setIslandAt_router_elemOutLast (r vc : Nat) (v : IslandPort) : (s.setIslandAt r vc v).router.elemOutLast = s.router.elemOutLast := rfl
@[simp] theorem setIslandAt_router_routes (r vc : Nat) (v : IslandPort) : (s.setIslandAt r vc v).router.routes = s.router.routes := rfl
@[simp] theorem setIslandAt_router_ops (r vc : Nat) (v : IslandPort) : (s.setIslandAt r vc v).router.ops = s.router.ops := rfl
theorem setIslandAt_router_islands (r vc : Nat) (v : IslandPort) : (s.setIslandAt r vc v).router.islands = s.router.islands.put (4 * r + vc) v {} := rfl
/-- What `setIslandAt` wrote is read back. -/
@[simp] theorem islandAt_setIslandAt_same (r vc : Nat) (v : IslandPort) : (s.setIslandAt r vc v).islandAt r vc = v := Map.find_put_same ..
theorem islandAt_setIslandAt_other (r vc : Nat) (v : IslandPort) (r' vc' : Nat) (hne : 4 * r' + vc' ≠ 4 * r + vc) : (s.setIslandAt r vc v).islandAt r' vc' = s.islandAt r' vc' := Map.find_put_other _ hne ..

@[simp] theorem setInfo_unit (c : Nat) (v : CoreInfo) : (s.setInfo c v).unit = s.unit := rfl
@[simp] theorem setInfo_router (c : Nat) (v : CoreInfo) : (s.setInfo c v).router = s.router := rfl
@[simp] theorem setInfo_sync (c : Nat) (v : CoreInfo) : (s.setInfo c v).sync = s.sync := rfl
@[simp] theorem setInfo_cluster (c : Nat) (v : CoreInfo) : (s.setInfo c v).cluster = s.cluster := rfl
@[simp] theorem setInfo_mesh (c : Nat) (v : CoreInfo) : (s.setInfo c v).mesh = s.mesh := rfl
@[simp] theorem setInfo_mem (c : Nat) (v : CoreInfo) : (s.setInfo c v).mem = s.mem := rfl
@[simp] theorem setInfo_die (c : Nat) (v : CoreInfo) : (s.setInfo c v).die = s.die := rfl
@[simp] theorem setInfo_hub (c : Nat) (v : CoreInfo) : (s.setInfo c v).hub = s.hub := rfl
@[simp] theorem setInfo_sag (c : Nat) (v : CoreInfo) : (s.setInfo c v).sag = s.sag := rfl
@[simp] theorem setInfo_fab (c : Nat) (v : CoreInfo) : (s.setInfo c v).fab = s.fab := rfl
@[simp] theorem setInfo_agenda (c : Nat) (v : CoreInfo) : (s.setInfo c v).agenda = s.agenda := rfl
@[simp] theorem setInfo_free (c : Nat) (v : CoreInfo) : (s.setInfo c v).free = s.free := rfl
@[simp] theorem setInfo_now (c : Nat) (v : CoreInfo) : (s.setInfo c v).now = s.now := rfl
@[simp] theorem setInfo_cur (c : Nat) (v : CoreInfo) : (s.setInfo c v).cur = s.cur := rfl
@[simp] theorem setInfo_act (c : Nat) (v : CoreInfo) : (s.setInfo c v).act = s.act := rfl
@[simp] theorem setInfo_core_pool (c : Nat) (v : CoreInfo) : (s.setInfo c v).core.pool = s.core.pool := rfl
@[simp] theorem setInfo_core_poolFaults (c : Nat) (v : CoreInfo) : (s.setInfo c v).core.poolFaults = s.core.poolFaults := rfl
@[simp] theorem setInfo_core_tensors (c : Nat) (v : CoreInfo) : (s.setInfo c v).core.tensors = s.core.tensors := rfl
@[simp] theorem setInfo_core_nodes (c : Nat) (v : CoreInfo) : (s.setInfo c v).core.nodes = s.core.nodes := rfl
@[simp] theorem setInfo_core_agens (c : Nat) (v : CoreInfo) : (s.setInfo c v).core.agens = s.core.agens := rfl
@[simp] theorem setInfo_core_glazes (c : Nat) (v : CoreInfo) : (s.setInfo c v).core.glazes = s.core.glazes := rfl
@[simp] theorem setInfo_core_cursors (c : Nat) (v : CoreInfo) : (s.setInfo c v).core.cursors = s.core.cursors := rfl
@[simp] theorem setInfo_core_banks (c : Nat) (v : CoreInfo) : (s.setInfo c v).core.banks = s.core.banks := rfl
@[simp] theorem setInfo_core_bankLast (c : Nat) (v : CoreInfo) : (s.setInfo c v).core.bankLast = s.core.bankLast := rfl
theorem setInfo_core_info (c : Nat) (v : CoreInfo) : (s.setInfo c v).core.info = s.core.info.put (c) v {} := rfl
/-- What `setInfo` wrote is read back. -/
@[simp] theorem info_setInfo_same (c : Nat) (v : CoreInfo) : (s.setInfo c v).info c = v := Map.find_put_same ..
theorem info_setInfo_other (c : Nat) (v : CoreInfo) (c' : Nat) (hne : c' ≠ c) : (s.setInfo c v).info c' = s.info c' := Map.find_put_other _ hne ..

@[simp] theorem setPoolByte_unit (c a : Nat) (v : Byte) : (s.setPoolByte c a v).unit = s.unit := rfl
@[simp] theorem setPoolByte_router (c a : Nat) (v : Byte) : (s.setPoolByte c a v).router = s.router := rfl
@[simp] theorem setPoolByte_sync (c a : Nat) (v : Byte) : (s.setPoolByte c a v).sync = s.sync := rfl
@[simp] theorem setPoolByte_cluster (c a : Nat) (v : Byte) : (s.setPoolByte c a v).cluster = s.cluster := rfl
@[simp] theorem setPoolByte_mesh (c a : Nat) (v : Byte) : (s.setPoolByte c a v).mesh = s.mesh := rfl
@[simp] theorem setPoolByte_mem (c a : Nat) (v : Byte) : (s.setPoolByte c a v).mem = s.mem := rfl
@[simp] theorem setPoolByte_die (c a : Nat) (v : Byte) : (s.setPoolByte c a v).die = s.die := rfl
@[simp] theorem setPoolByte_hub (c a : Nat) (v : Byte) : (s.setPoolByte c a v).hub = s.hub := rfl
@[simp] theorem setPoolByte_sag (c a : Nat) (v : Byte) : (s.setPoolByte c a v).sag = s.sag := rfl
@[simp] theorem setPoolByte_fab (c a : Nat) (v : Byte) : (s.setPoolByte c a v).fab = s.fab := rfl
@[simp] theorem setPoolByte_agenda (c a : Nat) (v : Byte) : (s.setPoolByte c a v).agenda = s.agenda := rfl
@[simp] theorem setPoolByte_free (c a : Nat) (v : Byte) : (s.setPoolByte c a v).free = s.free := rfl
@[simp] theorem setPoolByte_now (c a : Nat) (v : Byte) : (s.setPoolByte c a v).now = s.now := rfl
@[simp] theorem setPoolByte_cur (c a : Nat) (v : Byte) : (s.setPoolByte c a v).cur = s.cur := rfl
@[simp] theorem setPoolByte_act (c a : Nat) (v : Byte) : (s.setPoolByte c a v).act = s.act := rfl
@[simp] theorem setPoolByte_core_info (c a : Nat) (v : Byte) : (s.setPoolByte c a v).core.info = s.core.info := rfl
@[simp] theorem setPoolByte_core_poolFaults (c a : Nat) (v : Byte) : (s.setPoolByte c a v).core.poolFaults = s.core.poolFaults := rfl
@[simp] theorem setPoolByte_core_tensors (c a : Nat) (v : Byte) : (s.setPoolByte c a v).core.tensors = s.core.tensors := rfl
@[simp] theorem setPoolByte_core_nodes (c a : Nat) (v : Byte) : (s.setPoolByte c a v).core.nodes = s.core.nodes := rfl
@[simp] theorem setPoolByte_core_agens (c a : Nat) (v : Byte) : (s.setPoolByte c a v).core.agens = s.core.agens := rfl
@[simp] theorem setPoolByte_core_glazes (c a : Nat) (v : Byte) : (s.setPoolByte c a v).core.glazes = s.core.glazes := rfl
@[simp] theorem setPoolByte_core_cursors (c a : Nat) (v : Byte) : (s.setPoolByte c a v).core.cursors = s.core.cursors := rfl
@[simp] theorem setPoolByte_core_banks (c a : Nat) (v : Byte) : (s.setPoolByte c a v).core.banks = s.core.banks := rfl
@[simp] theorem setPoolByte_core_bankLast (c a : Nat) (v : Byte) : (s.setPoolByte c a v).core.bankLast = s.core.bankLast := rfl
theorem setPoolByte_core_pool (c a : Nat) (v : Byte) : (s.setPoolByte c a v).core.pool = s.core.pool.put (2 ^ 19 * c + a) v 0 := rfl
/-- What `setPoolByte` wrote is read back. -/
@[simp] theorem poolByte_setPoolByte_same (c a : Nat) (v : Byte) : (s.setPoolByte c a v).poolByte c a = v := Map.find_put_same ..
theorem poolByte_setPoolByte_other (c a : Nat) (v : Byte) (c' a' : Nat) (hne : 2 ^ 19 * c' + a' ≠ 2 ^ 19 * c + a) : (s.setPoolByte c a v).poolByte c' a' = s.poolByte c' a' := Map.find_put_other _ hne ..

@[simp] theorem setPoolFault_unit (c w : Nat) (v : PoolFault) : (s.setPoolFault c w v).unit = s.unit := rfl
@[simp] theorem setPoolFault_router (c w : Nat) (v : PoolFault) : (s.setPoolFault c w v).router = s.router := rfl
@[simp] theorem setPoolFault_sync (c w : Nat) (v : PoolFault) : (s.setPoolFault c w v).sync = s.sync := rfl
@[simp] theorem setPoolFault_cluster (c w : Nat) (v : PoolFault) : (s.setPoolFault c w v).cluster = s.cluster := rfl
@[simp] theorem setPoolFault_mesh (c w : Nat) (v : PoolFault) : (s.setPoolFault c w v).mesh = s.mesh := rfl
@[simp] theorem setPoolFault_mem (c w : Nat) (v : PoolFault) : (s.setPoolFault c w v).mem = s.mem := rfl
@[simp] theorem setPoolFault_die (c w : Nat) (v : PoolFault) : (s.setPoolFault c w v).die = s.die := rfl
@[simp] theorem setPoolFault_hub (c w : Nat) (v : PoolFault) : (s.setPoolFault c w v).hub = s.hub := rfl
@[simp] theorem setPoolFault_sag (c w : Nat) (v : PoolFault) : (s.setPoolFault c w v).sag = s.sag := rfl
@[simp] theorem setPoolFault_fab (c w : Nat) (v : PoolFault) : (s.setPoolFault c w v).fab = s.fab := rfl
@[simp] theorem setPoolFault_agenda (c w : Nat) (v : PoolFault) : (s.setPoolFault c w v).agenda = s.agenda := rfl
@[simp] theorem setPoolFault_free (c w : Nat) (v : PoolFault) : (s.setPoolFault c w v).free = s.free := rfl
@[simp] theorem setPoolFault_now (c w : Nat) (v : PoolFault) : (s.setPoolFault c w v).now = s.now := rfl
@[simp] theorem setPoolFault_cur (c w : Nat) (v : PoolFault) : (s.setPoolFault c w v).cur = s.cur := rfl
@[simp] theorem setPoolFault_act (c w : Nat) (v : PoolFault) : (s.setPoolFault c w v).act = s.act := rfl
@[simp] theorem setPoolFault_core_info (c w : Nat) (v : PoolFault) : (s.setPoolFault c w v).core.info = s.core.info := rfl
@[simp] theorem setPoolFault_core_pool (c w : Nat) (v : PoolFault) : (s.setPoolFault c w v).core.pool = s.core.pool := rfl
@[simp] theorem setPoolFault_core_tensors (c w : Nat) (v : PoolFault) : (s.setPoolFault c w v).core.tensors = s.core.tensors := rfl
@[simp] theorem setPoolFault_core_nodes (c w : Nat) (v : PoolFault) : (s.setPoolFault c w v).core.nodes = s.core.nodes := rfl
@[simp] theorem setPoolFault_core_agens (c w : Nat) (v : PoolFault) : (s.setPoolFault c w v).core.agens = s.core.agens := rfl
@[simp] theorem setPoolFault_core_glazes (c w : Nat) (v : PoolFault) : (s.setPoolFault c w v).core.glazes = s.core.glazes := rfl
@[simp] theorem setPoolFault_core_cursors (c w : Nat) (v : PoolFault) : (s.setPoolFault c w v).core.cursors = s.core.cursors := rfl
@[simp] theorem setPoolFault_core_banks (c w : Nat) (v : PoolFault) : (s.setPoolFault c w v).core.banks = s.core.banks := rfl
@[simp] theorem setPoolFault_core_bankLast (c w : Nat) (v : PoolFault) : (s.setPoolFault c w v).core.bankLast = s.core.bankLast := rfl
theorem setPoolFault_core_poolFaults (c w : Nat) (v : PoolFault) : (s.setPoolFault c w v).core.poolFaults = s.core.poolFaults.put (2 ^ 16 * c + w) v .good := rfl
/-- What `setPoolFault` wrote is read back. -/
@[simp] theorem poolFault_setPoolFault_same (c w : Nat) (v : PoolFault) : (s.setPoolFault c w v).poolFault c w = v := Map.find_put_same ..
theorem poolFault_setPoolFault_other (c w : Nat) (v : PoolFault) (c' w' : Nat) (hne : 2 ^ 16 * c' + w' ≠ 2 ^ 16 * c + w) : (s.setPoolFault c w v).poolFault c' w' = s.poolFault c' w' := Map.find_put_other _ hne ..

@[simp] theorem setTensor_unit (c k : Nat) (v : PoolTensor) : (s.setTensor c k v).unit = s.unit := rfl
@[simp] theorem setTensor_router (c k : Nat) (v : PoolTensor) : (s.setTensor c k v).router = s.router := rfl
@[simp] theorem setTensor_sync (c k : Nat) (v : PoolTensor) : (s.setTensor c k v).sync = s.sync := rfl
@[simp] theorem setTensor_cluster (c k : Nat) (v : PoolTensor) : (s.setTensor c k v).cluster = s.cluster := rfl
@[simp] theorem setTensor_mesh (c k : Nat) (v : PoolTensor) : (s.setTensor c k v).mesh = s.mesh := rfl
@[simp] theorem setTensor_mem (c k : Nat) (v : PoolTensor) : (s.setTensor c k v).mem = s.mem := rfl
@[simp] theorem setTensor_die (c k : Nat) (v : PoolTensor) : (s.setTensor c k v).die = s.die := rfl
@[simp] theorem setTensor_hub (c k : Nat) (v : PoolTensor) : (s.setTensor c k v).hub = s.hub := rfl
@[simp] theorem setTensor_sag (c k : Nat) (v : PoolTensor) : (s.setTensor c k v).sag = s.sag := rfl
@[simp] theorem setTensor_fab (c k : Nat) (v : PoolTensor) : (s.setTensor c k v).fab = s.fab := rfl
@[simp] theorem setTensor_agenda (c k : Nat) (v : PoolTensor) : (s.setTensor c k v).agenda = s.agenda := rfl
@[simp] theorem setTensor_free (c k : Nat) (v : PoolTensor) : (s.setTensor c k v).free = s.free := rfl
@[simp] theorem setTensor_now (c k : Nat) (v : PoolTensor) : (s.setTensor c k v).now = s.now := rfl
@[simp] theorem setTensor_cur (c k : Nat) (v : PoolTensor) : (s.setTensor c k v).cur = s.cur := rfl
@[simp] theorem setTensor_act (c k : Nat) (v : PoolTensor) : (s.setTensor c k v).act = s.act := rfl
@[simp] theorem setTensor_core_info (c k : Nat) (v : PoolTensor) : (s.setTensor c k v).core.info = s.core.info := rfl
@[simp] theorem setTensor_core_pool (c k : Nat) (v : PoolTensor) : (s.setTensor c k v).core.pool = s.core.pool := rfl
@[simp] theorem setTensor_core_poolFaults (c k : Nat) (v : PoolTensor) : (s.setTensor c k v).core.poolFaults = s.core.poolFaults := rfl
@[simp] theorem setTensor_core_nodes (c k : Nat) (v : PoolTensor) : (s.setTensor c k v).core.nodes = s.core.nodes := rfl
@[simp] theorem setTensor_core_agens (c k : Nat) (v : PoolTensor) : (s.setTensor c k v).core.agens = s.core.agens := rfl
@[simp] theorem setTensor_core_glazes (c k : Nat) (v : PoolTensor) : (s.setTensor c k v).core.glazes = s.core.glazes := rfl
@[simp] theorem setTensor_core_cursors (c k : Nat) (v : PoolTensor) : (s.setTensor c k v).core.cursors = s.core.cursors := rfl
@[simp] theorem setTensor_core_banks (c k : Nat) (v : PoolTensor) : (s.setTensor c k v).core.banks = s.core.banks := rfl
@[simp] theorem setTensor_core_bankLast (c k : Nat) (v : PoolTensor) : (s.setTensor c k v).core.bankLast = s.core.bankLast := rfl
theorem setTensor_core_tensors (c k : Nat) (v : PoolTensor) : (s.setTensor c k v).core.tensors = s.core.tensors.put (4096 * c + k) v {} := rfl
/-- What `setTensor` wrote is read back. -/
@[simp] theorem tensor_setTensor_same (c k : Nat) (v : PoolTensor) : (s.setTensor c k v).tensor c k = v := Map.find_put_same ..
theorem tensor_setTensor_other (c k : Nat) (v : PoolTensor) (c' k' : Nat) (hne : 4096 * c' + k' ≠ 4096 * c + k) : (s.setTensor c k v).tensor c' k' = s.tensor c' k' := Map.find_put_other _ hne ..

@[simp] theorem setNode_unit (n : Nat) (v : Node) : (s.setNode n v).unit = s.unit := rfl
@[simp] theorem setNode_router (n : Nat) (v : Node) : (s.setNode n v).router = s.router := rfl
@[simp] theorem setNode_sync (n : Nat) (v : Node) : (s.setNode n v).sync = s.sync := rfl
@[simp] theorem setNode_cluster (n : Nat) (v : Node) : (s.setNode n v).cluster = s.cluster := rfl
@[simp] theorem setNode_mesh (n : Nat) (v : Node) : (s.setNode n v).mesh = s.mesh := rfl
@[simp] theorem setNode_mem (n : Nat) (v : Node) : (s.setNode n v).mem = s.mem := rfl
@[simp] theorem setNode_die (n : Nat) (v : Node) : (s.setNode n v).die = s.die := rfl
@[simp] theorem setNode_hub (n : Nat) (v : Node) : (s.setNode n v).hub = s.hub := rfl
@[simp] theorem setNode_sag (n : Nat) (v : Node) : (s.setNode n v).sag = s.sag := rfl
@[simp] theorem setNode_fab (n : Nat) (v : Node) : (s.setNode n v).fab = s.fab := rfl
@[simp] theorem setNode_agenda (n : Nat) (v : Node) : (s.setNode n v).agenda = s.agenda := rfl
@[simp] theorem setNode_free (n : Nat) (v : Node) : (s.setNode n v).free = s.free := rfl
@[simp] theorem setNode_now (n : Nat) (v : Node) : (s.setNode n v).now = s.now := rfl
@[simp] theorem setNode_cur (n : Nat) (v : Node) : (s.setNode n v).cur = s.cur := rfl
@[simp] theorem setNode_act (n : Nat) (v : Node) : (s.setNode n v).act = s.act := rfl
@[simp] theorem setNode_core_info (n : Nat) (v : Node) : (s.setNode n v).core.info = s.core.info := rfl
@[simp] theorem setNode_core_pool (n : Nat) (v : Node) : (s.setNode n v).core.pool = s.core.pool := rfl
@[simp] theorem setNode_core_poolFaults (n : Nat) (v : Node) : (s.setNode n v).core.poolFaults = s.core.poolFaults := rfl
@[simp] theorem setNode_core_tensors (n : Nat) (v : Node) : (s.setNode n v).core.tensors = s.core.tensors := rfl
@[simp] theorem setNode_core_agens (n : Nat) (v : Node) : (s.setNode n v).core.agens = s.core.agens := rfl
@[simp] theorem setNode_core_glazes (n : Nat) (v : Node) : (s.setNode n v).core.glazes = s.core.glazes := rfl
@[simp] theorem setNode_core_cursors (n : Nat) (v : Node) : (s.setNode n v).core.cursors = s.core.cursors := rfl
@[simp] theorem setNode_core_banks (n : Nat) (v : Node) : (s.setNode n v).core.banks = s.core.banks := rfl
@[simp] theorem setNode_core_bankLast (n : Nat) (v : Node) : (s.setNode n v).core.bankLast = s.core.bankLast := rfl
theorem setNode_core_nodes (n : Nat) (v : Node) : (s.setNode n v).core.nodes = s.core.nodes.put (n) v {} := rfl
/-- What `setNode` wrote is read back. -/
@[simp] theorem node_setNode_same (n : Nat) (v : Node) : (s.setNode n v).node n = v := Map.find_put_same ..
theorem node_setNode_other (n : Nat) (v : Node) (n' : Nat) (hne : n' ≠ n) : (s.setNode n v).node n' = s.node n' := Map.find_put_other _ hne ..

@[simp] theorem setAgen_unit (n : Nat) (v : Agen) : (s.setAgen n v).unit = s.unit := rfl
@[simp] theorem setAgen_router (n : Nat) (v : Agen) : (s.setAgen n v).router = s.router := rfl
@[simp] theorem setAgen_sync (n : Nat) (v : Agen) : (s.setAgen n v).sync = s.sync := rfl
@[simp] theorem setAgen_cluster (n : Nat) (v : Agen) : (s.setAgen n v).cluster = s.cluster := rfl
@[simp] theorem setAgen_mesh (n : Nat) (v : Agen) : (s.setAgen n v).mesh = s.mesh := rfl
@[simp] theorem setAgen_mem (n : Nat) (v : Agen) : (s.setAgen n v).mem = s.mem := rfl
@[simp] theorem setAgen_die (n : Nat) (v : Agen) : (s.setAgen n v).die = s.die := rfl
@[simp] theorem setAgen_hub (n : Nat) (v : Agen) : (s.setAgen n v).hub = s.hub := rfl
@[simp] theorem setAgen_sag (n : Nat) (v : Agen) : (s.setAgen n v).sag = s.sag := rfl
@[simp] theorem setAgen_fab (n : Nat) (v : Agen) : (s.setAgen n v).fab = s.fab := rfl
@[simp] theorem setAgen_agenda (n : Nat) (v : Agen) : (s.setAgen n v).agenda = s.agenda := rfl
@[simp] theorem setAgen_free (n : Nat) (v : Agen) : (s.setAgen n v).free = s.free := rfl
@[simp] theorem setAgen_now (n : Nat) (v : Agen) : (s.setAgen n v).now = s.now := rfl
@[simp] theorem setAgen_cur (n : Nat) (v : Agen) : (s.setAgen n v).cur = s.cur := rfl
@[simp] theorem setAgen_act (n : Nat) (v : Agen) : (s.setAgen n v).act = s.act := rfl
@[simp] theorem setAgen_core_info (n : Nat) (v : Agen) : (s.setAgen n v).core.info = s.core.info := rfl
@[simp] theorem setAgen_core_pool (n : Nat) (v : Agen) : (s.setAgen n v).core.pool = s.core.pool := rfl
@[simp] theorem setAgen_core_poolFaults (n : Nat) (v : Agen) : (s.setAgen n v).core.poolFaults = s.core.poolFaults := rfl
@[simp] theorem setAgen_core_tensors (n : Nat) (v : Agen) : (s.setAgen n v).core.tensors = s.core.tensors := rfl
@[simp] theorem setAgen_core_nodes (n : Nat) (v : Agen) : (s.setAgen n v).core.nodes = s.core.nodes := rfl
@[simp] theorem setAgen_core_glazes (n : Nat) (v : Agen) : (s.setAgen n v).core.glazes = s.core.glazes := rfl
@[simp] theorem setAgen_core_cursors (n : Nat) (v : Agen) : (s.setAgen n v).core.cursors = s.core.cursors := rfl
@[simp] theorem setAgen_core_banks (n : Nat) (v : Agen) : (s.setAgen n v).core.banks = s.core.banks := rfl
@[simp] theorem setAgen_core_bankLast (n : Nat) (v : Agen) : (s.setAgen n v).core.bankLast = s.core.bankLast := rfl
theorem setAgen_core_agens (n : Nat) (v : Agen) : (s.setAgen n v).core.agens = s.core.agens.put (n) v {} := rfl
/-- What `setAgen` wrote is read back. -/
@[simp] theorem agen_setAgen_same (n : Nat) (v : Agen) : (s.setAgen n v).agen n = v := Map.find_put_same ..
theorem agen_setAgen_other (n : Nat) (v : Agen) (n' : Nat) (hne : n' ≠ n) : (s.setAgen n v).agen n' = s.agen n' := Map.find_put_other _ hne ..

@[simp] theorem setGlaze_unit (c : Nat) (v : Glaze) : (s.setGlaze c v).unit = s.unit := rfl
@[simp] theorem setGlaze_router (c : Nat) (v : Glaze) : (s.setGlaze c v).router = s.router := rfl
@[simp] theorem setGlaze_sync (c : Nat) (v : Glaze) : (s.setGlaze c v).sync = s.sync := rfl
@[simp] theorem setGlaze_cluster (c : Nat) (v : Glaze) : (s.setGlaze c v).cluster = s.cluster := rfl
@[simp] theorem setGlaze_mesh (c : Nat) (v : Glaze) : (s.setGlaze c v).mesh = s.mesh := rfl
@[simp] theorem setGlaze_mem (c : Nat) (v : Glaze) : (s.setGlaze c v).mem = s.mem := rfl
@[simp] theorem setGlaze_die (c : Nat) (v : Glaze) : (s.setGlaze c v).die = s.die := rfl
@[simp] theorem setGlaze_hub (c : Nat) (v : Glaze) : (s.setGlaze c v).hub = s.hub := rfl
@[simp] theorem setGlaze_sag (c : Nat) (v : Glaze) : (s.setGlaze c v).sag = s.sag := rfl
@[simp] theorem setGlaze_fab (c : Nat) (v : Glaze) : (s.setGlaze c v).fab = s.fab := rfl
@[simp] theorem setGlaze_agenda (c : Nat) (v : Glaze) : (s.setGlaze c v).agenda = s.agenda := rfl
@[simp] theorem setGlaze_free (c : Nat) (v : Glaze) : (s.setGlaze c v).free = s.free := rfl
@[simp] theorem setGlaze_now (c : Nat) (v : Glaze) : (s.setGlaze c v).now = s.now := rfl
@[simp] theorem setGlaze_cur (c : Nat) (v : Glaze) : (s.setGlaze c v).cur = s.cur := rfl
@[simp] theorem setGlaze_act (c : Nat) (v : Glaze) : (s.setGlaze c v).act = s.act := rfl
@[simp] theorem setGlaze_core_info (c : Nat) (v : Glaze) : (s.setGlaze c v).core.info = s.core.info := rfl
@[simp] theorem setGlaze_core_pool (c : Nat) (v : Glaze) : (s.setGlaze c v).core.pool = s.core.pool := rfl
@[simp] theorem setGlaze_core_poolFaults (c : Nat) (v : Glaze) : (s.setGlaze c v).core.poolFaults = s.core.poolFaults := rfl
@[simp] theorem setGlaze_core_tensors (c : Nat) (v : Glaze) : (s.setGlaze c v).core.tensors = s.core.tensors := rfl
@[simp] theorem setGlaze_core_nodes (c : Nat) (v : Glaze) : (s.setGlaze c v).core.nodes = s.core.nodes := rfl
@[simp] theorem setGlaze_core_agens (c : Nat) (v : Glaze) : (s.setGlaze c v).core.agens = s.core.agens := rfl
@[simp] theorem setGlaze_core_cursors (c : Nat) (v : Glaze) : (s.setGlaze c v).core.cursors = s.core.cursors := rfl
@[simp] theorem setGlaze_core_banks (c : Nat) (v : Glaze) : (s.setGlaze c v).core.banks = s.core.banks := rfl
@[simp] theorem setGlaze_core_bankLast (c : Nat) (v : Glaze) : (s.setGlaze c v).core.bankLast = s.core.bankLast := rfl
theorem setGlaze_core_glazes (c : Nat) (v : Glaze) : (s.setGlaze c v).core.glazes = s.core.glazes.put (c) v {} := rfl
/-- What `setGlaze` wrote is read back. -/
@[simp] theorem glaze_setGlaze_same (c : Nat) (v : Glaze) : (s.setGlaze c v).glaze c = v := Map.find_put_same ..
theorem glaze_setGlaze_other (c : Nat) (v : Glaze) (c' : Nat) (hne : c' ≠ c) : (s.setGlaze c v).glaze c' = s.glaze c' := Map.find_put_other _ hne ..

@[simp] theorem setCursor_unit (c k : Nat) (v : Cursor) : (s.setCursor c k v).unit = s.unit := rfl
@[simp] theorem setCursor_router (c k : Nat) (v : Cursor) : (s.setCursor c k v).router = s.router := rfl
@[simp] theorem setCursor_sync (c k : Nat) (v : Cursor) : (s.setCursor c k v).sync = s.sync := rfl
@[simp] theorem setCursor_cluster (c k : Nat) (v : Cursor) : (s.setCursor c k v).cluster = s.cluster := rfl
@[simp] theorem setCursor_mesh (c k : Nat) (v : Cursor) : (s.setCursor c k v).mesh = s.mesh := rfl
@[simp] theorem setCursor_mem (c k : Nat) (v : Cursor) : (s.setCursor c k v).mem = s.mem := rfl
@[simp] theorem setCursor_die (c k : Nat) (v : Cursor) : (s.setCursor c k v).die = s.die := rfl
@[simp] theorem setCursor_hub (c k : Nat) (v : Cursor) : (s.setCursor c k v).hub = s.hub := rfl
@[simp] theorem setCursor_sag (c k : Nat) (v : Cursor) : (s.setCursor c k v).sag = s.sag := rfl
@[simp] theorem setCursor_fab (c k : Nat) (v : Cursor) : (s.setCursor c k v).fab = s.fab := rfl
@[simp] theorem setCursor_agenda (c k : Nat) (v : Cursor) : (s.setCursor c k v).agenda = s.agenda := rfl
@[simp] theorem setCursor_free (c k : Nat) (v : Cursor) : (s.setCursor c k v).free = s.free := rfl
@[simp] theorem setCursor_now (c k : Nat) (v : Cursor) : (s.setCursor c k v).now = s.now := rfl
@[simp] theorem setCursor_cur (c k : Nat) (v : Cursor) : (s.setCursor c k v).cur = s.cur := rfl
@[simp] theorem setCursor_act (c k : Nat) (v : Cursor) : (s.setCursor c k v).act = s.act := rfl
@[simp] theorem setCursor_core_info (c k : Nat) (v : Cursor) : (s.setCursor c k v).core.info = s.core.info := rfl
@[simp] theorem setCursor_core_pool (c k : Nat) (v : Cursor) : (s.setCursor c k v).core.pool = s.core.pool := rfl
@[simp] theorem setCursor_core_poolFaults (c k : Nat) (v : Cursor) : (s.setCursor c k v).core.poolFaults = s.core.poolFaults := rfl
@[simp] theorem setCursor_core_tensors (c k : Nat) (v : Cursor) : (s.setCursor c k v).core.tensors = s.core.tensors := rfl
@[simp] theorem setCursor_core_nodes (c k : Nat) (v : Cursor) : (s.setCursor c k v).core.nodes = s.core.nodes := rfl
@[simp] theorem setCursor_core_agens (c k : Nat) (v : Cursor) : (s.setCursor c k v).core.agens = s.core.agens := rfl
@[simp] theorem setCursor_core_glazes (c k : Nat) (v : Cursor) : (s.setCursor c k v).core.glazes = s.core.glazes := rfl
@[simp] theorem setCursor_core_banks (c k : Nat) (v : Cursor) : (s.setCursor c k v).core.banks = s.core.banks := rfl
@[simp] theorem setCursor_core_bankLast (c k : Nat) (v : Cursor) : (s.setCursor c k v).core.bankLast = s.core.bankLast := rfl
theorem setCursor_core_cursors (c k : Nat) (v : Cursor) : (s.setCursor c k v).core.cursors = s.core.cursors.put (4 * c + k) v {} := rfl
/-- What `setCursor` wrote is read back. -/
@[simp] theorem cursor_setCursor_same (c k : Nat) (v : Cursor) : (s.setCursor c k v).cursor c k = v := Map.find_put_same ..
theorem cursor_setCursor_other (c k : Nat) (v : Cursor) (c' k' : Nat) (hne : 4 * c' + k' ≠ 4 * c + k) : (s.setCursor c k v).cursor c' k' = s.cursor c' k' := Map.find_put_other _ hne ..

@[simp] theorem setBankDetector_unit (b : Nat) (v : Detector) : (s.setBankDetector b v).unit = s.unit := rfl
@[simp] theorem setBankDetector_router (b : Nat) (v : Detector) : (s.setBankDetector b v).router = s.router := rfl
@[simp] theorem setBankDetector_sync (b : Nat) (v : Detector) : (s.setBankDetector b v).sync = s.sync := rfl
@[simp] theorem setBankDetector_cluster (b : Nat) (v : Detector) : (s.setBankDetector b v).cluster = s.cluster := rfl
@[simp] theorem setBankDetector_mesh (b : Nat) (v : Detector) : (s.setBankDetector b v).mesh = s.mesh := rfl
@[simp] theorem setBankDetector_mem (b : Nat) (v : Detector) : (s.setBankDetector b v).mem = s.mem := rfl
@[simp] theorem setBankDetector_die (b : Nat) (v : Detector) : (s.setBankDetector b v).die = s.die := rfl
@[simp] theorem setBankDetector_hub (b : Nat) (v : Detector) : (s.setBankDetector b v).hub = s.hub := rfl
@[simp] theorem setBankDetector_sag (b : Nat) (v : Detector) : (s.setBankDetector b v).sag = s.sag := rfl
@[simp] theorem setBankDetector_fab (b : Nat) (v : Detector) : (s.setBankDetector b v).fab = s.fab := rfl
@[simp] theorem setBankDetector_agenda (b : Nat) (v : Detector) : (s.setBankDetector b v).agenda = s.agenda := rfl
@[simp] theorem setBankDetector_free (b : Nat) (v : Detector) : (s.setBankDetector b v).free = s.free := rfl
@[simp] theorem setBankDetector_now (b : Nat) (v : Detector) : (s.setBankDetector b v).now = s.now := rfl
@[simp] theorem setBankDetector_cur (b : Nat) (v : Detector) : (s.setBankDetector b v).cur = s.cur := rfl
@[simp] theorem setBankDetector_act (b : Nat) (v : Detector) : (s.setBankDetector b v).act = s.act := rfl
@[simp] theorem setBankDetector_core_info (b : Nat) (v : Detector) : (s.setBankDetector b v).core.info = s.core.info := rfl
@[simp] theorem setBankDetector_core_pool (b : Nat) (v : Detector) : (s.setBankDetector b v).core.pool = s.core.pool := rfl
@[simp] theorem setBankDetector_core_poolFaults (b : Nat) (v : Detector) : (s.setBankDetector b v).core.poolFaults = s.core.poolFaults := rfl
@[simp] theorem setBankDetector_core_tensors (b : Nat) (v : Detector) : (s.setBankDetector b v).core.tensors = s.core.tensors := rfl
@[simp] theorem setBankDetector_core_nodes (b : Nat) (v : Detector) : (s.setBankDetector b v).core.nodes = s.core.nodes := rfl
@[simp] theorem setBankDetector_core_agens (b : Nat) (v : Detector) : (s.setBankDetector b v).core.agens = s.core.agens := rfl
@[simp] theorem setBankDetector_core_glazes (b : Nat) (v : Detector) : (s.setBankDetector b v).core.glazes = s.core.glazes := rfl
@[simp] theorem setBankDetector_core_cursors (b : Nat) (v : Detector) : (s.setBankDetector b v).core.cursors = s.core.cursors := rfl
@[simp] theorem setBankDetector_core_bankLast (b : Nat) (v : Detector) : (s.setBankDetector b v).core.bankLast = s.core.bankLast := rfl
theorem setBankDetector_core_banks (b : Nat) (v : Detector) : (s.setBankDetector b v).core.banks = s.core.banks.put (b) v {} := rfl
/-- What `setBankDetector` wrote is read back. -/
@[simp] theorem bankDetector_setBankDetector_same (b : Nat) (v : Detector) : (s.setBankDetector b v).bankDetector b = v := Map.find_put_same ..
theorem bankDetector_setBankDetector_other (b : Nat) (v : Detector) (b' : Nat) (hne : b' ≠ b) : (s.setBankDetector b v).bankDetector b' = s.bankDetector b' := Map.find_put_other _ hne ..

@[simp] theorem setBankLast_unit (c b : Nat) (v : Nat) : (s.setBankLast c b v).unit = s.unit := rfl
@[simp] theorem setBankLast_router (c b : Nat) (v : Nat) : (s.setBankLast c b v).router = s.router := rfl
@[simp] theorem setBankLast_sync (c b : Nat) (v : Nat) : (s.setBankLast c b v).sync = s.sync := rfl
@[simp] theorem setBankLast_cluster (c b : Nat) (v : Nat) : (s.setBankLast c b v).cluster = s.cluster := rfl
@[simp] theorem setBankLast_mesh (c b : Nat) (v : Nat) : (s.setBankLast c b v).mesh = s.mesh := rfl
@[simp] theorem setBankLast_mem (c b : Nat) (v : Nat) : (s.setBankLast c b v).mem = s.mem := rfl
@[simp] theorem setBankLast_die (c b : Nat) (v : Nat) : (s.setBankLast c b v).die = s.die := rfl
@[simp] theorem setBankLast_hub (c b : Nat) (v : Nat) : (s.setBankLast c b v).hub = s.hub := rfl
@[simp] theorem setBankLast_sag (c b : Nat) (v : Nat) : (s.setBankLast c b v).sag = s.sag := rfl
@[simp] theorem setBankLast_fab (c b : Nat) (v : Nat) : (s.setBankLast c b v).fab = s.fab := rfl
@[simp] theorem setBankLast_agenda (c b : Nat) (v : Nat) : (s.setBankLast c b v).agenda = s.agenda := rfl
@[simp] theorem setBankLast_free (c b : Nat) (v : Nat) : (s.setBankLast c b v).free = s.free := rfl
@[simp] theorem setBankLast_now (c b : Nat) (v : Nat) : (s.setBankLast c b v).now = s.now := rfl
@[simp] theorem setBankLast_cur (c b : Nat) (v : Nat) : (s.setBankLast c b v).cur = s.cur := rfl
@[simp] theorem setBankLast_act (c b : Nat) (v : Nat) : (s.setBankLast c b v).act = s.act := rfl
@[simp] theorem setBankLast_core_info (c b : Nat) (v : Nat) : (s.setBankLast c b v).core.info = s.core.info := rfl
@[simp] theorem setBankLast_core_pool (c b : Nat) (v : Nat) : (s.setBankLast c b v).core.pool = s.core.pool := rfl
@[simp] theorem setBankLast_core_poolFaults (c b : Nat) (v : Nat) : (s.setBankLast c b v).core.poolFaults = s.core.poolFaults := rfl
@[simp] theorem setBankLast_core_tensors (c b : Nat) (v : Nat) : (s.setBankLast c b v).core.tensors = s.core.tensors := rfl
@[simp] theorem setBankLast_core_nodes (c b : Nat) (v : Nat) : (s.setBankLast c b v).core.nodes = s.core.nodes := rfl
@[simp] theorem setBankLast_core_agens (c b : Nat) (v : Nat) : (s.setBankLast c b v).core.agens = s.core.agens := rfl
@[simp] theorem setBankLast_core_glazes (c b : Nat) (v : Nat) : (s.setBankLast c b v).core.glazes = s.core.glazes := rfl
@[simp] theorem setBankLast_core_cursors (c b : Nat) (v : Nat) : (s.setBankLast c b v).core.cursors = s.core.cursors := rfl
@[simp] theorem setBankLast_core_banks (c b : Nat) (v : Nat) : (s.setBankLast c b v).core.banks = s.core.banks := rfl
theorem setBankLast_core_bankLast (c b : Nat) (v : Nat) : (s.setBankLast c b v).core.bankLast = s.core.bankLast.put (32 * c + b) v 7 := rfl
/-- What `setBankLast` wrote is read back. -/
@[simp] theorem bankLast_setBankLast_same (c b : Nat) (v : Nat) : (s.setBankLast c b v).bankLast c b = v := Map.find_put_same ..
theorem bankLast_setBankLast_other (c b : Nat) (v : Nat) (c' b' : Nat) (hne : 32 * c' + b' ≠ 32 * c + b) : (s.setBankLast c b v).bankLast c' b' = s.bankLast c' b' := Map.find_put_other _ hne ..

@[simp] theorem setBarrier_unit (k : Nat) (v : Barrier) : (s.setBarrier k v).unit = s.unit := rfl
@[simp] theorem setBarrier_router (k : Nat) (v : Barrier) : (s.setBarrier k v).router = s.router := rfl
@[simp] theorem setBarrier_core (k : Nat) (v : Barrier) : (s.setBarrier k v).core = s.core := rfl
@[simp] theorem setBarrier_cluster (k : Nat) (v : Barrier) : (s.setBarrier k v).cluster = s.cluster := rfl
@[simp] theorem setBarrier_mesh (k : Nat) (v : Barrier) : (s.setBarrier k v).mesh = s.mesh := rfl
@[simp] theorem setBarrier_mem (k : Nat) (v : Barrier) : (s.setBarrier k v).mem = s.mem := rfl
@[simp] theorem setBarrier_die (k : Nat) (v : Barrier) : (s.setBarrier k v).die = s.die := rfl
@[simp] theorem setBarrier_hub (k : Nat) (v : Barrier) : (s.setBarrier k v).hub = s.hub := rfl
@[simp] theorem setBarrier_sag (k : Nat) (v : Barrier) : (s.setBarrier k v).sag = s.sag := rfl
@[simp] theorem setBarrier_fab (k : Nat) (v : Barrier) : (s.setBarrier k v).fab = s.fab := rfl
@[simp] theorem setBarrier_agenda (k : Nat) (v : Barrier) : (s.setBarrier k v).agenda = s.agenda := rfl
@[simp] theorem setBarrier_free (k : Nat) (v : Barrier) : (s.setBarrier k v).free = s.free := rfl
@[simp] theorem setBarrier_now (k : Nat) (v : Barrier) : (s.setBarrier k v).now = s.now := rfl
@[simp] theorem setBarrier_cur (k : Nat) (v : Barrier) : (s.setBarrier k v).cur = s.cur := rfl
@[simp] theorem setBarrier_act (k : Nat) (v : Barrier) : (s.setBarrier k v).act = s.act := rfl
@[simp] theorem setBarrier_sync_flying (k : Nat) (v : Barrier) : (s.setBarrier k v).sync.flying = s.sync.flying := rfl
@[simp] theorem setBarrier_sync_turns (k : Nat) (v : Barrier) : (s.setBarrier k v).sync.turns = s.sync.turns := rfl
theorem setBarrier_sync_counters (k : Nat) (v : Barrier) : (s.setBarrier k v).sync.counters = s.sync.counters.put (k) v {} := rfl
/-- What `setBarrier` wrote is read back. -/
@[simp] theorem barrier_setBarrier_same (k : Nat) (v : Barrier) : (s.setBarrier k v).barrier k = v := Map.find_put_same ..
theorem barrier_setBarrier_other (k : Nat) (v : Barrier) (k' : Nat) (hne : k' ≠ k) : (s.setBarrier k v).barrier k' = s.barrier k' := Map.find_put_other _ hne ..

@[simp] theorem setCometPort_unit (cm p : Nat) (v : CometPort) : (s.setCometPort cm p v).unit = s.unit := rfl
@[simp] theorem setCometPort_router (cm p : Nat) (v : CometPort) : (s.setCometPort cm p v).router = s.router := rfl
@[simp] theorem setCometPort_core (cm p : Nat) (v : CometPort) : (s.setCometPort cm p v).core = s.core := rfl
@[simp] theorem setCometPort_sync (cm p : Nat) (v : CometPort) : (s.setCometPort cm p v).sync = s.sync := rfl
@[simp] theorem setCometPort_mesh (cm p : Nat) (v : CometPort) : (s.setCometPort cm p v).mesh = s.mesh := rfl
@[simp] theorem setCometPort_mem (cm p : Nat) (v : CometPort) : (s.setCometPort cm p v).mem = s.mem := rfl
@[simp] theorem setCometPort_die (cm p : Nat) (v : CometPort) : (s.setCometPort cm p v).die = s.die := rfl
@[simp] theorem setCometPort_hub (cm p : Nat) (v : CometPort) : (s.setCometPort cm p v).hub = s.hub := rfl
@[simp] theorem setCometPort_sag (cm p : Nat) (v : CometPort) : (s.setCometPort cm p v).sag = s.sag := rfl
@[simp] theorem setCometPort_fab (cm p : Nat) (v : CometPort) : (s.setCometPort cm p v).fab = s.fab := rfl
@[simp] theorem setCometPort_agenda (cm p : Nat) (v : CometPort) : (s.setCometPort cm p v).agenda = s.agenda := rfl
@[simp] theorem setCometPort_free (cm p : Nat) (v : CometPort) : (s.setCometPort cm p v).free = s.free := rfl
@[simp] theorem setCometPort_now (cm p : Nat) (v : CometPort) : (s.setCometPort cm p v).now = s.now := rfl
@[simp] theorem setCometPort_cur (cm p : Nat) (v : CometPort) : (s.setCometPort cm p v).cur = s.cur := rfl
@[simp] theorem setCometPort_act (cm p : Nat) (v : CometPort) : (s.setCometPort cm p v).act = s.act := rfl
@[simp] theorem setCometPort_cluster_streams (cm p : Nat) (v : CometPort) : (s.setCometPort cm p v).cluster.streams = s.cluster.streams := rfl
@[simp] theorem setCometPort_cluster_cmds (cm p : Nat) (v : CometPort) : (s.setCometPort cm p v).cluster.cmds = s.cluster.cmds := rfl
@[simp] theorem setCometPort_cluster_accepted (cm p : Nat) (v : CometPort) : (s.setCometPort cm p v).cluster.accepted = s.cluster.accepted := rfl
@[simp] theorem setCometPort_cluster_ccs (cm p : Nat) (v : CometPort) : (s.setCometPort cm p v).cluster.ccs = s.cluster.ccs := rfl
@[simp] theorem setCometPort_cluster_xlat (cm p : Nat) (v : CometPort) : (s.setCometPort cm p v).cluster.xlat = s.cluster.xlat := rfl
@[simp] theorem setCometPort_cluster_tiles (cm p : Nat) (v : CometPort) : (s.setCometPort cm p v).cluster.tiles = s.cluster.tiles := rfl
@[simp] theorem setCometPort_cluster_stage (cm p : Nat) (v : CometPort) : (s.setCometPort cm p v).cluster.stage = s.cluster.stage := rfl
@[simp] theorem setCometPort_cluster_slots (cm p : Nat) (v : CometPort) : (s.setCometPort cm p v).cluster.slots = s.cluster.slots := rfl
@[simp] theorem setCometPort_cluster_opmem (cm p : Nat) (v : CometPort) : (s.setCometPort cm p v).cluster.opmem = s.cluster.opmem := rfl
@[simp] theorem setCometPort_cluster_opBad (cm p : Nat) (v : CometPort) : (s.setCometPort cm p v).cluster.opBad = s.cluster.opBad := rfl
@[simp] theorem setCometPort_cluster_kctrs (cm p : Nat) (v : CometPort) : (s.setCometPort cm p v).cluster.kctrs = s.cluster.kctrs := rfl
@[simp] theorem setCometPort_cluster_krecs (cm p : Nat) (v : CometPort) : (s.setCometPort cm p v).cluster.krecs = s.cluster.krecs := rfl
@[simp] theorem setCometPort_cluster_kilns (cm p : Nat) (v : CometPort) : (s.setCometPort cm p v).cluster.kilns = s.cluster.kilns := rfl
@[simp] theorem setCometPort_cluster_kports (cm p : Nat) (v : CometPort) : (s.setCometPort cm p v).cluster.kports = s.cluster.kports := rfl
@[simp] theorem setCometPort_cluster_kstats (cm p : Nat) (v : CometPort) : (s.setCometPort cm p v).cluster.kstats = s.cluster.kstats := rfl
@[simp] theorem setCometPort_cluster_limits (cm p : Nat) (v : CometPort) : (s.setCometPort cm p v).cluster.limits = s.cluster.limits := rfl
@[simp] theorem setCometPort_cluster_detectors (cm p : Nat) (v : CometPort) : (s.setCometPort cm p v).cluster.detectors = s.cluster.detectors := rfl
@[simp] theorem setCometPort_cluster_migrateWait (cm p : Nat) (v : CometPort) : (s.setCometPort cm p v).cluster.migrateWait = s.cluster.migrateWait := rfl
@[simp] theorem setCometPort_cluster_loaders (cm p : Nat) (v : CometPort) : (s.setCometPort cm p v).cluster.loaders = s.cluster.loaders := rfl
@[simp] theorem setCometPort_cluster_cfgCache (cm p : Nat) (v : CometPort) : (s.setCometPort cm p v).cluster.cfgCache = s.cluster.cfgCache := rfl
theorem setCometPort_cluster_ports (cm p : Nat) (v : CometPort) : (s.setCometPort cm p v).cluster.ports = s.cluster.ports.put (256 * cm + p) v {} := rfl
/-- What `setCometPort` wrote is read back. -/
@[simp] theorem cometPort_setCometPort_same (cm p : Nat) (v : CometPort) : (s.setCometPort cm p v).cometPort cm p = v := Map.find_put_same ..
theorem cometPort_setCometPort_other (cm p : Nat) (v : CometPort) (cm' p' : Nat) (hne : 256 * cm' + p' ≠ 256 * cm + p) : (s.setCometPort cm p v).cometPort cm' p' = s.cometPort cm' p' := Map.find_put_other _ hne ..

@[simp] theorem setStream_unit (c r : Nat) (v : StreamReg) : (s.setStream c r v).unit = s.unit := rfl
@[simp] theorem setStream_router (c r : Nat) (v : StreamReg) : (s.setStream c r v).router = s.router := rfl
@[simp] theorem setStream_core (c r : Nat) (v : StreamReg) : (s.setStream c r v).core = s.core := rfl
@[simp] theorem setStream_sync (c r : Nat) (v : StreamReg) : (s.setStream c r v).sync = s.sync := rfl
@[simp] theorem setStream_mesh (c r : Nat) (v : StreamReg) : (s.setStream c r v).mesh = s.mesh := rfl
@[simp] theorem setStream_mem (c r : Nat) (v : StreamReg) : (s.setStream c r v).mem = s.mem := rfl
@[simp] theorem setStream_die (c r : Nat) (v : StreamReg) : (s.setStream c r v).die = s.die := rfl
@[simp] theorem setStream_hub (c r : Nat) (v : StreamReg) : (s.setStream c r v).hub = s.hub := rfl
@[simp] theorem setStream_sag (c r : Nat) (v : StreamReg) : (s.setStream c r v).sag = s.sag := rfl
@[simp] theorem setStream_fab (c r : Nat) (v : StreamReg) : (s.setStream c r v).fab = s.fab := rfl
@[simp] theorem setStream_agenda (c r : Nat) (v : StreamReg) : (s.setStream c r v).agenda = s.agenda := rfl
@[simp] theorem setStream_free (c r : Nat) (v : StreamReg) : (s.setStream c r v).free = s.free := rfl
@[simp] theorem setStream_now (c r : Nat) (v : StreamReg) : (s.setStream c r v).now = s.now := rfl
@[simp] theorem setStream_cur (c r : Nat) (v : StreamReg) : (s.setStream c r v).cur = s.cur := rfl
@[simp] theorem setStream_act (c r : Nat) (v : StreamReg) : (s.setStream c r v).act = s.act := rfl
@[simp] theorem setStream_cluster_ports (c r : Nat) (v : StreamReg) : (s.setStream c r v).cluster.ports = s.cluster.ports := rfl
@[simp] theorem setStream_cluster_cmds (c r : Nat) (v : StreamReg) : (s.setStream c r v).cluster.cmds = s.cluster.cmds := rfl
@[simp] theorem setStream_cluster_accepted (c r : Nat) (v : StreamReg) : (s.setStream c r v).cluster.accepted = s.cluster.accepted := rfl
@[simp] theorem setStream_cluster_ccs (c r : Nat) (v : StreamReg) : (s.setStream c r v).cluster.ccs = s.cluster.ccs := rfl
@[simp] theorem setStream_cluster_xlat (c r : Nat) (v : StreamReg) : (s.setStream c r v).cluster.xlat = s.cluster.xlat := rfl
@[simp] theorem setStream_cluster_tiles (c r : Nat) (v : StreamReg) : (s.setStream c r v).cluster.tiles = s.cluster.tiles := rfl
@[simp] theorem setStream_cluster_stage (c r : Nat) (v : StreamReg) : (s.setStream c r v).cluster.stage = s.cluster.stage := rfl
@[simp] theorem setStream_cluster_slots (c r : Nat) (v : StreamReg) : (s.setStream c r v).cluster.slots = s.cluster.slots := rfl
@[simp] theorem setStream_cluster_opmem (c r : Nat) (v : StreamReg) : (s.setStream c r v).cluster.opmem = s.cluster.opmem := rfl
@[simp] theorem setStream_cluster_opBad (c r : Nat) (v : StreamReg) : (s.setStream c r v).cluster.opBad = s.cluster.opBad := rfl
@[simp] theorem setStream_cluster_kctrs (c r : Nat) (v : StreamReg) : (s.setStream c r v).cluster.kctrs = s.cluster.kctrs := rfl
@[simp] theorem setStream_cluster_krecs (c r : Nat) (v : StreamReg) : (s.setStream c r v).cluster.krecs = s.cluster.krecs := rfl
@[simp] theorem setStream_cluster_kilns (c r : Nat) (v : StreamReg) : (s.setStream c r v).cluster.kilns = s.cluster.kilns := rfl
@[simp] theorem setStream_cluster_kports (c r : Nat) (v : StreamReg) : (s.setStream c r v).cluster.kports = s.cluster.kports := rfl
@[simp] theorem setStream_cluster_kstats (c r : Nat) (v : StreamReg) : (s.setStream c r v).cluster.kstats = s.cluster.kstats := rfl
@[simp] theorem setStream_cluster_limits (c r : Nat) (v : StreamReg) : (s.setStream c r v).cluster.limits = s.cluster.limits := rfl
@[simp] theorem setStream_cluster_detectors (c r : Nat) (v : StreamReg) : (s.setStream c r v).cluster.detectors = s.cluster.detectors := rfl
@[simp] theorem setStream_cluster_migrateWait (c r : Nat) (v : StreamReg) : (s.setStream c r v).cluster.migrateWait = s.cluster.migrateWait := rfl
@[simp] theorem setStream_cluster_loaders (c r : Nat) (v : StreamReg) : (s.setStream c r v).cluster.loaders = s.cluster.loaders := rfl
@[simp] theorem setStream_cluster_cfgCache (c r : Nat) (v : StreamReg) : (s.setStream c r v).cluster.cfgCache = s.cluster.cfgCache := rfl
theorem setStream_cluster_streams (c r : Nat) (v : StreamReg) : (s.setStream c r v).cluster.streams = s.cluster.streams.put (24 * c + r) v {} := rfl
/-- What `setStream` wrote is read back. -/
@[simp] theorem stream_setStream_same (c r : Nat) (v : StreamReg) : (s.setStream c r v).stream c r = v := Map.find_put_same ..
theorem stream_setStream_other (c r : Nat) (v : StreamReg) (c' r' : Nat) (hne : 24 * c' + r' ≠ 24 * c + r) : (s.setStream c r v).stream c' r' = s.stream c' r' := Map.find_put_other _ hne ..

@[simp] theorem setCmdq_unit (c : Nat) (v : List (Cmd)) : (s.setCmdq c v).unit = s.unit := rfl
@[simp] theorem setCmdq_router (c : Nat) (v : List (Cmd)) : (s.setCmdq c v).router = s.router := rfl
@[simp] theorem setCmdq_core (c : Nat) (v : List (Cmd)) : (s.setCmdq c v).core = s.core := rfl
@[simp] theorem setCmdq_sync (c : Nat) (v : List (Cmd)) : (s.setCmdq c v).sync = s.sync := rfl
@[simp] theorem setCmdq_mesh (c : Nat) (v : List (Cmd)) : (s.setCmdq c v).mesh = s.mesh := rfl
@[simp] theorem setCmdq_mem (c : Nat) (v : List (Cmd)) : (s.setCmdq c v).mem = s.mem := rfl
@[simp] theorem setCmdq_die (c : Nat) (v : List (Cmd)) : (s.setCmdq c v).die = s.die := rfl
@[simp] theorem setCmdq_hub (c : Nat) (v : List (Cmd)) : (s.setCmdq c v).hub = s.hub := rfl
@[simp] theorem setCmdq_sag (c : Nat) (v : List (Cmd)) : (s.setCmdq c v).sag = s.sag := rfl
@[simp] theorem setCmdq_fab (c : Nat) (v : List (Cmd)) : (s.setCmdq c v).fab = s.fab := rfl
@[simp] theorem setCmdq_agenda (c : Nat) (v : List (Cmd)) : (s.setCmdq c v).agenda = s.agenda := rfl
@[simp] theorem setCmdq_free (c : Nat) (v : List (Cmd)) : (s.setCmdq c v).free = s.free := rfl
@[simp] theorem setCmdq_now (c : Nat) (v : List (Cmd)) : (s.setCmdq c v).now = s.now := rfl
@[simp] theorem setCmdq_cur (c : Nat) (v : List (Cmd)) : (s.setCmdq c v).cur = s.cur := rfl
@[simp] theorem setCmdq_act (c : Nat) (v : List (Cmd)) : (s.setCmdq c v).act = s.act := rfl
@[simp] theorem setCmdq_cluster_ports (c : Nat) (v : List (Cmd)) : (s.setCmdq c v).cluster.ports = s.cluster.ports := rfl
@[simp] theorem setCmdq_cluster_streams (c : Nat) (v : List (Cmd)) : (s.setCmdq c v).cluster.streams = s.cluster.streams := rfl
@[simp] theorem setCmdq_cluster_accepted (c : Nat) (v : List (Cmd)) : (s.setCmdq c v).cluster.accepted = s.cluster.accepted := rfl
@[simp] theorem setCmdq_cluster_ccs (c : Nat) (v : List (Cmd)) : (s.setCmdq c v).cluster.ccs = s.cluster.ccs := rfl
@[simp] theorem setCmdq_cluster_xlat (c : Nat) (v : List (Cmd)) : (s.setCmdq c v).cluster.xlat = s.cluster.xlat := rfl
@[simp] theorem setCmdq_cluster_tiles (c : Nat) (v : List (Cmd)) : (s.setCmdq c v).cluster.tiles = s.cluster.tiles := rfl
@[simp] theorem setCmdq_cluster_stage (c : Nat) (v : List (Cmd)) : (s.setCmdq c v).cluster.stage = s.cluster.stage := rfl
@[simp] theorem setCmdq_cluster_slots (c : Nat) (v : List (Cmd)) : (s.setCmdq c v).cluster.slots = s.cluster.slots := rfl
@[simp] theorem setCmdq_cluster_opmem (c : Nat) (v : List (Cmd)) : (s.setCmdq c v).cluster.opmem = s.cluster.opmem := rfl
@[simp] theorem setCmdq_cluster_opBad (c : Nat) (v : List (Cmd)) : (s.setCmdq c v).cluster.opBad = s.cluster.opBad := rfl
@[simp] theorem setCmdq_cluster_kctrs (c : Nat) (v : List (Cmd)) : (s.setCmdq c v).cluster.kctrs = s.cluster.kctrs := rfl
@[simp] theorem setCmdq_cluster_krecs (c : Nat) (v : List (Cmd)) : (s.setCmdq c v).cluster.krecs = s.cluster.krecs := rfl
@[simp] theorem setCmdq_cluster_kilns (c : Nat) (v : List (Cmd)) : (s.setCmdq c v).cluster.kilns = s.cluster.kilns := rfl
@[simp] theorem setCmdq_cluster_kports (c : Nat) (v : List (Cmd)) : (s.setCmdq c v).cluster.kports = s.cluster.kports := rfl
@[simp] theorem setCmdq_cluster_kstats (c : Nat) (v : List (Cmd)) : (s.setCmdq c v).cluster.kstats = s.cluster.kstats := rfl
@[simp] theorem setCmdq_cluster_limits (c : Nat) (v : List (Cmd)) : (s.setCmdq c v).cluster.limits = s.cluster.limits := rfl
@[simp] theorem setCmdq_cluster_detectors (c : Nat) (v : List (Cmd)) : (s.setCmdq c v).cluster.detectors = s.cluster.detectors := rfl
@[simp] theorem setCmdq_cluster_migrateWait (c : Nat) (v : List (Cmd)) : (s.setCmdq c v).cluster.migrateWait = s.cluster.migrateWait := rfl
@[simp] theorem setCmdq_cluster_loaders (c : Nat) (v : List (Cmd)) : (s.setCmdq c v).cluster.loaders = s.cluster.loaders := rfl
@[simp] theorem setCmdq_cluster_cfgCache (c : Nat) (v : List (Cmd)) : (s.setCmdq c v).cluster.cfgCache = s.cluster.cfgCache := rfl
theorem setCmdq_cluster_cmds (c : Nat) (v : List (Cmd)) : (s.setCmdq c v).cluster.cmds = s.cluster.cmds.put (c) v [] := rfl
/-- What `setCmdq` wrote is read back. -/
@[simp] theorem cmdq_setCmdq_same (c : Nat) (v : List (Cmd)) : (s.setCmdq c v).cmdq c = v := Map.find_put_same ..
theorem cmdq_setCmdq_other (c : Nat) (v : List (Cmd)) (c' : Nat) (hne : c' ≠ c) : (s.setCmdq c v).cmdq c' = s.cmdq c' := Map.find_put_other _ hne ..

@[simp] theorem setAccepted_unit (cm : Nat) (v : Nat) : (s.setAccepted cm v).unit = s.unit := rfl
@[simp] theorem setAccepted_router (cm : Nat) (v : Nat) : (s.setAccepted cm v).router = s.router := rfl
@[simp] theorem setAccepted_core (cm : Nat) (v : Nat) : (s.setAccepted cm v).core = s.core := rfl
@[simp] theorem setAccepted_sync (cm : Nat) (v : Nat) : (s.setAccepted cm v).sync = s.sync := rfl
@[simp] theorem setAccepted_mesh (cm : Nat) (v : Nat) : (s.setAccepted cm v).mesh = s.mesh := rfl
@[simp] theorem setAccepted_mem (cm : Nat) (v : Nat) : (s.setAccepted cm v).mem = s.mem := rfl
@[simp] theorem setAccepted_die (cm : Nat) (v : Nat) : (s.setAccepted cm v).die = s.die := rfl
@[simp] theorem setAccepted_hub (cm : Nat) (v : Nat) : (s.setAccepted cm v).hub = s.hub := rfl
@[simp] theorem setAccepted_sag (cm : Nat) (v : Nat) : (s.setAccepted cm v).sag = s.sag := rfl
@[simp] theorem setAccepted_fab (cm : Nat) (v : Nat) : (s.setAccepted cm v).fab = s.fab := rfl
@[simp] theorem setAccepted_agenda (cm : Nat) (v : Nat) : (s.setAccepted cm v).agenda = s.agenda := rfl
@[simp] theorem setAccepted_free (cm : Nat) (v : Nat) : (s.setAccepted cm v).free = s.free := rfl
@[simp] theorem setAccepted_now (cm : Nat) (v : Nat) : (s.setAccepted cm v).now = s.now := rfl
@[simp] theorem setAccepted_cur (cm : Nat) (v : Nat) : (s.setAccepted cm v).cur = s.cur := rfl
@[simp] theorem setAccepted_act (cm : Nat) (v : Nat) : (s.setAccepted cm v).act = s.act := rfl
@[simp] theorem setAccepted_cluster_ports (cm : Nat) (v : Nat) : (s.setAccepted cm v).cluster.ports = s.cluster.ports := rfl
@[simp] theorem setAccepted_cluster_streams (cm : Nat) (v : Nat) : (s.setAccepted cm v).cluster.streams = s.cluster.streams := rfl
@[simp] theorem setAccepted_cluster_cmds (cm : Nat) (v : Nat) : (s.setAccepted cm v).cluster.cmds = s.cluster.cmds := rfl
@[simp] theorem setAccepted_cluster_ccs (cm : Nat) (v : Nat) : (s.setAccepted cm v).cluster.ccs = s.cluster.ccs := rfl
@[simp] theorem setAccepted_cluster_xlat (cm : Nat) (v : Nat) : (s.setAccepted cm v).cluster.xlat = s.cluster.xlat := rfl
@[simp] theorem setAccepted_cluster_tiles (cm : Nat) (v : Nat) : (s.setAccepted cm v).cluster.tiles = s.cluster.tiles := rfl
@[simp] theorem setAccepted_cluster_stage (cm : Nat) (v : Nat) : (s.setAccepted cm v).cluster.stage = s.cluster.stage := rfl
@[simp] theorem setAccepted_cluster_slots (cm : Nat) (v : Nat) : (s.setAccepted cm v).cluster.slots = s.cluster.slots := rfl
@[simp] theorem setAccepted_cluster_opmem (cm : Nat) (v : Nat) : (s.setAccepted cm v).cluster.opmem = s.cluster.opmem := rfl
@[simp] theorem setAccepted_cluster_opBad (cm : Nat) (v : Nat) : (s.setAccepted cm v).cluster.opBad = s.cluster.opBad := rfl
@[simp] theorem setAccepted_cluster_kctrs (cm : Nat) (v : Nat) : (s.setAccepted cm v).cluster.kctrs = s.cluster.kctrs := rfl
@[simp] theorem setAccepted_cluster_krecs (cm : Nat) (v : Nat) : (s.setAccepted cm v).cluster.krecs = s.cluster.krecs := rfl
@[simp] theorem setAccepted_cluster_kilns (cm : Nat) (v : Nat) : (s.setAccepted cm v).cluster.kilns = s.cluster.kilns := rfl
@[simp] theorem setAccepted_cluster_kports (cm : Nat) (v : Nat) : (s.setAccepted cm v).cluster.kports = s.cluster.kports := rfl
@[simp] theorem setAccepted_cluster_kstats (cm : Nat) (v : Nat) : (s.setAccepted cm v).cluster.kstats = s.cluster.kstats := rfl
@[simp] theorem setAccepted_cluster_limits (cm : Nat) (v : Nat) : (s.setAccepted cm v).cluster.limits = s.cluster.limits := rfl
@[simp] theorem setAccepted_cluster_detectors (cm : Nat) (v : Nat) : (s.setAccepted cm v).cluster.detectors = s.cluster.detectors := rfl
@[simp] theorem setAccepted_cluster_migrateWait (cm : Nat) (v : Nat) : (s.setAccepted cm v).cluster.migrateWait = s.cluster.migrateWait := rfl
@[simp] theorem setAccepted_cluster_loaders (cm : Nat) (v : Nat) : (s.setAccepted cm v).cluster.loaders = s.cluster.loaders := rfl
@[simp] theorem setAccepted_cluster_cfgCache (cm : Nat) (v : Nat) : (s.setAccepted cm v).cluster.cfgCache = s.cluster.cfgCache := rfl
theorem setAccepted_cluster_accepted (cm : Nat) (v : Nat) : (s.setAccepted cm v).cluster.accepted = s.cluster.accepted.put (cm) v 0 := rfl
/-- What `setAccepted` wrote is read back. -/
@[simp] theorem accepted_setAccepted_same (cm : Nat) (v : Nat) : (s.setAccepted cm v).accepted cm = v := Map.find_put_same ..
theorem accepted_setAccepted_other (cm : Nat) (v : Nat) (cm' : Nat) (hne : cm' ≠ cm) : (s.setAccepted cm v).accepted cm' = s.accepted cm' := Map.find_put_other _ hne ..

@[simp] theorem setCc_unit (c k : Nat) (v : CompCtr) : (s.setCc c k v).unit = s.unit := rfl
@[simp] theorem setCc_router (c k : Nat) (v : CompCtr) : (s.setCc c k v).router = s.router := rfl
@[simp] theorem setCc_core (c k : Nat) (v : CompCtr) : (s.setCc c k v).core = s.core := rfl
@[simp] theorem setCc_sync (c k : Nat) (v : CompCtr) : (s.setCc c k v).sync = s.sync := rfl
@[simp] theorem setCc_mesh (c k : Nat) (v : CompCtr) : (s.setCc c k v).mesh = s.mesh := rfl
@[simp] theorem setCc_mem (c k : Nat) (v : CompCtr) : (s.setCc c k v).mem = s.mem := rfl
@[simp] theorem setCc_die (c k : Nat) (v : CompCtr) : (s.setCc c k v).die = s.die := rfl
@[simp] theorem setCc_hub (c k : Nat) (v : CompCtr) : (s.setCc c k v).hub = s.hub := rfl
@[simp] theorem setCc_sag (c k : Nat) (v : CompCtr) : (s.setCc c k v).sag = s.sag := rfl
@[simp] theorem setCc_fab (c k : Nat) (v : CompCtr) : (s.setCc c k v).fab = s.fab := rfl
@[simp] theorem setCc_agenda (c k : Nat) (v : CompCtr) : (s.setCc c k v).agenda = s.agenda := rfl
@[simp] theorem setCc_free (c k : Nat) (v : CompCtr) : (s.setCc c k v).free = s.free := rfl
@[simp] theorem setCc_now (c k : Nat) (v : CompCtr) : (s.setCc c k v).now = s.now := rfl
@[simp] theorem setCc_cur (c k : Nat) (v : CompCtr) : (s.setCc c k v).cur = s.cur := rfl
@[simp] theorem setCc_act (c k : Nat) (v : CompCtr) : (s.setCc c k v).act = s.act := rfl
@[simp] theorem setCc_cluster_ports (c k : Nat) (v : CompCtr) : (s.setCc c k v).cluster.ports = s.cluster.ports := rfl
@[simp] theorem setCc_cluster_streams (c k : Nat) (v : CompCtr) : (s.setCc c k v).cluster.streams = s.cluster.streams := rfl
@[simp] theorem setCc_cluster_cmds (c k : Nat) (v : CompCtr) : (s.setCc c k v).cluster.cmds = s.cluster.cmds := rfl
@[simp] theorem setCc_cluster_accepted (c k : Nat) (v : CompCtr) : (s.setCc c k v).cluster.accepted = s.cluster.accepted := rfl
@[simp] theorem setCc_cluster_xlat (c k : Nat) (v : CompCtr) : (s.setCc c k v).cluster.xlat = s.cluster.xlat := rfl
@[simp] theorem setCc_cluster_tiles (c k : Nat) (v : CompCtr) : (s.setCc c k v).cluster.tiles = s.cluster.tiles := rfl
@[simp] theorem setCc_cluster_stage (c k : Nat) (v : CompCtr) : (s.setCc c k v).cluster.stage = s.cluster.stage := rfl
@[simp] theorem setCc_cluster_slots (c k : Nat) (v : CompCtr) : (s.setCc c k v).cluster.slots = s.cluster.slots := rfl
@[simp] theorem setCc_cluster_opmem (c k : Nat) (v : CompCtr) : (s.setCc c k v).cluster.opmem = s.cluster.opmem := rfl
@[simp] theorem setCc_cluster_opBad (c k : Nat) (v : CompCtr) : (s.setCc c k v).cluster.opBad = s.cluster.opBad := rfl
@[simp] theorem setCc_cluster_kctrs (c k : Nat) (v : CompCtr) : (s.setCc c k v).cluster.kctrs = s.cluster.kctrs := rfl
@[simp] theorem setCc_cluster_krecs (c k : Nat) (v : CompCtr) : (s.setCc c k v).cluster.krecs = s.cluster.krecs := rfl
@[simp] theorem setCc_cluster_kilns (c k : Nat) (v : CompCtr) : (s.setCc c k v).cluster.kilns = s.cluster.kilns := rfl
@[simp] theorem setCc_cluster_kports (c k : Nat) (v : CompCtr) : (s.setCc c k v).cluster.kports = s.cluster.kports := rfl
@[simp] theorem setCc_cluster_kstats (c k : Nat) (v : CompCtr) : (s.setCc c k v).cluster.kstats = s.cluster.kstats := rfl
@[simp] theorem setCc_cluster_limits (c k : Nat) (v : CompCtr) : (s.setCc c k v).cluster.limits = s.cluster.limits := rfl
@[simp] theorem setCc_cluster_detectors (c k : Nat) (v : CompCtr) : (s.setCc c k v).cluster.detectors = s.cluster.detectors := rfl
@[simp] theorem setCc_cluster_migrateWait (c k : Nat) (v : CompCtr) : (s.setCc c k v).cluster.migrateWait = s.cluster.migrateWait := rfl
@[simp] theorem setCc_cluster_loaders (c k : Nat) (v : CompCtr) : (s.setCc c k v).cluster.loaders = s.cluster.loaders := rfl
@[simp] theorem setCc_cluster_cfgCache (c k : Nat) (v : CompCtr) : (s.setCc c k v).cluster.cfgCache = s.cluster.cfgCache := rfl
theorem setCc_cluster_ccs (c k : Nat) (v : CompCtr) : (s.setCc c k v).cluster.ccs = s.cluster.ccs.put (16 * c + k) v {} := rfl
/-- What `setCc` wrote is read back. -/
@[simp] theorem cc_setCc_same (c k : Nat) (v : CompCtr) : (s.setCc c k v).cc c k = v := Map.find_put_same ..
theorem cc_setCc_other (c k : Nat) (v : CompCtr) (c' k' : Nat) (hne : 16 * c' + k' ≠ 16 * c + k) : (s.setCc c k v).cc c' k' = s.cc c' k' := Map.find_put_other _ hne ..

@[simp] theorem setKslot_unit (cl n : Nat) (v : KSlot) : (s.setKslot cl n v).unit = s.unit := rfl
@[simp] theorem setKslot_router (cl n : Nat) (v : KSlot) : (s.setKslot cl n v).router = s.router := rfl
@[simp] theorem setKslot_core (cl n : Nat) (v : KSlot) : (s.setKslot cl n v).core = s.core := rfl
@[simp] theorem setKslot_sync (cl n : Nat) (v : KSlot) : (s.setKslot cl n v).sync = s.sync := rfl
@[simp] theorem setKslot_mesh (cl n : Nat) (v : KSlot) : (s.setKslot cl n v).mesh = s.mesh := rfl
@[simp] theorem setKslot_mem (cl n : Nat) (v : KSlot) : (s.setKslot cl n v).mem = s.mem := rfl
@[simp] theorem setKslot_die (cl n : Nat) (v : KSlot) : (s.setKslot cl n v).die = s.die := rfl
@[simp] theorem setKslot_hub (cl n : Nat) (v : KSlot) : (s.setKslot cl n v).hub = s.hub := rfl
@[simp] theorem setKslot_sag (cl n : Nat) (v : KSlot) : (s.setKslot cl n v).sag = s.sag := rfl
@[simp] theorem setKslot_fab (cl n : Nat) (v : KSlot) : (s.setKslot cl n v).fab = s.fab := rfl
@[simp] theorem setKslot_agenda (cl n : Nat) (v : KSlot) : (s.setKslot cl n v).agenda = s.agenda := rfl
@[simp] theorem setKslot_free (cl n : Nat) (v : KSlot) : (s.setKslot cl n v).free = s.free := rfl
@[simp] theorem setKslot_now (cl n : Nat) (v : KSlot) : (s.setKslot cl n v).now = s.now := rfl
@[simp] theorem setKslot_cur (cl n : Nat) (v : KSlot) : (s.setKslot cl n v).cur = s.cur := rfl
@[simp] theorem setKslot_act (cl n : Nat) (v : KSlot) : (s.setKslot cl n v).act = s.act := rfl
@[simp] theorem setKslot_cluster_ports (cl n : Nat) (v : KSlot) : (s.setKslot cl n v).cluster.ports = s.cluster.ports := rfl
@[simp] theorem setKslot_cluster_streams (cl n : Nat) (v : KSlot) : (s.setKslot cl n v).cluster.streams = s.cluster.streams := rfl
@[simp] theorem setKslot_cluster_cmds (cl n : Nat) (v : KSlot) : (s.setKslot cl n v).cluster.cmds = s.cluster.cmds := rfl
@[simp] theorem setKslot_cluster_accepted (cl n : Nat) (v : KSlot) : (s.setKslot cl n v).cluster.accepted = s.cluster.accepted := rfl
@[simp] theorem setKslot_cluster_ccs (cl n : Nat) (v : KSlot) : (s.setKslot cl n v).cluster.ccs = s.cluster.ccs := rfl
@[simp] theorem setKslot_cluster_xlat (cl n : Nat) (v : KSlot) : (s.setKslot cl n v).cluster.xlat = s.cluster.xlat := rfl
@[simp] theorem setKslot_cluster_tiles (cl n : Nat) (v : KSlot) : (s.setKslot cl n v).cluster.tiles = s.cluster.tiles := rfl
@[simp] theorem setKslot_cluster_stage (cl n : Nat) (v : KSlot) : (s.setKslot cl n v).cluster.stage = s.cluster.stage := rfl
@[simp] theorem setKslot_cluster_opmem (cl n : Nat) (v : KSlot) : (s.setKslot cl n v).cluster.opmem = s.cluster.opmem := rfl
@[simp] theorem setKslot_cluster_opBad (cl n : Nat) (v : KSlot) : (s.setKslot cl n v).cluster.opBad = s.cluster.opBad := rfl
@[simp] theorem setKslot_cluster_kctrs (cl n : Nat) (v : KSlot) : (s.setKslot cl n v).cluster.kctrs = s.cluster.kctrs := rfl
@[simp] theorem setKslot_cluster_krecs (cl n : Nat) (v : KSlot) : (s.setKslot cl n v).cluster.krecs = s.cluster.krecs := rfl
@[simp] theorem setKslot_cluster_kilns (cl n : Nat) (v : KSlot) : (s.setKslot cl n v).cluster.kilns = s.cluster.kilns := rfl
@[simp] theorem setKslot_cluster_kports (cl n : Nat) (v : KSlot) : (s.setKslot cl n v).cluster.kports = s.cluster.kports := rfl
@[simp] theorem setKslot_cluster_kstats (cl n : Nat) (v : KSlot) : (s.setKslot cl n v).cluster.kstats = s.cluster.kstats := rfl
@[simp] theorem setKslot_cluster_limits (cl n : Nat) (v : KSlot) : (s.setKslot cl n v).cluster.limits = s.cluster.limits := rfl
@[simp] theorem setKslot_cluster_detectors (cl n : Nat) (v : KSlot) : (s.setKslot cl n v).cluster.detectors = s.cluster.detectors := rfl
@[simp] theorem setKslot_cluster_migrateWait (cl n : Nat) (v : KSlot) : (s.setKslot cl n v).cluster.migrateWait = s.cluster.migrateWait := rfl
@[simp] theorem setKslot_cluster_loaders (cl n : Nat) (v : KSlot) : (s.setKslot cl n v).cluster.loaders = s.cluster.loaders := rfl
@[simp] theorem setKslot_cluster_cfgCache (cl n : Nat) (v : KSlot) : (s.setKslot cl n v).cluster.cfgCache = s.cluster.cfgCache := rfl
theorem setKslot_cluster_slots (cl n : Nat) (v : KSlot) : (s.setKslot cl n v).cluster.slots = s.cluster.slots.put (128 * cl + n) v {} := rfl
/-- What `setKslot` wrote is read back. -/
@[simp] theorem kslot_setKslot_same (cl n : Nat) (v : KSlot) : (s.setKslot cl n v).kslot cl n = v := Map.find_put_same ..
theorem kslot_setKslot_other (cl n : Nat) (v : KSlot) (cl' n' : Nat) (hne : 128 * cl' + n' ≠ 128 * cl + n) : (s.setKslot cl n v).kslot cl' n' = s.kslot cl' n' := Map.find_put_other _ hne ..

@[simp] theorem setOpByte_unit (cl n b : Nat) (v : Byte) : (s.setOpByte cl n b v).unit = s.unit := rfl
@[simp] theorem setOpByte_router (cl n b : Nat) (v : Byte) : (s.setOpByte cl n b v).router = s.router := rfl
@[simp] theorem setOpByte_core (cl n b : Nat) (v : Byte) : (s.setOpByte cl n b v).core = s.core := rfl
@[simp] theorem setOpByte_sync (cl n b : Nat) (v : Byte) : (s.setOpByte cl n b v).sync = s.sync := rfl
@[simp] theorem setOpByte_mesh (cl n b : Nat) (v : Byte) : (s.setOpByte cl n b v).mesh = s.mesh := rfl
@[simp] theorem setOpByte_mem (cl n b : Nat) (v : Byte) : (s.setOpByte cl n b v).mem = s.mem := rfl
@[simp] theorem setOpByte_die (cl n b : Nat) (v : Byte) : (s.setOpByte cl n b v).die = s.die := rfl
@[simp] theorem setOpByte_hub (cl n b : Nat) (v : Byte) : (s.setOpByte cl n b v).hub = s.hub := rfl
@[simp] theorem setOpByte_sag (cl n b : Nat) (v : Byte) : (s.setOpByte cl n b v).sag = s.sag := rfl
@[simp] theorem setOpByte_fab (cl n b : Nat) (v : Byte) : (s.setOpByte cl n b v).fab = s.fab := rfl
@[simp] theorem setOpByte_agenda (cl n b : Nat) (v : Byte) : (s.setOpByte cl n b v).agenda = s.agenda := rfl
@[simp] theorem setOpByte_free (cl n b : Nat) (v : Byte) : (s.setOpByte cl n b v).free = s.free := rfl
@[simp] theorem setOpByte_now (cl n b : Nat) (v : Byte) : (s.setOpByte cl n b v).now = s.now := rfl
@[simp] theorem setOpByte_cur (cl n b : Nat) (v : Byte) : (s.setOpByte cl n b v).cur = s.cur := rfl
@[simp] theorem setOpByte_act (cl n b : Nat) (v : Byte) : (s.setOpByte cl n b v).act = s.act := rfl
@[simp] theorem setOpByte_cluster_ports (cl n b : Nat) (v : Byte) : (s.setOpByte cl n b v).cluster.ports = s.cluster.ports := rfl
@[simp] theorem setOpByte_cluster_streams (cl n b : Nat) (v : Byte) : (s.setOpByte cl n b v).cluster.streams = s.cluster.streams := rfl
@[simp] theorem setOpByte_cluster_cmds (cl n b : Nat) (v : Byte) : (s.setOpByte cl n b v).cluster.cmds = s.cluster.cmds := rfl
@[simp] theorem setOpByte_cluster_accepted (cl n b : Nat) (v : Byte) : (s.setOpByte cl n b v).cluster.accepted = s.cluster.accepted := rfl
@[simp] theorem setOpByte_cluster_ccs (cl n b : Nat) (v : Byte) : (s.setOpByte cl n b v).cluster.ccs = s.cluster.ccs := rfl
@[simp] theorem setOpByte_cluster_xlat (cl n b : Nat) (v : Byte) : (s.setOpByte cl n b v).cluster.xlat = s.cluster.xlat := rfl
@[simp] theorem setOpByte_cluster_tiles (cl n b : Nat) (v : Byte) : (s.setOpByte cl n b v).cluster.tiles = s.cluster.tiles := rfl
@[simp] theorem setOpByte_cluster_stage (cl n b : Nat) (v : Byte) : (s.setOpByte cl n b v).cluster.stage = s.cluster.stage := rfl
@[simp] theorem setOpByte_cluster_slots (cl n b : Nat) (v : Byte) : (s.setOpByte cl n b v).cluster.slots = s.cluster.slots := rfl
@[simp] theorem setOpByte_cluster_opBad (cl n b : Nat) (v : Byte) : (s.setOpByte cl n b v).cluster.opBad = s.cluster.opBad := rfl
@[simp] theorem setOpByte_cluster_kctrs (cl n b : Nat) (v : Byte) : (s.setOpByte cl n b v).cluster.kctrs = s.cluster.kctrs := rfl
@[simp] theorem setOpByte_cluster_krecs (cl n b : Nat) (v : Byte) : (s.setOpByte cl n b v).cluster.krecs = s.cluster.krecs := rfl
@[simp] theorem setOpByte_cluster_kilns (cl n b : Nat) (v : Byte) : (s.setOpByte cl n b v).cluster.kilns = s.cluster.kilns := rfl
@[simp] theorem setOpByte_cluster_kports (cl n b : Nat) (v : Byte) : (s.setOpByte cl n b v).cluster.kports = s.cluster.kports := rfl
@[simp] theorem setOpByte_cluster_kstats (cl n b : Nat) (v : Byte) : (s.setOpByte cl n b v).cluster.kstats = s.cluster.kstats := rfl
@[simp] theorem setOpByte_cluster_limits (cl n b : Nat) (v : Byte) : (s.setOpByte cl n b v).cluster.limits = s.cluster.limits := rfl
@[simp] theorem setOpByte_cluster_detectors (cl n b : Nat) (v : Byte) : (s.setOpByte cl n b v).cluster.detectors = s.cluster.detectors := rfl
@[simp] theorem setOpByte_cluster_migrateWait (cl n b : Nat) (v : Byte) : (s.setOpByte cl n b v).cluster.migrateWait = s.cluster.migrateWait := rfl
@[simp] theorem setOpByte_cluster_loaders (cl n b : Nat) (v : Byte) : (s.setOpByte cl n b v).cluster.loaders = s.cluster.loaders := rfl
@[simp] theorem setOpByte_cluster_cfgCache (cl n b : Nat) (v : Byte) : (s.setOpByte cl n b v).cluster.cfgCache = s.cluster.cfgCache := rfl
theorem setOpByte_cluster_opmem (cl n b : Nat) (v : Byte) : (s.setOpByte cl n b v).cluster.opmem = s.cluster.opmem.put (2 ^ 15 * (128 * cl + n) + b) v 0 := rfl
/-- What `setOpByte` wrote is read back. -/
@[simp] theorem opByte_setOpByte_same (cl n b : Nat) (v : Byte) : (s.setOpByte cl n b v).opByte cl n b = v := Map.find_put_same ..
theorem opByte_setOpByte_other (cl n b : Nat) (v : Byte) (cl' n' b' : Nat) (hne : 2 ^ 15 * (128 * cl' + n') + b' ≠ 2 ^ 15 * (128 * cl + n) + b) : (s.setOpByte cl n b v).opByte cl' n' b' = s.opByte cl' n' b' := Map.find_put_other _ hne ..

@[simp] theorem setKctr_unit (cl n : Nat) (v : KCtr) : (s.setKctr cl n v).unit = s.unit := rfl
@[simp] theorem setKctr_router (cl n : Nat) (v : KCtr) : (s.setKctr cl n v).router = s.router := rfl
@[simp] theorem setKctr_core (cl n : Nat) (v : KCtr) : (s.setKctr cl n v).core = s.core := rfl
@[simp] theorem setKctr_sync (cl n : Nat) (v : KCtr) : (s.setKctr cl n v).sync = s.sync := rfl
@[simp] theorem setKctr_mesh (cl n : Nat) (v : KCtr) : (s.setKctr cl n v).mesh = s.mesh := rfl
@[simp] theorem setKctr_mem (cl n : Nat) (v : KCtr) : (s.setKctr cl n v).mem = s.mem := rfl
@[simp] theorem setKctr_die (cl n : Nat) (v : KCtr) : (s.setKctr cl n v).die = s.die := rfl
@[simp] theorem setKctr_hub (cl n : Nat) (v : KCtr) : (s.setKctr cl n v).hub = s.hub := rfl
@[simp] theorem setKctr_sag (cl n : Nat) (v : KCtr) : (s.setKctr cl n v).sag = s.sag := rfl
@[simp] theorem setKctr_fab (cl n : Nat) (v : KCtr) : (s.setKctr cl n v).fab = s.fab := rfl
@[simp] theorem setKctr_agenda (cl n : Nat) (v : KCtr) : (s.setKctr cl n v).agenda = s.agenda := rfl
@[simp] theorem setKctr_free (cl n : Nat) (v : KCtr) : (s.setKctr cl n v).free = s.free := rfl
@[simp] theorem setKctr_now (cl n : Nat) (v : KCtr) : (s.setKctr cl n v).now = s.now := rfl
@[simp] theorem setKctr_cur (cl n : Nat) (v : KCtr) : (s.setKctr cl n v).cur = s.cur := rfl
@[simp] theorem setKctr_act (cl n : Nat) (v : KCtr) : (s.setKctr cl n v).act = s.act := rfl
@[simp] theorem setKctr_cluster_ports (cl n : Nat) (v : KCtr) : (s.setKctr cl n v).cluster.ports = s.cluster.ports := rfl
@[simp] theorem setKctr_cluster_streams (cl n : Nat) (v : KCtr) : (s.setKctr cl n v).cluster.streams = s.cluster.streams := rfl
@[simp] theorem setKctr_cluster_cmds (cl n : Nat) (v : KCtr) : (s.setKctr cl n v).cluster.cmds = s.cluster.cmds := rfl
@[simp] theorem setKctr_cluster_accepted (cl n : Nat) (v : KCtr) : (s.setKctr cl n v).cluster.accepted = s.cluster.accepted := rfl
@[simp] theorem setKctr_cluster_ccs (cl n : Nat) (v : KCtr) : (s.setKctr cl n v).cluster.ccs = s.cluster.ccs := rfl
@[simp] theorem setKctr_cluster_xlat (cl n : Nat) (v : KCtr) : (s.setKctr cl n v).cluster.xlat = s.cluster.xlat := rfl
@[simp] theorem setKctr_cluster_tiles (cl n : Nat) (v : KCtr) : (s.setKctr cl n v).cluster.tiles = s.cluster.tiles := rfl
@[simp] theorem setKctr_cluster_stage (cl n : Nat) (v : KCtr) : (s.setKctr cl n v).cluster.stage = s.cluster.stage := rfl
@[simp] theorem setKctr_cluster_slots (cl n : Nat) (v : KCtr) : (s.setKctr cl n v).cluster.slots = s.cluster.slots := rfl
@[simp] theorem setKctr_cluster_opmem (cl n : Nat) (v : KCtr) : (s.setKctr cl n v).cluster.opmem = s.cluster.opmem := rfl
@[simp] theorem setKctr_cluster_opBad (cl n : Nat) (v : KCtr) : (s.setKctr cl n v).cluster.opBad = s.cluster.opBad := rfl
@[simp] theorem setKctr_cluster_krecs (cl n : Nat) (v : KCtr) : (s.setKctr cl n v).cluster.krecs = s.cluster.krecs := rfl
@[simp] theorem setKctr_cluster_kilns (cl n : Nat) (v : KCtr) : (s.setKctr cl n v).cluster.kilns = s.cluster.kilns := rfl
@[simp] theorem setKctr_cluster_kports (cl n : Nat) (v : KCtr) : (s.setKctr cl n v).cluster.kports = s.cluster.kports := rfl
@[simp] theorem setKctr_cluster_kstats (cl n : Nat) (v : KCtr) : (s.setKctr cl n v).cluster.kstats = s.cluster.kstats := rfl
@[simp] theorem setKctr_cluster_limits (cl n : Nat) (v : KCtr) : (s.setKctr cl n v).cluster.limits = s.cluster.limits := rfl
@[simp] theorem setKctr_cluster_detectors (cl n : Nat) (v : KCtr) : (s.setKctr cl n v).cluster.detectors = s.cluster.detectors := rfl
@[simp] theorem setKctr_cluster_migrateWait (cl n : Nat) (v : KCtr) : (s.setKctr cl n v).cluster.migrateWait = s.cluster.migrateWait := rfl
@[simp] theorem setKctr_cluster_loaders (cl n : Nat) (v : KCtr) : (s.setKctr cl n v).cluster.loaders = s.cluster.loaders := rfl
@[simp] theorem setKctr_cluster_cfgCache (cl n : Nat) (v : KCtr) : (s.setKctr cl n v).cluster.cfgCache = s.cluster.cfgCache := rfl
theorem setKctr_cluster_kctrs (cl n : Nat) (v : KCtr) : (s.setKctr cl n v).cluster.kctrs = s.cluster.kctrs.put (32 * cl + n) v {} := rfl
/-- What `setKctr` wrote is read back. -/
@[simp] theorem kctr_setKctr_same (cl n : Nat) (v : KCtr) : (s.setKctr cl n v).kctr cl n = v := Map.find_put_same ..
theorem kctr_setKctr_other (cl n : Nat) (v : KCtr) (cl' n' : Nat) (hne : 32 * cl' + n' ≠ 32 * cl + n) : (s.setKctr cl n v).kctr cl' n' = s.kctr cl' n' := Map.find_put_other _ hne ..

@[simp] theorem setKrecs_unit (cl : Nat) (v : List (KRec)) : (s.setKrecs cl v).unit = s.unit := rfl
@[simp] theorem setKrecs_router (cl : Nat) (v : List (KRec)) : (s.setKrecs cl v).router = s.router := rfl
@[simp] theorem setKrecs_core (cl : Nat) (v : List (KRec)) : (s.setKrecs cl v).core = s.core := rfl
@[simp] theorem setKrecs_sync (cl : Nat) (v : List (KRec)) : (s.setKrecs cl v).sync = s.sync := rfl
@[simp] theorem setKrecs_mesh (cl : Nat) (v : List (KRec)) : (s.setKrecs cl v).mesh = s.mesh := rfl
@[simp] theorem setKrecs_mem (cl : Nat) (v : List (KRec)) : (s.setKrecs cl v).mem = s.mem := rfl
@[simp] theorem setKrecs_die (cl : Nat) (v : List (KRec)) : (s.setKrecs cl v).die = s.die := rfl
@[simp] theorem setKrecs_hub (cl : Nat) (v : List (KRec)) : (s.setKrecs cl v).hub = s.hub := rfl
@[simp] theorem setKrecs_sag (cl : Nat) (v : List (KRec)) : (s.setKrecs cl v).sag = s.sag := rfl
@[simp] theorem setKrecs_fab (cl : Nat) (v : List (KRec)) : (s.setKrecs cl v).fab = s.fab := rfl
@[simp] theorem setKrecs_agenda (cl : Nat) (v : List (KRec)) : (s.setKrecs cl v).agenda = s.agenda := rfl
@[simp] theorem setKrecs_free (cl : Nat) (v : List (KRec)) : (s.setKrecs cl v).free = s.free := rfl
@[simp] theorem setKrecs_now (cl : Nat) (v : List (KRec)) : (s.setKrecs cl v).now = s.now := rfl
@[simp] theorem setKrecs_cur (cl : Nat) (v : List (KRec)) : (s.setKrecs cl v).cur = s.cur := rfl
@[simp] theorem setKrecs_act (cl : Nat) (v : List (KRec)) : (s.setKrecs cl v).act = s.act := rfl
@[simp] theorem setKrecs_cluster_ports (cl : Nat) (v : List (KRec)) : (s.setKrecs cl v).cluster.ports = s.cluster.ports := rfl
@[simp] theorem setKrecs_cluster_streams (cl : Nat) (v : List (KRec)) : (s.setKrecs cl v).cluster.streams = s.cluster.streams := rfl
@[simp] theorem setKrecs_cluster_cmds (cl : Nat) (v : List (KRec)) : (s.setKrecs cl v).cluster.cmds = s.cluster.cmds := rfl
@[simp] theorem setKrecs_cluster_accepted (cl : Nat) (v : List (KRec)) : (s.setKrecs cl v).cluster.accepted = s.cluster.accepted := rfl
@[simp] theorem setKrecs_cluster_ccs (cl : Nat) (v : List (KRec)) : (s.setKrecs cl v).cluster.ccs = s.cluster.ccs := rfl
@[simp] theorem setKrecs_cluster_xlat (cl : Nat) (v : List (KRec)) : (s.setKrecs cl v).cluster.xlat = s.cluster.xlat := rfl
@[simp] theorem setKrecs_cluster_tiles (cl : Nat) (v : List (KRec)) : (s.setKrecs cl v).cluster.tiles = s.cluster.tiles := rfl
@[simp] theorem setKrecs_cluster_stage (cl : Nat) (v : List (KRec)) : (s.setKrecs cl v).cluster.stage = s.cluster.stage := rfl
@[simp] theorem setKrecs_cluster_slots (cl : Nat) (v : List (KRec)) : (s.setKrecs cl v).cluster.slots = s.cluster.slots := rfl
@[simp] theorem setKrecs_cluster_opmem (cl : Nat) (v : List (KRec)) : (s.setKrecs cl v).cluster.opmem = s.cluster.opmem := rfl
@[simp] theorem setKrecs_cluster_opBad (cl : Nat) (v : List (KRec)) : (s.setKrecs cl v).cluster.opBad = s.cluster.opBad := rfl
@[simp] theorem setKrecs_cluster_kctrs (cl : Nat) (v : List (KRec)) : (s.setKrecs cl v).cluster.kctrs = s.cluster.kctrs := rfl
@[simp] theorem setKrecs_cluster_kilns (cl : Nat) (v : List (KRec)) : (s.setKrecs cl v).cluster.kilns = s.cluster.kilns := rfl
@[simp] theorem setKrecs_cluster_kports (cl : Nat) (v : List (KRec)) : (s.setKrecs cl v).cluster.kports = s.cluster.kports := rfl
@[simp] theorem setKrecs_cluster_kstats (cl : Nat) (v : List (KRec)) : (s.setKrecs cl v).cluster.kstats = s.cluster.kstats := rfl
@[simp] theorem setKrecs_cluster_limits (cl : Nat) (v : List (KRec)) : (s.setKrecs cl v).cluster.limits = s.cluster.limits := rfl
@[simp] theorem setKrecs_cluster_detectors (cl : Nat) (v : List (KRec)) : (s.setKrecs cl v).cluster.detectors = s.cluster.detectors := rfl
@[simp] theorem setKrecs_cluster_migrateWait (cl : Nat) (v : List (KRec)) : (s.setKrecs cl v).cluster.migrateWait = s.cluster.migrateWait := rfl
@[simp] theorem setKrecs_cluster_loaders (cl : Nat) (v : List (KRec)) : (s.setKrecs cl v).cluster.loaders = s.cluster.loaders := rfl
@[simp] theorem setKrecs_cluster_cfgCache (cl : Nat) (v : List (KRec)) : (s.setKrecs cl v).cluster.cfgCache = s.cluster.cfgCache := rfl
theorem setKrecs_cluster_krecs (cl : Nat) (v : List (KRec)) : (s.setKrecs cl v).cluster.krecs = s.cluster.krecs.put (cl) v [] := rfl
/-- What `setKrecs` wrote is read back. -/
@[simp] theorem krecs_setKrecs_same (cl : Nat) (v : List (KRec)) : (s.setKrecs cl v).krecs cl = v := Map.find_put_same ..
theorem krecs_setKrecs_other (cl : Nat) (v : List (KRec)) (cl' : Nat) (hne : cl' ≠ cl) : (s.setKrecs cl v).krecs cl' = s.krecs cl' := Map.find_put_other _ hne ..

@[simp] theorem setKiln_unit (k : Nat) (v : Option (SubTile)) : (s.setKiln k v).unit = s.unit := rfl
@[simp] theorem setKiln_router (k : Nat) (v : Option (SubTile)) : (s.setKiln k v).router = s.router := rfl
@[simp] theorem setKiln_core (k : Nat) (v : Option (SubTile)) : (s.setKiln k v).core = s.core := rfl
@[simp] theorem setKiln_sync (k : Nat) (v : Option (SubTile)) : (s.setKiln k v).sync = s.sync := rfl
@[simp] theorem setKiln_mesh (k : Nat) (v : Option (SubTile)) : (s.setKiln k v).mesh = s.mesh := rfl
@[simp] theorem setKiln_mem (k : Nat) (v : Option (SubTile)) : (s.setKiln k v).mem = s.mem := rfl
@[simp] theorem setKiln_die (k : Nat) (v : Option (SubTile)) : (s.setKiln k v).die = s.die := rfl
@[simp] theorem setKiln_hub (k : Nat) (v : Option (SubTile)) : (s.setKiln k v).hub = s.hub := rfl
@[simp] theorem setKiln_sag (k : Nat) (v : Option (SubTile)) : (s.setKiln k v).sag = s.sag := rfl
@[simp] theorem setKiln_fab (k : Nat) (v : Option (SubTile)) : (s.setKiln k v).fab = s.fab := rfl
@[simp] theorem setKiln_agenda (k : Nat) (v : Option (SubTile)) : (s.setKiln k v).agenda = s.agenda := rfl
@[simp] theorem setKiln_free (k : Nat) (v : Option (SubTile)) : (s.setKiln k v).free = s.free := rfl
@[simp] theorem setKiln_now (k : Nat) (v : Option (SubTile)) : (s.setKiln k v).now = s.now := rfl
@[simp] theorem setKiln_cur (k : Nat) (v : Option (SubTile)) : (s.setKiln k v).cur = s.cur := rfl
@[simp] theorem setKiln_act (k : Nat) (v : Option (SubTile)) : (s.setKiln k v).act = s.act := rfl
@[simp] theorem setKiln_cluster_ports (k : Nat) (v : Option (SubTile)) : (s.setKiln k v).cluster.ports = s.cluster.ports := rfl
@[simp] theorem setKiln_cluster_streams (k : Nat) (v : Option (SubTile)) : (s.setKiln k v).cluster.streams = s.cluster.streams := rfl
@[simp] theorem setKiln_cluster_cmds (k : Nat) (v : Option (SubTile)) : (s.setKiln k v).cluster.cmds = s.cluster.cmds := rfl
@[simp] theorem setKiln_cluster_accepted (k : Nat) (v : Option (SubTile)) : (s.setKiln k v).cluster.accepted = s.cluster.accepted := rfl
@[simp] theorem setKiln_cluster_ccs (k : Nat) (v : Option (SubTile)) : (s.setKiln k v).cluster.ccs = s.cluster.ccs := rfl
@[simp] theorem setKiln_cluster_xlat (k : Nat) (v : Option (SubTile)) : (s.setKiln k v).cluster.xlat = s.cluster.xlat := rfl
@[simp] theorem setKiln_cluster_tiles (k : Nat) (v : Option (SubTile)) : (s.setKiln k v).cluster.tiles = s.cluster.tiles := rfl
@[simp] theorem setKiln_cluster_stage (k : Nat) (v : Option (SubTile)) : (s.setKiln k v).cluster.stage = s.cluster.stage := rfl
@[simp] theorem setKiln_cluster_slots (k : Nat) (v : Option (SubTile)) : (s.setKiln k v).cluster.slots = s.cluster.slots := rfl
@[simp] theorem setKiln_cluster_opmem (k : Nat) (v : Option (SubTile)) : (s.setKiln k v).cluster.opmem = s.cluster.opmem := rfl
@[simp] theorem setKiln_cluster_opBad (k : Nat) (v : Option (SubTile)) : (s.setKiln k v).cluster.opBad = s.cluster.opBad := rfl
@[simp] theorem setKiln_cluster_kctrs (k : Nat) (v : Option (SubTile)) : (s.setKiln k v).cluster.kctrs = s.cluster.kctrs := rfl
@[simp] theorem setKiln_cluster_krecs (k : Nat) (v : Option (SubTile)) : (s.setKiln k v).cluster.krecs = s.cluster.krecs := rfl
@[simp] theorem setKiln_cluster_kports (k : Nat) (v : Option (SubTile)) : (s.setKiln k v).cluster.kports = s.cluster.kports := rfl
@[simp] theorem setKiln_cluster_kstats (k : Nat) (v : Option (SubTile)) : (s.setKiln k v).cluster.kstats = s.cluster.kstats := rfl
@[simp] theorem setKiln_cluster_limits (k : Nat) (v : Option (SubTile)) : (s.setKiln k v).cluster.limits = s.cluster.limits := rfl
@[simp] theorem setKiln_cluster_detectors (k : Nat) (v : Option (SubTile)) : (s.setKiln k v).cluster.detectors = s.cluster.detectors := rfl
@[simp] theorem setKiln_cluster_migrateWait (k : Nat) (v : Option (SubTile)) : (s.setKiln k v).cluster.migrateWait = s.cluster.migrateWait := rfl
@[simp] theorem setKiln_cluster_loaders (k : Nat) (v : Option (SubTile)) : (s.setKiln k v).cluster.loaders = s.cluster.loaders := rfl
@[simp] theorem setKiln_cluster_cfgCache (k : Nat) (v : Option (SubTile)) : (s.setKiln k v).cluster.cfgCache = s.cluster.cfgCache := rfl
theorem setKiln_cluster_kilns (k : Nat) (v : Option (SubTile)) : (s.setKiln k v).cluster.kilns = s.cluster.kilns.put (k) v none := rfl
/-- What `setKiln` wrote is read back. -/
@[simp] theorem kiln_setKiln_same (k : Nat) (v : Option (SubTile)) : (s.setKiln k v).kiln k = v := Map.find_put_same ..
theorem kiln_setKiln_other (k : Nat) (v : Option (SubTile)) (k' : Nat) (hne : k' ≠ k) : (s.setKiln k v).kiln k' = s.kiln k' := Map.find_put_other _ hne ..

@[simp] theorem setKport_unit (k p : Nat) (v : List (Token)) : (s.setKport k p v).unit = s.unit := rfl
@[simp] theorem setKport_router (k p : Nat) (v : List (Token)) : (s.setKport k p v).router = s.router := rfl
@[simp] theorem setKport_core (k p : Nat) (v : List (Token)) : (s.setKport k p v).core = s.core := rfl
@[simp] theorem setKport_sync (k p : Nat) (v : List (Token)) : (s.setKport k p v).sync = s.sync := rfl
@[simp] theorem setKport_mesh (k p : Nat) (v : List (Token)) : (s.setKport k p v).mesh = s.mesh := rfl
@[simp] theorem setKport_mem (k p : Nat) (v : List (Token)) : (s.setKport k p v).mem = s.mem := rfl
@[simp] theorem setKport_die (k p : Nat) (v : List (Token)) : (s.setKport k p v).die = s.die := rfl
@[simp] theorem setKport_hub (k p : Nat) (v : List (Token)) : (s.setKport k p v).hub = s.hub := rfl
@[simp] theorem setKport_sag (k p : Nat) (v : List (Token)) : (s.setKport k p v).sag = s.sag := rfl
@[simp] theorem setKport_fab (k p : Nat) (v : List (Token)) : (s.setKport k p v).fab = s.fab := rfl
@[simp] theorem setKport_agenda (k p : Nat) (v : List (Token)) : (s.setKport k p v).agenda = s.agenda := rfl
@[simp] theorem setKport_free (k p : Nat) (v : List (Token)) : (s.setKport k p v).free = s.free := rfl
@[simp] theorem setKport_now (k p : Nat) (v : List (Token)) : (s.setKport k p v).now = s.now := rfl
@[simp] theorem setKport_cur (k p : Nat) (v : List (Token)) : (s.setKport k p v).cur = s.cur := rfl
@[simp] theorem setKport_act (k p : Nat) (v : List (Token)) : (s.setKport k p v).act = s.act := rfl
@[simp] theorem setKport_cluster_ports (k p : Nat) (v : List (Token)) : (s.setKport k p v).cluster.ports = s.cluster.ports := rfl
@[simp] theorem setKport_cluster_streams (k p : Nat) (v : List (Token)) : (s.setKport k p v).cluster.streams = s.cluster.streams := rfl
@[simp] theorem setKport_cluster_cmds (k p : Nat) (v : List (Token)) : (s.setKport k p v).cluster.cmds = s.cluster.cmds := rfl
@[simp] theorem setKport_cluster_accepted (k p : Nat) (v : List (Token)) : (s.setKport k p v).cluster.accepted = s.cluster.accepted := rfl
@[simp] theorem setKport_cluster_ccs (k p : Nat) (v : List (Token)) : (s.setKport k p v).cluster.ccs = s.cluster.ccs := rfl
@[simp] theorem setKport_cluster_xlat (k p : Nat) (v : List (Token)) : (s.setKport k p v).cluster.xlat = s.cluster.xlat := rfl
@[simp] theorem setKport_cluster_tiles (k p : Nat) (v : List (Token)) : (s.setKport k p v).cluster.tiles = s.cluster.tiles := rfl
@[simp] theorem setKport_cluster_stage (k p : Nat) (v : List (Token)) : (s.setKport k p v).cluster.stage = s.cluster.stage := rfl
@[simp] theorem setKport_cluster_slots (k p : Nat) (v : List (Token)) : (s.setKport k p v).cluster.slots = s.cluster.slots := rfl
@[simp] theorem setKport_cluster_opmem (k p : Nat) (v : List (Token)) : (s.setKport k p v).cluster.opmem = s.cluster.opmem := rfl
@[simp] theorem setKport_cluster_opBad (k p : Nat) (v : List (Token)) : (s.setKport k p v).cluster.opBad = s.cluster.opBad := rfl
@[simp] theorem setKport_cluster_kctrs (k p : Nat) (v : List (Token)) : (s.setKport k p v).cluster.kctrs = s.cluster.kctrs := rfl
@[simp] theorem setKport_cluster_krecs (k p : Nat) (v : List (Token)) : (s.setKport k p v).cluster.krecs = s.cluster.krecs := rfl
@[simp] theorem setKport_cluster_kilns (k p : Nat) (v : List (Token)) : (s.setKport k p v).cluster.kilns = s.cluster.kilns := rfl
@[simp] theorem setKport_cluster_kstats (k p : Nat) (v : List (Token)) : (s.setKport k p v).cluster.kstats = s.cluster.kstats := rfl
@[simp] theorem setKport_cluster_limits (k p : Nat) (v : List (Token)) : (s.setKport k p v).cluster.limits = s.cluster.limits := rfl
@[simp] theorem setKport_cluster_detectors (k p : Nat) (v : List (Token)) : (s.setKport k p v).cluster.detectors = s.cluster.detectors := rfl
@[simp] theorem setKport_cluster_migrateWait (k p : Nat) (v : List (Token)) : (s.setKport k p v).cluster.migrateWait = s.cluster.migrateWait := rfl
@[simp] theorem setKport_cluster_loaders (k p : Nat) (v : List (Token)) : (s.setKport k p v).cluster.loaders = s.cluster.loaders := rfl
@[simp] theorem setKport_cluster_cfgCache (k p : Nat) (v : List (Token)) : (s.setKport k p v).cluster.cfgCache = s.cluster.cfgCache := rfl
theorem setKport_cluster_kports (k p : Nat) (v : List (Token)) : (s.setKport k p v).cluster.kports = s.cluster.kports.put (16 * k + p) v [] := rfl
/-- What `setKport` wrote is read back. -/
@[simp] theorem kport_setKport_same (k p : Nat) (v : List (Token)) : (s.setKport k p v).kport k p = v := Map.find_put_same ..
theorem kport_setKport_other (k p : Nat) (v : List (Token)) (k' p' : Nat) (hne : 16 * k' + p' ≠ 16 * k + p) : (s.setKport k p v).kport k' p' = s.kport k' p' := Map.find_put_other _ hne ..

@[simp] theorem setLimitsOf_unit (g : Nat) (v : Limits) : (s.setLimitsOf g v).unit = s.unit := rfl
@[simp] theorem setLimitsOf_router (g : Nat) (v : Limits) : (s.setLimitsOf g v).router = s.router := rfl
@[simp] theorem setLimitsOf_core (g : Nat) (v : Limits) : (s.setLimitsOf g v).core = s.core := rfl
@[simp] theorem setLimitsOf_sync (g : Nat) (v : Limits) : (s.setLimitsOf g v).sync = s.sync := rfl
@[simp] theorem setLimitsOf_mesh (g : Nat) (v : Limits) : (s.setLimitsOf g v).mesh = s.mesh := rfl
@[simp] theorem setLimitsOf_mem (g : Nat) (v : Limits) : (s.setLimitsOf g v).mem = s.mem := rfl
@[simp] theorem setLimitsOf_die (g : Nat) (v : Limits) : (s.setLimitsOf g v).die = s.die := rfl
@[simp] theorem setLimitsOf_hub (g : Nat) (v : Limits) : (s.setLimitsOf g v).hub = s.hub := rfl
@[simp] theorem setLimitsOf_sag (g : Nat) (v : Limits) : (s.setLimitsOf g v).sag = s.sag := rfl
@[simp] theorem setLimitsOf_fab (g : Nat) (v : Limits) : (s.setLimitsOf g v).fab = s.fab := rfl
@[simp] theorem setLimitsOf_agenda (g : Nat) (v : Limits) : (s.setLimitsOf g v).agenda = s.agenda := rfl
@[simp] theorem setLimitsOf_free (g : Nat) (v : Limits) : (s.setLimitsOf g v).free = s.free := rfl
@[simp] theorem setLimitsOf_now (g : Nat) (v : Limits) : (s.setLimitsOf g v).now = s.now := rfl
@[simp] theorem setLimitsOf_cur (g : Nat) (v : Limits) : (s.setLimitsOf g v).cur = s.cur := rfl
@[simp] theorem setLimitsOf_act (g : Nat) (v : Limits) : (s.setLimitsOf g v).act = s.act := rfl
@[simp] theorem setLimitsOf_cluster_ports (g : Nat) (v : Limits) : (s.setLimitsOf g v).cluster.ports = s.cluster.ports := rfl
@[simp] theorem setLimitsOf_cluster_streams (g : Nat) (v : Limits) : (s.setLimitsOf g v).cluster.streams = s.cluster.streams := rfl
@[simp] theorem setLimitsOf_cluster_cmds (g : Nat) (v : Limits) : (s.setLimitsOf g v).cluster.cmds = s.cluster.cmds := rfl
@[simp] theorem setLimitsOf_cluster_accepted (g : Nat) (v : Limits) : (s.setLimitsOf g v).cluster.accepted = s.cluster.accepted := rfl
@[simp] theorem setLimitsOf_cluster_ccs (g : Nat) (v : Limits) : (s.setLimitsOf g v).cluster.ccs = s.cluster.ccs := rfl
@[simp] theorem setLimitsOf_cluster_xlat (g : Nat) (v : Limits) : (s.setLimitsOf g v).cluster.xlat = s.cluster.xlat := rfl
@[simp] theorem setLimitsOf_cluster_tiles (g : Nat) (v : Limits) : (s.setLimitsOf g v).cluster.tiles = s.cluster.tiles := rfl
@[simp] theorem setLimitsOf_cluster_stage (g : Nat) (v : Limits) : (s.setLimitsOf g v).cluster.stage = s.cluster.stage := rfl
@[simp] theorem setLimitsOf_cluster_slots (g : Nat) (v : Limits) : (s.setLimitsOf g v).cluster.slots = s.cluster.slots := rfl
@[simp] theorem setLimitsOf_cluster_opmem (g : Nat) (v : Limits) : (s.setLimitsOf g v).cluster.opmem = s.cluster.opmem := rfl
@[simp] theorem setLimitsOf_cluster_opBad (g : Nat) (v : Limits) : (s.setLimitsOf g v).cluster.opBad = s.cluster.opBad := rfl
@[simp] theorem setLimitsOf_cluster_kctrs (g : Nat) (v : Limits) : (s.setLimitsOf g v).cluster.kctrs = s.cluster.kctrs := rfl
@[simp] theorem setLimitsOf_cluster_krecs (g : Nat) (v : Limits) : (s.setLimitsOf g v).cluster.krecs = s.cluster.krecs := rfl
@[simp] theorem setLimitsOf_cluster_kilns (g : Nat) (v : Limits) : (s.setLimitsOf g v).cluster.kilns = s.cluster.kilns := rfl
@[simp] theorem setLimitsOf_cluster_kports (g : Nat) (v : Limits) : (s.setLimitsOf g v).cluster.kports = s.cluster.kports := rfl
@[simp] theorem setLimitsOf_cluster_kstats (g : Nat) (v : Limits) : (s.setLimitsOf g v).cluster.kstats = s.cluster.kstats := rfl
@[simp] theorem setLimitsOf_cluster_detectors (g : Nat) (v : Limits) : (s.setLimitsOf g v).cluster.detectors = s.cluster.detectors := rfl
@[simp] theorem setLimitsOf_cluster_migrateWait (g : Nat) (v : Limits) : (s.setLimitsOf g v).cluster.migrateWait = s.cluster.migrateWait := rfl
@[simp] theorem setLimitsOf_cluster_loaders (g : Nat) (v : Limits) : (s.setLimitsOf g v).cluster.loaders = s.cluster.loaders := rfl
@[simp] theorem setLimitsOf_cluster_cfgCache (g : Nat) (v : Limits) : (s.setLimitsOf g v).cluster.cfgCache = s.cluster.cfgCache := rfl
theorem setLimitsOf_cluster_limits (g : Nat) (v : Limits) : (s.setLimitsOf g v).cluster.limits = s.cluster.limits.put (g) v {} := rfl
/-- What `setLimitsOf` wrote is read back. -/
@[simp] theorem limitsOf_setLimitsOf_same (g : Nat) (v : Limits) : (s.setLimitsOf g v).limitsOf g = v := Map.find_put_same ..
theorem limitsOf_setLimitsOf_other (g : Nat) (v : Limits) (g' : Nat) (hne : g' ≠ g) : (s.setLimitsOf g v).limitsOf g' = s.limitsOf g' := Map.find_put_other _ hne ..

@[simp] theorem setKilnDetector_unit (k : Nat) (v : Detector) : (s.setKilnDetector k v).unit = s.unit := rfl
@[simp] theorem setKilnDetector_router (k : Nat) (v : Detector) : (s.setKilnDetector k v).router = s.router := rfl
@[simp] theorem setKilnDetector_core (k : Nat) (v : Detector) : (s.setKilnDetector k v).core = s.core := rfl
@[simp] theorem setKilnDetector_sync (k : Nat) (v : Detector) : (s.setKilnDetector k v).sync = s.sync := rfl
@[simp] theorem setKilnDetector_mesh (k : Nat) (v : Detector) : (s.setKilnDetector k v).mesh = s.mesh := rfl
@[simp] theorem setKilnDetector_mem (k : Nat) (v : Detector) : (s.setKilnDetector k v).mem = s.mem := rfl
@[simp] theorem setKilnDetector_die (k : Nat) (v : Detector) : (s.setKilnDetector k v).die = s.die := rfl
@[simp] theorem setKilnDetector_hub (k : Nat) (v : Detector) : (s.setKilnDetector k v).hub = s.hub := rfl
@[simp] theorem setKilnDetector_sag (k : Nat) (v : Detector) : (s.setKilnDetector k v).sag = s.sag := rfl
@[simp] theorem setKilnDetector_fab (k : Nat) (v : Detector) : (s.setKilnDetector k v).fab = s.fab := rfl
@[simp] theorem setKilnDetector_agenda (k : Nat) (v : Detector) : (s.setKilnDetector k v).agenda = s.agenda := rfl
@[simp] theorem setKilnDetector_free (k : Nat) (v : Detector) : (s.setKilnDetector k v).free = s.free := rfl
@[simp] theorem setKilnDetector_now (k : Nat) (v : Detector) : (s.setKilnDetector k v).now = s.now := rfl
@[simp] theorem setKilnDetector_cur (k : Nat) (v : Detector) : (s.setKilnDetector k v).cur = s.cur := rfl
@[simp] theorem setKilnDetector_act (k : Nat) (v : Detector) : (s.setKilnDetector k v).act = s.act := rfl
@[simp] theorem setKilnDetector_cluster_ports (k : Nat) (v : Detector) : (s.setKilnDetector k v).cluster.ports = s.cluster.ports := rfl
@[simp] theorem setKilnDetector_cluster_streams (k : Nat) (v : Detector) : (s.setKilnDetector k v).cluster.streams = s.cluster.streams := rfl
@[simp] theorem setKilnDetector_cluster_cmds (k : Nat) (v : Detector) : (s.setKilnDetector k v).cluster.cmds = s.cluster.cmds := rfl
@[simp] theorem setKilnDetector_cluster_accepted (k : Nat) (v : Detector) : (s.setKilnDetector k v).cluster.accepted = s.cluster.accepted := rfl
@[simp] theorem setKilnDetector_cluster_ccs (k : Nat) (v : Detector) : (s.setKilnDetector k v).cluster.ccs = s.cluster.ccs := rfl
@[simp] theorem setKilnDetector_cluster_xlat (k : Nat) (v : Detector) : (s.setKilnDetector k v).cluster.xlat = s.cluster.xlat := rfl
@[simp] theorem setKilnDetector_cluster_tiles (k : Nat) (v : Detector) : (s.setKilnDetector k v).cluster.tiles = s.cluster.tiles := rfl
@[simp] theorem setKilnDetector_cluster_stage (k : Nat) (v : Detector) : (s.setKilnDetector k v).cluster.stage = s.cluster.stage := rfl
@[simp] theorem setKilnDetector_cluster_slots (k : Nat) (v : Detector) : (s.setKilnDetector k v).cluster.slots = s.cluster.slots := rfl
@[simp] theorem setKilnDetector_cluster_opmem (k : Nat) (v : Detector) : (s.setKilnDetector k v).cluster.opmem = s.cluster.opmem := rfl
@[simp] theorem setKilnDetector_cluster_opBad (k : Nat) (v : Detector) : (s.setKilnDetector k v).cluster.opBad = s.cluster.opBad := rfl
@[simp] theorem setKilnDetector_cluster_kctrs (k : Nat) (v : Detector) : (s.setKilnDetector k v).cluster.kctrs = s.cluster.kctrs := rfl
@[simp] theorem setKilnDetector_cluster_krecs (k : Nat) (v : Detector) : (s.setKilnDetector k v).cluster.krecs = s.cluster.krecs := rfl
@[simp] theorem setKilnDetector_cluster_kilns (k : Nat) (v : Detector) : (s.setKilnDetector k v).cluster.kilns = s.cluster.kilns := rfl
@[simp] theorem setKilnDetector_cluster_kports (k : Nat) (v : Detector) : (s.setKilnDetector k v).cluster.kports = s.cluster.kports := rfl
@[simp] theorem setKilnDetector_cluster_kstats (k : Nat) (v : Detector) : (s.setKilnDetector k v).cluster.kstats = s.cluster.kstats := rfl
@[simp] theorem setKilnDetector_cluster_limits (k : Nat) (v : Detector) : (s.setKilnDetector k v).cluster.limits = s.cluster.limits := rfl
@[simp] theorem setKilnDetector_cluster_migrateWait (k : Nat) (v : Detector) : (s.setKilnDetector k v).cluster.migrateWait = s.cluster.migrateWait := rfl
@[simp] theorem setKilnDetector_cluster_loaders (k : Nat) (v : Detector) : (s.setKilnDetector k v).cluster.loaders = s.cluster.loaders := rfl
@[simp] theorem setKilnDetector_cluster_cfgCache (k : Nat) (v : Detector) : (s.setKilnDetector k v).cluster.cfgCache = s.cluster.cfgCache := rfl
theorem setKilnDetector_cluster_detectors (k : Nat) (v : Detector) : (s.setKilnDetector k v).cluster.detectors = s.cluster.detectors.put (k) v {} := rfl
/-- What `setKilnDetector` wrote is read back. -/
@[simp] theorem kilnDetector_setKilnDetector_same (k : Nat) (v : Detector) : (s.setKilnDetector k v).kilnDetector k = v := Map.find_put_same ..
theorem kilnDetector_setKilnDetector_other (k : Nat) (v : Detector) (k' : Nat) (hne : k' ≠ k) : (s.setKilnDetector k v).kilnDetector k' = s.kilnDetector k' := Map.find_put_other _ hne ..

@[simp] theorem setMigrateWait_unit (cl : Nat) (v : BitVec 24) : (s.setMigrateWait cl v).unit = s.unit := rfl
@[simp] theorem setMigrateWait_router (cl : Nat) (v : BitVec 24) : (s.setMigrateWait cl v).router = s.router := rfl
@[simp] theorem setMigrateWait_core (cl : Nat) (v : BitVec 24) : (s.setMigrateWait cl v).core = s.core := rfl
@[simp] theorem setMigrateWait_sync (cl : Nat) (v : BitVec 24) : (s.setMigrateWait cl v).sync = s.sync := rfl
@[simp] theorem setMigrateWait_mesh (cl : Nat) (v : BitVec 24) : (s.setMigrateWait cl v).mesh = s.mesh := rfl
@[simp] theorem setMigrateWait_mem (cl : Nat) (v : BitVec 24) : (s.setMigrateWait cl v).mem = s.mem := rfl
@[simp] theorem setMigrateWait_die (cl : Nat) (v : BitVec 24) : (s.setMigrateWait cl v).die = s.die := rfl
@[simp] theorem setMigrateWait_hub (cl : Nat) (v : BitVec 24) : (s.setMigrateWait cl v).hub = s.hub := rfl
@[simp] theorem setMigrateWait_sag (cl : Nat) (v : BitVec 24) : (s.setMigrateWait cl v).sag = s.sag := rfl
@[simp] theorem setMigrateWait_fab (cl : Nat) (v : BitVec 24) : (s.setMigrateWait cl v).fab = s.fab := rfl
@[simp] theorem setMigrateWait_agenda (cl : Nat) (v : BitVec 24) : (s.setMigrateWait cl v).agenda = s.agenda := rfl
@[simp] theorem setMigrateWait_free (cl : Nat) (v : BitVec 24) : (s.setMigrateWait cl v).free = s.free := rfl
@[simp] theorem setMigrateWait_now (cl : Nat) (v : BitVec 24) : (s.setMigrateWait cl v).now = s.now := rfl
@[simp] theorem setMigrateWait_cur (cl : Nat) (v : BitVec 24) : (s.setMigrateWait cl v).cur = s.cur := rfl
@[simp] theorem setMigrateWait_act (cl : Nat) (v : BitVec 24) : (s.setMigrateWait cl v).act = s.act := rfl
@[simp] theorem setMigrateWait_cluster_ports (cl : Nat) (v : BitVec 24) : (s.setMigrateWait cl v).cluster.ports = s.cluster.ports := rfl
@[simp] theorem setMigrateWait_cluster_streams (cl : Nat) (v : BitVec 24) : (s.setMigrateWait cl v).cluster.streams = s.cluster.streams := rfl
@[simp] theorem setMigrateWait_cluster_cmds (cl : Nat) (v : BitVec 24) : (s.setMigrateWait cl v).cluster.cmds = s.cluster.cmds := rfl
@[simp] theorem setMigrateWait_cluster_accepted (cl : Nat) (v : BitVec 24) : (s.setMigrateWait cl v).cluster.accepted = s.cluster.accepted := rfl
@[simp] theorem setMigrateWait_cluster_ccs (cl : Nat) (v : BitVec 24) : (s.setMigrateWait cl v).cluster.ccs = s.cluster.ccs := rfl
@[simp] theorem setMigrateWait_cluster_xlat (cl : Nat) (v : BitVec 24) : (s.setMigrateWait cl v).cluster.xlat = s.cluster.xlat := rfl
@[simp] theorem setMigrateWait_cluster_tiles (cl : Nat) (v : BitVec 24) : (s.setMigrateWait cl v).cluster.tiles = s.cluster.tiles := rfl
@[simp] theorem setMigrateWait_cluster_stage (cl : Nat) (v : BitVec 24) : (s.setMigrateWait cl v).cluster.stage = s.cluster.stage := rfl
@[simp] theorem setMigrateWait_cluster_slots (cl : Nat) (v : BitVec 24) : (s.setMigrateWait cl v).cluster.slots = s.cluster.slots := rfl
@[simp] theorem setMigrateWait_cluster_opmem (cl : Nat) (v : BitVec 24) : (s.setMigrateWait cl v).cluster.opmem = s.cluster.opmem := rfl
@[simp] theorem setMigrateWait_cluster_opBad (cl : Nat) (v : BitVec 24) : (s.setMigrateWait cl v).cluster.opBad = s.cluster.opBad := rfl
@[simp] theorem setMigrateWait_cluster_kctrs (cl : Nat) (v : BitVec 24) : (s.setMigrateWait cl v).cluster.kctrs = s.cluster.kctrs := rfl
@[simp] theorem setMigrateWait_cluster_krecs (cl : Nat) (v : BitVec 24) : (s.setMigrateWait cl v).cluster.krecs = s.cluster.krecs := rfl
@[simp] theorem setMigrateWait_cluster_kilns (cl : Nat) (v : BitVec 24) : (s.setMigrateWait cl v).cluster.kilns = s.cluster.kilns := rfl
@[simp] theorem setMigrateWait_cluster_kports (cl : Nat) (v : BitVec 24) : (s.setMigrateWait cl v).cluster.kports = s.cluster.kports := rfl
@[simp] theorem setMigrateWait_cluster_kstats (cl : Nat) (v : BitVec 24) : (s.setMigrateWait cl v).cluster.kstats = s.cluster.kstats := rfl
@[simp] theorem setMigrateWait_cluster_limits (cl : Nat) (v : BitVec 24) : (s.setMigrateWait cl v).cluster.limits = s.cluster.limits := rfl
@[simp] theorem setMigrateWait_cluster_detectors (cl : Nat) (v : BitVec 24) : (s.setMigrateWait cl v).cluster.detectors = s.cluster.detectors := rfl
@[simp] theorem setMigrateWait_cluster_loaders (cl : Nat) (v : BitVec 24) : (s.setMigrateWait cl v).cluster.loaders = s.cluster.loaders := rfl
@[simp] theorem setMigrateWait_cluster_cfgCache (cl : Nat) (v : BitVec 24) : (s.setMigrateWait cl v).cluster.cfgCache = s.cluster.cfgCache := rfl
theorem setMigrateWait_cluster_migrateWait (cl : Nat) (v : BitVec 24) : (s.setMigrateWait cl v).cluster.migrateWait = s.cluster.migrateWait.put (cl) v 4096 := rfl
/-- What `setMigrateWait` wrote is read back. -/
@[simp] theorem migrateWait_setMigrateWait_same (cl : Nat) (v : BitVec 24) : (s.setMigrateWait cl v).migrateWait cl = v := Map.find_put_same ..
theorem migrateWait_setMigrateWait_other (cl : Nat) (v : BitVec 24) (cl' : Nat) (hne : cl' ≠ cl) : (s.setMigrateWait cl v).migrateWait cl' = s.migrateWait cl' := Map.find_put_other _ hne ..

@[simp] theorem setLoader_unit (cl : Nat) (v : Loader) : (s.setLoader cl v).unit = s.unit := rfl
@[simp] theorem setLoader_router (cl : Nat) (v : Loader) : (s.setLoader cl v).router = s.router := rfl
@[simp] theorem setLoader_core (cl : Nat) (v : Loader) : (s.setLoader cl v).core = s.core := rfl
@[simp] theorem setLoader_sync (cl : Nat) (v : Loader) : (s.setLoader cl v).sync = s.sync := rfl
@[simp] theorem setLoader_mesh (cl : Nat) (v : Loader) : (s.setLoader cl v).mesh = s.mesh := rfl
@[simp] theorem setLoader_mem (cl : Nat) (v : Loader) : (s.setLoader cl v).mem = s.mem := rfl
@[simp] theorem setLoader_die (cl : Nat) (v : Loader) : (s.setLoader cl v).die = s.die := rfl
@[simp] theorem setLoader_hub (cl : Nat) (v : Loader) : (s.setLoader cl v).hub = s.hub := rfl
@[simp] theorem setLoader_sag (cl : Nat) (v : Loader) : (s.setLoader cl v).sag = s.sag := rfl
@[simp] theorem setLoader_fab (cl : Nat) (v : Loader) : (s.setLoader cl v).fab = s.fab := rfl
@[simp] theorem setLoader_agenda (cl : Nat) (v : Loader) : (s.setLoader cl v).agenda = s.agenda := rfl
@[simp] theorem setLoader_free (cl : Nat) (v : Loader) : (s.setLoader cl v).free = s.free := rfl
@[simp] theorem setLoader_now (cl : Nat) (v : Loader) : (s.setLoader cl v).now = s.now := rfl
@[simp] theorem setLoader_cur (cl : Nat) (v : Loader) : (s.setLoader cl v).cur = s.cur := rfl
@[simp] theorem setLoader_act (cl : Nat) (v : Loader) : (s.setLoader cl v).act = s.act := rfl
@[simp] theorem setLoader_cluster_ports (cl : Nat) (v : Loader) : (s.setLoader cl v).cluster.ports = s.cluster.ports := rfl
@[simp] theorem setLoader_cluster_streams (cl : Nat) (v : Loader) : (s.setLoader cl v).cluster.streams = s.cluster.streams := rfl
@[simp] theorem setLoader_cluster_cmds (cl : Nat) (v : Loader) : (s.setLoader cl v).cluster.cmds = s.cluster.cmds := rfl
@[simp] theorem setLoader_cluster_accepted (cl : Nat) (v : Loader) : (s.setLoader cl v).cluster.accepted = s.cluster.accepted := rfl
@[simp] theorem setLoader_cluster_ccs (cl : Nat) (v : Loader) : (s.setLoader cl v).cluster.ccs = s.cluster.ccs := rfl
@[simp] theorem setLoader_cluster_xlat (cl : Nat) (v : Loader) : (s.setLoader cl v).cluster.xlat = s.cluster.xlat := rfl
@[simp] theorem setLoader_cluster_tiles (cl : Nat) (v : Loader) : (s.setLoader cl v).cluster.tiles = s.cluster.tiles := rfl
@[simp] theorem setLoader_cluster_stage (cl : Nat) (v : Loader) : (s.setLoader cl v).cluster.stage = s.cluster.stage := rfl
@[simp] theorem setLoader_cluster_slots (cl : Nat) (v : Loader) : (s.setLoader cl v).cluster.slots = s.cluster.slots := rfl
@[simp] theorem setLoader_cluster_opmem (cl : Nat) (v : Loader) : (s.setLoader cl v).cluster.opmem = s.cluster.opmem := rfl
@[simp] theorem setLoader_cluster_opBad (cl : Nat) (v : Loader) : (s.setLoader cl v).cluster.opBad = s.cluster.opBad := rfl
@[simp] theorem setLoader_cluster_kctrs (cl : Nat) (v : Loader) : (s.setLoader cl v).cluster.kctrs = s.cluster.kctrs := rfl
@[simp] theorem setLoader_cluster_krecs (cl : Nat) (v : Loader) : (s.setLoader cl v).cluster.krecs = s.cluster.krecs := rfl
@[simp] theorem setLoader_cluster_kilns (cl : Nat) (v : Loader) : (s.setLoader cl v).cluster.kilns = s.cluster.kilns := rfl
@[simp] theorem setLoader_cluster_kports (cl : Nat) (v : Loader) : (s.setLoader cl v).cluster.kports = s.cluster.kports := rfl
@[simp] theorem setLoader_cluster_kstats (cl : Nat) (v : Loader) : (s.setLoader cl v).cluster.kstats = s.cluster.kstats := rfl
@[simp] theorem setLoader_cluster_limits (cl : Nat) (v : Loader) : (s.setLoader cl v).cluster.limits = s.cluster.limits := rfl
@[simp] theorem setLoader_cluster_detectors (cl : Nat) (v : Loader) : (s.setLoader cl v).cluster.detectors = s.cluster.detectors := rfl
@[simp] theorem setLoader_cluster_migrateWait (cl : Nat) (v : Loader) : (s.setLoader cl v).cluster.migrateWait = s.cluster.migrateWait := rfl
@[simp] theorem setLoader_cluster_cfgCache (cl : Nat) (v : Loader) : (s.setLoader cl v).cluster.cfgCache = s.cluster.cfgCache := rfl
theorem setLoader_cluster_loaders (cl : Nat) (v : Loader) : (s.setLoader cl v).cluster.loaders = s.cluster.loaders.put (cl) v {} := rfl
/-- What `setLoader` wrote is read back. -/
@[simp] theorem loader_setLoader_same (cl : Nat) (v : Loader) : (s.setLoader cl v).loader cl = v := Map.find_put_same ..
theorem loader_setLoader_other (cl : Nat) (v : Loader) (cl' : Nat) (hne : cl' ≠ cl) : (s.setLoader cl v).loader cl' = s.loader cl' := Map.find_put_other _ hne ..

@[simp] theorem setMeshIn_unit (r i vc : Nat) (v : List (Flit)) : (s.setMeshIn r i vc v).unit = s.unit := rfl
@[simp] theorem setMeshIn_router (r i vc : Nat) (v : List (Flit)) : (s.setMeshIn r i vc v).router = s.router := rfl
@[simp] theorem setMeshIn_core (r i vc : Nat) (v : List (Flit)) : (s.setMeshIn r i vc v).core = s.core := rfl
@[simp] theorem setMeshIn_sync (r i vc : Nat) (v : List (Flit)) : (s.setMeshIn r i vc v).sync = s.sync := rfl
@[simp] theorem setMeshIn_cluster (r i vc : Nat) (v : List (Flit)) : (s.setMeshIn r i vc v).cluster = s.cluster := rfl
@[simp] theorem setMeshIn_mem (r i vc : Nat) (v : List (Flit)) : (s.setMeshIn r i vc v).mem = s.mem := rfl
@[simp] theorem setMeshIn_die (r i vc : Nat) (v : List (Flit)) : (s.setMeshIn r i vc v).die = s.die := rfl
@[simp] theorem setMeshIn_hub (r i vc : Nat) (v : List (Flit)) : (s.setMeshIn r i vc v).hub = s.hub := rfl
@[simp] theorem setMeshIn_sag (r i vc : Nat) (v : List (Flit)) : (s.setMeshIn r i vc v).sag = s.sag := rfl
@[simp] theorem setMeshIn_fab (r i vc : Nat) (v : List (Flit)) : (s.setMeshIn r i vc v).fab = s.fab := rfl
@[simp] theorem setMeshIn_agenda (r i vc : Nat) (v : List (Flit)) : (s.setMeshIn r i vc v).agenda = s.agenda := rfl
@[simp] theorem setMeshIn_free (r i vc : Nat) (v : List (Flit)) : (s.setMeshIn r i vc v).free = s.free := rfl
@[simp] theorem setMeshIn_now (r i vc : Nat) (v : List (Flit)) : (s.setMeshIn r i vc v).now = s.now := rfl
@[simp] theorem setMeshIn_cur (r i vc : Nat) (v : List (Flit)) : (s.setMeshIn r i vc v).cur = s.cur := rfl
@[simp] theorem setMeshIn_act (r i vc : Nat) (v : List (Flit)) : (s.setMeshIn r i vc v).act = s.act := rfl
@[simp] theorem setMeshIn_mesh_outs (r i vc : Nat) (v : List (Flit)) : (s.setMeshIn r i vc v).mesh.outs = s.mesh.outs := rfl
@[simp] theorem setMeshIn_mesh_delivered (r i vc : Nat) (v : List (Flit)) : (s.setMeshIn r i vc v).mesh.delivered = s.mesh.delivered := rfl
theorem setMeshIn_mesh_inputs (r i vc : Nat) (v : List (Flit)) : (s.setMeshIn r i vc v).mesh.inputs = s.mesh.inputs.put ((12 * r + i) * 4 + vc) v [] := rfl
/-- What `setMeshIn` wrote is read back. -/
@[simp] theorem meshIn_setMeshIn_same (r i vc : Nat) (v : List (Flit)) : (s.setMeshIn r i vc v).meshIn r i vc = v := Map.find_put_same ..
theorem meshIn_setMeshIn_other (r i vc : Nat) (v : List (Flit)) (r' i' vc' : Nat) (hne : (12 * r' + i') * 4 + vc' ≠ (12 * r + i) * 4 + vc) : (s.setMeshIn r i vc v).meshIn r' i' vc' = s.meshIn r' i' vc' := Map.find_put_other _ hne ..

@[simp] theorem setMeshOut_unit (r o : Nat) (v : MeshOut) : (s.setMeshOut r o v).unit = s.unit := rfl
@[simp] theorem setMeshOut_router (r o : Nat) (v : MeshOut) : (s.setMeshOut r o v).router = s.router := rfl
@[simp] theorem setMeshOut_core (r o : Nat) (v : MeshOut) : (s.setMeshOut r o v).core = s.core := rfl
@[simp] theorem setMeshOut_sync (r o : Nat) (v : MeshOut) : (s.setMeshOut r o v).sync = s.sync := rfl
@[simp] theorem setMeshOut_cluster (r o : Nat) (v : MeshOut) : (s.setMeshOut r o v).cluster = s.cluster := rfl
@[simp] theorem setMeshOut_mem (r o : Nat) (v : MeshOut) : (s.setMeshOut r o v).mem = s.mem := rfl
@[simp] theorem setMeshOut_die (r o : Nat) (v : MeshOut) : (s.setMeshOut r o v).die = s.die := rfl
@[simp] theorem setMeshOut_hub (r o : Nat) (v : MeshOut) : (s.setMeshOut r o v).hub = s.hub := rfl
@[simp] theorem setMeshOut_sag (r o : Nat) (v : MeshOut) : (s.setMeshOut r o v).sag = s.sag := rfl
@[simp] theorem setMeshOut_fab (r o : Nat) (v : MeshOut) : (s.setMeshOut r o v).fab = s.fab := rfl
@[simp] theorem setMeshOut_agenda (r o : Nat) (v : MeshOut) : (s.setMeshOut r o v).agenda = s.agenda := rfl
@[simp] theorem setMeshOut_free (r o : Nat) (v : MeshOut) : (s.setMeshOut r o v).free = s.free := rfl
@[simp] theorem setMeshOut_now (r o : Nat) (v : MeshOut) : (s.setMeshOut r o v).now = s.now := rfl
@[simp] theorem setMeshOut_cur (r o : Nat) (v : MeshOut) : (s.setMeshOut r o v).cur = s.cur := rfl
@[simp] theorem setMeshOut_act (r o : Nat) (v : MeshOut) : (s.setMeshOut r o v).act = s.act := rfl
@[simp] theorem setMeshOut_mesh_inputs (r o : Nat) (v : MeshOut) : (s.setMeshOut r o v).mesh.inputs = s.mesh.inputs := rfl
@[simp] theorem setMeshOut_mesh_delivered (r o : Nat) (v : MeshOut) : (s.setMeshOut r o v).mesh.delivered = s.mesh.delivered := rfl
theorem setMeshOut_mesh_outs (r o : Nat) (v : MeshOut) : (s.setMeshOut r o v).mesh.outs = s.mesh.outs.put (12 * r + o) v {} := rfl
/-- What `setMeshOut` wrote is read back. -/
@[simp] theorem meshOut_setMeshOut_same (r o : Nat) (v : MeshOut) : (s.setMeshOut r o v).meshOut r o = v := Map.find_put_same ..
theorem meshOut_setMeshOut_other (r o : Nat) (v : MeshOut) (r' o' : Nat) (hne : 12 * r' + o' ≠ 12 * r + o) : (s.setMeshOut r o v).meshOut r' o' = s.meshOut r' o' := Map.find_put_other _ hne ..

@[simp] theorem setMeshDone_unit (r o : Nat) (v : List (Flit)) : (s.setMeshDone r o v).unit = s.unit := rfl
@[simp] theorem setMeshDone_router (r o : Nat) (v : List (Flit)) : (s.setMeshDone r o v).router = s.router := rfl
@[simp] theorem setMeshDone_core (r o : Nat) (v : List (Flit)) : (s.setMeshDone r o v).core = s.core := rfl
@[simp] theorem setMeshDone_sync (r o : Nat) (v : List (Flit)) : (s.setMeshDone r o v).sync = s.sync := rfl
@[simp] theorem setMeshDone_cluster (r o : Nat) (v : List (Flit)) : (s.setMeshDone r o v).cluster = s.cluster := rfl
@[simp] theorem setMeshDone_mem (r o : Nat) (v : List (Flit)) : (s.setMeshDone r o v).mem = s.mem := rfl
@[simp] theorem setMeshDone_die (r o : Nat) (v : List (Flit)) : (s.setMeshDone r o v).die = s.die := rfl
@[simp] theorem setMeshDone_hub (r o : Nat) (v : List (Flit)) : (s.setMeshDone r o v).hub = s.hub := rfl
@[simp] theorem setMeshDone_sag (r o : Nat) (v : List (Flit)) : (s.setMeshDone r o v).sag = s.sag := rfl
@[simp] theorem setMeshDone_fab (r o : Nat) (v : List (Flit)) : (s.setMeshDone r o v).fab = s.fab := rfl
@[simp] theorem setMeshDone_agenda (r o : Nat) (v : List (Flit)) : (s.setMeshDone r o v).agenda = s.agenda := rfl
@[simp] theorem setMeshDone_free (r o : Nat) (v : List (Flit)) : (s.setMeshDone r o v).free = s.free := rfl
@[simp] theorem setMeshDone_now (r o : Nat) (v : List (Flit)) : (s.setMeshDone r o v).now = s.now := rfl
@[simp] theorem setMeshDone_cur (r o : Nat) (v : List (Flit)) : (s.setMeshDone r o v).cur = s.cur := rfl
@[simp] theorem setMeshDone_act (r o : Nat) (v : List (Flit)) : (s.setMeshDone r o v).act = s.act := rfl
@[simp] theorem setMeshDone_mesh_inputs (r o : Nat) (v : List (Flit)) : (s.setMeshDone r o v).mesh.inputs = s.mesh.inputs := rfl
@[simp] theorem setMeshDone_mesh_outs (r o : Nat) (v : List (Flit)) : (s.setMeshDone r o v).mesh.outs = s.mesh.outs := rfl
theorem setMeshDone_mesh_delivered (r o : Nat) (v : List (Flit)) : (s.setMeshDone r o v).mesh.delivered = s.mesh.delivered.put (12 * r + o) v [] := rfl
/-- What `setMeshDone` wrote is read back. -/
@[simp] theorem meshDone_setMeshDone_same (r o : Nat) (v : List (Flit)) : (s.setMeshDone r o v).meshDone r o = v := Map.find_put_same ..
theorem meshDone_setMeshDone_other (r o : Nat) (v : List (Flit)) (r' o' : Nat) (hne : 12 * r' + o' ≠ 12 * r + o) : (s.setMeshDone r o v).meshDone r' o' = s.meshDone r' o' := Map.find_put_other _ hne ..

@[simp] theorem setFrame_unit (f : Nat) (v : Frame) : (s.setFrame f v).unit = s.unit := rfl
@[simp] theorem setFrame_router (f : Nat) (v : Frame) : (s.setFrame f v).router = s.router := rfl
@[simp] theorem setFrame_core (f : Nat) (v : Frame) : (s.setFrame f v).core = s.core := rfl
@[simp] theorem setFrame_sync (f : Nat) (v : Frame) : (s.setFrame f v).sync = s.sync := rfl
@[simp] theorem setFrame_cluster (f : Nat) (v : Frame) : (s.setFrame f v).cluster = s.cluster := rfl
@[simp] theorem setFrame_mesh (f : Nat) (v : Frame) : (s.setFrame f v).mesh = s.mesh := rfl
@[simp] theorem setFrame_die (f : Nat) (v : Frame) : (s.setFrame f v).die = s.die := rfl
@[simp] theorem setFrame_hub (f : Nat) (v : Frame) : (s.setFrame f v).hub = s.hub := rfl
@[simp] theorem setFrame_sag (f : Nat) (v : Frame) : (s.setFrame f v).sag = s.sag := rfl
@[simp] theorem setFrame_fab (f : Nat) (v : Frame) : (s.setFrame f v).fab = s.fab := rfl
@[simp] theorem setFrame_agenda (f : Nat) (v : Frame) : (s.setFrame f v).agenda = s.agenda := rfl
@[simp] theorem setFrame_free (f : Nat) (v : Frame) : (s.setFrame f v).free = s.free := rfl
@[simp] theorem setFrame_now (f : Nat) (v : Frame) : (s.setFrame f v).now = s.now := rfl
@[simp] theorem setFrame_cur (f : Nat) (v : Frame) : (s.setFrame f v).cur = s.cur := rfl
@[simp] theorem setFrame_act (f : Nat) (v : Frame) : (s.setFrame f v).act = s.act := rfl
@[simp] theorem setFrame_mem_bytes (f : Nat) (v : Frame) : (s.setFrame f v).mem.bytes = s.mem.bytes := rfl
@[simp] theorem setFrame_mem_keys (f : Nat) (v : Frame) : (s.setFrame f v).mem.keys = s.mem.keys := rfl
@[simp] theorem setFrame_mem_faults (f : Nat) (v : Frame) : (s.setFrame f v).mem.faults = s.mem.faults := rfl
@[simp] theorem setFrame_mem_parity (f : Nat) (v : Frame) : (s.setFrame f v).mem.parity = s.mem.parity := rfl
@[simp] theorem setFrame_mem_mappedOut (f : Nat) (v : Frame) : (s.setFrame f v).mem.mappedOut = s.mem.mappedOut := rfl
@[simp] theorem setFrame_mem_lostStacks (f : Nat) (v : Frame) : (s.setFrame f v).mem.lostStacks = s.mem.lostStacks := rfl
@[simp] theorem setFrame_mem_registered (f : Nat) (v : Frame) : (s.setFrame f v).mem.registered = s.mem.registered := rfl
@[simp] theorem setFrame_mem_ctrl (f : Nat) (v : Frame) : (s.setFrame f v).mem.ctrl = s.mem.ctrl := rfl
@[simp] theorem setFrame_mem_gather (f : Nat) (v : Frame) : (s.setFrame f v).mem.gather = s.mem.gather := rfl
theorem setFrame_mem_frames (f : Nat) (v : Frame) : (s.setFrame f v).mem.frames = s.mem.frames.put (f) v {} := rfl
/-- What `setFrame` wrote is read back. -/
@[simp] theorem frame_setFrame_same (f : Nat) (v : Frame) : (s.setFrame f v).frame f = v := Map.find_put_same ..
theorem frame_setFrame_other (f : Nat) (v : Frame) (f' : Nat) (hne : f' ≠ f) : (s.setFrame f v).frame f' = s.frame f' := Map.find_put_other _ hne ..

@[simp] theorem setLineFault_unit (l : Nat) (v : LineFault) : (s.setLineFault l v).unit = s.unit := rfl
@[simp] theorem setLineFault_router (l : Nat) (v : LineFault) : (s.setLineFault l v).router = s.router := rfl
@[simp] theorem setLineFault_core (l : Nat) (v : LineFault) : (s.setLineFault l v).core = s.core := rfl
@[simp] theorem setLineFault_sync (l : Nat) (v : LineFault) : (s.setLineFault l v).sync = s.sync := rfl
@[simp] theorem setLineFault_cluster (l : Nat) (v : LineFault) : (s.setLineFault l v).cluster = s.cluster := rfl
@[simp] theorem setLineFault_mesh (l : Nat) (v : LineFault) : (s.setLineFault l v).mesh = s.mesh := rfl
@[simp] theorem setLineFault_die (l : Nat) (v : LineFault) : (s.setLineFault l v).die = s.die := rfl
@[simp] theorem setLineFault_hub (l : Nat) (v : LineFault) : (s.setLineFault l v).hub = s.hub := rfl
@[simp] theorem setLineFault_sag (l : Nat) (v : LineFault) : (s.setLineFault l v).sag = s.sag := rfl
@[simp] theorem setLineFault_fab (l : Nat) (v : LineFault) : (s.setLineFault l v).fab = s.fab := rfl
@[simp] theorem setLineFault_agenda (l : Nat) (v : LineFault) : (s.setLineFault l v).agenda = s.agenda := rfl
@[simp] theorem setLineFault_free (l : Nat) (v : LineFault) : (s.setLineFault l v).free = s.free := rfl
@[simp] theorem setLineFault_now (l : Nat) (v : LineFault) : (s.setLineFault l v).now = s.now := rfl
@[simp] theorem setLineFault_cur (l : Nat) (v : LineFault) : (s.setLineFault l v).cur = s.cur := rfl
@[simp] theorem setLineFault_act (l : Nat) (v : LineFault) : (s.setLineFault l v).act = s.act := rfl
@[simp] theorem setLineFault_mem_bytes (l : Nat) (v : LineFault) : (s.setLineFault l v).mem.bytes = s.mem.bytes := rfl
@[simp] theorem setLineFault_mem_keys (l : Nat) (v : LineFault) : (s.setLineFault l v).mem.keys = s.mem.keys := rfl
@[simp] theorem setLineFault_mem_frames (l : Nat) (v : LineFault) : (s.setLineFault l v).mem.frames = s.mem.frames := rfl
@[simp] theorem setLineFault_mem_parity (l : Nat) (v : LineFault) : (s.setLineFault l v).mem.parity = s.mem.parity := rfl
@[simp] theorem setLineFault_mem_mappedOut (l : Nat) (v : LineFault) : (s.setLineFault l v).mem.mappedOut = s.mem.mappedOut := rfl
@[simp] theorem setLineFault_mem_lostStacks (l : Nat) (v : LineFault) : (s.setLineFault l v).mem.lostStacks = s.mem.lostStacks := rfl
@[simp] theorem setLineFault_mem_registered (l : Nat) (v : LineFault) : (s.setLineFault l v).mem.registered = s.mem.registered := rfl
@[simp] theorem setLineFault_mem_ctrl (l : Nat) (v : LineFault) : (s.setLineFault l v).mem.ctrl = s.mem.ctrl := rfl
@[simp] theorem setLineFault_mem_gather (l : Nat) (v : LineFault) : (s.setLineFault l v).mem.gather = s.mem.gather := rfl
theorem setLineFault_mem_faults (l : Nat) (v : LineFault) : (s.setLineFault l v).mem.faults = s.mem.faults.put (l) v .good := rfl
/-- What `setLineFault` wrote is read back. -/
@[simp] theorem lineFault_setLineFault_same (l : Nat) (v : LineFault) : (s.setLineFault l v).lineFault l = v := Map.find_put_same ..
theorem lineFault_setLineFault_other (l : Nat) (v : LineFault) (l' : Nat) (hne : l' ≠ l) : (s.setLineFault l v).lineFault l' = s.lineFault l' := Map.find_put_other _ hne ..

@[simp] theorem setCtrlQ_unit (k : Nat) (v : List (CtrlReq)) : (s.setCtrlQ k v).unit = s.unit := rfl
@[simp] theorem setCtrlQ_router (k : Nat) (v : List (CtrlReq)) : (s.setCtrlQ k v).router = s.router := rfl
@[simp] theorem setCtrlQ_core (k : Nat) (v : List (CtrlReq)) : (s.setCtrlQ k v).core = s.core := rfl
@[simp] theorem setCtrlQ_sync (k : Nat) (v : List (CtrlReq)) : (s.setCtrlQ k v).sync = s.sync := rfl
@[simp] theorem setCtrlQ_cluster (k : Nat) (v : List (CtrlReq)) : (s.setCtrlQ k v).cluster = s.cluster := rfl
@[simp] theorem setCtrlQ_mesh (k : Nat) (v : List (CtrlReq)) : (s.setCtrlQ k v).mesh = s.mesh := rfl
@[simp] theorem setCtrlQ_die (k : Nat) (v : List (CtrlReq)) : (s.setCtrlQ k v).die = s.die := rfl
@[simp] theorem setCtrlQ_hub (k : Nat) (v : List (CtrlReq)) : (s.setCtrlQ k v).hub = s.hub := rfl
@[simp] theorem setCtrlQ_sag (k : Nat) (v : List (CtrlReq)) : (s.setCtrlQ k v).sag = s.sag := rfl
@[simp] theorem setCtrlQ_fab (k : Nat) (v : List (CtrlReq)) : (s.setCtrlQ k v).fab = s.fab := rfl
@[simp] theorem setCtrlQ_agenda (k : Nat) (v : List (CtrlReq)) : (s.setCtrlQ k v).agenda = s.agenda := rfl
@[simp] theorem setCtrlQ_free (k : Nat) (v : List (CtrlReq)) : (s.setCtrlQ k v).free = s.free := rfl
@[simp] theorem setCtrlQ_now (k : Nat) (v : List (CtrlReq)) : (s.setCtrlQ k v).now = s.now := rfl
@[simp] theorem setCtrlQ_cur (k : Nat) (v : List (CtrlReq)) : (s.setCtrlQ k v).cur = s.cur := rfl
@[simp] theorem setCtrlQ_act (k : Nat) (v : List (CtrlReq)) : (s.setCtrlQ k v).act = s.act := rfl
@[simp] theorem setCtrlQ_mem_bytes (k : Nat) (v : List (CtrlReq)) : (s.setCtrlQ k v).mem.bytes = s.mem.bytes := rfl
@[simp] theorem setCtrlQ_mem_keys (k : Nat) (v : List (CtrlReq)) : (s.setCtrlQ k v).mem.keys = s.mem.keys := rfl
@[simp] theorem setCtrlQ_mem_faults (k : Nat) (v : List (CtrlReq)) : (s.setCtrlQ k v).mem.faults = s.mem.faults := rfl
@[simp] theorem setCtrlQ_mem_frames (k : Nat) (v : List (CtrlReq)) : (s.setCtrlQ k v).mem.frames = s.mem.frames := rfl
@[simp] theorem setCtrlQ_mem_parity (k : Nat) (v : List (CtrlReq)) : (s.setCtrlQ k v).mem.parity = s.mem.parity := rfl
@[simp] theorem setCtrlQ_mem_mappedOut (k : Nat) (v : List (CtrlReq)) : (s.setCtrlQ k v).mem.mappedOut = s.mem.mappedOut := rfl
@[simp] theorem setCtrlQ_mem_lostStacks (k : Nat) (v : List (CtrlReq)) : (s.setCtrlQ k v).mem.lostStacks = s.mem.lostStacks := rfl
@[simp] theorem setCtrlQ_mem_registered (k : Nat) (v : List (CtrlReq)) : (s.setCtrlQ k v).mem.registered = s.mem.registered := rfl
@[simp] theorem setCtrlQ_mem_gather (k : Nat) (v : List (CtrlReq)) : (s.setCtrlQ k v).mem.gather = s.mem.gather := rfl
theorem setCtrlQ_mem_ctrl (k : Nat) (v : List (CtrlReq)) : (s.setCtrlQ k v).mem.ctrl = s.mem.ctrl.put (k) v [] := rfl
/-- What `setCtrlQ` wrote is read back. -/
@[simp] theorem ctrlQ_setCtrlQ_same (k : Nat) (v : List (CtrlReq)) : (s.setCtrlQ k v).ctrlQ k = v := Map.find_put_same ..
theorem ctrlQ_setCtrlQ_other (k : Nat) (v : List (CtrlReq)) (k' : Nat) (hne : k' ≠ k) : (s.setCtrlQ k v).ctrlQ k' = s.ctrlQ k' := Map.find_put_other _ hne ..

@[simp] theorem setGatherQ_unit (k : Nat) (v : List (GatherReq)) : (s.setGatherQ k v).unit = s.unit := rfl
@[simp] theorem setGatherQ_router (k : Nat) (v : List (GatherReq)) : (s.setGatherQ k v).router = s.router := rfl
@[simp] theorem setGatherQ_core (k : Nat) (v : List (GatherReq)) : (s.setGatherQ k v).core = s.core := rfl
@[simp] theorem setGatherQ_sync (k : Nat) (v : List (GatherReq)) : (s.setGatherQ k v).sync = s.sync := rfl
@[simp] theorem setGatherQ_cluster (k : Nat) (v : List (GatherReq)) : (s.setGatherQ k v).cluster = s.cluster := rfl
@[simp] theorem setGatherQ_mesh (k : Nat) (v : List (GatherReq)) : (s.setGatherQ k v).mesh = s.mesh := rfl
@[simp] theorem setGatherQ_die (k : Nat) (v : List (GatherReq)) : (s.setGatherQ k v).die = s.die := rfl
@[simp] theorem setGatherQ_hub (k : Nat) (v : List (GatherReq)) : (s.setGatherQ k v).hub = s.hub := rfl
@[simp] theorem setGatherQ_sag (k : Nat) (v : List (GatherReq)) : (s.setGatherQ k v).sag = s.sag := rfl
@[simp] theorem setGatherQ_fab (k : Nat) (v : List (GatherReq)) : (s.setGatherQ k v).fab = s.fab := rfl
@[simp] theorem setGatherQ_agenda (k : Nat) (v : List (GatherReq)) : (s.setGatherQ k v).agenda = s.agenda := rfl
@[simp] theorem setGatherQ_free (k : Nat) (v : List (GatherReq)) : (s.setGatherQ k v).free = s.free := rfl
@[simp] theorem setGatherQ_now (k : Nat) (v : List (GatherReq)) : (s.setGatherQ k v).now = s.now := rfl
@[simp] theorem setGatherQ_cur (k : Nat) (v : List (GatherReq)) : (s.setGatherQ k v).cur = s.cur := rfl
@[simp] theorem setGatherQ_act (k : Nat) (v : List (GatherReq)) : (s.setGatherQ k v).act = s.act := rfl
@[simp] theorem setGatherQ_mem_bytes (k : Nat) (v : List (GatherReq)) : (s.setGatherQ k v).mem.bytes = s.mem.bytes := rfl
@[simp] theorem setGatherQ_mem_keys (k : Nat) (v : List (GatherReq)) : (s.setGatherQ k v).mem.keys = s.mem.keys := rfl
@[simp] theorem setGatherQ_mem_faults (k : Nat) (v : List (GatherReq)) : (s.setGatherQ k v).mem.faults = s.mem.faults := rfl
@[simp] theorem setGatherQ_mem_frames (k : Nat) (v : List (GatherReq)) : (s.setGatherQ k v).mem.frames = s.mem.frames := rfl
@[simp] theorem setGatherQ_mem_parity (k : Nat) (v : List (GatherReq)) : (s.setGatherQ k v).mem.parity = s.mem.parity := rfl
@[simp] theorem setGatherQ_mem_mappedOut (k : Nat) (v : List (GatherReq)) : (s.setGatherQ k v).mem.mappedOut = s.mem.mappedOut := rfl
@[simp] theorem setGatherQ_mem_lostStacks (k : Nat) (v : List (GatherReq)) : (s.setGatherQ k v).mem.lostStacks = s.mem.lostStacks := rfl
@[simp] theorem setGatherQ_mem_registered (k : Nat) (v : List (GatherReq)) : (s.setGatherQ k v).mem.registered = s.mem.registered := rfl
@[simp] theorem setGatherQ_mem_ctrl (k : Nat) (v : List (GatherReq)) : (s.setGatherQ k v).mem.ctrl = s.mem.ctrl := rfl
theorem setGatherQ_mem_gather (k : Nat) (v : List (GatherReq)) : (s.setGatherQ k v).mem.gather = s.mem.gather.put (k) v [] := rfl
/-- What `setGatherQ` wrote is read back. -/
@[simp] theorem gatherQ_setGatherQ_same (k : Nat) (v : List (GatherReq)) : (s.setGatherQ k v).gatherQ k = v := Map.find_put_same ..
theorem gatherQ_setGatherQ_other (k : Nat) (v : List (GatherReq)) (k' : Nat) (hne : k' ≠ k) : (s.setGatherQ k v).gatherQ k' = s.gatherQ k' := Map.find_put_other _ hne ..

@[simp] theorem setDieOf_unit (d : Nat) (v : Die) : (s.setDieOf d v).unit = s.unit := rfl
@[simp] theorem setDieOf_router (d : Nat) (v : Die) : (s.setDieOf d v).router = s.router := rfl
@[simp] theorem setDieOf_core (d : Nat) (v : Die) : (s.setDieOf d v).core = s.core := rfl
@[simp] theorem setDieOf_sync (d : Nat) (v : Die) : (s.setDieOf d v).sync = s.sync := rfl
@[simp] theorem setDieOf_cluster (d : Nat) (v : Die) : (s.setDieOf d v).cluster = s.cluster := rfl
@[simp] theorem setDieOf_mesh (d : Nat) (v : Die) : (s.setDieOf d v).mesh = s.mesh := rfl
@[simp] theorem setDieOf_mem (d : Nat) (v : Die) : (s.setDieOf d v).mem = s.mem := rfl
@[simp] theorem setDieOf_hub (d : Nat) (v : Die) : (s.setDieOf d v).hub = s.hub := rfl
@[simp] theorem setDieOf_sag (d : Nat) (v : Die) : (s.setDieOf d v).sag = s.sag := rfl
@[simp] theorem setDieOf_fab (d : Nat) (v : Die) : (s.setDieOf d v).fab = s.fab := rfl
@[simp] theorem setDieOf_agenda (d : Nat) (v : Die) : (s.setDieOf d v).agenda = s.agenda := rfl
@[simp] theorem setDieOf_free (d : Nat) (v : Die) : (s.setDieOf d v).free = s.free := rfl
@[simp] theorem setDieOf_now (d : Nat) (v : Die) : (s.setDieOf d v).now = s.now := rfl
@[simp] theorem setDieOf_cur (d : Nat) (v : Die) : (s.setDieOf d v).cur = s.cur := rfl
@[simp] theorem setDieOf_act (d : Nat) (v : Die) : (s.setDieOf d v).act = s.act := rfl
@[simp] theorem setDieOf_die_parts (d : Nat) (v : Die) : (s.setDieOf d v).die.parts = s.die.parts := rfl
@[simp] theorem setDieOf_die_tables (d : Nat) (v : Die) : (s.setDieOf d v).die.tables = s.die.tables := rfl
theorem setDieOf_die_dies (d : Nat) (v : Die) : (s.setDieOf d v).die.dies = s.die.dies.put (d) v {} := rfl
/-- What `setDieOf` wrote is read back. -/
@[simp] theorem dieOf_setDieOf_same (d : Nat) (v : Die) : (s.setDieOf d v).dieOf d = v := Map.find_put_same ..
theorem dieOf_setDieOf_other (d : Nat) (v : Die) (d' : Nat) (hne : d' ≠ d) : (s.setDieOf d v).dieOf d' = s.dieOf d' := Map.find_put_other _ hne ..

@[simp] theorem setCtx_unit (dom : Nat) (v : Ctx) : (s.setCtx dom v).unit = s.unit := rfl
@[simp] theorem setCtx_router (dom : Nat) (v : Ctx) : (s.setCtx dom v).router = s.router := rfl
@[simp] theorem setCtx_core (dom : Nat) (v : Ctx) : (s.setCtx dom v).core = s.core := rfl
@[simp] theorem setCtx_sync (dom : Nat) (v : Ctx) : (s.setCtx dom v).sync = s.sync := rfl
@[simp] theorem setCtx_cluster (dom : Nat) (v : Ctx) : (s.setCtx dom v).cluster = s.cluster := rfl
@[simp] theorem setCtx_mesh (dom : Nat) (v : Ctx) : (s.setCtx dom v).mesh = s.mesh := rfl
@[simp] theorem setCtx_mem (dom : Nat) (v : Ctx) : (s.setCtx dom v).mem = s.mem := rfl
@[simp] theorem setCtx_die (dom : Nat) (v : Ctx) : (s.setCtx dom v).die = s.die := rfl
@[simp] theorem setCtx_sag (dom : Nat) (v : Ctx) : (s.setCtx dom v).sag = s.sag := rfl
@[simp] theorem setCtx_fab (dom : Nat) (v : Ctx) : (s.setCtx dom v).fab = s.fab := rfl
@[simp] theorem setCtx_agenda (dom : Nat) (v : Ctx) : (s.setCtx dom v).agenda = s.agenda := rfl
@[simp] theorem setCtx_free (dom : Nat) (v : Ctx) : (s.setCtx dom v).free = s.free := rfl
@[simp] theorem setCtx_now (dom : Nat) (v : Ctx) : (s.setCtx dom v).now = s.now := rfl
@[simp] theorem setCtx_cur (dom : Nat) (v : Ctx) : (s.setCtx dom v).cur = s.cur := rfl
@[simp] theorem setCtx_act (dom : Nat) (v : Ctx) : (s.setCtx dom v).act = s.act := rfl
@[simp] theorem setCtx_hub_funcs (dom : Nat) (v : Ctx) : (s.setCtx dom v).hub.funcs = s.hub.funcs := rfl
@[simp] theorem setCtx_hub_log (dom : Nat) (v : Ctx) : (s.setCtx dom v).hub.log = s.hub.log := rfl
@[simp] theorem setCtx_hub_traps (dom : Nat) (v : Ctx) : (s.setCtx dom v).hub.traps = s.hub.traps := rfl
@[simp] theorem setCtx_hub_lateTraps (dom : Nat) (v : Ctx) : (s.setCtx dom v).hub.lateTraps = s.hub.lateTraps := rfl
@[simp] theorem setCtx_hub_heldTraps (dom : Nat) (v : Ctx) : (s.setCtx dom v).hub.heldTraps = s.hub.heldTraps := rfl
@[simp] theorem setCtx_hub_heldLost (dom : Nat) (v : Ctx) : (s.setCtx dom v).hub.heldLost = s.hub.heldLost := rfl
@[simp] theorem setCtx_hub_sag (dom : Nat) (v : Ctx) : (s.setCtx dom v).hub.sag = s.hub.sag := rfl
@[simp] theorem setCtx_hub_saveReqs (dom : Nat) (v : Ctx) : (s.setCtx dom v).hub.saveReqs = s.hub.saveReqs := rfl
@[simp] theorem setCtx_hub_wdogDflt (dom : Nat) (v : Ctx) : (s.setCtx dom v).hub.wdogDflt = s.hub.wdogDflt := rfl
@[simp] theorem setCtx_hub_linkhold (dom : Nat) (v : Ctx) : (s.setCtx dom v).hub.linkhold = s.hub.linkhold := rfl
@[simp] theorem setCtx_hub_rings (dom : Nat) (v : Ctx) : (s.setCtx dom v).hub.rings = s.hub.rings := rfl
@[simp] theorem setCtx_hub_linkUp (dom : Nat) (v : Ctx) : (s.setCtx dom v).hub.linkUp = s.hub.linkUp := rfl
@[simp] theorem setCtx_hub_powerDown (dom : Nat) (v : Ctx) : (s.setCtx dom v).hub.powerDown = s.hub.powerDown := rfl
@[simp] theorem setCtx_hub_holdAt (dom : Nat) (v : Ctx) : (s.setCtx dom v).hub.holdAt = s.hub.holdAt := rfl
@[simp] theorem setCtx_hub_dropped (dom : Nat) (v : Ctx) : (s.setCtx dom v).hub.dropped = s.hub.dropped := rfl
@[simp] theorem setCtx_hub_exch (dom : Nat) (v : Ctx) : (s.setCtx dom v).hub.exch = s.hub.exch := rfl
@[simp] theorem setCtx_hub_released (dom : Nat) (v : Ctx) : (s.setCtx dom v).hub.released = s.hub.released := rfl
@[simp] theorem setCtx_hub_msix (dom : Nat) (v : Ctx) : (s.setCtx dom v).hub.msix = s.hub.msix := rfl
@[simp] theorem setCtx_hub_readData (dom : Nat) (v : Ctx) : (s.setCtx dom v).hub.readData = s.hub.readData := rfl
@[simp] theorem setCtx_hub_sideband (dom : Nat) (v : Ctx) : (s.setCtx dom v).hub.sideband = s.hub.sideband := rfl
@[simp] theorem setCtx_hub_vfEnable (dom : Nat) (v : Ctx) : (s.setCtx dom v).hub.vfEnable = s.hub.vfEnable := rfl
@[simp] theorem setCtx_hub_numVfs (dom : Nat) (v : Ctx) : (s.setCtx dom v).hub.numVfs = s.hub.numVfs := rfl
@[simp] theorem setCtx_hub_linkRate (dom : Nat) (v : Ctx) : (s.setCtx dom v).hub.linkRate = s.hub.linkRate := rfl
@[simp] theorem setCtx_hub_judged (dom : Nat) (v : Ctx) : (s.setCtx dom v).hub.judged = s.hub.judged := rfl
theorem setCtx_hub_ctxs (dom : Nat) (v : Ctx) : (s.setCtx dom v).hub.ctxs = s.hub.ctxs.put (dom) v {} := rfl
/-- What `setCtx` wrote is read back. -/
@[simp] theorem ctx_setCtx_same (dom : Nat) (v : Ctx) : (s.setCtx dom v).ctx dom = v := Map.find_put_same ..
theorem ctx_setCtx_other (dom : Nat) (v : Ctx) (dom' : Nat) (hne : dom' ≠ dom) : (s.setCtx dom v).ctx dom' = s.ctx dom' := Map.find_put_other _ hne ..

@[simp] theorem setFunc_unit (f : Nat) (v : Func) : (s.setFunc f v).unit = s.unit := rfl
@[simp] theorem setFunc_router (f : Nat) (v : Func) : (s.setFunc f v).router = s.router := rfl
@[simp] theorem setFunc_core (f : Nat) (v : Func) : (s.setFunc f v).core = s.core := rfl
@[simp] theorem setFunc_sync (f : Nat) (v : Func) : (s.setFunc f v).sync = s.sync := rfl
@[simp] theorem setFunc_cluster (f : Nat) (v : Func) : (s.setFunc f v).cluster = s.cluster := rfl
@[simp] theorem setFunc_mesh (f : Nat) (v : Func) : (s.setFunc f v).mesh = s.mesh := rfl
@[simp] theorem setFunc_mem (f : Nat) (v : Func) : (s.setFunc f v).mem = s.mem := rfl
@[simp] theorem setFunc_die (f : Nat) (v : Func) : (s.setFunc f v).die = s.die := rfl
@[simp] theorem setFunc_sag (f : Nat) (v : Func) : (s.setFunc f v).sag = s.sag := rfl
@[simp] theorem setFunc_fab (f : Nat) (v : Func) : (s.setFunc f v).fab = s.fab := rfl
@[simp] theorem setFunc_agenda (f : Nat) (v : Func) : (s.setFunc f v).agenda = s.agenda := rfl
@[simp] theorem setFunc_free (f : Nat) (v : Func) : (s.setFunc f v).free = s.free := rfl
@[simp] theorem setFunc_now (f : Nat) (v : Func) : (s.setFunc f v).now = s.now := rfl
@[simp] theorem setFunc_cur (f : Nat) (v : Func) : (s.setFunc f v).cur = s.cur := rfl
@[simp] theorem setFunc_act (f : Nat) (v : Func) : (s.setFunc f v).act = s.act := rfl
@[simp] theorem setFunc_hub_ctxs (f : Nat) (v : Func) : (s.setFunc f v).hub.ctxs = s.hub.ctxs := rfl
@[simp] theorem setFunc_hub_log (f : Nat) (v : Func) : (s.setFunc f v).hub.log = s.hub.log := rfl
@[simp] theorem setFunc_hub_traps (f : Nat) (v : Func) : (s.setFunc f v).hub.traps = s.hub.traps := rfl
@[simp] theorem setFunc_hub_lateTraps (f : Nat) (v : Func) : (s.setFunc f v).hub.lateTraps = s.hub.lateTraps := rfl
@[simp] theorem setFunc_hub_heldTraps (f : Nat) (v : Func) : (s.setFunc f v).hub.heldTraps = s.hub.heldTraps := rfl
@[simp] theorem setFunc_hub_heldLost (f : Nat) (v : Func) : (s.setFunc f v).hub.heldLost = s.hub.heldLost := rfl
@[simp] theorem setFunc_hub_sag (f : Nat) (v : Func) : (s.setFunc f v).hub.sag = s.hub.sag := rfl
@[simp] theorem setFunc_hub_saveReqs (f : Nat) (v : Func) : (s.setFunc f v).hub.saveReqs = s.hub.saveReqs := rfl
@[simp] theorem setFunc_hub_wdogDflt (f : Nat) (v : Func) : (s.setFunc f v).hub.wdogDflt = s.hub.wdogDflt := rfl
@[simp] theorem setFunc_hub_linkhold (f : Nat) (v : Func) : (s.setFunc f v).hub.linkhold = s.hub.linkhold := rfl
@[simp] theorem setFunc_hub_rings (f : Nat) (v : Func) : (s.setFunc f v).hub.rings = s.hub.rings := rfl
@[simp] theorem setFunc_hub_linkUp (f : Nat) (v : Func) : (s.setFunc f v).hub.linkUp = s.hub.linkUp := rfl
@[simp] theorem setFunc_hub_powerDown (f : Nat) (v : Func) : (s.setFunc f v).hub.powerDown = s.hub.powerDown := rfl
@[simp] theorem setFunc_hub_holdAt (f : Nat) (v : Func) : (s.setFunc f v).hub.holdAt = s.hub.holdAt := rfl
@[simp] theorem setFunc_hub_dropped (f : Nat) (v : Func) : (s.setFunc f v).hub.dropped = s.hub.dropped := rfl
@[simp] theorem setFunc_hub_exch (f : Nat) (v : Func) : (s.setFunc f v).hub.exch = s.hub.exch := rfl
@[simp] theorem setFunc_hub_released (f : Nat) (v : Func) : (s.setFunc f v).hub.released = s.hub.released := rfl
@[simp] theorem setFunc_hub_msix (f : Nat) (v : Func) : (s.setFunc f v).hub.msix = s.hub.msix := rfl
@[simp] theorem setFunc_hub_readData (f : Nat) (v : Func) : (s.setFunc f v).hub.readData = s.hub.readData := rfl
@[simp] theorem setFunc_hub_sideband (f : Nat) (v : Func) : (s.setFunc f v).hub.sideband = s.hub.sideband := rfl
@[simp] theorem setFunc_hub_vfEnable (f : Nat) (v : Func) : (s.setFunc f v).hub.vfEnable = s.hub.vfEnable := rfl
@[simp] theorem setFunc_hub_numVfs (f : Nat) (v : Func) : (s.setFunc f v).hub.numVfs = s.hub.numVfs := rfl
@[simp] theorem setFunc_hub_linkRate (f : Nat) (v : Func) : (s.setFunc f v).hub.linkRate = s.hub.linkRate := rfl
@[simp] theorem setFunc_hub_judged (f : Nat) (v : Func) : (s.setFunc f v).hub.judged = s.hub.judged := rfl
theorem setFunc_hub_funcs (f : Nat) (v : Func) : (s.setFunc f v).hub.funcs = s.hub.funcs.put (f) v {} := rfl
/-- What `setFunc` wrote is read back. -/
@[simp] theorem func_setFunc_same (f : Nat) (v : Func) : (s.setFunc f v).func f = v := Map.find_put_same ..
theorem func_setFunc_other (f : Nat) (v : Func) (f' : Nat) (hne : f' ≠ f) : (s.setFunc f v).func f' = s.func f' := Map.find_put_other _ hne ..

@[simp] theorem setRing_unit (r : Nat) (v : Ring) : (s.setRing r v).unit = s.unit := rfl
@[simp] theorem setRing_router (r : Nat) (v : Ring) : (s.setRing r v).router = s.router := rfl
@[simp] theorem setRing_core (r : Nat) (v : Ring) : (s.setRing r v).core = s.core := rfl
@[simp] theorem setRing_sync (r : Nat) (v : Ring) : (s.setRing r v).sync = s.sync := rfl
@[simp] theorem setRing_cluster (r : Nat) (v : Ring) : (s.setRing r v).cluster = s.cluster := rfl
@[simp] theorem setRing_mesh (r : Nat) (v : Ring) : (s.setRing r v).mesh = s.mesh := rfl
@[simp] theorem setRing_mem (r : Nat) (v : Ring) : (s.setRing r v).mem = s.mem := rfl
@[simp] theorem setRing_die (r : Nat) (v : Ring) : (s.setRing r v).die = s.die := rfl
@[simp] theorem setRing_sag (r : Nat) (v : Ring) : (s.setRing r v).sag = s.sag := rfl
@[simp] theorem setRing_fab (r : Nat) (v : Ring) : (s.setRing r v).fab = s.fab := rfl
@[simp] theorem setRing_agenda (r : Nat) (v : Ring) : (s.setRing r v).agenda = s.agenda := rfl
@[simp] theorem setRing_free (r : Nat) (v : Ring) : (s.setRing r v).free = s.free := rfl
@[simp] theorem setRing_now (r : Nat) (v : Ring) : (s.setRing r v).now = s.now := rfl
@[simp] theorem setRing_cur (r : Nat) (v : Ring) : (s.setRing r v).cur = s.cur := rfl
@[simp] theorem setRing_act (r : Nat) (v : Ring) : (s.setRing r v).act = s.act := rfl
@[simp] theorem setRing_hub_ctxs (r : Nat) (v : Ring) : (s.setRing r v).hub.ctxs = s.hub.ctxs := rfl
@[simp] theorem setRing_hub_funcs (r : Nat) (v : Ring) : (s.setRing r v).hub.funcs = s.hub.funcs := rfl
@[simp] theorem setRing_hub_log (r : Nat) (v : Ring) : (s.setRing r v).hub.log = s.hub.log := rfl
@[simp] theorem setRing_hub_traps (r : Nat) (v : Ring) : (s.setRing r v).hub.traps = s.hub.traps := rfl
@[simp] theorem setRing_hub_lateTraps (r : Nat) (v : Ring) : (s.setRing r v).hub.lateTraps = s.hub.lateTraps := rfl
@[simp] theorem setRing_hub_heldTraps (r : Nat) (v : Ring) : (s.setRing r v).hub.heldTraps = s.hub.heldTraps := rfl
@[simp] theorem setRing_hub_heldLost (r : Nat) (v : Ring) : (s.setRing r v).hub.heldLost = s.hub.heldLost := rfl
@[simp] theorem setRing_hub_sag (r : Nat) (v : Ring) : (s.setRing r v).hub.sag = s.hub.sag := rfl
@[simp] theorem setRing_hub_saveReqs (r : Nat) (v : Ring) : (s.setRing r v).hub.saveReqs = s.hub.saveReqs := rfl
@[simp] theorem setRing_hub_wdogDflt (r : Nat) (v : Ring) : (s.setRing r v).hub.wdogDflt = s.hub.wdogDflt := rfl
@[simp] theorem setRing_hub_linkhold (r : Nat) (v : Ring) : (s.setRing r v).hub.linkhold = s.hub.linkhold := rfl
@[simp] theorem setRing_hub_linkUp (r : Nat) (v : Ring) : (s.setRing r v).hub.linkUp = s.hub.linkUp := rfl
@[simp] theorem setRing_hub_powerDown (r : Nat) (v : Ring) : (s.setRing r v).hub.powerDown = s.hub.powerDown := rfl
@[simp] theorem setRing_hub_holdAt (r : Nat) (v : Ring) : (s.setRing r v).hub.holdAt = s.hub.holdAt := rfl
@[simp] theorem setRing_hub_dropped (r : Nat) (v : Ring) : (s.setRing r v).hub.dropped = s.hub.dropped := rfl
@[simp] theorem setRing_hub_exch (r : Nat) (v : Ring) : (s.setRing r v).hub.exch = s.hub.exch := rfl
@[simp] theorem setRing_hub_released (r : Nat) (v : Ring) : (s.setRing r v).hub.released = s.hub.released := rfl
@[simp] theorem setRing_hub_msix (r : Nat) (v : Ring) : (s.setRing r v).hub.msix = s.hub.msix := rfl
@[simp] theorem setRing_hub_readData (r : Nat) (v : Ring) : (s.setRing r v).hub.readData = s.hub.readData := rfl
@[simp] theorem setRing_hub_sideband (r : Nat) (v : Ring) : (s.setRing r v).hub.sideband = s.hub.sideband := rfl
@[simp] theorem setRing_hub_vfEnable (r : Nat) (v : Ring) : (s.setRing r v).hub.vfEnable = s.hub.vfEnable := rfl
@[simp] theorem setRing_hub_numVfs (r : Nat) (v : Ring) : (s.setRing r v).hub.numVfs = s.hub.numVfs := rfl
@[simp] theorem setRing_hub_linkRate (r : Nat) (v : Ring) : (s.setRing r v).hub.linkRate = s.hub.linkRate := rfl
@[simp] theorem setRing_hub_judged (r : Nat) (v : Ring) : (s.setRing r v).hub.judged = s.hub.judged := rfl
theorem setRing_hub_rings (r : Nat) (v : Ring) : (s.setRing r v).hub.rings = s.hub.rings.put (r) v {} := rfl
/-- What `setRing` wrote is read back. -/
@[simp] theorem ring_setRing_same (r : Nat) (v : Ring) : (s.setRing r v).ring r = v := Map.find_put_same ..
theorem ring_setRing_other (r : Nat) (v : Ring) (r' : Nat) (hne : r' ≠ r) : (s.setRing r v).ring r' = s.ring r' := Map.find_put_other _ hne ..

@[simp] theorem setKeySlot_unit (k : Nat) (v : Option (KeyPair)) : (s.setKeySlot k v).unit = s.unit := rfl
@[simp] theorem setKeySlot_router (k : Nat) (v : Option (KeyPair)) : (s.setKeySlot k v).router = s.router := rfl
@[simp] theorem setKeySlot_core (k : Nat) (v : Option (KeyPair)) : (s.setKeySlot k v).core = s.core := rfl
@[simp] theorem setKeySlot_sync (k : Nat) (v : Option (KeyPair)) : (s.setKeySlot k v).sync = s.sync := rfl
@[simp] theorem setKeySlot_cluster (k : Nat) (v : Option (KeyPair)) : (s.setKeySlot k v).cluster = s.cluster := rfl
@[simp] theorem setKeySlot_mesh (k : Nat) (v : Option (KeyPair)) : (s.setKeySlot k v).mesh = s.mesh := rfl
@[simp] theorem setKeySlot_mem (k : Nat) (v : Option (KeyPair)) : (s.setKeySlot k v).mem = s.mem := rfl
@[simp] theorem setKeySlot_die (k : Nat) (v : Option (KeyPair)) : (s.setKeySlot k v).die = s.die := rfl
@[simp] theorem setKeySlot_hub (k : Nat) (v : Option (KeyPair)) : (s.setKeySlot k v).hub = s.hub := rfl
@[simp] theorem setKeySlot_fab (k : Nat) (v : Option (KeyPair)) : (s.setKeySlot k v).fab = s.fab := rfl
@[simp] theorem setKeySlot_agenda (k : Nat) (v : Option (KeyPair)) : (s.setKeySlot k v).agenda = s.agenda := rfl
@[simp] theorem setKeySlot_free (k : Nat) (v : Option (KeyPair)) : (s.setKeySlot k v).free = s.free := rfl
@[simp] theorem setKeySlot_now (k : Nat) (v : Option (KeyPair)) : (s.setKeySlot k v).now = s.now := rfl
@[simp] theorem setKeySlot_cur (k : Nat) (v : Option (KeyPair)) : (s.setKeySlot k v).cur = s.cur := rfl
@[simp] theorem setKeySlot_act (k : Nat) (v : Option (KeyPair)) : (s.setKeySlot k v).act = s.act := rfl
@[simp] theorem setKeySlot_sag_key0 (k : Nat) (v : Option (KeyPair)) : (s.setKeySlot k v).sag.key0 = s.sag.key0 := rfl
@[simp] theorem setKeySlot_sag_lostKeys (k : Nat) (v : Option (KeyPair)) : (s.setKeySlot k v).sag.lostKeys = s.sag.lostKeys := rfl
@[simp] theorem setKeySlot_sag_lostCopies (k : Nat) (v : Option (KeyPair)) : (s.setKeySlot k v).sag.lostCopies = s.sag.lostCopies := rfl
@[simp] theorem setKeySlot_sag_fuses (k : Nat) (v : Option (KeyPair)) : (s.setKeySlot k v).sag.fuses = s.sag.fuses := rfl
@[simp] theorem setKeySlot_sag_meas (k : Nat) (v : Option (KeyPair)) : (s.setKeySlot k v).sag.meas = s.sag.meas := rfl
@[simp] theorem setKeySlot_sag_dbgOpen (k : Nat) (v : Option (KeyPair)) : (s.setKeySlot k v).sag.dbgOpen = s.sag.dbgOpen := rfl
@[simp] theorem setKeySlot_sag_token (k : Nat) (v : Option (KeyPair)) : (s.setKeySlot k v).sag.token = s.sag.token := rfl
@[simp] theorem setKeySlot_sag_wiped (k : Nat) (v : Option (KeyPair)) : (s.setKeySlot k v).sag.wiped = s.sag.wiped := rfl
@[simp] theorem setKeySlot_sag_snonce (k : Nat) (v : Option (KeyPair)) : (s.setKeySlot k v).sag.snonce = s.sag.snonce := rfl
@[simp] theorem setKeySlot_sag_identity (k : Nat) (v : Option (KeyPair)) : (s.setKeySlot k v).sag.identity = s.sag.identity := rfl
@[simp] theorem setKeySlot_sag_vendorX (k : Nat) (v : Option (KeyPair)) : (s.setKeySlot k v).sag.vendorX = s.sag.vendorX := rfl
@[simp] theorem setKeySlot_sag_vendorY (k : Nat) (v : Option (KeyPair)) : (s.setKeySlot k v).sag.vendorY = s.sag.vendorY := rfl
@[simp] theorem setKeySlot_sag_boot0 (k : Nat) (v : Option (KeyPair)) : (s.setKeySlot k v).sag.boot0 = s.sag.boot0 := rfl
@[simp] theorem setKeySlot_sag_boot1 (k : Nat) (v : Option (KeyPair)) : (s.setKeySlot k v).sag.boot1 = s.sag.boot1 := rfl
@[simp] theorem setKeySlot_sag_clrboot (k : Nat) (v : Option (KeyPair)) : (s.setKeySlot k v).sag.clrboot = s.sag.clrboot := rfl
@[simp] theorem setKeySlot_sag_start0 (k : Nat) (v : Option (KeyPair)) : (s.setKeySlot k v).sag.start0 = s.sag.start0 := rfl
@[simp] theorem setKeySlot_sag_start1 (k : Nat) (v : Option (KeyPair)) : (s.setKeySlot k v).sag.start1 = s.sag.start1 := rfl
@[simp] theorem setKeySlot_sag_bootno (k : Nat) (v : Option (KeyPair)) : (s.setKeySlot k v).sag.bootno = s.sag.bootno := rfl
@[simp] theorem setKeySlot_sag_starts (k : Nat) (v : Option (KeyPair)) : (s.setKeySlot k v).sag.starts = s.sag.starts := rfl
@[simp] theorem setKeySlot_sag_failed (k : Nat) (v : Option (KeyPair)) : (s.setKeySlot k v).sag.failed = s.sag.failed := rfl
@[simp] theorem setKeySlot_sag_mgmtOnly (k : Nat) (v : Option (KeyPair)) : (s.setKeySlot k v).sag.mgmtOnly = s.sag.mgmtOnly := rfl
@[simp] theorem setKeySlot_sag_romOnly (k : Nat) (v : Option (KeyPair)) : (s.setKeySlot k v).sag.romOnly = s.sag.romOnly := rfl
@[simp] theorem setKeySlot_sag_hung (k : Nat) (v : Option (KeyPair)) : (s.setKeySlot k v).sag.hung = s.sag.hung := rfl
@[simp] theorem setKeySlot_sag_parityParam (k : Nat) (v : Option (KeyPair)) : (s.setKeySlot k v).sag.parityParam = s.sag.parityParam := rfl
@[simp] theorem setKeySlot_sag_power (k : Nat) (v : Option (KeyPair)) : (s.setKeySlot k v).sag.power = s.sag.power := rfl
@[simp] theorem setKeySlot_sag_compressOn (k : Nat) (v : Option (KeyPair)) : (s.setKeySlot k v).sag.compressOn = s.sag.compressOn := rfl
@[simp] theorem setKeySlot_sag_rawx (k : Nat) (v : Option (KeyPair)) : (s.setKeySlot k v).sag.rawx = s.sag.rawx := rfl
@[simp] theorem setKeySlot_sag_caps (k : Nat) (v : Option (KeyPair)) : (s.setKeySlot k v).sag.caps = s.sag.caps := rfl
@[simp] theorem setKeySlot_sag_image0 (k : Nat) (v : Option (KeyPair)) : (s.setKeySlot k v).sag.image0 = s.sag.image0 := rfl
@[simp] theorem setKeySlot_sag_image1 (k : Nat) (v : Option (KeyPair)) : (s.setKeySlot k v).sag.image1 = s.sag.image1 := rfl
theorem setKeySlot_sag_keys (k : Nat) (v : Option (KeyPair)) : (s.setKeySlot k v).sag.keys = s.sag.keys.put (k) v none := rfl
/-- What `setKeySlot` wrote is read back. -/
@[simp] theorem keySlot_setKeySlot_same (k : Nat) (v : Option (KeyPair)) : (s.setKeySlot k v).keySlot k = v := Map.find_put_same ..
theorem keySlot_setKeySlot_other (k : Nat) (v : Option (KeyPair)) (k' : Nat) (hne : k' ≠ k) : (s.setKeySlot k v).keySlot k' = s.keySlot k' := Map.find_put_other _ hne ..

@[simp] theorem setFuse_unit (k : Nat) (v : Word) : (s.setFuse k v).unit = s.unit := rfl
@[simp] theorem setFuse_router (k : Nat) (v : Word) : (s.setFuse k v).router = s.router := rfl
@[simp] theorem setFuse_core (k : Nat) (v : Word) : (s.setFuse k v).core = s.core := rfl
@[simp] theorem setFuse_sync (k : Nat) (v : Word) : (s.setFuse k v).sync = s.sync := rfl
@[simp] theorem setFuse_cluster (k : Nat) (v : Word) : (s.setFuse k v).cluster = s.cluster := rfl
@[simp] theorem setFuse_mesh (k : Nat) (v : Word) : (s.setFuse k v).mesh = s.mesh := rfl
@[simp] theorem setFuse_mem (k : Nat) (v : Word) : (s.setFuse k v).mem = s.mem := rfl
@[simp] theorem setFuse_die (k : Nat) (v : Word) : (s.setFuse k v).die = s.die := rfl
@[simp] theorem setFuse_hub (k : Nat) (v : Word) : (s.setFuse k v).hub = s.hub := rfl
@[simp] theorem setFuse_fab (k : Nat) (v : Word) : (s.setFuse k v).fab = s.fab := rfl
@[simp] theorem setFuse_agenda (k : Nat) (v : Word) : (s.setFuse k v).agenda = s.agenda := rfl
@[simp] theorem setFuse_free (k : Nat) (v : Word) : (s.setFuse k v).free = s.free := rfl
@[simp] theorem setFuse_now (k : Nat) (v : Word) : (s.setFuse k v).now = s.now := rfl
@[simp] theorem setFuse_cur (k : Nat) (v : Word) : (s.setFuse k v).cur = s.cur := rfl
@[simp] theorem setFuse_act (k : Nat) (v : Word) : (s.setFuse k v).act = s.act := rfl
@[simp] theorem setFuse_sag_keys (k : Nat) (v : Word) : (s.setFuse k v).sag.keys = s.sag.keys := rfl
@[simp] theorem setFuse_sag_key0 (k : Nat) (v : Word) : (s.setFuse k v).sag.key0 = s.sag.key0 := rfl
@[simp] theorem setFuse_sag_lostKeys (k : Nat) (v : Word) : (s.setFuse k v).sag.lostKeys = s.sag.lostKeys := rfl
@[simp] theorem setFuse_sag_lostCopies (k : Nat) (v : Word) : (s.setFuse k v).sag.lostCopies = s.sag.lostCopies := rfl
@[simp] theorem setFuse_sag_meas (k : Nat) (v : Word) : (s.setFuse k v).sag.meas = s.sag.meas := rfl
@[simp] theorem setFuse_sag_dbgOpen (k : Nat) (v : Word) : (s.setFuse k v).sag.dbgOpen = s.sag.dbgOpen := rfl
@[simp] theorem setFuse_sag_token (k : Nat) (v : Word) : (s.setFuse k v).sag.token = s.sag.token := rfl
@[simp] theorem setFuse_sag_wiped (k : Nat) (v : Word) : (s.setFuse k v).sag.wiped = s.sag.wiped := rfl
@[simp] theorem setFuse_sag_snonce (k : Nat) (v : Word) : (s.setFuse k v).sag.snonce = s.sag.snonce := rfl
@[simp] theorem setFuse_sag_identity (k : Nat) (v : Word) : (s.setFuse k v).sag.identity = s.sag.identity := rfl
@[simp] theorem setFuse_sag_vendorX (k : Nat) (v : Word) : (s.setFuse k v).sag.vendorX = s.sag.vendorX := rfl
@[simp] theorem setFuse_sag_vendorY (k : Nat) (v : Word) : (s.setFuse k v).sag.vendorY = s.sag.vendorY := rfl
@[simp] theorem setFuse_sag_boot0 (k : Nat) (v : Word) : (s.setFuse k v).sag.boot0 = s.sag.boot0 := rfl
@[simp] theorem setFuse_sag_boot1 (k : Nat) (v : Word) : (s.setFuse k v).sag.boot1 = s.sag.boot1 := rfl
@[simp] theorem setFuse_sag_clrboot (k : Nat) (v : Word) : (s.setFuse k v).sag.clrboot = s.sag.clrboot := rfl
@[simp] theorem setFuse_sag_start0 (k : Nat) (v : Word) : (s.setFuse k v).sag.start0 = s.sag.start0 := rfl
@[simp] theorem setFuse_sag_start1 (k : Nat) (v : Word) : (s.setFuse k v).sag.start1 = s.sag.start1 := rfl
@[simp] theorem setFuse_sag_bootno (k : Nat) (v : Word) : (s.setFuse k v).sag.bootno = s.sag.bootno := rfl
@[simp] theorem setFuse_sag_starts (k : Nat) (v : Word) : (s.setFuse k v).sag.starts = s.sag.starts := rfl
@[simp] theorem setFuse_sag_failed (k : Nat) (v : Word) : (s.setFuse k v).sag.failed = s.sag.failed := rfl
@[simp] theorem setFuse_sag_mgmtOnly (k : Nat) (v : Word) : (s.setFuse k v).sag.mgmtOnly = s.sag.mgmtOnly := rfl
@[simp] theorem setFuse_sag_romOnly (k : Nat) (v : Word) : (s.setFuse k v).sag.romOnly = s.sag.romOnly := rfl
@[simp] theorem setFuse_sag_hung (k : Nat) (v : Word) : (s.setFuse k v).sag.hung = s.sag.hung := rfl
@[simp] theorem setFuse_sag_parityParam (k : Nat) (v : Word) : (s.setFuse k v).sag.parityParam = s.sag.parityParam := rfl
@[simp] theorem setFuse_sag_power (k : Nat) (v : Word) : (s.setFuse k v).sag.power = s.sag.power := rfl
@[simp] theorem setFuse_sag_compressOn (k : Nat) (v : Word) : (s.setFuse k v).sag.compressOn = s.sag.compressOn := rfl
@[simp] theorem setFuse_sag_rawx (k : Nat) (v : Word) : (s.setFuse k v).sag.rawx = s.sag.rawx := rfl
@[simp] theorem setFuse_sag_caps (k : Nat) (v : Word) : (s.setFuse k v).sag.caps = s.sag.caps := rfl
@[simp] theorem setFuse_sag_image0 (k : Nat) (v : Word) : (s.setFuse k v).sag.image0 = s.sag.image0 := rfl
@[simp] theorem setFuse_sag_image1 (k : Nat) (v : Word) : (s.setFuse k v).sag.image1 = s.sag.image1 := rfl
theorem setFuse_sag_fuses (k : Nat) (v : Word) : (s.setFuse k v).sag.fuses = s.sag.fuses.put (k) v 0 := rfl
/-- What `setFuse` wrote is read back. -/
@[simp] theorem fuse_setFuse_same (k : Nat) (v : Word) : (s.setFuse k v).fuse k = v := Map.find_put_same ..
theorem fuse_setFuse_other (k : Nat) (v : Word) (k' : Nat) (hne : k' ≠ k) : (s.setFuse k v).fuse k' = s.fuse k' := Map.find_put_other _ hne ..

@[simp] theorem setMeasReg_unit (k : Nat) (v : Word) : (s.setMeasReg k v).unit = s.unit := rfl
@[simp] theorem setMeasReg_router (k : Nat) (v : Word) : (s.setMeasReg k v).router = s.router := rfl
@[simp] theorem setMeasReg_core (k : Nat) (v : Word) : (s.setMeasReg k v).core = s.core := rfl
@[simp] theorem setMeasReg_sync (k : Nat) (v : Word) : (s.setMeasReg k v).sync = s.sync := rfl
@[simp] theorem setMeasReg_cluster (k : Nat) (v : Word) : (s.setMeasReg k v).cluster = s.cluster := rfl
@[simp] theorem setMeasReg_mesh (k : Nat) (v : Word) : (s.setMeasReg k v).mesh = s.mesh := rfl
@[simp] theorem setMeasReg_mem (k : Nat) (v : Word) : (s.setMeasReg k v).mem = s.mem := rfl
@[simp] theorem setMeasReg_die (k : Nat) (v : Word) : (s.setMeasReg k v).die = s.die := rfl
@[simp] theorem setMeasReg_hub (k : Nat) (v : Word) : (s.setMeasReg k v).hub = s.hub := rfl
@[simp] theorem setMeasReg_fab (k : Nat) (v : Word) : (s.setMeasReg k v).fab = s.fab := rfl
@[simp] theorem setMeasReg_agenda (k : Nat) (v : Word) : (s.setMeasReg k v).agenda = s.agenda := rfl
@[simp] theorem setMeasReg_free (k : Nat) (v : Word) : (s.setMeasReg k v).free = s.free := rfl
@[simp] theorem setMeasReg_now (k : Nat) (v : Word) : (s.setMeasReg k v).now = s.now := rfl
@[simp] theorem setMeasReg_cur (k : Nat) (v : Word) : (s.setMeasReg k v).cur = s.cur := rfl
@[simp] theorem setMeasReg_act (k : Nat) (v : Word) : (s.setMeasReg k v).act = s.act := rfl
@[simp] theorem setMeasReg_sag_keys (k : Nat) (v : Word) : (s.setMeasReg k v).sag.keys = s.sag.keys := rfl
@[simp] theorem setMeasReg_sag_key0 (k : Nat) (v : Word) : (s.setMeasReg k v).sag.key0 = s.sag.key0 := rfl
@[simp] theorem setMeasReg_sag_lostKeys (k : Nat) (v : Word) : (s.setMeasReg k v).sag.lostKeys = s.sag.lostKeys := rfl
@[simp] theorem setMeasReg_sag_lostCopies (k : Nat) (v : Word) : (s.setMeasReg k v).sag.lostCopies = s.sag.lostCopies := rfl
@[simp] theorem setMeasReg_sag_fuses (k : Nat) (v : Word) : (s.setMeasReg k v).sag.fuses = s.sag.fuses := rfl
@[simp] theorem setMeasReg_sag_dbgOpen (k : Nat) (v : Word) : (s.setMeasReg k v).sag.dbgOpen = s.sag.dbgOpen := rfl
@[simp] theorem setMeasReg_sag_token (k : Nat) (v : Word) : (s.setMeasReg k v).sag.token = s.sag.token := rfl
@[simp] theorem setMeasReg_sag_wiped (k : Nat) (v : Word) : (s.setMeasReg k v).sag.wiped = s.sag.wiped := rfl
@[simp] theorem setMeasReg_sag_snonce (k : Nat) (v : Word) : (s.setMeasReg k v).sag.snonce = s.sag.snonce := rfl
@[simp] theorem setMeasReg_sag_identity (k : Nat) (v : Word) : (s.setMeasReg k v).sag.identity = s.sag.identity := rfl
@[simp] theorem setMeasReg_sag_vendorX (k : Nat) (v : Word) : (s.setMeasReg k v).sag.vendorX = s.sag.vendorX := rfl
@[simp] theorem setMeasReg_sag_vendorY (k : Nat) (v : Word) : (s.setMeasReg k v).sag.vendorY = s.sag.vendorY := rfl
@[simp] theorem setMeasReg_sag_boot0 (k : Nat) (v : Word) : (s.setMeasReg k v).sag.boot0 = s.sag.boot0 := rfl
@[simp] theorem setMeasReg_sag_boot1 (k : Nat) (v : Word) : (s.setMeasReg k v).sag.boot1 = s.sag.boot1 := rfl
@[simp] theorem setMeasReg_sag_clrboot (k : Nat) (v : Word) : (s.setMeasReg k v).sag.clrboot = s.sag.clrboot := rfl
@[simp] theorem setMeasReg_sag_start0 (k : Nat) (v : Word) : (s.setMeasReg k v).sag.start0 = s.sag.start0 := rfl
@[simp] theorem setMeasReg_sag_start1 (k : Nat) (v : Word) : (s.setMeasReg k v).sag.start1 = s.sag.start1 := rfl
@[simp] theorem setMeasReg_sag_bootno (k : Nat) (v : Word) : (s.setMeasReg k v).sag.bootno = s.sag.bootno := rfl
@[simp] theorem setMeasReg_sag_starts (k : Nat) (v : Word) : (s.setMeasReg k v).sag.starts = s.sag.starts := rfl
@[simp] theorem setMeasReg_sag_failed (k : Nat) (v : Word) : (s.setMeasReg k v).sag.failed = s.sag.failed := rfl
@[simp] theorem setMeasReg_sag_mgmtOnly (k : Nat) (v : Word) : (s.setMeasReg k v).sag.mgmtOnly = s.sag.mgmtOnly := rfl
@[simp] theorem setMeasReg_sag_romOnly (k : Nat) (v : Word) : (s.setMeasReg k v).sag.romOnly = s.sag.romOnly := rfl
@[simp] theorem setMeasReg_sag_hung (k : Nat) (v : Word) : (s.setMeasReg k v).sag.hung = s.sag.hung := rfl
@[simp] theorem setMeasReg_sag_parityParam (k : Nat) (v : Word) : (s.setMeasReg k v).sag.parityParam = s.sag.parityParam := rfl
@[simp] theorem setMeasReg_sag_power (k : Nat) (v : Word) : (s.setMeasReg k v).sag.power = s.sag.power := rfl
@[simp] theorem setMeasReg_sag_compressOn (k : Nat) (v : Word) : (s.setMeasReg k v).sag.compressOn = s.sag.compressOn := rfl
@[simp] theorem setMeasReg_sag_rawx (k : Nat) (v : Word) : (s.setMeasReg k v).sag.rawx = s.sag.rawx := rfl
@[simp] theorem setMeasReg_sag_caps (k : Nat) (v : Word) : (s.setMeasReg k v).sag.caps = s.sag.caps := rfl
@[simp] theorem setMeasReg_sag_image0 (k : Nat) (v : Word) : (s.setMeasReg k v).sag.image0 = s.sag.image0 := rfl
@[simp] theorem setMeasReg_sag_image1 (k : Nat) (v : Word) : (s.setMeasReg k v).sag.image1 = s.sag.image1 := rfl
theorem setMeasReg_sag_meas (k : Nat) (v : Word) : (s.setMeasReg k v).sag.meas = s.sag.meas.put (k) v 0 := rfl
/-- What `setMeasReg` wrote is read back. -/
@[simp] theorem measReg_setMeasReg_same (k : Nat) (v : Word) : (s.setMeasReg k v).measReg k = v := Map.find_put_same ..
theorem measReg_setMeasReg_other (k : Nat) (v : Word) (k' : Nat) (hne : k' ≠ k) : (s.setMeasReg k v).measReg k' = s.measReg k' := Map.find_put_other _ hne ..

@[simp] theorem setMapEntry_unit (m : Nat) (v : MapEntry) : (s.setMapEntry m v).unit = s.unit := rfl
@[simp] theorem setMapEntry_router (m : Nat) (v : MapEntry) : (s.setMapEntry m v).router = s.router := rfl
@[simp] theorem setMapEntry_core (m : Nat) (v : MapEntry) : (s.setMapEntry m v).core = s.core := rfl
@[simp] theorem setMapEntry_sync (m : Nat) (v : MapEntry) : (s.setMapEntry m v).sync = s.sync := rfl
@[simp] theorem setMapEntry_cluster (m : Nat) (v : MapEntry) : (s.setMapEntry m v).cluster = s.cluster := rfl
@[simp] theorem setMapEntry_mesh (m : Nat) (v : MapEntry) : (s.setMapEntry m v).mesh = s.mesh := rfl
@[simp] theorem setMapEntry_mem (m : Nat) (v : MapEntry) : (s.setMapEntry m v).mem = s.mem := rfl
@[simp] theorem setMapEntry_die (m : Nat) (v : MapEntry) : (s.setMapEntry m v).die = s.die := rfl
@[simp] theorem setMapEntry_hub (m : Nat) (v : MapEntry) : (s.setMapEntry m v).hub = s.hub := rfl
@[simp] theorem setMapEntry_sag (m : Nat) (v : MapEntry) : (s.setMapEntry m v).sag = s.sag := rfl
@[simp] theorem setMapEntry_agenda (m : Nat) (v : MapEntry) : (s.setMapEntry m v).agenda = s.agenda := rfl
@[simp] theorem setMapEntry_free (m : Nat) (v : MapEntry) : (s.setMapEntry m v).free = s.free := rfl
@[simp] theorem setMapEntry_now (m : Nat) (v : MapEntry) : (s.setMapEntry m v).now = s.now := rfl
@[simp] theorem setMapEntry_cur (m : Nat) (v : MapEntry) : (s.setMapEntry m v).cur = s.cur := rfl
@[simp] theorem setMapEntry_act (m : Nat) (v : MapEntry) : (s.setMapEntry m v).act = s.act := rfl
@[simp] theorem setMapEntry_fab_fabricId (m : Nat) (v : MapEntry) : (s.setMapEntry m v).fab.fabricId = s.fab.fabricId := rfl
@[simp] theorem setMapEntry_fab_moduleId (m : Nat) (v : MapEntry) : (s.setMapEntry m v).fab.moduleId = s.fab.moduleId := rfl
@[simp] theorem setMapEntry_fab_flashMap (m : Nat) (v : MapEntry) : (s.setMapEntry m v).fab.flashMap = s.fab.flashMap := rfl
@[simp] theorem setMapEntry_fab_links (m : Nat) (v : MapEntry) : (s.setMapEntry m v).fab.links = s.fab.links := rfl
@[simp] theorem setMapEntry_fab_members (m : Nat) (v : MapEntry) : (s.setMapEntry m v).fab.members = s.fab.members := rfl
@[simp] theorem setMapEntry_fab_reached (m : Nat) (v : MapEntry) : (s.setMapEntry m v).fab.reached = s.fab.reached := rfl
@[simp] theorem setMapEntry_fab_farr (m : Nat) (v : MapEntry) : (s.setMapEntry m v).fab.farr = s.fab.farr := rfl
@[simp] theorem setMapEntry_fab_fexit (m : Nat) (v : MapEntry) : (s.setMapEntry m v).fab.fexit = s.fab.fexit := rfl
@[simp] theorem setMapEntry_fab_fbreak (m : Nat) (v : MapEntry) : (s.setMapEntry m v).fab.fbreak = s.fab.fbreak := rfl
@[simp] theorem setMapEntry_fab_ratoms (m : Nat) (v : MapEntry) : (s.setMapEntry m v).fab.ratoms = s.fab.ratoms := rfl
@[simp] theorem setMapEntry_fab_dedup (m : Nat) (v : MapEntry) : (s.setMapEntry m v).fab.dedup = s.fab.dedup := rfl
@[simp] theorem setMapEntry_fab_exch (m : Nat) (v : MapEntry) : (s.setMapEntry m v).fab.exch = s.fab.exch := rfl
@[simp] theorem setMapEntry_fab_arriving (m : Nat) (v : MapEntry) : (s.setMapEntry m v).fab.arriving = s.fab.arriving := rfl
@[simp] theorem setMapEntry_fab_exchNext (m : Nat) (v : MapEntry) : (s.setMapEntry m v).fab.exchNext = s.fab.exchNext := rfl
@[simp] theorem setMapEntry_fab_sent (m : Nat) (v : MapEntry) : (s.setMapEntry m v).fab.sent = s.fab.sent := rfl
@[simp] theorem setMapEntry_fab_unreachable (m : Nat) (v : MapEntry) : (s.setMapEntry m v).fab.unreachable = s.fab.unreachable := rfl
theorem setMapEntry_fab_map (m : Nat) (v : MapEntry) : (s.setMapEntry m v).fab.map = s.fab.map.put (m) v {} := rfl
/-- What `setMapEntry` wrote is read back. -/
@[simp] theorem mapEntry_setMapEntry_same (m : Nat) (v : MapEntry) : (s.setMapEntry m v).mapEntry m = v := Map.find_put_same ..
theorem mapEntry_setMapEntry_other (m : Nat) (v : MapEntry) (m' : Nat) (hne : m' ≠ m) : (s.setMapEntry m v).mapEntry m' = s.mapEntry m' := Map.find_put_other _ hne ..

@[simp] theorem setFabLink_unit (l : Nat) (v : FabLink) : (s.setFabLink l v).unit = s.unit := rfl
@[simp] theorem setFabLink_router (l : Nat) (v : FabLink) : (s.setFabLink l v).router = s.router := rfl
@[simp] theorem setFabLink_core (l : Nat) (v : FabLink) : (s.setFabLink l v).core = s.core := rfl
@[simp] theorem setFabLink_sync (l : Nat) (v : FabLink) : (s.setFabLink l v).sync = s.sync := rfl
@[simp] theorem setFabLink_cluster (l : Nat) (v : FabLink) : (s.setFabLink l v).cluster = s.cluster := rfl
@[simp] theorem setFabLink_mesh (l : Nat) (v : FabLink) : (s.setFabLink l v).mesh = s.mesh := rfl
@[simp] theorem setFabLink_mem (l : Nat) (v : FabLink) : (s.setFabLink l v).mem = s.mem := rfl
@[simp] theorem setFabLink_die (l : Nat) (v : FabLink) : (s.setFabLink l v).die = s.die := rfl
@[simp] theorem setFabLink_hub (l : Nat) (v : FabLink) : (s.setFabLink l v).hub = s.hub := rfl
@[simp] theorem setFabLink_sag (l : Nat) (v : FabLink) : (s.setFabLink l v).sag = s.sag := rfl
@[simp] theorem setFabLink_agenda (l : Nat) (v : FabLink) : (s.setFabLink l v).agenda = s.agenda := rfl
@[simp] theorem setFabLink_free (l : Nat) (v : FabLink) : (s.setFabLink l v).free = s.free := rfl
@[simp] theorem setFabLink_now (l : Nat) (v : FabLink) : (s.setFabLink l v).now = s.now := rfl
@[simp] theorem setFabLink_cur (l : Nat) (v : FabLink) : (s.setFabLink l v).cur = s.cur := rfl
@[simp] theorem setFabLink_act (l : Nat) (v : FabLink) : (s.setFabLink l v).act = s.act := rfl
@[simp] theorem setFabLink_fab_fabricId (l : Nat) (v : FabLink) : (s.setFabLink l v).fab.fabricId = s.fab.fabricId := rfl
@[simp] theorem setFabLink_fab_moduleId (l : Nat) (v : FabLink) : (s.setFabLink l v).fab.moduleId = s.fab.moduleId := rfl
@[simp] theorem setFabLink_fab_map (l : Nat) (v : FabLink) : (s.setFabLink l v).fab.map = s.fab.map := rfl
@[simp] theorem setFabLink_fab_flashMap (l : Nat) (v : FabLink) : (s.setFabLink l v).fab.flashMap = s.fab.flashMap := rfl
@[simp] theorem setFabLink_fab_members (l : Nat) (v : FabLink) : (s.setFabLink l v).fab.members = s.fab.members := rfl
@[simp] theorem setFabLink_fab_reached (l : Nat) (v : FabLink) : (s.setFabLink l v).fab.reached = s.fab.reached := rfl
@[simp] theorem setFabLink_fab_farr (l : Nat) (v : FabLink) : (s.setFabLink l v).fab.farr = s.fab.farr := rfl
@[simp] theorem setFabLink_fab_fexit (l : Nat) (v : FabLink) : (s.setFabLink l v).fab.fexit = s.fab.fexit := rfl
@[simp] theorem setFabLink_fab_fbreak (l : Nat) (v : FabLink) : (s.setFabLink l v).fab.fbreak = s.fab.fbreak := rfl
@[simp] theorem setFabLink_fab_ratoms (l : Nat) (v : FabLink) : (s.setFabLink l v).fab.ratoms = s.fab.ratoms := rfl
@[simp] theorem setFabLink_fab_dedup (l : Nat) (v : FabLink) : (s.setFabLink l v).fab.dedup = s.fab.dedup := rfl
@[simp] theorem setFabLink_fab_exch (l : Nat) (v : FabLink) : (s.setFabLink l v).fab.exch = s.fab.exch := rfl
@[simp] theorem setFabLink_fab_arriving (l : Nat) (v : FabLink) : (s.setFabLink l v).fab.arriving = s.fab.arriving := rfl
@[simp] theorem setFabLink_fab_exchNext (l : Nat) (v : FabLink) : (s.setFabLink l v).fab.exchNext = s.fab.exchNext := rfl
@[simp] theorem setFabLink_fab_sent (l : Nat) (v : FabLink) : (s.setFabLink l v).fab.sent = s.fab.sent := rfl
@[simp] theorem setFabLink_fab_unreachable (l : Nat) (v : FabLink) : (s.setFabLink l v).fab.unreachable = s.fab.unreachable := rfl
theorem setFabLink_fab_links (l : Nat) (v : FabLink) : (s.setFabLink l v).fab.links = s.fab.links.put (l) v {} := rfl
/-- What `setFabLink` wrote is read back. -/
@[simp] theorem fabLink_setFabLink_same (l : Nat) (v : FabLink) : (s.setFabLink l v).fabLink l = v := Map.find_put_same ..
theorem fabLink_setFabLink_other (l : Nat) (v : FabLink) (l' : Nat) (hne : l' ≠ l) : (s.setFabLink l v).fabLink l' = s.fabLink l' := Map.find_put_other _ hne ..

@[simp] theorem setMember_unit (dom m : Nat) (v : Bool) : (s.setMember dom m v).unit = s.unit := rfl
@[simp] theorem setMember_router (dom m : Nat) (v : Bool) : (s.setMember dom m v).router = s.router := rfl
@[simp] theorem setMember_core (dom m : Nat) (v : Bool) : (s.setMember dom m v).core = s.core := rfl
@[simp] theorem setMember_sync (dom m : Nat) (v : Bool) : (s.setMember dom m v).sync = s.sync := rfl
@[simp] theorem setMember_cluster (dom m : Nat) (v : Bool) : (s.setMember dom m v).cluster = s.cluster := rfl
@[simp] theorem setMember_mesh (dom m : Nat) (v : Bool) : (s.setMember dom m v).mesh = s.mesh := rfl
@[simp] theorem setMember_mem (dom m : Nat) (v : Bool) : (s.setMember dom m v).mem = s.mem := rfl
@[simp] theorem setMember_die (dom m : Nat) (v : Bool) : (s.setMember dom m v).die = s.die := rfl
@[simp] theorem setMember_hub (dom m : Nat) (v : Bool) : (s.setMember dom m v).hub = s.hub := rfl
@[simp] theorem setMember_sag (dom m : Nat) (v : Bool) : (s.setMember dom m v).sag = s.sag := rfl
@[simp] theorem setMember_agenda (dom m : Nat) (v : Bool) : (s.setMember dom m v).agenda = s.agenda := rfl
@[simp] theorem setMember_free (dom m : Nat) (v : Bool) : (s.setMember dom m v).free = s.free := rfl
@[simp] theorem setMember_now (dom m : Nat) (v : Bool) : (s.setMember dom m v).now = s.now := rfl
@[simp] theorem setMember_cur (dom m : Nat) (v : Bool) : (s.setMember dom m v).cur = s.cur := rfl
@[simp] theorem setMember_act (dom m : Nat) (v : Bool) : (s.setMember dom m v).act = s.act := rfl
@[simp] theorem setMember_fab_fabricId (dom m : Nat) (v : Bool) : (s.setMember dom m v).fab.fabricId = s.fab.fabricId := rfl
@[simp] theorem setMember_fab_moduleId (dom m : Nat) (v : Bool) : (s.setMember dom m v).fab.moduleId = s.fab.moduleId := rfl
@[simp] theorem setMember_fab_map (dom m : Nat) (v : Bool) : (s.setMember dom m v).fab.map = s.fab.map := rfl
@[simp] theorem setMember_fab_flashMap (dom m : Nat) (v : Bool) : (s.setMember dom m v).fab.flashMap = s.fab.flashMap := rfl
@[simp] theorem setMember_fab_links (dom m : Nat) (v : Bool) : (s.setMember dom m v).fab.links = s.fab.links := rfl
@[simp] theorem setMember_fab_reached (dom m : Nat) (v : Bool) : (s.setMember dom m v).fab.reached = s.fab.reached := rfl
@[simp] theorem setMember_fab_farr (dom m : Nat) (v : Bool) : (s.setMember dom m v).fab.farr = s.fab.farr := rfl
@[simp] theorem setMember_fab_fexit (dom m : Nat) (v : Bool) : (s.setMember dom m v).fab.fexit = s.fab.fexit := rfl
@[simp] theorem setMember_fab_fbreak (dom m : Nat) (v : Bool) : (s.setMember dom m v).fab.fbreak = s.fab.fbreak := rfl
@[simp] theorem setMember_fab_ratoms (dom m : Nat) (v : Bool) : (s.setMember dom m v).fab.ratoms = s.fab.ratoms := rfl
@[simp] theorem setMember_fab_dedup (dom m : Nat) (v : Bool) : (s.setMember dom m v).fab.dedup = s.fab.dedup := rfl
@[simp] theorem setMember_fab_exch (dom m : Nat) (v : Bool) : (s.setMember dom m v).fab.exch = s.fab.exch := rfl
@[simp] theorem setMember_fab_arriving (dom m : Nat) (v : Bool) : (s.setMember dom m v).fab.arriving = s.fab.arriving := rfl
@[simp] theorem setMember_fab_exchNext (dom m : Nat) (v : Bool) : (s.setMember dom m v).fab.exchNext = s.fab.exchNext := rfl
@[simp] theorem setMember_fab_sent (dom m : Nat) (v : Bool) : (s.setMember dom m v).fab.sent = s.fab.sent := rfl
@[simp] theorem setMember_fab_unreachable (dom m : Nat) (v : Bool) : (s.setMember dom m v).fab.unreachable = s.fab.unreachable := rfl
theorem setMember_fab_members (dom m : Nat) (v : Bool) : (s.setMember dom m v).fab.members = s.fab.members.put (64 * dom + m) v false := rfl
/-- What `setMember` wrote is read back. -/
@[simp] theorem member_setMember_same (dom m : Nat) (v : Bool) : (s.setMember dom m v).member dom m = v := Map.find_put_same ..
theorem member_setMember_other (dom m : Nat) (v : Bool) (dom' m' : Nat) (hne : 64 * dom' + m' ≠ 64 * dom + m) : (s.setMember dom m v).member dom' m' = s.member dom' m' := Map.find_put_other _ hne ..

@[simp] theorem setReached_unit (dom m : Nat) (v : Option (Nat)) : (s.setReached dom m v).unit = s.unit := rfl
@[simp] theorem setReached_router (dom m : Nat) (v : Option (Nat)) : (s.setReached dom m v).router = s.router := rfl
@[simp] theorem setReached_core (dom m : Nat) (v : Option (Nat)) : (s.setReached dom m v).core = s.core := rfl
@[simp] theorem setReached_sync (dom m : Nat) (v : Option (Nat)) : (s.setReached dom m v).sync = s.sync := rfl
@[simp] theorem setReached_cluster (dom m : Nat) (v : Option (Nat)) : (s.setReached dom m v).cluster = s.cluster := rfl
@[simp] theorem setReached_mesh (dom m : Nat) (v : Option (Nat)) : (s.setReached dom m v).mesh = s.mesh := rfl
@[simp] theorem setReached_mem (dom m : Nat) (v : Option (Nat)) : (s.setReached dom m v).mem = s.mem := rfl
@[simp] theorem setReached_die (dom m : Nat) (v : Option (Nat)) : (s.setReached dom m v).die = s.die := rfl
@[simp] theorem setReached_hub (dom m : Nat) (v : Option (Nat)) : (s.setReached dom m v).hub = s.hub := rfl
@[simp] theorem setReached_sag (dom m : Nat) (v : Option (Nat)) : (s.setReached dom m v).sag = s.sag := rfl
@[simp] theorem setReached_agenda (dom m : Nat) (v : Option (Nat)) : (s.setReached dom m v).agenda = s.agenda := rfl
@[simp] theorem setReached_free (dom m : Nat) (v : Option (Nat)) : (s.setReached dom m v).free = s.free := rfl
@[simp] theorem setReached_now (dom m : Nat) (v : Option (Nat)) : (s.setReached dom m v).now = s.now := rfl
@[simp] theorem setReached_cur (dom m : Nat) (v : Option (Nat)) : (s.setReached dom m v).cur = s.cur := rfl
@[simp] theorem setReached_act (dom m : Nat) (v : Option (Nat)) : (s.setReached dom m v).act = s.act := rfl
@[simp] theorem setReached_fab_fabricId (dom m : Nat) (v : Option (Nat)) : (s.setReached dom m v).fab.fabricId = s.fab.fabricId := rfl
@[simp] theorem setReached_fab_moduleId (dom m : Nat) (v : Option (Nat)) : (s.setReached dom m v).fab.moduleId = s.fab.moduleId := rfl
@[simp] theorem setReached_fab_map (dom m : Nat) (v : Option (Nat)) : (s.setReached dom m v).fab.map = s.fab.map := rfl
@[simp] theorem setReached_fab_flashMap (dom m : Nat) (v : Option (Nat)) : (s.setReached dom m v).fab.flashMap = s.fab.flashMap := rfl
@[simp] theorem setReached_fab_links (dom m : Nat) (v : Option (Nat)) : (s.setReached dom m v).fab.links = s.fab.links := rfl
@[simp] theorem setReached_fab_members (dom m : Nat) (v : Option (Nat)) : (s.setReached dom m v).fab.members = s.fab.members := rfl
@[simp] theorem setReached_fab_farr (dom m : Nat) (v : Option (Nat)) : (s.setReached dom m v).fab.farr = s.fab.farr := rfl
@[simp] theorem setReached_fab_fexit (dom m : Nat) (v : Option (Nat)) : (s.setReached dom m v).fab.fexit = s.fab.fexit := rfl
@[simp] theorem setReached_fab_fbreak (dom m : Nat) (v : Option (Nat)) : (s.setReached dom m v).fab.fbreak = s.fab.fbreak := rfl
@[simp] theorem setReached_fab_ratoms (dom m : Nat) (v : Option (Nat)) : (s.setReached dom m v).fab.ratoms = s.fab.ratoms := rfl
@[simp] theorem setReached_fab_dedup (dom m : Nat) (v : Option (Nat)) : (s.setReached dom m v).fab.dedup = s.fab.dedup := rfl
@[simp] theorem setReached_fab_exch (dom m : Nat) (v : Option (Nat)) : (s.setReached dom m v).fab.exch = s.fab.exch := rfl
@[simp] theorem setReached_fab_arriving (dom m : Nat) (v : Option (Nat)) : (s.setReached dom m v).fab.arriving = s.fab.arriving := rfl
@[simp] theorem setReached_fab_exchNext (dom m : Nat) (v : Option (Nat)) : (s.setReached dom m v).fab.exchNext = s.fab.exchNext := rfl
@[simp] theorem setReached_fab_sent (dom m : Nat) (v : Option (Nat)) : (s.setReached dom m v).fab.sent = s.fab.sent := rfl
@[simp] theorem setReached_fab_unreachable (dom m : Nat) (v : Option (Nat)) : (s.setReached dom m v).fab.unreachable = s.fab.unreachable := rfl
theorem setReached_fab_reached (dom m : Nat) (v : Option (Nat)) : (s.setReached dom m v).fab.reached = s.fab.reached.put (64 * dom + m) v none := rfl
/-- What `setReached` wrote is read back. -/
@[simp] theorem reached_setReached_same (dom m : Nat) (v : Option (Nat)) : (s.setReached dom m v).reached dom m = v := Map.find_put_same ..
theorem reached_setReached_other (dom m : Nat) (v : Option (Nat)) (dom' m' : Nat) (hne : 64 * dom' + m' ≠ 64 * dom + m) : (s.setReached dom m v).reached dom' m' = s.reached dom' m' := Map.find_put_other _ hne ..

@[simp] theorem setDedup_unit (k : Nat) (v : Dedup) : (s.setDedup k v).unit = s.unit := rfl
@[simp] theorem setDedup_router (k : Nat) (v : Dedup) : (s.setDedup k v).router = s.router := rfl
@[simp] theorem setDedup_core (k : Nat) (v : Dedup) : (s.setDedup k v).core = s.core := rfl
@[simp] theorem setDedup_sync (k : Nat) (v : Dedup) : (s.setDedup k v).sync = s.sync := rfl
@[simp] theorem setDedup_cluster (k : Nat) (v : Dedup) : (s.setDedup k v).cluster = s.cluster := rfl
@[simp] theorem setDedup_mesh (k : Nat) (v : Dedup) : (s.setDedup k v).mesh = s.mesh := rfl
@[simp] theorem setDedup_mem (k : Nat) (v : Dedup) : (s.setDedup k v).mem = s.mem := rfl
@[simp] theorem setDedup_die (k : Nat) (v : Dedup) : (s.setDedup k v).die = s.die := rfl
@[simp] theorem setDedup_hub (k : Nat) (v : Dedup) : (s.setDedup k v).hub = s.hub := rfl
@[simp] theorem setDedup_sag (k : Nat) (v : Dedup) : (s.setDedup k v).sag = s.sag := rfl
@[simp] theorem setDedup_agenda (k : Nat) (v : Dedup) : (s.setDedup k v).agenda = s.agenda := rfl
@[simp] theorem setDedup_free (k : Nat) (v : Dedup) : (s.setDedup k v).free = s.free := rfl
@[simp] theorem setDedup_now (k : Nat) (v : Dedup) : (s.setDedup k v).now = s.now := rfl
@[simp] theorem setDedup_cur (k : Nat) (v : Dedup) : (s.setDedup k v).cur = s.cur := rfl
@[simp] theorem setDedup_act (k : Nat) (v : Dedup) : (s.setDedup k v).act = s.act := rfl
@[simp] theorem setDedup_fab_fabricId (k : Nat) (v : Dedup) : (s.setDedup k v).fab.fabricId = s.fab.fabricId := rfl
@[simp] theorem setDedup_fab_moduleId (k : Nat) (v : Dedup) : (s.setDedup k v).fab.moduleId = s.fab.moduleId := rfl
@[simp] theorem setDedup_fab_map (k : Nat) (v : Dedup) : (s.setDedup k v).fab.map = s.fab.map := rfl
@[simp] theorem setDedup_fab_flashMap (k : Nat) (v : Dedup) : (s.setDedup k v).fab.flashMap = s.fab.flashMap := rfl
@[simp] theorem setDedup_fab_links (k : Nat) (v : Dedup) : (s.setDedup k v).fab.links = s.fab.links := rfl
@[simp] theorem setDedup_fab_members (k : Nat) (v : Dedup) : (s.setDedup k v).fab.members = s.fab.members := rfl
@[simp] theorem setDedup_fab_reached (k : Nat) (v : Dedup) : (s.setDedup k v).fab.reached = s.fab.reached := rfl
@[simp] theorem setDedup_fab_farr (k : Nat) (v : Dedup) : (s.setDedup k v).fab.farr = s.fab.farr := rfl
@[simp] theorem setDedup_fab_fexit (k : Nat) (v : Dedup) : (s.setDedup k v).fab.fexit = s.fab.fexit := rfl
@[simp] theorem setDedup_fab_fbreak (k : Nat) (v : Dedup) : (s.setDedup k v).fab.fbreak = s.fab.fbreak := rfl
@[simp] theorem setDedup_fab_ratoms (k : Nat) (v : Dedup) : (s.setDedup k v).fab.ratoms = s.fab.ratoms := rfl
@[simp] theorem setDedup_fab_exch (k : Nat) (v : Dedup) : (s.setDedup k v).fab.exch = s.fab.exch := rfl
@[simp] theorem setDedup_fab_arriving (k : Nat) (v : Dedup) : (s.setDedup k v).fab.arriving = s.fab.arriving := rfl
@[simp] theorem setDedup_fab_exchNext (k : Nat) (v : Dedup) : (s.setDedup k v).fab.exchNext = s.fab.exchNext := rfl
@[simp] theorem setDedup_fab_sent (k : Nat) (v : Dedup) : (s.setDedup k v).fab.sent = s.fab.sent := rfl
@[simp] theorem setDedup_fab_unreachable (k : Nat) (v : Dedup) : (s.setDedup k v).fab.unreachable = s.fab.unreachable := rfl
theorem setDedup_fab_dedup (k : Nat) (v : Dedup) : (s.setDedup k v).fab.dedup = s.fab.dedup.put (k) v {} := rfl
/-- What `setDedup` wrote is read back. -/
@[simp] theorem dedup_setDedup_same (k : Nat) (v : Dedup) : (s.setDedup k v).dedup k = v := Map.find_put_same ..
theorem dedup_setDedup_other (k : Nat) (v : Dedup) (k' : Nat) (hne : k' ≠ k) : (s.setDedup k v).dedup k' = s.dedup k' := Map.find_put_other _ hne ..

end Sys2Proof.Machine
end

