-- ==== Sys2Proof/Laws/Run.lean ====
section
/-! SUPPORT. The frame of every task instruction: what `runInstr` does at each outcome of the checks of R12. -/
namespace Sys2Proof.Machine

theorem foldl_repair_sound (i : Issue) (s : State) :
    ∀ ns : List Nat, (∀ n ∈ ns, s.badReg i.pe n = false) → ns.foldl i.repair s = s
  | [], _ => rfl
  | n :: ns, h => by
    have hn := h n (by simp)
    rw [List.foldl_cons, show i.repair s n = s by simp [Issue.repair, hn]]
    exact foldl_repair_sound i s ns fun m hm => h m (by simp [hm])

theorem firstFrom_none (p : Nat → Bool) : ∀ n i, (∀ k, p k = false) → firstFrom p i n = none
  | 0, _, _ => rfl
  | n + 1, i, h => by rw [firstFrom, h i]; exact firstFrom_none p n (i + 1) h

theorem lowestDamaged_sound (s : State) (pe : Nat) (ns : List Nat) (h : ∀ n ∈ ns, s.damagedReg pe n = false) :
    lowestDamaged s pe ns = none := by
  refine firstFrom_none _ _ _ fun k => ?_
  by_cases hk : k ∈ ns
  · simp [h k hk]
  · simp [hk]

/-- An instruction that passes the checks is performed. -/
theorem runInstr_ready {spec : OpSpec} {w : Fields} {slot : Nat} {s : State} (h : Ready spec w slot s) (body : Issue → Done) :
    runInstr spec w body s =
      if !spec.perLane && !(s.at spec w slot).guard.getLsbD 0 then .next (s.sequence s.cur slot (BitVec.ofNat 8 spec.op) w)
      else match body (s.at spec w slot) with
        | .done t => .next (t.sequence s.cur slot (BitVec.ofNat 8 spec.op) w)
        | .fail c d t => .next ((s.at spec w slot).failWith t c d)
        | .hold t => .next t := by
  obtain ⟨hf, hc, hr⟩ := h
  unfold runInstr
  simp only [hf, hc]
  have hn : ∀ n ∈ (if (s.at spec w slot).task.wait = .none then (s.at spec w slot).regsRead else []),
      s.badReg s.cur n = false ∧ s.damagedReg s.cur n = false := by
    split
    · exact hr
    · intro n h; cases h
  rw [foldl_repair_sound _ s _ fun n h => (hn n h).1, lowestDamaged_sound s _ _ fun n h => (hn n h).2]
  try rfl

/-- An instruction that fails a check emits one poison token and nothing else, and goes on (R13). -/
theorem runInstr_fails {spec : OpSpec} {w : Fields} {slot : Nat} {s : State} {c d : Nat} (hf : s.firingSlot s.cur = some slot)
    (hc : (s.at spec w slot).check = some (c, d)) (body : Issue → Done) :
    runInstr spec w body s = .next ((s.at spec w slot).failWith s c d) := by
  unfold runInstr
  simp only [hf, hc]

/-- A PE without a firing issues nothing. -/
theorem runInstr_idle {s : State} (hf : s.firingSlot s.cur = none) (spec : OpSpec) (w : Fields) (body : Issue → Done) :
    runInstr spec w body s = .next s := by
  unfold runInstr
  simp only [hf]

/-- Every task instruction answers a next state. -/
theorem runInstr_next (spec : OpSpec) (w : Fields) (body : Issue → Done) (s : State) : ∃ t, runInstr spec w body s = .next t := by
  unfold runInstr
  dsimp only
  repeat' split
  all_goals exact ⟨_, rfl⟩

/-- An instruction that acts on its PE alone is performed. -/
theorem runUnit_ready {spec : OpSpec} {w : Fields} {slot : Nat} {s : State} (h : Ready spec w slot s) (eff : Issue → Eff) :
    runUnit spec w eff s =
      if !spec.perLane && !(s.at spec w slot).guard.getLsbD 0 then .next (s.sequence s.cur slot (BitVec.ofNat 8 spec.op) w)
      else .next (((s.at spec w slot).apply s (eff (s.at spec w slot))).sequence s.cur slot (BitVec.ofNat 8 spec.op) w) := by
  unfold runUnit
  rw [runInstr_ready h]

/-! ## Destinations -/

/-- A register write changes that register, its log and its marks. -/
theorem writeReg_only (s : State) (pe n : Nat) (v : Word) (full : Bool) :
    s.writeReg pe n v full = { s with unit := { s.unit with
      regs := (s.writeReg pe n v full).unit.regs, oplog := (s.writeReg pe n v full).unit.oplog
      badRegs := (s.writeReg pe n v full).unit.badRegs, damaged := (s.writeReg pe n v full).unit.damaged } } ∧
    ∀ k, k ≠ 64 * pe + n → (s.writeReg pe n v full).unit.regs.find k 0 = s.unit.regs.find k 0 ∧
      (s.writeReg pe n v full).unit.badRegs.find k false = s.unit.badRegs.find k false ∧
      (s.writeReg pe n v full).unit.damaged.find k false = s.unit.damaged.find k false := by
  cases full
  · exact ⟨rfl, fun k hk => ⟨Map.find_put_other _ hk .., rfl, rfl⟩⟩
  · exact ⟨rfl, fun k hk => ⟨Map.find_put_other _ hk .., Map.find_put_other _ hk .., Map.find_put_other _ hk ..⟩⟩

theorem writeReg_reg (s : State) (pe n : Nat) (v : Word) (full : Bool) : (s.writeReg pe n v full).reg pe n = v := by
  cases full <;> exact Map.find_put_same ..

/-- Writing `D` changes nothing but `D`. -/
theorem putD_only (i : Issue) (v : Word) : i.OnlyD (i.putD i.s v) := by
  unfold Issue.OnlyD Issue.putD
  cases opnd i.w.d with
  | reg n => exact writeReg_only ..
  | chan h => exact ⟨rfl, fun k hk => Map.find_put_other _ hk ..⟩
  | _ => rfl

/-- `D` holds what was written to it. -/
theorem putD_destIn (i : Issue) (v : Word) (h : i.spec.d = .dst ∨ i.spec.d = .regOnly) (hl : i.posOk i.spec.d i.w.d i.offD = true)
    (hz : opnd i.w.d ≠ .zero) : i.destIn (i.putD i.s v) = v := by
  unfold Issue.destIn Issue.oldD Issue.word Issue.putD
  have hu : i.spec.d.used = true := by rcases h with h | h <;> rw [h] <;> rfl
  unfold Issue.posOk at hl
  rw [hu] at hl
  cases e : opnd i.w.d with
  | reg n => dsimp only; exact writeReg_reg ..
  | chan c =>
    dsimp only
    exact congrArg Token.payload (Map.find_put_same ..)
  | zero => exact absurd e hz
  | _ =>
    rw [e] at hl
    rcases h with h | h <;> rw [h] at hl <;> simp [Pos.dst, Pos.regOnly] at hl

end Sys2Proof.Machine
end

