-- ==== Sys2Proof/Laws/Translate.lean ====
section
/-! SUPPORT. What translation answers when nothing stops it: a descriptor and a tile table entry come from memory, a range of one page
from its entry (spec/10 R272 to R277). -/
namespace Sys2Proof.Machine

/-- No copy is used where none is kept. -/
theorem State.cachedXlat_none {s : State} {a : Asker} {tid : Nat} {page : Option Nat}
    (h : s.cluster.xlat.find? (fun c => decide (c.comet = a.comet ∧ c.dom = a.dom ∧ c.tid = tid ∧ c.page = page)) = none) :
    s.cachedXlat a tid page = none := by
  simp only [State.cachedXlat, h]; split <;> rfl

/-- A descriptor that is not cached is read from the table, and a valid one is the answer. -/
theorem State.descriptor_of_memory {s t : State} {a : Asker} {tid : Nat} {bs : List Byte} (hd : tid < (s.ctx a.dom).dtcnt)
    (hc : s.cachedXlat a tid none = none)
    (hm : s.memRead a.dom a.dom ((s.ctx a.dom).dtbase.toNat + 64 * tid) 64 = (.inl bs, t))
    (ok : (HTensor.ofBits (BitVec.ofNat 512 (natOfBytes bs))).ok = true) :
    s.descriptor a tid =
      (.inl (HTensor.ofBits (BitVec.ofNat 512 (natOfBytes bs))), t.keepXlat a tid none (BitVec.ofNat 512 (natOfBytes bs))) := by
  simp only [State.descriptor, Nat.not_le.2 hd, if_false, hc, hm, ok, if_true]

/-- An entry that is not cached is read from the tile table; one with `PRESENT` set that passes the checks is the answer, and is kept. -/
theorem State.pageEntry_of_memory {s u : State} {a : Asker} {tid : Nat} {t : HTensor} {page : Nat} {x : Access} {bs : List Byte}
    (hc : s.cachedXlat a tid (some page) = none) (hm : s.memRead a.dom a.dom (t.ttaddr + 8 * page) 8 = (.inl bs, u))
    (hp : bitAt 27 (BitVec.ofNat 64 (natOfBytes bs)) = true)
    (ok : checkEntry u.mem.parity u.mem.frameCount t.big a.dom tid page x (BitVec.ofNat 64 (natOfBytes bs)) = none) :
    s.pageEntry a tid t page x = (.inl (BitVec.ofNat 64 (natOfBytes bs)),
      u.keepXlat a tid (some page) ((BitVec.ofNat 64 (natOfBytes bs)).setWidth 512)) := by
  have hk : ∀ b, (u.keepXlat a tid (some page) b).mem = u.mem := fun _ => rfl
  simp only [State.pageEntry, hc, hm, hp, if_true, hk, ok]

/-- An entry that is not cached and that a check stops ends the access. -/
theorem State.pageEntry_stops {s u : State} {a : Asker} {tid : Nat} {t : HTensor} {page : Nat} {x : Access} {bs : List Byte} {f : XFail}
    (hc : s.cachedXlat a tid (some page) = none) (hm : s.memRead a.dom a.dom (t.ttaddr + 8 * page) 8 = (.inl bs, u))
    (hp : bitAt 27 (BitVec.ofNat 64 (natOfBytes bs)) = false)
    (no : checkEntry u.mem.parity u.mem.frameCount t.big a.dom tid page x (BitVec.ofNat 64 (natOfBytes bs)) = some f) :
    s.pageEntry a tid t page x = (.inr f, u) := by
  simp only [State.pageEntry, hc, hm, hp, if_false, no, Bool.false_eq_true]

/-- A range inside one page goes to the frames of its entry. -/
theorem State.translate_one {s u : State} {a : Asker} {tid : Nat} {t : HTensor} {x : Access} {off n : Nat} {e : BitVec 64} (h0 : 0 < n)
    (h : off % 2 ^ t.pageBits + n ≤ 2 ^ t.pageBits) {page : Nat} (hq : off / 2 ^ t.pageBits = page)
    (he : s.pageEntry a tid t page x = (.inl e, u)) {m : Nat} :
    s.translate a tid t x off n [] (m + 2) = (.inl (splitFrames (65536 * bitsOf 38 26 e) (off % 2 ^ t.pageBits) n (bitsOf 28 10 e) (bitAt 26 e) 33), u) := by
  have hk : Nat.min n (2 ^ t.pageBits - off % 2 ^ t.pageBits) = n := Nat.min_eq_left (by omega)
  simp only [State.translate, Nat.ne_of_gt h0, if_false, hq, he, hk, Nat.sub_self, if_true, List.nil_append]

/-- A page whose entry ends the access ends the translation. -/
theorem State.translate_stops {s u : State} {a : Asker} {tid : Nat} {t : HTensor} {x : Access} {off n : Nat} {f : XFail} (h0 : 0 < n)
    {page : Nat} (hq : off / 2 ^ t.pageBits = page) (he : s.pageEntry a tid t page x = (.inr f, u)) : s.translate a tid t x off n [] 2 = (.inr f, u) := by
  simp only [State.translate, Nat.ne_of_gt h0, if_false, hq, he]

/-- A pointer of a fibre is read from where its element is translated to. -/
theorem State.readPointer_of {s u v : State} {a : Asker} {tid : Nat} {t : HTensor} {n : Nat} {ps : List Piece} {bs : List Byte}
    {off : Nat} (hp : (t.shape.place n).1 = off) (ht : s.translate a tid t { read := true } off 4 [] 2 = (.inl ps, u)) (hr : u.hbmRead a ps = (.inl bs, v)) :
    s.readPointer a tid t n = (.inl (natOfBytes bs), v) := by
  simp only [State.readPointer, hp, ht, hr]

/-- A tensor of a fibre is a descriptor of rank 1. -/
theorem State.fibreTensor_of {s u : State} {a : Asker} {tid : Nat} {n32 : Bool} {t : HTensor} (hd : s.descriptor a tid = (.inl t, u))
    (hr : (decide (t.shape.rankm1 = 0) && (!n32 || decide (t.shape.fmt = 6))) = true) : s.fibreTensor a tid n32 = (.inl t, u) := by
  simp only [State.fibreTensor, hd, hr, if_true]

/-- The parts of a graph access of its own domain whose coordinates name an element are those that translation gives. -/
theorem State.graphPieces_of {s u : State} {a : Asker} {q : GraphReq} {t : HTensor} {off : Nat} (h1 : bitsOf 77 179 q.req.payload = 0)
    (h2 : q.req.dom = a.dom) (h3 : q.write = true → q.data.dom = a.dom) (h4 : bitAt 76 q.req.payload = false)
    (hd : s.descriptor a (bitsOf 64 12 q.req.payload) = (.inl t, u)) (ho : t.shape.offset (bitsOf 0 64 q.req.payload) = some off)
    (hs : off + elemBytes t.shape.fmt ≤ t.shape.span) (h0 : 0 < elemBytes t.shape.fmt) :
    s.graphPieces a q = u.translate a (bitsOf 64 12 q.req.payload) t { read := !q.write, write := q.write } off (elemBytes t.shape.fmt) [] 2 := by
  cases hw : q.write <;> simp_all [State.graphPieces, Nat.not_lt.2 hs, Nat.ne_of_gt h0]

end Sys2Proof.Machine
end

