-- ==== Sys2Proof/Tests/Slice0.lean ====
section
/-! SUPPORT. Tests: terms that well-formedness refuses, words written from the manual's encodings, one step of an instruction each with
the result that the manual gives, and a witness for the hypotheses of each statement. -/
namespace Sys2Proof.Tests

set_option Elab.async false

open Sys2Proof Sys2Proof.Machine

/-! ## Well-formedness: a term that each check refuses, at the end of its range -/

theorem test_wf_refuses_1 : ([
    .tdep { mod := 1 }, .tdepAdd { mod := 0 }, .xchg { mod := 2 }, .xchgRaw { mod := 0 }, .resume { mod := 1 },
    .resumeFail { mod := 0 }, .barw { mod := 1 }, .barwT { mod := 0 }, .sagvfyUnlock { x := 1 }, .sagvfyManifest {},
    .keywipe { mod := 1 }, .keywipeAll { mod := 0 }, .illegalOp 0x37 {}, .illegalOp 0xF7 {}, .dataFiringStart 32768,
    .markerFiring 32768, .suspendedResume 32768, .realignStart 32768 0, .realignStart 0 8, .realignDiscard 32768 0 0,
    .realignDiscard 0 8 0, .realignDiscard 0 0 6, .realignPoisonEmit 32768 0 6, .realignPoisonEmit 0 8 6,
    .realignPoisonEmit 0 0 5, .realignPoisonEmit 0 0 12, .timingDetectorFlag 0 32768, .timingDetectorFlag 1 65536,
    .timingDetectorFlag 2 512, .timingDetectorFlag 3 0, .localPortDeliver 32768, .localPortTake 32768,
    .routeHop 32768 0 0, .routeHop 0 4 0, .routeHop 0 3 1, .routeHop 0 5 4, .routeHop 0 7 0, .elementPortTransfer 32768 0,
    .elementPortTransfer 0 2, .passFiring 32768 0] : List Instr).all (fun i => !i.wf) = true := by decide +kernel

theorem test_wf_refuses_2 : ([
    .steerFiring 32768 0, .mergeFiring 32768 0, .forkFiring 32768 0, .joinFiring 32768 0, .gateFiring 32768 0,
    .filterFiring 32768 0, .operatorMarkerFiring 32768 0, .operatorRealignDiscard 32768 0, .carryFiring 32768 0,
    .irepFiring 32768 0, .loopgenLoad 32768 0, .loopgenEmit 32768 0, .sinkFiring 32768 0, .mcutPass 32768 0,
    .mcutGatingRequest 32768 0, .mcutRelease 32768 0, .memnodeAccept 8192 0, .memnodeAccept 0 5, .memnodePerform 8192 0,
    .memnodeResultEmit 8192 0, .memnodeResultEmit 0 3, .memnodeMarker 8192 0, .memnodeMarker 0 3,
    .memnodePairRealign 8192 0, .memnodePairRealign 0 2, .poolEccWriteback 2048 0, .poolEccWriteback 0 65536,
    .agenSweepStart 8192, .agenTrigger 8192, .agenEmit 8192, .agenGatingRequest 8192, .glazeAccept 2048,
    .glazeOutput 2048, .cometAccess 256 0 0, .cometAccess 0 256 0, .graphPortAccept 256 0, .graphPortAccept 0 256,
    .graphPortResult 256 0, .graphPortResult 0 256, .cometCommandPerform 2048 0] : List Instr).all (fun i => !i.wf) = true := by decide +kernel

theorem test_wf_refuses_3 : ([
    .streamFetch 2048 0 0, .streamFetch 0 24 0, .streamFetch 0 0 2, .streamFetchReturn 2048 0 0 0,
    .streamFetchReturn 0 24 0 0, .streamFetchReturn 0 0 2 0, .gatherUnitServe 24, .kilnSubtileIssue 128,
    .kilnRecordFailReady 128, .kilnSubtileStart 512, .kilnStep 512, .kilnSpillEnd 512, .kilnDrain 512,
    .kilnRecordComplete 128 0, .kilnSubtileMigrate 128, .tfillSourceCheck 128 0, .tfillSourceCheck 0 128,
    .tfillComplete 128 0, .tfillComplete 0 128, .meshFlitHop 128 0, .meshFlitHop 0 12, .packetAgePromote 128 0 0,
    .packetAgePromote 0 12 0, .packetAgePromote 0 0 4, .meshCrcReplay 128 0 false, .meshCrcReplay 0 4 false,
    .controllerRead 128, .controllerWrite 128, .tagUe 6 0, .tagUe 1 2048, .tagUe 0x0C 128, .tagUe 0x0D 24, .tagUe 0x0E 8,
    .tagUe 0x0F 1, .tagUe 0x10 0, .loaderFrameRead 128, .configCacheLookup 128, .quiescenceSweep 8, .dieHeartbeat 8,
    .heartbeatMissing 8] : List Instr).all (fun i => !i.wf) = true := by decide +kernel

theorem test_wf_refuses_4 : ([
    .deadlockTimeout 8 0 0, .deadlockTimeout 0 1024 0, .watchdogExpiry 8 0, .watchdogExpiry 0 1024, .launchNoticeApply 8,
    .tickNoticeApply 8, .loadedNoticeApply 8, .endedNoticeApply 8, .savedNoticeApply 8, .committedNoticeApply 8,
    .errorNoticeApply 8, .preemptNoticeApply 8, .resumeNoticeApply 8, .killNoticeApply 8, .killDrainEnd 8 0 0,
    .killDrainEnd 0 1024 0, .watchdogNoticeApply 8, .csrNoticeApply 8, .phaseNoticeApply 8, .histNoticeApply 8,
    .dieLossApply 8, .linkSplitApply 8, .wheelHistogramRead 1024 0, .saveRecordWrite 8 0 0, .saveRecordWrite 0 1024 0,
    .commitWrite 8 0 0, .commitWrite 0 1024 0, .exchangeStep 1024, .launchrWrite 64 0, .lstatClear 64 0, .mbCreate 64,
    .mbDestroy 64, .mbPreempt 64, .mbResume 64, .mbKill 64, .mbAssign 64, .mbQueryBootEntry 64, .mbQueryExcluded 64,
    .mbClrboot 64, .mbSupcfg 64] : List Instr).all (fun i => !i.wf) = true := by decide +kernel

theorem test_wf_refuses_5 : ([
    .mbDoorbellBusy 64, .windowRead 64 0 0, .windowWrite 64 0 [], .registerPageBadAccess 64 0 4 false,
    .registerPageBadAccess 0 0 8 false, .registerWrite 64 0 0, .registerWrite 0 4 0, .flr 64, .blackBoxRead 9 0,
    .peerEpochRead 12, .fabricMapWrite 0 64 [], .fabricMapWrite 0 0 (List.replicate 65 0), .thermalThrottle 8,
    .thermalShutdown 8, .linkFrameReceive 12 0, .linkReplay 12 false, .bexwenRetrain 12 0 0 0 false,
    .bexwenRetrain 0 0 64 0 false, .ctxBody 64 0 false, .ctxBody 0 1024 false, .phaseBody 64 0 0, .phaseBody 0 1024 0,
    .farrBody 64 0 0 0, .farrBody 0 1024 0 0, .fexitBody 64 0 0, .fexitBody 0 1024 0, .fbreakBody 64 0 0,
    .fbreakBody 0 1024 0, .remoteExchangeWrite 64 0 0 0 [] false {}, .remoteExchangeWrite 0 1024 0 0 [] false {},
    .moduleUnreachable 64, .receiverLockLoss 12] : List Instr).all (fun i => !i.wf) = true := by decide +kernel

/-! ## Decoding: a word for every opcode of R26, with the fields of R11: `NXT` 5, `TGT` 0xA3, `PQ` 6, `PG` 1, `FMT` 0x12, `D` 0x3C,
`A` 0x5A, `B` 0x61, `C` 0x90 -/

/-- The fields of the words below. -/
def wordFields (mod : BitVec 4) (x : BitVec 48) : Fields :=
  { nxt := 5, tgt := 0xA3, pq := 6, pg := true, fmt := 0x12, mod, d := 0x3C, a := 0x5A, b := 0x61, c := 0x90, x }

/-- The word decodes to this instruction, and it encodes to the word. -/
def reads (p : Tiw × Instr) : Bool := decide (decodeEntry false p.1 = p.2) && decide (encode p.2 = some (false, p.1))

theorem test_decode_integer_1 : ([
    (0x00B4_7B24_3C5A_6190_ABCD_EF12_3456, .nop (wordFields 4 0xABCDEF123456)),
    (0x01B4_7B24_3C5A_6190_ABCD_EF12_3456, .mov (wordFields 4 0xABCDEF123456)),
    (0x02B4_7B24_3C5A_6190_ABCD_EF12_3456, .ldi (wordFields 4 0xABCDEF123456)),
    (0x03B4_7B24_3C5A_6190_ABCD_EF12_3456, .ldih (wordFields 4 0xABCDEF123456)),
    (0x04B4_7B24_3C5A_6190_ABCD_EF12_3456, .ldl (wordFields 4 0xABCDEF123456)),
    (0x05B4_7B24_3C5A_6190_ABCD_EF12_3456, .lea (wordFields 4 0xABCDEF123456)),
    (0x06B4_7B24_3C5A_6190_ABCD_EF12_3456, .add (wordFields 4 0xABCDEF123456)),
    (0x07B4_7B24_3C5A_6190_ABCD_EF12_3456, .addc (wordFields 4 0xABCDEF123456)),
    (0x08B4_7B24_3C5A_6190_ABCD_EF12_3456, .sub (wordFields 4 0xABCDEF123456)),
    (0x09B4_7B24_3C5A_6190_ABCD_EF12_3456, .subb (wordFields 4 0xABCDEF123456)),
    (0x0AB4_7B24_3C5A_6190_ABCD_EF12_3456, .neg (wordFields 4 0xABCDEF123456)),
    (0x0BB4_7B24_3C5A_6190_ABCD_EF12_3456, .abs (wordFields 4 0xABCDEF123456)),
    (0x0CB4_7B24_3C5A_6190_ABCD_EF12_3456, .min (wordFields 4 0xABCDEF123456)),
    (0x0DB4_7B24_3C5A_6190_ABCD_EF12_3456, .max (wordFields 4 0xABCDEF123456)),
    (0x0EB4_7B24_3C5A_6190_ABCD_EF12_3456, .clamp (wordFields 4 0xABCDEF123456)),
    (0x0FB4_7B24_3C5A_6190_ABCD_EF12_3456, .mul (wordFields 4 0xABCDEF123456)),
    (0x10B4_7B24_3C5A_6190_ABCD_EF12_3456, .mulh (wordFields 4 0xABCDEF123456)),
    (0x11B4_7B24_3C5A_6190_ABCD_EF12_3456, .mad (wordFields 4 0xABCDEF123456)),
    (0x12B4_7B24_3C5A_6190_ABCD_EF12_3456, .div (wordFields 4 0xABCDEF123456)),
    (0x13B4_7B24_3C5A_6190_ABCD_EF12_3456, .rem (wordFields 4 0xABCDEF123456)),
    (0x14B4_7B24_3C5A_6190_ABCD_EF12_3456, .and (wordFields 4 0xABCDEF123456)),
    (0x15B4_7B24_3C5A_6190_ABCD_EF12_3456, .or (wordFields 4 0xABCDEF123456)),
    (0x16B4_7B24_3C5A_6190_ABCD_EF12_3456, .xor (wordFields 4 0xABCDEF123456)),
    (0x17B4_7B24_3C5A_6190_ABCD_EF12_3456, .andn (wordFields 4 0xABCDEF123456)),
    (0x18B4_7B24_3C5A_6190_ABCD_EF12_3456, .orn (wordFields 4 0xABCDEF123456)),
    (0x19B4_7B24_3C5A_6190_ABCD_EF12_3456, .shl (wordFields 4 0xABCDEF123456)),
    (0x1AB4_7B24_3C5A_6190_ABCD_EF12_3456, .shr (wordFields 4 0xABCDEF123456)),
    (0x1BB4_7B24_3C5A_6190_ABCD_EF12_3456, .sar (wordFields 4 0xABCDEF123456))] : List (Tiw × Instr)).all reads = true := by decide +kernel

theorem test_decode_integer_2 : ([
    (0x1CB4_7B24_3C5A_6190_ABCD_EF12_3456, .rol (wordFields 4 0xABCDEF123456)),
    (0x1DB4_7B24_3C5A_6190_ABCD_EF12_3456, .bfx (wordFields 4 0xABCDEF123456)),
    (0x1EB4_7B24_3C5A_6190_ABCD_EF12_3456, .bfi (wordFields 4 0xABCDEF123456)),
    (0x1FB4_7B24_3C5A_6190_ABCD_EF12_3456, .popc (wordFields 4 0xABCDEF123456)),
    (0x20B4_7B24_3C5A_6190_ABCD_EF12_3456, .clz (wordFields 4 0xABCDEF123456)),
    (0x21B4_7B24_3C5A_6190_ABCD_EF12_3456, .ctz (wordFields 4 0xABCDEF123456)),
    (0x22B4_7B24_3C5A_6190_ABCD_EF12_3456, .brev (wordFields 4 0xABCDEF123456)),
    (0x23B4_7B24_3C5A_6190_ABCD_EF12_3456, .cmp (wordFields 4 0xABCDEF123456)),
    (0x24B4_7B24_3C5A_6190_ABCD_EF12_3456, .sel (wordFields 4 0xABCDEF123456)),
    (0x25B4_7B24_3C5A_6190_ABCD_EF12_3456, .sext (wordFields 4 0xABCDEF123456)),
    (0x26B4_7B24_3C5A_6190_ABCD_EF12_3456, .zext (wordFields 4 0xABCDEF123456)),
    (0x27B4_7B24_3C5A_6190_ABCD_EF12_3456, .packs (wordFields 4 0xABCDEF123456)),
    (0x28B4_7B24_3C5A_6190_ABCD_EF12_3456, .qand (wordFields 4 0xABCDEF123456)),
    (0x29B4_7B24_3C5A_6190_ABCD_EF12_3456, .qor (wordFields 4 0xABCDEF123456)),
    (0x2AB4_7B24_3C5A_6190_ABCD_EF12_3456, .qxor (wordFields 4 0xABCDEF123456)),
    (0x2BB4_7B24_3C5A_6190_ABCD_EF12_3456, .qnot (wordFields 4 0xABCDEF123456)),
    (0x2CB4_7B24_3C5A_6190_ABCD_EF12_3456, .qmov (wordFields 4 0xABCDEF123456)),
    (0x2DB4_7B24_3C5A_6190_ABCD_EF12_3456, .qany (wordFields 4 0xABCDEF123456)),
    (0x2EB4_7B24_3C5A_6190_ABCD_EF12_3456, .lcset (wordFields 4 0xABCDEF123456)),
    (0x2FB4_7B24_3C5A_6190_ABCD_EF12_3456, .lcget (wordFields 4 0xABCDEF123456)),
    (0x30B4_7B24_3C5A_6190_ABCD_EF12_3456, .adds (wordFields 4 0xABCDEF123456)),
    (0x31B4_7B24_3C5A_6190_ABCD_EF12_3456, .subs (wordFields 4 0xABCDEF123456)),
    (0x32B4_7B24_3C5A_6190_ABCD_EF12_3456, .avg (wordFields 4 0xABCDEF123456)),
    (0x33B4_7B24_3C5A_6190_ABCD_EF12_3456, .absd (wordFields 4 0xABCDEF123456)),
    (0x34B4_7B24_3C5A_6190_ABCD_EF12_3456, .sad (wordFields 4 0xABCDEF123456)),
    (0x35B4_7B24_3C5A_6190_ABCD_EF12_3456, .wmul (wordFields 4 0xABCDEF123456)),
    (0x36B4_7B24_3C5A_6190_ABCD_EF12_3456, .wadd (wordFields 4 0xABCDEF123456)),
    (0x37B4_7B24_3C5A_6190_ABCD_EF12_3456, .doti (wordFields 4 0xABCDEF123456))] : List (Tiw × Instr)).all reads = true := by decide +kernel

theorem test_decode_vector_1 : ([
    (0x40B4_7B24_3C5A_6190_ABCD_EF12_3456, .fadd (wordFields 4 0xABCDEF123456)),
    (0x41B4_7B24_3C5A_6190_ABCD_EF12_3456, .fsub (wordFields 4 0xABCDEF123456)),
    (0x42B4_7B24_3C5A_6190_ABCD_EF12_3456, .fmul (wordFields 4 0xABCDEF123456)),
    (0x43B4_7B24_3C5A_6190_ABCD_EF12_3456, .fma (wordFields 4 0xABCDEF123456)),
    (0x44B4_7B24_3C5A_6190_ABCD_EF12_3456, .fms (wordFields 4 0xABCDEF123456)),
    (0x45B4_7B24_3C5A_6190_ABCD_EF12_3456, .fnma (wordFields 4 0xABCDEF123456)),
    (0x46B4_7B24_3C5A_6190_ABCD_EF12_3456, .fnms (wordFields 4 0xABCDEF123456)),
    (0x47B4_7B24_3C5A_6190_ABCD_EF12_3456, .fdiv (wordFields 4 0xABCDEF123456)),
    (0x48B4_7B24_3C5A_6190_ABCD_EF12_3456, .fmin (wordFields 4 0xABCDEF123456)),
    (0x49B4_7B24_3C5A_6190_ABCD_EF12_3456, .fmax (wordFields 4 0xABCDEF123456)),
    (0x4AB4_7B24_3C5A_6190_ABCD_EF12_3456, .fminn (wordFields 4 0xABCDEF123456)),
    (0x4BB4_7B24_3C5A_6190_ABCD_EF12_3456, .fmaxn (wordFields 4 0xABCDEF123456)),
    (0x4CB4_7B24_3C5A_6190_ABCD_EF12_3456, .fabs (wordFields 4 0xABCDEF123456)),
    (0x4DB4_7B24_3C5A_6190_ABCD_EF12_3456, .fneg (wordFields 4 0xABCDEF123456)),
    (0x4EB4_7B24_3C5A_6190_ABCD_EF12_3456, .fcpys (wordFields 4 0xABCDEF123456)),
    (0x4FB4_7B24_3C5A_6190_ABCD_EF12_3456, .fcmp (wordFields 4 0xABCDEF123456)),
    (0x50B4_7B24_3C5A_6190_ABCD_EF12_3456, .fclass (wordFields 4 0xABCDEF123456)),
    (0x51B4_7B24_3C5A_6190_ABCD_EF12_3456, .frint (wordFields 4 0xABCDEF123456)),
    (0x52B4_7B24_3C5A_6190_ABCD_EF12_3456, .fdot (wordFields 4 0xABCDEF123456)),
    (0x53B4_7B24_3C5A_6190_ABCD_EF12_3456, .vred (wordFields 4 0xABCDEF123456)),
    (0x54B4_7B24_3C5A_6190_ABCD_EF12_3456, .vscan (wordFields 4 0xABCDEF123456)),
    (0x55B4_7B24_3C5A_6190_ABCD_EF12_3456, .vperm (wordFields 4 0xABCDEF123456)),
    (0x56B4_7B24_3C5A_6190_ABCD_EF12_3456, .vshuf (wordFields 4 0xABCDEF123456)),
    (0x57B4_7B24_3C5A_6190_ABCD_EF12_3456, .vbcast (wordFields 4 0xABCDEF123456)),
    (0x58B4_7B24_3C5A_6190_ABCD_EF12_3456, .vsel (wordFields 4 0xABCDEF123456)),
    (0x59B4_7B24_3C5A_6190_ABCD_EF12_3456, .vins (wordFields 4 0xABCDEF123456)),
    (0x5AB4_7B24_3C5A_6190_ABCD_EF12_3456, .vext (wordFields 4 0xABCDEF123456)),
    (0x5BB4_7B24_3C5A_6190_ABCD_EF12_3456, .vrot (wordFields 4 0xABCDEF123456))] : List (Tiw × Instr)).all reads = true := by decide +kernel

theorem test_decode_vector_2 : ([
    (0x5CB4_7B24_3C5A_6190_ABCD_EF12_3456, .vcmpr (wordFields 4 0xABCDEF123456)),
    (0x5DB4_7B24_3C5A_6190_ABCD_EF12_3456, .vexpd (wordFields 4 0xABCDEF123456)),
    (0x5EB4_7B24_3C5A_6190_ABCD_EF12_3456, .vzip (wordFields 4 0xABCDEF123456)),
    (0x5FB4_7B24_3C5A_6190_ABCD_EF12_3456, .vunzip (wordFields 4 0xABCDEF123456)),
    (0x60B4_7B24_3C5A_6190_ABCD_EF12_3456, .vsort (wordFields 4 0xABCDEF123456)),
    (0x61B4_7B24_3C5A_6190_ABCD_EF12_3456, .viota (wordFields 4 0xABCDEF123456)),
    (0x62B4_7B24_3C5A_6190_ABCD_EF12_3456, .vmask (wordFields 4 0xABCDEF123456))] : List (Tiw × Instr)).all reads = true := by decide +kernel

theorem test_decode_convert : ([
    (0x80B4_7B24_3C5A_6190_ABCD_EF12_3456, .cvt (wordFields 4 0xABCDEF123456)),
    (0x81B4_7B24_3C5A_6190_ABCD_EF12_3456, .cvtfi (wordFields 4 0xABCDEF123456)),
    (0x82B4_7B24_3C5A_6190_ABCD_EF12_3456, .cvtif (wordFields 4 0xABCDEF123456)),
    (0x83B4_7B24_3C5A_6190_ABCD_EF12_3456, .lgenc (wordFields 4 0xABCDEF123456)),
    (0x84B4_7B24_3C5A_6190_ABCD_EF12_3456, .lgdec (wordFields 4 0xABCDEF123456)),
    (0x85B4_7B24_3C5A_6190_ABCD_EF12_3456, .lgmul (wordFields 4 0xABCDEF123456)),
    (0x86B4_7B24_3C5A_6190_ABCD_EF12_3456, .t5pack (wordFields 4 0xABCDEF123456)),
    (0x87B4_7B24_3C5A_6190_ABCD_EF12_3456, .t5unpk (wordFields 4 0xABCDEF123456)),
    (0x88B4_7B24_3C5A_6190_ABCD_EF12_3456, .rcp (wordFields 4 0xABCDEF123456)),
    (0x89B4_7B24_3C5A_6190_ABCD_EF12_3456, .rsq (wordFields 4 0xABCDEF123456)),
    (0x8AB4_7B24_3C5A_6190_ABCD_EF12_3456, .sqrt (wordFields 4 0xABCDEF123456)),
    (0x8BB4_7B24_3C5A_6190_ABCD_EF12_3456, .exp2 (wordFields 4 0xABCDEF123456)),
    (0x8CB4_7B24_3C5A_6190_ABCD_EF12_3456, .lg2 (wordFields 4 0xABCDEF123456)),
    (0x8DB4_7B24_3C5A_6190_ABCD_EF12_3456, .sinpi (wordFields 4 0xABCDEF123456)),
    (0x8EB4_7B24_3C5A_6190_ABCD_EF12_3456, .cospi (wordFields 4 0xABCDEF123456)),
    (0x8FB4_7B24_3C5A_6190_ABCD_EF12_3456, .tanh (wordFields 4 0xABCDEF123456)),
    (0x90B4_7B24_3C5A_6190_ABCD_EF12_3456, .erf (wordFields 4 0xABCDEF123456)),
    (0x91B4_7B24_3C5A_6190_ABCD_EF12_3456, .amaxv (wordFields 4 0xABCDEF123456)),
    (0x92B4_7B24_3C5A_6190_ABCD_EF12_3456, .fscaleb (wordFields 4 0xABCDEF123456)),
    (0x93B4_7B24_3C5A_6190_ABCD_EF12_3456, .fgetexp (wordFields 4 0xABCDEF123456))] : List (Tiw × Instr)).all reads = true := by decide +kernel

theorem test_decode_memory : ([
    (0xA0B4_7B24_3C5A_6190_ABCD_EF12_3456, .ld (wordFields 4 0xABCDEF123456)),
    (0xA1B4_7B24_3C5A_6190_ABCD_EF12_3456, .st (wordFields 4 0xABCDEF123456)),
    (0xA2B4_7B24_3C5A_6190_ABCD_EF12_3456, .ldv (wordFields 4 0xABCDEF123456)),
    (0xA3B4_7B24_3C5A_6190_ABCD_EF12_3456, .stv (wordFields 4 0xABCDEF123456)),
    (0xA4B4_7B24_3C5A_6190_ABCD_EF12_3456, .atom (wordFields 4 0xABCDEF123456)),
    (0xA5B4_7B24_3C5A_6190_ABCD_EF12_3456, .atomr (wordFields 4 0xABCDEF123456)),
    (0xA6B4_7B24_3C5A_6190_ABCD_EF12_3456, .cas (wordFields 4 0xABCDEF123456)),
    (0xA7B4_7B24_3C5A_6190_ABCD_EF12_3456, .hins (wordFields 4 0xABCDEF123456)),
    (0xA8B4_7B24_3C5A_6190_ABCD_EF12_3456, .copy (wordFields 4 0xABCDEF123456)),
    (0xA9B4_7B24_3C5A_6190_ABCD_EF12_3456, .fill (wordFields 4 0xABCDEF123456)),
    (0xAAB4_7B24_3C5A_6190_ABCD_EF12_3456, .fence (wordFields 4 0xABCDEF123456)),
    (0xABB4_7B24_3C5A_6190_ABCD_EF12_3456, .adv (wordFields 4 0xABCDEF123456)),
    (0xACB4_7B24_3C5A_6190_ABCD_EF12_3456, .emit (wordFields 4 0xABCDEF123456)),
    (0xADB4_7B24_3C5A_6190_ABCD_EF12_3456, .emitm (wordFields 4 0xABCDEF123456)),
    (0xAEB4_7B24_3C5A_6190_ABCD_EF12_3456, .testm (wordFields 4 0xABCDEF123456)),
    (0xAFB4_7B24_3C5A_6190_ABCD_EF12_3456, .nxtile (wordFields 4 0xABCDEF123456))] : List (Tiw × Instr)).all reads = true := by decide +kernel

theorem test_decode_streams : ([
    (0xB0B4_7B24_3C5A_6190_ABCD_EF12_3456, .sopen (wordFields 4 0xABCDEF123456)),
    (0xB1B4_7B24_3C5A_6190_ABCD_EF12_3456, .sadv (wordFields 4 0xABCDEF123456)),
    (0xB2B4_7B24_3C5A_6190_ABCD_EF12_3456, .stend (wordFields 4 0xABCDEF123456)),
    (0xB3B4_7B24_3C5A_6190_ABCD_EF12_3456, .sclose (wordFields 4 0xABCDEF123456)),
    (0xB4B4_7B24_3C5A_6190_ABCD_EF12_3456, .fopen (wordFields 4 0xABCDEF123456)),
    (0xB5B4_7B24_3C5A_6190_ABCD_EF12_3456, .fadv (wordFields 4 0xABCDEF123456)),
    (0xB6B4_7B24_3C5A_6190_ABCD_EF12_3456, .ftend (wordFields 4 0xABCDEF123456)),
    (0xB7B4_7B24_3C5A_6190_ABCD_EF12_3456, .fclose (wordFields 4 0xABCDEF123456)),
    (0xB8B4_7B24_3C5A_6190_ABCD_EF12_3456, .fisect (wordFields 4 0xABCDEF123456)),
    (0xB9B4_7B24_3C5A_6190_ABCD_EF12_3456, .fisectc (wordFields 4 0xABCDEF123456)),
    (0xBAB4_7B24_3C5A_6190_ABCD_EF12_3456, .sread (wordFields 4 0xABCDEF123456))] : List (Tiw × Instr)).all reads = true := by decide +kernel

theorem test_decode_kiln : ([
    (0xC0B4_7B24_3C5A_6190_ABCD_EF12_3456, .tclaim (wordFields 4 0xABCDEF123456)),
    (0xC1B4_7B24_3C5A_6190_ABCD_EF12_3456, .trel (wordFields 4 0xABCDEF123456)),
    (0xC2B4_7B24_3C5A_6190_ABCD_EF12_3456, .tfill (wordFields 4 0xABCDEF123456)),
    (0xC3B4_7B24_3C5A_6190_ABCD_EF12_3456, .ttask (wordFields 4 0xABCDEF123456)),
    (0xC4B4_7B24_3C5A_6190_ABCD_EF12_3456, .twait (wordFields 4 0xABCDEF123456)),
    (0xC5B4_7B24_3C5A_6190_ABCD_EF12_3456, .tstat (wordFields 4 0xABCDEF123456)),
    (0xC6B4_7B24_3C5A_6190_ABCD_EF12_3456, .scacc (wordFields 4 0xABCDEF123456)),
    (0xC7B4_7B24_3C5A_6190_ABCD_EF12_3456, .scale (wordFields 4 0xABCDEF123456)),
    (0xC8B4_7B24_3C5A_6190_ABCD_EF12_3456, .ovfcfg (wordFields 4 0xABCDEF123456)),
    (0xC9B4_7B20_3C5A_6190_ABCD_EF12_3450, .tdep (wordFields 0 0xABCDEF123450)),
    (0xC9B4_7B21_3C5A_6190_ABCD_EF12_3450, .tdepAdd (wordFields 1 0xABCDEF123450))] : List (Tiw × Instr)).all reads = true := by decide +kernel

theorem test_decode_comet : ([
    (0xD8B4_7B24_3C5A_6190_ABCD_EF12_3456, .cpy (wordFields 4 0xABCDEF123456)),
    (0xD9B4_7B24_3C5A_6190_ABCD_EF12_3456, .gath (wordFields 4 0xABCDEF123456)),
    (0xDAB4_7B24_3C5A_6190_ABCD_EF12_3456, .scat (wordFields 4 0xABCDEF123456)),
    (0xDBB4_7B24_3C5A_6190_ABCD_EF12_3456, .fgrd (wordFields 4 0xABCDEF123456)),
    (0xDCB4_7B24_3C5A_6190_ABCD_EF12_3456, .fgwr (wordFields 4 0xABCDEF123456)),
    (0xDDB4_7B20_3C5A_6190_ABCD_EF12_3450, .xchg (wordFields 0 0xABCDEF123450)),
    (0xDDB4_7B22_3C5A_6190_ABCD_EF12_3450, .xchgRaw (wordFields 2 0xABCDEF123450)),
    (0xDEB4_7B24_3C5A_6190_ABCD_EF12_3456, .ratom (wordFields 4 0xABCDEF123456)),
    (0xDFB4_7B24_3C5A_6190_ABCD_EF12_3456, .cwait (wordFields 4 0xABCDEF123456)),
    (0xE0B4_7B20_3C5A_6190_ABCD_EF12_3450, .resume (wordFields 0 0xABCDEF123450)),
    (0xE0B4_7B21_3C5A_6190_ABCD_EF12_3450, .resumeFail (wordFields 1 0xABCDEF123450)),
    (0xE1B4_7B24_3C5A_6190_ABCD_EF12_3456, .pref (wordFields 4 0xABCDEF123456))] : List (Tiw × Instr)).all reads = true := by decide +kernel

theorem test_decode_control : ([
    (0xE8B4_7B24_3C5A_6190_ABCD_EF12_3456, .bara (wordFields 4 0xABCDEF123456)),
    (0xE9B4_7B20_3C5A_6190_ABCD_EF12_3450, .barw (wordFields 0 0xABCDEF123450)),
    (0xE9B4_7B21_3C5A_6190_ABCD_EF12_3450, .barwT (wordFields 1 0xABCDEF123450)),
    (0xEAB4_7B24_3C5A_6190_ABCD_EF12_3456, .barex (wordFields 4 0xABCDEF123456)),
    (0xEBB4_7B24_3C5A_6190_ABCD_EF12_3456, .launch (wordFields 4 0xABCDEF123456)),
    (0xECB4_7B24_3C5A_6190_ABCD_EF12_3456, .trap (wordFields 4 0xABCDEF123456)),
    (0xEDB4_7B24_3C5A_6190_ABCD_EF12_3456, .csrr (wordFields 4 0xABCDEF123456)),
    (0xEEB4_7B24_3C5A_6190_ABCD_EF12_3456, .csrw (wordFields 4 0xABCDEF123456)),
    (0xEFB4_7B24_3C5A_6190_ABCD_EF12_3456, .evlog (wordFields 4 0xABCDEF123456)),
    (0xF0B4_7B24_3C5A_6190_ABCD_EF12_3456, .mext (wordFields 4 0xABCDEF123456)),
    (0xF1B4_7B24_3C5A_6190_ABCD_EF12_3456, .attest (wordFields 4 0xABCDEF123456)),
    (0xF2B4_7B20_3C5A_6190_ABCD_EF12_3450, .sagvfyUnlock (wordFields 0 0xABCDEF123450)),
    (0xF2B4_7B20_3C5A_6190_ABCD_EF12_3451, .sagvfyManifest (wordFields 0 0xABCDEF123451)),
    (0xF3B4_7B20_3C5A_6190_ABCD_EF12_3450, .keywipe (wordFields 0 0xABCDEF123450)),
    (0xF3B4_7B21_3C5A_6190_ABCD_EF12_3450, .keywipeAll (wordFields 1 0xABCDEF123450)),
    (0xF4B4_7B24_3C5A_6190_ABCD_EF12_3456, .dbgopen (wordFields 4 0xABCDEF123456)),
    (0xF5B4_7B24_3C5A_6190_ABCD_EF12_3456, .fuserd (wordFields 4 0xABCDEF123456)),
    (0xF6B4_7B24_3C5A_6190_ABCD_EF12_3456, .yield (wordFields 4 0xABCDEF123456)),
    (0xF7B4_7B24_3C5A_6190_ABCD_EF12_3456, .wdog (wordFields 4 0xABCDEF123456))] : List (Tiw × Instr)).all reads = true := by decide +kernel

/-! ## Results that the manual works out, and the published vector of SM3 -/

/-- PE 0 fires a task of this lane width, with these register words. -/
def stepState (lanecfg : Nat) (regs : List (Nat × Word)) : State :=
  let t : Task := { st := .firing, valid := true, lanecfg, pc := 0x34, lc0 := 2, lc1 := 2 }
  let s := (State.reset.setTask 0 0 t).setInfo 0 { dom := some 0, disp := 5, regs := 2, enabled := true }
  regs.foldl (fun s r => s.setReg 0 r.1 r.2) s

/-- The state that an instruction answers. -/
def after (i : Instr) (s : State) : State := match exec i s with | .next t => t | _ => s

/-- A word of 32-bit lanes. -/
def word32 (vs : List Nat) : Word := BitVec.ofNat 256 (vs.foldr (fun v x => x * 2 ^ 32 + v) 0)

/-- Fields of an instruction on registers. -/
def regFields (fmt : BitVec 5) (mod : BitVec 4) (d a b c : BitVec 8) (x : BitVec 48 := 0) : Fields := { fmt, mod, d, a, b, c, x }

/-- The example of spec/05 after R169. -/
def treeState : State := stepState 2 [(4, word32 [0x4B800000, 0x3F800000, 0x3F800000, 0x3F800000])]

/-- spec/05, tree and sequential order: the tree gives 16,777,218, and the other lanes are zero. -/
theorem test_vred_tree : ((after (.vred (regFields 10 0 5 4 0x90 0x90)) treeState).reg 0 5).toNat = 0x4B800001 := by decide +kernel

/-- The same example: each step of the scan rounds back to 2^24. -/
theorem test_vscan_sequential : laneOf 32 7 ((after (.vscan (regFields 10 0 6 4 0x90 0x90)) treeState).reg 0 6) = 0x4B800000 := by decide +kernel

/-- spec/02 R77, the table of encodings: 1.09375, 0.037109375, -0.02, -0.5 and 20. -/
theorem test_lgenc :
    (List.range 5).map (fun k => laneOf 8 k ((after (.lgenc (regFields 12 0 3 1 0x90 0x90 10))
      (stepState 0 [(1, word32 [0x3F8C0000, 0x3D180000, 0xBCA3D70A, 0xBF000000, 0x41A00000])])).reg 0 3)) = [0x10, 0, 0, 0x2C, 0x1F] := by decide +kernel

/-- spec/05 R182: 0x15 times 0x2E is 0x33. -/
theorem test_lgmul : laneOf 8 0 ((after (.lgmul (regFields 12 0 3 1 2 0x90)) (stepState 0 [(1, 0x15), (2, 0x2E)])).reg 0 3) = 0x33 := by decide +kernel

/-- spec/05 R158: +0, +1 and -0 give -0. -/
theorem test_fnma_minus_zero :
    laneOf 32 0 ((after (.fnma (regFields 10 0 5 1 2 3)) (stepState 2 [(2, word32 [0x3F800000]), (3, word32 [0x80000000])])).reg 0 5) = 0x80000000 := by
  decide +kernel

/-- spec/05 R175: `VMASK.f32 q2, w7` with w7 = 3. -/
theorem test_vmask : (after (.vmask (regFields 10 0 0x62 7 0x90 0x90)) (stepState 2 [(7, 3)])).predOf 0 2 = 7 := by decide +kernel

/-- spec/02 R80: byte 0x9A holds the trits 0, -1, +1, +1, 0. -/
theorem test_t5unpk :
    (List.range 5).map (fun k => laneOf 8 k ((after (.t5unpk (regFields 0 0 3 1 0x90 0x90)) (stepState 0 [(1, 0x9A)])).reg 0 3)) = [0, 255, 1, 1, 0] := by
  decide +kernel

/-- spec/03, two nested loops, cycle 2: `LOOP lc0` counts 2 to 1 and branches. -/
theorem test_loop_branches :
    let t := (after (.nop { nxt := 4, tgt := 0x11 }) (stepState 0 [])).task 0 0
    t.lc0 = 1 ∧ t.lc1 = 2 ∧ t.pc = 0x11 := by decide +kernel

/-- spec/06, a division by zero in mid-firing: lane 5 is at fault, at entry 0x34, and the firing goes on. -/
theorem test_div_by_zero :
    let t := after (.div (regFields 2 0 3 1 2 0x90)) (stepState 2 [(1, word32 [9, 9, 9, 9, 9, 9, 9, 9]), (2, word32 [3, 3, 3, 3, 3, 0, 3, 3])])
    ((t.task 0 0).prec.map fun r => (recCause r, recDetail r, bitsOf 186 8 r)) = some (Cause.divZero, 0x20, 0x34) ∧
      laneOf 32 4 (t.reg 0 3) = 3 ∧ (t.task 0 0).trapcnt = 0 := by decide +kernel

/-- spec/08, a tiled address: element (5, 2) of a 10 by 6 tensor in 4 by 4 tiles is at byte 100, and the span is 384 bytes. -/
theorem test_tiled_address :
    let t : Shape := { rankm1 := 1, fmt := 10, ext0 := 10, ext1 := 6, tile0 := 4, tile1 := 4 }
    t.offset (5 + 2 * 2 ^ 16) = some 100 ∧ t.span = 384 := by decide +kernel

/-- spec/09, an exit and an arrival in one cycle: the exit lowers `MEMB` and `EXP`, and the arrival advances the generation. -/
theorem test_barrier_exit_then_arrival :
    let s := State.reset.setBarrier 0 { memb := 3, exp := 3, arr := 1 }
    let t := (s.atCounter 0 0 0 0 (.exit none)).2
    let u := (t.atCounter 1 0 0 0 .arrive).2
    t.barrier 0 = { memb := 2, exp := 2, arr := 1 } ∧ u.barrier 0 = { memb := 2, exp := 2, arr := 0, gen := 1 } := by decide +kernel

/-- spec/09, a four-bit parity decoder: 1011 has parity 1, and 1001 parity 0. -/
theorem test_glaze_parity :
    let g : Glaze := { cells := ⟨[(0, { tt := 0x6996, sel0 := 0, sel1 := 1, sel2 := 2, sel3 := 3 })]⟩, frames := ⟨[(0, 0 :: List.replicate 23 1)]⟩ }
    g.decode 0b1011 = 1 ∧ g.decode 0b1001 = 0 := by decide +kernel

/-- spec/14, locating one byte: unprotected, and protected. -/
theorem test_locate_byte :
    ({ parity := false } : MemState).locate 0xF4245678 = (4, 0x0A2C5678) ∧ ({ parity := true } : MemState).locate 0xF4245678 = (4, 0x0BA06678) := by
  decide +kernel

/-- spec/02, group summation against per-k rounding: eight products 2^-24 onto 1.0 give 0x3F800004. -/
theorem test_kiln_group_sum :
    let g := (List.range 8).foldl (fun (g : GroupSum) _ => g.add (FVal.mul ((ffmt 8).decode false 0x3980) ((ffmt 8).decode false 0x3980))) {}
    kilnRound 10 (.add 0 ((ffmt 10).decode false 0x3F800000) g.value) = 0x3F800004 := by decide +kernel

/-- GB/T 32905, the digest of the three letters abc. -/
theorem test_sm3_abc : Sm.beNat (Sm.sm3 [0x61, 0x62, 0x63]) = 0x66C7F0F462EEEDD9D1F2D46BDC10E4E24167C4875CF2F7A2297DA02B8F4BA8E0 := by
  decide +kernel

/-- GB/T 32907, the example of one block: the key 01 23 ... 10 is also the block, whose first byte is the low byte here; and it comes back. -/
theorem test_sm4_block :
    Sm.sm4Encrypt 0x1032547698BADCFEEFCDAB8967452301 0x1032547698BADCFEEFCDAB8967452301 = 0x46426E534FE9B3865E9606D234DF1E68 ∧
    Sm.sm4Decrypt 0x1032547698BADCFEEFCDAB8967452301 0x46426E534FE9B3865E9606D234DF1E68 = 0x1032547698BADCFEEFCDAB8967452301 := by
  decide +kernel

/-! ## Witnesses: states and operands that meet the hypotheses of the statements -/

/-- Some state and operands pass the checks of this instruction. -/
def Runs (sp : Fields → OpSpec) : Prop := ∃ w slot s, Ready (sp w) w slot s

/-- Some state and operands pass the checks, with the guard on, and meet this condition. -/
def Meets (sp : Fields → OpSpec) (cond : Issue → Prop) : Prop := ∃ w slot s, ReadyOn (sp w) w slot s ∧ cond (s.at (sp w) w slot)

/-- A descriptor that a position allows. -/
def pickPos (p : Pos) : BitVec 8 :=
  if !p.used then 0x90 else if p.reg then 0x01 else if p.chanOut then 0x46 else if p.portIn then 0x40 else if p.portOut then 0x46
  else if p.pred then 0x61 else if p.lc then 0x68 else if p.stream then 0x70 else if p.fibre then 0x80 else if p.imm then 0x91
  else if p.csr then 0xA1 else 0xAA

/-- A key. -/
def key1 : KeyPair := { data := 1, tweak := 2 }

/-- Fields that an opcode allows. -/
def pick (sp : OpSpec) (x : BitVec 48 := 0) (mod : BitVec 4 := 0) : Fields :=
  { fmt := BitVec.ofNat 5 ((sp.fmts.getD []).headD 0), mod, d := pickPos sp.d, a := pickPos sp.a, b := pickPos sp.b, c := pickPos sp.c, x }

/-- PE 0 fires the task in slot 0: an input port 0 with two tokens and an output port 6 for two; entry 7 is a literal, and node 0 is in use. -/
def base (lanecfg : Nat := 0) : State :=
  let t : Task :=
    { st := .firing, valid := true, lanecfg
      ports := ⟨[(0, { declared := true, handle := 0, count := 2 }), (6, { declared := true, handle := 6, count := 2 })]⟩ }
  let s := (State.reset.setTask 0 0 t).setHandle 0 0 { valid := true, cntm1 := 3, cnt := 2 }
  let s := (s.setHandle 0 6 { valid := true, base := 8, cntm1 := 3, output := true }).setEntry 0 7 { word := 0x123, literal := true }
  let s := s.setDieOf 0 { sched := { disps := [{ dom := 0, disp := 5, st := .running, granules := [0] }] } }
  (s.setInfo 0 { dom := some 0, disp := 5, regs := 2, enabled := true }).setNode 0 { valid := true, mode := .ordered, maxOut := 4 }

/-- The firing task, changed. -/
def baseTask (f : Task → Task) : State := base.setTask 0 0 (f (base.task 0 0))

/-- Fields with these operands and `X`. -/
def ops (d a b c : BitVec 8) (x : BitVec 48 := 0) (fmt : BitVec 5 := 0) (mod : BitVec 4 := 0) : Fields := { fmt, mod, d, a, b, c, x }

/-- The lane width that a format asks for. -/
def lanesFor (w : Fields) : Nat := if fmtWidth w.fmt.toNat = 16 then 1 else if fmtWidth w.fmt.toNat = 32 then 2 else 0

theorem runs (sp : Fields → OpSpec) (x : BitVec 48 := 0) (mod : BitVec 4 := 0)
    (h : Ready (sp (pick (sp {}) x mod)) (pick (sp {}) x mod) 0 (base (lanesFor (pick (sp {}) x mod)))) : Runs sp := ⟨_, _, _, h⟩

theorem witness_IntegerLanes :
  Runs (fun _ => spec1 0x01 (List.range 15)) ∧
  Runs (fun _ => { op := 0x02, fmts := some (List.range 15), d := .dst, a := .immOnly }) ∧
  Runs (fun _ => { op := 0x03, fmts := some [2, 3, 6, 7], d := .regOnly, a := .immOnly, readsD := true }) ∧
  Runs (fun _ => { spec3 0x05 [2, 3, 6, 7] with mods := fun _ => true }) ∧
  Runs (fun _ => spec2 0x06 intFmts) ∧
  Runs (fun _ => spec2 0x08 intFmts) ∧
  Runs (fun _ => { spec1 0x0A intFmts with mods := modSat }) ∧
  Runs (fun _ => { spec1 0x0B intFmts with mods := modSat }) ∧
  Runs (fun _ => spec2 0x0C intFmts) ∧
  Runs (fun _ => spec2 0x0D intFmts) ∧
  Runs (fun _ => spec3 0x0E intFmts) ∧
  Runs (fun _ => { spec2 0x0F intFmts with mods := modSat }) ∧
  Runs (fun _ => spec2 0x10 intFmts) ∧
  Runs (fun _ => { spec3 0x11 intFmts with mods := modSat }) ∧
  Runs (fun _ => spec2 0x30 intFmts) ∧
  Runs (fun _ => spec2 0x31 intFmts) ∧
  Runs (fun _ => spec2 0x32 intFmts) ∧
  Runs (fun _ => spec2 0x33 intFmts) := by
  refine ⟨?_, ?_, ?_, ?_, ?_, ?_, ?_, ?_, ?_, ?_, ?_, ?_, ?_, ?_, ?_, ?_, ?_, ?_⟩
  all_goals exact runs _ 0 0 (by decide +kernel)

theorem witness_CarryLanes :
  Runs (fun _ => { spec2 0x07 intFmts with c := .predOnly }) ∧
  Runs (fun _ => { spec2 0x09 intFmts with c := .predOnly }) := by
  refine ⟨?_, ?_⟩
  all_goals exact runs _ 0 0 (by decide +kernel)

theorem witness_Quotients :
  Runs (fun _ => { spec2 0x12 intFmts with mods := modSatBit0 }) ∧
  Runs (fun _ => { spec2 0x13 intFmts with mods := modBit0 }) := by
  refine ⟨?_, ?_⟩
  all_goals exact runs _ 0 0 (by decide +kernel)

theorem witness_WideLanes :
  Runs (fun _ => { spec3 0x34 intFmts with perLane := false }) ∧
  Runs (fun _ => { spec2 0x35 [0, 1, 2, 4, 5, 6] with mods := modBit0 }) ∧
  Runs (fun _ => { spec2 0x36 [0, 1, 2, 4, 5, 6] with mods := modSatBit0 }) ∧
  Runs (fun _ => { spec3 0x37 [0, 4] with mods := modSat }) := by
  refine ⟨?_, ?_, ?_, ?_⟩
  all_goals exact runs _ 0 0 (by decide +kernel)

theorem witness_BitwiseLogic :
  Runs (fun _ => spec2 0x14 intB1) ∧
  Runs (fun _ => spec2 0x15 intB1) ∧
  Runs (fun _ => spec2 0x16 intB1) ∧
  Runs (fun _ => spec2 0x17 intB1) ∧
  Runs (fun _ => spec2 0x18 intB1) := by
  refine ⟨?_, ?_, ?_, ?_, ?_⟩
  all_goals exact runs _ 0 0 (by decide +kernel)

theorem witness_ShiftsAndFields :
  Runs (fun _ => { spec2 0x19 intFmts with mods := modSat }) ∧
  Runs (fun _ => spec2 0x1A intFmts) ∧
  Runs (fun _ => spec2 0x1B intFmts) ∧
  Runs (fun _ => spec2 0x1C intFmts) ∧
  Runs (fun _ => { op := 0x1D, fmts := some intFmts, d := .dst, a := .srcNoImm, xok := fun _ w imm => fieldOk true w imm }) ∧
  Runs (fun _ => { op := 0x1E, fmts := some intFmts, d := .dst, a := .srcNoImm, b := .src, xok := fun _ w imm => fieldOk true w imm }) ∧
  Runs (fun _ => spec1 0x1F intFmts) ∧
  Runs (fun _ => spec1 0x20 intFmts) ∧
  Runs (fun _ => spec1 0x21 intFmts) ∧
  Runs (fun _ => spec1 0x22 intFmts) ∧
  Runs (fun _ => { op := 0x25, fmts := some intFmts, d := .dst, a := .srcNoImm, xok := fun _ w imm => fieldOk false w imm }) ∧
  Runs (fun _ => { op := 0x26, fmts := some intFmts, d := .dst, a := .srcNoImm, xok := fun _ w imm => fieldOk false w imm }) := by
  refine ⟨?_, ?_, ?_, ?_, ?_, ?_, ?_, ?_, ?_, ?_, ?_, ?_⟩
  · exact runs _ 0 0 (by decide +kernel)
  · exact runs _ 0 0 (by decide +kernel)
  · exact runs _ 0 0 (by decide +kernel)
  · exact runs _ 0 0 (by decide +kernel)
  · exact runs _ 8 0 (by decide +kernel)
  · exact runs _ 8 0 (by decide +kernel)
  · exact runs _ 0 0 (by decide +kernel)
  · exact runs _ 0 0 (by decide +kernel)
  · exact runs _ 0 0 (by decide +kernel)
  · exact runs _ 0 0 (by decide +kernel)
  · exact runs _ 8 0 (by decide +kernel)
  · exact runs _ 8 0 (by decide +kernel)

theorem witness_CompareSelectPack :
  Runs (fun _ => { op := 0x23, fmts := some intFmts, d := .predOnly, a := .src, b := .src, mods := fun w => w.mod.toNat < 6 }) ∧
  Runs (fun _ => { spec2 0x24 (intFmts ++ floatFmts) with c := .predOnly }) ∧
  Runs (fun _ => { spec2 0x27 [1, 2, 3, 5, 6, 7] with mods := modBit0 }) := by
  refine ⟨?_, ?_, ?_⟩
  all_goals exact runs _ 0 0 (by decide +kernel)

theorem witness_Predicates :
  Runs (fun _ => specQ 0x28) ∧
  Runs (fun _ => specQ 0x29) ∧
  Runs (fun _ => specQ 0x2A) ∧
  Runs (fun _ => specQ1 0x2B) ∧
  Runs (fun _ => { op := 0x2C, d := .predOnly, a := .predOrSrc }) ∧
  Runs (fun _ => specQ1 0x2D) := by
  refine ⟨?_, ?_, ?_, ?_, ?_, ?_⟩
  all_goals exact runs _ 0 0 (by decide +kernel)

theorem witness_LoopCounters :
  Runs (fun _ => { op := 0x04, d := .dst, perLane := false, xok := fun s _ imm => (s.entry s.cur (imm % 256)).literal }) ∧
  Runs (fun _ => { op := 0x2F, d := .dst, a := .lcOnly, perLane := false }) ∧
  (∃ w : Fields, ∃ slot, ∃ s : State, 
      (Ready { op := 0x2E, d := .lcOnly, a := .src, perLane := false } w slot s)) := by
  refine ⟨?_, ?_, ?_⟩
  · exact runs _ 7 0 (by decide +kernel)
  · exact runs _ 0 0 (by decide +kernel)
  · exact ⟨pick { op := 0x2E, d := .lcOnly, a := .src, perLane := false }, 0, base, by decide +kernel⟩

theorem witness_FloatArithmetic :
  Runs (fun _ => specF2 0x40) ∧
  Runs (fun _ => specF2 0x41) ∧
  Runs (fun _ => specF2 0x42) ∧
  Runs (fun _ => specF3 0x43) ∧
  Runs (fun _ => specF3 0x44) ∧
  Runs (fun _ => specF3 0x45) ∧
  Runs (fun _ => specF3 0x46) ∧
  Runs (fun _ => specF2 0x47) ∧
  Runs (fun _ => { specF2 0x92 with laneCheck := false }) := by
  refine ⟨?_, ?_, ?_, ?_, ?_, ?_, ?_, ?_, ?_⟩
  all_goals exact runs _ 0 0 (by decide +kernel)

theorem witness_FloatSelection :
  let m1 (op : Nat) : OpSpec := { specF2 op with mods := modBit0 }
  Runs (fun _ => m1 0x48) ∧
  Runs (fun _ => m1 0x49) ∧
  Runs (fun _ => m1 0x4A) ∧
  Runs (fun _ => m1 0x4B) ∧
  Runs (fun _ => spec1 0x4C floatFmts) ∧
  Runs (fun _ => spec1 0x4D floatFmts) ∧
  Runs (fun _ => spec2 0x4E floatFmts) ∧
  Runs (fun _ => { op := 0x4F, fmts := some floatFmts, d := .predOnly, a := .src, b := .src, mods := modAny }) ∧
  Runs (fun _ => { spec1 0x50 floatFmts with mods := modBit0 }) ∧
  Runs (fun _ => { spec1 0x51 floatFmts with mods := modRf }) ∧
  Runs (fun _ => { spec1 0x93 floatFmts with mods := modBit0, laneCheck := false }) ∧
  Runs (fun _ => { spec3 0x52 [8, 9] with mods := modAny }) := by
  refine ⟨?_, ?_, ?_, ?_, ?_, ?_, ?_, ?_, ?_, ?_, ?_, ?_⟩
  all_goals exact runs _ 0 0 (by decide +kernel)

theorem witness_Reductions :
  Runs (fun _ => { specRed 0x53 false with wholeD := true }) ∧
  Runs (fun _ => specRed 0x54 true) := by
  refine ⟨?_, ?_⟩
  all_goals exact runs _ 0 0 (by decide +kernel)

theorem witness_LaneMovement :
  Runs (fun _ => spec3 0x55 permFmts) ∧
  Runs (fun _ => { spec1 0x56 permFmts with xok := fun _ _ imm => imm % 2 ^ 16 / 2 ^ 8 = 0 }) ∧
  Runs (fun _ => { spec1 0x57 permFmts with
      xok := fun _ w imm => laneFieldOk w imm && (opnd w.a ≠ .imm || decide (imm % 32 = 0)) }) ∧
  Runs (fun _ => spec3 0x58 (List.range 15)) ∧
  Runs (fun _ => { spec2 0x59 permFmts with xok := fun _ w imm => laneFieldOk w imm }) ∧
  Runs (fun _ => { spec1 0x5A permFmts with xok := fun _ w imm => laneFieldOk w imm }) ∧
  Runs (fun _ => { spec1 0x5C permFmts with b := .predOnly }) ∧
  Runs (fun _ => { spec1 0x5D permFmts with b := .predOnly }) ∧
  Runs (fun _ => { spec2 0x5E permFmts with mods := modBit0 }) ∧
  Runs (fun _ => { spec2 0x5F permFmts with mods := modBit0 }) ∧
  Runs (fun _ => { spec1 0x60 permFmts with mods := modBit0 }) ∧
  Runs (fun _ => { op := 0x61, fmts := some intFmts, d := .dst, a := .predOnly }) ∧
  Runs (fun _ => { op := 0x62, fmts := some permFmts, d := .predOnly, a := .src }) := by
  refine ⟨?_, ?_, ?_, ?_, ?_, ?_, ?_, ?_, ?_, ?_, ?_, ?_, ?_⟩
  all_goals exact runs _ 0 0 (by decide +kernel)

theorem witness_Rotations :
  (∃ w : Fields, ∃ slot, ∃ s : State, (∀ q < 8, opnd w.d ≠ .pred q) ∧ Ready (rotSpec false) w slot s) ∧
  (∃ w : Fields, ∃ slot, ∃ s : State, ∃ q, ∃ p, opnd w.d = .pred q ∧ opnd w.a = .pred p ∧ Ready (rotSpec true) w slot s) := by
  refine ⟨?_, ?_⟩
  · exact ⟨{ fmt := 0, d := 0x01, a := 0x02, b := 0x91, c := 0x90 }, 0, base, by decide +kernel⟩
  · exact ⟨{ fmt := 0, d := 0x61, a := 0x62, b := 0x91, c := 0x90, x := 3 }, 0, base, 1, 2, by decide +kernel⟩

theorem witness_Conversions :
  Runs (fun w => { specCvt 0x80 (intFmts ++ floatFmts) w
        (fun sf => if isInt w.fmt.toNat then isInt sf else isFloat sf) with
      mods := fun w' => !isInt w.fmt.toNat || w'.mod &&& 0b1101 = 0 }) ∧
  Runs (fun w => { specCvt 0x81 intFmts w isFloat with mods := modRf }) ∧
  Runs (fun w => { specCvt 0x82 floatFmts w isInt with mods := fun w => w.mod &&& 0b0001 = 0 }) ∧
  Runs (fun w => specCvt 0x83 [12] w isFloat) ∧
  Runs (fun w => specCvt 0x84 floatFmts w fun sf => decide (sf = 12)) ∧
  Runs (fun _ => { spec2 0x85 [12] with laneCheck := false, xok := fun _ _ imm => decide (imm % 2 ^ 9 = 0) }) := by
  refine ⟨?_, ?_, ?_, ?_, ?_, ?_⟩
  · exact ⟨{ fmt := 10, d := 0x01, a := 0x02, b := 0x90, c := 0x90, x := 8 }, 0, base 0, by decide +kernel⟩
  · exact ⟨{ fmt := 2, d := 0x01, a := 0x02, b := 0x90, c := 0x90, x := 10 }, 0, base 0, by decide +kernel⟩
  · exact ⟨{ fmt := 10, d := 0x01, a := 0x02, b := 0x90, c := 0x90, x := 2 }, 0, base 0, by decide +kernel⟩
  · exact ⟨{ fmt := 12, d := 0x01, a := 0x02, b := 0x90, c := 0x90, x := 8 }, 0, base 0, by decide +kernel⟩
  · exact ⟨{ fmt := 8, d := 0x01, a := 0x02, b := 0x90, c := 0x90, x := 12 }, 0, base 0, by decide +kernel⟩
  · exact runs _ 0 0 (by decide +kernel)

theorem witness_Trits :
  (∃ w : Fields, ∃ slot, ∃ s : State, 
      (Ready (t5Spec 0x87) w slot s) ∧
      (t5Reserved (s.at (t5Spec 0x87) w slot) = none)) ∧
  (∃ w : Fields, ∃ slot, ∃ s : State, ∃ b, 
      (Ready (t5Spec 0x87) w slot s) ∧
      (t5Reserved (s.at (t5Spec 0x87) w slot) = some b)) ∧
  Runs (fun _ => { t5Spec 0x86 with readsD := true, wholeD := true }) := by
  refine ⟨?_, ?_, ?_⟩
  · exact ⟨pick (t5Spec 0x87), 0, base, by decide +kernel⟩
  · exact ⟨pick (t5Spec 0x87), 0, base.setReg 0 1 0xFF, _, by decide +kernel, rfl⟩
  · exact runs _ 0 0 (by decide +kernel)

theorem witness_SpecialFunctions :
  Runs (fun _ => specFn 0x88) ∧
  Runs (fun _ => specFn 0x89) ∧
  Runs (fun _ => specFn 0x8A) ∧
  Runs (fun _ => specFn 0x8B) ∧
  Runs (fun _ => specFn 0x8C) ∧
  Runs (fun _ => specFn 0x8D) ∧
  Runs (fun _ => specFn 0x8E) ∧
  Runs (fun _ => specFn 0x8F) ∧
  Runs (fun _ => specFn 0x90) ∧
  Runs (fun _ => { spec2 0x91 (intFmts ++ floatFmts) with laneCheck := false, wholeD := true }) ∧
  (∃ g ∈ [bf16, f16, f32], g = f32) ∧ (∃ n _d : Nat, 0 < n) ∧ ∃ d : Nat, 0 < d := by
  refine ⟨?_, ?_, ?_, ?_, ?_, ?_, ?_, ?_, ?_, ?_, ⟨f32, by simp, rfl⟩, ⟨1, 0, by decide⟩, ⟨1, by decide⟩⟩
  all_goals exact runs _ 0 0 (by decide +kernel)

theorem witness_SelectLanes :
  let sp : OpSpec := { spec2 0x24 (intFmts ++ floatFmts) with c := .predOnly }
  Runs (fun _ => sp) ∧
  (∃ w : Fields, ∃ slot, ∃ s : State, s.firingSlot s.cur = some slot ∧ (s.at sp w slot).barred = false ∧ w.fmt = 14) ∧
  (∃ w : Fields, 8 ≤ w.fmt.toNat ∧ w.fmt.toNat = 11) := by
  refine ⟨?_, ?_, ?_⟩
  · exact runs _ 0 0 (by decide +kernel)
  · exact ⟨ops 1 1 2 0x61 0 14, 0, base, by decide +kernel⟩
  · exact ⟨ops 1 1 2 0x61 0 11, by decide⟩
theorem witness_SystemRegisters :
  let rd : OpSpec := { op := 0xED, perLane := false, d := .dst, a := .csrOnly }
  let wr : OpSpec := { op := 0xEE, perLane := false, d := .csrDst, a := .src }
  Runs (fun _ => rd) ∧
  Meets (fun _ => wr) (fun x => (∀ p, x.task.wait ≠ .csrSent p) ∧ csrRange (csrNum x.w.d) x.sa = true ∧ csrNum x.w.d ≠ 0x15) ∧
  (∃ w : Fields, ∃ slot, ∃ s : State, 
      (ReadyOn wr w slot s) ∧
      (csrRange (csrNum w.d) (s.at wr w slot).sa = true) ∧
      (csrNum w.d ≠ 0x15)) ∧
  Meets (fun _ => wr) (fun x => (∀ p, x.task.wait ≠ .csrSent p) ∧ csrRange (csrNum x.w.d) x.sa = false) ∧
  Meets (fun _ => wr) (fun x => (∀ p, x.task.wait ≠ .csrSent p) ∧ csrRange 0x15 x.sa = true ∧ csrNum x.w.d = 0x15) ∧
  Meets (fun _ => wr) (fun x => ∃ p, x.task.wait = .csrSent p ∧ x.s.appliedBy x.die p = true) ∧
  Runs (fun _ => wr) := by
  refine ⟨?_, ?_, ?_, ?_, ?_, ?_, ?_⟩
  · exact runs _ 0 0 (by decide +kernel)
  · exact ⟨ops 0xB3 0x91 0x90 0x90 65535, 0, base, by
        refine ⟨by decide +kernel, ?_, by decide +kernel⟩
        exact fun p h => nomatch (show Wait.none = Wait.csrSent p from h)⟩
  · exact ⟨ops 0xB2 0x91 0x90 0x90 0x01010101, 0, base, by decide +kernel⟩
  · exact ⟨ops 0xB3 0x91 0x90 0x90 65536, 0, base, by
        refine ⟨by decide +kernel, ?_, by decide +kernel⟩
        exact fun p h => nomatch (show Wait.none = Wait.csrSent p from h)⟩
  · exact ⟨ops 0xB5 0x91 0x90 0x90 40, 0, base, by
        refine ⟨by decide +kernel, ?_, by decide +kernel⟩
        exact fun p h => nomatch (show Wait.none = Wait.csrSent p from h)⟩
  · exact ⟨ops 0xB5 0x91 0x90 0x90 40, 0, (foldUp 8 (baseTask fun t => { t with wait := .csrSent 0 }) fun s d => s.setDieOf d { s.dieOf d with applied := 1 }), ⟨by decide +kernel, 0, by decide +kernel, by decide +kernel⟩⟩
  · exact runs _ 0 0 (by decide +kernel)

theorem witness_Launches :
  let sp : OpSpec := { op := 0xEB, perLane := false, d := .predOnly, a := .src }
  Meets (fun _ => sp) (fun x => x.sa % 128 ≠ 0) ∧
  Meets (fun _ => sp) (fun x => x.sa % 128 = 0 ∧ x.s.unperformed x.pe x.slot = true) ∧
  Meets (fun _ => sp) (fun x => x.sa % 128 = 0 ∧ x.s.unperformed x.pe x.slot = false ∧ 16 ≤ x.s.launchesWaiting x.die x.dom) ∧
  Meets (fun _ => sp) (fun x => x.sa % 128 = 0 ∧ x.s.unperformed x.pe x.slot = false ∧ x.s.launchesWaiting x.die x.dom < 16) ∧
  Runs (fun _ => sp) := by
  refine ⟨?_, ?_, ?_, ?_, ?_⟩
  · exact ⟨ops 0x61 0x91 0x90 0x90 127, 0, base, by decide +kernel⟩
  · exact ⟨ops 0x61 0x91 0x90 0x90 128, 0, (base.setNode 0 { base.node 0 with queue := [{ src := .pe 0 0, op := .settled }] }), by decide +kernel⟩
  · exact ⟨ops 0x61 0x91 0x90 0x90 128, 0, ({ base with hub := { base.hub with log := List.replicate 16 (.launch 0 {} (some 0)) } } : State), by decide +kernel⟩
  · exact ⟨ops 0x61 0x91 0x90 0x90 128, 0, base, by decide +kernel⟩
  · exact runs _ 0 0 (by decide +kernel)

theorem witness_TrapsAndYields :
  Meets (fun _ => { op := 0xEC, perLane := false }) (fun _ => True) ∧
  Runs (fun _ => { op := 0xEC, perLane := false }) ∧
  Meets (fun _ => { op := 0xF6, perLane := false, noDone := true }) (fun _ => True) ∧
  Runs (fun _ => { op := 0xF6, perLane := false, noDone := true }) ∧
  Meets (fun _ => { op := 0xEF, perLane := false, a := .src }) (fun _ => True) ∧
  Meets (fun _ => { op := 0xF7, perLane := false, super := true, a := .src, b := .src }) (fun x => x.sa < 1024 ∧ (x.sb = 0 ∨ 4096 ≤ x.sb ∧ x.sb < 2 ^ 32)) ∧
  Meets (fun _ => { op := 0xF7, perLane := false, super := true, a := .src, b := .src }) (fun x => 1024 ≤ x.sa) ∧
  Meets (fun _ => { op := 0xF7, perLane := false, super := true, a := .src, b := .src }) (fun x => x.sa < 1024 ∧ (1 ≤ x.sb ∧ x.sb ≤ 4095 ∨ 2 ^ 32 ≤ x.sb)) := by
  refine ⟨?_, ?_, ?_, ?_, ?_, ?_, ?_, ?_⟩
  · exact ⟨ops 0 0 0 0, 0, base, by decide +kernel⟩
  · exact runs _ 0 0 (by decide +kernel)
  · exact ⟨ops 0 0 0 0, 0, base, by decide +kernel⟩
  · exact runs _ 0 0 (by decide +kernel)
  · exact ⟨ops 0 0x91 0 0 0xABC, 0, base, by decide +kernel⟩
  · exact ⟨ops 0 1 2 0, 0, ((base.setReg 0 1 (1023)).setReg 0 2 (4096)), by decide +kernel⟩
  · exact ⟨ops 0 1 2 0, 0, ((base.setReg 0 1 (1024)).setReg 0 2 (0)), by decide +kernel⟩
  · exact ⟨ops 0 1 2 0, 0, ((base.setReg 0 1 (0)).setReg 0 2 (4095)), by decide +kernel⟩

theorem witness_SaggarRequests :
  Meets (fun _ => { op := 0xF0, perLane := false, a := .src, prot := fun _ imm => decide (imm % 16 < 8) }) (fun _ => True) ∧
  Meets (fun _ => { op := 0xF1, perLane := false, d := .predOnly, a := .src }) (fun x => (x.sa % 64 = 0 ∧ x.s.unperformed x.pe x.slot = false) ∧ x.s.sagOutstanding x.dom < 4) ∧
  Meets (fun _ => { op := 0xF1, perLane := false, d := .predOnly, a := .src }) (fun x => (x.sa % 64 = 0 ∧ x.s.unperformed x.pe x.slot = false) ∧ 4 ≤ x.s.sagOutstanding x.dom) ∧
  Meets (fun _ => { op := 0xF1, perLane := false, d := .predOnly, a := .src }) (fun x => x.sa % 64 ≠ 0) ∧
  Meets (fun _ => specSagvfy) (fun x => (x.sa % 64 = 0 ∧ x.s.unperformed x.pe x.slot = false) ∧ x.s.sagOutstanding x.dom < 4) ∧
  Meets (fun _ => specSagvfy) (fun x => (x.sa % 64 = 0 ∧ x.s.unperformed x.pe x.slot = false) ∧ 4 ≤ x.s.sagOutstanding x.dom) ∧
  Meets (fun _ => specSagvfy) (fun x => x.sa % 64 ≠ 0) := by
  refine ⟨?_, ?_, ?_, ?_, ?_, ?_, ?_⟩
  · exact ⟨ops 0 1 0 0 8, 0, base, by decide +kernel⟩
  · exact ⟨ops 0x61 1 0 0, 0, ({ base with hub := { base.hub with sag := List.replicate 3 (.attest 0 0 64 9 0) } } : State), by decide +kernel⟩
  · exact ⟨ops 0x61 1 0 0, 0, ({ base with hub := { base.hub with sag := List.replicate 4 (.attest 0 0 64 9 0) } } : State), by decide +kernel⟩
  · exact ⟨ops 0x61 1 0 0, 0, (base.setReg 0 1 63), by decide +kernel⟩
  · exact ⟨ops 0x61 1 0 0, 0, ({ base with hub := { base.hub with sag := List.replicate 3 (.attest 0 0 64 9 0) } } : State), by decide +kernel⟩
  · exact ⟨ops 0x61 1 0 0, 0, ({ base with hub := { base.hub with sag := List.replicate 4 (.attest 0 0 64 9 0) } } : State), by decide +kernel⟩
  · exact ⟨ops 0x61 1 0 0, 0, (base.setReg 0 1 63), by decide +kernel⟩

theorem witness_KeysAndFuses :
  let wipe : OpSpec := { op := 0xF3, perLane := false, super := true, a := .src, mods := fun w => w.mod &&& 0b1110 = 0 }
  let dbg : OpSpec := { op := 0xF4, perLane := false, super := true, d := .predOnly }
  Runs (fun _ => { op := 0xF5, perLane := false, super := true, d := .dst, xok := fun _ _ imm => decide (imm % 64 < 48) }) ∧
  Meets (fun _ => wipe) (fun x => 0 < x.sa ∧ x.sa < 1024) ∧
  (∃ j k : Nat, j ≠ k) ∧
  Meets (fun _ => wipe) (fun x => x.sa = 0 ∨ 1024 ≤ x.sa) ∧
  (∃ w : Fields, ∃ slot, ∃ s : State, 
      (ReadyOn wipe w slot s) ∧
      ((s.at wipe w slot).sa < 1024)) ∧
  Meets (fun _ => dbg) (fun x => x.s.sag.token = none ∨ x.s.sag.wiped = false) ∧
  (∃ w : Fields, ∃ slot, ∃ s : State, ∃ tok, 
      (ReadyOn dbg w slot s) ∧
      (s.sag.token = some tok) ∧
      (s.sag.wiped = true)) := by
  refine ⟨?_, ?_, ⟨1023, 0, by decide⟩, ?_, ?_, ?_, ?_⟩
  · exact runs _ 47 0 (by decide +kernel)
  · exact ⟨ops 0 1 0 0, 0, (base.setReg 0 1 1023), by decide +kernel⟩
  · exact ⟨ops 0 1 0 0, 0, (base.setReg 0 1 1024), by decide +kernel⟩
  · exact ⟨ops 0 1 0 0 0 0 1, 0, (base.setReg 0 1 1023), by decide +kernel⟩
  · exact ⟨ops 0x61 0 0 0, 0, base, by decide +kernel⟩
  · exact ⟨ops 0x61 0 0 0, 0, ({ base with sag := { base.sag with token := some 9, wiped := true } } : State), 9, by decide +kernel⟩

theorem witness_BarrierArm :
  let sp : OpSpec := { specBar 0xE8 with a := .src }
  let ok (x : Issue) : Prop := 1 ≤ x.sa ∧ x.sa ≤ 65535
  Meets (fun _ => sp) (fun x => ¬ok x) ∧
  Meets (fun _ => sp) (fun x => ok x ∧ barScope x.imm ≠ 0) ∧
  Meets (fun _ => sp) (fun x => ok x ∧ barScope x.imm = 0 ∧ 0 < (x.s.barrier x.counter).arr) ∧
  Meets (fun _ => sp) (fun x => ok x ∧ barScope x.imm = 0 ∧ (x.s.barrier x.counter).arr = 0 ∧ x.sa ≤ (x.s.barrier x.counter).memb) ∧
  Meets (fun _ => sp) (fun x => ok x ∧ barScope x.imm = 0 ∧ (x.s.barrier x.counter).arr = 0 ∧ (x.s.barrier x.counter).memb < x.sa) := by
  refine ⟨?_, ?_, ?_, ?_, ?_⟩
  · exact ⟨ops 0 1 0 0 768, 0, (base.setReg 0 1 65536), by decide +kernel⟩
  · exact ⟨ops 0 1 0 0 0x301, 0, (base.setReg 0 1 65535), by decide +kernel⟩
  · exact ⟨ops 0 1 0 0 768, 0, ((base.setBarrier 3 { memb := 2, exp := 2, arr := 1 }).setReg 0 1 1), by decide +kernel⟩
  · exact ⟨ops 0 1 0 0 768, 0, ((base.setBarrier 3 { memb := 2 }).setReg 0 1 2), by decide +kernel⟩
  · exact ⟨ops 0 1 0 0 768, 0, ((base.setBarrier 3 { memb := 2 }).setReg 0 1 3), by decide +kernel⟩

theorem witness_BarrierArrive :
  let sp : OpSpec := { specBar 0xE9 with d := .predOnly, mods := fun w => w.mod &&& 0b1110 = 0 }
  let b (x : Issue) : Barrier := x.s.barrier x.counter
  let here (x : Issue) : Prop := barScope x.imm = 0 ∧ x.task.wait = .none ∧ (b x).brk = false
  Meets (fun _ => sp) (fun x => here x ∧ x.task.barp = none ∧ 0 < (b x).exp ∧ (b x).arr + 1 ≠ (b x).exp) ∧
  Meets (fun _ => sp) (fun x => here x ∧ x.task.barp = none ∧ 0 < (b x).exp ∧ (b x).arr + 1 = (b x).exp) ∧
  Meets (fun _ => sp) (fun x => here x ∧ (x.task.barp ≠ none ∨ (b x).exp = 0)) ∧
  Meets (fun _ => sp) (fun x => barScope x.imm = 0 ∧ x.task.wait = .none ∧ (b x).brk = true) ∧
  Meets (fun _ => sp) (fun x => x.task.wait = .barDone true false true 3) ∧
  Meets (fun _ => sp) (fun x => x.task.wait = .barDone false true false 3) ∧
  Meets (fun _ => sp) (fun x => x.task.wait = .barDone false false true 3) ∧
  Meets (fun _ => sp) (fun x => x.task.wait = .barDone false false false 3) ∧
  Meets (fun _ => sp) (fun x => x.task.wait = .barSent) ∧
  Meets (fun _ => sp) (fun x => barScope x.imm ≠ 0 ∧ x.task.wait = .none ∧ x.task.barp ≠ none) ∧
  Meets (fun _ => sp) (fun x => barScope x.imm ≠ 0 ∧ x.task.wait = .none ∧ x.task.barp = none) ∧
  Meets (fun _ => sp) (fun x => here x ∧ ∃ g, x.task.barp = some { scope := 0, bar := barId x.imm, gen := g } ∧ (b x).gen ≠ g) ∧
  Meets (fun _ => sp) (fun x => here x ∧ x.task.barp = some { scope := 0, bar := barId x.imm, gen := (b x).gen }) ∧
  Meets (fun _ => sp) (fun x => here x ∧ ∀ p, x.task.barp = some p → p.names 0 (barId x.imm) = false) := by
  refine ⟨?_, ?_, ?_, ?_, ?_, ?_, ?_, ?_, ?_, ?_, ?_, ?_, ?_, ?_⟩
  · exact ⟨ops 0x61 0 0 0 768, 0, ((base).setBarrier 3 { memb := 3, exp := 3, arr := 1 }), by decide +kernel⟩
  · exact ⟨ops 0x61 0 0 0 768, 0, ((base).setBarrier 3 { memb := 3, exp := 3, arr := 2 }), by decide +kernel⟩
  · exact ⟨ops 0x61 0 0 0 768, 0, (((baseTask fun t => { t with barp := some { scope := 0, bar := 3, gen := 0 } })).setBarrier 3 { memb := 3, exp := 3 }), by decide +kernel⟩
  · exact ⟨ops 0x61 0 0 0 768, 0, base.setBarrier 3 { memb := 3, exp := 3, brk := true }, by decide +kernel⟩
  · exact ⟨ops 0x61 0 0 0 0x301, 0, baseTask fun t => { t with wait := .barDone true false true 3 }, by decide +kernel⟩
  · exact ⟨ops 0x61 0 0 0 0x301, 0, baseTask fun t => { t with wait := .barDone false true false 3 }, by decide +kernel⟩
  · exact ⟨ops 0x61 0 0 0 0x301, 0, baseTask fun t => { t with wait := .barDone false false true 3 }, by decide +kernel⟩
  · exact ⟨ops 0x61 0 0 0 0x301, 0, baseTask fun t => { t with wait := .barDone false false false 3 }, by decide +kernel⟩
  · exact ⟨ops 0x61 0 0 0 0x301, 0, baseTask fun t => { t with wait := .barSent }, by decide +kernel⟩
  · exact ⟨ops 0x61 0 0 0 0x301, 0, baseTask fun t => { t with barp := some { scope := 0, bar := 3, gen := 0 } }, by decide +kernel⟩
  · exact ⟨ops 0x61 0 0 0 0x301, 0, base, by decide +kernel⟩
  · exact ⟨ops 0x61 0 0 0 768 0 1, 0, (((baseTask fun t => { t with barp := some { scope := 0, bar := 3, gen := 0 } })).setBarrier 3 { memb := 3, exp := 3, gen := 65535 }), ⟨by decide +kernel, by decide +kernel, 0, by decide +kernel, by decide +kernel⟩⟩
  · exact ⟨ops 0x61 0 0 0 768 0 1, 0, (((baseTask fun t => { t with barp := some { scope := 0, bar := 3, gen := 0 } })).setBarrier 3 { memb := 3, exp := 3 }), by decide +kernel⟩
  · exact ⟨ops 0x61 0 0 0 768 0 1, 0, ((base).setBarrier 3 { memb := 3, exp := 3 }), by decide +kernel, by decide +kernel, fun p h => by cases h⟩

theorem witness_BarrierExit :
  let sp : OpSpec := specBar 0xEA
  let b (x : Issue) : Barrier := x.s.barrier x.counter
  Meets (fun _ => sp) (fun x => barScope x.imm = 0 ∧ x.task.barp = none ∧ 0 < (b x).memb ∧ (b x).exp = 0) ∧
  (let mine (x : Issue) : Bool := x.task.barp.elim false fun p => p.names 0 (barId x.imm)
   let arr (x : Issue) : Nat := if mine x && decide (x.task.barp.map Barp.gen = some (b x).gen) then (b x).arr - 1 else (b x).arr
   let exp (x : Issue) : Nat := Nat.min (b x).exp ((b x).memb - 1)
   Meets (fun _ => sp) (fun x => barScope x.imm = 0 ∧ 0 < (b x).memb ∧ ¬ (0 < exp x ∧ exp x ≤ arr x) ∧ mine x = true ∧ 0 < (b x).exp) ∧
   Meets (fun _ => sp) (fun x => barScope x.imm = 0 ∧ 0 < (b x).memb ∧ 0 < exp x ∧ exp x ≤ arr x) ∧
   Meets (fun _ => sp) (fun x => barScope x.imm = 0 ∧ (b x).memb = 0) ∧
   Meets (fun _ => sp) (fun x => barScope x.imm ≠ 0 ∧ (x.task.barp.elim false fun p => p.names (barScope x.imm) (barId x.imm)) = true)) ∧
  Meets (fun _ => sp) (fun x => barScope x.imm ≠ 0 ∧ (x.task.barp.elim false fun p => p.names (barScope x.imm) (barId x.imm)) = false) ∧
  (∃ index, ∃ s : State, ∃ op, 
      (s.sync.flying[index]? = some op) ∧
      ((∀ o ∈ s.sync.flying.take index, o.pe ≠ op.pe))) := by
  refine ⟨?_, ⟨?_, ?_, ?_, ?_⟩, ?_, ?_⟩
  · exact ⟨ops 0x61 0 0 0 768, 0, ((base).setBarrier 3 { memb := 1 }), by decide +kernel⟩
  · exact ⟨ops 0x61 0 0 0 768, 0, (baseTask fun t => { t with barp := some { scope := 0, bar := 3, gen := 0 } }).setBarrier 3 { memb := 3, exp := 3, arr := 2 }, by decide +kernel⟩
  · exact ⟨ops 0x61 0 0 0 768, 0, (base.setBarrier 3 { memb := 3, exp := 3, arr := 2 }), by decide +kernel⟩
  · exact ⟨ops 0x61 0 0 0 768, 0, base, by decide +kernel⟩
  · exact ⟨ops 0x61 0 0 0 0x301, 0, baseTask fun t => { t with barp := some { scope := 1, bar := 3, gen := 0 } }, by decide +kernel⟩
  · exact ⟨ops 0 0 0 0 0x301, 0, base, by decide +kernel⟩
  · exact ⟨0, ({ base with sync := { base.sync with flying := [{ pe := 0, slot := 0, scope := 1, bar := 3, counter := 100003, kind := .arrive, entry := 0, opc := 0xE9, serial := 0 }] } } : State), _, rfl, by decide +kernel⟩

theorem witness_FiringsBegin :
  (∃ pe, ∃ k, ∃ s : State, 
      (s.noFiring pe = true) ∧
      ((s.refresh pe).chosen pe = some k) ∧
      (((s.refresh pe).task pe k).st = .ready) ∧
      ((s.refresh pe).dataReady pe ((s.refresh pe).task pe k) = true)) ∧
  (∃ pe, ∃ k, ∃ s : State, 
      (s.noFiring pe = true) ∧
      ((s.refresh pe).chosen pe = some k) ∧
      (((s.refresh pe).task pe k).st = .suspended)) ∧
  (∃ pe, ∃ k, ∃ s : State, 
      (s.noFiring pe = true) ∧
      ((s.refresh pe).chosen pe = some k) ∧
      ((((s.refresh pe).task pe k).st = .realign ∨ ((s.refresh pe).task pe k).st = .ready ∧ (s.refresh pe).markerReady pe ((s.refresh pe).task pe k) = true))) := by
  refine ⟨?_, ?_, ?_⟩
  · exact ⟨0, 0, (baseTask fun t => { t with st := .idle }), by decide +kernel⟩
  · exact ⟨0, 0, baseTask fun t => { t with st := .suspended }, by decide +kernel⟩
  · exact ⟨0, 0, (((base.setHandle 0 6 { base.handle 0 6 with base := 8 }).setSlotOf 0 0 { mark := true, payload := 5 }).setHandle 0 0 { base.handle 0 0 with cnt := 1 }).setTask 0 0 { base.task 0 0 with st := .idle }, by decide +kernel⟩

theorem witness_Realignment :
  (∃ pe, ∃ k, ∃ s : State, 
      ((s.task pe k).st = .idle) ∧
      (s.misaligned pe (s.task pe k) = true)) ∧
  (∃ pe, ∃ k, ∃ p, ∃ s : State, 
      ((s.task pe k).st = .realign) ∧
      (((s.task pe k).port p).declared = true) ∧
      (0 < (s.handle pe ((s.task pe k).port p).handle).cnt) ∧
      ((s.headOf pe ((s.task pe k).port p).handle).mark = false)) ∧
  (∃ pe, ∃ k, ∃ p, ∃ s : State, 
      ((s.task pe k).st = .realign) ∧
      (((s.task pe k).port p).declared = true) ∧
      ((s.task pe k).realigned.contains p = false) ∧
      (1 ≤ s.freeOf pe ((s.task pe k).port p).handle)) := by
  refine ⟨?_, ?_, ?_⟩
  · exact ⟨0, 0, ((baseTask fun t => { t with st := .idle }).setSlotOf 0 1 { mark := true }), by decide +kernel⟩
  · exact ⟨0, 0, 0, baseTask fun t => { t with st := .realign }, by decide +kernel⟩
  · exact ⟨0, 0, 6, baseTask fun t => { t with st := .realign }, by decide +kernel⟩

theorem witness_BadEntries :
  (∃ _op : BitVec 8, ∃ _w : Fields, ∃ s : State, ∃ k, 
      (s.firingSlot s.cur = some k)) ∧
  (∃ _word : Tiw, ∃ s : State, ∃ k, 
      (s.firingSlot s.cur = some k)) ∧
  (∃ pe, ∃ s : State, ∃ k, ∃ e, 
      (s.fetch pe = some (k, e)) ∧
      (e.ue = true)) := by
  refine ⟨?_, ?_, ?_⟩
  · exact ⟨0x38, {}, base, 0, by decide +kernel⟩
  · exact ⟨0, base, 0, by decide +kernel⟩
  · exact ⟨0, base.setEntry 0 0 { ue := true }, 0, { ue := true }, by decide +kernel⟩

/-- The firing task waits like this. -/
def waits (w : Wait) : State := baseTask fun t => { t with wait := w }

/-- The data token 5 of no domain, and a marker of the same value. -/
def tok5 : Token := { payload := 5 }
def mark5 : Token := { payload := 5, mark := true }

/-- Slot 0 of router 0 holds this operator. -/
def opAt (o : OpSlot) : State := base.setOpSlot 0 0 { o with used := true }

/-- Node 0 with these inputs and this queue. -/
def nodeAt (ins : List (Nat × List Token)) (queue : List NodeReq := []) : State :=
  (base.setNode 0 { base.node 0 with ins := ⟨ins⟩, queue := queue })

/-- Router 0 (or `r`) has this route in entry 0, and this token at its input from the west. -/
def routeAt (t : Route) (r : Nat := 0) : State := (base.setRoute r 0 { t with valid := true }).setLink r 3 0 [tok5]

theorem witness_PostedRequests :
  Meets (fun _ => { specMem 0xA1 with b := .srcNoImm }) (fun x => (x.s.node (nodeNum x.core x.imm)).room = true) ∧
  Meets (fun _ => { specMem 0xA1 with b := .srcNoImm }) (fun x => (x.s.node (nodeNum x.core x.imm)).room = false) ∧
  Runs (fun _ => { specMem 0xA1 with b := .srcNoImm }) ∧
  Meets (fun _ => { specMem 0xA3 with b := .srcNoImm }) (fun x => (x.s.node (nodeNum x.core x.imm)).room = true) ∧
  Meets (fun _ => { specMem 0xA3 with b := .srcNoImm }) (fun x => (x.s.node (nodeNum x.core x.imm)).room = false) ∧
  Runs (fun _ => { specMem 0xA3 with b := .srcNoImm }) ∧
  Meets (fun w => { specMem 0xA4 with fmts := some (atomFmts w), mods := fun w => w.mod.toNat < 8, b := .srcNoImm }) (fun x => (x.s.node (nodeNum x.core x.imm)).room = true) ∧
  Meets (fun w => { specMem 0xA4 with fmts := some (atomFmts w), mods := fun w => w.mod.toNat < 8, b := .srcNoImm }) (fun x => (x.s.node (nodeNum x.core x.imm)).room = false) ∧
  Runs (fun w => { specMem 0xA4 with fmts := some (atomFmts w), mods := fun w => w.mod.toNat < 8, b := .srcNoImm }) ∧
  Meets (fun _ => { specMem 0xA8 with a := .srcNoChan, b := .srcNoChan, c := .srcNoChan }) (fun x => (x.s.node (nodeNum x.core x.imm)).room = true) ∧
  Meets (fun _ => { specMem 0xA8 with a := .srcNoChan, b := .srcNoChan, c := .srcNoChan }) (fun x => (x.s.node (nodeNum x.core x.imm)).room = false) ∧
  Runs (fun _ => { specMem 0xA8 with a := .srcNoChan, b := .srcNoChan, c := .srcNoChan }) ∧
  Meets (fun _ => { specMem 0xA9 with b := .srcNoImm, c := .srcNoImm }) (fun x => (x.s.node (nodeNum x.core x.imm)).room = true) ∧
  Meets (fun _ => { specMem 0xA9 with b := .srcNoImm, c := .srcNoImm }) (fun x => (x.s.node (nodeNum x.core x.imm)).room = false) ∧
  Runs (fun _ => { specMem 0xA9 with b := .srcNoImm, c := .srcNoImm }) := by
  refine ⟨?_, ?_, ?_, ?_, ?_, ?_, ?_, ?_, ?_, ?_, ?_, ?_, ?_, ?_, ?_⟩
  · exact ⟨ops 0 1 2 0, 0, base, by decide +kernel⟩
  · exact ⟨ops 0 1 2 0, 0, (base.setNode 0 { base.node 0 with queue := List.replicate 4 { src := .pe 1 0, op := .settled } }), by decide +kernel⟩
  · exact ⟨ops 0 1 2 0, 0, base, by decide +kernel⟩
  · exact ⟨ops 0 1 2 0, 0, base, by decide +kernel⟩
  · exact ⟨ops 0 1 2 0, 0, (base.setNode 0 { base.node 0 with queue := List.replicate 4 { src := .pe 1 0, op := .settled } }), by decide +kernel⟩
  · exact ⟨ops 0 1 2 0, 0, base, by decide +kernel⟩
  · exact ⟨ops 0 1 2 0 0 2 7, 0, base, by decide +kernel⟩
  · exact ⟨ops 0 1 2 0 0 2 7, 0, (base.setNode 0 { base.node 0 with queue := List.replicate 4 { src := .pe 1 0, op := .settled } }), by decide +kernel⟩
  · exact ⟨ops 0 1 2 0 0 2 7, 0, base, by decide +kernel⟩
  · exact ⟨ops 0 1 2 3, 0, base, by decide +kernel⟩
  · exact ⟨ops 0 1 2 3, 0, (base.setNode 0 { base.node 0 with queue := List.replicate 4 { src := .pe 1 0, op := .settled } }), by decide +kernel⟩
  · exact ⟨ops 0 1 2 3, 0, base, by decide +kernel⟩
  · exact ⟨ops 0 1 2 3, 0, base, by decide +kernel⟩
  · exact ⟨ops 0 1 2 3, 0, (base.setNode 0 { base.node 0 with queue := List.replicate 4 { src := .pe 1 0, op := .settled } }), by decide +kernel⟩
  · exact ⟨ops 0 1 2 3, 0, base, by decide +kernel⟩

theorem witness_BlockingRequests :
  Meets (fun _ => { specMem 0xA0 with d := .dst }) (fun x => x.task.wait = .none ∧ (x.s.node (nodeNum x.core x.imm)).room = true) ∧
  Meets (fun _ => { specMem 0xA0 with d := .dst }) (fun x => x.task.wait = .none ∧ (x.s.node (nodeNum x.core x.imm)).room = false) ∧
  Meets (fun _ => { specMem 0xA0 with d := .dst }) (fun x => x.task.wait = .memSent) ∧
  Meets (fun _ => { specMem 0xA0 with d := .dst }) (fun x => x.task.wait = .memDone x.task.wait.value none) ∧
  (∃ f, Meets (fun _ => { specMem 0xA0 with d := .dst }) (fun x => x.task.wait = .memDone x.task.wait.value (some f))) ∧
  Meets (fun _ => { specMem 0xA2 with d := .dst }) (fun x => x.task.wait = .none ∧ (x.s.node (nodeNum x.core x.imm)).room = true) ∧
  Meets (fun _ => { specMem 0xA2 with d := .dst }) (fun x => x.task.wait = .none ∧ (x.s.node (nodeNum x.core x.imm)).room = false) ∧
  Meets (fun _ => { specMem 0xA2 with d := .dst }) (fun x => x.task.wait = .memSent) ∧
  Meets (fun _ => { specMem 0xA2 with d := .dst }) (fun x => x.task.wait = .memDone x.task.wait.value none) ∧
  (∃ f, Meets (fun _ => { specMem 0xA2 with d := .dst }) (fun x => x.task.wait = .memDone x.task.wait.value (some f))) ∧
  Meets (fun w => { specMem 0xA5 with fmts := some (atomFmts w), mods := fun w => w.mod.toNat < 8, d := .dst, b := .srcNoImm }) (fun x => x.task.wait = .none ∧ (x.s.node (nodeNum x.core x.imm)).room = true) ∧
  Meets (fun w => { specMem 0xA5 with fmts := some (atomFmts w), mods := fun w => w.mod.toNat < 8, d := .dst, b := .srcNoImm }) (fun x => x.task.wait = .none ∧ (x.s.node (nodeNum x.core x.imm)).room = false) ∧
  Meets (fun w => { specMem 0xA5 with fmts := some (atomFmts w), mods := fun w => w.mod.toNat < 8, d := .dst, b := .srcNoImm }) (fun x => x.task.wait = .memSent) ∧
  Meets (fun w => { specMem 0xA5 with fmts := some (atomFmts w), mods := fun w => w.mod.toNat < 8, d := .dst, b := .srcNoImm }) (fun x => x.task.wait = .memDone x.task.wait.value none) ∧
  (∃ f, Meets (fun w => { specMem 0xA5 with fmts := some (atomFmts w), mods := fun w => w.mod.toNat < 8, d := .dst, b := .srcNoImm }) (fun x => x.task.wait = .memDone x.task.wait.value (some f))) ∧
  Meets (fun _ => { specMem 0xA6 with fmts := some (word64Fmts ++ [10, 11]), d := .dst, b := .srcNoImm, c := .srcNoImm }) (fun x => x.task.wait = .none ∧ (x.s.node (nodeNum x.core x.imm)).room = true) ∧
  Meets (fun _ => { specMem 0xA6 with fmts := some (word64Fmts ++ [10, 11]), d := .dst, b := .srcNoImm, c := .srcNoImm }) (fun x => x.task.wait = .none ∧ (x.s.node (nodeNum x.core x.imm)).room = false) ∧
  Meets (fun _ => { specMem 0xA6 with fmts := some (word64Fmts ++ [10, 11]), d := .dst, b := .srcNoImm, c := .srcNoImm }) (fun x => x.task.wait = .memSent) ∧
  Meets (fun _ => { specMem 0xA6 with fmts := some (word64Fmts ++ [10, 11]), d := .dst, b := .srcNoImm, c := .srcNoImm }) (fun x => x.task.wait = .memDone x.task.wait.value none) ∧
  (∃ f, Meets (fun _ => { specMem 0xA6 with fmts := some (word64Fmts ++ [10, 11]), d := .dst, b := .srcNoImm, c := .srcNoImm }) (fun x => x.task.wait = .memDone x.task.wait.value (some f))) ∧
  Meets (fun _ => { specMem 0xA7 (some .ordered) with fmts := some [2, 6, 10], d := .predOnly }) (fun x => x.task.wait = .none ∧ (x.s.node (nodeNum x.core x.imm)).room = true) ∧
  Meets (fun _ => { specMem 0xA7 (some .ordered) with fmts := some [2, 6, 10], d := .predOnly }) (fun x => x.task.wait = .none ∧ (x.s.node (nodeNum x.core x.imm)).room = false) ∧
  Meets (fun _ => { specMem 0xA7 (some .ordered) with fmts := some [2, 6, 10], d := .predOnly }) (fun x => x.task.wait = .memSent) ∧
  Meets (fun _ => { specMem 0xA7 (some .ordered) with fmts := some [2, 6, 10], d := .predOnly }) (fun x => x.task.wait = .memDone x.task.wait.value none) ∧
  (∃ f, Meets (fun _ => { specMem 0xA7 (some .ordered) with fmts := some [2, 6, 10], d := .predOnly }) (fun x => x.task.wait = .memDone x.task.wait.value (some f))) := by
  refine ⟨?_, ?_, ?_, ?_, ?_, ?_, ?_, ?_, ?_, ?_, ?_, ?_, ?_, ?_, ?_, ?_, ?_, ?_, ?_, ?_, ?_, ?_, ?_, ?_, ?_⟩
  · exact ⟨ops 1 1 0 0, 0, base, by decide +kernel⟩
  · exact ⟨ops 1 1 0 0, 0, (base.setNode 0 { base.node 0 with queue := List.replicate 4 { src := .pe 1 0, op := .settled } }), by decide +kernel⟩
  · exact ⟨ops 1 1 0 0, 0, (waits (.memSent)), by decide +kernel⟩
  · exact ⟨ops 1 1 0 0, 0, (waits (.memDone 7 none)), by decide +kernel⟩
  · exact ⟨9, ops 1 1 0 0, 0, (waits (.memDone 7 (some 9))), by decide +kernel⟩
  · exact ⟨ops 1 1 0 0, 0, base, by decide +kernel⟩
  · exact ⟨ops 1 1 0 0, 0, (base.setNode 0 { base.node 0 with queue := List.replicate 4 { src := .pe 1 0, op := .settled } }), by decide +kernel⟩
  · exact ⟨ops 1 1 0 0, 0, (waits (.memSent)), by decide +kernel⟩
  · exact ⟨ops 1 1 0 0, 0, (waits (.memDone 7 none)), by decide +kernel⟩
  · exact ⟨9, ops 1 1 0 0, 0, (waits (.memDone 7 (some 9))), by decide +kernel⟩
  · exact ⟨ops 1 1 2 0 0 2 7, 0, base, by decide +kernel⟩
  · exact ⟨ops 1 1 2 0 0 2 7, 0, (base.setNode 0 { base.node 0 with queue := List.replicate 4 { src := .pe 1 0, op := .settled } }), by decide +kernel⟩
  · exact ⟨ops 1 1 2 0 0 2 7, 0, (waits (.memSent)), by decide +kernel⟩
  · exact ⟨ops 1 1 2 0 0 2 7, 0, (waits (.memDone 7 none)), by decide +kernel⟩
  · exact ⟨9, ops 1 1 2 0 0 2 7, 0, (waits (.memDone 7 (some 9))), by decide +kernel⟩
  · exact ⟨ops 1 1 2 3 0 2, 0, base, by decide +kernel⟩
  · exact ⟨ops 1 1 2 3 0 2, 0, (base.setNode 0 { base.node 0 with queue := List.replicate 4 { src := .pe 1 0, op := .settled } }), by decide +kernel⟩
  · exact ⟨ops 1 1 2 3 0 2, 0, (waits (.memSent)), by decide +kernel⟩
  · exact ⟨ops 1 1 2 3 0 2, 0, (waits (.memDone 7 none)), by decide +kernel⟩
  · exact ⟨9, ops 1 1 2 3 0 2, 0, (waits (.memDone 7 (some 9))), by decide +kernel⟩
  · exact ⟨ops 0x61 1 0 0 0 2, 0, base, by decide +kernel⟩
  · exact ⟨ops 0x61 1 0 0 0 2, 0, (base.setNode 0 { base.node 0 with queue := List.replicate 4 { src := .pe 1 0, op := .settled } }), by decide +kernel⟩
  · exact ⟨ops 0x61 1 0 0 0 2, 0, (waits (.memSent)), by decide +kernel⟩
  · exact ⟨ops 0x61 1 0 0 0 2, 0, (waits (.memDone 7 none)), by decide +kernel⟩
  · exact ⟨9, ops 0x61 1 0 0 0 2, 0, (waits (.memDone 7 (some 9))), by decide +kernel⟩

theorem witness_ChannelInstructions :
  let fence : OpSpec := { op := 0xAA, d := .dst, perLane := false, xok := fun _ _ imm => decide (fieldNat 0 3 imm < 6) }
  let adv : OpSpec := { portSpec 0xAB with a := { portIn := true, portOut := true }, b := .src, xok := fun _ w _ => bitsOf 32 8 w.x = 0 }
  let emit : OpSpec := { portSpec 0xAC with
    fmts := some (List.range 15), d := { portOut := true }, a := .src, xok := fun _ w _ => bitsOf 40 8 w.x = 0 }
  let emitm : OpSpec := { portSpec 0xAD with d := { portOut := true }, a := .immOnly, xok := fun _ w _ => bitsOf 40 8 w.x = 0 }
  let testm : OpSpec := { portSpec 0xAE with d := .predOnly, a := { portIn := true }, xok := fun _ w _ => bitsOf 32 8 w.x = 0 }
  let nxt : OpSpec := { portSpec 0xAF with d := { chanOut := true }, c := .predOnly }
  let count (x : Issue) (b : BitVec 8) : Nat := (x.task.port (x.portNum b)).count
  let done (x : Issue) (b : BitVec 8) : Nat := x.task.adv (x.portNum b)
  let buf (x : Issue) (b : BitVec 8) : Nat := (x.task.port (x.portNum b)).handle
  Meets (fun _ => fence) (fun x => fieldNat 0 3 x.imm = 0 ∨ x.s.unperformed x.pe x.slot = false) ∧
  Meets (fun _ => fence) (fun x => fieldNat 0 3 x.imm ≠ 0 ∧ x.s.unperformed x.pe x.slot = true) ∧
  Meets (fun _ => adv) (fun x => 1 ≤ x.sb ∧ x.sb ≤ 255 ∧ done x x.w.a + x.sb ≤ count x x.w.a) ∧
  Meets (fun _ => adv) (fun x => x.sb = 0 ∨ 255 < x.sb ∨ count x x.w.a < done x x.w.a + x.sb) ∧
  Meets (fun _ => emit) (fun x => done x x.w.d < count x x.w.d) ∧
  Meets (fun _ => emit) (fun x => count x x.w.d ≤ done x x.w.d) ∧
  Meets (fun _ => emitm) (fun x => done x x.w.d = count x x.w.d ∧ x.s.freeOf x.pe (buf x x.w.d) ≠ 0) ∧
  Meets (fun _ => emitm) (fun x => done x x.w.d ≠ count x x.w.d) ∧
  Meets (fun _ => testm) (fun x => count x x.w.a < (x.s.handle x.pe (buf x x.w.a)).cntm1 + 1 ∧
      count x x.w.a - done x x.w.a < (x.s.handle x.pe (buf x x.w.a)).cnt) ∧
  Meets (fun _ => nxt) (fun x => (x.s.cursor x.core (x.imm % 4)).next < (x.s.cursor x.core (x.imm % 4)).count ∧
      x.s.failingWord x.core (x.info.spaceBase false + (x.s.cursor x.core (x.imm % 4)).base +
        32 * (x.s.cursor x.core (x.imm % 4)).next) 32 = none) ∧
  (∃ w : Fields, ∃ slot, ∃ s : State, 
      (ReadyOn nxt w slot s) ∧
      let x := s.at nxt w slot
      ((s.cursor x.core (x.imm % 4)).count ≤ (s.cursor x.core (x.imm % 4)).next)) := by
  refine ⟨?_, ?_, ?_, ?_, ?_, ?_, ?_, ?_, ?_, ?_, ?_⟩
  · exact ⟨ops 1 0 0 0 0 , 0, (base.setNode 1 { valid := true, queue := [{ src := .pe 0 0, op := .settled }] }), by decide +kernel⟩
  · exact ⟨ops 1 0 0 0 5, 0, (base.setNode 1 { valid := true, queue := [{ src := .pe 0 0, op := .settled }] }), by decide +kernel⟩
  · exact ⟨ops 0 0x40 1 0, 0, (base.setReg 0 1 2), by decide +kernel⟩
  · exact ⟨ops 0 0x40 1 0, 0, (base.setReg 0 1 3), by decide +kernel⟩
  · exact ⟨ops 0x46 1 0 0, 0, base, by decide +kernel⟩
  · exact ⟨ops 0x46 1 0 0, 0, (baseTask fun t => t.setAdv 6 2), by decide +kernel⟩
  · exact ⟨ops 0x46 0x91 0 0 5, 0, (baseTask fun t => t.setAdv 6 2), by decide +kernel⟩
  · exact ⟨ops 0x46 0x91 0 0 5, 0, base, by decide +kernel⟩
  · exact ⟨ops 0x61 0x40 0 0, 0, (base.setHandle 0 0 { base.handle 0 0 with cnt := 3 }), by decide +kernel⟩
  · exact ⟨ops 0x46 0 0 0x61, 0, ((base.setCursor 0 0 { base := 64, count := 2, next := 1 }).setReg 0 1 0), by decide +kernel⟩
  · exact ⟨ops 0x46 0 0 0x61, 0, ((base.setCursor 0 0 { base := 64, count := 2, next := 2 }).setReg 0 1 0), by decide +kernel⟩

theorem witness_NodePorts :
  (∃ node, ∃ tok, ∃ s : State, 
      ((s.node node).room = true) ∧
      ((s.node node).headOf 0 = some tok) ∧
      (tok.mark = false) ∧
      (tok.poison = false)) ∧
  (∃ node, ∃ port, ∃ tok, ∃ data, ∃ s : State, 
      (port = 1 ∨ port = 3) ∧
      ((s.node node).room = true) ∧
      ((s.node node).headOf port = some tok) ∧
      ((s.node node).headOf (port + 1) = some data) ∧
      (tok.mark = false) ∧
      (data.mark = false) ∧
      (tok.poison = false) ∧
      (data.poison = false)) ∧
  (∃ node, ∃ port, ∃ k, ∃ q, ∃ t : Token, ∃ s : State, 
      ((s.node node).firstOf port = some k) ∧
      ((s.node node).queue[k]? = some q) ∧
      (q.done = some t) ∧
      (s.nodeFree node port = true)) ∧
  (∃ node, ∃ tok, ∃ s : State, 
      ((s.node node).valid = true) ∧
      ((s.node node).firstOf 0 = none) ∧
      (s.nodeFree node 0 = true) ∧
      ((s.node node).headOf 0 = some tok) ∧
      (tok.mark = true)) ∧
  (∃ node, ∃ x, ∃ y, ∃ s : State, 
      ((s.node node).headOf 1 = some x) ∧
      ((s.node node).headOf 2 = some y) ∧
      (x.mark = true) ∧
      (y.mark = false) ∧
      (y.poison = false)) ∧
  (∃ core, ∃ word, ∃ s : State, 
      (s.poolFault core word = .corrected)) := by
  refine ⟨?_, ?_, ?_, ?_, ?_, ?_⟩
  · exact ⟨0, tok5, nodeAt [(0, [tok5])], by decide +kernel⟩
  · exact ⟨0, 3, tok5, tok5, nodeAt [(3, [tok5]), (4, [tok5])], by decide +kernel⟩
  · exact ⟨0, 1, 0, { src := .st, op := .settled, done := some tok5 }, tok5, nodeAt [] [{ src := .st, op := .settled, done := some tok5 }], by decide +kernel⟩
  · exact ⟨0, mark5, nodeAt [(0, [mark5])], by decide +kernel⟩
  · exact ⟨0, mark5, tok5, nodeAt [(1, [mark5]), (2, [tok5])], by decide +kernel⟩
  · exact ⟨0, 9, base.setPoolFault 0 9 .corrected, by decide +kernel⟩

/-- A request of a node that may have its access. -/
def serves (op : ReqOp) (src : ReqSrc := .pe 0 0) (blocking : Bool := false) : State := nodeAt [] [{ src, op, blocking }]

/-- The bank of a next access serves the node. -/
theorem served {p : Nat → Bool} (o : Option Nat) (h : o.elim true p = true) : ∀ w, o = some w → p w = true := by
  rintro w rfl
  exact h

theorem witness_StorePerforms :
  (∃ node index, ∃ s : State, ∃ q a n v, Claims.Served s node index q ∧ q.op = .store a n v false ∧
      s.failingWord (node / 4) a n (fun w => !coversWord a n w) = none ∧ q.src = .st) ∧
  (∃ node index, ∃ s : State, ∃ q a n v, Claims.Served s node index q ∧ q.op = .store a n v true) ∧
  (∃ node index, ∃ s : State, ∃ q dst n v, Claims.Served s node index q ∧ q.op = .fill dst n v ∧ n ≠ 0 ∧
      s.failingWord (node / 4) dst n (fun w => !coversWord dst n w) = none ∧
      s.failingWord (node / 4) dst (Nat.min (32 - dst % 32) n) (fun w => !coversWord dst (Nat.min (32 - dst % 32) n) w) = none) ∧
  (∃ node index, ∃ s : State, ∃ q src dst n bs, Claims.Served s node index q ∧ q.op = .writing src dst n bs ∧ n ≠ 0 ∧
      (bs.length = n → s.failingWord (node / 4) dst n (fun w => !coversWord dst n w) = none) ∧
      s.failingWord (node / 4) (dst + (n - bs.length)) (Nat.min (32 - (dst + (n - bs.length)) % 32) bs.length)
        (fun w => !coversWord (dst + (n - bs.length)) (Nat.min (32 - (dst + (n - bs.length)) % 32) bs.length) w) = none) ∧
  ∃ node index, ∃ s : State, ∃ q a h k v ws, Claims.Served s node index q ∧ q.op = .heapWrite a h ((k, v) :: ws) := by
  refine ⟨?_, ?_, ?_, ?_, ?_⟩
  · exact ⟨0, 0, serves (.store 16 4 0x01020304 false) .st, _, 16, 4, 0x01020304, ⟨rfl, by decide +kernel, served _ (by decide +kernel)⟩, rfl, by decide +kernel, rfl⟩
  · exact ⟨0, 0, serves (.store 16 4 0x01020304 true), _, 16, 4, 0x01020304, ⟨rfl, by decide +kernel, served _ (by decide +kernel)⟩, rfl⟩
  · exact ⟨0, 0, serves (.fill 24 40 7), _, 24, 40, 7, ⟨rfl, by decide +kernel, served _ (by decide +kernel)⟩, rfl, by decide +kernel⟩
  · exact ⟨0, 0, serves (.writing 0 24 10 [1, 2, 3]), _, 0, 24, 10, [1, 2, 3], ⟨rfl, by decide +kernel, served _ (by decide +kernel)⟩, rfl, by decide +kernel⟩
  · exact ⟨0, 0, serves (.heapWrite 64 {} [(1, 5)]), _, 64, {}, 1, 5, [], ⟨rfl, by decide +kernel, served _ (by decide +kernel)⟩, rfl⟩

theorem witness_LoadPerforms :
  (∃ node index, ∃ s : State, ∃ q a n, Claims.Served s node index q ∧ q.op = .load a n ∧ s.failingWord (node / 4) a n = none ∧ q.src = .ld) ∧
  (∃ node index, ∃ s : State, ∃ q a n, Claims.Served s node index q ∧ q.op = .load a n ∧ s.failingWord (node / 4) a n = none ∧
    ∃ pe slot, q.src = .pe pe slot ∧ q.blocking = true ∧ (s.task pe slot).wait = .memSent) ∧
  (∃ node index, ∃ s : State, ∃ q, Claims.Served s node index q ∧ ∃ src dst n, q.op = .copy src dst n) ∧
  (∃ node index, ∃ s : State, ∃ q, Claims.Served s node index q ∧ ∃ src dst n got, q.op = .reading src dst n got) ∧
  (∃ node index, ∃ s : State, ∃ q, Claims.Served s node index q ∧ ∃ a h fmt e, q.op = .hins a h fmt e) ∧
  ∃ node index, ∃ s : State, ∃ q, Claims.Served s node index q ∧ ∃ a h fmt e got, q.op = .heapRead a h fmt e got := by
  refine ⟨?_, ?_, ?_, ?_, ?_, ?_⟩
  · exact ⟨0, 0, serves (.load 16 4) .ld, _, 16, 4, ⟨rfl, by decide +kernel, served _ (by decide +kernel)⟩, rfl, by decide +kernel, rfl⟩
  · exact ⟨0, 0, (serves (.load 16 4) (.pe 0 0) true).setTask 0 0 { base.task 0 0 with wait := .memSent }, _, 16, 4,
      ⟨rfl, by decide +kernel, served _ (by decide +kernel)⟩, rfl, by decide +kernel, 0, 0, rfl, rfl, by decide +kernel⟩
  · exact ⟨0, 0, serves (.copy 0 64 8), _, ⟨rfl, by decide +kernel, served _ (by decide +kernel)⟩, 0, 64, 8, rfl⟩
  · exact ⟨0, 0, serves (.reading 0 64 8 [1]), _, ⟨rfl, by decide +kernel, served _ (by decide +kernel)⟩, 0, 64, 8, [1], rfl⟩
  · exact ⟨0, 0, serves (.hins 64 {} 6 9), _, ⟨rfl, by decide +kernel, served _ (by decide +kernel)⟩, 64, {}, 6, 9, rfl⟩
  · exact ⟨0, 0, serves (.heapRead 64 {} 6 9 []), _, ⟨rfl, by decide +kernel, served _ (by decide +kernel)⟩, 64, {}, 6, 9, [], rfl⟩

theorem witness_AtomicPerforms :
  (∃ node index, ∃ s : State, ∃ q a fmt aop v, Claims.Served s node index q ∧ q.op = .atomic a fmt aop v false ∧
    s.failingWord (node / 4) a (elemBytes fmt) = none ∧ ∃ pe slot, q.src = .pe pe slot ∧ q.blocking = true ∧ (s.task pe slot).wait = .memSent) ∧
  (∃ node index, ∃ s : State, ∃ q a fmt aop v, Claims.Served s node index q ∧ q.op = .atomic a fmt aop v false ∧
    s.failingWord (node / 4) a (elemBytes fmt) = none ∧ q.src = .at) ∧
  ∃ node index, ∃ s : State, ∃ q a fmt cmp swap, Claims.Served s node index q ∧ q.op = .cas a fmt cmp swap ∧
    s.failingWord (node / 4) a (elemBytes fmt) = none ∧ ∃ pe slot, q.src = .pe pe slot ∧ q.blocking = true ∧ (s.task pe slot).wait = .memSent := by
  refine ⟨?_, ?_, ?_⟩
  · exact ⟨0, 0, (serves (.atomic 16 6 0 3 false) (.pe 0 0) true).setTask 0 0 { base.task 0 0 with wait := .memSent }, _, 16, 6, 0, 3,
      ⟨rfl, by decide +kernel, served _ (by decide +kernel)⟩, rfl, by decide +kernel, 0, 0, rfl, rfl, by decide +kernel⟩
  · exact ⟨0, 0, serves (.atomic 16 6 0 3 false) .at, _, 16, 6, 0, 3, ⟨rfl, by decide +kernel, served _ (by decide +kernel)⟩, rfl, by decide +kernel, rfl⟩
  · exact ⟨0, 0, (serves (.cas 16 6 0 3) (.pe 0 0) true).setTask 0 0 { base.task 0 0 with wait := .memSent }, _, 16, 6, 0, 3,
      ⟨rfl, by decide +kernel, served _ (by decide +kernel)⟩, rfl, by decide +kernel, 0, 0, rfl, rfl, by decide +kernel⟩

/-- The token from the west goes to the north, on virtual channel 2. -/
def north : State := routeAt { inp := 3, outp := 1, outvc := 2 }

/-- A token of PE 0, and one of the element at router 0, go to the north. -/
def fromPe : State :=
  ((base.setHandle 0 6 { base.handle 0 6 with ptr := 1, cnt := 1 }).setSlotOf 0 8 tok5).setRoute 0 0 { valid := true, inp := 4, inh := 6, outp := 1 }
def fromNode : State := (base.setNode 0 { base.node 0 with outs := ⟨[(0, some tok5)]⟩ }).setRoute 0 0 { valid := true, inp := 7, outp := 1 }

theorem witness_RoutesMove :
  (∃ r, ∃ e, ∃ tok, ∃ s : State, s.giveChoice r 4 0 = some e ∧ s.inputHead r (s.route r e) = some tok ∧ (s.route r e).inp < 4 ∧ (s.route r e).outp = 4) ∧
  (∃ r, ∃ e, ∃ tok, ∃ s : State, s.takeChoice r 4 = some e ∧ s.giveChoice r (s.route r e).outp (s.route r e).outh = some e ∧
      s.inputHead r (s.route r e) = some tok ∧ (s.route r e).inp = 4 ∧ (s.route r e).outp < 4) ∧
  (∃ r, ∃ e, ∃ tok, ∃ s : State, s.giveChoice r 7 0 = some e ∧ s.inputHead r (s.route r e) = some tok ∧ (s.route r e).inp < 4 ∧ (s.route r e).outp = 7) ∧
  (∃ r, ∃ e, ∃ tok, ∃ s : State, s.takeChoice r 7 = some e ∧ s.giveChoice r (s.route r e).outp (s.route r e).outh = some e ∧
      s.inputHead r (s.route r e) = some tok ∧ (s.route r e).inp = 7 ∧ (s.route r e).outp < 4) ∧
  (∃ r, ∃ out, ∃ port, ∃ e, ∃ tok, ∃ s : State, out < 4 ∧ s.giveChoice r out port = some e ∧ s.inputHead r (s.route r e) = some tok ∧
      (s.route r e).inp < 4 ∧ (s.route r e).outp = out) ∧
  (∃ r, ∃ out, ∃ port, ∃ e, ∃ tok, ∃ s : State, (out = 5 ∨ out = 6) ∧ s.giveChoice r out port = some e ∧ s.inputHead r (s.route r e) = some tok ∧
      (s.route r e).inp < 4 ∧ (s.route r e).outp = out) ∧
  (∃ r, ∃ out, ∃ port, ∃ e, ∃ s : State, s.giveChoice r out port = some e ∧ s.won r e = true) ∧
  (∃ r, ∃ out, ∃ _vc : Nat, ∃ e, ∃ s : State, out < 4 ∧ e < 64 ∧ (s.route r e).outvc < 4 ∧ s.routeReady r e = true ∧ (s.route r e).outp = out ∧
      s.won r e = true) ∧
  (∃ r, ∃ port, ∃ e, ∃ s : State, (port = 4 ∨ port = 7) ∧ e < 64 ∧ s.routeReady r e = true ∧ (s.route r e).inp = port) := by
  refine ⟨?_, ?_, ?_, ?_, ?_, ?_, ?_, ?_, ?_⟩
  · exact ⟨0, 0, tok5, routeAt { inp := 3, outp := 4, outh := 0 }, by decide +kernel⟩
  · exact ⟨0, 0, tok5, fromPe, by decide +kernel⟩
  · exact ⟨0, 0, tok5, routeAt { inp := 3, outp := 7, outh := 1 }, by decide +kernel⟩
  · exact ⟨0, 0, tok5, fromNode, by decide +kernel⟩
  · exact ⟨0, 1, 0, 0, tok5, north, by decide +kernel⟩
  · exact ⟨0, 5, 1, 0, tok5, routeAt { inp := 3, outp := 5, outh := 1 }, by decide +kernel⟩
  · exact ⟨0, 1, 0, 0, north, by decide +kernel⟩
  · exact ⟨0, 1, 0, 0, north, by decide +kernel⟩
  · exact ⟨0, 4, 0, fromPe, by decide +kernel⟩

theorem witness_DeliveryToPe :
  ∃ r, ∃ e, ∃ tok, ∃ ts, ∃ s : State, s.giveChoice r 4 0 = some e ∧ (s.route r e).inp < 4 ∧ (s.route r e).outp = 4 ∧
      s.link r (s.route r e).inp (s.route r e).invc = tok :: ts ∧ (s.islandAt r (s.route r e).outvc).attached = false ∧
      s.glazeAt r (s.route r e).outvc = false := by
  exact ⟨0, 0, tok5, [], routeAt { inp := 3, outp := 4, outh := 0 }, by decide +kernel⟩

theorem witness_OperatorsFire :
  (∃ r, ∃ k, ∃ t : Token, ∃ s : State, 
      let o := s.opSlot r k
      (o.fires 0 = true) ∧
      (o.data 0 = some t) ∧
      (o.free 0 = true)) ∧
  (∃ r, ∃ k, ∃ c, ∃ t : Token, ∃ s : State, 
      let o := s.opSlot r k
      let n := if o.test c then 0 else 1
      (o.fires 1 = true) ∧
      (o.data 0 = some c) ∧
      (o.data 1 = some t) ∧
      (c.poison = false) ∧
      (o.free n = true)) ∧
  (∃ r, ∃ k, ∃ c, ∃ t : Token, ∃ s : State, 
      let o := s.opSlot r k
      let n := if o.test c then 1 else 2
      (o.fires 2 = true) ∧
      (o.data 0 = some c) ∧
      (o.data n = some t) ∧
      (c.poison = false) ∧
      (o.free 0 = true)) ∧
  (∃ r, ∃ k, ∃ t : Token, ∃ s : State, 
      let o := s.opSlot r k
      (o.fires 6 = true) ∧
      (o.data 0 = some t) ∧
      (o.outputs.all o.free = true)) ∧
  (∃ r, ∃ k, ∃ n, ∃ ns, ∃ t : Token, ∃ s : State, 
      let o := s.opSlot r k
      (o.fires 7 = true) ∧
      (o.free 0 = true) ∧
      (o.inputs = n :: ns) ∧
      (o.data n = some t) ∧
      ((∀ m ∈ o.inputs, ∃ u, o.data m = some u ∧ u.poison = false))) ∧
  (∃ r, ∃ k, ∃ c, ∃ s : State, 
      let o := s.opSlot r k
      (o.fires 9 = true) ∧
      (o.data 0 = some c) ∧
      (c.poison = false) ∧
      (o.test c = false)) ∧
  (∃ r, ∃ k, ∃ c, ∃ t : Token, ∃ s : State, 
      let o := s.opSlot r k
      (o.fires 9 = true) ∧
      (o.data 0 = some c) ∧
      (c.poison = false) ∧
      (o.test c = true) ∧
      (o.data 1 = some t) ∧
      (o.free 0 = true)) ∧
  (∃ r, ∃ k, ∃ c, ∃ t : Token, ∃ s : State, 
      let o := s.opSlot r k
      (o.fires 10 = true) ∧
      (o.data 0 = some c) ∧
      (o.data 1 = some t) ∧
      (c.poison = false) ∧
      (o.test c = true) ∧
      (o.free 0 = true)) ∧
  (∃ r, ∃ k, ∃ c, ∃ t : Token, ∃ s : State, 
      let o := s.opSlot r k
      (o.fires 10 = true) ∧
      (o.data 0 = some c) ∧
      (o.data 1 = some t) ∧
      (c.poison = false) ∧
      (o.test c = false)) := by
  refine ⟨?_, ?_, ?_, ?_, ?_, ?_, ?_, ?_, ?_⟩
  · exact ⟨0, 0, tok5, opAt { opc := 0, ins := ⟨[(0, [tok5])]⟩ }, by decide +kernel⟩
  · exact ⟨0, 0, tok5, tok5, opAt { opc := 1, ins := ⟨[(0, [tok5]), (1, [tok5])]⟩ }, by decide +kernel⟩
  · exact ⟨0, 0, tok5, tok5, opAt { opc := 2, ins := ⟨[(0, [tok5]), (1, [tok5])]⟩ }, by decide +kernel⟩
  · exact ⟨0, 0, tok5, opAt { opc := 6, ins := ⟨[(0, [tok5])]⟩, nout := 3 }, by decide +kernel⟩
  · exact ⟨0, 0, 0, [1], tok5, opAt { opc := 7, ins := ⟨[(0, [tok5]), (1, [tok5])]⟩, param := 3 }, by decide +kernel, by decide +kernel, by decide +kernel, by decide +kernel,
      fun m hm => ⟨tok5, by revert m; decide +kernel⟩⟩
  · exact ⟨0, 0, { payload := 0 }, opAt { opc := 9, ins := ⟨[(0, [{ payload := 0 }])]⟩ }, by decide +kernel⟩
  · exact ⟨0, 0, tok5, tok5, opAt { opc := 9, ins := ⟨[(0, [tok5]), (1, [tok5])]⟩ }, by decide +kernel⟩
  · exact ⟨0, 0, tok5, tok5, opAt { opc := 10, ins := ⟨[(0, [tok5]), (1, [tok5])]⟩ }, by decide +kernel⟩
  · exact ⟨0, 0, tok5, tok5, opAt { opc := 10, ins := ⟨[(0, [tok5]), (1, [tok5])]⟩, param := 1 }, by decide +kernel⟩

theorem witness_OperatorMarkers :
  (∃ r, ∃ k, ∃ n, ∃ t : Token, ∃ s : State, 
      let o := s.opSlot r k
      (o.used = true) ∧
      (stateless o.opc = true) ∧
      (o.outputs.all o.free = true) ∧
      (o.follow = none) ∧
      (o.realign = false) ∧
      (o.inputs ≠ []) ∧
      ((∀ m ∈ o.inputs, ∃ u, o.head m = some u ∧ u.mark = true ∧ u.payload.toNat % 2 ^ 16 = n)) ∧
      (t = s.opToken r (markerToken n))) ∧
  (∃ r, ∃ k, ∃ n, ∃ t : Token, ∃ s : State, 
      let o := s.opSlot r k
      (o.used = true) ∧
      (stateless o.opc = true) ∧
      (o.follow = none) ∧
      (o.misaligned = true) ∧
      ((o.inputs.filter fun m => (o.data m).isSome) = [n]) ∧
      (o.data n = some t)) := by
  refine ⟨?_, ?_⟩
  · exact ⟨0, 0, 5, mark5, opAt { opc := 1, ins := ⟨[(0, [mark5]), (1, [mark5])]⟩ }, by decide +kernel, by decide +kernel, by decide +kernel, by decide +kernel, by decide +kernel, by decide +kernel,
      fun m hm => ⟨mark5, by revert m; decide +kernel⟩, by decide +kernel⟩
  · exact ⟨0, 0, 0, tok5, opAt { opc := 1, ins := ⟨[(0, [tok5]), (1, [mark5])]⟩ }, by decide +kernel⟩

theorem witness_StatefulOperators :
  (∃ r, ∃ k, ∃ t : Token, ∃ s : State, 
      let o := s.opSlot r k
      (o.fires 3 = true) ∧
      (o.st = .carryInit) ∧
      (o.head 0 = some t) ∧
      (o.free 0 = true)) ∧
  (∃ r, ∃ k, ∃ c, ∃ b, ∃ s : State, 
      let o := s.opSlot r k
      (o.fires 3 = true) ∧
      (o.st = .carryLoop) ∧
      (o.head 1 = some c) ∧
      (c.mark = false) ∧
      (c.poison = false) ∧
      (o.test c = true) ∧
      (o.head 2 = some b) ∧
      (b.mark = false) ∧
      (o.free 0 = true)) ∧
  (∃ r, ∃ k, ∃ c, ∃ s : State, 
      let o := s.opSlot r k
      (o.fires 3 = true) ∧
      (o.st = .carryLoop) ∧
      (o.head 1 = some c) ∧
      (c.mark = false) ∧
      (c.poison = false) ∧
      (o.test c = false)) ∧
  (∃ r, ∃ k, ∃ t : Token, ∃ s : State, 
      let o := s.opSlot r k
      (o.used = true) ∧
      (o.opc = 4) ∧
      (o.follow = none) ∧
      (o.st = .irepEmpty) ∧
      (o.head 0 = some t) ∧
      (t.mark = false)) ∧
  (∃ r, ∃ k, ∃ t : Token, ∃ b, ∃ c, ∃ s : State, 
      let o := s.opSlot r k
      (o.used = true) ∧
      (o.opc = 4) ∧
      (o.follow = none) ∧
      (o.st = .irepHold t b) ∧
      (o.head 1 = some c) ∧
      (c.mark = false) ∧
      (c.poison = false) ∧
      (o.test c = true) ∧
      (o.free 0 = true)) ∧
  (∃ r, ∃ k, ∃ t : Token, ∃ s : State, 
      let o := s.opSlot r k
      (o.fires 5 = true) ∧
      (o.st = .loopIdle) ∧
      (o.head 0 = some t) ∧
      (t.mark = false) ∧
      (t.poison = false)) ∧
  (∃ r, ∃ k, ∃ n, ∃ i, ∃ s : State, 
      let o := s.opSlot r k
      (o.fires 5 = true) ∧
      (o.free 0 = true) ∧
      (o.st = .loopCount n i)) ∧
  (∃ r, ∃ k, ∃ t : Token, ∃ s : State, 
      let o := s.opSlot r k
      (o.fires 8 = true) ∧
      (o.head 0 = some t) ∧
      ((t.mark = false ∨ o.param.testBit 0 = false))) ∧
  (∃ r, ∃ k, ∃ t : Token, ∃ s : State, 
      let o := s.opSlot r k
      (o.fires 11 = true) ∧
      (o.st = .mcutArmed) ∧
      (o.head 0 = some t) ∧
      (t.mark = true) ∧
      (o.free 0 = true)) ∧
  (∃ r, ∃ k, ∃ s : State, 
      (s.stateOfCore (coreOfRouter r) = some .gating) ∧
      ((s.opSlot r k).used = true) ∧
      ((s.opSlot r k).opc = 11) ∧
      ((s.opSlot r k).st = .mcutOpen)) ∧
  (∃ r, ∃ k, ∃ s : State, 
      (s.stateOfCore (coreOfRouter r) = some .running) ∧
      ((s.opSlot r k).used = true) ∧
      ((s.opSlot r k).opc = 11)) := by
  refine ⟨?_, ?_, ?_, ?_, ?_, ?_, ?_, ?_, ?_, ?_, ?_⟩
  · exact ⟨0, 0, tok5, opAt { opc := 3, ins := ⟨[(0, [tok5])]⟩, st := .carryInit }, by decide +kernel⟩
  · exact ⟨0, 0, tok5, tok5, opAt { opc := 3, ins := ⟨[(1, [tok5]), (2, [tok5])]⟩, st := .carryLoop }, by decide +kernel⟩
  · exact ⟨0, 0, { payload := 0 }, opAt { opc := 3, ins := ⟨[(1, [{ payload := 0 }])]⟩, st := .carryLoop }, by decide +kernel⟩
  · exact ⟨0, 0, tok5, opAt { opc := 4, ins := ⟨[(0, [tok5])]⟩, st := .irepEmpty }, by decide +kernel⟩
  · exact ⟨0, 0, tok5, false, tok5, opAt { opc := 4, ins := ⟨[(1, [tok5])]⟩, st := .irepHold tok5 false }, by decide +kernel⟩
  · exact ⟨0, 0, tok5, opAt { opc := 5, ins := ⟨[(0, [tok5])]⟩, st := .loopIdle }, by decide +kernel⟩
  · exact ⟨0, 0, 5, 2, opAt { opc := 5, ins := ⟨[]⟩, st := .loopCount 5 2 }, by decide +kernel⟩
  · exact ⟨0, 0, tok5, opAt { opc := 8, ins := ⟨[(0, [tok5])]⟩ }, by decide +kernel⟩
  · exact ⟨0, 0, mark5, opAt { opc := 11, ins := ⟨[(0, [mark5])]⟩, st := .mcutArmed }, by decide +kernel⟩
  · exact ⟨0, 0, ((opAt { opc := 11, ins := ⟨[]⟩, st := .mcutOpen }).setDieOf 0 { sched := { disps := [{ dom := 0, disp := 5, st := .gating, granules := [0] }] } }), by decide +kernel⟩
  · exact ⟨0, 0, ((opAt { opc := 11, ins := ⟨[]⟩, st := .mcutCut }).setDieOf 0 { sched := { disps := [{ dom := 0, disp := 5, st := .running, granules := [0] }] } }), by decide +kernel⟩

theorem witness_IslandsAndGenerators :
  (∃ c, ∃ t : Token, ∃ ts, ∃ s : State, (s.glaze c).inUse = true ∧ (∀ x ∈ ((s.glaze c).flow s.now).pipe, x.2 ≠ 0) ∧ (s.glaze c).inq = t :: ts) ∧
  (∃ c, ∃ t : Token, ∃ ts, ∃ s : State, ((s.glaze c).flow s.now).pipe = (t, 3) :: ts ∧ (s.glaze c).out = none) ∧
  (∃ g : Glaze, ∃ t : Token, ∃ a, ∃ ts, ∃ now, g.pipe = (t, a) :: ts ∧ g.out = none ∧ g.pipeAt + (3 - a) ≤ now ∧ a ≤ 3) ∧
  (∃ n, ∃ s : State, (s.agen n).valid = true ∧ (s.info (n / 4)).enabled = true ∧ (s.agen n).gate ≠ 2 ∧ (s.agen n).trig = false ∧
      (s.agen n).swept = false ∧ (s.agen n).st = .idle) ∧
  (∃ n, ∃ t : Token, ∃ ts, ∃ s : State, (s.agen n).valid = true ∧ (s.info (n / 4)).enabled = true ∧ (s.agen n).gate ≠ 2 ∧ (s.agen n).trig = true ∧
      (s.agen n).st = .idle ∧ (s.agen n).trigq = t :: ts ∧ (t.dom = 0 ∨ t.dom = s.domOf (n / 4)) ∧ t.mark = false ∧ t.poison = false) ∧
  (∃ n, ∃ t : Token, ∃ ts, ∃ s : State, (s.agen n).valid = true ∧ (s.info (n / 4)).enabled = true ∧ (s.agen n).gate = 0 ∧ (s.agen n).trig = true ∧
      (s.agen n).st = .idle ∧ (s.agen n).trigq = t :: ts ∧ (t.dom = 0 ∨ t.dom = s.domOf (n / 4)) ∧ (t.mark = true ∨ t.poison = true) ∧
      (s.agen n).out = none) ∧
  (∃ n, ∃ i0, ∃ i1, ∃ i2, ∃ i3, ∃ off, ∃ s : State, s.agenOpen n = true ∧ (s.agen n).st = .sweep i0 i1 i2 i3 off) ∧
  (∃ n, ∃ s : State, s.stateOfCore (n / 4) = some .gating ∧ (s.agen n).valid = true ∧ (s.agen n).gate = 0) ∧
  (∃ d : Detector, ∃ n₁, ∃ n₂, d.flags = [n₁, n₂]) := by
  refine ⟨?_, ?_, ?_, ?_, ?_, ?_, ?_, ?_, ?_⟩
  · exact ⟨0, tok5, [], base.setGlaze 0 { inUse := true, inq := [tok5] }, by decide +kernel⟩
  · exact ⟨0, tok5, [], { (base.setGlaze 0 { inUse := true, pipe := [(tok5, 0)] } : State) with now := 3 }, by decide +kernel⟩
  · exact ⟨{ pipe := [(tok5, 0)], pipeAt := 7 }, tok5, 0, [], 10, by decide +kernel⟩
  · exact ⟨0, base.setAgen 0 { valid := true, tid := 0 }, by decide +kernel⟩
  · exact ⟨0, tok5, [], base.setAgen 0 { valid := true, trig := true, trigq := [tok5] }, by decide +kernel⟩
  · exact ⟨0, mark5, [], base.setAgen 0 { valid := true, trig := true, trigq := [mark5] }, by decide +kernel⟩
  · exact ⟨0, 0, 1, 2, 3, 40, base.setAgen 0 { valid := true, st := .sweep 0 1 2 3 40 }, by decide +kernel⟩
  · exact ⟨0, ((base.setAgen 0 { valid := true, gate := 0 }).setDieOf 0 { sched := { disps := [{ dom := 0, disp := 5, st := .gating, granules := [0] }] } }), by decide +kernel⟩
  · exact ⟨{ flags := [9, 4] }, 9, 4, rfl⟩
/-- The value of an answer that has one. -/
def left {α β : Type} (p : (α ⊕ β) × State) (d : α) : α := match p.1 with | .inl x => x | .inr _ => d

theorem left_eq {α β : Type} {p : (α ⊕ β) × State} (d : α) (h : p.1.isLeft = true) : p = (.inl (left p d), p.2) := by
  rcases p with ⟨_ | _, _⟩
  · rfl
  · cases h

/-- A descriptor of 20000 elements n32 in two pages, whose tile table stands here. -/
def desc (table : Nat) : Nat := 2 ^ 511 + 6 * 2 ^ 504 + 20000 * 2 ^ 352 + 2 * 2 ^ 424 + table * 2 ^ 448

/-- A present entry of domain 0 under stripe parity, with all rights, for a frame. -/
def entryOf (frame : Nat) : Nat := 2 ^ 22 + 2 ^ 23 + 2 ^ 24 + 2 ^ 25 + 2 ^ 27 + frame * 2 ^ 38

/-- A load of an element of a tensor at a graph port. -/
def graphReq (tid at_ : Nat) : GraphReq := { req := { payload := BitVec.ofNat 256 (tid * 2 ^ 64 + at_) } }

/-- Domain 0 has a key and three tensors; the pages of 1 and 2 are frames 3 and 4, those of 3 are absent. Tensor 1 holds 5 and 9 at
elements 16383 and 16384. Dispatch 6 is being killed. -/
def hbm0 : State :=
  let put (a n v : Nat) : List (Nat × Byte) := (List.range n).map fun j => (a + j, BitVec.ofNat 8 (v / 256 ^ j))
  let bytes := put 0x10040 64 (desc 0x20000) ++ put 0x10080 64 (desc 0x20000) ++ put 0x100C0 64 (desc 0x20100) ++ put 0x20000 8 (entryOf 3) ++
    put 0x20008 8 (entryOf 4) ++ put 0x20100 8 0 ++ put 0x3FFFC 4 5 ++ put 0x40000 4 9
  let keys := (List.range 12).map (0x1004 + ·) ++ [0x2000, 0x2010, 0x3FFF, 0x4000]
  let m : MemState := { State.reset.mem with bytes := ⟨bytes⟩, keys := ⟨keys.map fun b => (b, some key1)⟩ }
  let s := (base.setKeySlot 0 (some key1)).setCtx 0 { cst := 1, dtcnt := 4, dtbase := 0x10000 }
  let s := (s.setCometPort 0 0 { attached := true, pkind := 0, disp := 5, reqs := [graphReq 1 16383] }).setCometPort 0 1 { attached := true, pkind := 3 }
  let s := (s.setCometPort 0 4 { attached := true, pkind := 0, disp := 5, reqs := [graphReq 3 0] }).setCometPort 0 5 { attached := true, pkind := 3 }
  let s := s.setCometPort 0 8 { attached := true, pkind := 1, disp := 5, reqs := [{ graphReq 1 16383 with write := true }] }
  let s := (s.setCometPort 0 12 { attached := true, pkind := 0, disp := 6, reqs := [graphReq 3 0] }).setCometPort 0 13 { attached := true, pkind := 3 }
  { s.setReg 0 1 16383 with mem := m, die.parts := [{ die := 0, dom := 0, disp := 6, killedAt := some 0 }] }

/-- The same once PE 0 has had its turn at the fibre register 0 of its core. -/
def hbm : State := hbm0.takeTurn (streamKey 0 16) 1

/-- The same once PE 0 has had its turn at the stream register 0 of its core. -/
def hbmS : State := hbm0.takeTurn (streamKey 0 0) 1

/-- The requester of core 0's tasks. -/
def asker : Asker := { comet := 0, dom := 0, disp := 5 }

def rd1 := hbm.memRead 0 0 0x10040 64
def hten1 := HTensor.ofBits (BitVec.ofNat 512 (natOfBytes (left rd1 [])))
def hbm1 := rd1.2.keepXlat asker 1 none (BitVec.ofNat 512 (natOfBytes (left rd1 [])))
theorem hbm_descriptor : hbm.descriptor asker 1 = (.inl hten1, hbm1) :=
  State.descriptor_of_memory (by decide +kernel) (State.cachedXlat_none (by decide +kernel)) (left_eq _ (by decide +kernel)) (by decide +kernel)

def rdS := hbmS.memRead 0 0 0x10040 64
def htenS := HTensor.ofBits (BitVec.ofNat 512 (natOfBytes (left rdS [])))
def hbmS1 := rdS.2.keepXlat asker 1 none (BitVec.ofNat 512 (natOfBytes (left rdS [])))
theorem hbmS_descriptor : hbmS.descriptor asker 1 = (.inl htenS, hbmS1) :=
  State.descriptor_of_memory (by decide +kernel) (State.cachedXlat_none (by decide +kernel)) (left_eq _ (by decide +kernel)) (by decide +kernel)

def rd2 := hbm1.memRead 0 0 0x10080 64
def hten2 := HTensor.ofBits (BitVec.ofNat 512 (natOfBytes (left rd2 [])))
def hbm2 := rd2.2.keepXlat asker 2 none (BitVec.ofNat 512 (natOfBytes (left rd2 [])))
theorem hbm1_descriptor : hbm1.descriptor asker 2 = (.inl hten2, hbm2) :=
  State.descriptor_of_memory (by decide +kernel) (State.cachedXlat_none (by decide +kernel)) (left_eq _ (by decide +kernel)) (by decide +kernel)

def rd3 := hbm2.memRead 0 0 0x100C0 64
def hten3 := HTensor.ofBits (BitVec.ofNat 512 (natOfBytes (left rd3 [])))
def hbm3 := rd3.2.keepXlat asker 3 none (BitVec.ofNat 512 (natOfBytes (left rd3 [])))
theorem hbm2_descriptor : hbm2.descriptor asker 3 = (.inl hten3, hbm3) :=
  State.descriptor_of_memory (by decide +kernel) (State.cachedXlat_none (by decide +kernel)) (left_eq _ (by decide +kernel)) (by decide +kernel)

def rd4 := hbm3.memRead asker.dom asker.dom (hten1.ttaddr + 8 * 0) 8
def hbm4 := rd4.2.keepXlat asker 1 (some 0) ((BitVec.ofNat 64 (natOfBytes (left rd4 []))).setWidth 512)

/-- Where a byte offset of a tensor goes by its entry. -/
def piece (t : HTensor) (off n e : Nat) : List Piece :=
  splitFrames (65536 * bitsOf 38 26 (BitVec.ofNat 64 e)) (off % 2 ^ t.pageBits) n (bitsOf 28 10 (BitVec.ofNat 64 e)) (bitAt 26 (BitVec.ofNat 64 e)) 33

def rd5 := hbm4.hbmRead asker (piece hten1 65532 4 (natOfBytes (left rd4 [])))
theorem hbm3_pointer : hbm3.readPointer asker 1 hten1 16383 = (.inl (natOfBytes (left rd5 [])), rd5.2) :=
  State.readPointer_of (by decide +kernel) (State.translate_one (by decide) (by decide +kernel) (by decide +kernel)
      (State.pageEntry_of_memory (u := rd4.2) (bs := left rd4 []) (State.cachedXlat_none (by decide +kernel)) (left_eq _ (by decide +kernel))
        (by decide +kernel) (by decide +kernel))) (left_eq _ (by decide +kernel))

def rd6 := rd5.2.memRead asker.dom asker.dom (hten1.ttaddr + 8 * 1) 8
def hbm6 := rd6.2.keepXlat asker 1 (some 1) ((BitVec.ofNat 64 (natOfBytes (left rd6 []))).setWidth 512)
def rd7 := hbm6.hbmRead asker (piece hten1 65536 4 (natOfBytes (left rd6 [])))
theorem hbm5_pointer : rd5.2.readPointer asker 1 hten1 16384 = (.inl (natOfBytes (left rd7 [])), rd7.2) :=
  State.readPointer_of (by decide +kernel) (State.translate_one (by decide) (by decide +kernel) (by decide +kernel)
      (State.pageEntry_of_memory (u := rd6.2) (bs := left rd6 []) (State.cachedXlat_none (by decide +kernel)) (left_eq _ (by decide +kernel))
        (by decide +kernel) (by decide +kernel))) (left_eq _ (by decide +kernel))

theorem pointers_read : natOfBytes (left rd5 []) = 5 ∧ natOfBytes (left rd7 []) = 9 := by decide +kernel

/-! Graph ports: a load that goes on, and one that parks. -/

def rdG := hbm1.memRead asker.dom asker.dom (hten1.ttaddr + 8 * 0) 8
def hbmG := rdG.2.keepXlat asker 1 (some 0) ((BitVec.ofNat 64 (natOfBytes (left rdG []))).setWidth 512)
theorem graph_pieces : hbm.graphPieces asker (graphReq 1 16383) =
    (.inl (piece hten1 65532 (elemBytes hten1.shape.fmt) (natOfBytes (left rdG []))), hbmG) := by
  have e : bitsOf 64 12 (graphReq 1 16383).req.payload = 1 := by decide +kernel
  rw [State.graphPieces_of (t := hten1) (u := hbm1) (off := 65532) (by decide +kernel) (by decide +kernel) (fun _ => rfl) (by decide +kernel)
    (by rw [e]; exact hbm_descriptor) (by decide +kernel) (by decide +kernel) (by decide +kernel), e]
  exact State.translate_one (by decide +kernel) (by decide +kernel) (by decide +kernel)
      (State.pageEntry_of_memory (u := rdG.2) (bs := left rdG []) (State.cachedXlat_none (by decide +kernel)) (left_eq _ (by decide +kernel))
        (by decide +kernel) (by decide +kernel))

theorem graph_pieces_write : hbm.graphPieces asker { graphReq 1 16383 with write := true } =
    (.inl (piece hten1 65532 (elemBytes hten1.shape.fmt) (natOfBytes (left rdG []))), hbmG) := by
  have e : bitsOf 64 12 ({ graphReq 1 16383 with write := true } : GraphReq).req.payload = 1 := by decide +kernel
  rw [State.graphPieces_of (t := hten1) (u := hbm1) (off := 65532) (by decide +kernel) (by decide +kernel) (fun _ => rfl) (by decide +kernel)
    (by rw [e]; exact hbm_descriptor) (by decide +kernel) (by decide +kernel) (by decide +kernel), e]
  exact State.translate_one (by decide +kernel) (by decide +kernel) (by decide +kernel)
      (State.pageEntry_of_memory (u := rdG.2) (bs := left rdG []) (State.cachedXlat_none (by decide +kernel)) (left_eq _ (by decide +kernel))
        (by decide +kernel) (by decide +kernel))

def rdP := hbm.memRead 0 0 0x100C0 64
def htenP := HTensor.ofBits (BitVec.ofNat 512 (natOfBytes (left rdP [])))
def hbmP := rdP.2.keepXlat asker 3 none (BitVec.ofNat 512 (natOfBytes (left rdP [])))
theorem hbm_descriptor3 : hbm.descriptor asker 3 = (.inl htenP, hbmP) :=
  State.descriptor_of_memory (by decide +kernel) (State.cachedXlat_none (by decide +kernel)) (left_eq _ (by decide +kernel)) (by decide +kernel)

def rdQ := hbmP.memRead asker.dom asker.dom (htenP.ttaddr + 8 * 0) 8
theorem graph_parks : hbm.graphPieces asker (graphReq 3 0) = (.inr (.park 0 3 0), rdQ.2) := by
  have e : bitsOf 64 12 (graphReq 3 0).req.payload = 3 := by decide +kernel
  rw [State.graphPieces_of (t := htenP) (u := hbmP) (off := 0) (by decide +kernel) (by decide +kernel) (fun _ => rfl) (by decide +kernel)
    (by rw [e]; exact hbm_descriptor3) (by decide +kernel) (by decide +kernel) (by decide +kernel), e]
  exact State.translate_stops (by decide +kernel) (page := 0) (by decide +kernel)
      (State.pageEntry_stops (u := rdQ.2) (bs := left rdQ []) (State.cachedXlat_none (by decide +kernel)) (left_eq _ (by decide +kernel))
        (by decide +kernel) (by decide +kernel))

/-! The same load by the dispatch that is being killed. -/

def asker6 : Asker := { asker with disp := 6 }
def rdK := hbm.memRead 0 0 0x100C0 64
def htenK := HTensor.ofBits (BitVec.ofNat 512 (natOfBytes (left rdK [])))
def hbmK := rdK.2.keepXlat asker6 3 none (BitVec.ofNat 512 (natOfBytes (left rdK [])))
theorem hbm_descriptor6 : hbm.descriptor asker6 3 = (.inl htenK, hbmK) :=
  State.descriptor_of_memory (by decide +kernel) (State.cachedXlat_none (by decide +kernel)) (left_eq _ (by decide +kernel)) (by decide +kernel)

def rdL := hbmK.memRead asker6.dom asker6.dom (htenK.ttaddr + 8 * 0) 8
theorem graph_drops : hbm.graphPieces asker6 (graphReq 3 0) = (.inr (.park 0 3 0), rdL.2) := by
  have e : bitsOf 64 12 (graphReq 3 0).req.payload = 3 := by decide +kernel
  rw [State.graphPieces_of (t := htenK) (u := hbmK) (off := 0) (by decide +kernel) (by decide +kernel) (fun _ => rfl) (by decide +kernel)
    (by rw [e]; exact hbm_descriptor6) (by decide +kernel) (by decide +kernel) (by decide +kernel), e]
  exact State.translate_stops (by decide +kernel) (page := 0) (by decide +kernel)
      (State.pageEntry_stops (u := rdL.2) (bs := left rdL []) (State.cachedXlat_none (by decide +kernel)) (left_eq _ (by decide +kernel))
        (by decide +kernel) (by decide +kernel))

theorem fst_eq {α β : Type} {p : α × β} {x : α} (h : p.1 = x) : p = (x, p.2) := by cases p; cases h; rfl

theorem witness_GraphPorts :
  (∃ c, ∃ p, ∃ t : Token, ∃ ts, ∃ s : State, 
      ((s.cometPort c p).parked = none) ∧
      (s.groupOf c p = .read) ∧
      ((s.cometPort c p).inq = t :: ts) ∧
      (t.mark = false) ∧
      (t.poison = false) ∧
      ((s.cometPort c p).reqs.length + ((s.cometPort c (p + 1)).outq.filter fun r => !r.mark).length < 16)) ∧
  (∃ c, ∃ p, ∃ k, ∃ q, ∃ ps, ∃ bs, ∃ s₁ : State, ∃ s₂ : State, ∃ s : State, 
      ((s.cometPort c p).reqs[k]? = some q) ∧
      (q.held = false) ∧
      (s.graphMay (s.portAsker c p) (s.cometPort c p).reqs k q = true) ∧
      (q.write = false) ∧
      (s.graphPieces (s.portAsker c p) q = (.inl ps, s₁)) ∧
      (s₁.hbmRead (s.portAsker c p) ps = (.inl bs, s₂))) ∧
  (∃ c, ∃ p, ∃ k, ∃ q, ∃ ps, ∃ s₁ : State, ∃ s : State,
      ((s.cometPort c p).reqs[k]? = some q) ∧
      (q.held = false) ∧
      (s.graphMay (s.portAsker c p) (s.cometPort c p).reqs k q = true) ∧
      (q.write = true) ∧
      (q.data.poison = false) ∧
      (s.restartable (s.portAsker c p) = false) ∧
      (s.graphPieces (s.portAsker c p) q = (.inl ps, s₁))) ∧
  (∃ c, ∃ p, ∃ k, ∃ q, ∃ kind, ∃ tid, ∃ page, ∃ s₁ : State, ∃ s : State, 
      ((s.cometPort c p).reqs[k]? = some q) ∧
      (q.held = false) ∧
      (s.graphMay (s.portAsker c p) (s.cometPort c p).reqs k q = true) ∧
      (q.write = false) ∧
      (s.graphPieces (s.portAsker c p) q = (.inr (.park kind tid page), s₁)) ∧
      (s₁.isParked c p = false) ∧
      (s₁.drains (s.portAsker c p) = false)) ∧
  (∃ c, ∃ p, ∃ k, ∃ q, ∃ kind, ∃ tid, ∃ page, ∃ s₁ : State, ∃ s : State, 
      ((s.cometPort c p).reqs[k]? = some q) ∧
      (q.held = false) ∧
      (s.graphMay (s.portAsker c p) (s.cometPort c p).reqs k q = true) ∧
      (q.write = false) ∧
      (s.graphPieces (s.portAsker c p) q = (.inr (.park kind tid page), s₁)) ∧
      (s₁.drains (s.portAsker c p) = true)) ∧
  (∃ c, ∃ p, ∃ q, ∃ qs, ∃ t : Token, ∃ s : State, 
      (s.groupOf c p ≠ .none) ∧
      ((s.cometPort c p).reqs = q :: qs) ∧
      (q.done = some t) ∧
      ((s.cometPort c ((s.groupOf c p).outPort p)).outq.length < 2)) := by
  refine ⟨?_, ?_, ?_, ?_, ?_, ?_⟩
  · exact ⟨0, 0, tok5, [], (base.setCometPort 0 0 { attached := true, pkind := 0, inq := [tok5] }).setCometPort 0 1 { attached := true, pkind := 3 }, by decide +kernel⟩
  · exact ⟨0, 0, 0, graphReq 1 16383, _, _, hbmG, _, hbm, by decide +kernel, rfl, by decide +kernel, rfl, graph_pieces, left_eq [] (by decide +kernel)⟩
  · exact ⟨0, 8, 0, { graphReq 1 16383 with write := true }, _, hbmG, hbm, by decide +kernel, rfl, by decide +kernel, rfl, by decide +kernel, by decide +kernel, graph_pieces_write⟩
  · exact ⟨0, 4, 0, graphReq 3 0, 0, 3, 0, rdQ.2, hbm, by decide +kernel, rfl, by decide +kernel, rfl, graph_parks, by decide +kernel, by decide +kernel⟩
  · exact ⟨0, 12, 0, graphReq 3 0, 0, 3, 0, rdL.2, hbm, by decide +kernel, rfl, by decide +kernel, rfl, graph_drops, by decide +kernel⟩
  · exact ⟨0, 0, { done := some tok5 }, [], tok5, (base.setCometPort 0 0 { attached := true, pkind := 0, reqs := [{ done := some tok5 }] }).setCometPort 0 1 { attached := true, pkind := 3 }, by decide +kernel⟩

theorem witness_CometCommands :
  let takes (x : Issue) : Prop := (x.s.cmdq x.core).length < 16 ∧ x.s.isParked (cometOfCore x.core) (commandPort x.core) = false
  Meets (fun _ => { specComet 0xD8 with
      a := .srcWide, b := .srcWide, c := .srcWide
      xok := fun _ _ imm => decide (fieldNat 18 2 imm < 2) && decide (fieldNat 16 2 imm < 2) && fieldNat 10 6 imm = 0 }) (fun x => (x.sc < 2 ^ 32) ∧ takes x) ∧
  Meets (fun _ => { specComet 0xD8 with
      a := .srcWide, b := .srcWide, c := .srcWide
      xok := fun _ _ imm => decide (fieldNat 18 2 imm < 2) && decide (fieldNat 16 2 imm < 2) && fieldNat 10 6 imm = 0 }) (fun x => (x.sc < 2 ^ 32) ∧ ¬takes x) ∧
  Meets (fun _ => specGather 0xD9) (fun x => (x.sc < 2 ^ 32) ∧ takes x) ∧
  Meets (fun _ => specGather 0xD9) (fun x => (x.sc < 2 ^ 32) ∧ ¬takes x) ∧
  Meets (fun _ => specGather 0xDA) (fun x => (x.sc < 2 ^ 32) ∧ takes x) ∧
  Meets (fun _ => specGather 0xDA) (fun x => (x.sc < 2 ^ 32) ∧ ¬takes x) ∧
  Meets (fun _ => { specComet 0xDC with mods := fun w => w.mod &&& 0b1110 = 0, a := .src, b := .src }) (fun x => (True) ∧ takes x) ∧
  Meets (fun _ => { specComet 0xDC with mods := fun w => w.mod &&& 0b1110 = 0, a := .src, b := .src }) (fun x => (True) ∧ ¬takes x) ∧
  Meets (fun _ => specXchg) (fun x => (x.sc < 2 ^ 32) ∧ takes x) ∧
  Meets (fun _ => specXchg) (fun x => (x.sc < 2 ^ 32) ∧ ¬takes x) ∧
  Meets (fun _ => { specComet 0xE1 with a := .src, b := .src }) (fun x => (x.sb ≤ 2 ^ 21) ∧ takes x) ∧
  Meets (fun _ => { specComet 0xE1 with a := .src, b := .src }) (fun x => (x.sb ≤ 2 ^ 21) ∧ ¬takes x) ∧
  Meets (fun _ => { specComet 0xDB with mods := fun w => w.mod &&& 0b1110 = 0, d := .dst, a := .src }) (fun x => x.task.wait = .none ∧ takes x) ∧
  Meets (fun _ => { specComet 0xDB with mods := fun w => w.mod &&& 0b1110 = 0, d := .dst, a := .src }) (fun x => x.task.wait = .memDone x.task.wait.value none) ∧
  Meets (fun _ => { specComet 0xDB with mods := fun w => w.mod &&& 0b1110 = 0, d := .dst, a := .src }) (fun x => x.task.wait = .memDone x.task.wait.value (some 9)) := by
  refine ⟨?_, ?_, ?_, ?_, ?_, ?_, ?_, ?_, ?_, ?_, ?_, ?_, ?_, ?_, ?_⟩
  · exact ⟨ops 0 1 2 3, 0, (base.setCmdq 0 (List.replicate 15 {})), by decide +kernel⟩
  · exact ⟨ops 0 1 2 3, 0, (base.setCmdq 0 (List.replicate 16 {})), by decide +kernel⟩
  · exact ⟨ops 0 1 2 3, 0, (base.setCmdq 0 (List.replicate 15 {})), by decide +kernel⟩
  · exact ⟨ops 0 1 2 3, 0, (base.setCmdq 0 (List.replicate 16 {})), by decide +kernel⟩
  · exact ⟨ops 0 1 2 3, 0, (base.setCmdq 0 (List.replicate 15 {})), by decide +kernel⟩
  · exact ⟨ops 0 1 2 3, 0, (base.setCmdq 0 (List.replicate 16 {})), by decide +kernel⟩
  · exact ⟨ops 0 1 2 0, 0, (base.setCmdq 0 (List.replicate 15 {})), by decide +kernel⟩
  · exact ⟨ops 0 1 2 0, 0, (base.setCmdq 0 (List.replicate 16 {})), by decide +kernel⟩
  · exact ⟨ops 0 1 2 3, 0, (base.setCmdq 0 (List.replicate 15 {})), by decide +kernel⟩
  · exact ⟨ops 0 1 2 3, 0, (base.setCmdq 0 (List.replicate 16 {})), by decide +kernel⟩
  · exact ⟨ops 0 1 2 0, 0, (base.setCmdq 0 (List.replicate 15 {})), by decide +kernel⟩
  · exact ⟨ops 0 1 2 0, 0, (base.setCmdq 0 (List.replicate 16 {})), by decide +kernel⟩
  · exact ⟨ops 1 2 0 0, 0, base, by decide +kernel⟩
  · exact ⟨ops 1 2 0 0, 0, (waits (.memDone 7 none)), by decide +kernel⟩
  · exact ⟨ops 1 2 0 0, 0, (waits (.memDone 7 (some 9))), by decide +kernel⟩

theorem witness_CompletionCounters :
  let sp : OpSpec := { specComet 0xDF with d := .dst, a := .src }
  let line (x : Issue) : List (Nat × Nat) :=
    let ws := (x.s.cc x.core (x.imm % 16)).waiters
    if ws.contains (x.pe, x.slot) then ws else ws ++ [(x.pe, x.slot)]
  let ok (x : Issue) : Prop := 1 ≤ x.sa ∧ x.sa ≤ 65535
  let first (x : Issue) : Prop := (line x).head? = some (x.pe, x.slot) ∧ x.sa ≤ (x.s.cc x.core (x.imm % 16)).count
  Meets (fun _ => sp) (fun x => ok x ∧ first x) ∧
  Meets (fun _ => sp) (fun x => ok x ∧ ¬first x) ∧
  Meets (fun _ => sp) (fun x => ¬ok x) := by
  refine ⟨?_, ?_, ?_⟩
  · exact ⟨ops 1 2 0 0, 0, ((base.setCc 0 0 { count := 2 }).setReg 0 2 2), by decide +kernel⟩
  · exact ⟨ops 1 2 0 0, 0, ((base.setCc 0 0 { count := 2 }).setReg 0 2 3), by decide +kernel⟩
  · exact ⟨ops 1 2 0 0, 0, ((base.setCc 0 0 { count := 2 }).setReg 0 2 65536), by decide +kernel⟩

theorem witness_ParkedAccesses :
  Meets (fun _ => specResume) (fun x => x.sa < 2 ^ 16 ∧ (x.s.cometPort (cometOfId x.sa) (x.sa % 256)).parked = none) ∧
  (∃ k : Parked, Meets (fun _ => specResume) (fun x => x.sa < 2 ^ 16 ∧ (x.s.cometPort (cometOfId x.sa) (x.sa % 256)).parked = some k ∧ k.abandoned = false)) ∧
  Meets (fun _ => specResume) (fun x => 2 ^ 16 ≤ x.sa) := by
  refine ⟨?_, ?_, ?_⟩
  · exact ⟨ops 0x61 2 0 0, 0, (base.setReg 0 2 4), by decide +kernel⟩
  · exact ⟨{}, ops 0x61 2 0 0, 0, ((base.setCometPort 0 4 { parked := some {} }).setReg 0 2 4), by decide +kernel⟩
  · exact ⟨ops 0x61 2 0 0, 0, (base.setReg 0 2 65536), by decide +kernel⟩

/-- Commands that have been translated: of one element, of a copy within the pool, and a gather of so many parts that has been sent. -/
def cmdOne (op : CmdOp) : Cmd := { op, disp := 5, translated := true, src := [⟨0x3FFFC, 4, 0, false⟩], g := 8, fmt := 6 }
def cmdCopy (n : Nat) : Cmd := { op := .cpy, disp := 5, translated := true, ssp := true, dsp := true, srca := 64, dsta := 128, n }
def cmdGath (parts : Nat) : Cmd := { op := .gath, disp := 5, translated := true, sent := true, parts, order := 3 }
/-- A packet that has arrived at a Comet of cluster 0 for the command with tag 0, in a state that has sent that command. -/
def respFlit (type status : Nat) : Flit :=
  { bits := BitVec.ofNat 512 (Header.pack { type, tag := 512 } + 2 ^ 64 * responsePayload 0x3FFFC (5 * 2 ^ 32) status 7) }
def responding (op : CmdOp) (type status : Nat) : State :=
  (hbm.setCmdq 0 [{ cmdOne op with sent := true }]).setMeshDone (meshRouter 0) 5 [respFlit type status]

/-- A request of a gather, as it is served, as it arrives at a controller of die 0, and as its answer arrives. -/
def gathPiece : Nat × Piece := (0, ⟨0x3FFFC, 4, 0, false⟩)
def gathReq (n : Nat) : GatherReq :=
  { hdr := BitVec.ofNat 64 (hbm.header 0 1 0 3 6 2 1 0 512).pack, id := 5 * 2 ^ 32, todo := List.replicate n gathPiece }
def serving (n : Nat) : State := hbm.setGatherQ 0 [gathReq n]
def gathAsk : List Flit :=
  [{ last := false, bits := BitVec.ofNat 512 ((hbm.header 0 1 0 3 6 2 1 0 512).pack + 2 ^ 64 * gatherPayload 0 1 4 (5 * 2 ^ 32)) },
   { head := false, bits := (gatherFlits [gathPiece]).headD 0 }]
def gathAsked : State := hbm.setMeshDone (meshRouter 0) 7 gathAsk
def gathCmd : Cmd := { cmdGath 1 with g := 4, dsta := 64 }
def gathHead : Flit := { last := false, bits := BitVec.ofNat 512 (Header.pack { type := 7, tag := 512 } + 2 ^ 64 * gatherPayload 0 1 0 gathCmd.id) }
def gathResp : List Flit := [gathHead, { head := false, bits := 5 }]
def gathered : State := (hbm.setCmdq 0 [gathCmd]).setMeshDone (meshRouter 0) 5 gathResp

theorem witness_CommandsPerform :
  let may (s : State) (core k : Nat) (c : Cmd) : Prop :=
    (s.cmdq core)[k]? = some c ∧ c.translated = true ∧ c.sent = false ∧ (∀ d ∈ (s.cmdq core).take k, d.overlaps c = false) ∧
      s.waitsOther core c = false
  let asking (op : CmdOp) : Prop := ∃ core, ∃ k, ∃ c : Cmd, ∃ p, ∃ ps, ∃ s : State, may s core k c ∧ c.op = op ∧ s.isRemote c = false ∧ c.src = p :: ps ∧
    s.restartable (c.asker core) = false
  let response (op : CmdOp) (type : Nat) (ok : Bool) : Prop := ∃ core k : Nat, ∃ c : Cmd, ∃ f : Flit, ∃ t : State, ∃ s : State, c.op = op ∧
    ((s.cmdq core)[k]? = some c ∧ c.translated = true ∧ c.sent = true ∧ ∃ fs,
      s.takePacket (c.asker core).cluster (1 + (c.asker core).comet % 2) (fun b => let x := Header.ofBits b
        decide (x.type = type) && decide (x.tag = cmdTag core c.tag) && decide (bitsOf 186 32 b = c.disp)) = (some (f :: fs), t)) ∧
    decide (bitsOf 138 2 f.bits = 0) = ok
  asking .fgrd ∧ asking .fgwr ∧ asking .ratom ∧
  response .fgrd 1 true ∧ response .fgwr 3 true ∧ response .ratom 5 true ∧ response .fgrd 1 false ∧
  (∃ core, ∃ k, ∃ c, ∃ s : State, may s core k c ∧ c.op = .cpy ∧ c.raw = false ∧ c.n = 0 ∧ s.waitsSlice core c = false) ∧
  (∃ core, ∃ k, ∃ c, ∃ bs, ∃ t u s : State, may s core k c ∧ c.op = .cpy ∧ c.raw = false ∧ c.n ≠ 0 ∧ c.dsp = true ∧
      s.copyRead core (c.asker core) c = (.inl bs, t) ∧ t.cometPoolWrite core c.dsta bs = (none, u) ∧ s.waitsSlice core c = false) ∧
  (∃ core, ∃ k, ∃ c, ∃ s : State, (s.cmdq core)[k]? = some c ∧ c.translated = false ∧ s.mayTranslate core k c = true) ∧
  (∃ c : CompCtr, ∃ _st : Nat, c.count < 65535) ∧
  (∃ st, ∃ r, ∃ rs, ∃ e e', ∃ es, ∃ bs, ∃ t u s : State, s.acceptGather st = t ∧ t.gatherQ st = r :: rs ∧ r.todo = e :: e' :: es ∧
      t.readPiece r.asker e.2 = (.inl bs, u)) ∧
  (∃ st, ∃ r, ∃ rs, ∃ e, ∃ bs, ∃ t u s : State, s.acceptGather st = t ∧ t.gatherQ st = r :: rs ∧ r.todo = [e] ∧ t.readPiece r.asker e.2 = (.inl bs, u)) ∧
  (∃ st, ∃ n, ∃ f, ∃ ds, ∃ s t : State, let via := 16 * (st / 3) + n
    let mine (b : BitVec 512) : Bool := decide ((Header.ofBits b).type = 6) && decide (bitsOf 218 8 b = st)
    (firstBelow 16 fun n => ((s.takePacket (16 * (st / 3) + n) 3 mine).1).isSome) = some n ∧ s.takePacket via 3 mine = (some (f :: ds), t) ∧
    let r : GatherReq := { via, hdr := BitVec.ofNat 64 f.bits.toNat, id := flitId f.bits, todo := gatherEntries f.bits (ds.map Flit.bits) }
    (t.dispOf r.asker.die r.asker.dom r.asker.disp).isSome = true) ∧
  (∃ core, ∃ k : Nat, ∃ c : Cmd, ∃ f : Flit, ∃ ds, ∃ j : Nat, ∃ bs, ∃ t u s : State, (s.cmdq core)[k]? = some c ∧ c.translated = true ∧ c.sent = true ∧ c.op = .gath ∧ c.parts = 1 ∧
    c.bad = [] ∧
    s.takePacket (c.asker core).cluster (1 + (c.asker core).comet % 2)
      (fun b => let x := Header.ofBits b; decide (x.type = 7) && decide (x.tag = cmdTag core c.tag)) = (some (f :: ds), t) ∧
    flitId f.bits = c.id ∧ gatheredOf c.g f.bits (ds.map Flit.bits) = [(j, 0, bs)] ∧ t.cometPoolWrite core (c.dsta + c.g * j) bs = (none, u)) := by
  refine ⟨?_, ?_, ?_, ?_, ?_, ?_, ?_, ?_, ?_, ?_, ?_, ?_, ?_, ?_, ?_⟩
  · exact ⟨0, 0, cmdOne .fgrd, _, _, hbm.setCmdq 0 [cmdOne .fgrd], by decide +kernel, rfl, by decide +kernel, rfl, by decide +kernel⟩
  · exact ⟨0, 0, cmdOne .fgwr, _, _, hbm.setCmdq 0 [cmdOne .fgwr], by decide +kernel, rfl, by decide +kernel, rfl, by decide +kernel⟩
  · exact ⟨0, 0, cmdOne .ratom, _, _, hbm.setCmdq 0 [cmdOne .ratom], by decide +kernel, rfl, by decide +kernel, rfl, by decide +kernel⟩
  · exact ⟨0, 0, { cmdOne .fgrd with sent := true }, respFlit 1 0, _, responding .fgrd 1 0, rfl,
      ⟨by decide +kernel, rfl, rfl, [], fst_eq (by decide +kernel)⟩, by decide +kernel⟩
  · exact ⟨0, 0, { cmdOne .fgwr with sent := true }, respFlit 3 0, _, responding .fgwr 3 0, rfl,
      ⟨by decide +kernel, rfl, rfl, [], fst_eq (by decide +kernel)⟩, by decide +kernel⟩
  · exact ⟨0, 0, { cmdOne .ratom with sent := true }, respFlit 5 0, _, responding .ratom 5 0, rfl,
      ⟨by decide +kernel, rfl, rfl, [], fst_eq (by decide +kernel)⟩, by decide +kernel⟩
  · exact ⟨0, 0, { cmdOne .fgrd with sent := true }, respFlit 1 2, _, responding .fgrd 1 2, rfl,
      ⟨by decide +kernel, rfl, rfl, [], fst_eq (by decide +kernel)⟩, by decide +kernel⟩
  · exact ⟨0, 0, cmdCopy 0, base.setCmdq 0 [cmdCopy 0], by decide +kernel⟩
  · exact ⟨0, 0, cmdCopy 8, _, _, _, base.setCmdq 0 [cmdCopy 8], by decide +kernel, by decide +kernel, by decide +kernel, by decide +kernel,
      by decide +kernel, left_eq [] (by decide +kernel), fst_eq (by decide +kernel), by decide +kernel⟩
  · exact ⟨0, 0, { op := .pref }, base.setCmdq 0 [{ op := .pref }], by decide +kernel⟩
  · exact ⟨{ count := 65534 }, 2, by decide⟩
  · exact ⟨0, gathReq 2, [], gathPiece, gathPiece, [], _, _, _, serving 2, rfl, by decide +kernel, rfl, left_eq [] (by decide +kernel)⟩
  · exact ⟨0, gathReq 1, [], gathPiece, _, _, _, serving 1, rfl, by decide +kernel, rfl, left_eq [] (by decide +kernel)⟩
  · exact ⟨0, 0, _, gathAsk.tail, gathAsked, _, by decide +kernel, fst_eq (x := some gathAsk) (by decide +kernel), by decide +kernel⟩
  · exact ⟨0, 0, gathCmd, gathHead, gathResp.tail, 0, [5, 0, 0, 0], _, _, gathered, by decide +kernel, rfl, rfl, rfl, rfl, rfl, fst_eq (x := some gathResp) (by decide +kernel),
      by decide +kernel, by decide +kernel, fst_eq (by decide +kernel)⟩

theorem witness_StreamRegisters :
  let sopen : OpSpec := { specStream 0xB0 with d := .streamOnly, a := .src, b := .src }
  let sread : OpSpec := { specStream 0xBA with mods := fun w => w.mod &&& 0b1110 = 0, d := .dst, a := { stream := true, fibre := true } }
  (∃ w : Fields, ∃ slot, ∃ s : State, ∃ t : HTensor, ∃ u : State,
      (ReadyOn sopen w slot s) ∧
      let x := s.at sopen w slot
      (x.sb < 2 ^ 32) ∧ ((s.stream x.core (streamNum w.d)).st = .closed) ∧ ((x.inTurn (streamNum w.d)).s.descriptor x.asker (fieldNat 0 12 x.imm) = (.inl t, u)) ∧
      ((t.shape.offset x.sa).isSome = true) ∧ (t.shape.linear x.sa + x.sb ≤ t.shape.total)) ∧
  Meets (fun _ => sopen) (fun x => x.sb < 2 ^ 32 ∧ (x.s.stream x.core (streamNum x.w.d)).st ≠ .closed) ∧
  Meets (fun _ => { specStream 0xB1 with a := .streamOnly, b := .src }) (fun x => x.streamA.st ≠ .closed ∧ 1 ≤ x.sb ∧ x.sb < 2 ^ 32) ∧
  Meets (fun _ => { specStream 0xB1 with a := .streamOnly, b := .src }) (fun x => x.streamA.st = .closed) ∧
  Meets (fun _ => { specStream 0xB5 with a := .fibreOnly, b := .src }) (fun x => x.streamA.st ≠ .closed ∧ 1 ≤ x.sb ∧ x.sb < 2 ^ 32) ∧
  Meets (fun _ => { specStream 0xB5 with a := .fibreOnly, b := .src }) (fun x => x.streamA.st = .closed) ∧
  Meets (fun _ => { specStream 0xB2 with d := .predOnly, a := .streamOnly }) (fun x => x.streamA.st = .opened) ∧
  Meets (fun _ => { specStream 0xB2 with d := .predOnly, a := .streamOnly }) (fun x => x.streamA.st = .atEnd) ∧
  (∃ r : Word, Meets (fun _ => { specStream 0xB2 with d := .predOnly, a := .streamOnly }) (fun x => x.streamA.st = .poisoned ∧ x.streamA.prec = some r)) ∧
  Meets (fun _ => { specStream 0xB6 with d := .predOnly, a := .fibreOnly }) (fun x => x.streamA.st = .opened) ∧
  Meets (fun _ => { specStream 0xB6 with d := .predOnly, a := .fibreOnly }) (fun x => x.streamA.st = .atEnd) ∧
  (∃ r : Word, Meets (fun _ => { specStream 0xB6 with d := .predOnly, a := .fibreOnly }) (fun x => x.streamA.st = .poisoned ∧ x.streamA.prec = some r)) ∧
  Meets (fun _ => { specStream 0xB3 with a := .streamOnly }) (fun x => x.streamA.st ≠ .closed) ∧
  Meets (fun _ => { specStream 0xB7 with a := .fibreOnly }) (fun x => x.streamA.st ≠ .closed) ∧
  Meets (fun _ => sread) (fun x => x.w.mod.getLsbD 0 = false ∧ x.streamA.st = .atEnd) ∧
  (∃ r : Word, Meets (fun _ => sread) (fun x => x.w.mod.getLsbD 0 = false ∧ x.streamA.st = .poisoned ∧ x.streamA.prec = some r)) ∧
  (∃ v : Word, Meets (fun _ => sread) (fun x => x.w.mod.getLsbD 0 = false ∧ x.streamA.st = .opened ∧
      let h := x.streamA.half false
      h.readWord x.streamA (256 / h.shape.bits) = some v ∧ h.firstBad x.streamA (256 / h.shape.bits) = none)) := by
  refine ⟨?_, ?_, ?_, ?_, ?_, ?_, ?_, ?_, ?_, ?_, ?_, ?_, ?_, ?_, ?_, ?_, ?_⟩
  · refine ⟨ops 0x70 3 0x91 0 1, 0, hbm0, htenS, hbmS1, by decide +kernel, by decide +kernel, by decide +kernel, ?_, by decide +kernel, by decide +kernel⟩
    exact (show hbmS.descriptor asker 1 = _ from hbmS_descriptor)
  · exact ⟨ops 0x70 3 0x91 0 1, 0, (base.setStream 0 0 { st := .opened }), by decide +kernel⟩
  · exact ⟨ops 0 0x70 2 0, 0, ((base.setStream 0 0 { st := .opened, len := 8 }).setReg 0 2 3), by decide +kernel⟩
  · exact ⟨ops 0 0x70 2 0, 0, base, by decide +kernel⟩
  · exact ⟨ops 0 0x80 2 0, 0, ((base.setStream 0 16 { st := .opened, len := 8 }).setReg 0 2 3), by decide +kernel⟩
  · exact ⟨ops 0 0x80 2 0, 0, base, by decide +kernel⟩
  · exact ⟨ops 0x61 0x70 0 0, 0, (base.setStream 0 0 { st := .opened }), by decide +kernel⟩
  · exact ⟨ops 0x61 0x70 0 0, 0, (base.setStream 0 0 { st := .atEnd }), by decide +kernel⟩
  · exact ⟨9, ops 0x61 0x70 0 0, 0, (base.setStream 0 0 { st := .poisoned, prec := some 9 }), by decide +kernel⟩
  · exact ⟨ops 0x61 0x80 0 0, 0, (base.setStream 0 16 { st := .opened }), by decide +kernel⟩
  · exact ⟨ops 0x61 0x80 0 0, 0, (base.setStream 0 16 { st := .atEnd }), by decide +kernel⟩
  · exact ⟨9, ops 0x61 0x80 0 0, 0, (base.setStream 0 16 { st := .poisoned, prec := some 9 }), by decide +kernel⟩
  · exact ⟨ops 0 0x70 0 0, 0, (base.setStream 0 0 { st := .poisoned }), by decide +kernel⟩
  · exact ⟨ops 0 0x80 0 0, 0, (base.setStream 0 16 { st := .poisoned }), by decide +kernel⟩
  · exact ⟨ops 1 0x70 0 0, 0, (base.setStream 0 0 { st := .atEnd }), by decide +kernel⟩
  · exact ⟨9, ops 1 0x70 0 0, 0, (base.setStream 0 0 { st := .poisoned, prec := some 9 }), by decide +kernel⟩
  · exact ⟨7, ops 1 0x70 0 0, 0, base.setStream 0 0 { st := .opened, len := 1, shape := { ext0 := 4 }, buf := ⟨[(0, some 7)]⟩ }, by decide +kernel⟩

theorem witness_Fibres :
  let fopen : OpSpec := { specStream 0xB4 with
    mods := fun w => w.mod &&& 0b1110 = 0, d := .fibreOnly, a := { Pos.src with chanIn := false, chanOut := false } }
  let start (x : Issue) : Merge := { a := x.streamA, b := x.streamB, count := 0, found := [] }
  let both (x : Issue) : Prop := x.task.wait = .none ∧ x.streamA.st ≠ .closed ∧ x.streamB.st ≠ .closed ∧ streamNum x.w.a ≠ streamNum x.w.b
  let merged (x : Issue) (lanes : Bool) : Merge := mergeSteps lanes (x.streamA.len + x.streamB.len + 1) (start x)
  let good (m : Merge) : Prop := m.a.st ≠ .poisoned ∧ m.b.st ≠ .poisoned ∧ m.waits = false
  (∃ w : Fields, ∃ slot, ∃ s : State, ∃ tp, ∃ s₁ : State, ∃ ti, ∃ s₂ : State, ∃ tv, ∃ s₃ : State, ∃ p, ∃ s₄, ∃ q, ∃ s₅, 
      (ReadyOn fopen w slot s) ∧
      let x := s.at fopen w slot
      let tid (lo : Nat) : Nat := fieldNat lo 12 x.imm
      (w.mod.getLsbD 0 = false) ∧
      (x.sa < 2 ^ 32) ∧
      ((s.stream x.core (streamNum w.d)).st = .closed) ∧
      ((s.cometPort x.asker.comet (streamPort x.core (streamNum w.d))).parked = none) ∧
      ((x.inTurn (streamNum w.d)).s.fibreTensor x.asker (tid 12) true = (.inl tp, s₁)) ∧
      (s₁.fibreTensor x.asker (tid 24) true = (.inl ti, s₂)) ∧
      (s₂.fibreTensor x.asker (tid 36) false = (.inl tv, s₃)) ∧
      (x.sa + 1 < tp.shape.ext0) ∧
      (s₃.readPointer x.asker (tid 12) tp x.sa = (.inl p, s₄)) ∧
      (s₄.readPointer x.asker (tid 12) tp (x.sa + 1) = (.inl q, s₅))) ∧
  (∃ _tidi : Nat, ∃ _tidv : Nat, ∃ ti : HTensor, ∃ tv : HTensor, ∃ p, ∃ q, ∃ _w : Word, 
      (p ≤ q) ∧
      (q ≤ ti.shape.ext0) ∧
      (q ≤ tv.shape.ext0)) ∧
  Meets (fun _ => { specStream 0xB8 with d := .dst, a := .fibreOnly, b := .fibreOnly, c := .predOnly }) (fun x => both x ∧ good (merged x true)) ∧
  Meets (fun _ => { specStream 0xB9 with d := .dst, a := .fibreOnly, b := .fibreOnly }) (fun x => both x ∧ good (merged x false)) ∧
  (∃ core, ∃ reg, ∃ line, ∃ s : State, 
      ((s.stream core reg).st = .opened) ∧
      (s.isParked (cometOfCore core) (streamPort core reg) = false) ∧
      ((s.stream core reg).nextLine false = some line)) ∧
  (∃ core, ∃ reg, ∃ line, ∃ f, ∃ ds, ∃ phys, ∃ s : State, ∃ t : State, 
      let a := s.askerOf core
      let h := (s.stream core reg).half false
      let waits (b : BitVec 512) (x : Nat × Nat) : Bool := decide (x.2 = bitsOf 64 64 b ∧ bitsOf 186 32 b = a.disp)
      (s.takePacket a.cluster (1 + a.comet % 2) (fun b => let x := Header.ofBits b; decide (x.type = 1) && decide (x.tag = fetchTag core reg 0) && ((h.pend.any fun x => decide (x.1 = line) && waits b x) || !(h.pend.any (waits b)))) = (some (f :: ds), t)) ∧
      (bitsOf 64 64 f.bits = phys) ∧
      (bitsOf 186 32 f.bits = a.disp) ∧
      ((line, phys) ∈ h.pend) ∧
      (bitsOf 138 2 f.bits = 0) ∧
      (s.sliceFull a.cluster a.dom = false)) := by
  refine ⟨?_, ?_, ?_, ?_, ?_, ?_⟩
  · refine ⟨ops 0x80 1 0 0 (1 * 2 ^ 12 + 2 * 2 ^ 24 + 3 * 2 ^ 36), 0, hbm0, hten1, hbm1, hten2, hbm2, hten3, hbm3, natOfBytes (left rd5 []), rd5.2, natOfBytes (left rd7 []), rd7.2, by decide +kernel, rfl, by decide +kernel, by decide +kernel, by decide +kernel,
      ?_, ?_, ?_, by decide +kernel, ?_, ?_⟩
    exact (show hbm.fibreTensor asker 1 true = _ from State.fibreTensor_of hbm_descriptor (by decide +kernel))
    exact (show hbm1.fibreTensor asker 2 true = _ from State.fibreTensor_of hbm1_descriptor (by decide +kernel))
    exact (show hbm2.fibreTensor asker 3 false = _ from State.fibreTensor_of hbm2_descriptor (by decide +kernel))
    exact (show hbm3.readPointer asker 1 hten1 16383 = _ from hbm3_pointer)
    exact (show rd5.2.readPointer asker 1 hten1 16384 = _ from hbm5_pointer)
  · exact ⟨0, 0, hten1, hten1, 5, 9, 0, by decide +kernel⟩
  · exact ⟨ops 1 0x80 0x81 0x61, 0, ((base.setStream 0 16 { st := .opened, len := 1, shape := { ext0 := 4, fmt := 6 }, buf := ⟨[(0, some 5), (1, some 0), (2, some 0), (3, some 0)]⟩ }).setStream 0 17 { st := .opened, len := 1, shape := { ext0 := 4, fmt := 6 }, buf := ⟨[(0, some 5), (1, some 0), (2, some 0), (3, some 0)]⟩ }), by decide +kernel⟩
  · exact ⟨ops 1 0x80 0x81 0, 0, ((base.setStream 0 16 { st := .opened, len := 1, shape := { ext0 := 4, fmt := 6 }, buf := ⟨[(0, some 5), (1, some 0), (2, some 0), (3, some 0)]⟩ }).setStream 0 17 { st := .opened, len := 1, shape := { ext0 := 4, fmt := 6 }, buf := ⟨[(0, some 5), (1, some 0), (2, some 0), (3, some 0)]⟩ }), by decide +kernel⟩
  · exact ⟨0, 0, 0, base.setStream 0 0 { st := .opened, len := 8, shape := { ext0 := 8 } }, by decide +kernel⟩
  · exact ⟨0, 0, 0, { head := true, last := false, bits := 2 ^ 22 + 2 ^ 27 + 0x30000 * 2 ^ 64 + 5 * 2 ^ 186 }, [{ head := false, bits := 77 }], 0x30000, ((base.setStream 0 0 { st := .opened, len := 8, shape := { ext0 := 8 }, pend := [(0, 0x30000)] }).setMeshDone (meshRouter 0) 5 [{ head := true, last := false, bits := 2 ^ 22 + 2 ^ 27 + 0x30000 * 2 ^ 64 + 5 * 2 ^ 186 }, { head := false, bits := 77 }]), _, fst_eq (by decide +kernel), by decide +kernel, by decide +kernel, by decide +kernel⟩

/-- The value of a step that can be made. -/
def leftOf {α β : Type} (x : α ⊕ β) (d : α) : α := match x with | .inl v => v | .inr _ => d

theorem leftOf_eq {α β : Type} {x : α ⊕ β} (d : α) (h : x.isLeft = true) : x = .inl (leftOf x d) := by
  cases x with
  | inl v => rfl
  | inr w => cases h

theorem some_getD {α : Type} {x : Option α} {d : α} (h : x.isSome = true) : x = some (x.getD d) := by
  cases x with
  | none => cases h
  | some v => rfl

/-- Records of one row and one step: of f32, and of i8 with i24 accumulators. -/
def recF : KRec := { word := 10 * 2 ^ 251 + 10 * 2 ^ 246 + 10 * 2 ^ 241 + 2 ^ 195 + 1 }
def recI : KRec := { word := 15 * 2 ^ 241 + 2 ^ 195 + 1 }

theorem witness_KilnInstructions :
  let slot (x : Issue) (n : Nat) : KSlot := x.s.kslot x.cluster n
  Meets (fun _ => { specKiln 0xC0 with d := .dst, a := .src }) (fun x => 1 ≤ x.sa ∧ x.sa ≤ 128 ∧ x.s.freeRun x.cluster x.sa = none) ∧
  (∃ a : Nat, Meets (fun _ => { specKiln 0xC0 with d := .dst, a := .src }) (fun x => 1 ≤ x.sa ∧ x.sa ≤ 128 ∧ x.s.freeRun x.cluster x.sa = some a)) ∧
  Meets (fun _ => { specKiln 0xC1 with a := .src, b := .src }) (fun x => x.sa < 128 ∧ 1 ≤ x.sb ∧ x.sa + x.sb ≤ 128 ∧
      ∀ k < x.sb, (slot x (x.sa + k)).st ≠ .free ∧ (slot x (x.sa + k)).dom = x.dom) ∧
  (∃ w : Fields, ∃ sl, ∃ s : State, ∃ fmt, ∃ t : State,
      let sp : OpSpec := { specKiln 0xC2 with
        a := .srcNoImm, b := .srcNoImm, xok := fun _ _ imm => decide (fieldNat 13 2 imm < 3) }
      (ReadyOn sp w sl s) ∧
      let x := s.at sp w sl
      (x.sa < 128) ∧ ((slot x x.sa).st ≠ .free) ∧ ((slot x x.sa).st ≠ .filling) ∧ ((slot x x.sa).dom = x.dom) ∧ ((slot x x.sa).relp = false) ∧
      ((slot x x.sa).pins = 0) ∧ (s.fillFmt x.core (s.askerOf x.core) (fieldNat 12 1 x.imm = 1) (fieldNat 0 12 x.imm) = (fmt, t))) ∧
  Meets (fun _ => { specKiln 0xC3 with a := { reg := true, chanIn := true, chanOut := true } }) (fun x => (x.s.krecs x.cluster).length < 64) ∧
  Meets (fun _ => { specKiln 0xC3 with a := { reg := true, chanIn := true, chanOut := true } }) (fun x => 64 ≤ (x.s.krecs x.cluster).length) ∧
  Meets (fun _ => { specKiln 0xC8 with a := .src }) (fun x => ∃ e c, x.sa = e + 2 ^ 16 * c ∧ 1 ≤ e ∧ e ≤ 256 ∧ 1 ≤ c ∧ c ≤ 127) ∧
  Runs (fun _ => specScale 0xC6) ∧
  Runs (fun _ => specScale 0xC7) := by
  refine ⟨?_, ?_, ?_, ?_, ?_, ?_, ?_, ?_, ?_⟩
  · exact ⟨ops 1 2 0 0, 0, ((base.setKslot 0 3 { st := .claimed, dom := 0, disp := 5 }).setReg 0 2 128), by decide +kernel⟩
  · exact ⟨4, ops 1 2 0 0, 0, (base.setKslot 0 3 { st := .claimed, dom := 0, disp := 5 }).setReg 0 2 124, by decide +kernel⟩
  · exact ⟨ops 0 1 2 0, 0, (((base.setKslot 0 127 { st := .claimed, dom := 0, disp := 5 }).setReg 0 1 127).setReg 0 2 1), by decide +kernel⟩
  · exact ⟨ops 0 1 2 0 4096, 0, (base.setKslot 0 3 { st := .claimed, dom := 0, disp := 5 }).setReg 0 1 3, 0, _, by decide +kernel, by decide +kernel, by decide +kernel, by decide +kernel, by decide +kernel, by decide +kernel, by decide +kernel, rfl⟩
  · exact ⟨ops 0 1 0 0, 0, (base.setKrecs 0 (List.replicate 63 {})), by decide +kernel⟩
  · exact ⟨ops 0 1 0 0, 0, (base.setKrecs 0 (List.replicate 64 {})), by decide +kernel⟩
  · exact ⟨ops 0 1 0 0, 0, base.setReg 0 1 (256 + 2 ^ 16 * 127), by decide +kernel, 256, 127, by decide +kernel⟩
  · exact runs _ 0 0 (by decide +kernel)
  · exact runs _ 0 0 (by decide +kernel)

theorem witness_KilnCounters :
  let ctr (x : Issue) : KCtr := x.s.kctr x.cluster (x.imm % 32)
  let dep : OpSpec := { specCtr 0xC9 with mods := fun w => w.mod &&& 0b1110 = 0 }
  let stat : OpSpec := { specKiln 0xC5 with
    d := .dst, xok := fun _ _ imm => decide (imm % 64 ≤ 32), prot := fun s imm => decide (imm % 64 < 32) && foreignCtr s (imm % 32) }
  Meets (fun _ => specCtr 0xC4) (fun x => 1 ≤ x.sa ∧ x.sa ≤ 65535 ∧ x.sa ≤ (ctr x).count ∧ (ctr x).failed = false) ∧
  Meets (fun _ => specCtr 0xC4) (fun x => 1 ≤ x.sa ∧ x.sa ≤ 65535 ∧ (ctr x).count < x.sa) ∧
  Meets (fun _ => dep) (fun x => x.sa < 65536) ∧
  Meets (fun _ => dep) (fun x => x.sa < 65536) ∧
  (∃ n : Nat, n < 32) ∧
  Meets (fun _ => stat) (fun x => x.imm % 64 < 32) := by
  refine ⟨?_, ?_, ?_, ?_, ⟨31, by decide⟩, ?_⟩
  · exact ⟨ops 1 2 0 0 3, 0, ((base.setKctr 0 3 { count := 7 }).setReg 0 2 7), by decide +kernel⟩
  · exact ⟨ops 1 2 0 0 3, 0, ((base.setKctr 0 3 { count := 7 }).setReg 0 2 8), by decide +kernel⟩
  · exact ⟨ops 1 2 0 0 3, 0, ((base.setKctr 0 3 { count := 7 }).setReg 0 2 65535), by decide +kernel⟩
  · exact ⟨ops 1 2 0 0 3, 0, ((base.setKctr 0 3 { count := 7 }).setReg 0 2 65535), by decide +kernel⟩
  · exact ⟨ops 1 0 0 0 3, 0, base, by decide +kernel⟩

/-- A record whose products are those of trits, two steps long; one that reads its accumulators; one that has waited. -/
def recT : KRec := { word := 13 * 2 ^ 246 + 15 * 2 ^ 241 + 2 ^ 195 * 2 + 1 }
def recA : KRec := { word := recF.word + 2 ^ 181 }
def recW : KRec := { recF with readyAt := some 0 }

/-- A sub-tile of a record computes on Kiln 0. -/
def subOf (r : KRec) (k : Nat := 0) : SubTile := { rec_ := r, phase := .computing, k }
def onKiln (t : SubTile) : State := base.setKiln 0 (some t)
def stepOf (t : SubTile) (k : Nat) : List Nat × List Nat := leftOf ((onKiln t).stepOperands 0 t k) ([], [])

/-- The record of cluster 0 has waited, and its four Kilns are busy. -/
def waiting : State :=
  { (((((base.setKrecs 0 [recW]).setKiln 0 (some {})).setKiln 1 (some {})).setKiln 2 (some {})).setKiln 3 (some {})) with now := 9000 }

theorem witness_KilnEvents :
  (∃ cl : Nat, ∃ n : Nat, ∃ k, ∃ r : KRec, ∃ s : State, s.oldestReady cl = some n ∧ s.freeKiln cl = some k ∧ (s.krecs cl)[n]? = some r ∧
      s.failedSlot cl r = none) ∧
  (∃ cl : Nat, ∃ n : Nat, ∃ k, ∃ r : KRec, ∃ s : State, s.oldestReady cl = some n ∧ (s.krecs cl)[n]? = some r ∧ s.failedSlot cl r = some k) ∧
  (∃ k, ∃ t : SubTile, ∃ s : State, s.kiln k = some t ∧ t.phase = .issued ∧ (t.rec_.isInt = true ∨ t.rec_.acc = false)) ∧
  (∃ k, ∃ t : SubTile, ∃ x, ∃ s : State, s.kiln k = some t ∧ t.phase = .computing ∧ t.k < t.rec_.k ∧ t.rec_.bf ≠ 13 ∧ t.rec_.isInt = false ∧
      s.stepOperands (k / 4) t t.k = .inl x) ∧
  (∃ k, ∃ t : SubTile, ∃ vs, ∃ u s : State, s.kiln k = some t ∧ t.phase = .issued ∧ t.rec_.isInt = false ∧ t.rec_.acc = true ∧
      s.readAcc t = (.inl vs, u)) ∧
  (∃ k, ∃ t : SubTile, ∃ x, ∃ u : SubTile, ∃ s : State, s.kiln k = some t ∧ t.phase = .computing ∧ t.k < t.rec_.k ∧ t.rec_.bf ≠ 13 ∧
      t.rec_.isInt = true ∧ s.stepOperands (k / 4) t t.k = .inl x ∧ intStep t [x] = .inl u) ∧
  (∃ k, ∃ t : SubTile, ∃ x, ∃ y, ∃ u : SubTile, ∃ s : State, s.kiln k = some t ∧ t.phase = .computing ∧ t.k + 1 < t.rec_.k ∧ t.rec_.bf = 13 ∧
      t.rec_.isInt = true ∧ s.stepOperands (k / 4) t t.k = .inl x ∧ s.stepOperands (k / 4) t (t.k + 1) = .inl y ∧ intStep t [x, y] = .inl u) ∧
  (∃ k, ∃ t : SubTile, ∃ f, ∃ s : State, s.kiln k = some t ∧ t.phase = .computing ∧ t.k < t.rec_.k ∧ s.stepOperands (k / 4) t t.k = .inr f) ∧
  (∃ k, ∃ t : SubTile, ∃ s : State, s.kiln k = some t ∧ t.phase = .spilling ∧ t.bufferBad = false) ∧
  (∃ k, ∃ t : SubTile, ∃ s : State, s.kiln k = some t ∧ t.phase = .computing ∧ t.rec_.k ≤ t.k ∧ t.rec_.isInt = false ∧ t.rec_.amen = false ∧
      t.bufferBad = false) ∧
  (∃ k, ∃ t : SubTile, ∃ s : State, s.kiln k = some t ∧ t.phase = .computing ∧ t.rec_.k ≤ t.k ∧ t.rec_.isInt = true ∧ t.rec_.amen = false ∧
      t.bufferBad = false) ∧
  (∃ cl : Nat, ∃ n : Nat, ∃ r : KRec, ∃ s : State, (s.krecs cl)[n]? = some r ∧ r.running = 0 ∧ r.failure = none ∧ r.drained = r.total ∧
      r.sen = true ∧ r.sctrOk = true ∧ r.cport = 0) ∧
  (∃ cl : Nat, ∃ s : State, (s.noteReady cl).oldestWaiting cl = none) ∧
  (∃ cl n : Nat, ∃ r : KRec, ∃ s : State, (s.krecs cl)[n]? = some r) ∧
  (∃ cl n : Nat, ∃ r : KRec, ∃ c : Nat, ∃ free : List Nat, ∃ k : Nat, ∃ s : State, let u := s.noteReady cl
    u.oldestWaiting cl = some n ∧ (u.krecs cl)[n]? = some r ∧ u.freeKiln cl = none ∧ u.failedSlot cl r = none ∧
      u.migrationTarget cl (r.subSlots r.next).length = some (c, free) ∧ u.freeKiln c = some k) ∧
  ∃ j m' : Nat, j < 32768 ∧ m' < 128 := by
  refine ⟨?_, ?_, ?_, ?_, ?_, ?_, ?_, ?_, ?_, ?_, ?_, ?_, ?_, ?_, ?_, 32767, 127, by decide, by decide⟩
  · exact ⟨0, 0, 0, recF, base.setKrecs 0 [recF], by decide +kernel⟩
  · exact ⟨0, 0, 3, { recF with pinned := [3] }, (base.setKrecs 0 [{ recF with pinned := [3] }]).setKslot 0 3 { st := .failed }, by decide +kernel⟩
  · exact ⟨0, { rec_ := recI }, base.setKiln 0 (some { rec_ := recI }), by decide +kernel⟩
  · exact ⟨0, subOf recF, stepOf (subOf recF) 0, onKiln (subOf recF), by decide +kernel, by decide +kernel, by decide +kernel, by decide +kernel,
      by decide +kernel, leftOf_eq _ (by decide +kernel)⟩
  · exact ⟨0, { rec_ := recA }, leftOf ((onKiln { rec_ := recA }).readAcc { rec_ := recA }).1 [], ((onKiln { rec_ := recA }).readAcc { rec_ := recA }).2,
      onKiln { rec_ := recA }, by decide +kernel, by decide +kernel, by decide +kernel, by decide +kernel,
      fst_eq (leftOf_eq _ (by decide +kernel))⟩
  · exact ⟨0, subOf recI, stepOf (subOf recI) 0, leftOf (intStep (subOf recI) [stepOf (subOf recI) 0]) {}, onKiln (subOf recI), by decide +kernel,
      by decide +kernel, by decide +kernel, by decide +kernel, by decide +kernel, leftOf_eq _ (by decide +kernel), leftOf_eq _ (by decide +kernel)⟩
  · exact ⟨0, subOf recT, stepOf (subOf recT) 0, stepOf (subOf recT) 1, leftOf (intStep (subOf recT) [stepOf (subOf recT) 0, stepOf (subOf recT) 1]) {},
      onKiln (subOf recT), by decide +kernel, by decide +kernel, by decide +kernel, by decide +kernel, by decide +kernel,
      leftOf_eq _ (by decide +kernel), leftOf_eq _ (by decide +kernel), leftOf_eq _ (by decide +kernel)⟩
  · obtain ⟨f, hf⟩ := Sum.isRight_iff.mp (show (({ onKiln (subOf recF) with cluster.opBad := [0] } : State).stepOperands 0 (subOf recF) 0).isRight = true by decide +kernel)
    exact ⟨0, subOf recF, f, { onKiln (subOf recF) with cluster.opBad := [0] }, by decide +kernel, by decide +kernel, by decide +kernel, hf⟩
  · exact ⟨0, { phase := .spilling }, base.setKiln 0 (some { phase := .spilling }), by decide +kernel⟩
  · exact ⟨0, subOf recF 1, onKiln (subOf recF 1), by decide +kernel⟩
  · exact ⟨0, subOf recI 1, onKiln (subOf recI 1), by decide +kernel⟩
  · exact ⟨0, 0, { word := recF.word + 2 ^ 136, drained := 1 }, base.setKrecs 0 [{ word := recF.word + 2 ^ 136, drained := 1 }], by decide +kernel⟩
  · exact ⟨0, base.setKrecs 0 [recF], by decide +kernel⟩
  · exact ⟨0, 0, recF, base.setKrecs 0 [recF], by decide +kernel⟩
  · exact ⟨0, 0, recW, 1, List.range 128, 4, waiting, by decide +kernel⟩

/-- The products at every element. -/
def recP (t : SubTile) (ops : List (List Nat × List Nat)) : Nat → LaneSum := t.addAt (stepProducts t.rec_ ops)

theorem witness_IntegerSteps :
  (∃ _clim : Nat, ∃ lane : Int, ∃ _e : Option OvfEntry, ∃ ps : List (Option Int), -(2 ^ 23) ≤ lane ∧ lane < 2 ^ 23 ∧
      ∀ p ∈ ps, ∃ v : Int, p = some v ∧ v.natAbs ≤ 2 ^ 23) ∧
  (∃ t : SubTile, ∃ ops, ∃ e : Nat, let n := 128 * t.rec_.rows (t.s / t.rec_.nb)
    t.elem = none ∧ e < n ∧ (∀ e < n, ((t.ovf.find e none).elim false OvfEntry.bad) = false) ∧
      (tableOf none n fun e => (recP t ops e).entry).cells.length ≤ t.rec_.elim ∧ ∀ e < n, (recP t ops e).spills = false) ∧
  (∃ t : SubTile, ∃ ops, let n := 128 * t.rec_.rows (t.s / t.rec_.nb)
    t.elem = none ∧ (∀ e < n, ((t.ovf.find e none).elim false OvfEntry.bad) = false) ∧
      (t.rec_.elim < (tableOf none n fun e => (recP t ops e).entry).cells.length ∨ ∃ e < n, (recP t ops e).spills = true) ∧ t.rec_.trap = true) ∧
  ∃ t : SubTile, ∃ ops, let n := 128 * t.rec_.rows (t.s / t.rec_.nb)
    t.elem = none ∧ (∀ e < n, ((t.ovf.find e none).elim false OvfEntry.bad) = false) ∧
      (t.rec_.elim < (tableOf none n fun e => (recP t ops e).entry).cells.length ∨ ∃ e < n, (recP t ops e).spills = true) ∧
      t.rec_.trap = false ∧ t.again = false := by
  refine ⟨?_, ?_, ?_, ?_⟩
  · exact ⟨127, 2 ^ 23 - 1, none, [some (2 ^ 23)], by decide, by decide, fun p hp => ⟨2 ^ 23, by simpa using hp, by decide⟩⟩
  · exact ⟨subOf recI, [([3], [4])], 127, by decide +kernel⟩
  · exact ⟨{ subOf { recI with word := recI.word + 2 ^ 180, elim := 0 } with lanes := ⟨[(0, 2 ^ 23 - 1)]⟩ }, [([3], [4])],
      by decide +kernel, by decide +kernel, .inl (by decide +kernel), by decide +kernel⟩
  · exact ⟨{ subOf { recI with elim := 0 } with lanes := ⟨[(0, 2 ^ 23 - 1)]⟩ }, [([3], [4])],
      by decide +kernel, by decide +kernel, .inl (by decide +kernel), by decide +kernel⟩

/-- A checked fill of a block of sparsity metadata, all of it outside the extents of its source. -/
def filling : State := (base.setTensor 0 0 { valid := true, rankm1 := 1, fmt := 0, addr := 0, ext0 := 1, ext1 := 1, tile0 := 1, tile1 := 1 }).setKslot 0 3 { st := .filling, fpool := true, disp := 5, kind := 2, fmt := 4, fchecked := true, fcoord := 9 }

theorem filling_elem (r j : Nat) : filling.fillElem 0 (filling.kslot 0 3) r j = (.bytes (fillZero 4), filling) := by
  have h0 : (filling.kslot 0 3).fpool = true := by decide +kernel
  have h1 : filling.poolTensor (filling.kslot 0 3).core (filling.kslot 0 3).ftid = some { valid := true, rankm1 := 1, fmt := 0, addr := 0, ext0 := 1, ext1 := 1, tile0 := 1, tile1 := 1 } := by decide +kernel
  have h2 : bitsOf (16 * 0) 16 (filling.kslot 0 3).fcoord = 9 := by decide +kernel
  have h3 : (filling.kslot 0 3).fmt = 4 := by decide +kernel
  have h4 : ∀ a b c, ({ valid := true, rankm1 := 1, fmt := 0, addr := 0, ext0 := 1, ext1 := 1, tile0 := 1, tile1 := 1 } : PoolTensor).shape.inRange (9 + j) a b c = false := fun a b c => decide_eq_false (fun h => by
    have : 9 + j < 1 := h.1
    omega)
  simp only [State.fillElem, h0, h1, h2, h3, h4, if_true, Bool.not_false]

theorem filling_block : ∃ bs, filling.fillBlock 0 (filling.kslot 0 3) = (.bytes bs, filling) := by
  have h : ∃ bs, (filling.fillBlock 0 (filling.kslot 0 3)).1 = .bytes bs ∧ (filling.fillBlock 0 (filling.kslot 0 3)).2 = filling := by
    unfold State.fillBlock
    refine foldUp_keeps (P := fun x : FillPart × State => ∃ bs, x.1 = FillPart.bytes bs ∧ x.2 = filling) ⟨[], rfl, rfl⟩ (fun x k hx => ?_)
    obtain ⟨p, t⟩ := x
    obtain ⟨bs, h1, h2⟩ := hx
    dsimp only at h1 h2
    subst h1 h2
    simp only [filling_elem]
    exact ⟨_, rfl, trivial⟩
  obtain ⟨bs, h1, h2⟩ := h
  exact ⟨bs, Prod.ext h1 h2⟩

theorem witness_OperandFills :
  (∃ cl, ∃ n, ∃ t, ∃ s : State, 
      ((s.kslot cl n).st = .filling) ∧
      ((s.kslot cl n).fchecked = false) ∧
      ((s.kslot cl n).fpool = true) ∧
      (s.poolTensor (s.kslot cl n).core (s.kslot cl n).ftid = some t) ∧
      (fillFits (s.kslot cl n).kind t.shape = true)) ∧
  (∃ cl, ∃ n, ∃ bs, ∃ t : State, ∃ s : State, 
      ((s.kslot cl n).st = .filling) ∧
      ((s.kslot cl n).fchecked = true) ∧
      ((s.kslot cl n).fpool = true) ∧
      (s.fillBlock cl (s.kslot cl n) = (.bytes bs, t)) ∧
      ((t.kslot cl n).relp = false)) := by
  refine ⟨?_, ?_⟩
  · exact ⟨0, 3, { valid := true, rankm1 := 1, fmt := 0, addr := 0, ext0 := 1, ext1 := 1, tile0 := 1, tile1 := 1 }, (base.setTensor 0 0 { valid := true, rankm1 := 1, fmt := 0, addr := 0, ext0 := 1, ext1 := 1, tile0 := 1, tile1 := 1 }).setKslot 0 3 { st := .filling, fpool := true, disp := 5, kind := 0 }, by decide +kernel⟩
  · obtain ⟨bs, h⟩ := filling_block
    exact ⟨0, 3, bs, filling, filling, by decide +kernel, by decide +kernel, by decide +kernel, h, by decide +kernel⟩

theorem pair_eq {α β γ : Type} (p : (α × β) × γ) : p = ((p.1.1, p.1.2), p.2) := rfl

/-- Domain 0 has a key, and memory holds these bytes from an address of whole blocks, and no others. -/
def withBytes (s : State) (a n v : Nat) : State :=
  { s.setKeySlot 0 (some key1) with mem := { State.reset.mem with
      bytes := ⟨(List.range n).map fun j => (a + j, BitVec.ofNat 8 (v / 256 ^ j))⟩, keys := ⟨(List.range ((n + 15) / 16)).map fun b => (a / 16 + b, some key1)⟩ } }

/-- Die 0 holds dispatch 5 of domain 0 on granule 0, in this state, with this part. -/
def partAt (p : Part) (d : Disp) : State :=
  let s := base.setDieOf 0 { sched := { disps := [{ d with dom := 0, disp := 5, granules := [0] }] } }
  { s with die := { s.die with parts := [p] } }

/-- The part. -/
def part0 : Part := { die := 0, dom := 0, disp := 5, granules := [(0, 0)] }

/-- Its dispatch, in a state. -/
def disp0 (st : DispSt) (e : DispEntry := {}) : Disp := { dom := 0, disp := 5, granules := [0], st, entry := e }

theorem witness_MeshMoves :
  (∃ r, ∃ out, ∃ v : Nat, ∃ turn : Nat, ∃ count : Nat, ∃ f : Flit, ∃ h : MeshHold, ∃ q, ∃ s : State, 
      (s.discardBad r = none) ∧
      ((s.meshOut r out).sentAt ≠ some s.now) ∧
      (s.serve r out = some (v, turn, count)) ∧
      (s.offer r out v = some (f, h)) ∧
      (out < 4) ∧
      (meshNext r out = some q)) ∧
  (∃ r, ∃ out, ∃ v : Nat, ∃ turn : Nat, ∃ count : Nat, ∃ f : Flit, ∃ h : MeshHold, ∃ s : State, 
      (s.discardBad r = none) ∧
      ((s.meshOut r out).sentAt ≠ some s.now) ∧
      (s.serve r out = some (v, turn, count)) ∧
      (s.offer r out v = some (f, h)) ∧
      (4 ≤ out)) ∧
  (∃ r, ∃ out, ∃ v, ∃ h, ∃ f, ∃ s : State, s.credit r out v = true ∧ (s.meshOut r out).hold.find v none = some h ∧
      s.candidate r h.input v = some f ∧ f.head = false) ∧
  (∃ r, ∃ i, ∃ vc, ∃ f, ∃ fs, ∃ s : State, 
      (s.meshIn r i vc = f :: fs) ∧
      (f.head = true) ∧
      (f.since ≤ s.now) ∧
      (s.agePromote r ≤ s.now - f.since)) ∧
  (∃ r, ∃ dir, ∃ s : State, 
      ((meshNext r dir).isSome = true) ∧
      ((s.meshOut r dir).down = false)) ∧
  (∃ r, ∃ dir, ∃ s : State, 
      ((meshNext r dir).isSome = true) ∧
      ((s.meshOut r dir).down = false) ∧
      ((s.meshOut r dir).fails < 15)) ∧
  (∃ r, ∃ dir, ∃ s : State, 
      ((meshNext r dir).isSome = true) ∧
      ((s.meshOut r dir).down = false) ∧
      (15 ≤ (s.meshOut r dir).fails)) := by
  refine ⟨?_, ?_, ?_, ?_, ?_, ?_, ?_⟩
  · exact ⟨0, 1, 0, 0, 1, { bits := 18014398509481984 }, { input := 4 }, 1, base.setMeshIn 0 4 0 [{ bits := 18014398509481984 }], by decide +kernel⟩
  · exact ⟨0, 5, 0, 0, 1, { bits := 281474976710656 }, { input := 4 }, base.setMeshIn 0 4 0 [{ bits := 281474976710656 }], by decide +kernel⟩
  · exact ⟨0, 1, 0, { input := 4, age := 7 }, { head := false }, (base.setMeshIn 0 4 0 [{ head := false }]).setMeshOut 0 1 { hold := ⟨[(0, some { input := 4, age := 7 })]⟩ },
      by decide +kernel⟩
  · exact ⟨0, 4, 0, { bits := 18014398509481984 }, [], { (base.setMeshIn 0 4 0 [{ bits := 18014398509481984 }] : State) with now := 256 }, by decide +kernel⟩
  · exact ⟨0, 1, base.setMeshOut 0 1 { fails := 3 }, by decide +kernel⟩
  · exact ⟨0, 1, base.setMeshOut 0 1 { fails := 14 }, by decide +kernel⟩
  · exact ⟨0, 1, base.setMeshOut 0 1 { fails := 15 }, by decide +kernel⟩

/-- A line that cannot be read, and a read that waits for it; with a registered write of it. -/
def badLine : Nat := State.reset.mem.lineOf 0x30000
def readOf : CtrlReq := { addr := 0x30000, len := 64 }
def atomOf : CtrlReq := { write := true, addr := 0x3FFFC, len := 4, data := [1, 0, 0, 0], atom := some (6, 0) }
def rebuilding : State := ((base.setKeySlot 0 (some key1)).setLineFault badLine .uncorrectable).setCtrlQ (lineHome badLine) [readOf]
def registered : State := { rebuilding with mem := { rebuilding.mem with registered := [{ line := badLine, hdr := 0, addr := 0x30000, id := 0 }] } }

theorem witness_MemoryControllers :
  (∃ cl, ∃ k, ∃ r, ∃ s : State, let t := s.acceptCtrl cl
      t.ctrlPick cl (fun r => !r.write) = some (k, r) ∧ t.needsRebuild r = false) ∧
  (∃ cl, ∃ k, ∃ r : CtrlReq, ∃ bs, ∃ t u : State, let q := t.setCtrlQ cl ((t.ctrlQ cl).take k ++ (t.ctrlQ cl).drop (k + 1))
      q.memRead r.key r.dom r.addr r.len = (.inl bs, u)) ∧
  (∃ line, ∃ cl, ∃ k, ∃ r, ∃ s : State, s.rebuildFor line = some (cl, k, r) ∧ (s.storedLines r.addr).any s.writeRegistered = false) ∧
  (∃ line, ∃ cl, ∃ k, ∃ r, ∃ s : State, s.rebuildFor line = some (cl, k, r) ∧ line ∈ s.storedLines r.addr ∧ s.writeRegistered line = true) ∧
  (∃ cl, ∃ k, ∃ r, ∃ s : State, let t := s.acceptCtrl cl
      t.ctrlPick cl CtrlReq.write = some (k, r) ∧ r.atom = none ∧ t.needsRebuild r = false ∧ t.parityFull r.dom (t.mem.lineOf r.addr) = false) ∧
  (∃ cl, ∃ k, ∃ r, ∃ fmt, ∃ aop, ∃ bs, ∃ v, ∃ s : State, let t := s.acceptCtrl cl
      t.ctrlPick cl CtrlReq.write = some (k, r) ∧ r.atom = some (fmt, aop) ∧ t.needsRebuild r = false ∧ t.parityFull r.dom (t.mem.lineOf r.addr) = false ∧
      (t.setCtrlQ cl ((t.ctrlQ cl).take k ++ (t.ctrlQ cl).drop (k + 1))).memRead r.key r.dom r.addr r.len = (.inl bs, v)) ∧
  (∃ k : Nat, ∃ w : ParityWrite, ∃ s : State, s.mem.registered[k]? = some w) ∧
  (∃ code, ∃ unit, ∃ s : State, ∃ dom, dom ∈ (s.occupants code unit).map Prod.fst ∧ dom ≠ 0) ∧
  (∃ code, ∃ unit, ∃ s : State, ∃ disp, (0, disp) ∈ s.occupants code unit ∧ disp ≠ noDisp) := by
  refine ⟨?_, ?_, ?_, ?_, ?_, ?_, ?_, ?_, ?_⟩
  · exact ⟨0, 0, readOf, base.setCtrlQ 0 [readOf], by decide +kernel⟩
  · exact ⟨0, 0, { addr := 0x3FFFC, len := 4 }, _, hbm.setCtrlQ 0 [{ addr := 0x3FFFC, len := 4 }], _, left_eq [] (by decide +kernel)⟩
  · exact ⟨badLine, lineHome badLine, 0, readOf, rebuilding, by decide +kernel⟩
  · exact ⟨badLine, lineHome badLine, 0, readOf, registered, by decide +kernel⟩
  · exact ⟨0, 0, { write := true, addr := 0x30000, len := 4, data := [1, 2, 3, 4] }, (base.setKeySlot 0 (some key1)).setCtrlQ 0 [{ write := true, addr := 0x30000, len := 4, data := [1, 2, 3, 4] }], by decide +kernel⟩
  · exact ⟨0, 0, atomOf, 6, 0, _, _, hbm.setCtrlQ 0 [atomOf], by decide +kernel, rfl, by decide +kernel, by decide +kernel, left_eq [] (by decide +kernel)⟩
  · exact ⟨0, { line := 5, hdr := 0, addr := 64, id := 0 }, { base with mem := { base.mem with registered := [{ line := 5, hdr := 0, addr := 64, id := 0 }] } }, by decide +kernel⟩
  · exact ⟨0x0C, 0, base.setCtrlQ 0 [{ dom := 7 }], 7, by decide +kernel⟩
  · exact ⟨0x0C, 0, base.setCtrlQ 0 [{ dom := 0, id := 5 * 2 ^ 32 }], 5, by decide +kernel⟩

/-- A dispatch whose image of two frames is to be loaded; the cache holds it, or not. -/
def loadDisp : Disp := disp0 .loading { img := 0x50000, nf := 2 }
def loadState : State := withBytes (partAt part0 loadDisp) 0x50000 64 1
def loadCached : State := { loadState with cluster := { loadState.cluster with
  cfgCache := [{ cluster := 0, dom := 0, addr := 0x50000, digest := digestOf (Frm.ofWord 1) (Frm.ofWord 0), frames := [1, 0] }] } }

theorem witness_ImageLoads :
  (∃ cl, ∃ p, ∃ d, ∃ e, ∃ w₀, ∃ w₁, ∃ t : State, ∃ u : State, ∃ s : State, 
      ((s.loader cl).busy = false) ∧
      (s.nextJob cl = some (p, d, e)) ∧
      (s.readFrame p.dom ((p.image d e).1 + 32 * ((p.image d e).2 - 2)) = (.inl w₀, t)) ∧
      (t.readFrame p.dom ((p.image d e).1 + 32 * ((p.image d e).2 - 1)) = (.inl w₁, u)) ∧
      let digest := digestOf (Frm.ofWord w₀) (Frm.ofWord w₁)
      ((u.cluster.cfgCache.any fun c => c.is cl p.dom (p.image d e).1 digest) = false)) ∧
  (∃ cl, ∃ p, ∃ d, ∃ e, ∃ w₀, ∃ w₁, ∃ t : State, ∃ u : State, ∃ s : State, 
      ((s.loader cl).busy = false) ∧
      (s.nextJob cl = some (p, d, e)) ∧
      (s.readFrame p.dom ((p.image d e).1 + 32 * ((p.image d e).2 - 2)) = (.inl w₀, t)) ∧
      (t.readFrame p.dom ((p.image d e).1 + 32 * ((p.image d e).2 - 1)) = (.inl w₁, u)) ∧
      let digest := digestOf (Frm.ofWord w₀) (Frm.ofWord w₁)
      ((u.cluster.cfgCache.any fun c => c.is cl p.dom (p.image d e).1 digest) = true)) ∧
  (∃ cl, ∃ p, ∃ d, ∃ w, ∃ t : State, ∃ s : State, 
      (s.partOf (cl / 16) (s.loader cl).dom (s.loader cl).disp = some p) ∧
      (s.dispOfPart p = some d) ∧
      ((s.loader cl).busy = true) ∧
      (d.loads = true) ∧
      (s.nextFrame cl (s.loader cl) = (.inl w, t)) ∧
      ((Frm.ofWord w).bad = false) ∧
      (((loadRegions d (p.toLoad d cl (s.loader cl).expert)).any (Frm.ofWord w).badTarget) = false) ∧
      (((s.loader cl).frames.head?).elim false (fun v => (Frm.ofWord v).isEnd 0) = false) ∧
      ((s.loader cl).next + 1 < 2 ^ 20)) ∧
  (∃ cl, ∃ p, ∃ d, ∃ w, ∃ t : State, ∃ s : State, 
      (s.partOf (cl / 16) (s.loader cl).dom (s.loader cl).disp = some p) ∧
      (s.dispOfPart p = some d) ∧
      ((s.loader cl).busy = true) ∧
      (d.loads = true) ∧
      (s.nextFrame cl (s.loader cl) = (.inl w, t)) ∧
      ((Frm.ofWord w).bad = true)) ∧
  (∃ cl, ∃ p, ∃ d, ∃ pattern, ∃ t s : State, s.partOf (cl / 16) (s.loader cl).dom (s.loader cl).disp = some p ∧ s.dispOfPart p = some d ∧
      (s.loader cl).busy = true ∧ d.loads = true ∧ s.nextFrame cl (s.loader cl) = (.inr (.ue pattern), t)) := by
  refine ⟨?_, ?_, ?_, ?_, ?_⟩
  · exact ⟨0, part0, loadDisp, 0, _, _, _, _, loadState, by decide +kernel, by decide +kernel,
      left_eq 0 (by decide +kernel), left_eq 0 (by decide +kernel), by decide +kernel⟩
  · exact ⟨0, part0, loadDisp, 0, _, _, _, _, loadCached, by decide +kernel, by decide +kernel,
      left_eq 0 (by decide +kernel), left_eq 0 (by decide +kernel), by decide +kernel⟩
  · exact ⟨0, part0, disp0 .loading { img := 0x50000, nf := 2 }, _, _, (withBytes (partAt part0 (disp0 .loading { img := 0x50000, nf := 2 })) 0x50000 32 (2 ^ 252)).setLoader 0 { busy := true, disp := 5, img := 0x50000, nf := 2 }, by decide +kernel, by decide +kernel, by decide +kernel, by decide +kernel, left_eq 0 (by decide +kernel), by decide +kernel, by decide +kernel, by decide +kernel, by decide +kernel⟩
  · exact ⟨0, part0, disp0 .loading { img := 0x50000, nf := 2 }, _, _, (withBytes (partAt part0 (disp0 .loading { img := 0x50000, nf := 2 })) 0x50000 32 (0)).setLoader 0 { busy := true, disp := 5, img := 0x50000, nf := 2 }, by decide +kernel, by decide +kernel, by decide +kernel, by decide +kernel, left_eq 0 (by decide +kernel), by decide +kernel⟩
  · exact ⟨0, part0, loadDisp, true, _, (loadState.setLineFault (State.reset.mem.lineOf 0x50000) .pattern).setLoader 0 { busy := true, disp := 5, img := 0x50000, nf := 2 },
      by decide +kernel, by decide +kernel, by decide +kernel, by decide +kernel, fst_eq (by decide +kernel)⟩

theorem witness_DispatcherTimers :
  (∃ die, ∃ s : State, 
      ((s.dieOf die).sweptAt + 32 ≤ s.now) ∧
      (s.lostDies.contains die = false)) ∧
  (∃ die, ∃ s : State, 
      ((s.dieOf die).heartbeat + 4096 ≤ s.now) ∧
      (s.lostDies.contains die = false)) ∧
  (∃ die, ∃ s : State, 
      ((s.dieOf die).heartbeat + 16384 ≤ s.now) ∧
      (s.lostDies.contains die = false)) ∧
  (∃ die, ∃ dom, ∃ disp, ∃ p, ∃ s : State, 
      (s.partOf die dom disp = some p) ∧
      (s.partIn p .running = true) ∧
      (p.reported = false) ∧
      (s.partActive p = true) ∧
      (s.partStill p = true) ∧
      (s.partParked p = false)) ∧
  (∃ die, ∃ dom, ∃ p, ∃ t₀, ∃ s : State, 
      (p ∈ s.die.parts) ∧
      (p.die = die) ∧
      (p.dom = dom) ∧
      (s.partIn p .gating = true) ∧
      (p.gatedAt = some t₀) ∧
      (t₀ + p.limit ≤ s.now) ∧
      ((s.hub.log.drop (s.dieOf die).applied).contains (.watchdog die dom) = false)) ∧
  (∃ s : State, 
      let ticks := (s.hub.log.filter fun n => match n with | .tick _ => true | _ => false).length
      (512 * (ticks + 1) ≤ s.now - (s.dieOf 0).resetAt)) ∧
  (∃ die, ∃ dom, ∃ disp, ∃ p, ∃ t₀, ∃ d, ∃ s : State, 
      (s.partOf die dom disp = some p) ∧
      (p.killedAt = some t₀) ∧
      (s.dispOfPart p = some d) ∧
      ((2 ≤ p.sweeps ∨ t₀ + 4096 ≤ s.now))) ∧
  (∃ s : State, 
      ((∀ d < 8, s.lostDies.contains d = false → ∃ v, (d, v) ∈ s.digests (s.hub.judged + 1))) ∧
      (dissenters ((s.digests (s.hub.judged + 1)).filter fun d => ((List.range 8).filter fun x => !s.lostDies.contains x).contains d.1) = [])) := by
  refine ⟨?_, ?_, ?_, ?_, ?_, ?_, ?_, ?_⟩
  · exact ⟨0, { (base : State) with now := 32 }, by decide +kernel⟩
  · exact ⟨0, { (base : State) with now := 4096 }, by decide +kernel⟩
  · exact ⟨0, { (base : State) with now := 16384 }, by decide +kernel⟩
  · exact ⟨0, 0, 5, part0, { (partAt part0 (disp0 .running) : State) with now := 1048576 }, by decide +kernel⟩
  · exact ⟨0, 0, { part0 with gatedAt := some 3, limit := 4 }, 3, { (partAt ({ part0 with gatedAt := some 3, limit := 4 }) (disp0 .gating) : State) with now := 7 }, by decide +kernel⟩
  · exact ⟨{ (base : State) with now := 512 }, by decide +kernel⟩
  · exact ⟨0, 0, 5, { part0 with killedAt := some 3, sweeps := 2 }, 3, disp0 .killed, partAt ({ part0 with killedAt := some 3, sweeps := 2 }) (disp0 .killed), by decide +kernel⟩
  · exact ⟨{ (base : State) with hub := { base.hub with log := (List.range 8).map fun d => .digest d 1 7 } },
      fun d hd _ => ⟨7, by revert d; decide +kernel⟩, by decide +kernel⟩

theorem witness_NoticesApply :
  (∃ die, ∃ f : Work → Work, ∃ s : State, ((f { sched := (s.dieOf die).sched }).settle.letIn.place).acts = []) ∧
  ∀ n : Notice, ∃ die, ∃ s : State, s.nextNotice die = some n := by
  refine ⟨⟨0, id, State.reset, by decide +kernel⟩, fun n => ?_⟩
  by_cases h : ∃ x r, n = .dieLoss x r
  · obtain ⟨x, r, rfl⟩ := h
    exact ⟨x + 1, { State.reset with hub := { State.reset.hub with log := [.dieLoss x r] } }, by
      simp [State.nextNotice, State.lostDies]; rfl⟩
  · refine ⟨0, { State.reset with hub := { State.reset.hub with log := [n] } }, ?_⟩
    cases n <;> first | rfl | exact absurd ⟨_, _, rfl⟩ h

/-- The next notice of die 0, whose replica is this. -/
def noticed (n : Notice) (c : Sched) : State :=
  { State.reset.setDieOf 0 { sched := c } with hub := { State.reset.hub with log := [n] } }

/-- A notice meets a replica that is as a clause asks. -/
def Noticed (n : Notice) (held : Sched → Prop) : Prop := ∃ die, ∃ s : State, s.nextNotice die = some n ∧ held (s.dieOf die).sched

theorem noticed_of {n : Notice} {held : Sched → Prop} (c : Sched) (h : (noticed n c).nextNotice 0 = some n ∧ held ((noticed n c).dieOf 0).sched) :
    Noticed n held := ⟨0, _, h⟩

/-- A replica of one dispatch; a dispatch of domain 3; a restartable one; an entry that is accepted. -/
def accepted : DispEntry := { img := 0x50000, nf := 2 }
def one (d : Disp) : Sched := { disps := [d] }
def of3 (st : DispSt) : Disp := { disp0 st with dom := 3 }
def again (st : DispSt) (requeues : Nat := 1) : Disp := { disp0 st { rst := true } with requeues }

theorem witness_NoticeEffects :
  let free (dom : Nat) (c : Sched) : Prop := (c.ctx dom).terminated = false
  let live (d : Disp) : Prop := d.st = .running ∨ d.st = .gating ∨ (d.st = .saved ∧ d.granules ≠ [])
  (∃ dom p x, Noticed (.launch dom p x) (fun c => (c.ctx dom).terminated = true ∧ (c.ctx dom).silent = false)) ∧
  (∃ dom p x, Noticed (.launch dom p x) (fun c => (c.ctx dom).terminated = true ∧ (c.ctx dom).silent = true)) ∧
  (∃ dom, ∃ p : Packet, ∃ x, p.unreadable = true ∧ Noticed (.launch dom p x) (free dom)) ∧
  (∃ dom, ∃ p : Packet, ∃ x, p.unreadable = false ∧ p.bad = true ∧ Noticed (.launch dom p x) (free dom)) ∧
  (∃ dom, ∃ p : Packet, ∃ x e, p.unreadable = false ∧ p.bad = false ∧ p.rtv = false ∧ p.entries = [e] ∧ e.refused dom 0 [e] = false ∧
      e.fixed ≠ none ∧ Noticed (.launch dom p x) (fun c => free dom c ∧ c.ninth dom = false ∧ ∀ y ∈ c.late, y.1 ≠ dom)) ∧
  (∃ dom, ∃ p : Packet, ∃ x, p.unreadable = false ∧ p.bad = false ∧ Noticed (.launch dom p x)
      (fun c => free dom c ∧ (c.ninth dom = true ∨ ∃ y ∈ c.late, y.1 = dom))) ∧
  (∃ n d, Noticed (.tick n) (fun c => c.blocked = none ∧ c.scan = [d] ∧ c.find d.dom d.disp = some d ∧ d.level < 3)) ∧
  (∃ n dom disp st d, Noticed (.loaded n dom disp st) (fun c => c.find dom disp = some d ∧ (d.st = .placed ∨ d.st = .loading))) ∧
  (∃ n dom disp e k, ∃ d : Disp, Noticed (.ended n dom disp e k)
      (fun c => c.find dom disp = some d ∧ (d.st = .running ∨ d.st = .gating) ∧ d.redealt ≤ k)) ∧
  (∃ n dom disp, ∃ d : Disp, Noticed (.saved n dom disp) (fun c => c.find dom disp = some d ∧ d.st = .saved)) ∧
  (∃ n dom disp k, ∃ d : Disp, Noticed (.committed n dom disp k) (fun c => c.find dom disp = some d ∧ d.st = .draining ∧ d.redealt ≤ k)) ∧
  (∃ n dom disp cause, ∃ d : Disp, cause ≠ Cause.stageOverflow ∧ cause ≠ Cause.deadlock ∧ Noticed (.error n dom disp cause 0 .plain)
      (fun c => c.find dom disp = some d ∧ live d ∧ d.entry.rst = true ∧ d.requeues < 2)) ∧
  (∃ n disp cause, ∃ d : Disp, cause ≠ Cause.stageOverflow ∧ cause ≠ Cause.deadlock ∧ Noticed (.error n 0 disp cause 0 .plain)
      (fun c => c.find 0 disp = some d ∧ live d ∧ (d.entry.rst = true → 2 ≤ d.requeues))) ∧
  (∃ n dom disp cause, ∃ d : Disp, (cause = Cause.stageOverflow ∨ cause = Cause.deadlock) ∧ Noticed (.error n dom disp cause 0 .plain)
      (fun c => c.find dom disp = some d ∧ live d ∧ d.st = .saved)) ∧
  (∃ dom, ∃ d : Disp, Noticed (.preempt dom) (fun c => (c.ctx dom).held = false ∧ (c.disps.filter fun x => x.dom = dom) = [d] ∧ d.st = .running)) ∧
  (∃ dom, Noticed (.preempt dom) (fun c => (c.ctx dom).held = true)) ∧
  (∃ dom, Noticed (.resume dom) (fun _ => True)) ∧
  (∃ dom cause x by_ flr, ∃ d : Disp, dom ≠ 0 ∧ Noticed (.kill dom cause x by_ flr)
      (fun c => free dom c ∧ (c.disps.filter fun x => x.dom = dom) = [d] ∧ d.st = .running)) ∧
  (∃ dom cause x by_, Noticed (.kill dom cause x by_ false) (fun c => dom = 0 ∨ (c.ctx dom).terminated = true)) ∧
  (∃ n, ∃ d : Disp, Noticed (.watchdog n 0) (fun c => (c.disps.filter fun x => decide (x.dom = 0) && decide (x.st = .gating)) = [d])) ∧
  (∃ n dom, ∃ d : Disp, dom ≠ 0 ∧ Noticed (.watchdog n dom) (fun c => free dom c ∧ (c.disps.filter fun x => x.dom = dom) = [d] ∧ d.st = .gating)) ∧
  (∃ n dom, Noticed (.watchdog n dom) (fun c => ∀ d ∈ c.disps, d.dom = dom → d.st ≠ .gating)) ∧
  (∃ v, Noticed (.csr v) (fun _ => True)) ∧
  (∃ dom n table e, Noticed (.phase dom n table e) (fun c => (c.ctx dom).phase = n ∧ (c.ctx dom).updates = [])) ∧
  (∃ dom n es e, ∃ u : Nat × Nat × Nat, u.1 ≤ n + 1 ∧ Noticed (.phase dom n (some es) e)
      (fun c => (c.ctx dom).phase = n ∧ (c.ctx dom).updates = [u] ∧ c.otherHeld dom = false ∧ (c.ctx dom).repver = false)) ∧
  (∃ dom disp cs, ∃ d : Disp, Noticed (.hist dom disp cs 0) (fun c => c.find dom disp = some d ∧ d.st = .ready ∧ d.hist = none)) ∧
  (∃ dom disp cs, ∃ d : Disp, Noticed (.hist dom disp cs Cause.hbmUe) (fun c => c.find dom disp = some d ∧ d.st = .ready ∧ d.hist = none)) ∧
  (∃ dom disp cs, ∃ d : Disp, Noticed (.hist dom disp cs (Cause.protection + 256 * 2)) (fun c => c.find dom disp = some d ∧ d.st = .ready ∧ d.hist = none)) ∧
  (∃ n rooms, Noticed (.dieLoss n rooms) (fun c => c.lost.contains n = false ∧ ∀ d ∈ c.disps, ∀ g ∈ d.granules, g / 64 ≠ n)) ∧
  (∃ n rooms, ∃ d : Disp, d.entry.wheel = false ∧ Noticed (.dieLoss n rooms) (fun c => c.lost.contains n = false ∧ c.disps = [d] ∧
      d.st = .running ∧ d.entry.rst = true ∧ d.requeues < 2 ∧ ∃ g ∈ d.granules, g / 64 = n)) ∧
  (∃ a b, Noticed (.linkSplit a b) (fun c => c.splits.contains (Nat.min a b, Nat.max a b) = false ∧
      ∀ d ∈ c.disps, (∀ g ∈ c.liveGranules d, g / 64 ≠ a ∧ g / 64 ≠ b) ∧ c.spansSplit (c.liveGranules d) = false)) ∧
  ∃ a b, ∃ d : Disp, Noticed (.linkSplit a b) (fun c => c.splits = [] ∧ c.disps = [d] ∧ d.st = .running ∧ d.entry.rst = false ∧
      (∃ g ∈ c.liveGranules d, g / 64 = a) ∧ ∃ g ∈ c.liveGranules d, g / 64 = b) := by
  refine ⟨?_, ?_, ?_, ?_, ?_, ?_, ?_, ?_, ?_, ?_, ?_, ?_, ?_, ?_, ?_, ?_, ?_, ?_, ?_, ?_, ?_, ?_, ?_, ?_, ?_, ?_, ?_, ?_, ?_, ?_, ?_, ?_⟩
  · exact ⟨3, {}, default, noticed_of (({} : Sched).setCtx 3 { terminated := true }) (by decide +kernel)⟩
  · exact ⟨3, {}, default, noticed_of (({} : Sched).setCtx 3 { terminated := true, silent := true }) (by decide +kernel)⟩
  · exact ⟨3, { unreadable := true }, default, rfl, noticed_of {} (by decide +kernel)⟩
  · exact ⟨3, { ndisp := 1, reserved := true }, default, rfl, rfl, noticed_of {} (by decide +kernel)⟩
  · exact ⟨3, { ndisp := 1, entries := [accepted] }, default, accepted, rfl, rfl, rfl, rfl, by decide +kernel, by decide +kernel, noticed_of {} (by decide +kernel)⟩
  · exact ⟨9, { ndisp := 1, entries := [accepted] }, default, rfl, rfl, noticed_of { disps := (List.range 8).map fun k => { disp0 .running with dom := k } } (by decide +kernel)⟩
  · exact ⟨1, { disp0 .ready with level := 2 }, noticed_of (one { disp0 .ready with level := 2 }) (by decide +kernel)⟩
  · exact ⟨0, 0, 5, 0, disp0 .placed, noticed_of (one (disp0 .placed)) (by decide +kernel)⟩
  · exact ⟨0, 0, 5, default, 0, disp0 .running, noticed_of (one (disp0 .running)) (by decide +kernel)⟩
  · exact ⟨0, 0, 5, disp0 .saved, noticed_of (one (disp0 .saved)) (by decide +kernel)⟩
  · exact ⟨0, 0, 5, 0, disp0 .draining, noticed_of (one (disp0 .draining)) (by decide +kernel)⟩
  · exact ⟨0, 0, 5, Cause.hbmUe, again .running, by decide, by decide, noticed_of (one (again .running)) (by decide +kernel)⟩
  · exact ⟨0, 5, Cause.hbmUe, again .gating 2, by decide, by decide, noticed_of (one (again .gating 2)) (by decide +kernel)⟩
  · exact ⟨0, 0, 5, Cause.deadlock, { disp0 .saved with granules := [0] }, .inr rfl, noticed_of (one { disp0 .saved with granules := [0] }) (by decide +kernel)⟩
  · exact ⟨0, disp0 .running, noticed_of (one (disp0 .running)) (by decide +kernel)⟩
  · exact ⟨3, noticed_of (({} : Sched).setCtx 3 { held := true }) (by decide +kernel)⟩
  · exact ⟨3, noticed_of {} (by decide +kernel)⟩
  · exact ⟨3, Cause.watchdog, 0, none, true, of3 .running, by decide, noticed_of (one (of3 .running)) (by decide +kernel)⟩
  · exact ⟨0, Cause.watchdog, 0, none, noticed_of {} (by decide +kernel)⟩
  · exact ⟨0, disp0 .gating, noticed_of (one (disp0 .gating)) (by decide +kernel)⟩
  · exact ⟨0, 3, of3 .gating, by decide, noticed_of (one (of3 .gating)) (by decide +kernel)⟩
  · exact ⟨0, 0, noticed_of (one (disp0 .running)) (by decide +kernel)⟩
  · exact ⟨5, noticed_of {} (by decide +kernel)⟩
  · exact ⟨3, 0, none, default, noticed_of {} (by decide +kernel)⟩
  · exact ⟨3, 0, [], default, (1, 0, 0), by decide, noticed_of (({} : Sched).setCtx 3 { updates := [(1, 0, 0)] }) (by decide +kernel)⟩
  · exact ⟨0, 5, [], disp0 .ready, noticed_of (one (disp0 .ready)) (by decide +kernel)⟩
  · exact ⟨0, 5, [], disp0 .ready, noticed_of (one (disp0 .ready)) (by decide +kernel)⟩
  · exact ⟨0, 5, [], disp0 .ready, noticed_of (one (disp0 .ready)) (by decide +kernel)⟩
  · exact ⟨1, [], noticed_of (one (disp0 .running)) (by decide +kernel)⟩
  · exact ⟨1, [], { again .running with granules := [64] }, by decide +kernel, noticed_of (one { again .running with granules := [64] }) (by decide +kernel)⟩
  · exact ⟨1, 2, noticed_of (one (disp0 .running)) (by decide +kernel)⟩
  · exact ⟨1, 2, { disp0 .running with granules := [64, 128] }, noticed_of (one { disp0 .running with granules := [64, 128] }) (by decide +kernel)⟩

/-- Equal values at n rising keys. -/
def cellsFrom {α : Type} (v : α) : Nat → Nat → List (Nat × α)
  | _, 0 => []
  | a, n + 1 => (a, v) :: cellsFrom v (a + 1) n

theorem find_cellsFrom {α : Type} (v d : α) (k : Nat) : ∀ n a, a ≤ k → k < a + n → Map.findIn d k (cellsFrom v a n) = v
  | 0, a, h1, h2 => absurd h2 (by omega)
  | n + 1, a, h1, h2 => by
    by_cases h : a = k
    · simp [cellsFrom, Map.findIn, h]
    · simp only [cellsFrom, Map.findIn, h, if_false]
      exact find_cellsFrom v d k n (a + 1) (by omega) (by omega)

theorem map_cellsFrom {α : Type} (v : α) : ∀ n a, (cellsFrom v a n).map (fun c => (c.1, some c.2)) = cellsFrom (some v) a n
  | 0, _ => rfl
  | n + 1, a => by simp only [cellsFrom, List.map_cons, map_cellsFrom v n]

/-- A part of a dispatch that is saved asks for room in a save area of 16 pages whose directory is empty. -/
def saving : State :=
  let s := ((partAt part0 (disp0 .saved)).setKeySlot 0 (some key1)).setCtx 0 { cst := 1, savea := 0x100000, savesz := 16 }
  { s with hub := { s.hub with saveReqs := [⟨0, 0, 5, 100⟩, ⟨1, 0, 5, 100⟩] }
           mem := { State.reset.mem with bytes := ⟨cellsFrom 0 0x100000 4096⟩, keys := ⟨cellsFrom (some key1) 0x10000 256⟩ } }

/-- Once the request is taken. -/
def saving1 : State := { saving with hub := { saving.hub with saveReqs := [⟨1, 0, 5, 100⟩] } }

theorem saving_read : saving1.memRead 0 0 0x100000 4096 = (.inl (List.replicate 4096 0), saving1) := by
  have h : ∀ p < 0x101000, saving1.readLine p 0 = (none, saving1) := fun p hp =>
    State.readLine_good rfl (show p / 65536 < 33030144 by omega) rfl rfl
  rw [State.memRead_good (key := key1) (by decide +kernel) rfl h (by decide)]
  have e : saving1.mem.getBytes key1 0x100000 4096 = (List.range 4096).map fun _ => 0 := by
    refine List.map_congr_left fun j hj => ?_
    have hj := List.mem_range.1 hj
    have k1 : saving1.mem.keys.find ((0x100000 + j) / 16) none = some key1 := find_cellsFrom _ _ _ _ _ (by omega) (by omega)
    have k2 : saving1.mem.bytes.get? (0x100000 + j) = some 0 := by
      show Map.findIn none _ ((cellsFrom (0 : Byte) 0x100000 4096).map _) = _
      rw [map_cellsFrom]; exact find_cellsFrom _ _ _ _ _ (by omega) (by omega)
    simp only [MemState.byte, k1, k2, if_true, Option.getD_some]
  rw [e, List.map_const', List.length_range]

/-- Its empty directory. -/
def emptyDir : List DirEntry := List.replicate 256 { disp := 0, len := 0, die := 0, off := 0 }

theorem saving_directory : saving1.directory 0 = (some emptyDir, saving1) := by
  have h : saving1.memRead 0 0 (saving1.ctx 0).savea.toNat 4096 = (.inl (List.replicate 4096 0), saving1) := saving_read
  have z : DirEntry.ofBits (natOfBytes (List.replicate 16 0)) = { disp := 0, len := 0, die := 0, off := 0 } := by decide +kernel
  have e : ((List.range 256).map fun k => DirEntry.ofBits (natOfBytes (((List.replicate 4096 (0 : Byte)).drop (16 * k)).take 16))) =
      (List.range 256).map fun _ => { disp := 0, len := 0, die := 0, off := 0 } := by
    refine List.map_congr_left fun k hk => ?_
    have hk := List.mem_range.1 hk
    rw [List.drop_replicate, List.take_replicate, Nat.min_eq_left (by omega), z]
  simp only [State.directory, h, e, List.map_const', List.length_range, emptyDir]

theorem witness_SavesAndPhases :
  (∃ q, ∃ qs, ∃ p, ∃ es, ∃ k, ∃ off, ∃ t s : State, s.hub.saveReqs = q :: qs ∧
      let s₀ : State := { s with hub := { s.hub with saveReqs := qs } }
      s₀.partOf q.die q.dom q.disp = some p ∧ s₀.directory q.dom = (some es, t) ∧
      (firstBelow 256 fun k => ((es[k]?).getD default).len = 0) = some k ∧ fitAt es (4096 * (t.ctx q.dom).savesz) q.len = some off) ∧
  (∃ die, ∃ dom, ∃ disp, ∃ p, ∃ d, ∃ k, ∃ off, ∃ accs, ∃ t s : State, s.partOf die dom disp = some p ∧ s.dispOfPart p = some d ∧ d.st = .saved ∧
      d.entry.rst = false ∧ p.saved = false ∧ p.reported = false ∧ p.grant = some (k, off) ∧ s.readAccs p.cores = (.inl accs, t)) ∧
  (∃ die, ∃ dom, ∃ disp, ∃ p, ∃ d, ∃ s : State, s.partOf die dom disp = some p ∧ s.dispOfPart p = some d ∧ d.st = .saved ∧
      d.entry.rst = false ∧ p.saved = false ∧ p.grant = none ∧ p.asked = false) ∧
  (∃ die, ∃ dom, ∃ disp, ∃ p, ∃ d, ∃ k, ∃ off, ∃ s : State, s.partOf die dom disp = some p ∧ s.dispOfPart p = some d ∧ d.st = .saved ∧
      d.entry.rst = true ∧ p.saved = false ∧ p.grant = some (k, off)) ∧
  (∃ die, ∃ dom, ∃ disp, ∃ p, ∃ d, ∃ s : State, s.partOf die dom disp = some p ∧ s.dispOfPart p = some d ∧ d.st = .draining ∧
      p.committed = false ∧ d.entry.wheel = false ∧
      let t := (s.commitLines die (s.cluster.stage.filter fun l =>
        decide (l.dom = dom) && decide (l.disp = disp) && decide (l.cluster / 16 = die))).discardStaged p
      t.commitOut p = false) ∧
  (∃ dom, ∃ disp, ∃ d, ∃ cs, ∃ x, ∃ t : State, ∃ s : State, 
      ((s.hubView.bind fun c => c.find dom disp) = some d) ∧
      (d.st = .ready) ∧
      (d.entry.wheel = true) ∧
      (d.hist = none) ∧
      (s.readHist dom d.entry.taddr 0 d.entry.tcnt = ((cs, x), t))) ∧
  (∃ dom, ∃ c, ∃ s : State, 
      (s.hubView = some c) ∧
      (s.hub.released = false) ∧
      (c.phaseEnded dom (c.ctx dom).phase = true) ∧
      (s.hub.exch.contains (dom, (c.ctx dom).phase) = false)) ∧
  (∃ dom, ∃ c, ∃ s : State, 
      (s.hubView = some c) ∧
      (s.hub.released = false) ∧
      (c.phaseEnded dom (c.ctx dom).phase = true) ∧
      (s.hub.exch.contains (dom, (c.ctx dom).phase) = true) ∧
      ((s.hub.holdAt = none ∨ dom = 0))) ∧
  (∃ c, ∃ s : State, s.hubView = some c ∧ s.hub.released = true) := by
  refine ⟨?_, ?_, ?_, ?_, ?_, ?_, ?_, ?_, ?_⟩
  · exact ⟨⟨0, 0, 5, 100⟩, [⟨1, 0, 5, 100⟩], part0, emptyDir, 0, 4096, saving1, saving, rfl, by decide +kernel, saving_directory, by decide +kernel, by decide +kernel⟩
  · exact ⟨0, 0, 5, { part0 with grant := some (0, 4096) }, disp0 .saved, 0, 4096, _, _, partAt { part0 with grant := some (0, 4096) } (disp0 .saved),
      by decide +kernel, by decide +kernel, by decide +kernel, by decide +kernel, by decide +kernel, by decide +kernel, by decide +kernel,
      left_eq [] (by decide +kernel)⟩
  · exact ⟨0, 0, 5, part0, disp0 .saved, partAt part0 (disp0 .saved), by decide +kernel⟩
  · exact ⟨0, 0, 5, { part0 with grant := some (0, 4096) }, disp0 .saved { rst := true }, 0, 4096, partAt { part0 with grant := some (0, 4096) } (disp0 .saved { rst := true }), by decide +kernel⟩
  · exact ⟨0, 0, 5, part0, disp0 .draining, partAt part0 (disp0 .draining), by decide +kernel⟩
  · exact ⟨0, 5, disp0 .ready { cls := 4, tcnt := 1, taddr := 0x60000 }, _, _, _, withBytes (partAt part0 (disp0 .ready { cls := 4, tcnt := 1, taddr := 0x60000 })) 0x60000 16 (3 * 2 ^ 64), by decide +kernel, by decide +kernel, by decide +kernel, by decide +kernel, pair_eq _⟩
  · exact ⟨0, { disps := [{ dom := 0, phase := 1 }] }, { base.setDieOf 0 { sched := { disps := [{ dom := 0, phase := 1 }] } } with hub := { base.hub with exch := [] } }, by decide +kernel⟩
  · exact ⟨0, { disps := [{ dom := 0, phase := 1 }] }, { base.setDieOf 0 { sched := { disps := [{ dom := 0, phase := 1 }] } } with hub := { base.hub with exch := [(0, 0)] } }, by decide +kernel⟩
  · exact ⟨_, { base with hub := { base.hub with released := true } }, some_getD (d := default) (by decide +kernel), rfl⟩

theorem witness_TrapQueueWrites :
  let next (s : State) (t : Trap) (ts : List Trap) : Prop := s.hub.lateTraps = [] ∧ s.hub.heldTraps = [] ∧ s.hub.traps = t :: ts
  (∃ t : Trap, ∃ ts, ∃ s : State, next s t ts ∧ (s.keySlot t.dom).isSome = true) ∧
  (∃ t : Trap, ∃ ts, ∃ s : State, next s t ts ∧ (s.keySlot t.dom).isSome = true ∧ (s.ctx t.dom).trapq = 0) ∧
  (∃ t : Trap, ∃ ts, ∃ s : State, next s t ts ∧ s.keySlot 0 = none ∧ t.dom = 0) ∧
  (∃ t : Trap, ∃ ts, ∃ s : State, next s t ts ∧ s.keySlot t.dom = none ∧ t.dom ≠ 0 ∧ s.resetting t.dom = none) ∧
  (∃ t t' : Trap, ∃ ts, ∃ s : State, s.hub.lateTraps = [] ∧ s.hub.heldTraps = t :: t' :: ts ∧ (s.keySlot 0).isSome = true) ∧
  (∃ t : Trap, ∃ s : State, s.hub.lateTraps = [t] ∧ (s.hub.traps.any fun x => decide (x.dom = t.dom)) = true) ∧
  (∃ t : Trap, ∃ h, ∃ u : State, ∃ s : State, ∃ q, ∃ size, ∃ wr, ∃ rd, ∃ lost, 
      ((s.ctx t.dom).trapq.toNat = q) ∧
      (q ≠ 0) ∧
      (s.memRead t.dom t.dom q 64 = (.inl h, u)) ∧
      (natOfBytes h % 2 ^ 128 = wr + 2 ^ 32 * rd + 2 ^ 64 * size + 2 ^ 96 * lost) ∧
      (wr < 2 ^ 32) ∧
      (rd < 2 ^ 32) ∧
      (size < 2 ^ 32) ∧
      (lost < 2 ^ 32) ∧
      (ringSize size = true) ∧
      ((wr + 2 ^ 32 - rd) % 2 ^ 32 < size) ∧
      (wr ≠ rd)) := by
  refine ⟨?_, ?_, ?_, ?_, ?_, ?_, ?_⟩
  · exact ⟨⟨0, 9⟩, [], { (base.setKeySlot 0 (some key1) : State) with hub := { base.hub with traps := [⟨0, 9⟩] } }, by decide +kernel⟩
  · exact ⟨⟨0, 9⟩, [], { (base.setKeySlot 0 (some key1) : State) with hub := { base.hub with traps := [⟨0, 9⟩] } }, by decide +kernel⟩
  · exact ⟨⟨0, 9⟩, [], { (base.setKeySlot 0 none : State) with hub := { base.hub with traps := [⟨0, 9⟩] } }, by decide +kernel⟩
  · exact ⟨⟨3, 9⟩, [], { (base.setKeySlot 0 none : State) with hub := { base.hub with traps := [⟨3, 9⟩] } }, by decide +kernel⟩
  · exact ⟨⟨0, 9⟩, ⟨0, 8⟩, [], { (base.setKeySlot 0 (some key1) : State) with hub := { base.hub with heldTraps := [⟨0, 9⟩, ⟨0, 8⟩] } }, by decide +kernel⟩
  · exact ⟨⟨3, 9⟩, { base with hub := { base.hub with traps := [⟨3, 8⟩], lateTraps := [⟨3, 9⟩] } }, by decide +kernel⟩
  · exact ⟨⟨0, 9⟩, _, _, (withBytes (base.setCtx 0 { cst := 1, trapq := 0x60000 }) 0x60000 64 (1 + 16 * 2 ^ 64)), 0x60000, 16, 1, 0, 0, by decide +kernel, by decide +kernel, left_eq [] (by decide +kernel), by decide +kernel, by decide +kernel, by decide +kernel, by decide +kernel, by decide +kernel, by decide +kernel, by decide +kernel, by decide +kernel⟩

/-- The vendor's key is in flash and its digest in the fuses, and the lifecycle fuses hold this code. -/
def vendorState (code : Nat) (s : State := base) : State :=
  let s : State := { s with sag := { s.sag with vendorX := 100386192787861028215904060374235360922532235044938461483124806307502339436309, vendorY := 59926324431696717000452371016288900267186498121672178806611758686575532518337 } }
  (s.setFuse 2 (BitVec.ofNat 256 74882794582349457516966400566415101137411487974932532495132244084845978986563)).setFuse 0 (BitVec.ofNat 256 code)

/-- A token for device 0 in DEVELOPMENT with nonce 0, and the vendor's signature of it. -/
def token0 : List Byte := Sm.beBytes 96 328758493846773344202561867680008041596896237676448366226366699781858013845135806946098559149667981878693998829948177734102799605453810394290773003704833989091647432846450924608584557221892003776244096399153988

/-- The manifest of an image of one byte 1, and the vendor's signature of it. -/
def manifest0 : List Byte := Sm.beBytes 128 250954765148300777673219033890591463757433276858642491706935059789647078956257032577633093174664212916716346710572461048509101136448493355888404234290376340085139449899175676231576487620749928900141303636072680990923052197894799404124248153728265659082638850205869121561

theorem token0_passes : firstFailing ((vendorState 1).tokenChecks token0 ++ [(5, !(vendorState 1).tenantActive), (6, !(bitAt 1 ((vendorState 1).fuse 1)))]) = none := by
  decide +kernel

theorem manifest0_passes : (vendorState 1).vendorKeyOk = true ∧ (vendorState 1).vendorSigned manifest0 64 = true ∧ Sm.sm3 [1] = (manifest0.drop 16).take 32 := by
  decide +kernel

/-- The PF names domain 0 in its window, and memory holds two bytes at 0x30000. -/
def window0 : State := (withBytes base 0x30000 16 7).setFunc 0 { winbase := 0x30000 }

/-- The first VF names its domain 1 in its window. -/
def window1 : State :=
  (((withBytes base 0x30000 16 7).setKeySlot 1 (some key1)).setCtx 1 { cst := 1, func := 1 }).setFunc 1 { winbase := 0x30000, windom := 1 }

/-- A mailbox with a command of this code, domain 1 named, and these further fields. -/
def mailbox (code : Nat) (more : Nat := 0) (dom : Nat := 1) : State := base.setFunc 0 { mbcmd := BitVec.ofNat 512 (code + dom * 2 ^ 16 + more) }

theorem witness_HostRegisters :
  (∃ f, ∃ v : BitVec 64, ∃ s : State, 
      (s.started = true) ∧
      ((s.seen f).launchWhy f v.toNat = 0)) ∧
  (∃ f, ∃ v : BitVec 64, ∃ s : State, 
      (s.started = true) ∧
      ((s.seen f).launchWhy f v.toNat ≠ 0)) ∧
  (∃ _f : Nat, ∃ _v : BitVec 64, ∃ s : State, 
      (s.hostUp = true)) ∧
  (∃ _f : Nat, ∃ _v : BitVec 64, ∃ s : State, 
      (s.hostUp = true)) ∧
  (∃ _f : Nat, ∃ _v : BitVec 64, ∃ s : State, 
      (s.hostUp = true)) ∧
  (∃ _f : Nat, ∃ off, ∃ n, ∃ s : State, 
      (s.hostUp = true) ∧
      ((n ≠ 8 ∨ off % 8 ≠ 0))) ∧
  (∃ f, ∃ s : State, s.hostUp = true ∧ (s.func f).mbst = 1 ∧ s.inReset f = false ∧ f ≠ 0) ∧
  (∃ f off n bs, ∃ t s : State, off + n ≤ windowSize f ∧ s.hostUp = true ∧ f = 0 ∧ (s.seen f).mayName f ((s.seen f).func f).windom.toNat = true ∧
    (s.seen f).memRead ((s.seen f).func f).windom.toNat ((s.seen f).func f).windom.toNat (((s.seen f).func f).winbase.toNat + off) n = (.inl bs, t)) ∧
  (∃ f off n bs, ∃ t s : State, off + n ≤ windowSize f ∧ s.hostUp = true ∧ f ≠ 0 ∧ (s.seen f).mayName f ((s.seen f).func f).windom.toNat = true ∧
    (s.seen f).memRead ((s.seen f).func f).windom.toNat ((s.seen f).func f).windom.toNat (((s.seen f).func f).winbase.toNat + off) n = (.inl bs, t)) ∧
  (∃ f off n e, ∃ t s : State, off + n ≤ windowSize f ∧ s.hostUp = true ∧ (s.seen f).mayName f ((s.seen f).func f).windom.toNat = true ∧
    (s.seen f).memRead ((s.seen f).func f).windom.toNat ((s.seen f).func f).windom.toNat (((s.seen f).func f).winbase.toNat + off) n = (.inr e, t)) ∧
  (∃ f off n, ∃ s : State, off + n ≤ windowSize f ∧ s.hostUp = true ∧ f ≠ 0 ∧ (s.seen f).mayName f ((s.seen f).func f).windom.toNat = false) ∧
  (∃ f off, ∃ bs : List Byte, ∃ s : State, off + bs.length ≤ windowSize f ∧ s.hostUp = true ∧ f ≠ 0) := by
  refine ⟨?_, ?_, ?_, ?_, ?_, ?_, ?_, ?_, ?_, ?_, ?_, ?_⟩
  · exact ⟨0, 0, base, by decide +kernel⟩
  · exact ⟨0, 3, base, by decide +kernel⟩
  · exact ⟨0, 5, base, by decide +kernel⟩
  · exact ⟨1, 5, base, by decide +kernel⟩
  · exact ⟨0, 5, base, by decide +kernel⟩
  · exact ⟨0, 4, 8, base, by decide +kernel⟩
  · exact ⟨1, base.setFunc 1 { mbst := 1 }, by decide +kernel⟩
  · exact ⟨0, 0, 16, _, _, window0, by decide +kernel, by decide +kernel, rfl, by decide +kernel, left_eq [] (by decide +kernel)⟩
  · exact ⟨1, 0, 16, _, _, window1, by decide +kernel, by decide +kernel, by decide, by decide +kernel, left_eq [] (by decide +kernel)⟩
  · exact ⟨0, 0, 16, .key (window0.homeOf 0x30000), _, window0.setKeySlot 0 none, by decide +kernel, by decide +kernel, by decide +kernel, fst_eq (by decide +kernel)⟩
  · exact ⟨1, 0, 8, base.setFunc 1 { windom := 5 }, by decide +kernel⟩
  · exact ⟨1, 0, [1, 2], base, by decide +kernel⟩

theorem witness_MailboxCommands :
  let rings (f code : Nat) (s : State) : Prop :=
    s.hostUp = true ∧ s.inReset f = false ∧ (s.func f).mbst ≠ 1 ∧ (s.func f).arg 0 2 = code ∧ s.seen f = s
  let dom (f : Nat) (s : State) : Nat := (s.func f).arg 2 2
  (∃ f s c, rings f 1 s ∧ s.owns f (dom f s) = true ∧ (s.ctx (dom f s)).cst = 0 ∧ s.sag.token = none ∧ (s.func f).entryArgs = some c) ∧
  (∃ f s, rings f 1 s ∧ s.owns f (dom f s) = true ∧ (s.ctx (dom f s)).cst ≠ 0) ∧
  (∃ f s, rings f 2 s ∧ s.owns f (dom f s) = true) ∧
  (∃ f s, rings f 2 s ∧ s.owns f (dom f s) = false) ∧
  (∃ f s, rings f 5 s ∧ s.owns f (dom f s) = true) ∧
  (∃ f s, rings f 5 s ∧ s.owns f (dom f s) = false) ∧
  (∃ f d, ∃ s : State, s.started = true ∧ s.inReset f = false ∧ (s.func f).mbst = 1 ∧ (s.func f).running = some (5, d) ∧ s.drained d = true) ∧
  (∃ f d, ∃ s : State, s.started = true ∧ s.inReset f = false ∧ (s.func f).mbst = 1 ∧ (s.func f).running = some (2, d) ∧ s.drained d = true) ∧
  (∃ f s, rings f 3 s ∧ s.owns f (dom f s) = true) ∧
  (∃ f s, rings f 4 s ∧ s.owns f (dom f s) = true) ∧
  (∃ s, rings 0 6 s ∧ (∀ d ∈ (List.range ((s.func 0).arg 24 2)).map ((s.func 0).arg 16 8 + ·), s.owns 0 d = true) ∧
      (s.func 0).arg 16 8 + (s.func 0).arg 24 8 ≤ 1024 ∧ (s.func 0).arg 8 8 < 64 ∧
      ∀ d ∈ (List.range ((s.func 0).arg 24 2)).map ((s.func 0).arg 16 8 + ·), (s.ctx d).cst = 0) ∧
  (∃ f s d, rings f 6 s ∧ d ∈ (List.range ((s.func f).arg 24 2)).map ((s.func f).arg 16 8 + ·) ∧ s.owns f d = false) ∧
  (∃ s k, rings 0 7 s ∧ (s.func 0).arg 8 8 = 0 ∧ bootUnits[(s.func 0).arg 16 8]? = some k) ∧
  (∃ s r, rings 0 7 s ∧ (s.func 0).arg 8 8 = 1 ∧ s.mem.excludedRange 0 ((s.func 0).arg 16 8) false s.mem.frameCount = some r) ∧
  (∃ s, rings 0 8 s) ∧
  (∃ s c, rings 0 9 s ∧ dom 0 s = 0 ∧ (s.func 0).entryArgs = some c ∧ s.superBusy = false) := by
  refine ⟨?_, ?_, ?_, ?_, ?_, ?_, ?_, ?_, ?_, ?_, ?_, ?_, ?_, ?_, ?_, ?_⟩
  · exact ⟨0, mailbox 1 (0) 1, _, by decide +kernel, by decide +kernel, by decide +kernel, by decide +kernel, some_getD (d := {}) (by decide +kernel)⟩
  · exact ⟨0, (mailbox 1 (0) 1).setCtx 1 { cst := 1 }, by decide +kernel⟩
  · exact ⟨0, mailbox 2 (0) 1, by decide +kernel⟩
  · exact ⟨0, mailbox 2 (0) 0, by decide +kernel⟩
  · exact ⟨0, mailbox 5 (0) 1, by decide +kernel⟩
  · exact ⟨0, mailbox 5 (0) 0, by decide +kernel⟩
  · exact ⟨0, 3, base.setFunc 0 { mbst := 1, running := some (5, 3) }, by decide +kernel⟩
  · exact ⟨0, 3, base.setFunc 0 { mbst := 1, running := some (2, 3) }, by decide +kernel⟩
  · exact ⟨0, mailbox 3 (0) 1, by decide +kernel⟩
  · exact ⟨0, mailbox 4 (0) 1, by decide +kernel⟩
  · exact ⟨mailbox 6 (2 ^ 64 + 3 * 2 ^ 128 + 2 * 2 ^ 192) 1, by decide +kernel⟩
  · exact ⟨0, mailbox 6 (2 ^ 64 + 3 * 2 ^ 128 + 2 * 2 ^ 192) 1 |>.setCtx 4 { func := 3 }, 4, by decide +kernel⟩
  · exact ⟨mailbox 7 (2 * 2 ^ 128) 1, 0x30000, by decide +kernel, by decide +kernel, by decide +kernel⟩
  · exact ⟨{ (mailbox 7 (2 ^ 64) 1 : State) with mem := { parity := false, mappedOut := [0] } }, (0, 1), by decide +kernel⟩
  · exact ⟨mailbox 8 (0) 1, by decide +kernel⟩
  · exact ⟨(State.reset.setFunc 0 { mbcmd := 9 }), _, by decide +kernel, by decide +kernel, some_getD (d := {}) (by decide +kernel), by decide +kernel⟩

/-- The port's link, and the timer of its loss, in `base`. -/
def linkState (up down : Bool) (hold : Option Nat) (now : Nat := 0) : State :=
  { (base : State) with hub := { (base : State).hub with linkUp := up, powerDown := down, holdAt := hold }, now }

theorem witness_ResetsAndLink :
  (∃ f, ∃ s : State, s.sag.power = true ∧ (s.func f).flr = none) ∧
  (∃ f d, ∃ s : State, (s.func f).flr = none ∧ d ∈ s.resetDoms f ∧ (s.ctx d).cst ≠ 0) ∧
  (∃ f, ∃ p, ∃ s : State, s.sag.power = true ∧ (s.func f).flr = some p ∧ (s.resetDoms f).all s.drained = true) ∧
  (∃ f d, ∃ s : State, d ∈ s.resetDoms f) ∧
  (∃ s : State, s.hub.linkUp = true ∧ s.hub.powerDown = false ∧ (s.func 0).flr = none) ∧
  (∃ s : State, s.hub.linkUp = true ∧ s.hub.powerDown = true) ∧
  (∃ t₀, ∃ s : State, s.hub.holdAt = some t₀ ∧ t₀ + s.holdCycles ≤ s.now) ∧
  (∃ s : State, s.hub.linkUp = false ∧ s.started = true ∧ s.hub.holdAt = none) ∧
  (∃ t₀, ∃ s : State, s.hub.linkUp = false ∧ s.started = true ∧ s.hub.holdAt = some t₀ ∧ t₀ + s.holdCycles ≤ s.now) ∧
  (∃ t₀, ∃ s : State, s.hub.linkUp = false ∧ s.started = true ∧ s.hub.holdAt = some t₀ ∧ s.now < t₀ + s.holdCycles) ∧
  (∃ s : State, s.started = true ∧ s.hub.holdAt = none) ∧
  (∃ t₀, ∃ s : State, s.started = true ∧ s.hub.holdAt = some t₀) ∧
  (∃ s : State, s.sag.power = true ∧ s.sag.romOnly = false) ∧
  (∃ s : State, s.sag.romOnly = true) := by
  refine ⟨?_, ?_, ?_, ?_, ?_, ?_, ?_, ?_, ?_, ?_, ?_, ?_, ?_, ?_⟩
  · exact ⟨0, base, by decide +kernel⟩
  · exact ⟨1, 5, base.setCtx 5 { cst := 1, func := 1 }, by decide +kernel⟩
  · exact ⟨0, 1, State.reset.setFunc 0 { flr := some 1 }, by decide +kernel⟩
  · exact ⟨1, 5, base.setCtx 5 { func := 1 }, by decide +kernel⟩
  · exact ⟨base, by decide +kernel⟩
  · exact ⟨linkState true true none, by decide +kernel⟩
  · exact ⟨5, linkState true false (some 5) (2 ^ 40), by decide +kernel⟩
  · exact ⟨linkState false false none, by decide +kernel⟩
  · exact ⟨5, linkState false false (some 5) (2 ^ 40), by decide +kernel⟩
  · exact ⟨5, linkState false false (some 5) 5, by decide +kernel⟩
  · exact ⟨base, by decide +kernel⟩
  · exact ⟨5, linkState false false (some 5) 5, by decide +kernel⟩
  · exact ⟨base, by decide +kernel⟩
  · exact ⟨{ (base : State) with sag := { (base : State).sag with romOnly := true } }, by decide +kernel⟩

theorem witness_StartsAndPower :
  (∃ s : State, s.sag.power = false ∨ s.sag.starts = 0) ∧
  (∃ s : State, s.sag.power = true ∧ s.sag.mgmtOnly = false) ∧
  (∃ step unit, ∃ s : State, s.sag.hung = some (65536 * step + unit)) ∧
  (∃ s : State, s.sag.second = true ∧ s.sag.boot0.valid = true) ∧
  (∃ s : State, s.sag.power = true) := by
  refine ⟨?_, ?_, ?_, ?_, ?_⟩
  · exact ⟨State.reset, by decide +kernel⟩
  · exact ⟨base, by decide +kernel⟩
  · exact ⟨3, 0, { base with sag := { base.sag with hung := some 0x30000 } }, by decide +kernel⟩
  · exact ⟨{ base with sag := { base.sag with boot1 := { seq := 1 } } }, by decide +kernel⟩
  · exact ⟨base, by decide +kernel⟩

/-- A module with an identity signs. -/
theorem signed (s : State) (dom nonce : Nat) (side : Bool) (hl : s.lifecycle ≠ 0) (d : Nat) (hd : s.sag.identity = some d) :
    ∃ bs t, s.signedReport dom nonce side = (some bs, t) := by
  simp only [State.signedReport, if_neg hl, hd]
  exact ⟨_, _, rfl⟩

theorem signReport_power (d : Nat) (m : List Byte) (n : Nat) (s : State) : (s.signReport d m n).2.sag = s.sag := by
  induction n generalizing s with
  | zero => rfl
  | succ n ih =>
    simp only [State.signReport]
    split
    · rfl
    · exact ih _

theorem signedReport_sag (s : State) (dom nonce : Nat) (side : Bool) : (s.signedReport dom nonce side).2.sag = s.sag := by
  simp only [State.signedReport]
  split
  · rfl
  · exact signReport_power ..

theorem witness_SidebandAndLifecycle :
  let serves (s : State) : Prop := s.sag.power = true ∧ s.sag.romOnly = false
  (∃ s : State, 
      (serves s)) ∧
  (∃ n, ∃ s : State, 
      (n < 8) ∧
      (serves s)) ∧
  (∃ _c : Nat, ∃ img, ∃ man, ∃ p, ∃ s : State, 
      (s.sag.power = true) ∧
      (2 ≤ p) ∧
      ((s.vendorKeyOk && s.vendorSigned man 64 && decide (Sm.sm3 img = (man.drop 16).take 32)) = false)) ∧
  (∃ img, ∃ man, ∃ p, ∃ s : State, 
      (s.sag.power = true) ∧
      (2 ≤ p) ∧
      (s.vendorKeyOk = true) ∧
      (s.vendorSigned man 64 = true) ∧
      (Sm.sm3 img = (man.drop 16).take 32)) ∧
  (∃ r, ∃ k : Nat, ∃ e : BitVec 128, ∃ s : State, 
      (serves s) ∧
      ((s.ring r).events[k]? = some e)) ∧
  (∃ n : Nat, ∃ k, ∃ s : State, 
      (serves s) ∧
      (bootUnits[n]? = some k)) ∧
  (∃ _v : BitVec 32, ∃ s : State, 
      (serves s) ∧
      (s.sag.start0 = none) ∧
      (s.sag.start1 = none)) ∧
  (∃ n : Nat, ∃ s : State, 
      (8 ≤ n) ∧
      (serves s)) ∧
  (∃ s : State, 
      (s.sag.power = true) ∧
      (s.sag.romOnly = true)) ∧
  (∃ _v : BitVec 32, ∃ x, ∃ s : State, 
      (s.sag.start0 = some x)) ∧
  (∃ l, ∃ m : Nat, ∃ s : State, 
      (serves s) ∧
      ((s.fabLink l).peer = some m)) ∧
  (∃ n : BitVec 128, ∃ bs, ∃ t : State, ∃ s : State, 
      (serves t) ∧
      (s.signedReport 0 n.toNat true = (some bs, t))) ∧
  (∃ s : State, 
      (serves s)) ∧
  (∃ s : State, 
      (serves s) ∧
      (s.lifecycle = 0)) ∧
  (∃ s : State, s.sag.romOnly = true) ∧
  (∃ s : State, 
      (s.sag.power = true) ∧
      (s.sag.romOnly = false) ∧
      (s.lifecycle = 1)) ∧
  (∃ tok, ∃ s : State, 
      (s.sag.power = true) ∧
      (s.sag.romOnly = false) ∧
      ((s.lifecycle = 1 ∨ s.lifecycle = 2)) ∧
      (tok.length = 96) ∧
      (firstFailing (s.tokenChecks tok) = none)) := by
  refine ⟨?_, ?_, ?_, ?_, ?_, ?_, ?_, ?_, ?_, ?_, ?_, ?_, ?_, ?_, ?_, ?_, ?_⟩
  · exact ⟨base, by decide +kernel⟩
  · exact ⟨7, base, by decide +kernel⟩
  · exact ⟨0, [], [], 2, base, by decide +kernel⟩
  · exact ⟨[1], manifest0, 2, vendorState 1, by decide +kernel, by decide, manifest0_passes⟩
  · exact ⟨0, 0, 7, base.setRing 0 { events := [7] }, by decide +kernel⟩
  · exact ⟨2, 0x30000, base, by decide +kernel, by decide +kernel⟩
  · exact ⟨5, { (base : State) with sag := { (base : State).sag with start0 := none, start1 := none } }, by decide +kernel⟩
  · exact ⟨8, base, by decide +kernel⟩
  · exact ⟨{ (base : State) with sag := { (base : State).sag with romOnly := true } }, by decide +kernel⟩
  · exact ⟨5, 6, { (base : State) with sag := { (base : State).sag with start0 := some 6 } }, by decide +kernel⟩
  · exact ⟨3, 2, base.setFabLink 3 { peer := some 2 }, by decide +kernel⟩
  · obtain ⟨bs, t, h⟩ := signed ({ vendorState 1 with sag := { (vendorState 1).sag with identity := some 5 } }) 0 (7 : BitVec 128).toNat true (by decide +kernel) 5 rfl
    exact ⟨7, bs, t, _, by rw [show t = _ from (congrArg Prod.snd h).symm]; exact (show _ ∧ _ by rw [signedReport_sag]; decide +kernel), h⟩
  · exact ⟨base, by decide +kernel⟩
  · exact ⟨vendorState 0, by decide +kernel⟩
  · exact ⟨{ (base : State) with sag := { (base : State).sag with romOnly := true } }, by decide +kernel⟩
  · exact ⟨vendorState 1, by decide +kernel⟩
  · refine ⟨token0, vendorState 1, by decide +kernel, by decide +kernel, by decide +kernel, by decide +kernel, by decide +kernel⟩

/-- The Saggar holds this request, and memory these bytes at 0x30000. -/
def asked (n v : Nat) (r : SagReq) : State :=
  let s := withBytes (vendorState 1) 0x30000 n v
  { s with hub := { s.hub with sag := [r] }, sag := { s.sag with identity := some 5 } }

def verifyReq : SagReq := .verify 0 0 0x30000 0 0 0
def askedV : State := asked 192 5578615862802564691290199306314413202724550950283385969814679418927480679992078079396217307593069792449914630194179150656948699155945214490160453832530170940649576209390934085555428599716020236229324200670218959420689797032777100101697076540517389519919184330979731436382504630696024587132545228401055651058540894177519933213774217677316839296052200932309205393279149778993614883389440 verifyReq
def askedV0 : State := { askedV with hub := { askedV.hub with sag := [] } }
def readV1 := askedV0.memRead 0 0 0x30000 64
def readV2 := readV1.2.memRead 0 0 0x30000 (natOfBytes (((left readV1 []).drop 8).take 4))

theorem askedV_object : ((left readV2 []).drop 64).take 96 = token0 := by decide +kernel

/-- The checks of a token look at the vendor's key, the fuses, the nonce and the contexts only. -/
theorem tokenChecks_same (s t : State) (obj : List Byte) (hx : s.sag.vendorX = t.sag.vendorX) (hy : s.sag.vendorY = t.sag.vendorY)
    (hf : s.sag.fuses = t.sag.fuses) (hn : s.sag.snonce = t.sag.snonce) (hc : s.hub.ctxs = t.hub.ctxs) :
    firstFailing (s.tokenChecks obj ++ [(5, !s.tenantActive), (6, !(bitAt 1 (s.fuse 1)))]) =
      firstFailing (t.tokenChecks obj ++ [(5, !t.tenantActive), (6, !(bitAt 1 (t.fuse 1)))]) := by
  unfold State.tokenChecks State.vendorKeyOk State.vendorSigned State.devid State.fuse State.tenantActive State.ctx
  rw [hx, hy, hf, hn, hc]

theorem askedV_checks : firstFailing (readV2.2.tokenChecks token0 ++ [(5, !readV2.2.tenantActive), (6, !(bitAt 1 (readV2.2.fuse 1)))]) = none :=
  (tokenChecks_same readV2.2 (vendorState 1) token0 (by decide +kernel) (by decide +kernel) (by decide +kernel) (by decide +kernel)
    (by decide +kernel)).trans token0_passes

def attestReq : SagReq := .attest 0 0 0x30000 0 0
def askedA : State := asked 704 (704 * 2 ^ 64) attestReq
def askedA0 : State := { askedA with hub := { askedA.hub with sag := [] } }
def readA1 := askedA0.memRead 0 0 0x30000 64
def readA2 := readA1.2.memRead 0 0 0x30000 (natOfBytes (((left readA1 []).drop 8).take 4))

theorem witness_SaggarServes :
  let next (s : State) (want : SagReq → Bool) (r : SagReq) (rs : List SagReq) : Prop :=
    s.sag.power = true ∧ takeRequest want SagReq.die [] s.hub.sag = some (r, rs)
  (∃ d, ∃ dom, ∃ n, ∃ v : Word, ∃ rs, ∃ s : State, 
      (next s (fun r => match r with | .mext _ _ _ _ => true | _ => false) (.mext d dom n v) rs)) ∧
  (∃ d, ∃ dom, ∃ addr, ∃ pe, ∃ sl, ∃ rs, ∃ h, ∃ bs, ∃ body, ∃ s₁ : State, ∃ s₂ : State, ∃ s₃ : State, ∃ s : State, 
      (next s (fun r => match r with | .attest _ _ _ _ _ => true | _ => false) (.attest d dom addr pe sl) rs) ∧
      (({ s with hub := { s.hub with sag := rs } } : State).memRead dom dom addr 64 = (.inl h, s₁)) ∧
      let len := natOfBytes ((h.drop 8).take 4)
      (704 ≤ len) ∧
      (len ≤ 4096) ∧
      (s₁.memRead dom dom addr len = (.inl bs, s₂)) ∧
      (s₂.signedReport dom (natOfBytes ((bs.drop 16).take 16)) false = (some body, s₃))) ∧
  (∃ d, ∃ dom, ∃ addr, ∃ pe, ∃ sl, ∃ rs, ∃ h, ∃ bs, ∃ s₁ : State, ∃ s₂ : State, ∃ s : State, 
      (next s (fun r => match r with | .verify _ _ _ _ _ _ => true | _ => false) (.verify d dom addr 0 pe sl) rs) ∧
      (({ s with hub := { s.hub with sag := rs } } : State).memRead dom dom addr 64 = (.inl h, s₁)) ∧
      let len := natOfBytes ((h.drop 8).take 4)
      (192 ≤ len) ∧
      (len ≤ 4096) ∧
      (s₁.memRead dom dom addr len = (.inl bs, s₂)) ∧
      let obj := (bs.drop 64).take 96
      (firstFailing (s₂.tokenChecks obj ++ [(5, !s₂.tenantActive), (6, !(bitAt 1 (s₂.fuse 1)))]) = none)) := by
  refine ⟨?_, ?_, ?_⟩
  · exact ⟨0, 0, 3, 5, [], { base with hub := { base.hub with sag := [.mext 0 0 3 5] } }, by decide +kernel⟩
  · obtain ⟨body, t, h⟩ := signed readA2.2 0 (natOfBytes (((left readA2 []).drop 16).take 16)) false (by decide +kernel) 5 (by decide +kernel)
    exact ⟨0, 0, 0x30000, 0, 0, [], left readA1 [], left readA2 [], body, readA1.2, readA2.2, t, askedA, by decide +kernel, left_eq [] (by decide +kernel), by decide +kernel, by decide +kernel, left_eq [] (by decide +kernel), h⟩
  · exact ⟨0, 0, 0x30000, 0, 0, [], left readV1 [], left readV2 [], readV1.2, readV2.2, askedV, by decide +kernel, left_eq [] (by decide +kernel), by decide +kernel, by decide +kernel, left_eq [] (by decide +kernel), by rw [askedV_object]; exact askedV_checks⟩

theorem zeros_small {a b : Nat} (x : BitVec b) (lo : Nat) (h : b ≤ lo) : (0#a ++ x).toNat >>> lo = 0 := by
  rw [BitVec.toNat_append, BitVec.toNat_ofNat, Nat.zero_mod, Nat.zero_shiftLeft, Nat.zero_or, Nat.shiftRight_eq_div_pow]
  exact Nat.div_eq_of_lt (Nat.lt_of_lt_of_le x.isLt (Nat.pow_le_pow_right (by decide) h))

theorem zeros_above {a b : Nat} (x : BitVec b) : (0#a ++ x).extractLsb' b a = 0#a :=
  BitVec.eq_of_toNat_eq (by rw [BitVec.extractLsb'_toNat, zeros_small x b (Nat.le_refl b), Nat.zero_mod, BitVec.toNat_ofNat, Nat.zero_mod])

theorem zeros_below {a b : Nat} (x : BitVec b) : (0#a ++ x).extractLsb' 0 b = x :=
  BitVec.eq_of_toNat_eq (by
    rw [BitVec.extractLsb'_toNat, BitVec.toNat_append, BitVec.toNat_ofNat, Nat.zero_mod, Nat.zero_shiftLeft, Nat.zero_or, Nat.shiftRight_zero,
      Nat.mod_eq_of_lt x.isLt])

theorem zeros_bits {a b : Nat} (x : BitVec b) (lo n : Nat) (h : b ≤ lo) : bitsOf lo n (0#a ++ x) = 0 := by
  have e := zeros_small (a := a) x lo h
  rw [bitsOf, fieldNat, e, Nat.zero_mod]

/-- A frame whose CRC is right, of one null flit with `LSEQ` 0. -/
def frame0 : BitVec 576 := 0#544 ++ Config.lcrc 0#544

theorem frame0_crc : Config.lcrc (frame0.extractLsb' 32 544) = frame0.extractLsb' 0 32 :=
  ((congrArg Config.lcrc (zeros_above (a := 544) (Config.lcrc 0#544)))).trans (zeros_below (Config.lcrc 0#544)).symm

theorem frame0_bits (lo n : Nat) (h : 32 ≤ lo) : bitsOf lo n frame0 = 0 := zeros_bits _ lo n h

theorem witness_BexwenLinks :
  (∃ l, ∃ f : BitVec 576, ∃ s : State, 
      ((s.fabLink l).st = .up) ∧
      (Config.lcrc (f.extractLsb' 32 544) = f.extractLsb' 0 32) ∧
      (bitsOf 52 12 f = ((s.fabLink l).lack + 1) % 4096)) ∧
  (∃ l, ∃ f : BitVec 576, ∃ s : State, 
      ((Config.lcrc (f.extractLsb' 32 544) ≠ f.extractLsb' 0 32 ∨ bitsOf 52 12 f ≠ ((s.fabLink l).lack + 1) % 4096))) ∧
  (∃ l : FabLink, ∃ doms, ∃ w : OutFlit, (∀ x ∈ l.waiting, x.vc ≠ w.vc) ∧ l.replay.length < 256 ∧
      ∀ d, w.dom = some d → fits (doms ++ l.doms).eraseDups d = true) ∧
  (∃ l : FabLink, ∃ w : OutFlit, 256 ≤ l.replay.length ∧ w.vc = 2) ∧
  (∃ l : FabLink, ∃ w : OutFlit, ∃ x ∈ l.waiting, x.vc = w.vc) ∧
  (∃ l : FabLink, ∃ doms, ∃ w : OutFlit, ∃ d, w.dom = some d ∧ fits (doms ++ l.doms).eraseDups d = false) ∧
  (∃ l, ∃ s : State, 
      ((s.fabLink l).st = .up)) ∧
  (∃ l, ∃ s : State, 
      ((s.fabLink l).st = .up) ∧
      ((s.fabLink l).fails < 15)) ∧
  (∃ l, ∃ s : State, 
      ((s.fabLink l).st = .up) ∧
      (15 ≤ (s.fabLink l).fails)) ∧
  (∃ l, ∃ s : State, 
      ((s.fabLink l).st = .up)) ∧
  (∃ l, ∃ fid, ∃ mid, ∃ _ep : BitVec 32, ∃ _rx : Bool, ∃ s : State, 
      ((s.fabLink l).st = .down) ∧
      ((fid ≠ s.fab.fabricId ∨ mid = s.fab.moduleId))) ∧
  (∃ l, ∃ mid, ∃ _ep : BitVec 32, ∃ _rx : Bool, ∃ s : State, 
      ((s.fabLink l).st = .down) ∧
      (mid ≠ s.fab.moduleId)) ∧
  (∃ k m, ∃ s : State, k < 12 ∧ (s.fabLink k).peer = some m) ∧
  (∃ m : Nat, ∃ s : State, 
      (s.reachable m = true) ∧
      (s.fab.ratoms = []) ∧
      (s.fab.exch = [])) := by
  refine ⟨?_, ?_, ?_, ?_, ?_, ?_, ?_, ?_, ?_, ?_, ?_, ?_, ?_, ?_⟩
  · exact ⟨3, frame0, base.setFabLink 3 { st := .up, lack := 4095 }, by decide +kernel, frame0_crc, by rw [frame0_bits _ _ (by decide)]; decide +kernel⟩
  · exact ⟨3, 0, base.setFabLink 3 { st := .up, lack := 5 }, .inr (by decide +kernel)⟩
  · exact ⟨{ replay := List.replicate 255 { bits := 0 }, waiting := [{ vc := 1, bits := 0 }] }, [1, 2, 3, 4, 5, 6, 7], { vc := 2, bits := 0, dom := some 8 }, by decide +kernel,
      by decide +kernel, fun d h => by cases h; decide +kernel⟩
  · exact ⟨{ replay := List.replicate 256 { bits := 0 } }, { vc := 2, bits := 0 }, by decide +kernel⟩
  · exact ⟨{ waiting := [{ vc := 2, bits := 5 }] }, { vc := 2, bits := 0 }, { vc := 2, bits := 5 }, by decide +kernel⟩
  · exact ⟨{ replay := [{ bits := 0, dom := some 8 }] }, [1, 2, 3, 4, 5, 6, 7], { vc := 2, bits := 0, dom := some 9 }, 9, by decide +kernel⟩
  · exact ⟨3, base.setFabLink 3 { st := .up }, by decide +kernel⟩
  · exact ⟨3, base.setFabLink 3 { st := .up, fails := 14 }, by decide +kernel⟩
  · exact ⟨3, base.setFabLink 3 { st := .up, fails := 15 }, by decide +kernel⟩
  · exact ⟨3, base.setFabLink 3 { st := .up }, by decide +kernel⟩
  · exact ⟨3, 5, 1, 0, false, base.setFabLink 3 { st := .down }, by decide +kernel⟩
  · exact ⟨3, 2, 0, false, base.setFabLink 3 { st := .down }, by decide +kernel⟩
  · exact ⟨11, 2, base.setFabLink 11 { peer := some 2 }, by decide +kernel⟩
  · exact ⟨2, (base.setMapEntry 2 { rv := true, pri := 3 }).setFabLink 3 { st := .up }, by decide +kernel⟩

theorem witness_FabricBodies :
  (∃ m : Nat, ∃ dom, ∃ _n : Nat, ∃ k, ∃ s : State, 
      (s.reached dom m = some k)) ∧
  (∃ m : Nat, ∃ dom, ∃ _n : Nat, ∃ s : State, 
      (s.reached dom m = none)) ∧
  (∃ m : Nat, ∃ dom, ∃ b, ∃ g, ∃ s : State, 
      ((m, dom, b, g) ∉ s.fab.farr)) ∧
  (∃ m : Nat, ∃ dom, ∃ b, ∃ s : State, 
      ((m, dom, b) ∉ s.fab.fexit)) ∧
  (∃ _m : Nat, ∃ dom, ∃ b, ∃ k, ∃ s : State, 
      (k < 64) ∧
      ((s.barrier (300000 + k)).fab = some b) ∧
      ((s.barrier (300000 + k)).dom = dom)) := by
  refine ⟨?_, ?_, ?_, ?_, ?_⟩
  · exact ⟨2, 1, 5, 3, base.setReached 1 2 (some 3), by decide +kernel⟩
  · exact ⟨2, 1, 5, base, by decide +kernel⟩
  · exact ⟨2, 1, 0, 1, base, by decide +kernel⟩
  · exact ⟨2, 1, 0, base, by decide +kernel⟩
  · exact ⟨2, 1, 4, 63, base.setBarrier 300063 { fab := some 4, dom := 1 }, by decide +kernel⟩

/-- The memory of `hbm`, once an open value has been taken. -/
def hbmF : State := (hbm.openVal 0x486).2

def rdR := hbmF.memRead 0 0 0x10040 64
def htenR := HTensor.ofBits (BitVec.ofNat 512 (natOfBytes (left rdR [])))
def hbmR := rdR.2.keepXlat (remoteAsker 0) 1 none (BitVec.ofNat 512 (natOfBytes (left rdR [])))
theorem hbm_descriptorR : hbmF.descriptor (remoteAsker 0) 1 = (.inl htenR, hbmR) :=
  State.descriptor_of_memory (by decide +kernel) (State.cachedXlat_none (by decide +kernel)) (left_eq _ (by decide +kernel)) (by decide +kernel)

def rdT := hbmR.memRead (remoteAsker 0).dom (remoteAsker 0).dom (htenR.ttaddr + 8 * 0) 8
def hbmT := rdT.2.keepXlat (remoteAsker 0) 1 (some 0) ((BitVec.ofNat 64 (natOfBytes (left rdT []))).setWidth 512)
theorem hbm_translatesR : hbmR.translate (remoteAsker 0) 1 htenR { write := true } 65532 4 [] (4 / 65536 + 2) =
    (.inl (piece htenR 65532 4 (natOfBytes (left rdT []))), hbmT) :=
  State.translate_one (by decide) (by decide +kernel) (by decide +kernel)
    (State.pageEntry_of_memory (u := rdT.2) (bs := left rdT []) (State.cachedXlat_none (by decide +kernel)) (left_eq _ (by decide +kernel))
      (by decide +kernel) (by decide +kernel))

theorem base_unresolved : ∃ r t, (base.openVal 0x486).2.remoteResolve (remoteAsker 1) 3 (0 % 2 ^ 64) (0 / 2 ^ 64) [(5 : Byte)].length = (.inr r, t) := ⟨_, _, if_pos (by decide +kernel)⟩

theorem hten_origin : htenR.shape.offset 0 = some 0 := by decide +kernel

theorem hbm_resolves : hbmF.remoteResolve (remoteAsker 0) 1 0 65532 4 = (.inl (piece htenR 65532 4 (natOfBytes (left rdT []))), hbmT) := by
  have h1 : ¬(hbmF.ctx (remoteAsker 0).dom).cst ≠ 1 := by decide +kernel
  have h2 : ¬htenR.shape.span < 0 + 65532 + 4 := by decide +kernel
  simp only [State.remoteResolve, if_neg h1, hbm_descriptorR, hten_origin, if_neg h2, Nat.zero_add, hbm_translatesR]

/-- The whole frame of the first page. -/
theorem hbm_translatesF : hbmR.translate (remoteAsker 0) 1 htenR { write := true } 0 65536 [] (65536 / 65536 + 2) =
    (.inl (piece htenR 0 65536 (natOfBytes (left rdT []))), hbmT) :=
  State.translate_one (by decide) (by decide +kernel) (by decide +kernel)
    (State.pageEntry_of_memory (u := rdT.2) (bs := left rdT []) (State.cachedXlat_none (by decide +kernel)) (left_eq _ (by decide +kernel))
      (by decide +kernel) (by decide +kernel))

theorem hbm_frame : hbmF.remoteResolve (remoteAsker 0) 1 0 0 65536 = (.inl (piece htenR 0 65536 (natOfBytes (left rdT []))), hbmT) := by
  have h1 : ¬(hbmF.ctx (remoteAsker 0).dom).cst ≠ 1 := by decide +kernel
  have h2 : ¬htenR.shape.span < 0 + 0 + 65536 := by decide +kernel
  simp only [State.remoteResolve, if_neg h1, hbm_descriptorR, hten_origin, if_neg h2, Nat.zero_add, hbm_translatesF]

theorem hbm_resolves_packed : hbmF.remoteResolve (remoteAsker 0) 1 (65532 * 2 ^ 64 % 2 ^ 64) (65532 * 2 ^ 64 / 2 ^ 64) [(1 : Byte), 2, 3, 4].length =
    (.inl (piece htenR 65532 4 (natOfBytes (left rdT []))), hbmT) := by
  rw [show 65532 * 2 ^ 64 % 2 ^ 64 = 0 by decide +kernel, show 65532 * 2 ^ 64 / 2 ^ 64 = 65532 by decide +kernel]
  exact hbm_resolves

theorem hbm_frame_whole : wholePieces (piece htenR 0 65536 (natOfBytes (left rdT []))) = true := by decide +kernel
theorem hbm_part_frame : wholePieces (piece htenR 65532 4 (natOfBytes (left rdT []))) = false := by decide +kernel

/-- An atomic on the tensor's first element. -/
def atomR : Cmd := { op := .ratom, dom := 0, ca := 0, tids := 1, fmt := 6, aop := 0, data := BitVec.ofNat 256 5 }
def atomP : List Piece := piece htenR 0 4 (natOfBytes (left rdT []))

theorem hbm_translatesA : hbmR.translate (remoteAsker 0) 1 htenR { read := true, write := true } 0 4 [] 2 = (.inl atomP, hbmT) :=
  State.translate_one (by decide) (by decide +kernel) (by decide +kernel)
    (State.pageEntry_of_memory (u := rdT.2) (bs := left rdT []) (State.cachedXlat_none (by decide +kernel)) (left_eq _ (by decide +kernel))
      (by decide +kernel) (by decide +kernel))

theorem hbm_atom : hbmF.xlatAtom (remoteAsker 0) atomR = (.ok { atomR with translated := true, src := atomP }, hbmT) := by
  have h1 : ¬htenR.shape.fmt ≠ 6 := by decide +kernel
  have h2 : elemBytes 6 = 4 := by decide +kernel
  simp only [State.xlatAtom, atomR, hbm_descriptorR, if_neg h1, hten_origin, h2, hbm_translatesA]
  rfl

/-- An atomic out for module 2, of the command at the head of core 0's queue. -/
def ratom2 : RAtom := { core := 0, order := 3, dom := 0, modl := 2, seq := 7, slink := 3, link := 3, epoch := 0, flit := 0, sentAt := 0 }
def ratomCmd : Cmd := { op := .ratom, disp := 5, translated := true, modl := 2, order := 3 }
def atomsOut (s : State) : State := { s with fab := { s.fab with ratoms := [ratom2] }, now := 2 ^ 20 }

theorem witness_RemoteAccesses :
  let sp (w : Fields) : OpSpec := { specComet 0xDE with
    fmts := some (atomFmts w), mods := fun w => w.mod.toNat < 8, d := { Pos.dst with chanOut := false }, a := .srcWide, b := .srcWide  }
  let free (x : Issue) : Prop := x.s.restartable (x.s.askerOf x.core) = false
  let takes (x : Issue) : Prop := (x.s.cmdq x.core).length < 16 ∧ x.s.isParked (cometOfCore x.core) (commandPort x.core) = false
  Meets sp (fun x => ¬free x) ∧
  Meets sp (fun x => free x ∧ x.task.wait = .none ∧ takes x) ∧
  Meets sp (fun x => free x ∧ x.task.wait = .none ∧ ¬takes x) ∧
  Meets sp (fun x => free x ∧ x.task.wait = .memDone x.task.wait.value none) ∧
  (∃ c : Cmd, ∃ s : State, (s.task c.pe c.slot).wait = .memSent) ∧
  (∃ core, ∃ k, ∃ c, ∃ s : State, (s.cmdq core)[k]? = some c ∧ c.translated = true ∧ c.sent = false ∧
      (∀ d ∈ (s.cmdq core).take k, d.overlaps c = false) ∧ s.waitsOther core c = false ∧ c.op = .ratom ∧ s.isRemote c = true ∧
      s.reachable c.modl = false) ∧
  (∃ r : RAtom, ∃ st, ∃ k, ∃ c, ∃ s : State,
      (s.cmdq r.core).findIdx? (fun c => decide (c.op = .ratom) && c.sent && decide (c.order = r.order)) = some k ∧
      (s.cmdq r.core)[k]? = some c ∧ st ≠ 2) ∧
  (let finds (s : State) (dom tid at_ n : Nat) : (List Piece ⊕ Word) × State :=
     (s.openVal 0x486).2.remoteResolve (remoteAsker dom) tid (at_ % 2 ^ 64) (at_ / 2 ^ 64) n
   (∃ smod dom tid at_, ∃ bs : List Byte, ∃ r, ∃ t s : State, smod ≠ s.fab.moduleId ∧ finds s dom tid at_ bs.length = (.inr r, t)) ∧
   (∃ smod dom tid at_, ∃ bs : List Byte, ∃ form : ExchForm, ∃ ps, ∃ t s : State,
      smod ≠ s.fab.moduleId ∧ form.pattern = false ∧ wholePieces ps = false ∧ finds s dom tid at_ bs.length = (.inl ps, t)) ∧
   (∃ smod dom tid at_, ∃ bs : List Byte, ∃ form : ExchForm, ∃ ps : List Piece, ∃ t s : State,
      smod ≠ s.fab.moduleId ∧ form.pattern = false ∧ wholePieces ps = true ∧ finds s dom tid at_ bs.length = (.inl ps, t))) ∧
  (∃ dom, ∃ s : State, (s.ctx dom).cst ≠ 1) ∧
  (∃ dom fmt aop tid coords operand c bs, ∃ s t u : State, (s.ctx dom).cst = 1 ∧
    s.xlatAtom (remoteAsker dom) { op := .ratom, dom, ca := coords, tids := tid, fmt, aop, data := BitVec.ofNat 256 operand } = (.ok c, t) ∧
    t.hbmRead (remoteAsker dom) c.src = (.inl bs, u)) ∧
  (let asks (f : BitVec 512) (s : State) : Prop :=
     (Header.ofBits f).type = 4 ∧ (Header.ofBits f).dmod = s.fab.moduleId ∧ (Header.ofBits f).smod ≠ s.fab.moduleId ∧
     bitsOf 416 32 f = s.sag.bootno.toNat
   let seq (f : BitVec 512) : Nat := bitsOf 496 16 f
   let table (f : BitVec 512) (s : State) : Dedup := s.dedup (12 * (Header.ofBits f).smod + bitsOf 492 4 f)
   let ahead (f : BitVec 512) (s : State) : Nat := (seq f + 2 ^ 16 - (table f s).high) % 2 ^ 16
   (∃ f rst old, ∃ s t : State, asks f s ∧ (∀ e ∈ (table f s).ids, e.1 ≠ seq f) ∧ (1 ≤ ahead f s ∧ ahead f s ≤ 32767) ∧ (table f s).ids ≠ [] ∧
     s.performAtom (Header.ofBits f).dom (bitsOf 487 5 f) (bitsOf 483 4 f) (bitsOf 471 12 f) (bitsOf 128 64 f) (bitsOf 64 64 f) = ((rst, old), t)) ∧
   (∃ f, ∃ s : State, asks f s ∧ (∀ e ∈ (table f s).ids, e.1 ≠ seq f) ∧ (table f s).ids ≠ [] ∧ (ahead f s = 0 ∨ 32767 < ahead f s))) ∧
  (∃ f : BitVec 512, ∃ s : State, (Header.ofBits f).type = 4 ∧ (Header.ofBits f).dmod = s.fab.moduleId ∧
      (Header.ofBits f).smod ≠ s.fab.moduleId ∧ bitsOf 416 32 f ≠ s.sag.bootno.toNat) ∧
  (∃ f : BitVec 512, ∃ e, ∃ s : State, (Header.ofBits f).type = 4 ∧ (Header.ofBits f).dmod = s.fab.moduleId ∧
      (Header.ofBits f).smod ≠ s.fab.moduleId ∧ bitsOf 416 32 f = s.sag.bootno.toNat ∧
      (s.dedup (12 * (Header.ofBits f).smod + bitsOf 492 4 f)).ids.find? (fun e => decide (e.1 = bitsOf 496 16 f)) = some e) ∧
  (∃ f : BitVec 512, ∃ r, ∃ s : State, (Header.ofBits f).type = 5 ∧ (Header.ofBits f).dmod = s.fab.moduleId ∧
      (s.fab.ratoms.find? fun r => decide (r.modl = (Header.ofBits f).smod) && decide (r.seq = bitsOf 496 16 f) &&
        decide (r.slink = bitsOf 492 4 f)) = some r) ∧
  (∃ k : Nat, ∃ r : RAtom, ∃ s : State, s.fab.ratoms[k]? = some r ∧ r.sentAt + 2 ^ 17 ≤ s.now ∧
      (s.currentLink r.modl = none ∨ 3 ≤ r.resends)) ∧
  (∃ k : Nat, ∃ r : RAtom, ∃ l, ∃ s : State, s.fab.ratoms[k]? = some r ∧ r.sentAt + 2 ^ 17 ≤ s.now ∧ s.currentLink r.modl = some l ∧
      r.resends < 3) := by
  refine ⟨?_, ?_, ?_, ?_, ?_, ?_, ?_, ⟨?_, ?_, ?_⟩, ?_, ?_, ⟨?_, ?_⟩, ?_, ?_, ?_, ?_, ?_⟩
  · exact ⟨ops 0x01 0x01 0x01 0x90 0 2, 0, (base 2).setDieOf 0 { sched := { disps := [{ dom := 0, disp := 5, st := .running, granules := [0], entry := { rst := true } }] } }, by decide +kernel, by decide +kernel⟩
  · exact ⟨ops 0x01 0x01 0x01 0x90 0x2000 2, 0, (base 2).setCmdq 0 (List.replicate 15 {}), by decide +kernel, by decide +kernel⟩
  · exact ⟨ops 0x01 0x01 0x01 0x90 0x2000 2, 0, (base 2).setCmdq 0 (List.replicate 16 {}), by decide +kernel, by decide +kernel⟩
  · exact ⟨ops 0x01 0x01 0x01 0x90 0 2, 0, baseTask fun t => { t with lanecfg := 2, wait := .memDone 5 none }, by decide +kernel, by decide +kernel⟩
  · exact ⟨{ pe := 0, slot := 0 }, baseTask fun t => { t with wait := .memSent }, by decide +kernel⟩
  · exact ⟨0, 0, ratomCmd, base.setCmdq 0 [ratomCmd], by decide +kernel⟩
  · exact ⟨ratom2, 3, 0, { ratomCmd with sent := true }, base.setCmdq 0 [{ ratomCmd with sent := true }], by decide +kernel⟩
  · obtain ⟨r, t, h⟩ := base_unresolved
    exact ⟨1, 1, 3, 0, [5], r, t, base, by decide +kernel, h⟩
  · exact ⟨1, 0, 1, 65532 * 2 ^ 64, [1, 2, 3, 4], {}, _, _, hbm, by decide +kernel, rfl, hbm_part_frame, hbm_resolves_packed⟩
  · exact ⟨1, 0, 1, 0, List.replicate 65536 7, {}, _, _, hbm, by decide +kernel, rfl, hbm_frame_whole,
      by rw [List.length_replicate]; exact hbm_frame⟩
  · exact ⟨1, base, by decide +kernel⟩
  · exact ⟨0, 6, 0, 1, 0, 5, _, _, hbmF, hbmT, _, by decide +kernel, hbm_atom, left_eq [] (by decide +kernel)⟩
  · exact ⟨BitVec.ofNat 512 (4 * 2 ^ 22 + 2 * 2 ^ 42 + 3 * 2 ^ 492 + 7 * 2 ^ 496), _, _, base.setDedup 27 { ids := [(6, 0, 5)], high := 6 }, _, by decide +kernel,
      by decide +kernel, by decide +kernel, by decide +kernel, rfl⟩
  · exact ⟨BitVec.ofNat 512 (4 * 2 ^ 22 + 2 * 2 ^ 42 + 3 * 2 ^ 492 + 7 * 2 ^ 496), base.setDedup 27 { ids := [(8, 0, 5)], high := 8 }, by decide +kernel⟩
  · exact ⟨BitVec.ofNat 512 (4 * 2 ^ 22 + 2 * 2 ^ 42 + 3 * 2 ^ 492 + 7 * 2 ^ 496 + 5 * 2 ^ 416), base, by decide +kernel⟩
  · exact ⟨BitVec.ofNat 512 (4 * 2 ^ 22 + 2 * 2 ^ 42 + 3 * 2 ^ 492 + 7 * 2 ^ 496 + 0), (7, 1, 5), base.setDedup 27 { ids := [(7, 1, 5)] }, by decide +kernel⟩
  · exact ⟨BitVec.ofNat 512 (5 * 2 ^ 22 + 2 * 2 ^ 42 + 3 * 2 ^ 492 + 7 * 2 ^ 496 + 0), ratom2, atomsOut base, by decide +kernel⟩
  · exact ⟨0, ratom2, atomsOut base, by decide +kernel⟩
  · exact ⟨0, ratom2, 3, atomsOut ((base.setMapEntry 2 { rv := true, pri := 3 }).setFabLink 3 { st := .up }), by decide +kernel⟩

/-- Some state and operands pass the checks of this instruction, with the guard off. -/
def RunsOff (sp : OpSpec) : Prop := ∃ w slot s, Ready sp w slot s ∧ (s.at sp w slot).guard.getLsbD 0 = false

/-- Fields that an opcode allows, under a guard that is off. -/
def pickOff (sp : OpSpec) (x : BitVec 48 := 0) (mod : BitVec 4 := 0) : Fields := { pick sp x mod with pg := true }

theorem runsOff (sp : OpSpec) (x : BitVec 48 := 0) (mod : BitVec 4 := 0)
    (h : Ready sp (pickOff sp x mod) 0 (base (lanesFor (pickOff sp x mod))) ∧
      ((base (lanesFor (pickOff sp x mod))).at sp (pickOff sp x mod) 0).guard.getLsbD 0 = false) : RunsOff sp := ⟨_, _, _, h⟩

/-- PE 0 fires a task of domain 1. -/
def base1 : State := base.setInfo 0 { dom := some 1, disp := 5, regs := 2, enabled := true }

theorem witness_OffUnit :
  RunsOff { op := 0x04, d := .dst, perLane := false, xok := fun s _ imm => (s.entry s.cur (imm % 256)).literal } ∧
  RunsOff { op := 0x2E, d := .lcOnly, a := .src, perLane := false } ∧
  RunsOff { op := 0x2F, d := .dst, a := .lcOnly, perLane := false } ∧
  RunsOff { spec3 0x34 intFmts with perLane := false } ∧
  RunsOff { op := 0xAA, d := .dst, perLane := false, xok := fun _ _ imm => decide (fieldNat 0 3 imm < 6) } ∧
  RunsOff { portSpec 0xAB with a := { portIn := true, portOut := true }, b := .src, xok := fun _ w _ => bitsOf 32 8 w.x = 0 } ∧
  RunsOff { portSpec 0xAC with fmts := some (List.range 15), d := { portOut := true }, a := .src, xok := fun _ w _ => bitsOf 40 8 w.x = 0 } ∧
  RunsOff { portSpec 0xAD with d := { portOut := true }, a := .immOnly, xok := fun _ w _ => bitsOf 40 8 w.x = 0 } ∧
  RunsOff { portSpec 0xAE with d := .predOnly, a := { portIn := true }, xok := fun _ w _ => bitsOf 32 8 w.x = 0 } ∧
  RunsOff { portSpec 0xAF with d := { chanOut := true }, c := .predOnly } ∧
  RunsOff { op := 0xEC, perLane := false } ∧
  RunsOff { op := 0xF6, perLane := false, noDone := true } := by
  refine ⟨?_, ?_, ?_, ?_, ?_, ?_, ?_, ?_, ?_, ?_, ?_, ?_⟩
  · exact runsOff _ 7 0 (by decide +kernel)
  all_goals exact runsOff _ 0 0 (by decide +kernel)

theorem witness_OffNodes :
  RunsOff { specMem 0xA0 with d := .dst } ∧
  RunsOff { specMem 0xA1 with b := .srcNoImm } ∧
  RunsOff { specMem 0xA2 with d := .dst } ∧
  RunsOff { specMem 0xA3 with b := .srcNoImm } ∧
  RunsOff { specMem 0xA4 with fmts := some (atomFmts {}), mods := fun w => w.mod.toNat < 8, b := .srcNoImm } ∧
  RunsOff { specMem 0xA5 with fmts := some (atomFmts {}), mods := fun w => w.mod.toNat < 8, d := .dst, b := .srcNoImm } ∧
  RunsOff { specMem 0xA6 with fmts := some (word64Fmts ++ [10, 11]), d := .dst, b := .srcNoImm, c := .srcNoImm } ∧
  RunsOff { specMem 0xA7 (some .ordered) with fmts := some [2, 6, 10], d := .predOnly } ∧
  RunsOff { specMem 0xA8 with a := .srcNoChan, b := .srcNoChan, c := .srcNoChan } ∧
  RunsOff { specMem 0xA9 with b := .srcNoImm, c := .srcNoImm } := by
  refine ⟨?_, ?_, ?_, ?_, ?_, ?_, ?_, ?_, ?_, ?_⟩
  all_goals exact runsOff _ 0 0 (by decide +kernel)

theorem witness_OffCluster :
  RunsOff { specStream 0xB0 with d := .streamOnly, a := .src, b := .src } ∧
  RunsOff { specStream 0xB1 with a := .streamOnly, b := .src } ∧
  RunsOff { specStream 0xB2 with d := .predOnly, a := .streamOnly } ∧
  RunsOff { specStream 0xB3 with a := .streamOnly } ∧
  RunsOff { specStream 0xB4 with mods := fun w => w.mod &&& 0b1110 = 0, d := .fibreOnly, a := { Pos.src with chanIn := false, chanOut := false } } ∧
  RunsOff { specStream 0xB5 with a := .fibreOnly, b := .src } ∧
  RunsOff { specStream 0xB6 with d := .predOnly, a := .fibreOnly } ∧
  RunsOff { specStream 0xB7 with a := .fibreOnly } ∧
  RunsOff { specStream 0xB8 with d := .dst, a := .fibreOnly, b := .fibreOnly, c := .predOnly } ∧
  RunsOff { specStream 0xB9 with d := .dst, a := .fibreOnly, b := .fibreOnly } ∧
  RunsOff { specStream 0xBA with mods := fun w => w.mod &&& 0b1110 = 0, d := .dst, a := { stream := true, fibre := true } } ∧
  RunsOff { specKiln 0xC0 with d := .dst, a := .src } ∧
  RunsOff { specKiln 0xC1 with a := .src, b := .src } ∧
  RunsOff { specKiln 0xC2 with a := .srcNoImm, b := .srcNoImm, xok := fun _ _ imm => decide (fieldNat 13 2 imm < 3) } ∧
  RunsOff { specKiln 0xC3 with a := { reg := true, chanIn := true, chanOut := true } } ∧
  RunsOff (specCtr 0xC4) ∧
  RunsOff { specKiln 0xC5 with d := .dst, xok := fun _ _ imm => decide (imm % 64 ≤ 32), prot := fun s imm => decide (imm % 64 < 32) && foreignCtr s (imm % 32) } ∧
  RunsOff { specKiln 0xC8 with a := .src } ∧
  RunsOff { specCtr 0xC9 with mods := fun w => w.mod &&& 0b1110 = 0 } ∧
  RunsOff { specCtr 0xC9 with mods := fun w => w.mod &&& 0b1110 = 0 } ∧
  RunsOff { specComet 0xD8 with a := .srcWide, b := .srcWide, c := .srcWide, xok := fun _ _ imm => decide (fieldNat 18 2 imm < 2) && decide (fieldNat 16 2 imm < 2) && fieldNat 10 6 imm = 0 } ∧
  RunsOff (specGather 0xD9) ∧
  RunsOff (specGather 0xDA) ∧
  RunsOff { specComet 0xDB with mods := fun w => w.mod &&& 0b1110 = 0, d := .dst, a := .src } ∧
  RunsOff { specComet 0xDC with mods := fun w => w.mod &&& 0b1110 = 0, a := .src, b := .src } ∧
  RunsOff specXchg ∧
  RunsOff specXchg ∧
  RunsOff { specComet 0xDE with fmts := some (atomFmts {}), mods := fun w => w.mod.toNat < 8, d := { Pos.dst with chanOut := false }, a := .srcWide, b := .srcWide } ∧
  RunsOff { specComet 0xDF with d := .dst, a := .src } ∧
  RunsOff specResume ∧
  RunsOff specResume ∧
  RunsOff { specComet 0xE1 with a := .src, b := .src } := by
  refine ⟨?_, ?_, ?_, ?_, ?_, ?_, ?_, ?_, ?_, ?_, ?_, ?_, ?_, ?_, ?_, ?_, ?_, ?_, ?_, ?_, ?_, ?_, ?_, ?_, ?_, ?_, ?_, ?_, ?_, ?_, ?_, ?_⟩
  all_goals exact runsOff _ 0 0 (by decide +kernel)

theorem witness_OffSystem :
  RunsOff { specBar 0xE8 with a := .src } ∧
  RunsOff { specBar 0xE9 with d := .predOnly, mods := fun w => w.mod &&& 0b1110 = 0 } ∧
  RunsOff { specBar 0xE9 with d := .predOnly, mods := fun w => w.mod &&& 0b1110 = 0 } ∧
  RunsOff (specBar 0xEA) ∧
  RunsOff { op := 0xEB, perLane := false, d := .predOnly, a := .src } ∧
  RunsOff { op := 0xED, perLane := false, d := .dst, a := .csrOnly } ∧
  RunsOff { op := 0xEE, perLane := false, d := .csrDst, a := .src } ∧
  RunsOff { op := 0xEF, perLane := false, a := .src } ∧
  RunsOff { op := 0xF0, perLane := false, a := .src, prot := fun _ imm => decide (imm % 16 < 8) } ∧
  RunsOff { op := 0xF1, perLane := false, d := .predOnly, a := .src } ∧
  RunsOff specSagvfy ∧
  RunsOff specSagvfy ∧
  RunsOff { op := 0xF3, perLane := false, super := true, a := .src, mods := fun w => w.mod &&& 0b1110 = 0 } ∧
  RunsOff { op := 0xF3, perLane := false, super := true, a := .src, mods := fun w => w.mod &&& 0b1110 = 0 } ∧
  RunsOff { op := 0xF4, perLane := false, super := true, d := .predOnly } ∧
  RunsOff { op := 0xF5, perLane := false, super := true, d := .dst, xok := fun _ _ imm => decide (imm % 64 < 48) } ∧
  RunsOff { op := 0xF7, perLane := false, super := true, a := .src, b := .src } := by
  refine ⟨?_, ?_, ?_, ?_, ?_, ?_, ?_, ?_, ?_, ?_, ?_, ?_, ?_, ?_, ?_, ?_, ?_⟩
  rotate_left 8
  · exact runsOff _ 8 0 (by decide +kernel)
  all_goals exact runsOff _ 0 0 (by decide +kernel)

theorem witness_EncodeDecode :
  (∃ i, ∃ tag, ∃ word, 
      (i.wf = true) ∧
      (encode i = some (tag, word))) := by
  exact ⟨.add (ops 3 4 5 0x90), false, _, by decide +kernel, rfl⟩

theorem witness_StepRunsDecoded :
  (∃ pe, ∃ slot, ∃ i, ∃ as, ∃ s : State, 
      (s.agenda = .issue pe :: as) ∧
      (pe < 32768) ∧
      (s.firingSlot pe = some slot) ∧
      ((s.entry pe (s.task pe slot).pc.toNat).ue = false) ∧
      (i.wf = true) ∧
      (encode i = some ((s.entry pe (s.task pe slot).pc.toNat).literal, (s.entry pe (s.task pe slot).pc.toNat).word))) ∧
  (∃ pe, ∃ slot, ∃ as, ∃ s : State, 
      (s.agenda = .issue pe :: as) ∧
      (pe < 32768) ∧
      (s.firingSlot pe = some slot) ∧
      ((s.entry pe (s.task pe slot).pc.toNat).ue = true)) ∧
  (∃ pe, ∃ as, ∃ s : State, 
      (s.agenda = .issue pe :: as) ∧
      (pe < 32768) ∧
      (s.firingSlot pe = none)) ∧
  (∃ i, ∃ as, ∃ s : State, 
      (s.agenda = .event i :: as) ∧
      (i.wf = true) ∧
      (encode i = none)) ∧
  (∃ s : State, 
      (s.agenda = [])) := by
  refine ⟨?_, ?_, ?_, ?_, ?_⟩
  · exact ⟨0, 0, .nop (ops 0 0 0 0), [], { (base.setEntry 0 0 ({})) with agenda := [.issue 0] }, by decide +kernel⟩
  · exact ⟨0, 0, [], { (base.setEntry 0 0 ({ ue := true })) with agenda := [.issue 0] }, by decide +kernel⟩
  · exact ⟨1, [], { base with agenda := [.issue 1] }, by decide +kernel⟩
  · exact ⟨.coldStart, [], { base with agenda := [.event .coldStart] }, by decide +kernel⟩
  · exact ⟨base, by decide +kernel⟩

theorem witness_EveryInstructionAnswers :
  (∃ s : State, s.agenda ≠ [] ∧ ∀ a as, s.agenda = a :: as → a.wf = true) := by
  exact ⟨{ base with agenda := [.issue 0] }, by decide, fun a as h => by cases h; decide⟩

theorem witness_StepKeepsMemoryCanonical :
  (∃ s t : State, s.memWf ∧ step s = .next t) := by
  exact ⟨{ State.reset with agenda := [.issue 0] }, _, ⟨by decide +kernel, by decide +kernel⟩, rfl⟩

theorem witness_SequenceNext :
  (∃ w : Fields, ∃ slot, ∃ s : State, Ready { op := 0 } w slot s) ∧
  (∃ w : Fields, w.nxt = 0) ∧
  (∃ w : Fields, w.nxt = 1) ∧
  (∃ w : Fields, w.nxt = 2) ∧
  (∃ w : Fields, w.nxt = 3) ∧
  (∃ w : Fields, w.nxt = 5) ∧
  (∃ w : Fields, w.nxt = 7) ∧
  (∃ w : Fields, w.nxt = 4 ∧ loopOk w = true) ∧
  (∃ w : Fields, w.nxt = 4 ∧ loopOk w = false) ∧
  (∃ w : Fields, ∃ pe slot, ∃ m : State, ∃ e, w.nxt = 6 ∧ (m.task pe slot).ret = some e) ∧
  (∃ w : Fields, ∃ pe slot, ∃ m : State, w.nxt = 6 ∧ (m.task pe slot).ret = none) := by
  refine ⟨?_, ?_, ?_, ?_, ?_, ?_, ?_, ?_, ?_, ?_, ?_⟩
  · exact ⟨ops 0 0 0 0, 0, base, by decide +kernel⟩
  · exact ⟨{ nxt := 0 }, rfl⟩
  · exact ⟨{ nxt := 1 }, rfl⟩
  · exact ⟨{ nxt := 2 }, rfl⟩
  · exact ⟨{ nxt := 3 }, rfl⟩
  · exact ⟨{ nxt := 5 }, rfl⟩
  · exact ⟨{ nxt := 7 }, rfl⟩
  · exact ⟨{ nxt := 4 }, by decide⟩
  · exact ⟨{ nxt := 4, pq := 3 }, by decide⟩
  · exact ⟨{ nxt := 6 }, 0, 0, baseTask fun t => { t with ret := some 9 }, 9, by decide +kernel⟩
  · exact ⟨{ nxt := 6 }, 0, 0, base, by decide +kernel⟩

theorem witness_FiringEnds :
  (∃ pe slot p, ∃ m : State, p < 12 ∧ ((m.task pe slot).port p).declared = true) ∧
  (∃ pe slot, ∃ m : State, (m.task pe slot).shortPorts = 0 ∧ ((m.task pe slot).prec = none ∨ (m.task pe slot).ps = true)) ∧
  (∃ pe slot r, ∃ m : State, (m.task pe slot).shortPorts = 0 ∧ (m.task pe slot).prec = some r ∧ (m.task pe slot).ps = false) := by
  refine ⟨?_, ?_, ?_⟩
  · exact ⟨0, 0, 6, base, by decide +kernel⟩
  · exact ⟨0, 0, baseTask fun t => { t with ports := {} }, by decide +kernel⟩
  · exact ⟨0, 0, 7, baseTask fun t => { t with ports := {}, prec := some 7 }, by decide +kernel⟩

theorem witness_FailedChecks :
  (∃ spec w slot, ∃ s : State, ∃ c d, s.firingSlot s.cur = some slot ∧ (s.at spec w slot).check = some (c, d)) ∧
  (∃ spec w slot, ∃ s : State, (s.at spec w slot).barred = true) ∧
  (∃ spec w slot, ∃ s : State, ∃ f, (s.at spec w slot).barred = false ∧ (s.at spec w slot).badField = some f) ∧
  (∃ spec w slot, ∃ s : State, (s.at spec w slot).barred = false ∧ w.nxt = 4 ∧ loopOk w = false) ∧
  (∃ spec w slot, ∃ s : State, ∃ fs, (s.at spec w slot).barred = false ∧ (s.at spec w slot).nxtOk = true ∧ spec.fmts = some fs ∧ w.fmt.toNat ∉ fs) := by
  refine ⟨?_, ?_, ?_, ?_, ?_⟩
  · exact ⟨{ op := 1, d := Pos.dst }, ops 0x91 0x90 0x90 0x90, 0, base, Cause.illegalOperand, 1 + 256 * 4, by decide +kernel⟩
  · exact ⟨{ op := 0xF5, super := true }, ops 0x90 0x90 0x90 0x90, 0, base1, by decide +kernel⟩
  · exact ⟨{ op := 1, d := Pos.dst }, ops 0x91 0x90 0x90 0x90, 0, base, 4, by decide +kernel⟩
  · exact ⟨{ op := 0 }, { nxt := 4, pq := 3 }, 0, base, by decide +kernel⟩
  · exact ⟨{ op := 1, fmts := some [2] }, ops 1 1 0x90 0x90, 0, base, [2], by decide +kernel⟩

theorem witness_SupervisorOnly :
  (∃ slot, ∃ s : State, s.firingSlot s.cur = some slot ∧ s.domOf (coreOfPe s.cur) ≠ 0) ∧
  (∃ w : Fields, ∃ slot n, ∃ s : State, s.firingSlot s.cur = some slot ∧ s.domOf (coreOfPe s.cur) ≠ 0 ∧ opnd w.d = .csr n ∧ 0x12 ≤ n ∧ n ≤ 0x1A) ∧
  (∃ w : Fields, ∃ slot n, ∃ s : State, s.firingSlot s.cur = some slot ∧ s.domOf (coreOfPe s.cur) ≠ 0 ∧ opnd w.a = .csr n ∧ (n = 0x19 ∨ n = 0x1A)) ∧
  (∃ w : Fields, ∃ slot, ∃ s : State, s.firingSlot s.cur = some slot ∧ (s.at { op := 0xF0, perLane := false, a := .src, prot := fun _ imm => decide (imm % 16 < 8) } w slot).imm % 16 < 8) := by
  refine ⟨?_, ?_, ?_, ?_⟩
  · exact ⟨0, base1, by decide +kernel⟩
  · exact ⟨ops 0xB2 1 0x90 0x90, 0, 0x12, base1, by decide +kernel⟩
  · exact ⟨ops 1 0xBA 0x90 0x90, 0, 0x1A, base1, by decide +kernel⟩
  · exact ⟨ops 0x90 1 0x90 0x90 7, 0, base1, by decide +kernel⟩

theorem witness_RegisterParity :
  let reads (sp : OpSpec) (w : Fields) (slot n : Nat) (s : State) : Prop :=
    s.firingSlot s.cur = some slot ∧ (s.task s.cur slot).wait = .none ∧ (s.at sp w slot).check = none ∧ n ∈ (s.at sp w slot).regsRead ∧
      ∀ k ∈ (s.at sp w slot).regsRead, k ≠ n → s.badReg s.cur k = false ∧ s.damagedReg s.cur k = false
  let fails (sp : OpSpec) : Prop :=
    (∃ w : Fields, ∃ slot, ∃ n, ∃ m, ∃ v, ∃ s : State, reads sp w slot n s ∧ s.badReg s.cur n = true ∧ s.damagedReg s.cur n = false ∧
      (s.oplog s.cur).find? (fun e => e.1 = n) = some (m, v)) ∧
    (∃ w : Fields, ∃ slot, ∃ n, ∃ s : State, reads sp w slot n s ∧ s.badReg s.cur n = true ∧ s.damagedReg s.cur n = false ∧
      (s.oplog s.cur).find? (fun e => e.1 = n) = none) ∧
    ∃ w : Fields, ∃ slot, ∃ n, ∃ s : State, reads sp w slot n s ∧ s.damagedReg s.cur n = true
  let mov : OpSpec := spec1 0x01 (List.range 15)
  fails mov ∧ fails { spec3 0x11 intFmts with mods := modSat } ∧
  fails { op := 0x03, fmts := some [2, 3, 6, 7], d := .regOnly, a := .immOnly, readsD := true } ∧
  fails { specMem 0xA1 with b := .srcNoImm } ∧
  (∃ w : Fields, ∃ slot, ∃ n, ∃ s : State, Ready mov w slot s ∧ opnd w.d = .reg n ∧ ¬(s.at mov w slot).Masked (s.at mov w slot).lw) := by
  refine ⟨?_, ?_, ?_, ?_, ?_⟩
  · exact ⟨⟨ops 1 1 0x90 0x90, 0, 1, 1, 5, (base.setBadReg 0 1 true).setOplog 0 [(1, 5)], by decide +kernel⟩, ⟨ops 1 1 0x90 0x90, 0, 1, base.setBadReg 0 1 true, by decide +kernel⟩,
      ⟨ops 1 1 0x90 0x90, 0, 1, base.setDamagedReg 0 1 true, by decide +kernel⟩⟩
  · exact ⟨⟨ops 1 2 3 4, 0, 4, 4, 5, (base.setBadReg 0 4 true).setOplog 0 [(4, 5)], by decide +kernel⟩, ⟨ops 1 2 3 4, 0, 4, base.setBadReg 0 4 true, by decide +kernel⟩,
      ⟨ops 1 2 3 4, 0, 4, base.setDamagedReg 0 4 true, by decide +kernel⟩⟩
  · exact ⟨⟨ops 1 0x91 0x90 0x90 0 2, 0, 1, 1, 5, ((base 2).setBadReg 0 1 true).setOplog 0 [(1, 5)], by decide +kernel⟩, ⟨ops 1 0x91 0x90 0x90 0 2, 0, 1, (base 2).setBadReg 0 1 true, by decide +kernel⟩,
      ⟨ops 1 0x91 0x90 0x90 0 2, 0, 1, (base 2).setDamagedReg 0 1 true, by decide +kernel⟩⟩
  · exact ⟨⟨ops 0x90 1 2 0x90, 0, 2, 2, 5, (base.setBadReg 0 2 true).setOplog 0 [(2, 5)], by decide +kernel⟩, ⟨ops 0x90 1 2 0x90, 0, 2, base.setBadReg 0 2 true, by decide +kernel⟩,
      ⟨ops 0x90 1 2 0x90, 0, 2, base.setDamagedReg 0 2 true, by decide +kernel⟩⟩
  · exact ⟨ops 1 1 0x90 0x90, 0, 1, base, by decide +kernel, by decide +kernel, fun h => absurd (h 0 (by decide +kernel)) (by decide +kernel)⟩

theorem witness_PoisonRecords :
  (∃ pe slot pc c d code : Nat, 
      (pc < 256) ∧
      (c < 256) ∧
      (d < 2 ^ 48) ∧
      (pe < 32768) ∧
      (slot < 8) ∧
      (code < 2 ^ 16)) ∧
  (∃ pe slot, ∃ s : State, 
      ((s.task pe slot).prec = none)) ∧
  (∃ pe slot, ∃ p, ∃ s : State, 
      ((s.task pe slot).prec = some p)) ∧
  (∃ pe slot, ∃ r, ∃ s : State, 
      ((s.task pe slot).prec = some r)) := by
  refine ⟨?_, ?_, ?_, ?_⟩
  · exact ⟨32767, 7, 255, 255, 2 ^ 48 - 1, 65535, by decide +kernel⟩
  · exact ⟨0, 0, base, by decide +kernel⟩
  · exact ⟨0, 0, 7, baseTask fun t => { t with prec := some 7 }, by decide +kernel⟩
  · exact ⟨0, 0, 7, baseTask fun t => { t with prec := some 7 }, by decide +kernel⟩

end Sys2Proof.Tests
end

section
/-! PROOFS. The encoding of a store entry: its word, the opcode map, and the two together (spec/01 R10, R11, R26, R27, R31). -/
namespace Sys2Proof

/-! ## The word of a code entry (R11) -/

/-- A bit of a field is the bit of the word where the field stands. -/
theorem getLsbD_tiwField {lo n j k : Nat} (w : Tiw) (hj : j < n) (hk : lo + j = k) : (tiwField lo n w).getLsbD j = w.getLsbD k := by
  rw [tiwField, BitVec.getLsbD_extractLsb', decide_eq_true hj, Bool.true_and, hk]

theorem ofBool_getLsbD_eq_tiwField (w : Tiw) (k : Nat) : BitVec.ofBool (w.getLsbD k) = tiwField k 1 w := by
  ext j hj
  obtain rfl : j = 0 := by omega
  simp [tiwField]

/-- Writing the fields of a word back where R11 puts them gives the word. -/
theorem wordOf_opOf_fieldsOf (w : Tiw) : wordOf (opOf w) (fieldsOf w) = w := by
  apply BitVec.eq_of_getLsbD_eq
  intro k hk
  simp only [wordOf, opOf, fieldsOf, ofBool_getLsbD_eq_tiwField, BitVec.getLsbD_append]
  split_ifs <;> exact getLsbD_tiwField w (by omega) (by omega)

/-! ## The opcode map (R26, R27) -/

/-- The instruction that the opcode map gives a value of `OP` and the other fields. -/
def decodeOp (op : BitVec 8) (f : Fields) : Instr :=
  (if op.toNat < 0x40 then decodeInteger op.toNat f else if op.toNat < 0x80 then decodeVector op.toNat f
    else if op.toNat < 0xA0 then decodeConvert op.toNat f else if op.toNat < 0xC0 then decodeMemory op.toNat f
    else decodeControl op.toNat f).getD (.illegalOp op f)

theorem decodeCode_eq (w : Tiw) : decodeCode w = decodeOp (opOf w) (fieldsOf w) := rfl

/-- A well-formed instruction whose word holds this opcode and these fields. -/
def EncodedAs (op : Nat) (f : Fields) (i : Instr) : Prop :=
  opcodeOf i = some (BitVec.ofNat 8 op) ∧ operandsOf i = some f ∧ i.wf = true

/-- Two rows of one opcode, told apart by a bit of the word that well-formedness reads. -/
theorem encodedAs_ite {op : Nat} {f : Fields} {b : Bool} {i j : Instr} (hio : opcodeOf i = some (BitVec.ofNat 8 op))
    (hif : operandsOf i = some f) (hiw : i.wf = b) (hjo : opcodeOf j = some (BitVec.ofNat 8 op)) (hjf : operandsOf j = some f)
    (hjw : j.wf = !b) : EncodedAs op f (if b then i else j) := by
  cases b
  · exact ⟨hjo, hjf, hjw⟩
  · exact ⟨hio, hif, hiw⟩

theorem encodedAs_of_decodeInteger {op : Nat} {f : Fields} {i : Instr} : decodeInteger op f = some i → EncodedAs op f i := by
  unfold decodeInteger
  split <;> rintro ⟨⟩ <;> exact ⟨rfl, rfl, rfl⟩

theorem encodedAs_of_decodeVector {op : Nat} {f : Fields} {i : Instr} : decodeVector op f = some i → EncodedAs op f i := by
  unfold decodeVector
  split <;> rintro ⟨⟩ <;> exact ⟨rfl, rfl, rfl⟩

theorem encodedAs_of_decodeConvert {op : Nat} {f : Fields} {i : Instr} : decodeConvert op f = some i → EncodedAs op f i := by
  unfold decodeConvert
  split <;> rintro ⟨⟩ <;> exact ⟨rfl, rfl, rfl⟩

theorem encodedAs_of_decodeMemory {op : Nat} {f : Fields} {i : Instr} : decodeMemory op f = some i → EncodedAs op f i := by
  unfold decodeMemory
  split <;> rintro ⟨⟩ <;> exact ⟨rfl, rfl, rfl⟩

theorem encodedAs_of_decodeControl {op : Nat} {f : Fields} {i : Instr} : decodeControl op f = some i → EncodedAs op f i := by
  unfold decodeControl
  split <;> rintro ⟨⟩
  -- 0xC9, 0xDD, 0xE0, 0xE9, 0xF2 and 0xF3 stand for two rows each
  case h_10 | h_16 | h_19 | h_22 | h_31 | h_32 => exact encodedAs_ite rfl rfl rfl rfl rfl rfl
  all_goals exact ⟨rfl, rfl, rfl⟩

/-! The values that a part of the opcode map leaves out are those of R27. -/

theorem decodeInteger_isNone {op : Nat} (f : Fields) (h : op < 0x40) : (decodeInteger op f).isNone = unassigned op := by
  interval_cases op <;> rfl

theorem decodeVector_isNone {op : Nat} (f : Fields) (h : 0x40 ≤ op) (h' : op < 0x80) : (decodeVector op f).isNone = unassigned op := by
  interval_cases op <;> rfl

theorem decodeConvert_isNone {op : Nat} (f : Fields) (h : 0x80 ≤ op) (h' : op < 0xA0) : (decodeConvert op f).isNone = unassigned op := by
  interval_cases op <;> rfl

theorem decodeMemory_isNone {op : Nat} (f : Fields) (h : 0xA0 ≤ op) (h' : op < 0xC0) : (decodeMemory op f).isNone = unassigned op := by
  interval_cases op <;> rfl

theorem decodeControl_isNone {op : Nat} (f : Fields) (h : 0xC0 ≤ op) (h' : op < 0x100) : (decodeControl op f).isNone = unassigned op := by
  interval_cases op <;> rfl

theorem EncodedAs.opcodeOf_eq {op : BitVec 8} {f : Fields} {i : Instr} (h : EncodedAs op.toNat f i) : opcodeOf i = some op :=
  h.1.trans (by rw [BitVec.ofNat_toNat, BitVec.setWidth_eq])

theorem encodedAs_illegalOp {op : BitVec 8} (f : Fields) (h : unassigned op.toNat = true) : EncodedAs op.toNat f (.illegalOp op f) :=
  ⟨by rw [BitVec.ofNat_toNat, BitVec.setWidth_eq]; rfl, rfl, h⟩

/-- What a part of the opcode map that leaves out the values of R27 makes of `OP`. -/
theorem encodedAs_getD {op : BitVec 8} {f : Fields} {r : Option Instr} (hn : r.isNone = unassigned op.toNat)
    (he : ∀ i, r = some i → EncodedAs op.toNat f i) :
    EncodedAs op.toNat f (r.getD (.illegalOp op f)) ∧ (unassigned op.toNat = true → r.getD (.illegalOp op f) = .illegalOp op f) := by
  cases r with
  | none => exact ⟨encodedAs_illegalOp f hn.symm, fun _ => rfl⟩
  | some i => exact ⟨he i rfl, fun h => by rw [h] at hn; cases hn⟩

/-- Every value of `OP` with its fields decodes to a well-formed instruction that holds them, an unassigned one to `illegalOp`. -/
theorem decodeOp_spec (op : BitVec 8) (f : Fields) :
    EncodedAs op.toNat f (decodeOp op f) ∧ (unassigned op.toNat = true → decodeOp op f = .illegalOp op f) := by
  unfold decodeOp
  split_ifs with h1 h2 h3 h4
  · exact encodedAs_getD (decodeInteger_isNone f h1) fun _ => encodedAs_of_decodeInteger
  · exact encodedAs_getD (decodeVector_isNone f (by omega) h2) fun _ => encodedAs_of_decodeVector
  · exact encodedAs_getD (decodeConvert_isNone f (by omega) h3) fun _ => encodedAs_of_decodeConvert
  · exact encodedAs_getD (decodeMemory_isNone f (by omega) h4) fun _ => encodedAs_of_decodeMemory
  · exact encodedAs_getD (decodeControl_isNone f (by omega) op.isLt) fun _ => encodedAs_of_decodeControl

/-- The opcode map gives a well-formed instruction back from its opcode and its fields. -/
theorem decodeOp_of_operands {op : BitVec 8} {f : Fields} {i : Instr} (ho : opcodeOf i = some op) (hf : operandsOf i = some f)
    (hw : i.wf = true) : decodeOp op f = i := by
  cases i <;> cases ho <;> cases hf
  case illegalOp => exact (decodeOp_spec _ _).2 hw
  case tdepAdd | xchgRaw | resumeFail | barwT | sagvfyManifest | keywipeAll => exact if_pos hw
  case tdep | xchg | resume | barw | sagvfyUnlock | keywipe => exact if_neg (by simpa [Instr.wf] using hw)
  all_goals rfl

/-! ## Encoding and decoding a store entry -/

/-- An instruction with an opcode and fields encodes to the word of these. -/
theorem encode_of_operands {op : BitVec 8} {f : Fields} {i : Instr} (ho : opcodeOf i = some op) (hf : operandsOf i = some f) :
    encode i = some (false, wordOf op f) := by
  unfold encode
  split
  · cases ho
  · rw [ho, hf]; rfl

theorem decodeCode_encodedAs (w : Tiw) : EncodedAs (opOf w).toNat (fieldsOf w) (decodeCode w) := (decodeOp_spec ..).1

theorem decodeCode_ne_execLiteral (w d : Tiw) : decodeCode w ≠ .execLiteral d := by
  intro h
  have he := (decodeCode_encodedAs w).opcodeOf_eq
  rw [h] at he; cases he

/-- A code entry decodes to `illegalOp` just where its opcode is unassigned. -/
theorem decodeCode_eq_illegalOp_iff (w : Tiw) : (∃ op f, decodeCode w = .illegalOp op f) ↔ unassigned (opOf w).toNat = true := by
  constructor
  · rintro ⟨op, f, h⟩
    have he := decodeCode_encodedAs w
    rw [h] at he
    cases he.opcodeOf_eq
    obtain ⟨-, -, hw⟩ := he
    exact hw
  · exact fun h => ⟨_, _, (decodeOp_spec ..).2 h⟩

/-- Settles O24: the fields of R11 cover the word, and the opcode map keeps opcode and fields. -/
theorem decodeEncode : Obligations.DecodeEncode := by
  intro tag word
  cases tag with
  | true => rfl
  | false =>
    have h := decodeCode_encodedAs word
    have ⟨_, hf, _⟩ := h
    exact (encode_of_operands h.opcodeOf_eq hf).trans (by rw [wordOf_opOf_fieldsOf])

/-- An entry is tagged literal only for `execLiteral`. -/
theorem eq_execLiteral_of_encode {i : Instr} {word : Tiw} (h : encode i = some (true, word)) : i = .execLiteral word := by
  unfold encode at h
  split at h
  · cases h; rfl
  · simp [Option.bind_eq_some_iff] at h

/-- Settles O23: a literal entry and a code entry are told apart by the tag, and the opcode map takes opcode and fields back to the
instruction, constructor by constructor. -/
theorem encodeDecode : Obligations.EncodeDecode := by
  intro i tag word hw he
  cases tag with
  | true => rw [eq_execLiteral_of_encode he]; rfl
  | false =>
    obtain ⟨ho, hf⟩ := Laws.wellEncoded i (by rintro d rfl; cases he) word he
    exact decodeOp_of_operands ho hf hw

/-- Settles O25, by what the opcode map answers for the entry's opcode. -/
theorem decodedWellFormed : Obligations.DecodedWellFormed := by
  intro tag word
  cases tag with
  | true =>
    refine ⟨rfl, ⟨?_, ?_⟩, fun _ => rfl, fun _ => ⟨word, rfl⟩⟩
    · rintro ⟨_, _, ⟨⟩⟩
    · rintro ⟨⟨⟩, -⟩
  | false =>
    obtain ⟨-, -, hw⟩ := decodeCode_encodedAs word
    exact ⟨hw, (decodeCode_eq_illegalOp_iff word).trans (by simp), ⟨fun ⟨d, h⟩ => absurd h (decodeCode_ne_execLiteral word d), nofun⟩⟩

/-- Settles O26, by evaluation of the decoder on each word. -/
theorem decodedWords : Obligations.DecodedWords :=
  ⟨rfl, rfl, rfl, rfl, rfl, rfl, rfl, rfl, rfl, rfl⟩

end Sys2Proof
end

section
/-! PROOFS. The checks of R12 and the guard of R17 in the frame of a task instruction, and the reset values. -/
namespace Sys2Proof.Machine

/-! ## The frame of a task instruction (R12, R13, R17) -/

/-- With its guard off an instruction without lanes is performed with no effect of its own. -/
theorem skipsOff_of_runInstr {c : Fields → Instr} {spec : Fields → OpSpec} {body : Fields → Issue → Done}
    (hx : ∀ w s, exec (c w) s = runInstr (spec w) w (body w) s) (hl : ∀ w, (spec w).perLane = false := by exact fun _ => rfl) :
    SkipsOff c spec := by
  intro w slot s hr hg
  unfold Performs
  rw [hx, runInstr_ready hr, hl, hg]
  rfl

theorem skipsOff_of_runUnit {c : Fields → Instr} {spec : Fields → OpSpec} {eff : Fields → Issue → Eff}
    (hx : ∀ w s, exec (c w) s = runUnit (spec w) w (eff w) s) (hl : ∀ w, (spec w).perLane = false := by exact fun _ => rfl) :
    SkipsOff c spec :=
  skipsOff_of_runInstr (body := fun w i => .done (i.apply i.s (eff w i))) hx hl

/-- An instruction that fails a check is performed with one poison token as its effect. -/
theorem performs_emit_of_check {i : Instr} {spec : OpSpec} {w : Fields} {body : Issue → Done} {op slot c d : Nat} {s : State}
    (hx : exec i s = runInstr spec w body s) (ho : spec.op = op) (hf : s.firingSlot s.cur = some slot)
    (hc : (s.at spec w slot).check = some (c, d)) : Performs i op w slot s (s.emit s.cur slot c d) := by
  unfold Performs
  rw [hx, runInstr_fails hf hc, ← ho]
  rfl

/-- Step 3 of R12 comes first. -/
theorem Issue.check_of_barred {i : Issue} (h : i.barred = true) : i.check = some (Cause.protection, i.spec.op) := if_pos h

/-- An instruction that step 3 of R12 bars only emits PROTECTION. -/
theorem performs_protection_of_barred {i : Instr} {spec : OpSpec} {w : Fields} {body : Issue → Done} {op slot : Nat} {s : State}
    (hx : exec i s = runInstr spec w body s) (ho : spec.op = op) (hf : s.firingSlot s.cur = some slot)
    (hb : (s.at spec w slot).barred = true) : Performs i op w slot s (s.emit s.cur slot Cause.protection op) := by
  subst ho
  exact performs_emit_of_check hx rfl hf (Issue.check_of_barred hb)

/-- Step 4 of R12 comes after step 3. -/
theorem Issue.check_of_badField {i : Issue} {f : Nat} (hb : i.barred = false) (hf : i.badField = some f) :
    i.check = some (Cause.illegalOperand, i.spec.op + 256 * f) := by
  simp [Issue.check, hb, hf]

theorem Issue.badField_of_nxt {i : Issue} (h : i.nxtOk = false) : i.badField = some 1 := by
  simp [Issue.badField, h]

theorem Issue.badField_of_fmt {i : Issue} (hn : i.nxtOk = true) (h : i.fmtOk = false) : i.badField = some 2 := by
  simp [Issue.badField, hn, h]

/-! ## What step 3 of R12 bars (R26, R135, R148) -/

theorem Issue.barred_of_prot {i : Issue} (h : i.spec.prot i.s i.imm = true) : i.barred = true := by
  simp [Issue.barred, h]

theorem Issue.barred_of_super {i : Issue} (hd : i.dom ≠ 0) (h : i.spec.super = true) : i.barred = true := by
  simp [Issue.barred, hd, h]

theorem Issue.barred_of_lockedD {i : Issue} (hd : i.dom ≠ 0) (h : i.lockedD = true) : i.barred = true := by
  simp [Issue.barred, hd, h]

theorem Issue.barred_of_hidden_a {i : Issue} (hd : i.dom ≠ 0) (h : Issue.hidden i.spec.a i.w.a = true) : i.barred = true := by
  simp [Issue.barred, hd, h]

/-- A supervisor-only instruction outside domain 0 only emits PROTECTION. -/
theorem performs_protection_of_super {c : Fields → Instr} {spec : OpSpec} {body : Fields → Issue → Done} {op : Nat}
    (hx : ∀ w s, exec (c w) s = runInstr spec w (body w) s) (hs : spec.super = true) (ho : spec.op = op) (w : Fields) (slot : Nat)
    (s : State) (hf : s.firingSlot s.cur = some slot) (hd : s.domOf (coreOfPe s.cur) ≠ 0) :
    Performs (c w) op w slot s (s.emit s.cur slot Cause.protection op) :=
  performs_protection_of_barred (hx w s) ho hf (Issue.barred_of_super hd hs)

/-- Settles O34: each instruction fails step 3 of R12, for the reason that its clause names. -/
theorem supervisorOnly : Obligations.SupervisorOnly := by
  refine ⟨performs_protection_of_super exec_resume rfl rfl, performs_protection_of_super exec_resumeFail rfl rfl,
    performs_protection_of_super exec_keywipe rfl rfl, performs_protection_of_super exec_keywipeAll rfl rfl,
    performs_protection_of_super exec_dbgopen rfl rfl, performs_protection_of_super exec_fuserd rfl rfl,
    performs_protection_of_super exec_wdog rfl rfl, ?csrw, ?csrr, ?mext⟩
  case csrw =>
    intro w slot s n hf hd hn h1 h2
    refine performs_protection_of_barred (exec_csrw w s) rfl hf (Issue.barred_of_lockedD hd ?_)
    simp [Issue.lockedD, Pos.csrDst, hn, h1, h2]
  case csrr =>
    intro w slot s n hf hd hn h
    refine performs_protection_of_barred (exec_csrr w s) rfl hf (Issue.barred_of_hidden_a hd ?_)
    obtain rfl | rfl := h <;> simp [Issue.hidden, Pos.csrOnly, hn]
  case mext =>
    intro mext w slot s hf h
    exact performs_protection_of_barred (exec_mext w s) rfl hf (Issue.barred_of_prot (decide_eq_true h))

/-! ## The guard (R17) -/

theorem offUnit : Claims.OffUnit :=
  ⟨skipsOff_of_runUnit exec_ldl, skipsOff_of_runUnit exec_lcset, skipsOff_of_runUnit exec_lcget, skipsOff_of_runUnit exec_sad,
    skipsOff_of_runInstr exec_fence, skipsOff_of_runInstr exec_adv, skipsOff_of_runInstr exec_emit, skipsOff_of_runInstr exec_emitm,
    skipsOff_of_runInstr exec_testm, skipsOff_of_runInstr exec_nxtile, skipsOff_of_runUnit exec_trap, skipsOff_of_runInstr exec_yield⟩

theorem offNodes : Claims.OffNodes :=
  ⟨skipsOff_of_runInstr exec_ld, skipsOff_of_runInstr exec_st, skipsOff_of_runInstr exec_ldv, skipsOff_of_runInstr exec_stv,
    skipsOff_of_runInstr exec_atom, skipsOff_of_runInstr exec_atomr, skipsOff_of_runInstr exec_cas, skipsOff_of_runInstr exec_hins,
    skipsOff_of_runInstr exec_copy, skipsOff_of_runInstr exec_fill⟩

theorem offCluster : Claims.OffCluster :=
  ⟨skipsOff_of_runInstr exec_sopen, skipsOff_of_runInstr exec_sadv, skipsOff_of_runInstr exec_stend, skipsOff_of_runInstr exec_sclose,
    skipsOff_of_runInstr exec_fopen, skipsOff_of_runInstr exec_fadv, skipsOff_of_runInstr exec_ftend, skipsOff_of_runInstr exec_fclose,
    skipsOff_of_runInstr exec_fisect, skipsOff_of_runInstr exec_fisectc, skipsOff_of_runInstr exec_sread,
    skipsOff_of_runInstr exec_tclaim, skipsOff_of_runInstr exec_trel, skipsOff_of_runInstr exec_tfill, skipsOff_of_runInstr exec_ttask,
    skipsOff_of_runInstr exec_twait, skipsOff_of_runInstr exec_tstat, skipsOff_of_runInstr exec_ovfcfg, skipsOff_of_runInstr exec_tdep,
    skipsOff_of_runInstr exec_tdepAdd, skipsOff_of_runInstr exec_cpy, skipsOff_of_runInstr exec_gath, skipsOff_of_runInstr exec_scat,
    skipsOff_of_runInstr exec_fgrd, skipsOff_of_runInstr exec_fgwr, skipsOff_of_runInstr exec_xchg, skipsOff_of_runInstr exec_xchgRaw,
    skipsOff_of_runInstr exec_ratom, skipsOff_of_runInstr exec_cwait, skipsOff_of_runInstr exec_resume,
    skipsOff_of_runInstr exec_resumeFail, skipsOff_of_runInstr exec_pref⟩

theorem offSystem : Claims.OffSystem :=
  ⟨skipsOff_of_runInstr exec_bara, skipsOff_of_runInstr exec_barw, skipsOff_of_runInstr exec_barwT, skipsOff_of_runInstr exec_barex,
    skipsOff_of_runInstr exec_launch, skipsOff_of_runInstr exec_csrr, skipsOff_of_runInstr exec_csrw, skipsOff_of_runInstr exec_evlog,
    skipsOff_of_runInstr exec_mext, skipsOff_of_runInstr exec_attest, skipsOff_of_runInstr exec_sagvfyUnlock,
    skipsOff_of_runInstr exec_sagvfyManifest, skipsOff_of_runInstr exec_keywipe, skipsOff_of_runInstr exec_keywipeAll,
    skipsOff_of_runInstr exec_dbgopen, skipsOff_of_runInstr exec_fuserd, skipsOff_of_runInstr exec_wdog⟩

/-- Settles O35: each of these instructions runs in the frame of `runInstr`, which skips the body of one without lanes. -/
theorem guardOff : Obligations.GuardOff := ⟨offUnit, offNodes, offCluster, offSystem⟩

/-! ## Failed checks (R12, R13, R27, R111, R194) -/

theorem Task.taint_eq (t : Task) (r : Word) : t.taint r = { t with prec := (t.taint r).prec, ps := (t.taint r).ps } := by
  unfold Task.taint
  cases t.prec <;> rfl

theorem Task.taint_prec_ne_none (t : Task) (r : Word) : (t.taint r).prec ≠ none := by
  unfold Task.taint
  cases t.prec <;> exact Option.some_ne_none _

theorem failedChecks_claim : Claims.FailedChecks := by
  refine ⟨?_, fun spec w slot s => Issue.check_of_barred, fun spec w slot s f => Issue.check_of_badField, ?nxt, ?fmt, ?emit⟩
  · intro spec w slot body s c d hf hc
    exact runInstr_fails hf hc body
  case nxt =>
    intro spec w slot s hb hn hl
    exact Issue.check_of_badField hb (Issue.badField_of_nxt (by simp [Issue.nxtOk, hn, hl]))
  case fmt =>
    intro spec w slot s fs hb hn hs hf
    exact Issue.check_of_badField hb (Issue.badField_of_fmt hn (by simp [Issue.fmtOk, Issue.fmt, hs, hf]))
  case emit =>
    intro pe slot c d s
    refine ⟨rfl, fun k hk => Map.find_put_other _ hk .., ?_, ?_⟩ <;> simp only [State.emit, task_setTask_same]
    · exact Task.taint_eq ..
    · exact Task.taint_prec_ne_none _ _

theorem badEntries : Claims.BadEntries := by
  refine ⟨?illegal, ?literal, ?fault⟩
  case illegal =>
    intro op w s k hk
    rw [exec_illegalOp, execIllegalOp, hk]
  case literal =>
    intro word s k hk
    rw [exec_execLiteral, execExecLiteral, hk]
  case fault =>
    intro pe s k e he hu
    simp only [issue, he, hu, if_true]

/-- Settles O38, by what the frame of an instruction does at a failed check and by what a bad entry does. -/
theorem failedChecks : Obligations.FailedChecks := ⟨failedChecks_claim, badEntries⟩

/-! ## Reset (R11, R92, R95, R134, R136, R450, R451, R469, R481) -/

/-- Only the supervisor's context is listed at reset (R451). -/
theorem reset_ctx (dom : Nat) : State.reset.ctx dom = if dom = 0 then Ctx.supervisor else {} := by
  by_cases h : dom = 0
  · subst h; rfl
  · rw [if_neg h]; exact if_neg (Ne.symm h)

/-- Settles O31: every table is empty at reset but the contexts, so that a lookup answers the default of its field. -/
theorem resetValues : Obligations.ResetValues := by
  refine ⟨fun _ _ => ⟨rfl, rfl, rfl, rfl, rfl⟩, rfl, fun _ _ => ⟨rfl, rfl, rfl, rfl, rfl, fun _ => rfl, rfl, rfl, rfl, rfl, rfl, rfl⟩,
    fun _ _ => ⟨rfl, rfl, rfl, rfl, rfl, rfl, rfl⟩, fun _ => ⟨rfl, rfl⟩, rfl, rfl, fun dom => ?ctx, fun _ => rfl, rfl, rfl, rfl,
    fun _ => rfl, fun _ => rfl⟩
  rw [reset_ctx]
  split <;> exact ⟨rfl, rfl, rfl, rfl⟩

end Sys2Proof.Machine
end

section
/-! PROOFS. Sequencing (spec/01 R14 to R16), and the frames that a loader reads (spec/01 R45 to R48). -/
namespace Sys2Proof.Machine

/-! ## What `NXT` does (R14, R15, R105 to R107), a row of R14 each -/

section
variable (m : State) (pe slot : Nat) (op : BitVec 8) (w : Fields)

theorem sequence_next (h : w.nxt = 0) : m.sequence pe slot op w = (m.touch (coreOfPe pe)).goto pe slot ((m.task pe slot).pc + 1) := by
  unfold State.sequence; rw [h]; rfl

theorem sequence_jump (h : w.nxt = 1) : m.sequence pe slot op w = (m.touch (coreOfPe pe)).goto pe slot w.tgt := by
  unfold State.sequence; rw [h]; rfl

theorem sequence_ifSet (h : w.nxt = 2) : m.sequence pe slot op w =
    (m.touch (coreOfPe pe)).goto pe slot (if m.predOf pe w.pq.toNat ≠ 0 then w.tgt else (m.task pe slot).pc + 1) := by
  unfold State.sequence; rw [h]; rfl

theorem sequence_ifClear (h : w.nxt = 3) : m.sequence pe slot op w =
    (m.touch (coreOfPe pe)).goto pe slot (if m.predOf pe w.pq.toNat = 0 then w.tgt else (m.task pe slot).pc + 1) := by
  unfold State.sequence; rw [h]; rfl

theorem sequence_loop (h : w.nxt = 4) (hl : loopOk w = true) : m.sequence pe slot op w =
    ((m.touch (coreOfPe pe)).setTask pe slot
      ((m.task pe slot).setLc (w.pq.toNat % 4) ((m.task pe slot).lc (w.pq.toNat % 4) - 1))).goto pe slot
        (if (m.task pe slot).lc (w.pq.toNat % 4) - 1 ≠ 0 then w.tgt else (m.task pe slot).pc + 1) := by
  unfold State.sequence; rw [h]; exact if_pos hl

theorem sequence_badLoop (h : w.nxt = 4) (hl : loopOk w = false) :
    m.sequence pe slot op w = (m.touch (coreOfPe pe)).goto pe slot ((m.task pe slot).pc + 1) := by
  unfold State.sequence; rw [h]; exact if_neg (by simp [hl])

theorem sequence_call (h : w.nxt = 5) : m.sequence pe slot op w =
    ((m.touch (coreOfPe pe)).setTask pe slot { m.task pe slot with ret := some ((m.task pe slot).pc + 1) }).goto pe slot w.tgt := by
  unfold State.sequence; rw [h]; rfl

theorem sequence_return {e : BitVec 8} (h : w.nxt = 6) (hr : (m.task pe slot).ret = some e) : m.sequence pe slot op w =
    ((m.touch (coreOfPe pe)).setTask pe slot { m.task pe slot with ret := none }).goto pe slot e := by
  have hr' : ((m.touch (coreOfPe pe)).task pe slot).ret = some e := hr
  unfold State.sequence; rw [h]; dsimp only; simp only [hr']; rfl

theorem sequence_badReturn (h : w.nxt = 6) (hr : (m.task pe slot).ret = none) : m.sequence pe slot op w =
    ((m.touch (coreOfPe pe)).emit pe slot Cause.illegalOperand (op.toNat + 9 * 256)).endFiring pe slot Cause.rateMismatch := by
  have hr' : ((m.touch (coreOfPe pe)).task pe slot).ret = none := hr
  unfold State.sequence; rw [h]; dsimp only; simp only [hr']; rfl

theorem sequence_done (h : w.nxt = 7) :
    m.sequence pe slot op w = (m.touch (coreOfPe pe)).endFiring pe slot Cause.rateMismatch := by
  unfold State.sequence; rw [h]; rfl

end

/-- The task that continues at an entry. -/
@[simp] theorem task_goto (s : State) (pe slot : Nat) (e : BitVec 8) :
    (s.goto pe slot e).task pe slot = { s.task pe slot with pc := e, wait := .none } := task_setTask_same ..

/-- t is m but for one task and the note of activity. -/
def OnlyTask (pe slot : Nat) (m t : State) : Prop :=
  t = { m with act := t.act, unit := { m.unit with tasks := t.unit.tasks } } ∧
  ∀ k, k ≠ 8 * pe + slot → t.unit.tasks.find k {} = m.unit.tasks.find k {}

theorem onlyTask_touch (pe slot core : Nat) (m : State) : OnlyTask pe slot m (m.touch core) := ⟨rfl, fun _ _ => rfl⟩

theorem OnlyTask.setTask {pe slot : Nat} {m t : State} (h : OnlyTask pe slot m t) (v : Task) : OnlyTask pe slot m (t.setTask pe slot v) := by
  obtain ⟨ht, hk⟩ := h
  refine ⟨?_, fun k hne => (Map.find_put_other _ hne ..).trans (hk k hne)⟩
  rw [ht]; rfl

theorem OnlyTask.goto {pe slot : Nat} {m t : State} (h : OnlyTask pe slot m t) (e : BitVec 8) : OnlyTask pe slot m (t.goto pe slot e) :=
  h.setTask _

/-- Unless it ends the firing, `NXT` changes nothing but the task. -/
theorem onlyTask_sequence (m : State) (pe slot : Nat) (op : BitVec 8) (w : Fields) (h7 : w.nxt ≠ 7)
    (h6 : w.nxt ≠ 6 ∨ (m.task pe slot).ret ≠ none) : OnlyTask pe slot m (m.sequence pe slot op w) := by
  have rows : ∀ b : BitVec 3, b = 0 ∨ b = 1 ∨ b = 2 ∨ b = 3 ∨ b = 4 ∨ b = 5 ∨ b = 6 ∨ b = 7 := by decide
  have ht := onlyTask_touch pe slot (coreOfPe pe) m
  obtain h | h | h | h | h | h | h | h := rows w.nxt
  · rw [sequence_next m pe slot op w h]; exact ht.goto _
  · rw [sequence_jump m pe slot op w h]; exact ht.goto _
  · rw [sequence_ifSet m pe slot op w h]; exact ht.goto _
  · rw [sequence_ifClear m pe slot op w h]; exact ht.goto _
  · cases hl : loopOk w with
    | true => rw [sequence_loop m pe slot op w h hl]; exact (ht.setTask _).goto _
    | false => rw [sequence_badLoop m pe slot op w h hl]; exact ht.goto _
  · rw [sequence_call m pe slot op w h]; exact (ht.setTask _).goto _
  · obtain ⟨e, hr⟩ := Option.ne_none_iff_exists'.mp (h6.resolve_left (not_not_intro h))
    rw [sequence_return m pe slot op w h hr]; exact (ht.setTask _).goto _
  · exact absurd h h7

/-- `NOP` has no effect of its own. -/
theorem performs_nop {w : Fields} {slot : Nat} {s : State} (h : Ready { op := 0 } w slot s) : Performs (.nop w) 0 w slot s s := by
  unfold Performs
  rw [exec_nop, execNop, runUnit_ready h]
  rfl

/-- Settles O32, by the rows of R14. -/
theorem sequenceNext : Obligations.SequenceNext := by
  refine ⟨fun w slot s => performs_nop, fun pe slot op w m => ⟨fun h => ?_, fun h => ?_, fun h => ?_, fun h => ?_, fun h hl => ?_,
    fun h hl => ?_, fun h => ?_, fun e h hr => ?_, sequence_badReturn m pe slot op w, sequence_done m pe slot op w,
    onlyTask_sequence m pe slot op w⟩⟩
  · rw [sequence_next m pe slot op w h, task_goto]; rfl
  · rw [sequence_jump m pe slot op w h, task_goto]; rfl
  · rw [sequence_ifSet m pe slot op w h, task_goto]; rfl
  · rw [sequence_ifClear m pe slot op w h, task_goto]; rfl
  · rw [sequence_loop m pe slot op w h hl, task_goto, task_setTask_same]
  · rw [sequence_badLoop m pe slot op w h hl, task_goto]; rfl
  · rw [sequence_call m pe slot op w h, task_goto, task_setTask_same]
  · rw [sequence_return m pe slot op w h hr, task_goto, task_setTask_same]

/-! ## Loading an image (R45 to R48, R367, R368) -/

/-- A loader that has read its END pair looks the digest up in its cache. -/
theorem exec_configCacheLookup_read {cl : Nat} {p : Part} {d : Disp} {e : Nat} {w₀ w₁ : Word} {s t u : State}
    (hb : (s.loader cl).busy = false) (hj : s.nextJob cl = some (p, d, e))
    (h₀ : s.readFrame p.dom ((p.image d e).1 + 32 * ((p.image d e).2 - 2)) = (.inl w₀, t))
    (h₁ : t.readFrame p.dom ((p.image d e).1 + 32 * ((p.image d e).2 - 1)) = (.inl w₁, u)) :
    let digest := digestOf (Frm.ofWord w₀) (Frm.ofWord w₁)
    let hit := u.cluster.cfgCache.any fun c => c.is cl p.dom (p.image d e).1 digest
    exec (.configCacheLookup cl) s =
      .next ((if hit then u.pinImage cl p.dom (p.image d e).1 digest true else u).setLoader cl
        { busy := true, dom := p.dom, disp := p.disp, expert := e, img := (p.image d e).1, nf := (p.image d e).2, hit, digest }) := by
  rw [exec_configCacheLookup, execConfigCacheLookup, hb]
  simp only [hj, h₀, h₁]
  rfl

/-- A frame that a loader has read goes through the checks on it alone. -/
theorem exec_loaderFrameRead_read {cl : Nat} {p : Part} {d : Disp} {w : Word} {s t : State}
    (hp : s.partOf (cl / 16) (s.loader cl).dom (s.loader cl).disp = some p) (hd : s.dispOfPart p = some d)
    (hb : (s.loader cl).busy = true) (hl : d.loads = true) (hf : s.nextFrame cl (s.loader cl) = (.inl w, t)) :
    let l := s.loader cl
    exec (.loaderFrameRead cl) s =
      if (Frm.ofWord w).bad then .next (t.reportLoad cl p d l.expert 1)
      else if (loadRegions d (p.toLoad d cl l.expert)).any (Frm.ofWord w).badTarget then .next (t.reportLoad cl p d l.expert 2)
      else if (l.frames.head?).elim false fun v => (Frm.ofWord v).isEnd 0 then
        if (Frm.ofWord w).isEnd 1 then .next ((t.acceptLoad cl p d l l.frames.tail.reverse (l.frames.headD 0) w).getD t)
        else .next (t.reportLoad cl p d l.expert 4)
      else if 2 ^ 20 ≤ l.next + 1 then .next (t.reportLoad cl p d l.expert 4)
      else .next (t.setLoader cl { l with next := l.next + 1, frames := w :: l.frames, stray := l.stray || (Frm.ofWord w).isEnd 1 }) := by
  rw [exec_loaderFrameRead, execLoaderFrameRead]
  simp only [hp, hd, hb, hl, hf]
  rfl

/-- A frame that cannot be read ends the load as READ_UE. -/
theorem exec_loaderFrameRead_fail {cl : Nat} {p : Part} {d : Disp} {f : MemFail} {s t : State}
    (hp : s.partOf (cl / 16) (s.loader cl).dom (s.loader cl).disp = some p) (hd : s.dispOfPart p = some d)
    (hb : (s.loader cl).busy = true) (hl : d.loads = true) (hf : s.nextFrame cl (s.loader cl) = (.inr f, t)) :
    let l := s.loader cl
    exec (.loaderFrameRead cl) s = .next ((t.postKey l.dom l.disp (l.img + 32 * l.next) (some f)).reportLoad cl p d l.expert 5) := by
  rw [exec_loaderFrameRead, execLoaderFrameRead]
  simp only [hp, hd, hb, hl, hf]
  rfl

/-- Settles O12: the END pair decides hit or miss, and the checks on a frame decide in the loader's order. -/
theorem imageLoads : Obligations.ImageLoads := by
  refine ⟨?miss, ?hit, ?frame, ?bad, ?ue⟩
  case miss =>
    intro cl p d e w₀ w₁ t u s hb hj h₀ h₁ digest hm
    rw [exec_configCacheLookup_read hb hj h₀ h₁, hm]
    rfl
  case hit =>
    intro cl p d e w₀ w₁ t u s hb hj h₀ h₁ digest hm
    rw [exec_configCacheLookup_read hb hj h₀ h₁, hm]
    rfl
  case frame =>
    intro cl p d w t s hp hd hb hl hf hbad htgt hend hn
    rw [exec_loaderFrameRead_read hp hd hb hl hf, hbad, htgt, hend, if_neg (Nat.not_le.2 hn)]
    rfl
  case bad =>
    intro cl p d w t s hp hd hb hl hf hbad
    rw [exec_loaderFrameRead_read hp hd hb hl hf, hbad]
    rfl
  case ue =>
    intro cl p d pattern t s hp hd hb hl hf
    exact exec_loaderFrameRead_fail hp hd hb hl hf

end Sys2Proof.Machine
end

section
/-! PROOFS. What lane, predicate and scalar results write, and the comparisons, predicates and loop counters (spec/04 R118, R130 to R133). -/
namespace Sys2Proof.Machine

/-! ## What an instruction that passes the checks has (R12, R24) -/

theorem Issue.badField_of_check {i : Issue} (h : i.check = none) : i.badField = none := by
  unfold Issue.check at h
  split at h
  · cases h
  · exact Option.map_eq_none_iff.mp h

theorem Issue.badField_eq_none_iff (i : Issue) : i.badField = none ↔
    i.nxtOk = true ∧ i.fmtOk = true ∧ i.spec.mods i.w = true ∧ i.posOk i.spec.d i.w.d i.offD = true ∧
    i.posOk i.spec.a i.w.a i.offA = true ∧ i.posOk i.spec.b i.w.b i.offB = true ∧ i.posOk i.spec.c i.w.c i.offC = true ∧
    i.spec.xok i.s i.w i.imm = true := by
  unfold Issue.badField
  split_ifs <;> simp_all

theorem Issue.posOk_d_of_check {i : Issue} (h : i.check = none) : i.posOk i.spec.d i.w.d i.offD = true :=
  have ⟨_, _, _, hd, _⟩ := i.badField_eq_none_iff.mp (i.badField_of_check h)
  hd

theorem Issue.mods_of_check {i : Issue} (h : i.check = none) : i.spec.mods i.w = true :=
  have ⟨_, _, hm, _⟩ := i.badField_eq_none_iff.mp (i.badField_of_check h)
  hm

theorem Issue.fmt_mem_of_check {i : Issue} {fs : List Nat} (h : i.check = none) (hs : i.spec.fmts = some fs) : i.fmt ∈ fs := by
  obtain ⟨-, hf, -⟩ := i.badField_eq_none_iff.mp (i.badField_of_check h)
  simp only [Issue.fmtOk, hs, Bool.and_eq_true, List.contains_iff_mem] at hf
  exact hf.1

/-! ## Searches below a bound -/

theorem firstFrom_isSome_iff (p : Nat → Bool) : ∀ n i, (firstFrom p i n).isSome = true ↔ ∃ k, i ≤ k ∧ k < i + n ∧ p k = true
  | 0, i => by simp only [firstFrom]; exact iff_of_false Bool.false_ne_true fun ⟨k, h1, h2, _⟩ => by omega
  | n + 1, i => by
    rw [firstFrom]
    split
    case isTrue h => exact iff_of_true rfl ⟨i, le_rfl, by omega, h⟩
    case isFalse h =>
      rw [firstFrom_isSome_iff p n (i + 1)]
      constructor
      · rintro ⟨k, h1, h2, hk⟩; exact ⟨k, by omega, by omega, hk⟩
      · rintro ⟨k, h1, h2, hk⟩
        have hne : k ≠ i := by rintro rfl; exact h hk
        exact ⟨k, by omega, by omega, hk⟩

theorem firstBelow_isSome_iff (n : Nat) (p : Nat → Bool) : (firstBelow n p).isSome = true ↔ ∃ k < n, p k = true := by
  simp [firstBelow, firstFrom_isSome_iff]

/-! ## What an instruction writes under its guard (R17, R118) -/

/-- An instruction that acts on its PE alone is performed with the effect of its body. -/
theorem performs_apply {i : Instr} {spec : OpSpec} {w : Fields} {eff : Issue → Eff} {slot : Nat} {s : State}
    (hx : exec i s = runUnit spec w eff s) (hr : Ready spec w slot s)
    (hon : spec.perLane = true ∨ (s.at spec w slot).guard.getLsbD 0 = true) :
    Performs i spec.op w slot s ((s.at spec w slot).apply s (eff (s.at spec w slot))) := by
  unfold Performs
  rw [hx, runUnit_ready hr]
  obtain h | h := hon <;> simp [h]

theorem Issue.onlyD_self (i : Issue) : i.OnlyD i.s := by
  unfold Issue.OnlyD
  split
  · exact ⟨rfl, fun _ _ => ⟨rfl, rfl, rfl⟩⟩
  · exact ⟨rfl, fun _ _ => rfl⟩
  · rfl

/-- Some lane is enabled, or none is. -/
theorem Issue.masked_iff (i : Issue) (wd : Nat) : i.Masked wd ↔ i.someLane wd = false := by
  rw [← Bool.not_eq_true, Issue.someLane, firstBelow_isSome_iff]
  simp [Issue.Masked]

/-- A result of lanes is what R17 says: the enabled lanes of `D` are new, the others stay, and with none enabled nothing is written. -/
theorem Issue.lanes_written {i : Issue} {wd : Nat} (f : Nat → Nat) (hd : i.spec.d = .dst ∨ i.spec.d = .regOnly)
    (hp : i.posOk i.spec.d i.w.d i.offD = true) (h8 : 8 ≤ wd) :
    i.OnlyD (i.apply i.s (i.lanes wd f)) ∧ i.Lanes wd (i.apply i.s (i.lanes wd f)) f ∧
      (i.Masked wd → i.apply i.s (i.lanes wd f) = i.s) := by
  cases hl : i.someLane wd with
  | true =>
    have he : i.apply i.s (i.lanes wd f) = i.putD i.s (i.lanesOf wd f) := by rw [Issue.lanes, hl]; rfl
    rw [he]
    refine ⟨putD_only .., fun hz k hk => ?_, fun hm => ?_⟩
    · rw [putD_destIn i _ hd hp hz, laneOf_lanesOf i f h8 (Nat.mul_div_le 256 wd) hk]
    · rw [Issue.masked_iff, hl] at hm; cases hm
  | false =>
    have he : i.apply i.s (i.lanes wd f) = i.s := by rw [Issue.lanes, hl]; rfl
    have hm := (i.masked_iff wd).mpr hl
    rw [he]
    refine ⟨i.onlyD_self, fun _ k hk => ?_, fun _ => rfl⟩
    rw [hm k (hk.trans_eq (by rw [show Nat.max wd 8 = wd from Nat.max_eq_left h8]))]
    rfl

/-- An instruction whose effect is a result of lanes. -/
theorem writesLanes_of_runUnit {c : Fields → Instr} {spec : Fields → OpSpec} {wd : Issue → Nat} {f : Issue → Nat → Nat}
    (hx : ∀ w s, exec (c w) s = runUnit (spec w) w (fun i => i.lanes (wd i) (f i)) s)
    (hl : ∀ w, (spec w).perLane = true) (hd : ∀ w, (spec w).d = .dst ∨ (spec w).d = .regOnly)
    (h8 : ∀ w (i : Issue), i.spec = spec w → i.check = none → 8 ≤ wd i) : WritesLanes c spec wd f := by
  intro w slot s hr
  have ⟨_, hc, _⟩ := hr
  exact ⟨_, performs_apply (hx w s) hr (.inl (hl w)), Issue.lanes_written _ (hd w) (Issue.posOk_d_of_check hc) (h8 w _ rfl hc)⟩

theorem Issue.onlyQ_putPred (i : Issue) (q : Nat) (v : Pred) : i.OnlyQ q (i.putPred i.s q v) :=
  ⟨rfl, fun _ hk => Map.find_put_other _ hk ..⟩

/-- An instruction whose effect is the predicate that `D` names. -/
theorem writesPred_of_runUnit {c : Fields → Instr} {spec : Fields → OpSpec} {v : Issue → Pred} {f : Issue → Nat → Bool}
    (hx : ∀ w s, exec (c w) s = runUnit (spec w) w (fun i => { pred := some (Issue.predNum i.w.d, v i) }) s)
    (hl : ∀ w, (spec w).perLane = true)
    (hv : ∀ w (i : Issue), i.spec = spec w → i.check = none → ∀ k < 32, (v i).getLsbD k = f i k) : WritesPred c spec f := by
  intro w slot s hr
  have ⟨_, hc, _⟩ := hr
  refine ⟨_, performs_apply (hx w s) hr (.inl (hl w)), Issue.onlyQ_putPred .., fun k hk => ?_⟩
  rw [← hv w (s.at (spec w) w slot) rfl hc k hk]
  exact congrArg (BitVec.getLsbD · k) (predOf_setPredOf_same ..)

/-- An instruction without lanes whose effect is the word of `D`. -/
theorem writesScalar_of_runUnit {c : Fields → Instr} {spec : Fields → OpSpec} {v : Issue → Word} {f : Issue → Nat}
    (hx : ∀ w s, exec (c w) s = runUnit (spec w) w (fun i => { word := some (v i) }) s)
    (hl : ∀ w, (spec w).perLane = false) (hd : ∀ w, (spec w).d = .dst ∨ (spec w).d = .regOnly)
    (hv : ∀ i, v i = BitVec.ofNat 256 (f i)) : WritesScalar c spec f := by
  intro w slot s hr
  have ⟨_, hc, _⟩ := hr
  cases hg : (s.at (spec w) w slot).guard.getLsbD 0 with
  | true =>
    refine ⟨_, performs_apply (hx w s) hr (.inr hg), ?_⟩
    rw [if_pos rfl, ← hv]
    exact ⟨putD_only (s.at (spec w) w slot) _, putD_destIn (s.at (spec w) w slot) _ (hd w) (Issue.posOk_d_of_check hc)⟩
  | false => exact ⟨s, skipsOff_of_runUnit hx hl w slot s hr hg, by simp⟩

/-! ## Comparison, selection and packing (R130 to R132) -/

theorem compareSelectPack : Claims.CompareSelectPack := by
  refine ⟨writesPred_of_runUnit exec_cmp (fun _ => rfl) fun w i hs hc k hk => ?cmp,
    writesLanes_of_runUnit exec_sel (fun _ => rfl) (fun _ => .inl rfl) fun w i hs hc => ?sel,
    writesLanes_of_runUnit exec_packs (fun _ => rfl) (fun _ => .inl rfl) fun w i hs hc => ?packs⟩
  case cmp =>
    have hm : i.mod < 6 := by
      have h := Issue.mods_of_check hc
      rw [hs] at h
      exact of_decide_eq_true h
    rw [getLsbD_lanePred _ _ _ hk, Issue.laneBit]
    generalize i.mod = n at hm ⊢
    interval_cases n <;> rfl
  case sel =>
    have wide : ∀ f ∈ intFmts ++ floatFmts, 8 ≤ fmtWidth f := by decide
    exact wide _ (Issue.fmt_mem_of_check hc (by rw [hs]; rfl))
  case packs =>
    have wide : ∀ f ∈ [1, 2, 3, 5, 6, 7], 8 ≤ fmtWidth f / 2 := by decide
    exact wide _ (Issue.fmt_mem_of_check hc (by rw [hs]; rfl))

/-! ## Predicates and loop counters (R122, R133) -/

/-- A predicate written bit by bit under the guard. -/
theorem Issue.getLsbD_predBits (i : Issue) (b : BitVec 8) (v : Pred) {k : Nat} (hk : k < 32) :
    (bitPred i.guard (i.predVal b) v).getLsbD k = i.guardBit b (fun k => v.getLsbD k) k := getLsbD_bitPred _ _ _ hk

theorem getLsbD_flagPred (b : Bool) {k : Nat} (hk : k < 32) : (flagPred b).getLsbD k = b := by
  cases b
  · simp [flagPred]
  · exact (by decide : ∀ k < 32, (flagPred true).getLsbD k = true) k hk

/-- An instruction that writes the predicate of `D` bit by bit. -/
theorem writesPred_of_bits {c : Fields → Instr} {spec : Fields → OpSpec} {v : Issue → Pred} {f : Issue → Nat → Bool}
    (hx : ∀ w s, exec (c w) s = runUnit (spec w) w (fun i => { pred := some (i.predBits i.w.d (v i)) }) s)
    (hl : ∀ w, (spec w).perLane = true) (hv : ∀ i k, k < 32 → (v i).getLsbD k = f i k) :
    WritesPred c spec (fun x => x.guardBit x.w.d (f x)) :=
  writesPred_of_runUnit hx hl fun _ i _ _ k hk => by
    rw [i.getLsbD_predBits _ _ hk, Issue.guardBit, Issue.guardBit, hv i k hk]

theorem predicates : Claims.Predicates := by
  refine ⟨writesPred_of_bits exec_qand (fun _ => rfl) fun _ _ _ => BitVec.getLsbD_and ..,
    writesPred_of_bits exec_qor (fun _ => rfl) fun _ _ _ => BitVec.getLsbD_or ..,
    writesPred_of_bits exec_qxor (fun _ => rfl) fun _ _ _ => BitVec.getLsbD_xor ..,
    writesPred_of_bits exec_qnot (fun _ => rfl) fun _ _ hk => by simp [hk],
    writesPred_of_bits exec_qmov (fun _ => rfl) fun i k hk => ?qmov,
    writesPred_of_bits exec_qany (fun _ => rfl) fun _ _ hk => getLsbD_flagPred _ hk⟩
  case qmov =>
    cases opnd i.w.a with
    | pred q => rfl
    | _ => exact (BitVec.getLsbD_extractLsb' ..).trans (by simp [hk])

/-- A loop counter is narrower than a scalar. -/
theorem scalarWord_lc (v : BitVec 16) : scalarWord v.toNat = BitVec.ofNat 256 v.toNat := by
  rw [scalarWord, Nat.mod_eq_of_lt (by omega)]

theorem loopCounters : Claims.LoopCounters := by
  refine ⟨writesScalar_of_runUnit exec_ldl (fun _ => rfl) (fun _ => .inl rfl) fun _ => rfl,
    writesScalar_of_runUnit exec_lcget (fun _ => rfl) (fun _ => .inl rfl) fun _ => scalarWord_lc _, fun w slot s hr => ?_⟩
  dsimp only
  split
  case isTrue h => exact performs_apply (exec_lcset w s) hr (.inr h)
  case isFalse h => exact skipsOff_of_runUnit exec_lcset (fun _ => rfl) w slot s hr (Bool.eq_false_of_not_eq_true h)

/-- Settles O42, by what a predicate, a lane and a scalar result write under the guard. -/
theorem comparesAndPredicates : Obligations.ComparesAndPredicates := ⟨compareSelectPack, predicates, loopCounters⟩

end Sys2Proof.Machine
end

section
/-! PROOFS. The special functions and `AMAXV` (spec/02 R88 to R90, spec/05 R185, R186). -/
namespace Sys2Proof.Machine

/-! ## Rounding the values of R89 -/

/-- An integral quotient is what every rounding mode gives. -/
theorem roundQuot_mul (rm : Nat) (neg : Bool) (n : Nat) {d : Nat} (hd : 0 < d) : roundQuot rm neg (n * d) d = n := by
  unfold roundQuot
  rw [Nat.mul_mod_left, Nat.mul_div_cancel n hd]
  split <;> simp [hd.ne]

theorem ilog2Rat_self (k : Nat) : ilog2Rat k k = 0 := by
  simp [ilog2Rat, pow2]

theorem pow2_neg (e : Nat) : pow2 (-(e : Int)) = (1, 2 ^ e) := by
  cases e with
  | zero => rfl
  | succ e => rw [pow2, if_neg (by omega), Int.neg_neg, Int.toNat_natCast]

/-- The value 1, however its fraction is written, has the pattern of a zero fraction under the bias (R63). -/
theorem FFmt.roundMag_self {f : FFmt} (hf : 1 ≤ f.bias) (rm : Nat) (neg : Bool) {k : Nat} (hk : 0 < k) :
    f.roundMag rm neg k k = f.bias * 2 ^ f.fw := by
  have hq : max (ilog2Rat k k - f.fw) (1 - (f.bias : Int) - f.fw) = -(f.fw : Int) := by rw [ilog2Rat_self]; omega
  have he : (-(f.fw : Int) - (1 - (f.bias : Int) - f.fw)).toNat = f.bias - 1 := by omega
  simp only [FFmt.roundMag, hq, he, pow2_neg]
  rw [Nat.mul_comm k, Nat.mul_one, roundQuot_mul _ _ _ hk, ← Nat.succ_mul, Nat.succ_eq_add_one, Nat.sub_add_cancel hf]

theorem FFmt.round_self {f : FFmt} (hf : 1 ≤ f.bias) (rm : Nat) (sat ftz s : Bool) {k : Nat} (hk : 0 < k) :
    f.round rm sat ftz (.fin s k k) = f.round rm sat ftz (.fin s 1 1) := by
  simp only [FFmt.round, f.roundMag_self hf rm s hk, f.roundMag_self hf rm s Nat.one_pos, hk.ne', Nat.one_ne_zero]

/-! ## Results that f32 holds (R88, R89) -/

/-- Passing through f32 changes nothing in what r rounds to, in each format of the special functions. -/
def FVal.HeldByF32 (r : FVal) : Prop :=
  ∀ g ∈ [bf16, f16, f32], ∀ rm sat ftz,
    g.round rm sat ftz (f32.decode false (f32.round rm false false r)) = g.round rm sat ftz r

/-- An exact result that f32 holds is what the function takes its operand to. -/
theorem Special.takes_of_eval {f : Special.Fn} {v r : FVal} (he : Special.eval f v = .exact r) (hr : r.HeldByF32) :
    Special.Takes f v r := by
  intro g hg rm sat ftz
  rw [Special.f32Of, he]
  exact hr g hg rm sat ftz

theorem f32_decode_nan : f32.decode false f32.nan = .nan := by decide

theorem f32_decode_inf (s : Bool) : f32.decode false (f32.signed s f32.inf) = .inf s := by revert s; decide

theorem f32_decode_zero (s : Bool) : f32.decode false (f32.signed s 0) = .fin s 0 (2 ^ 149) := by revert s; decide

theorem f32_decode_one (s : Bool) : f32.decode false (f32.signed s (f32.bias * 2 ^ f32.fw)) = .fin s (2 ^ 23) (2 ^ 23) := by
  revert s; decide

theorem f32_round_one (rm : Nat) (s : Bool) :
    f32.round rm false false (.fin s 1 1) = f32.signed s (f32.bias * 2 ^ f32.fw) := by
  have hfinite : ¬ f32.inf ≤ f32.bias * 2 ^ f32.fw := by decide
  simp [FFmt.round, FFmt.roundMag_self (f := f32) (by decide) rm s Nat.one_pos, hfinite]

theorem FVal.heldByF32_nan : FVal.nan.HeldByF32 := by
  intro g _ rm sat ftz
  rw [FFmt.round, f32_decode_nan]

theorem FVal.heldByF32_inf (s : Bool) : (FVal.inf s).HeldByF32 := by
  intro g _ rm sat ftz
  rw [show f32.round rm false false (.inf s) = f32.signed s f32.inf from rfl, f32_decode_inf]

theorem FVal.heldByF32_zero (s : Bool) : (FVal.fin s 0 1).HeldByF32 := by
  intro g _ rm sat ftz
  rw [show f32.round rm false false (.fin s 0 1) = f32.signed s 0 from rfl, f32_decode_zero]
  rfl

theorem FVal.heldByF32_one (s : Bool) : (FVal.fin s 1 1).HeldByF32 := by
  intro g hg rm sat ftz
  have hb : 1 ≤ g.bias := (by decide : ∀ g ∈ [bf16, f16, f32], 1 ≤ g.bias) g hg
  rw [f32_round_one, f32_decode_one, FFmt.round_self hb _ _ _ _ (Nat.two_pow_pos 23)]

/-! ## Special operands (R89) -/

namespace Special

theorem takes_nan {f : Fn} {v : FVal} (he : eval f v = .exact .nan) : Special.Takes f v .nan := takes_of_eval he FVal.heldByF32_nan

theorem takes_inf {f : Fn} {v : FVal} {s : Bool} (he : eval f v = .exact (.inf s)) : Special.Takes f v (.inf s) :=
  takes_of_eval he (FVal.heldByF32_inf s)

theorem takes_zero {f : Fn} {v : FVal} {s : Bool} (he : eval f v = .exact (.fin s 0 1)) : Special.Takes f v (.fin s 0 1) :=
  takes_of_eval he (FVal.heldByF32_zero s)

theorem takes_one {f : Fn} {v : FVal} {s : Bool} (he : eval f v = .exact (.fin s 1 1)) : Special.Takes f v (.fin s 1 1) :=
  takes_of_eval he (FVal.heldByF32_one s)

theorem eval_nan (f : Fn) : eval f .nan = .exact .nan := by cases f <;> rfl

theorem eval_rcp_zero (s : Bool) (d : Nat) : eval .rcp (.fin s 0 d) = .exact (.inf s) := by cases s <;> rfl

theorem eval_rcp_inf (s : Bool) : eval .rcp (.inf s) = .exact (.fin s 0 1) := by cases s <;> rfl

/-- The exponent of a zero is the integer 0. -/
theorem eval_exp2_zero (s : Bool) (d : Nat) : eval .exp2 (.fin s 0 d) = .exact (.fin false 1 1) := by
  have hz : FVal.num s 0 = 0 := by cases s <;> rfl
  simp [eval, hz, pow2]

theorem eval_sinpi_integer (s : Bool) (n d : Nat) : eval .sinpi (.fin s (n * d) d) = .exact (.fin s 0 1) := by
  simp [eval]

/-- The cosine is the sine of the argument plus 1/2, here the integer n + 1. -/
theorem eval_cospi_half (s : Bool) (n d : Nat) : eval .cospi (.fin s ((2 * n + 1) * d) (2 * d)) = .exact (.fin false 0 1) := by
  have h : (2 * ((2 * n + 1) * d) + 2 * d) % (2 * (2 * d)) = 0 := by
    rw [show 2 * ((2 * n + 1) * d) + 2 * d = (n + 1) * (2 * (2 * d)) by ring, Nat.mul_mod_left]
  simp [eval, h]

theorem eval_negative {n : Nat} (hn : 0 < n) (d : Nat) : eval .sqrt (.fin true n d) = .exact .nan ∧
    eval .rsq (.fin true n d) = .exact .nan ∧ eval .lg2 (.fin true n d) = .exact .nan := by
  simp [eval, hn.ne']

end Special

/-! ## The instructions (R185, R186) -/

theorem Issue.special_eq_lanes (i : Issue) (f : Special.Fn) : i.special f = i.lanes i.lw (fnLane f i) := by
  refine congrArg (i.lanes i.lw) (funext fun k => ?_)
  unfold Special.lane fnLane
  split <;> rfl

/-- A special function writes its lanes. -/
theorem writesLanes_special {c : Fields → Instr} {op : Nat} {f : Special.Fn}
    (hx : ∀ w s, exec (c w) s = runUnit (specFn op) w (fun i => i.special f) s) :
    WritesLanes c (fun _ => specFn op) Issue.lw (fnLane f) := by
  refine writesLanes_of_runUnit (fun w s => ?_) (fun _ => rfl) (fun _ => .inl rfl) fun w i hs hc => ?_
  · simp only [hx, Issue.special_eq_lanes]
  · have wide : ∀ f ∈ [8, 9, 10], 8 ≤ fmtWidth f := by decide
    exact wide _ (Issue.fmt_mem_of_check hc (by rw [hs]; rfl))

/-- An instruction whose effect is the word of `D`, whatever its guard holds. -/
theorem writesWord_of_runUnit {c : Fields → Instr} {spec : Fields → OpSpec} {v : Issue → Word} {f : Issue → Nat}
    (hx : ∀ w s, exec (c w) s = runUnit (spec w) w (fun i => { word := some (v i) }) s)
    (hl : ∀ w, (spec w).perLane = true) (hd : ∀ w, (spec w).d = .dst ∨ (spec w).d = .regOnly)
    (hv : ∀ i, v i = BitVec.ofNat 256 (f i)) : WritesWord c spec f := by
  intro w slot s hr
  have ⟨_, hc, _⟩ := hr
  refine ⟨_, performs_apply (hx w s) hr (.inl (hl w)), putD_only (s.at (spec w) w slot) _, ?_⟩
  rw [← hv]
  exact putD_destIn (s.at (spec w) w slot) _ (hd w) (Issue.posOk_d_of_check hc)

/-- The magnitude of a lane, by its value: a NaN has none (R90). -/
theorem amaxMag_eq_ite (fmt x : Nat) : amaxMag fmt x =
    if ((ffmt fmt).decode false x).isNan then none else some (f32.round 2 false false ((ffmt fmt).decode false x).abs) := by
  unfold amaxMag
  cases (ffmt fmt).decode false x <;> rfl

/-- The contribution of floating-point lanes (R90): the greatest magnitude that is no NaN, and bit 31 for a NaN. -/
theorem amaxFloat_map (fmt : Nat) (x : Nat → Nat) (ks : List Nat) : amaxFloat fmt (ks.map x) =
    (ks.map fun k => if ((ffmt fmt).decode false (x k)).isNan then 0
      else f32.round 2 false false ((ffmt fmt).decode false (x k)).abs).foldl Nat.max 0 +
    if ks.any fun k => ((ffmt fmt).decode false (x k)).isNan then 2 ^ 31 else 0 := by
  have hmag : ∀ k, (amaxMag fmt (x k)).getD 0 = if ((ffmt fmt).decode false (x k)).isNan then 0
      else f32.round 2 false false ((ffmt fmt).decode false (x k)).abs := fun k => by
    rw [amaxMag_eq_ite]; split <;> rfl
  have hnan : ((ks.map x).map (amaxMag fmt)).contains none = ks.any fun k => ((ffmt fmt).decode false (x k)).isNan := by
    rw [Bool.eq_iff_iff]
    simp [amaxMag_eq_ite]
  simp only [amaxFloat, hnan, List.foldl_map, hmag]

/-- The contribution of integer lanes, none of which is invalid (R90): the greatest magnitude, saturated. -/
theorem amaxInt_map (z : Nat → Int) (ks : List Nat) : amaxInt (ks.map fun k => some (z k)) =
    Nat.min ((ks.map fun k => (z k).natAbs).foldl Nat.max 0) (2 ^ 31 - 1) := by
  simp [amaxInt, List.foldl_map]

/-- Settles O1, by the exact value that each special operand has under R89, which f32 holds, and by the contribution of R90. -/
theorem specialFunctions : Obligations.SpecialFunctions := by
  refine ⟨writesLanes_special exec_rcp, writesLanes_special exec_rsq, writesLanes_special exec_sqrt,
    writesLanes_special exec_exp2, writesLanes_special exec_lg2, writesLanes_special exec_sinpi,
    writesLanes_special exec_cospi, writesLanes_special exec_tanh, writesLanes_special exec_erf,
    fun f => Special.takes_nan (Special.eval_nan f), fun s d => ?zero, fun n d hn => ?negative,
    Special.takes_nan rfl, Special.takes_nan rfl, Special.takes_nan rfl,
    Special.takes_inf rfl, Special.takes_zero rfl, Special.takes_inf rfl, Special.takes_inf rfl, Special.takes_zero rfl,
    Special.takes_zero rfl, fun s => ?infinite,
    fun s n d _ => ⟨Special.takes_zero (Special.eval_sinpi_integer s n d), Special.takes_zero (Special.eval_cospi_half s n d)⟩, ?amaxv⟩
  case zero =>
    exact ⟨Special.takes_zero rfl, Special.takes_inf (Special.eval_rcp_zero s d), Special.takes_inf rfl,
      fun _ => Special.takes_one (Special.eval_exp2_zero s d), Special.takes_inf rfl,
      Special.takes_zero (by simpa using Special.eval_sinpi_integer s 0 d), Special.takes_zero rfl, Special.takes_zero rfl⟩
  case infinite =>
    exact ⟨Special.takes_zero (Special.eval_rcp_inf s), Special.takes_one rfl, Special.takes_one rfl, Special.takes_nan rfl,
      Special.takes_nan rfl⟩
  case negative =>
    obtain ⟨hsqrt, hrsq, hlg2⟩ := Special.eval_negative hn d
    exact ⟨Special.takes_nan hsqrt, Special.takes_nan hrsq, Special.takes_nan hlg2⟩
  case amaxv =>
    refine writesWord_of_runUnit exec_amaxv (fun _ => rfl) (fun _ => .inl rfl) fun i => ?_
    dsimp only
    cases hf : isFloat i.fmt with
    | true => rw [if_pos rfl, amaxFloat_map]; rfl
    | false => rw [if_neg Bool.false_ne_true, amaxInt_map]; rfl

end Sys2Proof.Machine
end

section
/-! PROOFS. What a step runs (spec/03 R105, spec/06 R194). -/
namespace Sys2Proof.Machine

/-- The state in which the head of the agenda acts, with what is left of the agenda. -/
def State.later (s : State) (as : List Agent) : State :=
  { s with now := s.now + Config.elapse s.free, free := s.free + 1, agenda := as }

theorem next_of_agenda {s : State} {a : Agent} {as : List Agent} (h : s.agenda = a :: as) : s.next = (a, s.later as) := by
  simp only [State.next, h]
  rfl

theorem next_of_agenda_nil {s : State} (h : s.agenda = []) : s.next = (freeAgent s.free, s.later []) := by
  simp only [State.next, State.later, h]

theorem step_issue {s : State} {pe : Nat} {as : List Agent} (h : s.agenda = .issue pe :: as) (hpe : pe < 32768) :
    step s = issue pe (s.later as) := by
  rw [step, next_of_agenda h]
  exact if_pos (decide_eq_true hpe)

theorem step_event {s : State} {i : Instr} {as : List Agent} (h : s.agenda = .event i :: as) (hw : i.wf = true)
    (he : encode i = none) : step s = exec i (s.later as) := by
  rw [step, next_of_agenda h]
  exact if_pos (by simp [Agent.wf, hw, he])

theorem freeAgent_wf (n : Nat) : (freeAgent n).wf = true := by
  unfold freeAgent
  split
  · assumption
  · rfl

/-- With an empty agenda a step is the step of the free choice. -/
theorem step_of_agenda_nil {s : State} (h : s.agenda = []) : step s = step { s with agenda := [freeAgent s.free] } := by
  rw [step, next_of_agenda_nil h, step, next_of_agenda rfl]
  rfl

theorem fetch_later (s : State) (as : List Agent) (pe : Nat) : (s.later as).fetch pe = s.fetch pe := rfl

/-- Settles O27: the agent at the head of the agenda acts, and the decoder gives back the instruction whose word stands in the entry. -/
theorem stepRunsDecoded : Obligations.StepRunsDecoded := by
  refine ⟨fun pe slot i as s ha hpe hf hu hw he => ?decoded, fun pe slot as s ha hpe hf hu => ?fault, fun pe as s ha hpe hf => ?idle,
    fun i as s => step_event, fun s h => ⟨freeAgent s.free, freeAgent_wf _, step_of_agenda_nil h⟩⟩
  case decoded =>
    rw [step_issue ha hpe, issue, fetch_later, State.fetch, hf]
    simp only [Option.map_some, hu, encodeDecode i _ _ hw he]
    rfl
  case fault =>
    rw [step_issue ha hpe, issue, fetch_later, State.fetch, hf]
    exact if_pos hu
  case idle =>
    rw [step_issue ha hpe, issue, fetch_later, State.fetch, hf]
    rfl

end Sys2Proof.Machine
end

section
/-! PROOFS. Firings: how one begins, what its end completes and leaves, and realignment (spec/03 R100 to R112, spec/06 R191). -/
namespace Sys2Proof.Machine

/-! ## Folds by index -/

theorem foldUpFrom_induct {β : Type} {P : Nat → β → Prop} {f : β → Nat → β} (h : ∀ k b, P k b → P (k + 1) (f b k)) :
    ∀ n i b, P i b → P (i + n) (foldUpFrom f i n b)
  | 0, _, _, hb => hb
  | n + 1, i, b, hb => by
    rw [show i + (n + 1) = i + 1 + n by omega]
    exact foldUpFrom_induct h n (i + 1) (f b i) (h i b hb)

theorem foldUp_induct {β : Type} {P : Nat → β → Prop} {f : β → Nat → β} {n : Nat} {b : β} (hb : P 0 b)
    (h : ∀ k b, P k b → P (k + 1) (f b k)) : P n (foldUp n b f) := by
  simpa [foldUp] using foldUpFrom_induct h n 0 b hb

/-! ## What posting a record leaves (R192) -/

/-- The PEs, the pools and the package's memory. -/
def State.stores (s : State) : UnitState × Map Byte × MemState := (s.unit, s.core.pool, s.mem)

theorem stores_queueTrap (s : State) (dom : Nat) (r : Word) : (s.queueTrap dom r).stores = s.stores := by
  unfold State.queueTrap
  split <;> rfl

theorem stores_respond (s : State) (die : Nat) (r : Word) (pattern : Bool) : (s.respond die r pattern).stores = s.stores := by
  unfold State.respond
  dsimp only
  split
  · split
    · split <;> rfl
    · rfl
  · rfl

/-- A record that goes to a core's trap port changes no PE, no pool and no memory. -/
theorem stores_corePost (s : State) (core : Nat) (r : Word) : (s.corePost core r).stores = s.stores := by
  unfold State.corePost
  dsimp only
  split
  · rfl
  · exact (stores_respond ..).trans (stores_queueTrap ..)

@[simp] theorem unit_corePost (s : State) (core : Nat) (r : Word) : (s.corePost core r).unit = s.unit :=
  congrArg Prod.fst (stores_corePost s core r)

@[simp] theorem task_corePost (s : State) (core : Nat) (r : Word) (pe k : Nat) : (s.corePost core r).task pe k = s.task pe k :=
  congrArg (fun u => u.tasks.find (8 * pe + k) {}) (unit_corePost s core r)

/-- Registers, predicates, task stores and memories. -/
def State.kept (s : State) : Map Word × Map Pred × Map StoreEntry × Map Byte × MemState :=
  (s.unit.regs, s.unit.preds, s.unit.store, s.core.pool, s.mem)

@[simp] theorem kept_setTask (s : State) (pe k : Nat) (v : Task) : (s.setTask pe k v).kept = s.kept := rfl

@[simp] theorem kept_corePost (s : State) (core : Nat) (r : Word) : (s.corePost core r).kept = s.kept :=
  congrArg (fun x => (x.1.regs, x.1.preds, x.1.store, x.2)) (stores_corePost s core r)

/-! ## Taking and publishing tokens (R97, R191) -/

@[simp] theorem kept_publishPoison (s : State) (pe slot h : Nat) (r : Word) : (s.publishPoison pe slot h r).kept = s.kept := rfl

@[simp] theorem task_publishPoison (s : State) (pe slot h : Nat) (r : Word) :
    (s.publishPoison pe slot h r).task pe slot = (s.task pe slot).counted r := task_setTask_same ..

@[simp] theorem kept_consume (pe h : Nat) : ∀ n (s : State), (s.consume pe h n).kept = s.kept
  | 0, _ => rfl
  | n + 1, s => kept_consume pe h n (s.consume1 pe h)

@[simp] theorem task_consume (pe h pe' k : Nat) : ∀ n (s : State), (s.consume pe h n).task pe' k = s.task pe' k
  | 0, _ => rfl
  | n + 1, s => task_consume pe h pe' k n (s.consume1 pe h)

@[simp] theorem kept_fillPoison (pe slot h : Nat) (r : Word) : ∀ n (s : State), (s.fillPoison pe slot h r n).kept = s.kept
  | 0, _ => rfl
  | n + 1, s => kept_fillPoison pe slot h r n (s.publishPoison pe slot h r)

/-- Filling a window counts in the task, and changes nothing else of it. -/
theorem task_fillPoison (pe slot h : Nat) (r : Word) : ∀ n (s : State), ∃ c k,
    (s.fillPoison pe slot h r n).task pe slot = { s.task pe slot with trapcause := c, trapcnt := k }
  | 0, s => ⟨_, _, rfl⟩
  | n + 1, s => by
    obtain ⟨c, k, he⟩ := task_fillPoison pe slot h r n (s.publishPoison pe slot h r)
    exact ⟨c, k, he.trans (by rw [task_publishPoison]; rfl)⟩

/-! ## Completing the windows (R111) -/

/-- What port p of the task has advanced by once the windows below n are complete. -/
def Task.advTo (x : Task) (n p : Nat) : Nat :=
  if p < n ∧ (x.port p).declared = true then Nat.max (x.adv p) (x.port p).count else x.adv p

theorem Task.advTo_succ_other (x : Task) {p q : Nat} (h : q ≠ p) : x.advTo (p + 1) q = x.advTo p q := by
  simp only [Task.advTo, Nat.lt_succ_iff_lt_or_eq, h, or_false]

theorem Task.advTo_succ_short {x : Task} {p : Nat} (hd : (x.port p).declared = true) (hlt : x.adv p < (x.port p).count) :
    x.advTo (p + 1) p = (x.port p).count := (if_pos ⟨Nat.lt_succ_self p, hd⟩).trans (Nat.max_eq_right hlt.le)

theorem Task.advTo_succ_full {x : Task} {p : Nat} (h : (x.port p).declared = true → (x.port p).count ≤ x.adv p) :
    x.advTo (p + 1) p = x.adv p := by
  unfold Task.advTo
  split
  case isTrue hp => exact Nat.max_eq_left (h hp.2)
  case isFalse => rfl

/-- t is the task x at the same entry with the same ports, where those below n that are declared have advanced by their count at least. -/
structure Task.CompletedTo (x : Task) (n : Nat) (t : Task) : Prop where
  pc : t.pc = x.pc
  ports : t.ports = x.ports
  adv : ∀ p, t.adv p = x.advTo n p

theorem Task.completedTo_zero (x : Task) : x.CompletedTo 0 x := ⟨rfl, rfl, fun p => (if_neg fun h => Nat.not_lt_zero p h.1).symm⟩

theorem Task.adv_setAdv (t : Task) (p n q : Nat) : (t.setAdv p n).adv q = if q = p then n else t.adv q := Map.find_put ..

theorem Task.eq_count_of_shortPorts {x : Task} (h : x.shortPorts = 0) {p : Nat} (hp : p < 12) (hd : (x.port p).declared = true) :
    x.adv p = (x.port p).count := by
  have hb := bitmapOf_testBit (fun p => (x.port p).declared && x.adv p ≠ (x.port p).count) hp
  rw [show bitmapOf 12 _ = 0 from h, Nat.zero_testBit] at hb
  simpa [hd] using hb.symm

/-- Windows that have all advanced by their counts are complete. -/
theorem Task.completedTo_of_shortPorts {x : Task} (h : x.shortPorts = 0) : x.CompletedTo 12 x := by
  refine ⟨rfl, rfl, fun p => ?_⟩
  unfold Task.advTo
  split
  case isTrue hp => rw [← Task.eq_count_of_shortPorts h hp.1 hp.2]; exact (Nat.max_self _).symm
  case isFalse => rfl

theorem kept_completePort (s : State) (pe slot : Nat) (r : Word) (p : Nat) : (s.completePort pe slot r p).kept = s.kept := by
  unfold State.completePort
  dsimp only
  split_ifs <;> simp

theorem completePort_full {s : State} {pe slot p : Nat}
    (h : ((s.task pe slot).port p).declared = true → ((s.task pe slot).port p).count ≤ (s.task pe slot).adv p) (r : Word) :
    s.completePort pe slot r p = s := by
  refine if_neg fun hs => ?_
  obtain ⟨hd, hlt⟩ := Bool.and_eq_true_iff.mp hs
  exact absurd (h hd) (Nat.not_le.mpr (of_decide_eq_true hlt))

/-- A port that falls short is advanced to its count, by taking the rest of its window or by filling it. -/
theorem task_completePort_short {s : State} {pe slot p : Nat} (hd : ((s.task pe slot).port p).declared = true)
    (hlt : (s.task pe slot).adv p < ((s.task pe slot).port p).count) (r : Word) :
    ∃ c k, (s.completePort pe slot r p).task pe slot =
      { s.task pe slot with trapcause := c, trapcnt := k }.setAdv p ((s.task pe slot).port p).count := by
  unfold State.completePort
  simp only [hd, hlt, decide_true, Bool.and_self, if_true, task_setTask_same]
  split
  · exact ⟨_, _, congrArg (Task.setAdv · p _) (task_consume ..)⟩
  · obtain ⟨c, k, he⟩ := task_fillPoison pe slot ((s.task pe slot).port p).handle r
      (((s.task pe slot).port p).count - (s.task pe slot).adv p) s
    exact ⟨c, k, congrArg (Task.setAdv · p _) he⟩

theorem Task.CompletedTo.completePort {x : Task} {s : State} {pe slot p : Nat} (h : x.CompletedTo p (s.task pe slot)) (r : Word) :
    x.CompletedTo (p + 1) ((s.completePort pe slot r p).task pe slot) := by
  obtain ⟨hpc, hports, hadv⟩ := h
  have hport : (s.task pe slot).port p = x.port p := by rw [Task.port, hports]; rfl
  have hp : (s.task pe slot).adv p = x.adv p := (hadv p).trans (if_neg fun h => Nat.lt_irrefl p h.1)
  by_cases hs : (x.port p).declared = true ∧ x.adv p < (x.port p).count
  case pos =>
    obtain ⟨hd, hlt⟩ := hs
    obtain ⟨c, k, he⟩ := task_completePort_short (hport ▸ hd) (by rwa [hport, hp]) r
    rw [he, hport]
    refine ⟨hpc, hports, fun q => ?_⟩
    rw [Task.adv_setAdv]
    split
    case isTrue hq => rw [hq, Task.advTo_succ_short hd hlt]
    case isFalse hq => rw [Task.advTo_succ_other x hq]; exact hadv q
  case neg =>
    have hfull : (x.port p).declared = true → (x.port p).count ≤ x.adv p := fun hd => Nat.not_lt.mp fun hlt => hs ⟨hd, hlt⟩
    rw [completePort_full (by rwa [hport, hp])]
    refine ⟨hpc, hports, fun q => ?_⟩
    by_cases hq : q = p
    · rw [hq, hp, Task.advTo_succ_full hfull]
    · rw [Task.advTo_succ_other x hq]; exact hadv q

theorem completeWindows_full {s : State} {pe slot : Nat} (h : (s.task pe slot).shortPorts = 0) (cause : Nat) :
    s.completeWindows pe slot cause = s := by
  unfold State.completeWindows
  dsimp only
  rw [if_pos h]

/-- Completing the windows completes every port (R111). -/
theorem completedTo_completeWindows (s : State) (pe slot cause : Nat) :
    (s.task pe slot).CompletedTo 12 ((s.completeWindows pe slot cause).task pe slot) := by
  by_cases h : (s.task pe slot).shortPorts = 0
  · rw [completeWindows_full h]; exact Task.completedTo_of_shortPorts h
  · unfold State.completeWindows
    simp only [h, if_false]
    exact foldUp_induct (P := fun n t => (s.task pe slot).CompletedTo n (t.task pe slot)) (Task.completedTo_zero _)
      fun p (t : State) ht => ht.completePort _

theorem kept_completeWindows (s : State) (pe slot cause : Nat) : (s.completeWindows pe slot cause).kept = s.kept := by
  unfold State.completeWindows
  dsimp only
  split
  · rfl
  · exact foldUp_keeps (P := fun t : State => t.kept = s.kept) rfl fun t p ht => (kept_completePort ..).trans ht

/-! ## The record that no token carried (R191) -/

theorem postHeld_sent {s : State} {pe slot : Nat} (h : (s.task pe slot).prec = none ∨ (s.task pe slot).ps = true) :
    s.postHeld pe slot = s := by
  unfold State.postHeld
  dsimp only
  split
  case h_1 r hr => exact if_pos (h.resolve_left (by simp [hr]))
  case h_2 => rfl

theorem postHeld_held {s : State} {pe slot : Nat} {r : Word} (hr : (s.task pe slot).prec = some r) (hp : (s.task pe slot).ps = false) :
    s.postHeld pe slot = (s.setTask pe slot { (s.task pe slot).counted r with ps := true }).corePost (coreOfPe pe) r := by
  unfold State.postHeld
  simp only [hr, hp]
  rfl

theorem task_postHeld_held {s : State} {pe slot : Nat} {r : Word} (hr : (s.task pe slot).prec = some r)
    (hp : (s.task pe slot).ps = false) : (s.postHeld pe slot).task pe slot = { (s.task pe slot).counted r with ps := true } := by
  rw [postHeld_held hr hp, task_corePost, task_setTask_same]

/-- A held record was sent, or there is none, or it is posted now. -/
theorem held_or_sent (t : Task) : (t.prec = none ∨ t.ps = true) ∨ ∃ r, t.prec = some r ∧ t.ps = false := by
  cases t.prec <;> cases t.ps <;> simp

theorem Task.CompletedTo.postHeld {x : Task} {s : State} {pe slot n : Nat} (h : x.CompletedTo n (s.task pe slot)) :
    x.CompletedTo n ((s.postHeld pe slot).task pe slot) := by
  obtain hs | ⟨r, hr, hp⟩ := held_or_sent (s.task pe slot)
  · rwa [postHeld_sent hs]
  · rw [task_postHeld_held hr hp]; exact ⟨h.pc, h.ports, h.adv⟩

theorem Task.CompletedTo.idle {x t : Task} {n : Nat} (h : x.CompletedTo n t) :
    x.CompletedTo n { t with st := .idle, wait := .none } := ⟨h.pc, h.ports, h.adv⟩

theorem kept_postHeld (s : State) (pe slot : Nat) : (s.postHeld pe slot).kept = s.kept := by
  obtain hs | ⟨r, hr, hp⟩ := held_or_sent (s.task pe slot)
  · rw [postHeld_sent hs]
  · rw [postHeld_held hr hp, kept_corePost, kept_setTask]

/-! ## The end of a firing (R109, R111, R113) -/

theorem task_endFiring (s : State) (pe slot cause : Nat) : (s.endFiring pe slot cause).task pe slot =
    { ((s.completeWindows pe slot cause).postHeld pe slot).task pe slot with st := .idle, wait := .none } := by
  unfold State.endFiring
  exact task_setTask_same ..

theorem kept_endFiring (s : State) (pe slot cause : Nat) : (s.endFiring pe slot cause).kept = s.kept := by
  unfold State.endFiring
  rw [kept_setTask, kept_postHeld, kept_completeWindows]

/-- Settles O33: completing the windows completes port after port, and a held record is counted when it is posted. -/
theorem firingEnds : Obligations.FiringEnds := by
  intro pe slot cause m
  dsimp only
  rw [task_endFiring]
  have hc := (completedTo_completeWindows m pe slot cause).postHeld.idle
  have hk := kept_endFiring m pe slot cause
  simp only [State.kept, Prod.mk.injEq] at hk
  refine ⟨rfl, rfl, hc.pc, fun p hp hd => (hc.adv p).trans (if_pos ⟨hp, hd⟩), fun hs hsent => ?sent, fun r hs hr hps => ?held, hk⟩
  case sent => simp only [completeWindows_full hs, postHeld_sent hsent]
  case held => simp only [completeWindows_full hs, task_postHeld_held hr hps]

/-! ## How a firing begins (R101, R105, R108, R112) -/

/-- A PE without a firing whose choice is a READY task with its data begins that task's data firing. -/
theorem exec_dataFiringStart_ready {s : State} {pe k : Nat} (hn : s.noFiring pe = true) (hc : (s.refresh pe).chosen pe = some k)
    (hs : ((s.refresh pe).task pe k).st = .ready) (hd : (s.refresh pe).dataReady pe ((s.refresh pe).task pe k) = true) :
    exec (.dataFiringStart pe) s = .next (((s.refresh pe).noteChoice pe k).beginData pe k) := by
  rw [exec_dataFiringStart, execDataFiringStart]
  simp only [hn, hc, hs, hd]
  rfl

theorem exec_suspendedResume_suspended {s : State} {pe k : Nat} (hn : s.noFiring pe = true) (hc : (s.refresh pe).chosen pe = some k)
    (hs : ((s.refresh pe).task pe k).st = .suspended) :
    exec (.suspendedResume pe) s = .next (((s.refresh pe).noteChoice pe k).setTask pe k
      { ((s.refresh pe).noteChoice pe k).task pe k with st := .firing }) := by
  rw [exec_suspendedResume, execSuspendedResume]
  simp only [hn, hc, hs]
  rfl

/-- A choice that is ready for its marker firing, or has realigned, fires its marker. -/
theorem exec_markerFiring_ready {s : State} {pe k : Nat} (hn : s.noFiring pe = true) (hc : (s.refresh pe).chosen pe = some k)
    (hs : ((s.refresh pe).task pe k).st = .realign ∨
      ((s.refresh pe).task pe k).st = .ready ∧ (s.refresh pe).markerReady pe ((s.refresh pe).task pe k) = true) :
    exec (.markerFiring pe) s = .next (((s.refresh pe).noteChoice pe k).fireMarker pe k) := by
  rw [exec_markerFiring, execMarkerFiring]
  simp only [hn, hc, if_true]
  exact if_pos (by simpa using hs)

/-- A data firing begins at the task's entry, with no return entry, nothing advanced and no arrival pending. -/
theorem task_beginData (s : State) (pe k : Nat) : let t := (s.beginData pe k).task pe k
    t.st = .firing ∧ t.pc = t.entry ∧ t.ret = none ∧ t.advp = {} ∧ t.barp = none := by
  unfold State.beginData
  dsimp only
  rw [task_setTask_same]
  exact ⟨rfl, rfl, rfl, rfl, rfl⟩

/-- A marker firing leaves the task idle, with its loop counters, its record and its pending arrival cleared. -/
theorem task_fireMarker (s : State) (pe k : Nat) : let t := (s.fireMarker pe k).task pe k
    t.st = .idle ∧ t.lc0 = 0 ∧ t.lc1 = 0 ∧ t.lc2 = 0 ∧ t.prec = none ∧ t.barp = none := by
  unfold State.fireMarker
  dsimp only
  rw [task_setTask_same]
  exact ⟨rfl, rfl, rfl, rfl, rfl, rfl⟩

theorem firingsBegin : Claims.FiringsBegin :=
  ⟨fun _ _ _ hn hc hs hd => ⟨_, exec_dataFiringStart_ready hn hc hs hd, rfl, task_beginData ..⟩,
    fun _ _ _ => exec_suspendedResume_suspended,
    fun _ _ _ hn hc hs => ⟨_, exec_markerFiring_ready hn hc hs, rfl, task_fireMarker ..⟩⟩

/-! ## Realignment (R100) -/

theorem realignment : Claims.Realignment := by
  refine ⟨fun pe k s hs hm => ?start, fun pe k p s hp hs hd hc hm => ?discard, fun pe k p s h6 h12 hs hd hr hf => ?emit⟩
  case start =>
    rw [exec_realignStart, execRealignStart]
    exact if_pos (by simp [hs, hm])
  case discard =>
    rw [exec_realignDiscard, execRealignDiscard]
    exact if_pos (by simp [hp, hs, hd, hc, hm])
  case emit =>
    rw [exec_realignPoisonEmit, execRealignPoisonEmit]
    exact if_pos (by simpa [h6, h12, hs, hd, hf] using hr)

/-- Settles O49: each event acts when the conditions of its rule hold, and the task it leaves is read off its last write. -/
theorem firings : Obligations.Firings := ⟨firingsBegin, realignment⟩

end Sys2Proof.Machine
end

section
/-! PROOFS. The fence, the channel instructions and the schedule cursor (spec/03 R109, spec/08 R241, R243 to R247). -/
namespace Sys2Proof.Machine

/-! ## How an instruction ends whose guard is on (R12 to R14, R17) -/

/-- How the frame of an instruction goes on from the end of its body. -/
def Done.outcome (i : Issue) : Done → Out
  | .done t => .next (t.sequence i.pe i.slot (BitVec.ofNat 8 i.spec.op) i.w)
  | .fail c d t => .next (i.failWith t c d)
  | .hold t => .next t

section
variable {i : Instr} {spec : OpSpec} {w : Fields} {body : Issue → Done} {slot : Nat} {s m : State}

theorem runInstr_on (hr : ReadyOn spec w slot s) (body : Issue → Done) :
    runInstr spec w body s = (body (s.at spec w slot)).outcome (s.at spec w slot) := by
  obtain ⟨hr, hg⟩ := hr
  rw [runInstr_ready hr, hg, Bool.not_true, Bool.and_false, if_neg Bool.false_ne_true]
  cases body (s.at spec w slot) <;> rfl

theorem performs_of_done (hx : exec i s = runInstr spec w body s) (hr : ReadyOn spec w slot s)
    (hb : body (s.at spec w slot) = .done m) : Performs i spec.op w slot s m :=
  hx.trans ((runInstr_on hr body).trans (congrArg _ hb))

theorem exec_of_hold (hx : exec i s = runInstr spec w body s) (hr : ReadyOn spec w slot s)
    (hb : body (s.at spec w slot) = .hold m) : exec i s = .next m :=
  hx.trans ((runInstr_on hr body).trans (congrArg _ hb))

theorem performs_of_fail {c d : Nat} (hx : exec i s = runInstr spec w body s) (hr : ReadyOn spec w slot s)
    (hb : body (s.at spec w slot) = .fail c d m) : Performs i spec.op w slot s (m.emit s.cur slot c d) :=
  hx.trans ((runInstr_on hr body).trans (congrArg _ hb))

end

section
variable {c : Fields → Instr} {spec : Fields → OpSpec} {body : Fields → Issue → Done} {cond : Issue → Prop}

theorem completes_of_done {m : Issue → State} (hx : ∀ w s, exec (c w) s = runInstr (spec w) w (body w) s)
    (hb : ∀ i, cond i → body i.w i = .done (m i)) : Completes c spec cond m :=
  fun w _ s hr hc => performs_of_done (hx w s) hr (hb _ hc)

theorem holds_of_hold {m : Issue → State} (hx : ∀ w s, exec (c w) s = runInstr (spec w) w (body w) s)
    (hb : ∀ i, cond i → body i.w i = .hold (m i)) : Holds c spec cond m :=
  fun w _ s hr hc => exec_of_hold (hx w s) hr (hb _ hc)

/-- An operand found illegal while the instruction executes (R188). -/
theorem fails_of_illegal {d : Issue → Nat} {field : Nat} (hx : ∀ w s, exec (c w) s = runInstr (spec w) w (body w) s)
    (hd : ∀ w i, d i = (spec w).op + 256 * field) (hb : ∀ i, cond i → body i.w i = i.illegal field) :
    Fails c spec cond Cause.illegalOperand d := by
  intro w slot s hr hc
  rw [hd w]
  exact performs_of_fail (hx w s) hr (hb _ hc)

end

/-! ## The instructions (R241, R243 to R247) -/

/-- A read that meets no failing word gives the bytes, and corrects the words that can be. -/
theorem poolRead_good {s : State} {core a n : Nat} (h : s.failingWord core a n = none) :
    s.poolRead core a n = (.inl (s.poolBytes core a n), s.correctWords core a n) := by
  rw [State.poolRead, h]

theorem scalarWord_of_lt {v : Nat} (h : v < 2 ^ 64) : scalarWord v = BitVec.ofNat 256 v := by
  rw [scalarWord, Nat.mod_eq_of_lt h]

/-- What `NXTILE` leaves of its slot and its predicate at the end of the schedule (R247). -/
def State.endTiles (s : State) (pe k q : Nat) : State :=
  (s.setSlotOf pe k { payload := 0xFFFF, mark := true, dom := (s.slotOf pe k).dom }).setPredOf pe q 0

theorem predOf_endTiles (s : State) (pe k q : Nat) : (s.endTiles pe k q).predOf pe q = 0 := predOf_setPredOf_same ..

theorem slotOf_endTiles (s : State) (pe k q : Nat) :
    (s.endTiles pe k q).slotOf pe k = { payload := 0xFFFF, mark := true, dom := (s.slotOf pe k).dom } := slotOf_setSlotOf_same s ..

/-- Settles O2: each instruction runs in the frame of `runInstr`, and its conditions choose the branch of its body. -/
theorem channelInstructions : Obligations.ChannelInstructions := by
  refine ⟨completes_of_done exec_fence fun i h => ?fence, holds_of_hold exec_fence fun i h => ?fenceHolds,
    completes_of_done exec_adv fun i h => ?adv, fails_of_illegal exec_adv (fun _ _ => rfl) fun i h => ?advFails,
    completes_of_done exec_emit fun i h => ?emit, fails_of_illegal exec_emit (fun _ _ => rfl) fun i h => ?emitFails,
    completes_of_done exec_emitm fun i h => ?emitm, fails_of_illegal exec_emitm (fun _ _ => rfl) fun i h => ?emitmFails,
    completes_of_done exec_testm fun i h => ?testm, completes_of_done exec_nxtile fun i h => ?tile, ?tilesEnd⟩
  case fence =>
    have hscope : scalarWord (fieldNat 0 3 i.imm) = BitVec.ofNat 256 (fieldNat 0 3 i.imm) :=
      scalarWord_of_lt ((fieldNat_lt ..).trans (by decide))
    refine (if_neg ?_).trans (congrArg (fun v => Done.done (i.putD i.s v)) hscope)
    obtain h | h := h <;> simp [h]
  case fenceHolds => exact if_pos (by simpa using h)
  case adv =>
    obtain ⟨hpos, hmax, hwindow⟩ := h
    dsimp only at hwindow
    exact if_neg (by simp only [Bool.or_eq_true, decide_eq_true_eq]; omega)
  case advFails =>
    dsimp only at h
    exact if_pos (by simp only [Bool.or_eq_true, decide_eq_true_eq]; omega)
  case emit => exact if_neg (Nat.not_le.mpr h)
  case emitFails => exact if_pos h
  case emitm =>
    obtain ⟨hdone, hfree⟩ := h
    exact (if_neg (not_not_intro hdone)).trans (if_neg hfree)
  case emitmFails => exact if_pos h
  case testm =>
    obtain ⟨hroom, hcome⟩ := h
    exact (if_neg (Nat.not_le.mpr hroom)).trans (if_neg (Nat.not_le.mpr hcome))
  case tile =>
    obtain ⟨hn, hf⟩ := h
    refine (if_pos hn).trans ?_
    dsimp only
    rw [poolRead_good]
    · rfl
    · exact hf
  case tilesEnd =>
    intro w slot s hr x k h
    have hp := performs_of_done (m := s.endTiles s.cur k (Issue.predNum w.c)) (exec_nxtile w s) hr (if_neg (Nat.not_lt.mpr h))
    refine ⟨_, hp, predOf_endTiles .., ?_⟩
    rw [slotOf_endTiles]
    exact ⟨rfl, rfl⟩

end Sys2Proof.Machine
end

section
/-! PROOFS. Routes: what a port's choice picks, the move of one token, and its delivery to a PE (spec/03 R97, R98, spec/07 R199 to R203). -/
namespace Sys2Proof.Machine

/-! ## Searches and turns (R200) -/

theorem firstFrom_holds (p : Nat → Bool) {k : Nat} : ∀ n i, firstFrom p i n = some k → p k = true
  | 0, _, h => by cases h
  | n + 1, i, h => by
    rw [firstFrom] at h
    split at h
    case isTrue hi => cases h; exact hi
    case isFalse => exact firstFrom_holds p n (i + 1) h

theorem roundRobin_holds {n last k : Nat} {p : Nat → Bool} (h : roundRobin n last p = some k) : p k = true := by
  obtain ⟨j, hj, rfl⟩ := Option.map_eq_some_iff.mp h
  exact firstFrom_holds (fun k => p ((last + 1 + k) % n)) n 0 hj

/-- A turn over n numbers comes to every one of them. -/
theorem roundRobin_isSome {n last e : Nat} {p : Nat → Bool} (he : e < n) (hp : p e = true) : ∃ k, roundRobin n last p = some k := by
  have hn : 0 < n := Nat.zero_lt_of_lt he
  have hturn : (last + 1 + (e + n - (last + 1) % n) % n) % n = e := by
    have hr := Nat.mod_lt (last + 1) hn
    have hq := Nat.div_add_mod (last + 1) n
    have hsum : last + 1 + (e + n - (last + 1) % n) = e + n * ((last + 1) / n + 1) := by rw [Nat.mul_succ]; omega
    rw [Nat.add_mod_mod, hsum, Nat.add_mul_mod_self_left, Nat.mod_eq_of_lt he]
  have hs : (firstBelow n fun k => p ((last + 1 + k) % n)).isSome = true :=
    (firstBelow_isSome_iff _ _).mpr ⟨_, Nat.mod_lt _ hn, by rw [hturn]; exact hp⟩
  obtain ⟨k, hk⟩ := Option.isSome_iff_exists.mp hs
  exact ⟨_, congrArg (Option.map _) hk⟩

/-! ## The choices (R200, R203) -/

theorem takeChoice_picks {s : State} {r port e : Nat} (h : s.takeChoice r port = some e) :
    (s.route r e).inp = port ∧ s.routeReady r e = true := by simpa using roundRobin_holds h

/-- A port has a choice while a route that enters by it is ready. -/
theorem takeChoice_of_ready {s : State} {r port e : Nat} (he : e < 64) (hr : s.routeReady r e = true) (hp : (s.route r e).inp = port) :
    ∃ e', s.takeChoice r port = some e' ∧ (s.route r e').inp = port ∧ s.routeReady r e' = true := by
  obtain ⟨k, hk⟩ := roundRobin_isSome (last := if port = 4 then s.localOutLast r else s.elemOutLast r)
    (p := fun e => decide ((s.route r e).inp = port) && s.routeReady r e) he (by simp [hp, hr])
  exact ⟨k, hk, takeChoice_picks hk⟩

theorem routeAt_picks {s : State} {r out n e : Nat} (h : s.routeAt r out n = some e) :
    (s.route r e).outp = out ∧ s.routeReady r e = true ∧ s.won r e = true := by
  obtain ⟨⟨⟨ho, -⟩, hr⟩, hw⟩ : ((_ ∧ _) ∧ _) ∧ _ := by simpa using firstFrom_holds _ _ _ h
  exact ⟨ho, hr, hw⟩

theorem routeAt_isSome {s : State} {r out e : Nat} (hout : out < 4) (he : e < 64) (hr : s.routeReady r e = true)
    (ho : (s.route r e).outp = out) (hw : s.won r e = true) : (s.routeAt r out (s.route r e).outvc).isSome = true :=
  (firstBelow_isSome_iff _ _).mpr ⟨e, he, by simp [ho, hout, hr, hw]⟩

/-- A link has a choice while a route to it is ready that its entry has picked. -/
theorem giveChoice_of_ready {s : State} {r out e : Nat} (vc : Nat) (hout : out < 4) (he : e < 64) (hv : (s.route r e).outvc < 4)
    (hr : s.routeReady r e = true) (ho : (s.route r e).outp = out) (hw : s.won r e = true) :
    ∃ e', s.giveChoice r out vc = some e' ∧ (s.route r e').outp = out ∧ s.routeReady r e' = true ∧ s.won r e' = true := by
  obtain ⟨k, hk⟩ := roundRobin_isSome (last := s.linkLast r out) (p := fun vc => (s.routeAt r out vc).isSome) hv
    (routeAt_isSome hout he hr ho hw)
  obtain ⟨e', he'⟩ := Option.isSome_iff_exists.mp (roundRobin_holds hk)
  refine ⟨e', ?_, routeAt_picks he'⟩
  rw [State.giveChoice, if_pos hout, hk]
  exact he'

/-! ## Moving one token (R200 to R203) -/

theorem moveRoute_of_head {s : State} {r e : Nat} {tok : Token} (h : s.inputHead r (s.route r e) = some tok) :
    s.moveRoute r e = ((s.popInput r (s.route r e)).pushOutput r (s.route r e) tok).touch (coreOfRouter r) := by
  rw [State.moveRoute, h]

/-- A route that enters by a link has no choice to win there. -/
theorem won_of_link {s : State} {r e : Nat} (h : (s.route r e).inp < 4) : s.won r e = true := if_neg (by omega)

theorem give_of_won {s : State} {r out n e : Nat} (h : s.giveChoice r out n = some e) (hw : s.won r e = true) :
    s.give r out n = s.serveRoute r e := by
  rw [State.give, h]
  exact if_pos hw

theorem takeIn_of_given {s : State} {r port e : Nat} (h : s.takeChoice r port = some e)
    (hg : s.giveChoice r (s.route r e).outp (s.route r e).outh = some e) : s.takeIn r port = s.serveRoute r e := by
  rw [State.takeIn, h]
  exact if_pos hg

/-- A route that enters by a link turns the choice of its output alone. -/
theorem serveRoute_of_link {s : State} {r e : Nat} (h : (s.route r e).inp < 4) : s.serveRoute r e =
    if (s.route r e).outp < 4 then (s.moveRoute r e).setLinkLast r (s.route r e).outp (s.route r e).outvc
    else if (s.route r e).outp = 4 then (s.moveRoute r e).setLocalInLast r e
    else if (s.route r e).outp = 7 then (s.moveRoute r e).setElemInLast r e else s.moveRoute r e := by
  unfold State.serveRoute
  simp only [show (s.route r e).inp ≠ 4 by omega, show (s.route r e).inp ≠ 7 by omega, if_false]

theorem give_of_link {s : State} {r out n e : Nat} {tok : Token} (hg : s.giveChoice r out n = some e)
    (hh : s.inputHead r (s.route r e) = some tok) (hi : (s.route r e).inp < 4) :
    let t := ((s.popInput r (s.route r e)).pushOutput r (s.route r e) tok).touch (coreOfRouter r)
    s.give r out n =
      if (s.route r e).outp < 4 then t.setLinkLast r (s.route r e).outp (s.route r e).outvc
      else if (s.route r e).outp = 4 then t.setLocalInLast r e
      else if (s.route r e).outp = 7 then t.setElemInLast r e else t := by
  rw [give_of_won hg (won_of_link hi), serveRoute_of_link hi, moveRoute_of_head hh]

theorem routesMove : Claims.RoutesMove := by
  refine ⟨fun r e tok s hg hh hi ho => ?deliver, fun r e tok s ht hg hh hi ho => ?take, fun r e tok s hg hh hi ho => ?intoElement,
    fun r e tok s ht hg hh hi ho => ?outOfElement, fun r out port e tok s hlt hg hh hi ho => ?hop,
    fun r out port e tok s hop hg hh hi ho => ?operator, fun r out port e s hg hw => ?served,
    fun r out vc e s hout he hv hr ho hw => giveChoice_of_ready vc hout he hv hr ho hw,
    fun r port e s _ he hr hp => takeChoice_of_ready he hr hp⟩
  case deliver =>
    rw [exec_localPortDeliver, execLocalPortDeliver, give_of_link hg hh hi, ho]
    rfl
  case intoElement =>
    rw [exec_elementPortTransfer, execElementPortTransfer, if_pos rfl, give_of_link hg hh hi, ho]
    rfl
  case hop => rw [exec_routeHop, execRouteHop, give_of_link hg hh hi, if_pos (ho ▸ hlt), ho]
  case operator =>
    rw [exec_routeHop, execRouteHop, give_of_link hg hh hi, ho]
    obtain rfl | rfl := hop <;> rfl
  case take =>
    rw [exec_localPortTake, execLocalPortTake, takeIn_of_given ht hg, State.serveRoute, moveRoute_of_head hh]
    simp only [hi, ho, if_true]
  case outOfElement =>
    rw [exec_elementPortTransfer, execElementPortTransfer, if_neg Nat.zero_ne_one, takeIn_of_given ht hg, State.serveRoute,
      moveRoute_of_head hh]
    simp only [hi, ho, if_true]
    rfl
  case served => rw [exec_routeHop, execRouteHop, give_of_won hg hw]

/-! ## Delivery to a PE (R97, R98, R199) -/

/-- What the fields take of the number that they are packed into goes, and the fields that follow stay. -/
theorem packFields_append_shiftRight (gs : List (Nat × Nat)) : ∀ fs : List (Nat × Nat),
    packFields (fs ++ gs) >>> (fs.map Prod.fst).sum = packFields gs
  | [] => rfl
  | (n, v) :: fs => by
    have hfirst : packFields ((n, v) :: (fs ++ gs)) >>> n = packFields (fs ++ gs) := by
      rw [packFields, Nat.shiftRight_eq_div_pow, Nat.add_mul_div_left _ _ (Nat.two_pow_pos n),
        Nat.div_eq_of_lt (Nat.mod_lt _ (Nat.two_pow_pos n)), Nat.zero_add]
    rw [List.cons_append, List.map_cons, List.sum_cons, Nat.shiftRight_add, hfirst, packFields_append_shiftRight gs fs]

/-- A packed field is read back where the fields below it end. -/
theorem fieldNat_packFields (fs gs : List (Nat × Nat)) {lo : Nat} (n v : Nat) (h : (fs.map Prod.fst).sum = lo) :
    fieldNat lo n (packFields (fs ++ (n, v) :: gs)) = v % 2 ^ n := by
  rw [← h, fieldNat, packFields_append_shiftRight, packFields, Nat.add_mul_mod_self_left, Nat.mod_mod]

theorem bitsOf_ofNat {w lo n : Nat} (h : lo + n ≤ w) (v : Nat) : bitsOf lo n (BitVec.ofNat w v) = fieldNat lo n v := by
  rw [bitsOf, fieldNat, fieldNat, BitVec.toNat_ofNat]
  apply Nat.eq_of_testBit_eq
  intro k
  simp only [Nat.testBit_mod_two_pow, Nat.testBit_shiftRight]
  by_cases hk : k < n
  · simp [hk, show lo + k < w by omega]
  · simp [hk]

/-- The cause of a record is the one it was made with (R187). -/
theorem recCause_record (s : State) (cause : Nat) (o : Origin) (detail code : Nat) (phase : Option Nat) (h : cause < 256) :
    recCause (s.record cause o detail code phase) = cause := by
  have hf := fieldNat_packFields (lo := 232) [(48, detail), (64, s.cycleOf o.die), (32, phase.getD (s.phaseOf o.die o.dom)), (32, o.disp), (10, o.dom),
    (8, o.tiw), (3, o.task), (4, o.elem), (4, o.core), (4, o.clu), (3, o.die), (4, o.kind), (16, code)] [(8, 0), (8, 1)] 8 cause (by simp)
  rw [recCause, State.record, bitsOf_ofNat (by decide)]
  simp only [List.cons_append, List.nil_append] at hf
  exact hf.trans (Nat.mod_eq_of_lt h)

/-- A token of the PE's domain, or of domain 0, enters as it is. -/
theorem enterPe_own {s : State} {pe h : Nat} {tok : Token} (hd : tok.dom = 0 ∨ tok.dom = s.domOf (coreOfPe pe)) :
    s.enterPe pe h tok = tok := if_pos (by obtain hd | hd := hd <;> simp [Token.foreign, hd])

/-- A token of another domain enters as poison with a PROTECTION record. -/
theorem enterPe_foreign {s : State} {pe h : Nat} {tok u : Token} (hu : u = s.enterPe pe h tok) (h0 : tok.dom ≠ 0)
    (hd : tok.dom ≠ s.domOf (coreOfPe pe)) :
    u.poison = true ∧ u.mark = false ∧ u.dom = s.domOf (coreOfPe pe) ∧ recCause u.payload = Cause.protection := by
  have hf : tok.foreign (s.domOf (coreOfPe pe)) = true := by simp [Token.foreign, h0, hd]
  subst hu
  unfold State.enterPe
  simp only [hf]
  exact ⟨rfl, rfl, rfl, recCause_record _ _ _ _ _ _ (by decide)⟩

/-- The local port gives to its PE what neither a Comet's port nor a Glaze island takes. -/
theorem pushOutput_toPe {s : State} {r : Nat} {t : Route} {tok : Token} (ho : t.outp = 4) (ha : (s.islandAt r t.outvc).attached = false)
    (hg : s.glazeAt r t.outvc = false) : s.pushOutput r t tok = s.deliverPe r t.outh tok := by
  simp only [State.pushOutput, ho, ha, hg]
  rfl

/-- A route from a link to the local port writes its token into the buffer of its handle. -/
theorem moveRoute_toPe {s : State} {r e : Nat} {tok : Token} {ts : List Token} (hi : (s.route r e).inp < 4)
    (ho : (s.route r e).outp = 4) (hl : s.link r (s.route r e).inp (s.route r e).invc = tok :: ts)
    (ha : (s.islandAt r (s.route r e).outvc).attached = false) (hg : s.glazeAt r (s.route r e).outvc = false) :
    s.moveRoute r e =
      ((s.setLink r (s.route r e).inp (s.route r e).invc ts).deliverPe r (s.route r e).outh tok).touch (coreOfRouter r) := by
  have hhead : s.inputHead r (s.route r e) = some tok := by rw [State.inputHead, if_pos hi, hl]; rfl
  have hpop : s.popInput r (s.route r e) = s.setLink r (s.route r e).inp (s.route r e).invc ts := by
    rw [State.popInput, if_pos hi, hl]; rfl
  rw [moveRoute_of_head hhead, hpop, pushOutput_toPe ho (s := s.setLink ..) ha hg]

/-- What the buffer of an input handle holds after a token has entered it. -/
theorem deliverPe_entered (s : State) (pe h : Nat) (tok : Token) :
    ((s.deliverPe pe h tok).handle pe h).cnt = (s.handle pe h).cnt + 1 ∧
    (s.deliverPe pe h tok).slotOf pe ((s.handle pe h).slotAt (s.handle pe h).cnt) = s.enterPe pe h tok := by
  refine ⟨?_, ?_⟩
  · rw [State.deliverPe, handle_setHandle_same]
  · exact slotOf_setSlotOf_same s ..

theorem deliveryToPe : Claims.DeliveryToPe := by
  intro r e tok ts s hc hi ho hl ha hg x
  have hm := moveRoute_toPe hi ho hl ha hg
  obtain ⟨hcnt, hslot⟩ := deliverPe_entered (s.setLink r (s.route r e).inp (s.route r e).invc ts) r (s.route r e).outh tok
  refine ⟨(s.moveRoute r e).setLocalInLast r e, ?_, ?_⟩
  · rw [exec_localPortDeliver, execLocalPortDeliver, give_of_won hc (won_of_link hi), serveRoute_of_link hi, ho]
    rfl
  rw [hm]
  refine ⟨link_setLink_same s .., hcnt, fun hd => hslot.trans (enterPe_own hd), enterPe_foreign hslot, rfl, rfl⟩

/-- Settles O51: the route that wins its choices moves its token, and a route to the local port ends in the PE's input buffer. -/
theorem routes : Obligations.Routes := ⟨routesMove, deliveryToPe⟩

end Sys2Proof.Machine
end

section
/-! PROOFS. What results in the lanes of `FMT`, bitwise results and predicates from lanes write, and the floating-point lanes (spec/05 R159 to R166). -/
namespace Sys2Proof.Machine

/-! ## Results in the lanes of `FMT` (R17, R119) -/

/-- The formats of an opcode that has no lanes narrower than a byte give its lane width. -/
theorem Issue.eight_le_lw_of_check {i : Issue} {fs : List Nat} (hc : i.check = none) (hs : i.spec.fmts = some fs)
    (wide : ∀ f ∈ fs, 8 ≤ fmtWidth f) : 8 ≤ i.lw := wide _ (Issue.fmt_mem_of_check hc hs)

/-- An instruction whose effect, where it passes the checks, is a result in the lanes of `FMT`. -/
theorem writesLanes_perLane {c : Fields → Instr} {spec : Fields → OpSpec} {eff : Fields → Issue → Eff} {f : Issue → Nat → Nat}
    {fs : List Nat} (hx : ∀ w s, exec (c w) s = runUnit (spec w) w (eff w) s)
    (he : ∀ w i, i.w = w → i.spec = spec w → i.check = none → eff w i = i.perLane (f i) := by exact fun _ _ _ _ _ => rfl)
    (hs : ∀ w, (spec w).perLane = true ∧ (spec w).d = .dst ∧ (spec w).fmts = some fs := by exact fun _ => ⟨rfl, rfl, rfl⟩)
    (wide : ∀ f ∈ fs, 8 ≤ fmtWidth f := by decide) : WritesLanes c spec Issue.lw f := by
  intro w slot s hr
  obtain ⟨hl, hd, hf⟩ := hs w
  have ⟨_, hc, _⟩ := hr
  have hp := performs_apply (hx w s) hr (.inl hl)
  rw [he w (s.at (spec w) w slot) rfl rfl hc] at hp
  exact ⟨_, hp, Issue.lanes_written _ (.inl hd) (Issue.posOk_d_of_check hc) (Issue.eight_le_lw_of_check hc hf wide)⟩

/-- A lane of a format, or the byte of one narrower than a byte, divides the word. -/
theorem max_fmtWidth_dvd (f : Nat) : Nat.max (fmtWidth f) 8 * (256 / Nat.max (fmtWidth f) 8) = 256 := by
  unfold fmtWidth
  split <;> rfl

/-- A bitwise result is what R17 and R119 say: the enabled lanes of `D` are new, the others stay. -/
theorem Issue.bitwise_written {i : Issue} (v : Word) (hd : i.spec.d = .dst ∨ i.spec.d = .regOnly)
    (hp : i.posOk i.spec.d i.w.d i.offD = true) :
    i.OnlyD (i.apply i.s (i.bitwise v)) ∧ i.Bits (i.apply i.s (i.bitwise v)) (fun n => v.getLsbD n) ∧
      (i.Masked i.lw → i.apply i.s (i.bitwise v) = i.s) := by
  cases hl : i.someLane i.lw with
  | true =>
    have he : i.apply i.s (i.bitwise v) = i.putD i.s (guardMerge i.lw i.guard i.oldD v) := by rw [Issue.bitwise, hl]; rfl
    rw [he]
    refine ⟨putD_only .., fun hz n hn => ?_, fun hm => ?_⟩
    · rw [putD_destIn i _ hd hp hz]
      exact getLsbD_guardMerge _ _ _ (max_fmtWidth_dvd i.fmt) hn
    · rw [Issue.masked_iff, hl] at hm; cases hm
  | false =>
    have he : i.apply i.s (i.bitwise v) = i.s := by rw [Issue.bitwise, hl]; rfl
    have hm := (i.masked_iff i.lw).mpr hl
    rw [he]
    refine ⟨i.onlyD_self, fun _ n hn => ?_, fun _ => rfl⟩
    have hk : n / Nat.max i.lw 8 < 256 / Nat.max i.lw 8 :=
      Nat.div_lt_div_of_lt_of_dvd ⟨_, (max_fmtWidth_dvd i.fmt).symm⟩ hn
    rw [hm _ hk]
    rfl

/-- An instruction whose effect is a bitwise result. -/
theorem writesBits_of_runUnit {c : Fields → Instr} {spec : Fields → OpSpec} {v : Issue → Word} {f : Issue → Nat → Bool}
    (hx : ∀ w s, exec (c w) s = runUnit (spec w) w (fun i => i.bitwise (v i)) s)
    (hl : ∀ w, (spec w).perLane = true) (hd : ∀ w, (spec w).d = .dst ∨ (spec w).d = .regOnly)
    (hv : ∀ i n, n < 256 → (v i).getLsbD n = f i n) : WritesBits c spec f := by
  intro w slot s hr
  have ⟨_, hc, _⟩ := hr
  obtain ⟨honly, hbits, hmask⟩ := Issue.bitwise_written (v (s.at (spec w) w slot)) (hd w) (Issue.posOk_d_of_check hc)
  refine ⟨_, performs_apply (hx w s) hr (.inl (hl w)), honly, fun hz n hn => ?_, hmask⟩
  rw [← hv _ n hn]
  exact hbits hz n hn

/-- An instruction whose effect is a predicate from the lanes of `FMT` (R118). -/
theorem writesPred_of_lanes {c : Fields → Instr} {spec : Fields → OpSpec} {f : Issue → Nat → Bool}
    (hx : ∀ w s, exec (c w) s = runUnit (spec w) w (fun i => { pred := some (i.predLanes i.w.d (f i)) }) s)
    (hl : ∀ w, (spec w).perLane = true) : WritesPred c spec (fun x => x.laneBit x.w.d (f x)) :=
  writesPred_of_runUnit hx hl fun _ _ _ _ _ hk => getLsbD_lanePred _ _ _ hk

/-! ## Floating-point lanes (R159 to R166) -/

/-- Adding the top bit in n + 1 bits turns that bit over. -/
theorem add_twoPow_mod_eq_xor (a n : Nat) (h : a < 2 ^ (n + 1)) : (a + 2 ^ n) % 2 ^ (n + 1) = a ^^^ 2 ^ n := by
  apply Nat.eq_of_testBit_eq
  intro j
  rw [Nat.testBit_mod_two_pow, Nat.testBit_xor, Nat.testBit_two_pow, Nat.add_comm a]
  obtain hj | rfl | hj := Nat.lt_trichotomy j n
  · rw [Nat.testBit_two_pow_add_gt hj]; simp [hj.ne', Nat.lt_succ_of_lt hj]
  · rw [Nat.testBit_two_pow_add_eq]; simp
  · rw [Nat.testBit_lt_two_pow (h.trans_le (Nat.pow_le_pow_right (by decide) hj))]
    simp [hj.ne, Nat.not_lt.mpr (Nat.succ_le_of_lt hj)]

/-- A floating-point format is a sign bit above exponent and fraction (R63). -/
theorem fmtWidth_eq_ffmt {f : Nat} (h : f ∈ floatFmts) : fmtWidth f = (ffmt f).ew + (ffmt f).fw + 1 :=
  (by decide : ∀ f ∈ floatFmts, fmtWidth f = (ffmt f).ew + (ffmt f).fw + 1) f h

/-- `FNEG` turns the sign bit of a lane over (R161). -/
theorem Issue.add_signBit_mod {i : Issue} (hf : i.fmt ∈ floatFmts) (k : Nat) :
    (i.a k + i.ff.signBit) % 2 ^ i.lw = i.a k ^^^ i.ff.signBit := by
  have hw : i.lw = i.ff.ew + i.ff.fw + 1 := fmtWidth_eq_ffmt hf
  have ha : i.a k < 2 ^ i.lw := laneOf_lt ..
  rw [hw] at ha ⊢
  exact add_twoPow_mod_eq_xor _ _ ha

theorem floatArithmetic : Claims.FloatArithmetic :=
  ⟨writesLanes_perLane exec_fadd, writesLanes_perLane exec_fsub, writesLanes_perLane exec_fmul, writesLanes_perLane exec_fma,
    writesLanes_perLane exec_fms, writesLanes_perLane exec_fnma, writesLanes_perLane exec_fnms, writesLanes_perLane exec_fdiv,
    writesLanes_perLane exec_fscaleb⟩

theorem floatSelection : Claims.FloatSelection := by
  refine ⟨writesLanes_perLane exec_fmin, writesLanes_perLane exec_fmax, writesLanes_perLane exec_fminn,
    writesLanes_perLane exec_fmaxn, writesLanes_perLane exec_fabs, writesLanes_perLane exec_fneg fun w i _ hs hc => ?neg,
    writesLanes_perLane exec_fcpys, writesPred_of_lanes exec_fcmp fun _ => rfl, writesLanes_perLane exec_fclass,
    writesLanes_perLane exec_frint, writesLanes_perLane exec_fgetexp,
    writesLanes_of_runUnit exec_fdot (fun _ => rfl) (fun _ => .inl rfl) fun _ _ _ _ => by decide⟩
  case neg =>
    have hf : i.fmt ∈ floatFmts := Issue.fmt_mem_of_check hc (by rw [hs]; rfl)
    exact congrArg i.perLane (funext fun k => Issue.add_signBit_mod hf k)

/-- Settles O43: the effect of each instruction is its lanes of `FMT`, the predicate from them, or the f32 lanes of `FDOT`. -/
theorem floatLanes : Obligations.FloatLanes := ⟨floatArithmetic, floatSelection⟩

end Sys2Proof.Machine
end

section
/-! PROOFS. Reductions, scans and lane movement (spec/05 R167 to R175). -/
namespace Sys2Proof.Machine

/-! ## Sums and counts over lanes -/

/-- A sum taken in rising order is the sum of the list. -/
theorem foldUp_add (n : Nat) (g : Nat → Int) : (foldUp n 0 fun z k => z + g k) = ((List.range n).map g).sum :=
  foldUp_induct (P := fun n z => z = ((List.range n).map g).sum) rfl fun k z hz => by
    rw [hz, List.range_succ, List.map_append, List.sum_append, List.map_singleton, List.sum_singleton]

/-- A disabled lane adds nothing to the sum of R167. -/
theorem Issue.redSum_eq_sum (i : Issue) (n : Nat) :
    i.redSum n = ((List.range n).map fun k => if i.guard.getLsbD k then i.ai k else 0).sum := by
  rw [← foldUp_add, Issue.redSum]
  congr 1
  funext z k
  split
  · rfl
  · exact (Int.add_zero z).symm

theorem countBelow_eq_length (p : Nat → Bool) : ∀ n, countBelow p n = ((List.range n).filter p).length
  | 0 => rfl
  | n + 1 => by
    rw [countBelow, countBelow_eq_length p n, List.range_succ, List.filter_append, List.length_append, List.filter_singleton]
    cases p n <;> rfl

/-! ## Reductions and scans (R167 to R169) -/

theorem reductions : Claims.Reductions := by
  refine ⟨writesWord_of_runUnit exec_vred (fun _ => rfl) (fun _ => .inl rfl) fun i => ?vred,
    writesLanes_perLane exec_vscan fun w i _ _ _ => ?vscan⟩
  case vred | vscan => simp only [Issue.redSum_eq_sum]

/-! ## Lane movement (R170, R171, R173 to R175) -/

/-- A bit of `VSEL` is that of `A` where `C` has a one, and that of `B` elsewhere. -/
theorem getLsbD_select (a b c : Word) {n : Nat} (hn : n < 256) :
    ((a &&& c) ||| (b &&& ~~~c)).getLsbD n = if c.getLsbD n then a.getLsbD n else b.getLsbD n := by
  rw [BitVec.getLsbD_or, BitVec.getLsbD_and, BitVec.getLsbD_and, BitVec.getLsbD_not, decide_eq_true hn]
  cases c.getLsbD n <;> simp

theorem laneMovement : Claims.LaneMovement := by
  refine ⟨writesLanes_perLane exec_vperm, writesLanes_perLane exec_vshuf fun w i _ _ _ => ?shuffle, writesLanes_perLane exec_vbcast,
    writesBits_of_runUnit exec_vsel (fun _ => rfl) (fun _ => .inl rfl) fun i n => getLsbD_select _ _ _,
    writesLanes_perLane exec_vins, writesLanes_perLane exec_vext, writesLanes_perLane exec_vcmpr, writesLanes_perLane exec_vexpd,
    writesLanes_perLane exec_vzip, writesLanes_perLane exec_vunzip, writesLanes_perLane exec_vsort,
    writesLanes_perLane exec_viota fun w i _ _ _ => ?iota, writesPred_of_lanes exec_vmask fun _ => rfl⟩
  case shuffle =>
    refine congrArg i.perLane (funext fun k => ?_)
    rw [Nat.mul_comm]
  case iota => exact congrArg i.perLane (funext fun k => countBelow_eq_length _ k)

/-! ## Rotations (R172) -/

/-- A rotation by L - n mod L undoes one by n. -/
theorem rotate_back {k L : Nat} (n : Nat) (hk : k < L) : ((k + n) % L + (L - n % L)) % L = k := by
  have hn := Nat.mod_lt n (Nat.zero_lt_of_lt hk)
  have hq := Nat.div_add_mod n L
  have hsum : k + n + (L - n % L) = k + L * (n / L + 1) := by rw [Nat.mul_succ]; omega
  rw [Nat.mod_add_mod, hsum, Nat.add_mul_mod_self_left, Nat.mod_eq_of_lt hk]

/-- The lane that `VROT` takes lane k from. -/
def Issue.rotFrom (i : Issue) (k : Nat) : Nat := (k + (i.ln - i.sb % i.ln)) % i.ln

theorem Issue.rotFrom_rotated (i : Issue) {k : Nat} (hk : k < i.ln) : i.rotFrom ((k + i.sb) % i.ln) = k := rotate_back _ hk

/-- Unless `D` and `A` are both predicates, `VROT` rotates the lanes of a word. -/
theorem exec_vrot_word {w : Fields} (h : ∀ q p, opnd w.d = .pred q → opnd w.a ≠ .pred p) (s : State) :
    exec (.vrot w) s = runUnit (rotSpec false) w (fun i => i.perLane fun k => i.a (i.rotFrom k)) s := by
  rw [exec_vrot, execVrot]
  split
  case h_1 q p hd ha => exact absurd ha (h q p hd)
  case h_2 => rfl

/-- Where `D` and `A` are both predicates, `VROT` rotates the bits of the predicate. -/
theorem exec_vrot_pred {w : Fields} {q p : Nat} (hd : opnd w.d = .pred q) (ha : opnd w.a = .pred p) (s : State) :
    exec (.vrot w) s = runUnit (rotSpec true) w
      (fun i => { pred := some (i.predLanes i.w.d fun k => (i.predVal i.w.a).getLsbD (i.rotFrom k)) }) s := by
  rw [exec_vrot, execVrot, hd, ha]
  rfl

/-- The lane count of a format of `VROT` is at most that of a predicate. -/
theorem Issue.ln_le_of_check {i : Issue} (hc : i.check = none) (hs : i.spec.fmts = some permFmts) : i.ln ≤ 32 :=
  (by decide : ∀ f ∈ permFmts, fmtLanes f ≤ 32) _ (Issue.fmt_mem_of_check hc hs)

theorem Issue.ln_pos (i : Issue) : 0 < i.ln := Nat.pos_of_mul_pos_left (a := i.lw) ((fmtWidth_dvd i.fmt).symm ▸ (by decide : 0 < 256))

/-- A word whose lanes are rotated holds lane k in lane (k + n) mod L. -/
theorem Issue.Lanes.rotated {i : Issue} {m : State} (h : i.Lanes i.lw m fun k => i.a (i.rotFrom k)) (hz : opnd i.w.d ≠ .zero) {k : Nat}
    (hk : k < i.ln) (hg : i.guard.getLsbD ((k + i.sb) % i.ln) = true) :
    laneOf i.lw ((k + i.sb) % i.ln) (i.destIn m) = i.a k := by
  rw [h hz ((k + i.sb) % i.ln) (Nat.mod_lt _ i.ln_pos), if_pos hg]
  exact (congrArg (i.a · % 2 ^ i.lw) (i.rotFrom_rotated hk)).trans (Nat.mod_eq_of_lt (laneOf_lt ..))

/-- The predicate that an effect from the lanes of `FMT` leaves (R118). -/
theorem Issue.getLsbD_apply_predLanes (i : Issue) {b : BitVec 8} {q : Nat} (hq : Issue.predNum b = q) (f : Nat → Bool) {k : Nat}
    (hk : k < 32) : ((i.apply i.s { pred := some (i.predLanes b f) }).predOf i.pe q).getLsbD k = i.laneBit b f k := by
  subst hq
  exact (congrArg (BitVec.getLsbD · k) (predOf_setPredOf_same ..)).trans (getLsbD_lanePred _ _ _ hk)

theorem Issue.laneBit_of_ln_le (i : Issue) (b : BitVec 8) (f : Nat → Bool) {k : Nat} (hk : i.ln ≤ k) : i.laneBit b f k = false := by
  rw [Issue.laneBit, decide_eq_false (Nat.not_lt.mpr hk), Bool.false_and]

/-- A predicate whose bits are rotated holds bit k in bit (k + n) mod L. -/
theorem Issue.laneBit_rotated (i : Issue) (b : BitVec 8) (v : Pred) {k : Nat} (hk : k < i.ln)
    (hg : i.guard.getLsbD ((k + i.sb) % i.ln) = true) :
    i.laneBit b (fun k => v.getLsbD (i.rotFrom k)) ((k + i.sb) % i.ln) = v.getLsbD k := by
  rw [Issue.laneBit, decide_eq_true (Nat.mod_lt _ i.ln_pos), Bool.true_and, if_pos hg, i.rotFrom_rotated hk]

theorem rotations : Claims.Rotations := by
  refine ⟨fun w slot s h hr => ?word, fun w slot s q p hd ha hr => ?pred⟩
  case word =>
    have ⟨_, hc, _⟩ := hr
    have hp := performs_apply (exec_vrot_word h s) hr (.inl rfl)
    obtain ⟨honly, hlanes, -⟩ := Issue.lanes_written
      (fun k => (s.at (rotSpec false) w slot).a ((s.at (rotSpec false) w slot).rotFrom k)) (.inl rfl) (Issue.posOk_d_of_check hc)
      (Issue.eight_le_lw_of_check hc rfl (by decide))
    exact ⟨_, hp, honly, fun hz k hk hg => hlanes.rotated hz hk hg⟩
  case pred =>
    have ⟨_, hc, _⟩ := hr
    have hp := performs_apply (exec_vrot_pred hd ha s) hr (.inl rfl)
    have hq : Issue.predNum w.d = q := by rw [Issue.predNum, hd]
    have hv : (s.at (rotSpec true) w slot).predVal w.a = s.predOf s.cur p := by rw [Issue.predVal, Issue.predNum, ha]
    rw [hv] at hp
    have hbit := fun k => (s.at (rotSpec true) w slot).getLsbD_apply_predLanes hq
      (fun k => (s.predOf s.cur p).getLsbD ((s.at (rotSpec true) w slot).rotFrom k)) (k := k)
    refine ⟨_, hp, hq ▸ Issue.onlyQ_putPred .., fun k hk => ?_, fun k hk hg => ?_⟩
    · by_cases h32 : k < 32
      · exact (hbit k h32).trans (Issue.laneBit_of_ln_le _ _ _ hk)
      · exact BitVec.getLsbD_of_ge _ _ (Nat.not_lt.mp h32)
    · refine (hbit _ ?_).trans (Issue.laneBit_rotated _ _ _ hk hg)
      exact (Nat.mod_lt _ (Issue.ln_pos _)).trans_le (Issue.ln_le_of_check hc rfl)

/-- Settles O44: the sum of the enabled lanes is that of the list, and a rotation takes lane (k + n) mod L from lane k. -/
theorem lanesMove : Obligations.LanesMove := ⟨reductions, laneMovement, rotations⟩

end Sys2Proof.Machine
end

section
/-! PROOFS. Conversions between formats and packed trits (spec/05 R177 to R184). -/
namespace Sys2Proof.Machine

/-! ## Conversions (R177 to R182) -/

theorem conversions : Claims.Conversions := by
  refine ⟨writesLanes_perLane exec_cvt fun w i hw _ _ => ?cvt, writesLanes_perLane exec_cvtfi, writesLanes_perLane exec_cvtif,
    writesLanes_perLane exec_lgenc, writesLanes_perLane exec_lgdec, writesLanes_perLane exec_lgmul⟩
  -- whether `CVT` converts integers is read from the fields that issue
  case cvt => subst hw; rfl

/-! ## Packed trits (R183, R184) -/

/-- A trit of `T5UNPK`: digit t mod 5 of byte t / 5, less one. -/
def t5Lane (i : Issue) (j : Nat) : Nat :=
  wrapTo i.lw ((t5Digit (byteOf i.tritsA ((i.ln * cvtPart i.imm + j) / 5)) ((i.ln * cvtPart i.imm + j) % 5) : Int) - 1)

/-- `T5UNPK` emits T5_RESERVED for a reserved byte, and writes its trits where there is none. -/
theorem exec_t5unpk_eq (w : Fields) (s : State) : exec (.t5unpk w) s = runUnit (t5Spec 0x87) w (fun i =>
    (t5Reserved i).elim (i.perLane (t5Lane i)) fun b => { poison := some (Cause.t5Reserved, b, 0) }) s := by
  rw [exec_t5unpk, execT5unpk, ← t5Spec]
  congr 1
  funext i
  dsimp only
  split
  case h_1 b hb => rw [show t5Reserved i = some b from hb]; rfl
  case h_2 hb => rw [show t5Reserved i = none from hb]; rfl

/-- Digit of trit t of the word that `T5PACK` writes: the sign of an enabled lane, or the digit that `D` held. -/
def t5Packed (i : Issue) (t : Nat) : Nat :=
  if i.ln * cvtPart i.imm ≤ t ∧ t < i.ln * cvtPart i.imm + i.ln ∧ i.guard.getLsbD (t - i.ln * cvtPart i.imm) = true then
    (if i.ai (t - i.ln * cvtPart i.imm) < 0 then 0 else if i.ai (t - i.ln * cvtPart i.imm) = 0 then 1 else 2)
  else t5Old i.oldD t

/-- The five digits of a byte of `T5PACK`, written out. -/
theorem foldUp_digits (d : Nat → Nat) (b : Nat) : (foldUp 5 0 fun n k => n + d (5 * b + k) * 3 ^ k) =
    d (5 * b) + d (5 * b + 1) * 3 + d (5 * b + 2) * 9 + d (5 * b + 3) * 27 + d (5 * b + 4) * 81 := by
  simp [foldUp, foldUpFrom]

theorem trits : Claims.Trits := by
  refine ⟨fun w slot s hr hb => ?unpack, fun w slot s b hr hb => ?reserved,
    writesWord_of_runUnit exec_t5pack (fun _ => rfl) (fun _ => .inl rfl) fun i => ?pack⟩
  case unpack =>
    have ⟨_, hc, _⟩ := hr
    have hp := performs_apply (exec_t5unpk_eq w s) hr (.inl rfl)
    rw [hb] at hp
    obtain ⟨honly, hlanes, -⟩ := Issue.lanes_written (t5Lane (s.at (t5Spec 0x87) w slot)) (.inl rfl) (Issue.posOk_d_of_check hc)
      (Issue.eight_le_lw_of_check hc rfl (by decide))
    exact ⟨_, hp, honly, hlanes⟩
  case reserved =>
    have hp := performs_apply (exec_t5unpk_eq w s) hr (.inl rfl)
    rw [hb] at hp
    exact hp
  case pack =>
    rw [BitVec.ofNat_toNat, BitVec.setWidth_eq]
    exact congrArg (mkWord 8 32) (funext fun b => foldUp_digits (t5Packed i) b)

/-- Settles O45: the lanes of a conversion pair up as R177 says, and `T5UNPK` writes its trits unless a byte of theirs is reserved. -/
theorem formatsConvert : Obligations.FormatsConvert := ⟨conversions, trits⟩

end Sys2Proof.Machine
end

section
/-! PROOFS. Poison records: their fields, the taint of a task, and poison in place of a token (spec/06 R187, R189 to R191). -/
namespace Sys2Proof.Machine

/-! ## The fields of a record (R187) -/

/-- A packed field is read back from a word, by its place in the list. -/
theorem bitsOf_packFields {w lo n v : Nat} {fs : List (Nat × Nat)} {k : Nat} (hk : fs[k]? = some (n, v))
    (hlo : ((fs.map Prod.fst).take k).sum = lo) (hw : lo + n ≤ w) :
    bitsOf lo n (BitVec.ofNat w (packFields fs)) = v % 2 ^ n := by
  obtain ⟨hlt, he⟩ := List.getElem?_eq_some_iff.mp hk
  have hs : fs = fs.take k ++ (n, v) :: fs.drop (k + 1) := by rw [← he, List.getElem_cons_drop, List.take_append_drop]
  have hf := fieldNat_packFields (fs.take k) (fs.drop (k + 1)) n v (List.map_take ▸ hlo)
  rw [← hs] at hf
  rw [bitsOf_ofNat hw, hf]

/-- The widths of a poison record's fields, the lowest first. -/
def recordWidths : List Nat := [48, 64, 32, 32, 10, 8, 3, 4, 4, 4, 3, 4, 16, 8, 8, 8]

/-- What a poison record packs, the lowest field first. -/
def State.recordFields (s : State) (cause : Nat) (o : Origin) (detail code : Nat) (phase : Option Nat) : List (Nat × Nat) :=
  [(48, detail), (64, s.cycleOf o.die), (32, phase.getD (s.phaseOf o.die o.dom)), (32, o.disp), (10, o.dom), (8, o.tiw), (3, o.task),
   (4, o.elem), (4, o.core), (4, o.clu), (3, o.die), (4, o.kind), (16, code), (8, cause), (8, 0), (8, 1)]

/-- A field of a poison record, by its place, holds the value packed there. -/
theorem bitsOf_record {s : State} {cause : Nat} {o : Origin} {detail code : Nat} {phase : Option Nat} {lo n v x : Nat} (k : Nat)
    (hx : v % 2 ^ n = x) (hk : (s.recordFields cause o detail code phase)[k]? = some (n, v) := by rfl)
    (hlo : (recordWidths.take k).sum = lo := by decide) (hw : lo + n ≤ 256 := by decide) :
    bitsOf lo n (s.record cause o detail code phase) = x :=
  (bitsOf_packFields hk hlo hw).trans hx

theorem cycleOf_lt (s : State) (die : Nat) : s.cycleOf die < 2 ^ 64 := Nat.mod_lt _ (Nat.two_pow_pos 64)

/-- The record that an instruction of a task raises. -/
theorem fields_taskRecord (pe slot : Nat) (pc : BitVec 8) (c d code : Nat) (s : State) (hc : c < 256) (hd : d < 2 ^ 48) (hpe : pe < 32768)
    (hslot : slot < 8) (hcode : code < 2 ^ 16) :
    let r := s.taskRecord pe slot pc c d code
    recCause r = c ∧ recDetail r = d ∧ recNsup r = 0 ∧ bitsOf 248 8 r = 1 ∧ bitsOf 216 16 r = code ∧ bitsOf 212 4 r = 0 ∧
    recDie r = pe / 4096 ∧ bitsOf 205 4 r = pe / 256 % 16 ∧ bitsOf 201 4 r = pe / 16 % 16 ∧ bitsOf 197 4 r = pe % 16 ∧
    bitsOf 194 3 r = slot ∧ bitsOf 186 8 r = pc.toNat ∧ recStamp r = s.cycleOf (pe / 4096) := by
  have hdie : dieOfCore (coreOfPe pe) = pe / 4096 := by rw [dieOfCore, coreOfPe, Nat.div_div_eq_div_mul]
  have hclu : coreOfPe pe / 16 = pe / 256 := by rw [coreOfPe, Nat.div_div_eq_div_mul]
  refine ⟨bitsOf_record 13 (Nat.mod_eq_of_lt hc), bitsOf_record 0 (Nat.mod_eq_of_lt hd), bitsOf_record 14 rfl, bitsOf_record 15 rfl,
    bitsOf_record 12 (Nat.mod_eq_of_lt hcode), bitsOf_record 11 rfl, bitsOf_record 10 ?die, bitsOf_record 9 ?clu,
    bitsOf_record 8 (Nat.mod_mod ..), bitsOf_record 7 (Nat.mod_mod ..), bitsOf_record 6 (Nat.mod_eq_of_lt hslot),
    bitsOf_record 5 (Nat.mod_eq_of_lt pc.isLt), bitsOf_record 1 ?stamp⟩
  case die => exact (Nat.mod_eq_of_lt (hdie.trans_lt (by omega))).trans hdie
  case clu => exact (Nat.mod_mod ..).trans (congrArg (· % 16) hclu)
  case stamp => exact (Nat.mod_eq_of_lt (cycleOf_lt ..)).trans (congrArg s.cycleOf hdie)

/-! ## Later records are counted in the first (R189) -/

theorem Task.taint_of_clean {t : Task} (h : t.prec = none) (r : Word) : t.taint r = { t with prec := some r, ps := false } := by
  rw [Task.taint, h]

theorem Task.taint_of_tainted {t : Task} {p : Word} (h : t.prec = some p) (r : Word) : t.taint r = { t with prec := some (bumpNsup p) } := by
  rw [Task.taint, h]

/-- Emitting poison taints the task and no more of it. -/
theorem task_emit (s : State) (pe slot c d code : Nat) :
    (s.emit pe slot c d code).task pe slot = (s.task pe slot).taint (s.taskRecord pe slot (s.task pe slot).pc c d code) := task_setTask_same ..

/-- Counting a record saturates at 255 and touches no other field. -/
theorem fields_bumpNsup (p : Word) : recNsup (bumpNsup p) = Nat.min 255 (recNsup p + 1) ∧ bitsOf 0 240 (bumpNsup p) = bitsOf 0 240 p ∧
    bitsOf 248 8 (bumpNsup p) = bitsOf 248 8 p := by
  have hp := p.isLt
  have hfield : ∀ (v : Word) lo n, bitsOf lo n v = v.toNat / 2 ^ lo % 2 ^ n := fun v lo n => by
    rw [bitsOf, fieldNat, Nat.shiftRight_eq_div_pow]
  unfold bumpNsup
  split
  case isTrue h =>
    rw [recNsup, hfield] at h
    have hsum : (p + 1 <<< 240).toNat = p.toNat + 2 ^ 240 := by
      rw [BitVec.toNat_add, show (1 <<< 240 : Word).toNat = 2 ^ 240 by decide]
      omega
    simp only [recNsup, hfield, hsum]
    refine ⟨?_, ?_, ?_⟩
    · show _ = min 255 _
      omega
    · omega
    · omega
  case isFalse h =>
    have hlt : recNsup p < 256 := fieldNat_lt ..
    refine ⟨?_, rfl, rfl⟩
    show _ = min 255 _
    omega

/-! ## Poison in place of a token (R190, R191) -/

theorem publishWindow1_tainted {s : State} {pe slot : Nat} {r : Word} (h : (s.task pe slot).prec = some r) (hd : Nat) :
    s.publishWindow1 pe slot hd = (s.setTask pe slot { s.task pe slot with ps := true }).publishPoison pe slot hd r := by
  unfold State.publishWindow1
  simp only [h]

/-- A published poison token stands in the first slot not yet published, and the buffer holds one more. -/
theorem publishPoison_entered (s : State) (pe slot h : Nat) (r : Word) :
    (s.publishPoison pe slot h r).slotOf pe ((s.handle pe h).slotAt 0) = { payload := r, poison := true, dom := s.domOf (coreOfPe pe) } ∧
    ((s.publishPoison pe slot h r).handle pe h).cnt = (s.handle pe h).cnt + 1 :=
  ⟨slotOf_setSlotOf_same s .., congrArg Handle.cnt (Map.find_put_same ..)⟩

/-- Settles O37, by the place of each field in the record, by how a task is tainted, and by what a tainted task publishes. -/
theorem poisonRecords : Obligations.PoisonRecords := by
  refine ⟨fields_taskRecord, fun pe slot c d code s h => ?first, fun pe slot c d code p s h => ?later, fields_bumpNsup,
    fun pe slot h r s hr => ?token⟩
  case first => rw [task_emit, Task.taint_of_clean h]
  case later => rw [task_emit, Task.taint_of_tainted h]
  case token =>
    obtain ⟨hslot, hcnt⟩ := publishPoison_entered (s.setTask pe slot { s.task pe slot with ps := true }) pe slot h r
    rw [publishWindow1_tainted hr]
    refine ⟨hslot, hcnt, ?_⟩
    rw [task_publishPoison, task_setTask_same]
    rfl

end Sys2Proof.Machine
end

section
/-! PROOFS. Glaze islands, address generators and timing detectors (spec/06 R195, R196, spec/09 R254 to R259, spec/10 R269 to R271). -/
namespace Sys2Proof.Machine

/-! ## The pipeline of a Glaze island (R256) -/

/-- The cycles that pass move the pipeline and nothing else of the island. -/
theorem Glaze.flow_eq (g : Glaze) (now : Nat) : g.flow now = { g with pipe := (g.flow now).pipe, pipeAt := (g.flow now).pipeAt } := by
  unfold Glaze.flow
  split <;> rfl

/-- While the output is free the oldest token moves on by a stage in a cycle, up to stage 4. -/
theorem Glaze.flow_head {g : Glaze} {t : Token} {a : Nat} {ts : List (Token × Nat)} (hp : g.pipe = (t, a) :: ts) (ho : g.out = none) (now : Nat) :
    (g.flow now).pipe.head? = some (t, a + Nat.min (now - g.pipeAt) (3 - a)) := by
  unfold Glaze.flow
  rw [hp]
  simp [ho]

/-! ## What leaves an island (R258, R259) -/

theorem glazeResult_unchanged {t : Token} (h : t.mark = true ∨ t.poison = true) (s : State) (core : Nat) : s.glazeResult core t = t := by
  obtain h | h := h <;> simp [State.glazeResult, h]

theorem glazeResult_data {t : Token} (hm : t.mark = false) (hp : t.poison = false) (s : State) (core : Nat) :
    s.glazeResult core t = s.glazeBad core { payload := (s.glaze core).decode t.payload, dom := s.domOf core } := by
  simp [State.glazeResult, hm, hp]

theorem glazeBad_sound {s : State} {core : Nat} (hb : (s.glaze core).bads = []) (t : Token) : s.glazeBad core t = t := by
  simp [State.glazeBad, hb]

/-- After a parity failure a data token leaves as poison that names the number whose bits failed first. -/
theorem glazeBad_failed {s : State} {core k : Nat} {ks : List Nat} {t : Token} (hb : (s.glaze core).bads = k :: ks) (hm : t.mark = false)
    (hp : t.poison = false) :
    s.glazeBad core t = { payload := s.record Cause.poolUe (s.coreOrigin 4 core 0) k, poison := true, dom := s.domOf core } := by
  simp [State.glazeBad, hb, hm, hp]

/-- The head of the input enters a free stage 1. -/
theorem exec_glazeAccept_free {s : State} {core : Nat} {t : Token} {ts : List Token} (hu : (s.glaze core).inUse = true)
    (hp : ∀ x ∈ ((s.glaze core).flow s.now).pipe, x.2 ≠ 0) (hq : (s.glaze core).inq = t :: ts) :
    let g := (s.glaze core).flow s.now
    exec (.glazeAccept core) s = .next ((s.setGlaze core { g with inq := ts, pipe := g.pipe ++ [(t, 0)] }).touch core) := by
  have hq' : ((s.glaze core).flow s.now).inq = t :: ts := by rw [Glaze.flow_eq]; exact hq
  have hg : (((s.glaze core).flow s.now).inUse && ((s.glaze core).flow s.now).pipe.all fun x => x.2 ≠ 0) = true := by
    rw [Bool.and_eq_true]
    refine ⟨?_, by simpa using hp⟩
    rw [Glaze.flow_eq]
    exact hu
  rw [exec_glazeAccept, execGlazeAccept]
  simp only [hq', hg, if_true]

/-- The token in stage 4 goes out to a free buffer, and the others advance. -/
theorem exec_glazeOutput_stage4 {s : State} {core : Nat} {t : Token} {ts : List (Token × Nat)}
    (hp : ((s.glaze core).flow s.now).pipe = (t, 3) :: ts) (ho : (s.glaze core).out = none) :
    let g := (s.glaze core).flow s.now
    exec (.glazeOutput core) s = .next ((s.setGlaze core { g with
      pipe := ts.map fun x => (x.1, x.2 + 1), pipeAt := g.pipeAt + 1, out := some (s.glazeResult core t) }).touch core) := by
  have hout : ((s.glaze core).flow s.now).out = none := by rw [Glaze.flow_eq]; exact ho
  rw [exec_glazeOutput, execGlazeOutput]
  simp only [hp, hout]
  rfl

/-! ## Address generators (R269 to R271) -/

/-- A generator that waits for triggers takes the next one: an own data token begins a sweep, an own marker or poison token goes out if the
output buffer is empty. -/
theorem exec_agenTrigger_own {s : State} {n : Nat} {t : Token} {ts : List Token} (hv : (s.agen n).valid = true)
    (he : (s.info (n / 4)).enabled = true) (hg : (s.agen n).gate ≠ 2) (ht : (s.agen n).trig = true) (hst : (s.agen n).st = .idle)
    (hq : (s.agen n).trigq = t :: ts) (hd : t.dom = 0 ∨ t.dom = s.domOf (n / 4)) :
    exec (.agenTrigger n) s =
      if t.mark || t.poison then
        if (s.agen n).out.isNone then .next (s.agenPut n { s.agen n with trigq := ts } t) else .next s
      else .next ((s.setAgen n { s.agen n with trigq := ts, st := .sweep 0 0 0 0 (t.payload.setWidth 64) }).touch (n / 4)) := by
  have hf : t.foreign (s.domOf (n / 4)) = false := by obtain hd | hd := hd <;> simp [Token.foreign, hd]
  rw [exec_agenTrigger, execAgenTrigger]
  simp [hv, he, hg, ht, hst, hq, hf]

/-- An open or armed generator emits a data token, or an open one a marker, and its gate stays. -/
theorem agenPut_keeps_gate {g : Agen} {t : Token} (h : t.mark = false ∨ g.gate = 0) (s : State) (n : Nat) :
    s.agenPut n g t =
      (s.setAgen n { g with out := some { t with dom := s.domOf (n / 4) } }).touch (n / 4) := by
  have hg : (t.mark && g.gate = 1) = false := by obtain h | h := h <;> simp [h]
  rw [State.agenPut, hg]
  rfl

/-! ## Timing detectors (R195, R196) -/

/-- An event goes to a ring of the hub and nowhere else. -/
theorem logEvent_eq (s : State) (ring code payload dom origin : Nat) (always : Bool) :
    s.logEvent ring code payload dom origin always = { s with hub := (s.logEvent ring code payload dom origin always).hub } := by
  unfold State.logEvent
  dsimp only
  split <;> rfl

theorem exec_timingDetectorFlag_pe (pe : Nat) (s : State) :
    ∃ h, exec (.timingDetectorFlag 0 pe) s = .next { s.setPeDetector pe ((s.peDetector pe).flag s.now) with hub := h } := by
  rw [exec_timingDetectorFlag]
  unfold execTimingDetectorFlag
  dsimp only
  cases (s.peDetector pe).event s.now
  case none => exact ⟨_, rfl⟩
  case some e => exact ⟨_, congrArg _ (logEvent_eq ..)⟩

theorem exec_timingDetectorFlag_bank (b : Nat) (s : State) :
    ∃ h, exec (.timingDetectorFlag 1 b) s = .next { s.setBankDetector b ((s.bankDetector b).flag s.now) with hub := h } := by
  rw [exec_timingDetectorFlag]
  unfold execTimingDetectorFlag
  dsimp only
  cases (s.bankDetector b).event s.now
  case none => exact ⟨_, rfl⟩
  case some e => exact ⟨_, congrArg _ (logEvent_eq ..)⟩

theorem exec_timingDetectorFlag_kiln (k : Nat) (s : State) :
    ∃ h, exec (.timingDetectorFlag 2 k) s = .next { s.setKilnDetector k ((s.kilnDetector k).flag s.now) with hub := h } := by
  rw [exec_timingDetectorFlag]
  unfold execTimingDetectorFlag
  dsimp only
  cases (s.kilnDetector k).event s.now
  case none => exact ⟨_, rfl⟩
  case some e => exact ⟨_, congrArg _ (logEvent_eq ..)⟩

/-- The third flag decides half-rate by the first of the three. -/
theorem Detector.flag_third {d : Detector} {n₁ n₂ : Nat} (h : d.flags = [n₁, n₂]) (n : Nat) :
    d.flag n = { flags := [n, n₁], half := d.half || decide (n ≤ n₂ + 2 ^ 20) } := by
  rw [Detector.flag, h]
  rfl

/-- Settles O8, unit by unit. -/
theorem islandsAndGenerators : Obligations.IslandsAndGenerators := by
  refine ⟨?accept, ?output, ?flow, ?sweep, ?trigger, ?pass, ?emit, ?arm, fun pe s => ?pe, fun b s => ?bank, fun k s => ?kiln,
    fun d n₁ n₂ n h => ?third⟩
  case accept =>
    exact fun c t ts s => exec_glazeAccept_free
  case output =>
    intro c t ts s hp ho g
    refine ⟨_, exec_glazeOutput_stage4 hp ho, fun h => glazeResult_unchanged h s c, fun hm hn hb => ?_, fun k ks hm hn hb hk => ?_⟩
    · rw [glazeResult_data hm hn, glazeBad_sound hb]
    · rw [glazeResult_data hm hn, glazeBad_failed hb rfl rfl]
      exact ⟨rfl, bitsOf_record 13 rfl, bitsOf_record 0 (Nat.mod_eq_of_lt hk), rfl⟩
  case flow =>
    intro g t a ts now hp ho hnow ha
    have hmin : a + Nat.min (now - g.pipeAt) (3 - a) = 3 := by
      change a + min (now - g.pipeAt) (3 - a) = 3
      omega
    rw [Glaze.flow_head hp ho, hmin]
  case sweep =>
    intro n s hv he hg ht hs hst
    rw [exec_agenSweepStart, execAgenSweepStart]
    simp [hv, he, hg, ht, hs, hst]
  case trigger =>
    intro n t ts s hv he hg ht hst hq hd hm hp
    rw [exec_agenTrigger_own hv he hg ht hst hq hd, hm, hp]
    rfl
  case pass =>
    intro n t ts s hv he hg ht hst hq hd hmp ho
    rw [exec_agenTrigger_own hv he (by omega) ht hst hq hd, if_pos (by simpa using hmp), if_pos (by rw [ho]; rfl)]
    exact congrArg _ (agenPut_keeps_gate (g := { s.agen n with trigq := ts }) (.inr hg) s n)
  case emit =>
    intro n i0 i1 i2 i3 off s ho hst
    rw [exec_agenEmit, execAgenEmit]
    simp only [ho, hst, Bool.not_true, Bool.false_eq_true, if_false]
    exact congrArg _ (agenPut_keeps_gate (.inl rfl) s n)
  case arm =>
    intro n s hst hv hg
    rw [exec_agenGatingRequest, execAgenGatingRequest, if_pos hst]
    simp [Agen.arm, hv, hg]
  case pe =>
    obtain ⟨h, he⟩ := exec_timingDetectorFlag_pe pe s
    exact ⟨_, he, peDetector_setPeDetector_same .., rfl, rfl, rfl, rfl⟩
  case bank =>
    obtain ⟨h, he⟩ := exec_timingDetectorFlag_bank b s
    exact ⟨_, he, bankDetector_setBankDetector_same .., rfl, rfl, rfl⟩
  case kiln =>
    obtain ⟨h, he⟩ := exec_timingDetectorFlag_kiln k s
    exact ⟨_, he, kilnDetector_setKilnDetector_same .., rfl, rfl, rfl⟩
  case third =>
    rw [Detector.flag_third h]
    exact ⟨rfl, by simp⟩

end Sys2Proof.Machine
end

section
/-! PROOFS. A register whose parity fails: replay from the operand log, RF_PARITY, and damage (spec/06 R193). -/
namespace Sys2Proof.Machine

/-! ## The registers that an instruction reads -/

theorem Issue.regCount_le (i : Issue) : i.regCount ≤ 64 := by
  unfold Issue.regCount
  split <;> decide

/-- A register in a position of an instruction that passes the checks is one that the PE can have. -/
theorem Issue.reg_lt_of_posOk {i : Issue} {p : Pos} {b : BitVec 8} {off n : Nat} (h : i.posOk p b off = true) (hu : p.used = true)
    (hn : opnd b = .reg n) : n < 64 := by
  have hc := i.regCount_le
  simp only [Issue.posOk, hu, hn, Bool.not_true, Bool.false_or, Bool.and_eq_true, decide_eq_true_eq] at h
  omega

/-- The register, if it is one, that a used position names. -/
def posReg (p : Pos) (b : BitVec 8) : List Nat :=
  if p.used then (match opnd b with | .reg n => [n] | _ => []) else []

theorem Issue.lt_of_mem_posReg {i : Issue} {p : Pos} {b : BitVec 8} {off n : Nat} (h : i.posOk p b off = true) (hn : n ∈ posReg p b) :
    n < 64 := by
  unfold posReg at hn
  split at hn
  case isTrue hu =>
    split at hn
    case h_1 m hm => exact i.reg_lt_of_posOk h hu (List.mem_singleton.mp hn ▸ hm)
    case h_2 => cases hn
  case isFalse => cases hn

theorem Issue.regsRead_eq (i : Issue) : i.regsRead =
    (if i.spec.readsD then posReg i.spec.d i.w.d else []) ++ posReg i.spec.a i.w.a ++ posReg i.spec.b i.w.b ++ posReg i.spec.c i.w.c := rfl

theorem Issue.lt_of_mem_regsRead {i : Issue} {n : Nat} (hc : i.check = none) (hn : n ∈ i.regsRead) : n < 64 := by
  obtain ⟨-, -, -, hd, ha, hb, hc, -⟩ := i.badField_eq_none_iff.mp (i.badField_of_check hc)
  rw [Issue.regsRead_eq] at hn
  simp only [List.mem_append] at hn
  obtain ((hn | hn) | hn) | hn := hn
  · split at hn
    · exact i.lt_of_mem_posReg hd hn
    · cases hn
  · exact i.lt_of_mem_posReg ha hn
  · exact i.lt_of_mem_posReg hb hn
  · exact i.lt_of_mem_posReg hc hn

/-- One damaged register among those that an instruction reads is the lowest. -/
theorem lowestDamaged_one {s : State} {pe n : Nat} {ns : List Nat} (hn : n ∈ ns) (hlt : n < 64) (hd : s.damagedReg pe n = true)
    (ho : ∀ k ∈ ns, k ≠ n → s.damagedReg pe k = false) : lowestDamaged s pe ns = some n := by
  have hsome : (lowestDamaged s pe ns).isSome = true := (firstBelow_isSome_iff ..).mpr ⟨n, hlt, by simp [hn, hd]⟩
  obtain ⟨k, hk⟩ := Option.isSome_iff_exists.mp hsome
  have hp := firstFrom_holds _ _ _ hk
  simp only [Bool.and_eq_true, List.contains_iff_mem] at hp
  have hkn : k = n := by
    by_contra hne
    exact Bool.false_ne_true ((ho k hp.1 hne).symm.trans hp.2)
  rw [hk, hkn]

/-! ## Repairing one register -/

/-- What the event of a PE leaves: only the hub takes it. -/
theorem peEvent_eq (s : State) (pe code slot tiw : Nat) (always : Bool) :
    s.peEvent pe code slot tiw always = { s with hub := (s.peEvent pe code slot tiw always).hub } := logEvent_eq ..

@[simp] theorem unit_peEvent (s : State) (pe code slot tiw : Nat) (always : Bool) : (s.peEvent pe code slot tiw always).unit = s.unit := by
  rw [peEvent_eq]

@[simp] theorem badReg_peEvent (s : State) (pe code slot tiw : Nat) (always : Bool) (pe' n : Nat) :
    (s.peEvent pe code slot tiw always).badReg pe' n = s.badReg pe' n := by rw [peEvent_eq]; rfl

@[simp] theorem damagedReg_peEvent (s : State) (pe code slot tiw : Nat) (always : Bool) (pe' n : Nat) :
    (s.peEvent pe code slot tiw always).damagedReg pe' n = s.damagedReg pe' n := by rw [peEvent_eq]; rfl

theorem Issue.repair_kept {i : Issue} {s : State} {n : Nat} (h : s.badReg i.pe n = false ∨ s.damagedReg i.pe n = true) :
    i.repair s n = s := by
  obtain h | h := h <;> simp [Issue.repair, h]

/-- A register whose last value stands in the operand log is rewritten from it. -/
theorem Issue.repair_logged {i : Issue} {s : State} {n m : Nat} {v : Word} (hb : s.badReg i.pe n = true) (hd : s.damagedReg i.pe n = false)
    (hl : (s.oplog i.pe).find? (fun e => e.1 = n) = some (m, v)) :
    i.repair s n = ((s.setReg i.pe n v).setBadReg i.pe n false).peEvent i.pe 0x2001 i.slot i.task.pc.toNat false := by
  simp [Issue.repair, hb, hd, hl]

/-- One that the operand log no longer holds becomes damaged. -/
theorem Issue.repair_unlogged {i : Issue} {s : State} {n : Nat} (hb : s.badReg i.pe n = true) (hd : s.damagedReg i.pe n = false)
    (hl : (s.oplog i.pe).find? (fun e => e.1 = n) = none) :
    i.repair s n = ((s.setDamagedReg i.pe n true).setBadReg i.pe n false).peEvent i.pe 0x2002 i.slot i.task.pc.toNat true := by
  simp only [Issue.repair, hb, hd, hl]
  rfl

theorem Issue.foldl_repair_kept {i : Issue} {t : State} : ∀ ns : List Nat, (∀ k ∈ ns, i.repair t k = t) → ns.foldl i.repair t = t
  | [], _ => rfl
  | k :: ns, h => by
    rw [List.foldl_cons, h k List.mem_cons_self]
    exact Issue.foldl_repair_kept ns fun j hj => h j (List.mem_cons_of_mem k hj)

/-- Where one register alone is repaired, the registers are repaired once. -/
theorem Issue.foldl_repair_one {i : Issue} {s t : State} {n : Nat} (ht : i.repair s n = t) : ∀ ns : List Nat, n ∈ ns →
    (∀ k ∈ ns, k ≠ n → i.repair s k = s) → (∀ k ∈ ns, i.repair t k = t) → ns.foldl i.repair s = t
  | k :: ns, hn, hs, hk => by
    have hk' : ∀ j ∈ ns, i.repair t j = t := fun j hj => hk j (List.mem_cons_of_mem k hj)
    rw [List.foldl_cons]
    by_cases he : k = n
    · rw [he, ht, Issue.foldl_repair_kept ns hk']
    · rw [hs k List.mem_cons_self he]
      exact Issue.foldl_repair_one ht ns ((List.mem_cons.mp hn).resolve_left (Ne.symm he))
        (fun j hj => hs j (List.mem_cons_of_mem k hj)) hk'

/-! ## An instruction that reads an upset register -/

/-- The instruction passes the checks and has not yet sent a request; of the registers that it reads no other than n is upset. -/
abbrev ReadsUpset (spec : OpSpec) (w : Fields) (slot n : Nat) (s : State) : Prop :=
  s.firingSlot s.cur = some slot ∧ (s.task s.cur slot).wait = .none ∧ (s.at spec w slot).check = none ∧ n ∈ (s.at spec w slot).regsRead ∧
    ∀ k ∈ (s.at spec w slot).regsRead, k ≠ n → s.badReg s.cur k = false ∧ s.damagedReg s.cur k = false

/-- The per-opcode checks read neither the PEs nor the hub. -/
structure OpSpec.Steady (spec : OpSpec) : Prop where
  prot : ∀ (s : State) u h k, spec.prot { s with unit := u, hub := h } k = spec.prot s k
  xok : ∀ (s : State) u h w k, spec.xok { s with unit := u, hub := h } w k = spec.xok s w k

/-- What registers hold, and whether they are upset, plays no part in the checks. -/
theorem OpSpec.Steady.check_eq {spec : OpSpec} (hs : spec.Steady) (s : State) (w : Fields) (slot : Nat) (r : Map Word) (b d : Map Bool)
    (h : HubState) : (State.at { s with unit := { s.unit with regs := r, badRegs := b, damaged := d }, hub := h } spec w slot).check =
      (s.at spec w slot).check := by
  unfold Issue.check Issue.barred Issue.badField
  dsimp only
  rw [hs.prot, hs.xok]
  rfl

section
variable {spec : OpSpec} {w : Fields} {slot n : Nat} {s t : State}

/-- A damaged register, or one that has just become damaged, makes the instruction emit RF_PARITY. -/
theorem runInstr_damaged (hf : s.firingSlot s.cur = some slot) (hw : (s.task s.cur slot).wait = .none) (hc : (s.at spec w slot).check = none)
    (ht : (s.at spec w slot).regsRead.foldl (s.at spec w slot).repair s = t)
    (hd : lowestDamaged t s.cur (s.at spec w slot).regsRead = some n) (body : Issue → Done) :
    runInstr spec w body s = .next ((s.at spec w slot).failWith t Cause.rfParity n) := by
  have hw' : (s.at spec w slot).task.wait = .none := hw
  unfold runInstr
  simp only [hf, hc, hw', if_true, ht, hd]

/-- An instruction whose registers have been repaired runs as it does where they were sound. -/
theorem runInstr_repaired (hf : s.firingSlot s.cur = some slot) (hw : (s.task s.cur slot).wait = .none)
    (hc : (s.at spec w slot).check = none) (ht : (s.at spec w slot).regsRead.foldl (s.at spec w slot).repair s = t) (hr : Ready spec w slot t)
    (hcur : t.cur = s.cur) (body : Issue → Done) : runInstr spec w body s = runInstr spec w body t := by
  have hw' : (s.at spec w slot).task.wait = .none := hw
  have hd : lowestDamaged t s.cur (s.at spec w slot).regsRead = none :=
    lowestDamaged_sound t s.cur _ fun k hk => hcur ▸ (hr.2.2 k hk).2
  have hat : t.at spec w slot = { s.at spec w slot with s := t } := by rw [State.at, hcur]
  rw [runInstr_ready hr, hat, hcur]
  unfold runInstr
  simp only [hf, hc, hw', if_true, ht, hd] <;> rfl

variable {c : Fields → Instr} {body : Fields → Issue → Done}

/-- A register whose parity fails and that stands in the operand log is rewritten from it, and the instruction runs again. -/
theorem exec_of_logged (hx : ∀ w s, exec (c w) s = runInstr spec w (body w) s) (hs : spec.Steady) (w : Fields) (slot n m : Nat) (v : Word)
    (s : State) (hr : ReadsUpset spec w slot n s) (hb : s.badReg s.cur n = true) (hd : s.damagedReg s.cur n = false)
    (hl : (s.oplog s.cur).find? (fun e => e.1 = n) = some (m, v)) :
    exec (c w) s = exec (c w)
      (((s.setReg s.cur n v).setBadReg s.cur n false).peEvent s.cur 0x2001 slot (s.task s.cur slot).pc.toNat false) := by
  obtain ⟨hf, hw, hc, hn, ho⟩ := hr
  set t := ((s.setReg s.cur n v).setBadReg s.cur n false).peEvent s.cur 0x2001 slot (s.task s.cur slot).pc.toNat false with ht
  have hrep : (s.at spec w slot).repair s n = t := Issue.repair_logged hb hd hl
  have hcur : t.cur = s.cur := by rw [ht, peEvent_eq]; rfl
  have hfire : t.firingSlot s.cur = some slot := by rw [ht, peEvent_eq]; exact hf
  have hcheck : (t.at spec w slot).check = none := by
    rw [ht, peEvent_eq]
    exact (hs.check_eq s w slot ..).trans hc
  have hsound : ∀ k ∈ (s.at spec w slot).regsRead, t.badReg s.cur k = false ∧ t.damagedReg s.cur k = false := by
    intro k hk
    rw [ht, badReg_peEvent, damagedReg_peEvent]
    by_cases he : k = n
    · subst he
      exact ⟨badReg_setBadReg_same .., hd⟩
    · rw [badReg_setBadReg_other _ _ _ _ _ _ (by omega)]
      exact ho k hk he
  rw [hx, hx]
  refine runInstr_repaired hf hw hc ?_ ⟨hcur ▸ hfire, hcheck, hcur ▸ hsound⟩ hcur _
  exact Issue.foldl_repair_one hrep _ hn (fun k hk he => Issue.repair_kept (.inl (ho k hk he).1))
    fun k hk => Issue.repair_kept (.inl (hsound k hk).1)

/-- A register whose parity fails and that the operand log does not hold becomes damaged, and the instruction emits RF_PARITY. -/
theorem performs_of_unlogged (hx : ∀ w s, exec (c w) s = runInstr spec w (body w) s) (w : Fields) (slot n : Nat) (s : State)
    (hr : ReadsUpset spec w slot n s) (hb : s.badReg s.cur n = true) (hd : s.damagedReg s.cur n = false)
    (hl : (s.oplog s.cur).find? (fun e => e.1 = n) = none) :
    Performs (c w) spec.op w slot s
      ((((s.setDamagedReg s.cur n true).setBadReg s.cur n false).peEvent s.cur 0x2002 slot (s.task s.cur slot).pc.toNat true).emit
        s.cur slot Cause.rfParity n) := by
  obtain ⟨hf, hw, hc, hn, ho⟩ := hr
  set t := ((s.setDamagedReg s.cur n true).setBadReg s.cur n false).peEvent s.cur 0x2002 slot (s.task s.cur slot).pc.toNat true with ht
  have hrep : (s.at spec w slot).repair s n = t := Issue.repair_unlogged hb hd hl
  have hdn : t.damagedReg s.cur n = true := by rw [ht, damagedReg_peEvent]; exact damagedReg_setDamagedReg_same s ..
  have hother : ∀ k ∈ (s.at spec w slot).regsRead, k ≠ n → t.badReg s.cur k = false ∧ t.damagedReg s.cur k = false := by
    intro k hk he
    rw [ht, badReg_peEvent, damagedReg_peEvent, badReg_setBadReg_other _ _ _ _ _ _ (by omega)]
    exact ⟨(ho k hk he).1, (damagedReg_setDamagedReg_other s _ _ _ _ _ (by omega)).trans (ho k hk he).2⟩
  have hkept : ∀ k ∈ (s.at spec w slot).regsRead, (s.at spec w slot).repair t k = t := by
    intro k hk
    by_cases he : k = n
    · exact Issue.repair_kept (.inr (he ▸ hdn))
    · exact Issue.repair_kept (.inl (hother k hk he).1)
  have hfold := Issue.foldl_repair_one hrep _ hn (fun k hk he => Issue.repair_kept (.inl (ho k hk he).1)) hkept
  unfold Performs
  rw [hx, runInstr_damaged hf hw hc hfold (lowestDamaged_one hn (Issue.lt_of_mem_regsRead hc hn) hdn fun k hk he => (hother k hk he).2)]
  rfl

/-- A damaged register makes the instruction emit RF_PARITY. -/
theorem performs_of_damaged (hx : ∀ w s, exec (c w) s = runInstr spec w (body w) s) (w : Fields) (slot n : Nat) (s : State)
    (hr : ReadsUpset spec w slot n s) (hd : s.damagedReg s.cur n = true) : Performs (c w) spec.op w slot s (s.emit s.cur slot Cause.rfParity n) := by
  obtain ⟨hf, hw, hc, hn, ho⟩ := hr
  have hkept : ∀ k ∈ (s.at spec w slot).regsRead, (s.at spec w slot).repair s k = s := by
    intro k hk
    by_cases he : k = n
    · exact Issue.repair_kept (.inr (he ▸ hd))
    · exact Issue.repair_kept (.inl (ho k hk he).1)
  unfold Performs
  rw [hx, runInstr_damaged hf hw hc (Issue.foldl_repair_kept _ hkept)
    (lowestDamaged_one hn (Issue.lt_of_mem_regsRead hc hn) hd fun k hk he => (ho k hk he).2)]
  rfl

end

/-! ## A write clears the damage -/

/-- A register write marks the register sound when it covers every guard lane, and the log begins with it. -/
theorem writeReg_marks (s : State) (pe n : Nat) (v : Word) (full : Bool) :
    (s.writeReg pe n v full).damagedReg pe n = (if full then false else s.damagedReg pe n) ∧
    ((s.writeReg pe n v full).oplog pe).head? = some (n, v) := by
  have hlog : (((s.setReg pe n v).setOplog pe (((n, v) :: s.oplog pe).take 16)).oplog pe).head? = some (n, v) := by
    rw [oplog_setOplog_same]
    rfl
  cases full
  · exact ⟨rfl, hlog⟩
  · exact ⟨damagedReg_setDamagedReg_same .., hlog⟩

theorem mov_marks {w : Fields} {slot n : Nat} {s : State} (hr : Ready (spec1 0x01 (List.range 15)) w slot s) (hn : opnd w.d = .reg n)
    (hm : ¬(s.at (spec1 0x01 (List.range 15)) w slot).Masked (s.at (spec1 0x01 (List.range 15)) w slot).lw) :
    ∃ m, Performs (.mov w) 0x01 w slot s m ∧
      m.damagedReg s.cur n =
        (if (s.at (spec1 0x01 (List.range 15)) w slot).guard = 0xFFFFFFFF then false else s.damagedReg s.cur n) ∧
      (m.oplog s.cur).head? = some (n, m.reg s.cur n) := by
  set i := s.at (spec1 0x01 (List.range 15)) w slot with hi
  have hl : i.someLane i.lw = true := by rwa [Issue.masked_iff, Bool.not_eq_false] at hm
  have he : i.apply s (i.perLane i.a) = s.writeReg s.cur n (i.lanesOf i.lw i.a) (decide (i.guard = 0xFFFFFFFF)) := by
    have hfull : (decide (i.guard = 0xFFFFFFFF) || !i.spec.perLane || i.spec.wholeD) = decide (i.guard = 0xFFFFFFFF) := by
      rw [hi]; simp [spec1]
    rw [Issue.perLane, Issue.lanes, hl]
    show i.putD s _ = _
    rw [Issue.putD, show opnd i.w.d = .reg n from hn]
    dsimp only
    rw [hfull]
  have hp := performs_apply (eff := fun i => i.perLane i.a) (exec_mov w s) hr (.inl rfl)
  rw [he] at hp
  obtain ⟨hdam, hlog⟩ := writeReg_marks s s.cur n (i.lanesOf i.lw i.a) (decide (i.guard = 0xFFFFFFFF))
  refine ⟨_, hp, ?_, ?_⟩
  · simpa using hdam
  · rw [hlog, writeReg_reg]

/-- An instruction that acts on its PE alone runs in the frame of `runInstr`. -/
theorem exec_eq_runInstr {c : Fields → Instr} {spec : OpSpec} {eff : Fields → Issue → Eff}
    (hx : ∀ w s, exec (c w) s = runUnit spec w (eff w) s) :
    ∀ w s, exec (c w) s = runInstr spec w (fun i => .done (i.apply i.s (eff w i))) s := hx

/-- Settles O36: each of the four instructions runs in the frame of `runInstr`, which repairs what an instruction reads before its body runs. -/
theorem registerParity : Obligations.RegisterParity := by
  have hmov := exec_eq_runInstr exec_mov
  have hmad := exec_eq_runInstr exec_mad
  have hldih := exec_eq_runInstr exec_ldih
  refine ⟨⟨exec_of_logged hmov ?_, performs_of_unlogged hmov, performs_of_damaged hmov⟩,
    ⟨exec_of_logged hmad ?_, performs_of_unlogged hmad, performs_of_damaged hmad⟩,
    ⟨exec_of_logged hldih ?_, performs_of_unlogged hldih, performs_of_damaged hldih⟩,
    ⟨exec_of_logged exec_st ?_, performs_of_unlogged exec_st, performs_of_damaged exec_st⟩, fun w slot n s => mov_marks⟩
  -- the checks of `ST` read its node, those of the others nothing
  all_goals exact ⟨fun _ _ _ _ => rfl, fun _ _ _ _ _ => rfl⟩

end Sys2Proof.Machine
end

section
/-! PROOFS. Saves, commits and phases (spec/13 R377, R384 to R387, spec/14 R412, spec/15 R423, R431), and the hub's queue writer
(spec/14 R407, R414, R415, spec/16 R474). -/
namespace Sys2Proof.Machine

/-! ## Saving a part, and committing it -/

/-- A part's state is that of its dispatch, as its die sees it. -/
theorem partIn_of_dispOfPart {s : State} {p : Part} {d : Disp} (h : s.dispOfPart p = some d) (st : DispSt) :
    s.partIn p st = decide (d.st = st) := by
  rw [State.partIn, h]
  rfl

/-- A part whose pools can be read writes its record and posts SAVED. -/
theorem writeRecord_readable {s t : State} {p : Part} {accs : List (List Byte)} (hr : p.reported = false)
    (ha : s.readAccs p.cores = (.inl accs, t)) (off : Nat) : s.writeRecord p off =
      ((t.memStore p.dom p.dom p.disp ((t.ctx p.dom).savea.toNat + off) (t.saveRecord p accs)).setPart { p with saved := true }).post
        (.saved p.die p.dom p.disp) := by
  rw [State.writeRecord, hr]
  simp only [ha, Bool.false_eq_true, if_false]

section
variable {s : State} {die dom disp : Nat} {p : Part} {d : Disp}

/-- The test with which `SAVE_RECORD_WRITE` begins, for a part that is to be saved. -/
theorem unsaved_of_dispOfPart (hd : s.dispOfPart p = some d) (hst : d.st = .saved) (hs : p.saved = false) :
    (!s.partIn p .saved || p.saved) = false := by
  rw [partIn_of_dispOfPart hd, hst, hs]
  rfl

theorem exec_saveRecordWrite_restartable (hp : s.partOf die dom disp = some p) (hd : s.dispOfPart p = some d) (hst : d.st = .saved)
    (hs : p.saved = false) (hrst : d.entry.rst = true) :
    exec (.saveRecordWrite die dom disp) s = .next (((s.discardStaged p).setPart { p with saved := true }).post (.saved die dom disp)) := by
  rw [exec_saveRecordWrite, execSaveRecordWrite]
  simp only [hp, unsaved_of_dispOfPart hd hst hs, hd, Option.elim_some, hrst, if_true, Bool.false_eq_true, if_false]

theorem exec_saveRecordWrite_granted {k off : Nat} (hp : s.partOf die dom disp = some p) (hd : s.dispOfPart p = some d) (hst : d.st = .saved)
    (hs : p.saved = false) (hrst : d.entry.rst = false) (hg : p.grant = some (k, off)) :
    exec (.saveRecordWrite die dom disp) s = .next (s.writeRecord p off) := by
  rw [exec_saveRecordWrite, execSaveRecordWrite]
  simp only [hp, unsaved_of_dispOfPart hd hst hs, hd, Option.elim_some, hrst, hg, Bool.false_eq_true, if_false]

/-- A direct part without room asks for it once. -/
theorem exec_saveRecordWrite_asks (hp : s.partOf die dom disp = some p) (hd : s.dispOfPart p = some d) (hst : d.st = .saved)
    (hs : p.saved = false) (hrst : d.entry.rst = false) (hg : p.grant = none) (ha : p.asked = false) :
    let t := s.setPart { p with asked := true }
    exec (.saveRecordWrite die dom disp) s = .next { t with hub := { t.hub with
      saveReqs := t.hub.saveReqs ++ [{ die, dom, disp, len := t.recordLength p }] } } := by
  rw [exec_saveRecordWrite, execSaveRecordWrite]
  simp only [hp, unsaved_of_dispOfPart hd hst hs, hd, Option.elim_some, hrst, hg, ha, Bool.false_eq_true, if_false]

end

/-- A draining part whose exchange lines have all been acknowledged posts COMMITTED. -/
theorem exec_commitWrite_acknowledged {s t : State} {die dom disp : Nat} {p : Part} {d : Disp} (hp : s.partOf die dom disp = some p)
    (hd : s.dispOfPart p = some d) (hst : d.st = .draining) (hc : p.committed = false) (hw : d.entry.wheel = false)
    (ht : t = (s.commitLines die (s.cluster.stage.filter fun l =>
      decide (l.dom = dom) && decide (l.disp = disp) && decide (l.cluster / 16 = die))).discardStaged p) (ho : t.commitOut p = false) :
    exec (.commitWrite die dom disp) s =
      .next ((t.setPart { p with committed := true }).post (.committed die dom disp (t.dieOf die).applied)) := by
  subst ht
  rw [exec_commitWrite, execCommitWrite]
  simp only [hp, hd, hst, hc, hw, ho]
  rfl

/-! ## Ending a phase (R384, R423, R457) -/

/-- Where no link hold has just ended, `EXCHANGE_STEP` announces an ended phase once, and then ends its step, unless a hold of a context of a
function stops it. -/
theorem exec_exchangeStep_ended {s : State} {c : Sched} {dom : Nat} (hv : s.hubView = some c) (hr : s.hub.released = false)
    (he : c.phaseEnded dom (c.ctx dom).phase = true) :
    exec (.exchangeStep dom) s =
      if s.hub.exch.contains (dom, (c.ctx dom).phase) then
        if s.hub.holdAt.isSome && dom ≠ 0 then .next s else .next (s.exchangeEnd c dom (c.ctx dom).phase)
      else .next (({ s with hub := { s.hub with exch := s.hub.exch ++ [(dom, (c.ctx dom).phase)] } } : State).sendBody
        (.phase dom (c.ctx dom).phase)) := by
  rw [exec_exchangeStep, execExchangeStep]
  simp only [hv, hr, he, Bool.false_eq_true, if_false, Bool.not_true]
  cases s.hub.exch.contains (dom, (c.ctx dom).phase) <;> rfl

theorem exec_exchangeStep_released {s : State} {c : Sched} {dom : Nat} (hv : s.hubView = some c) (hr : s.hub.released = true) :
    exec (.exchangeStep dom) s = .next (s.runHeld c) := by
  rw [exec_exchangeStep, execExchangeStep]
  simp only [hv, hr, if_true]

theorem savesAndPhases : Claims.SavesAndPhases := by
  refine ⟨?allocate, ?record, ?ask, ?restart, ?commit, ?histogram, ?announce, ?finish, ?held⟩
  case allocate =>
    intro q qs p es k off t s hq s₀ hp hd hk hoff
    rw [exec_saveAreaAllocate, execSaveAreaAllocate, hq]
    simp only [show ({ s with hub := { s.hub with saveReqs := qs } } : State) = s₀ from rfl, hp, hd, hk, hoff]
  case record =>
    intro die dom disp p d k off accs t s hp hd hst hrst hs hr hg ha
    rw [exec_saveRecordWrite_granted hp hd hst hs hrst hg, writeRecord_readable hr ha]
  case ask => exact fun die dom disp p d s hp hd hst hrst hs hg ha => exec_saveRecordWrite_asks hp hd hst hs hrst hg ha
  case restart => exact fun die dom disp p d k off s hp hd hst hrst hs _ => exec_saveRecordWrite_restartable hp hd hst hs hrst
  case commit =>
    intro die dom disp p d s hp hd hst hc hw t ho
    exact exec_commitWrite_acknowledged hp hd hst hc hw rfl ho
  case histogram =>
    intro dom disp d cs x t s hd hst hw hh hr
    rw [exec_wheelHistogramRead, execWheelHistogramRead]
    simp only [hd, hst, hw, hh, hr]
    rfl
  case announce =>
    intro dom c s hv hr he hx
    rw [exec_exchangeStep_ended hv hr he, hx]
    rfl
  case finish =>
    intro dom c s hv hr he hx ho
    have hgo : (s.hub.holdAt.isSome && decide (dom ≠ 0)) = false := by obtain ho | ho := ho <;> simp [ho]
    rw [exec_exchangeStep_ended hv hr he, hx, hgo]
    rfl
  case held =>
    intro dom c s hv hr
    rw [exec_exchangeStep_released hv hr, State.runHeld, hr]
    rfl

/-! ## The hub's queue writer (R407, R414, R415, R474) -/

/-- Without records that wait for a place, none takes one. -/
theorem admitTraps_none {s : State} (h : s.hub.lateTraps = []) : s.admitTraps = s := by
  rw [State.admitTraps, h, List.foldl_nil, ← h]

/-- A record of a domain that has one in the writer's queue goes behind it. -/
theorem queueTrap_known {s : State} {dom : Nat} (hl : s.hub.lateTraps = []) (hd : (s.hub.traps.any fun x => decide (x.dom = dom)) = true)
    (r : Word) : s.queueTrap dom r = { s with hub := { s.hub with traps := s.hub.traps ++ [⟨dom, r⟩] } } := by
  obtain ⟨x, hx, hxd⟩ := List.any_eq_true.mp hd
  have hmem : dom ∈ s.hubDoms := by
    rw [State.hubDoms, List.mem_eraseDups]
    simp only [List.append_assoc, List.mem_append, List.mem_map]
    exact .inl ⟨x, hx, of_decide_eq_true hxd⟩
  have hfits : fits s.hubDoms dom = true := by simp [fits, hmem]
  rw [State.queueTrap, hfits, hl]
  rfl

/-- With no record held or waiting for a place, the writer takes the oldest of its queue. -/
theorem exec_trapQueueWrite_next {s : State} {t : Trap} {ts : List Trap} (hl : s.hub.lateTraps = []) (hh : s.hub.heldTraps = [])
    (ht : s.hub.traps = t :: ts) : exec .trapQueueWrite s = .next (execTrapQueueWrite.takeWhileEmpty s t ts) := by
  rw [exec_trapQueueWrite, execTrapQueueWrite, admitTraps_none hl]
  simp only [hh, ht]

theorem takeWhileEmpty_loaded {s : State} {t : Trap} (h : (s.keySlot t.dom).isSome = true) (ts : List Trap) :
    execTrapQueueWrite.takeWhileEmpty s t ts = ({ s with hub := { s.hub with traps := ts } } : State).writeTrap t := if_pos h

/-- A record of domain 0 is held while slot 0 is EMPTY. -/
theorem takeWhileEmpty_hold {s : State} {t : Trap} (hk : s.keySlot 0 = none) (hd : t.dom = 0) (hh : s.hub.heldTraps = []) (ts : List Trap) :
    execTrapQueueWrite.takeWhileEmpty s t ts = { s with hub := { s.hub with traps := ts, heldTraps := [t] } } := by
  have hslot : (State.keySlot { s with hub := { s.hub with traps := ts } } t.dom).isSome = false := by rw [hd]; exact congrArg Option.isSome hk
  have hnone : ({ s.hub with traps := ts } : HubState).heldTraps = [] := hh
  rw [execTrapQueueWrite.takeWhileEmpty, hslot, if_neg Bool.false_ne_true, if_pos hd, hnone]
  rfl

/-- A record of another domain whose slot is EMPTY, and whose function is not being reset, is dropped. -/
theorem takeWhileEmpty_drop {s : State} {t : Trap} (hk : s.keySlot t.dom = none) (hd : t.dom ≠ 0) (hr : s.resetting t.dom = none)
    (ts : List Trap) : execTrapQueueWrite.takeWhileEmpty s t ts = { s with hub := { s.hub with traps := ts } } := by
  have hslot : (State.keySlot { s with hub := { s.hub with traps := ts } } t.dom).isSome = false := congrArg Option.isSome hk
  have hreset : State.resetting { s with hub := { s.hub with traps := ts } } t.dom = none := hr
  rw [execTrapQueueWrite.takeWhileEmpty, hslot, if_neg Bool.false_ne_true, if_neg hd]
  simp only [hreset]

theorem writeTrap_no_queue {s : State} {t : Trap} (h : (s.ctx t.dom).trapq = 0) :
    s.writeTrap t = ({ s with free := s.free + 1 } : State).logEvent 8 0x4004 (Config.openValue 0x4004 s.free) t.dom 0 := by
  rw [State.writeTrap, h]
  rfl

/-- The four fields of a queue's header (R414). -/
theorem header_fields {h wr rd size lost : Nat} (hh : h % 2 ^ 128 = wr + 2 ^ 32 * rd + 2 ^ 64 * size + 2 ^ 96 * lost) (hwr : wr < 2 ^ 32)
    (hrd : rd < 2 ^ 32) (hsize : size < 2 ^ 32) : fieldNat 0 32 h = wr ∧ fieldNat 32 32 h = rd ∧ fieldNat 64 32 h = size := by
  simp only [fieldNat, Nat.shiftRight_eq_div_pow]
  omega

/-- A record goes behind those of a queue that has room and is not empty, and the writer's index advances. -/
theorem writeTrap_behind {t : Trap} {h : List Byte} {u s : State} {q size wr rd lost : Nat} (hq : (s.ctx t.dom).trapq.toNat = q) (hq0 : q ≠ 0)
    (hm : s.memRead t.dom t.dom q 64 = (.inl h, u))
    (hh : natOfBytes h % 2 ^ 128 = wr + 2 ^ 32 * rd + 2 ^ 64 * size + 2 ^ 96 * lost) (hwr : wr < 2 ^ 32) (hrd : rd < 2 ^ 32)
    (hsize : size < 2 ^ 32) (hring : ringSize size = true) (hroom : (wr + 2 ^ 32 - rd) % 2 ^ 32 < size) (hne : wr ≠ rd) :
    s.writeTrap t = (u.memStore t.dom t.dom noDisp (q + 64 + 32 * (wr % size)) (bytesOfNat 32 t.rec_.toNat)).memStore t.dom t.dom noDisp q
      (bytesOfNat 4 (wr + 1)) := by
  obtain ⟨hfwr, hfrd, hfsize⟩ := header_fields hh hwr hrd hsize
  have hfull : (!ringSize size || decide (size ≤ (wr + 2 ^ 32 - rd) % 2 ^ 32)) = false := by
    rw [hring, decide_eq_false (Nat.not_le.mpr hroom)]
    rfl
  have hsignal : (decide (wr = rd) && decide (t.dom ≠ 0)) = false := by rw [decide_eq_false hne]; rfl
  rw [State.writeTrap]
  simp only [hq, hq0, if_false, hm, hfwr, hfrd, hfsize, hfull, Bool.false_eq_true, hsignal]

theorem trapQueueWrites : Claims.TrapQueueWrites := by
  refine ⟨fun t ts s ⟨hl, hh, ht⟩ hk => ?write, fun t ts s ⟨hl, hh, ht⟩ hk hq => ?noQueue, fun t ts s ⟨hl, hh, ht⟩ hk hd => ?hold,
    fun t ts s ⟨hl, hh, ht⟩ hk hd hr => ?drop, fun t t' ts s hl hh hk => ?heldFirst, fun t s hl ht => ?place,
    fun t h u s q size wr rd lost hq hq0 hm hh hwr hrd hsize _ hring hroom hne => writeTrap_behind hq hq0 hm hh hwr hrd hsize hring hroom hne⟩
  case write => rw [exec_trapQueueWrite_next hl hh ht, takeWhileEmpty_loaded hk]
  case noQueue =>
    rw [exec_trapQueueWrite_next hl hh ht, takeWhileEmpty_loaded hk]
    exact congrArg _ (writeTrap_no_queue hq)
  case hold => rw [exec_trapQueueWrite_next hl hh ht, takeWhileEmpty_hold hk hd hh]
  case drop => rw [exec_trapQueueWrite_next hl hh ht, takeWhileEmpty_drop hk hd hr]
  case heldFirst =>
    rw [exec_trapQueueWrite, execTrapQueueWrite, admitTraps_none hl]
    simp only [hh, hk, if_true]
    rfl
  case place =>
    rw [State.admitTraps, hl]
    exact queueTrap_known (s := { s with hub := { s.hub with lateTraps := [] } }) rfl ht t.rec_

/-- Settles O58, by what each of the dispatcher's and the hub's events does in the case that its clause names. -/
theorem savesPhasesTraps : Obligations.SavesPhasesTraps := ⟨savesAndPhases, trapQueueWrites⟩

end Sys2Proof.Machine
end

section
/-! PROOFS. Every instruction, and every step that names units of the package, answers a next state (spec/06 R187). -/
namespace Sys2Proof.Machine

/-- What the machine answers is a next state: no fault, no refusal. -/
def Answers (o : Out) : Prop := ∃ t, o = .next t

theorem answers_next (t : State) : Answers (.next t) := ⟨t, rfl⟩

/-! ## The frames in which meanings run -/

theorem answers_runInstr (spec : OpSpec) (w : Fields) (body : Issue → Done) (s : State) : Answers (runInstr spec w body s) :=
  runInstr_next spec w body s

theorem answers_runUnit (spec : OpSpec) (w : Fields) (eff : Issue → Eff) (s : State) : Answers (runUnit spec w eff s) := answers_runInstr ..

theorem answers_hostAccess (s : State) (f : Nat) (g : State → State) : Answers (s.hostAccess f g) := by
  unfold State.hostAccess
  split <;> exact answers_next _

theorem answers_doorbell (s : State) (f code : Nat) (run : Nat → State → State) : Answers (s.doorbell f code run) := answers_hostAccess ..

theorem answers_query (s : State) (f : Nat) (sel : Nat → Bool) (answer : Nat → State → Option Nat) : Answers (s.query f sel answer) :=
  answers_doorbell ..

theorem answers_terminateCmd (s : State) (f code : Nat) (finish : Nat → State → State) : Answers (s.terminateCmd f code finish) := by
  unfold State.terminateCmd
  dsimp only
  split
  · exact answers_next _
  · exact answers_hostAccess ..

theorem answers_serveNext (s : State) (want : SagReq → Bool) (serve : SagReq → State → State) : Answers (s.serveNext want serve) := by
  unfold State.serveNext
  repeat' split
  all_goals exact answers_next _

theorem answers_answer (s : State) (bs : List Byte) : Answers (s.answer bs) := by
  unfold State.answer
  split <;> exact answers_next _

/-! ## Instructions -/

/-- An instruction of task code runs in the frame of `runInstr`; an entry that is none ends as a failed one does. -/
theorem answers_task {i : Instr} (h : (encode i).isSome = true) (s : State) : Answers (exec i s) := by
  cases i
  case nop | mov | ldi | ldih | ldl | lea | add | addc | sub | subb | neg | abs | min | max | clamp | mul | mulh | mad | div | rem | adds |
    subs | avg | absd | sad | wmul | wadd | doti | and | or | xor | andn | orn | shl | shr | sar | rol | bfx | bfi | popc | clz | ctz |
    brev | cmp | sel | sext | zext | packs | qand | qor | qxor | qnot | qmov | qany | lcset | lcget | fadd | fsub | fmul | fma | fms |
    fnma | fnms | fdiv | fmin | fmax | fminn | fmaxn | fabs | fneg | fcpys | fcmp | fclass | frint | fdot | vred | vscan | vperm | vshuf |
    vbcast | vsel | vins | vext | vrot | vcmpr | vexpd | vzip | vunzip | vsort | viota | vmask | cvt | cvtfi | cvtif | lgenc | lgdec |
    lgmul | t5pack | t5unpk | rcp | rsq | sqrt | exp2 | lg2 | sinpi | cospi | tanh | erf | amaxv | fscaleb | fgetexp | scacc | scale |
    trap =>
    dsimp only [exec]
    exact answers_runUnit ..
  case ld | st | ldv | stv | atom | atomr | cas | hins | copy | fill | fence | adv | emit | emitm | testm | nxtile | sopen | sadv | stend |
    sclose | sread | fopen | fadv | ftend | fclose | fisect | fisectc | tclaim | trel | tfill | ttask | twait | tstat | ovfcfg | tdep |
    tdepAdd | cpy | gath | scat | fgrd | fgwr | xchg | xchgRaw | ratom | cwait | resume | resumeFail | pref | bara | barw | barwT | barex |
    launch | csrr | csrw | evlog | mext | attest | sagvfyUnlock | sagvfyManifest | keywipe | keywipeAll | dbgopen | fuserd | yield | wdog =>
    dsimp only [exec]
    exact answers_runInstr ..
  case illegalOp | execLiteral =>
    dsimp only [exec, execIllegalOp, execExecLiteral]
    split <;> exact answers_next _
  all_goals cases h

/-- An event of another unit: each branch of its meaning, whether the unit can act now or not, is a next state. -/
theorem answers_event {i : Instr} (h : encode i = none) (s : State) : Answers (exec i s) := by
  cases i
  -- events that act whatever the state is
  case localPortDeliver | localPortTake | routeHop | elementPortTransfer | launchNoticeApply | loadedNoticeApply | endedNoticeApply |
    savedNoticeApply | committedNoticeApply | errorNoticeApply | preemptNoticeApply | resumeNoticeApply | killNoticeApply |
    watchdogNoticeApply | csrNoticeApply | phaseNoticeApply | histNoticeApply | dieLossApply | linkSplitApply | warmReset | ctxBody |
    phaseBody | farrBody | fexitBody | fbreakBody =>
    exact answers_next _
  -- PEs and routers
  case dataFiringStart | markerFiring | suspendedResume | realignStart | realignDiscard | realignPoisonEmit | timingDetectorFlag |
    passFiring | steerFiring | mergeFiring | forkFiring | joinFiring | gateFiring | filterFiring | operatorMarkerFiring |
    operatorRealignDiscard | carryFiring | irepFiring | loopgenLoad | loopgenEmit | sinkFiring | mcutPass =>
    dsimp only [exec, execDataFiringStart, execMarkerFiring, execSuspendedResume, execRealignStart, execRealignDiscard, execRealignPoisonEmit,
      execTimingDetectorFlag, execPassFiring, execSteerFiring, execMergeFiring, execForkFiring, execJoinFiring, execGateFiring,
      execFilterFiring, execOperatorMarkerFiring, execOperatorRealignDiscard, execCarryFiring, execIrepFiring, execLoopgenLoad, execLoopgenEmit,
      execSinkFiring, execMcutPass]
    repeat' split
    all_goals exact answers_next _
  -- memory nodes, pools, Glaze islands, generators and barriers
  case mcutGatingRequest | mcutRelease | memnodeAccept | memnodePerform | memnodeResultEmit | memnodeMarker | memnodePairRealign |
    poolEccWriteback | agenSweepStart | agenTrigger | agenEmit | agenGatingRequest | glazeAccept | glazeOutput | barrierPerform =>
    dsimp only [exec, execMcutGatingRequest, execMcutRelease, execMemnodeAccept, execMemnodePerform, execMemnodeResultEmit, execMemnodeMarker,
      execMemnodePairRealign, execPoolEccWriteback, execAgenSweepStart, execAgenTrigger, execAgenEmit, execAgenGatingRequest, execGlazeAccept,
      execGlazeOutput, execBarrierPerform]
    repeat' split
    all_goals exact answers_next _
  -- Comets and Kilns
  case cometAccess | graphPortAccept | graphPortResult | cometCommandPerform | streamFetch | streamFetchReturn | gatherUnitServe |
    kilnSubtileIssue | kilnRecordFailReady | kilnSubtileStart | kilnStep | kilnSpillEnd | kilnDrain | kilnRecordComplete |
    kilnSubtileMigrate | tfillSourceCheck | tfillComplete =>
    dsimp only [exec, execCometAccess, execGraphPortAccept, execGraphPortResult, execCometCommandPerform, execStreamFetch,
      execStreamFetchReturn, execGatherUnitServe, execKilnSubtileIssue, execKilnRecordFailReady, execKilnSubtileStart, execKilnStep,
      execKilnSpillEnd, execKilnDrain, execKilnRecordComplete, execKilnSubtileMigrate, execTfillSourceCheck, execTfillComplete]
    repeat' split
    all_goals exact answers_next _
  -- meshes and controllers
  case meshFlitHop | packetAgePromote | meshCrcReplay | controllerRead | parityRebuild | controllerWrite | parityUpdate =>
    dsimp only [exec, execMeshFlitHop, execPacketAgePromote, execMeshCrcReplay, execControllerRead, execParityRebuild, execControllerWrite,
      execParityUpdate]
    repeat' split
    all_goals exact answers_next _
  -- dispatchers and the hub
  case trapQueueWrite | tagUe | loaderFrameRead | configCacheLookup | quiescenceSweep | dieHeartbeat | heartbeatMissing | deadlockTimeout |
    watchdogExpiry | hubTick | tickNoticeApply | killDrainEnd | digestNoticeApply | wheelHistogramRead | saveAreaAllocate |
    saveRecordWrite | commitWrite | exchangeStep =>
    dsimp only [exec, execTrapQueueWrite, execTagUe, execLoaderFrameRead, execConfigCacheLookup, execQuiescenceSweep, execDieHeartbeat,
      execHeartbeatMissing, execDeadlockTimeout, execWatchdogExpiry, execHubTick, execTickNoticeApply, execKillDrainEnd, execDigestNoticeApply,
      execWheelHistogramRead, execSaveAreaAllocate, execSaveRecordWrite, execCommitWrite, execExchangeStep]
    repeat' split
    all_goals exact answers_next _
  -- the host, the Saggar and the links
  case launchrWrite | registerPageBadAccess | flr | linkLoss | linkRetrain | linkHoldExpiry | hotReset | coldStart | bootStepTimeout |
    pldmFirmwareUpdate | startCounterWrite | fabricMapWrite | vendorProvision | thermalThrottle | thermalShutdown | linkFrameReceive |
    linkReplay | bexwenRetrain | remoteExchangeWrite | remoteAtomicRequest | remoteAtomicResponse | ratomResendTimeout |
    moduleUnreachable | receiverLockLoss | saggarPowerLoss | pldmPowerDown | productionFusing | rmaToken =>
    dsimp only [exec, execLaunchrWrite, execRegisterPageBadAccess, execFlr, execLinkLoss, execLinkRetrain, execLinkHoldExpiry, execHotReset,
      execColdStart, execBootStepTimeout, execPldmFirmwareUpdate, execStartCounterWrite, execFabricMapWrite, execVendorProvision,
      execThermalThrottle, execThermalShutdown, execLinkFrameReceive, execLinkReplay, execBexwenRetrain, execRemoteExchangeWrite,
      execRemoteAtomicRequest, execRemoteAtomicResponse, execRatomResendTimeout, execModuleUnreachable, execReceiverLockLoss,
      execSaggarPowerLoss, execPldmPowerDown, execProductionFusing, execRmaToken]
    repeat' split
    all_goals exact answers_next _
  -- accesses and commands of the host
  case lstatClear | mbDoorbellBusy | registerWrite =>
    dsimp only [exec]
    exact answers_hostAccess ..
  case windowRead | windowWrite =>
    dsimp only [exec, execWindowRead, execWindowWrite]
    split
    · exact answers_next _
    · exact answers_hostAccess ..
  case mbCreate | mbPreempt | mbResume | mbAssign | mbClrboot | mbSupcfg =>
    dsimp only [exec]
    exact answers_doorbell ..
  case mbQueryBootEntry | mbQueryExcluded =>
    dsimp only [exec]
    exact answers_query ..
  case mbDestroy | mbKill =>
    dsimp only [exec]
    exact answers_terminateCmd ..
  -- services of the Saggar
  case saggarAttestServe | saggarVerifyServe | saggarMextServe =>
    dsimp only [exec]
    exact answers_serveNext ..
  case pldmDiscovery | blackBoxRead | bootRecordRead =>
    dsimp only [exec]
    exact answers_answer ..
  case pldmSensorRead | peerEpochRead | sidebandAttest =>
    dsimp only [exec, execPldmSensorRead, execPeerEpochRead, execSidebandAttest]
    split <;> exact answers_answer ..
  -- an instruction of task code encodes to a word
  all_goals cases h

theorem exec_answers (i : Instr) (s : State) : Answers (exec i s) := by
  cases he : encode i with
  | some e => exact answers_task (by rw [he]; rfl) s
  | none => exact answers_event he s

/-! ## Steps -/

theorem answers_issue (pe : Nat) (s : State) : Answers (issue pe s) := by
  unfold issue
  split
  · exact answers_next _
  · split
    · exact answers_next _
    · exact exec_answers ..

theorem step_upset {s : State} {u : Upset} {as : List Agent} (h : s.agenda = .upset u :: as) (hw : u.wf = true) :
    step s = .next (applyUpset u (s.later as)) := by
  rw [step, next_of_agenda h]
  exact if_pos hw

/-- A step whose agent names units of the package. -/
theorem answers_step_of_agenda {s : State} {a : Agent} {as : List Agent} (h : s.agenda = a :: as) (hw : a.wf = true) : Answers (step s) := by
  cases a with
  | issue pe => exact step_issue h (of_decide_eq_true hw) ▸ answers_issue ..
  | event i =>
    obtain ⟨hi, he⟩ := (Bool.and_eq_true ..).mp hw
    exact step_event h hi (Option.isNone_iff_eq_none.mp he) ▸ exec_answers ..
  | upset u => exact step_upset h hw ▸ answers_next _

/-- Settles O28, by the frames in which the meanings run and by the branches of the events. -/
theorem everyInstructionAnswers : Obligations.EveryInstructionAnswers := by
  refine ⟨exec_answers, fun s hw => ?_⟩
  cases ha : s.agenda with
  | cons a as => exact answers_step_of_agenda ha (hw a as ha)
  | nil => exact step_of_agenda_nil ha ▸ answers_step_of_agenda rfl (freeAgent_wf _)

end Sys2Proof.Machine
end

section
/-! PROOFS. The operators of the routers: data firings, markers, and the operators with state (spec/07 R206, R209 to R217). -/
namespace Sys2Proof.Machine

/-! ## Slots: what is read back after a write, and the requests of an MCUT (R217) -/

namespace OpSlot

variable {o : OpSlot} {n : Nat} {t : Token}

@[simp] theorem outs_find_put : (o.put n t).outs.find n none = some t := Map.find_put_same ..

theorem arm_of_open (hu : o.used = true) (hop : o.opc = 11) (hst : o.st = .mcutOpen) : o.arm = { o with st := .mcutArmed } :=
  if_pos ⟨hu, hop, by rw [hst]; decide, by rw [hst]; decide⟩

theorem release_of_mcut (hu : o.used = true) (hop : o.opc = 11) : o.release = { o with st := .mcutOpen } := if_pos ⟨hu, hop⟩

end OpSlot

@[simp] theorem opSlot_fired (s : State) (r k : Nat) (o : OpSlot) : (s.fired r k o).opSlot r k = o := opSlot_setOpSlot_same ..

/-! ## Data firings (R206, R209, R210) -/

/-- Data without poison at every input: nothing is missing there. -/
theorem OpSlot.all_data {o : OpSlot} (h : ∀ m ∈ o.inputs, ∃ u, o.data m = some u ∧ u.poison = false) :
    o.inputs.all (fun m => (o.data m).isSome) = true := by
  refine List.all_eq_true.mpr fun m hm => ?_
  obtain ⟨u, hu, -⟩ := h m hm
  rw [hu]
  rfl

/-- Data without poison at every input: `JOIN` finds no poison token. -/
theorem OpSlot.find_poison_eq_none {o : OpSlot} (h : ∀ m ∈ o.inputs, ∃ u, o.data m = some u ∧ u.poison = false) :
    (o.inputs.map fun m => (o.data m).getD {}).find? (fun t => t.poison) = none := by
  refine List.find?_eq_none.mpr fun t ht => ?_
  obtain ⟨m, hm, rfl⟩ := List.mem_map.mp ht
  obtain ⟨u, hu, hp⟩ := h m hm
  simp [hu, hp]

theorem operatorsFire : Claims.OperatorsFire := by
  refine ⟨fun r k t s hf ht hfree => ?pass, fun r k c t s hf hc ht hp hfree => ?steer, fun r k c t s hf hc ht hp hfree => ?merge,
    fun r k t s hf ht hfree => ?fork, fun r k n ns t s hf hfree hin ht hclean => ?join,
    fun r k c s hf hc hp htest => ?gateShut, fun r k c t s hf hc hp htest ht hfree => ?gateOpen,
    fun r k c t s hf hc ht hp htest hfree => ?filterKeeps, fun r k c t s hf hc ht hp htest => ?filterDrops⟩
  case pass => simp only [exec_passFiring, execPassFiring, ht, hf, hfree, Bool.and_self, if_true]
  case steer => simp [exec_steerFiring, execSteerFiring, hc, ht, hf, hp, hfree]
  case merge => simp [exec_mergeFiring, execMergeFiring, hc, ht, hf, hp, hfree]
  case fork => simp only [exec_forkFiring, execForkFiring, ht, hf, hfree, Bool.and_self, if_true]
  case join =>
    have hfirst : ((s.opSlot r k).inputs.map fun m => ((s.opSlot r k).data m).getD {}).headD {} = t := by simp [hin, ht]
    simp only [exec_joinFiring, execJoinFiring, hf, hfree, OpSlot.all_data hclean, OpSlot.find_poison_eq_none hclean, hfirst,
      Bool.and_self, if_true]
  case gateShut => simp [exec_gateFiring, execGateFiring, hc, hf, hp, htest]
  case gateOpen => simp [exec_gateFiring, execGateFiring, hc, ht, hf, hp, htest, hfree]
  case filterKeeps => simp [exec_filterFiring, execFilterFiring, hc, ht, hf, hp, htest, hfree]
  case filterDrops => simp [exec_filterFiring, execFilterFiring, hc, ht, hf, hp, htest]

/-! ## Markers (R211, R212) -/

/-- The largest of equal values is that value. -/
theorem foldl_max_replicate {n : Nat} : ∀ (j : Nat) {a : Nat}, a ≤ n → (List.replicate (j + 1) n).foldl Nat.max a = n
  | 0, _, h => Nat.max_eq_right h
  | j + 1, a, h => by
    rw [List.replicate_succ, List.foldl_cons, show Nat.max a n = n from Nat.max_eq_right h]
    exact foldl_max_replicate j le_rfl

section
variable {o : OpSlot} {n : Nat} (h : ∀ m ∈ o.inputs, ∃ u, o.head m = some u ∧ u.mark = true ∧ u.payload.toNat % 2 ^ 16 = n)
include h

theorem OpSlot.all_marker : o.inputs.all o.marker = true := by
  refine List.all_eq_true.mpr fun m hm => ?_
  obtain ⟨u, hu, hmark, -⟩ := h m hm
  rw [OpSlot.marker, hu]
  exact hmark

/-- The values of equal markers are that value, once for each input. -/
theorem OpSlot.markerValues_eq (hne : o.inputs ≠ []) :
    ∃ j, (o.inputs.map fun m => ((o.head m).getD {}).payload.toNat % 2 ^ 16) = n :: List.replicate j n := by
  have hvals : ∀ v ∈ o.inputs.map (fun m => ((o.head m).getD {}).payload.toNat % 2 ^ 16), v = n := by
    intro v hv
    obtain ⟨m, hm, rfl⟩ := List.mem_map.mp hv
    obtain ⟨u, hu, -, hval⟩ := h m hm
    rw [hu]
    exact hval
  obtain ⟨m, ms, hin⟩ := List.exists_cons_of_ne_nil hne
  rw [List.eq_replicate_of_mem hvals, hin]
  exact ⟨ms.length, by rw [List.length_map]; rfl⟩

end

theorem operatorMarkers : Claims.OperatorMarkers := by
  refine ⟨fun r k n t s hu hs hfree hfollow hre hne hm ht => ?equal, fun r k n t s hu hs hfollow hmis hin ht => ?misaligned⟩
  case equal =>
    obtain ⟨j, hvals⟩ := OpSlot.markerValues_eq hm hne
    have hmax : (n :: List.replicate j n).foldl Nat.max 0 = n := foldl_max_replicate j (Nat.zero_le n)
    have hsame : (List.replicate j n).all (fun v => decide (v = n)) = true := by simp
    simp only [exec_operatorMarkerFiring, execOperatorMarkerFiring, hu, hs, hfree, hfollow, hre, OpSlot.all_marker hm, hvals, hmax, hsame,
      ← ht]
    rfl
  case misaligned => simp [exec_operatorRealignDiscard, execOperatorRealignDiscard, hu, hs, hfollow, hmis, hin, ht]

/-- Settles O52: each operator's conditions choose the branch of its firing. -/
theorem operators : Obligations.Operators := ⟨operatorsFire, operatorMarkers⟩

/-! ## The operators with state (R213 to R217) -/

/-- Settles O7: the slot's state and the heads of its inputs choose the branch of the firing. In LOOP a false `ctl` ends the loop before `back` is read,
as the order of the rows of R213 has it in the model (log entry 63). -/
theorem statefulOperators : Obligations.StatefulOperators := by
  refine ⟨fun r k t s hf hst ht hfree => ?carryInit, fun r k c b s hf hst hc hcm hp htest hb hbm hfree => ?carryLoops,
    fun r k c s hf hst hc hcm hp htest => ?carryEnds, fun r k t s hu hop hfollow hst ht htm => ?irepLatches,
    fun r k t b c s hu hop hfollow hst hc hcm hp htest hfree => ?irepRepeats, fun r k t s hf hst ht htm hp => ?loopgenLoads,
    fun r k n i s hf hfree hst => ?loopgenEmits, fun r k t s hf ht hpass => ?sinkDrops,
    fun r k t s hf hst ht htm hfree => ?mcutCuts, fun r k s hdisp hu hop hst => ?mcutArms, fun r k s hdisp hu hop => ?mcutOpens⟩
  case carryInit => simp [exec_carryFiring, execCarryFiring, hf, hst, ht, hfree]
  case carryLoops => simp [exec_carryFiring, execCarryFiring, hf, hst, hc, hcm, hp, htest, hb, hbm, hfree]
  case carryEnds => simp [exec_carryFiring, execCarryFiring, hf, hst, hc, hcm, hp, htest]
  case irepLatches => simp [exec_irepFiring, execIrepFiring, hu, hop, hfollow, hst, ht, htm]
  case irepRepeats => simp [exec_irepFiring, execIrepFiring, hu, hop, hfollow, hst, hc, hcm, hp, htest, hfree]
  case loopgenLoads => simp [exec_loopgenLoad, execLoopgenLoad, hf, hst, ht, htm, hp]
  case loopgenEmits =>
    simp only [exec_loopgenEmit, execLoopgenEmit, hf, hfree, hst, Bool.and_self]
    split <;> rfl
  case sinkDrops =>
    have hdrop : (t.mark && (s.opSlot r k).param.testBit 0) = false := Bool.and_eq_false_iff.mpr hpass
    simp only [exec_sinkFiring, execSinkFiring, ht, hf, hdrop]
    rfl
  case mcutCuts => simp [exec_mcutPass, execMcutPass, ht, hf, hfree, hst, htm]
  case mcutArms => rw [exec_mcutGatingRequest, execMcutGatingRequest, if_pos hdisp, OpSlot.arm_of_open hu hop hst]
  case mcutOpens => rw [exec_mcutRelease, execMcutRelease, if_pos hdisp, OpSlot.release_of_mcut hu hop]

end Sys2Proof.Machine
end

section
/-! PROOFS. Memory nodes: the requests that instructions and tokens bring, and what a request leaves (spec/08 R228 to R242, R251). -/
namespace Sys2Proof.Machine

/-! ## Posted and blocking instructions at their node (R235 to R240) -/

section
variable {i : Issue} {r : Request} {put : State → Word → State}

theorem Issue.sendMem_full (h : (i.s.node (nodeNum i.core i.imm)).room = false) (blocking : Bool) : i.sendMem blocking r = .hold i.s :=
  if_pos (by rw [h]; rfl)

theorem Issue.sendMem_posted (h : (i.s.node (nodeNum i.core i.imm)).room = true) : i.sendMem false r =
    .done (i.s.acceptReq (nodeNum i.core i.imm) { src := .pe i.pe i.slot, op := .settled, blocking := false } r) := by
  simp [Issue.sendMem, h]

theorem Issue.sendMem_blocking (h : (i.s.node (nodeNum i.core i.imm)).room = true) : i.sendMem true r =
    .hold ((i.s.setTask i.pe i.slot { i.task with wait := .memSent }).acceptReq (nodeNum i.core i.imm)
      { src := .pe i.pe i.slot, op := .settled, blocking := true } r) := by
  simp [Issue.sendMem, h]

theorem Issue.blockMem_unsent (h : i.task.wait = .none) : i.blockMem r put = i.sendMem true r := by
  simp [Issue.blockMem, h]

theorem Issue.blockMem_sent (h : i.task.wait = .memSent) : i.blockMem r put = .hold i.s := by
  simp [Issue.blockMem, h]

theorem Issue.blockMem_value {v : Word} (h : i.task.wait = .memDone v none) : i.blockMem r put = .done (put i.s v) := by
  simp [Issue.blockMem, h]

theorem Issue.blockMem_failure {v f : Word} (h : i.task.wait = .memDone v (some f)) : i.blockMem r put =
    .done ((put i.s 0).setTask i.pe i.slot (((put i.s 0).task i.pe i.slot).taint f)) := by
  simp [Issue.blockMem, h]

end

/-- An instruction whose body posts a request at its node. -/
theorem posts_of_sendMem {c : Fields → Instr} {sp : Fields → OpSpec} {r : Issue → Request}
    (hx : ∀ w s, exec (c w) s = runInstr (sp w) w (fun i => i.sendMem false (r i)) s)
    (hl : ∀ w, (sp w).perLane = false := by exact fun _ => rfl) :
    Completes c sp (fun x => (x.s.node (nodeNum x.core x.imm)).room = true)
      (fun x => x.s.acceptReq (nodeNum x.core x.imm) { src := .pe x.pe x.slot, op := .settled, blocking := false } (r x)) ∧
    Holds c sp (fun x => (x.s.node (nodeNum x.core x.imm)).room = false) (fun x => x.s) ∧ SkipsOff c sp :=
  ⟨completes_of_done hx fun _ => Issue.sendMem_posted, holds_of_hold hx fun _ h => Issue.sendMem_full h false, skipsOff_of_runInstr hx hl⟩

/-- An instruction whose body sends a request to its node and awaits the result. -/
theorem blocks_of_blockMem {c : Fields → Instr} {sp : Fields → OpSpec} {r : Issue → Request} {put : Issue → State → Word → State}
    (hx : ∀ w s, exec (c w) s = runInstr (sp w) w (fun i => i.blockMem (r i) (put i)) s) :
    Holds c sp (fun x => x.task.wait = .none ∧ (x.s.node (nodeNum x.core x.imm)).room = true)
      (fun x => (x.s.setTask x.pe x.slot { x.task with wait := .memSent }).acceptReq (nodeNum x.core x.imm)
        { src := .pe x.pe x.slot, op := .settled, blocking := true } (r x)) ∧
    Holds c sp (fun x => x.task.wait = .none ∧ (x.s.node (nodeNum x.core x.imm)).room = false) (fun x => x.s) ∧
    Holds c sp (fun x => x.task.wait = .memSent) (fun x => x.s) ∧
    Completes c sp (fun x => x.task.wait = .memDone x.task.wait.value none) (fun x => put x x.s x.task.wait.value) ∧
    (∀ f, Completes c sp (fun x => x.task.wait = .memDone x.task.wait.value (some f))
      (fun x => (put x x.s 0).setTask x.pe x.slot (((put x x.s 0).task x.pe x.slot).taint f))) :=
  ⟨holds_of_hold hx fun _ ⟨hw, hr⟩ => (Issue.blockMem_unsent hw).trans (Issue.sendMem_blocking hr),
    holds_of_hold hx fun _ ⟨hw, hr⟩ => (Issue.blockMem_unsent hw).trans (Issue.sendMem_full hr true),
    holds_of_hold hx fun _ => Issue.blockMem_sent, completes_of_done hx fun _ => Issue.blockMem_value,
    fun _ => completes_of_done hx fun _ => Issue.blockMem_failure⟩

theorem postedRequests : Claims.PostedRequests :=
  ⟨posts_of_sendMem exec_st, posts_of_sendMem exec_stv, posts_of_sendMem exec_atom, posts_of_sendMem exec_copy, posts_of_sendMem exec_fill⟩

theorem blockingRequests : Claims.BlockingRequests :=
  ⟨blocks_of_blockMem exec_ld, blocks_of_blockMem exec_ldv, blocks_of_blockMem exec_atomr, blocks_of_blockMem exec_cas,
    blocks_of_blockMem (put := fun i s v => s.setPredOf i.pe (Issue.predNum i.w.d) (flagPred (v ≠ 0))) exec_hins⟩

/-! ## What a request leaves (R227, R231, R242, R251, R252) -/

/-- The PEs, the package's memory, the Saggar and the clusters. -/
def State.beyondPools (s : State) : UnitState × MemState × SagState × ClusterState := (s.unit, s.mem, s.sag, s.cluster)

/-- The requests of every node, and the regions. -/
def State.requests (s : State) : (Nat → List NodeReq) × Map CoreInfo := (fun n => (s.node n).queue, s.core.info)

/-- What an access of a pool leaves, whatever it reads or writes: all but the pools, what a node keeps of replaced bytes, and events. -/
def State.OutsidePools (t s : State) : Prop := t.beyondPools = s.beyondPools ∧ t.requests = s.requests

theorem State.OutsidePools.refl (s : State) : s.OutsidePools s := ⟨rfl, rfl⟩

theorem State.OutsidePools.trans {s t u : State} (h : u.OutsidePools t) (h' : t.OutsidePools s) : u.OutsidePools s :=
  ⟨h.1.trans h'.1, h.2.trans h'.2⟩

theorem outsidePools_logEvent (s : State) (ring code payload dom origin : Nat) (always : Bool) :
    (s.logEvent ring code payload dom origin always).OutsidePools s := by
  unfold State.logEvent
  dsimp only
  split <;> exact .refl _

theorem outsidePools_bankEvent (s : State) (core w code : Nat) (always : Bool) : (s.bankEvent core w code always).OutsidePools s :=
  (outsidePools_logEvent ..).trans ⟨rfl, rfl⟩

theorem outsidePools_correctWords (s : State) (core a n : Nat) : (s.correctWords core a n).OutsidePools s :=
  foldUp_keeps (P := fun t : State => t.OutsidePools s) (.refl s) fun t k h => by
    dsimp only
    split
    · exact (outsidePools_bankEvent ..).trans (.trans ⟨rfl, rfl⟩ h)
    · exact h

theorem outsidePools_meetFailing (s : State) (core a n : Nat) (p : Nat → Bool) : (s.meetFailing core a n p).OutsidePools s :=
  foldUp_keeps (P := fun t : State => t.OutsidePools s) (.refl s) fun t k h => by
    split
    · exact (outsidePools_bankEvent ..).trans h
    · exact h

theorem outsidePools_poolRead (s : State) (core a n : Nat) : (s.poolRead core a n).2.OutsidePools s := by
  unfold State.poolRead
  split
  · exact (outsidePools_correctWords ..).trans (outsidePools_meetFailing ..)
  · exact outsidePools_correctWords ..

theorem outsidePools_markWords (s : State) (core a n : Nat) (f : PoolFault) (p : Nat → Bool) : (s.markWords core a n f p).OutsidePools s :=
  foldUp_keeps (P := fun t : State => t.OutsidePools s) (.refl s) fun t k h => by
    split
    · exact .trans ⟨rfl, rfl⟩ h
    · exact h

/-- A STREAM node's note of replaced bytes leaves the requests of every node. -/
theorem outsidePools_setNode {s : State} {n : Nat} {d : Node} (h : d.queue = (s.node n).queue) : (s.setNode n d).OutsidePools s := by
  refine ⟨rfl, Prod.ext (funext fun k => ?_) rfl⟩
  by_cases hk : k = n
  · subst hk
    exact (congrArg Node.queue (node_setNode_same ..)).trans h
  · exact congrArg Node.queue (node_setNode_other _ _ _ _ hk)

theorem outsidePools_keepOld (s : State) (core a n : Nat) : (s.keepOld core a n).OutsidePools s :=
  foldUp_keeps (P := fun t : State => t.OutsidePools s) (.refl s) fun t k h => by
    dsimp only
    split
    · exact h
    · exact (outsidePools_setNode (by rfl)).trans h

theorem outsidePools_poolStore (s : State) (core a : Nat) (bs : List Byte) : (s.poolStore core a bs).OutsidePools s :=
  (outsidePools_markWords ..).trans (.trans ⟨rfl, rfl⟩ (outsidePools_keepOld s core a bs.length))

/-- The pools, the package's memory, the Saggar, the clusters, and what of the PEs a request does not touch. -/
def State.requestFrame (s : State) : Map Byte × MemState × (Map Word × Map Pred × Map Token) × SagState × ClusterState :=
  (s.core.pool, s.mem, (s.unit.regs, s.unit.preds, s.unit.slots), s.sag, s.cluster)

theorem requestFrame_queueTrap (s : State) (dom : Nat) (r : Word) : (s.queueTrap dom r).requestFrame = s.requestFrame := by
  unfold State.queueTrap
  split <;> rfl

theorem requestFrame_respond (s : State) (die : Nat) (r : Word) (pattern : Bool) : (s.respond die r pattern).requestFrame = s.requestFrame := by
  unfold State.respond
  dsimp only
  split
  · split
    · split <;> rfl
    · rfl
  · rfl

theorem requestFrame_corePost (s : State) (core : Nat) (r : Word) : (s.corePost core r).requestFrame = s.requestFrame := by
  unfold State.corePost
  dsimp only
  split
  · rfl
  · exact (requestFrame_respond ..).trans (requestFrame_queueTrap ..)

theorem requestFrame_wakeTask (s : State) (pe slot : Nat) (v : Word) (fail : Option Word) :
    (s.wakeTask pe slot v fail).requestFrame = s.requestFrame := by
  unfold State.wakeTask
  dsimp only
  split <;> rfl

/-- The end of a request stores nothing and changes no register, predicate or channel slot. -/
theorem requestFrame_completeReq (s : State) (node k : Nat) (q : NodeReq) (v : Word) (fail : Option Word) :
    (s.completeReq node k q v fail).requestFrame = s.requestFrame := by
  unfold State.completeReq
  dsimp only
  split
  · split
    · exact requestFrame_wakeTask ..
    · cases fail with
      | none => rfl
      | some r => exact requestFrame_corePost ..
  · cases fail with
    | none => rfl
    | some r =>
      dsimp only
      split
      · rfl
      · exact requestFrame_corePost (s.touch (node / 4)) (node / 4) r

/-- What leaves the pools, and all that an access of them leaves, is no store. -/
theorem requestFrame_of_reads {s t : State} (hout : t.OutsidePools s) (hsame : t.SameBytes s) : t.requestFrame = s.requestFrame := by
  obtain ⟨hbeyond, -⟩ := hout
  obtain ⟨-, -, hpool⟩ := hsame
  simp only [State.beyondPools, Prod.mk.injEq] at hbeyond
  obtain ⟨hunit, hmem, hsag, hcluster⟩ := hbeyond
  simp only [State.requestFrame, hpool, hunit, hmem, hsag, hcluster]

theorem requestFrame_correctWords (s : State) (core a n : Nat) : (s.correctWords core a n).requestFrame = s.requestFrame :=
  requestFrame_of_reads (outsidePools_correctWords ..) (State.correctWords_same ..)

theorem requestFrame_markWords (s : State) (core a n : Nat) (f : PoolFault) (p : Nat → Bool) :
    (s.markWords core a n f p).requestFrame = s.requestFrame :=
  requestFrame_of_reads (outsidePools_markWords ..) (State.markWords_same ..)

theorem requestFrame_poolRead (s : State) (core a n : Nat) : (s.poolRead core a n).2.requestFrame = s.requestFrame :=
  requestFrame_of_reads (outsidePools_poolRead ..) (State.poolRead_same ..)

theorem requestFrame_streamBytes (core : Nat) (since : List Host.Cell) : ∀ (n : Nat) (s : State) (a : Nat),
    (s.streamBytes core since a n).2.requestFrame = s.requestFrame
  | 0, _, _ => rfl
  | n + 1, s, a => by
    have hbyte : (s.streamByte core a since).2.requestFrame = s.requestFrame := by
      unfold State.streamByte
      dsimp only
      split <;> rfl
    exact (requestFrame_streamBytes core since n (s.streamByte core a since).2 (a + 1)).trans hbyte

theorem requestFrame_streamLoad (s : State) (node : Nat) (q : NodeReq) (a n : Nat) :
    (s.streamLoad node q a n).2.requestFrame = s.requestFrame := by
  have hread := requestFrame_poolRead s (node / 4) a n
  unfold State.streamLoad
  dsimp only
  split <;> rename_i heq <;> rw [heq] at hread
  · exact hread
  · exact (requestFrame_streamBytes ..).trans hread

theorem requestFrame_acceptReq (s : State) (node : Nat) (q : NodeReq) (r : Request) :
    (s.acceptReq node q r).requestFrame = s.requestFrame := by
  unfold State.acceptReq
  dsimp only
  split
  · exact requestFrame_completeReq ..
  · split
    · rename_i a n _ _
      generalize hload : State.streamLoad _ node _ a n = u
      have hframe : u.2.requestFrame = s.requestFrame := hload ▸ requestFrame_streamLoad ..
      obtain ⟨p, u⟩ := u
      cases p with
      | value v => exact (requestFrame_completeReq ..).trans hframe
      | failed f => exact (requestFrame_completeReq ..).trans hframe
      | more op => exact hframe
    · rfl

theorem requestFrame_claim : Claims.RequestFrame := by
  intro node q r s t
  have h : t.requestFrame = s.requestFrame := requestFrame_acceptReq ..
  simp only [State.requestFrame, Prod.mk.injEq] at h
  obtain ⟨hpool, hmem, ⟨hregs, hpreds, hslots⟩, hsag, hcluster⟩ := h
  exact ⟨hpool, hmem, hregs, hpreds, hslots, hsag, hcluster⟩

/-- Settles O50: each instruction runs in the frame of `runInstr`, and what it waits for chooses the branch of its body. -/
theorem memoryRequests : Obligations.MemoryRequests := ⟨postedRequests, blockingRequests, requestFrame_claim⟩

/-! ## Tokens at a node's ports (R229, R230, R232, R251) -/

/-- Settles O3: the heads of the node's inputs and its queue choose the branch. -/
theorem nodePorts : Obligations.NodePorts := by
  refine ⟨fun node tok s hroom hhead hmark hpoison => ?load, fun node port tok data s hport hroom hhead hdata hm hm' hp hp' => ?pair,
    fun node port k q t s hfirst hq hdone hfree => ?result, fun node tok s hvalid hfirst hfree hhead hmark => ?marker,
    fun node x y s hx hy hxm hym hyp => ?realign, fun core word s h => ?writeBack⟩
  case load => simp [exec_memnodeAccept, execMemnodeAccept, hroom, hhead, hmark, hpoison]
  case pair =>
    obtain rfl | rfl := hport <;> simp [exec_memnodeAccept, execMemnodeAccept, hroom, hhead, hdata, hm, hm', hp, hp']
  case result => simp [exec_memnodeResultEmit, execMemnodeResultEmit, hfirst, hq, hdone, hfree]
  case marker => simp [exec_memnodeMarker, execMemnodeMarker, hvalid, hfirst, hfree, hhead, hmark]
  case realign => simp [exec_memnodePairRealign, execMemnodePairRealign, pairOf, hx, hy, hxm, hym, hyp]
  case writeBack => rw [exec_poolEccWriteback, execPoolEccWriteback, if_pos h]

/-! ## Bytes and numbers (R10) -/

theorem length_bytesOfNat : ∀ n v : Nat, (bytesOfNat n v).length = n
  | 0, _ => rfl
  | n + 1, v => congrArg (· + 1) (length_bytesOfNat n (v / 256))

theorem getElem_bytesOfNat : ∀ (n v j : Nat) (h : j < (bytesOfNat n v).length), (bytesOfNat n v)[j] = BitVec.ofNat 8 (v / 256 ^ j)
  | n + 1, v, 0, _ => by simp [bytesOfNat]
  | n + 1, v, j + 1, h => by
    have hj := getElem_bytesOfNat n (v / 256) j (by simpa [bytesOfNat] using h)
    simp only [bytesOfNat, List.getElem_cons_succ, hj]
    rw [Nat.div_div_eq_div_mul, ← Nat.pow_succ']

theorem ofNat_natOfBytes_div : ∀ (bs : List Byte) (j : Nat) (h : j < bs.length), BitVec.ofNat 8 (natOfBytes bs / 256 ^ j) = bs[j]
  | b :: bs, 0, _ => by
    apply BitVec.eq_of_toNat_eq
    have hb := b.isLt
    simp only [natOfBytes, pow_zero, Nat.div_one, BitVec.toNat_ofNat, List.getElem_cons_zero]
    omega
  | b :: bs, j + 1, h => by
    have hdiv : natOfBytes (b :: bs) / 256 = natOfBytes bs := by
      have hb := b.isLt
      simp only [natOfBytes]
      omega
    rw [Nat.pow_succ', ← Nat.div_div_eq_div_mul, hdiv]
    exact ofNat_natOfBytes_div bs j (by simpa using h)

/-! ## Bytes of a pool (R223, R224, R248, R252) -/

theorem getElem_poolBytes (s : State) (core a n : Nat) {j : Nat} (h : j < (s.poolBytes core a n).length) :
    (s.poolBytes core a n)[j] = s.poolByte core (a + j) := by
  simp only [State.poolBytes, Map.getList_eq, List.getElem_map, List.getElem_range, State.poolByte, Nat.add_assoc]

theorem length_poolBytes (s : State) (core a n : Nat) : (s.poolBytes core a n).length = n := by
  simp [State.poolBytes, Map.getList_eq]

/-- What is stored is read back, byte by byte. -/
theorem poolByte_poolStore_inside (s : State) (core a : Nat) (bs : List Byte) {j : Nat} (h : j < bs.length) :
    (s.poolStore core a bs).poolByte core (a + j) = bs[j] := by
  rw [State.poolByte, (State.poolStore_pool s core a bs).1, ← Nat.add_assoc]
  exact Map.find_putList_inside 0 bs _ _ h

theorem poolBut_of_pool {s t : State} (hp : t.core.pool = s.core.pool) (hm : t.mem = s.mem) (hr : t.unit.regs = s.unit.regs) (core a n : Nat) :
    Claims.PoolBut s t core a n := ⟨fun _ _ => by rw [hp], hm, hr⟩

theorem poolBut_poolStore (s : State) (core a : Nat) {bs : List Byte} {n : Nat} (h : bs.length = n) :
    Claims.PoolBut s (s.poolStore core a bs) core a n := by
  obtain ⟨hbeyond, -⟩ := outsidePools_poolStore s core a bs
  simp only [State.beyondPools, Prod.mk.injEq] at hbeyond
  obtain ⟨hunit, hmem, -, -⟩ := hbeyond
  refine ⟨fun k hk => ?_, hmem, congrArg UnitState.regs hunit⟩
  rw [(State.poolStore_pool s core a bs).1]
  exact Map.find_putList_outside 0 bs _ _ (h ▸ hk)

/-- The marks of a range's words, each of them marked. -/
theorem poolFault_markWords (s : State) (core a n : Nat) (f : PoolFault) {k : Nat} (h : k < (wordsOf a n).2) :
    (s.markWords core a n f).poolFault core (a / 8 + k) = f := by
  refine foldUp_induct (P := fun i (t : State) => ∀ k < i, t.poolFault core (a / 8 + k) = f) (fun k hk => absurd hk (Nat.not_lt_zero k))
    (fun i t ht k hk => ?_) k h
  rw [if_pos rfl]
  obtain rfl | hne := eq_or_ne k i
  · exact poolFault_setPoolFault_same ..
  · exact (poolFault_setPoolFault_other _ _ _ _ _ _ (by omega)).trans (ht k (by omega))

/-! ## One access of a request (R224, R230) -/

/-- The state in which the bank of a request's next access notes the node that it serves. -/
def State.atBank (s : State) (node : Nat) (q : NodeReq) : State :=
  q.op.nextWord.elim s fun w => s.setBankLast (node / 4) (w % 32) (node % 4)

theorem atBank_eq (s : State) (node : Nat) (q : NodeReq) :
    s.atBank node q = { s with core := { s.core with bankLast := (s.atBank node q).core.bankLast } } := by
  unfold State.atBank
  cases q.op.nextWord <;> rfl

section
variable {s : State} {node index : Nat} {q : NodeReq}

/-- A request in its turn has its next access. -/
theorem exec_memnodePerform_served (h : Claims.Served s node index q) :
    exec (.memnodePerform node index) s = .next (s.nodeAccess node index q) := by
  obtain ⟨hq, hmay, hturn⟩ := h
  have hbank : q.op.nextWord.elim false (fun w => !s.bankTurn node w) = false := by
    cases hw : q.op.nextWord with
    | none => rfl
    | some w => simp [hturn w hw]
  simp [exec_memnodePerform, execMemnodePerform, hq, hmay, hbank]

theorem requestFrame_atBank (s : State) (node : Nat) (q : NodeReq) : (s.atBank node q).requestFrame = s.requestFrame := by
  rw [atBank_eq]
  rfl

theorem failingWord_atBank (s : State) (node : Nat) (q : NodeReq) (core a n : Nat) (p : Nat → Bool) :
    (s.atBank node q).failingWord core a n p = s.failingWord core a n p := by
  rw [atBank_eq]
  rfl

theorem poolBytes_atBank (s : State) (node : Nat) (q : NodeReq) (core a n : Nat) :
    (s.atBank node q).poolBytes core a n = s.poolBytes core a n := by
  rw [atBank_eq]
  rfl

theorem outsidePools_atBank (s : State) (node : Nat) (q : NodeReq) : (s.atBank node q).OutsidePools s := by
  rw [atBank_eq]
  exact ⟨rfl, rfl⟩

/-- The access's end stores nothing more, whatever its outcome. -/
theorem requestFrame_nodeAccess : (s.nodeAccess node index q).requestFrame = ((s.atBank node q).performOp node q.tid q.op).2.requestFrame := by
  unfold State.nodeAccess State.atBank
  split <;> rename_i heq <;> rw [heq]
  · rfl
  · exact requestFrame_completeReq ..
  · exact requestFrame_completeReq ..

theorem nodeAccess_of_value {v : Word} {u : State} (h : (s.atBank node q).performOp node q.tid q.op = (.value v, u)) :
    s.nodeAccess node index q = u.completeReq node index q v none := by
  unfold State.atBank at h
  rw [State.nodeAccess, h]

/-- An access that ends with a store has stored just its bytes. -/
theorem nodeAccess_stores {u : State} {a n : Nat} {bs : List Byte} (hu : u.requestFrame = s.requestFrame) (hn : bs.length = n)
    (h : ((s.atBank node q).performOp node q.tid q.op).2.requestFrame = (u.poolStore (node / 4) a bs).requestFrame) :
    (∀ j (hj : j < bs.length), (s.nodeAccess node index q).poolByte (node / 4) (a + j) = bs[j]) ∧
      Claims.PoolBut s (s.nodeAccess node index q) (node / 4) a n := by
  have ht : (s.nodeAccess node index q).requestFrame = (u.poolStore (node / 4) a bs).requestFrame := requestFrame_nodeAccess.trans h
  obtain ⟨hbut, hmem, hregs⟩ := poolBut_poolStore u (node / 4) a hn
  simp only [State.requestFrame, Prod.mk.injEq] at hu ht
  obtain ⟨htp, htm, ⟨htr, -⟩, -⟩ := ht
  obtain ⟨hup, hum, ⟨hur, -⟩, -⟩ := hu
  refine ⟨fun j hj => ?_, fun k hk => ?_, htm.trans (hmem.trans hum), htr.trans (hregs.trans hur)⟩
  · rw [← poolByte_poolStore_inside u (node / 4) a bs hj]
    simp only [State.poolByte, htp]
  · rw [htp, hbut k hk, hup]

/-- An access that leaves pools, memory and registers. -/
theorem nodeAccess_reads (h : ((s.atBank node q).performOp node q.tid q.op).2.requestFrame = s.requestFrame) :
    (s.nodeAccess node index q).core.pool = s.core.pool ∧ (s.nodeAccess node index q).mem = s.mem ∧
      (s.nodeAccess node index q).unit.regs = s.unit.regs := by
  have ht := requestFrame_nodeAccess (index := index).trans h
  simp only [State.requestFrame, Prod.mk.injEq] at ht
  obtain ⟨hpool, hmem, ⟨hregs, -⟩, -⟩ := ht
  exact ⟨hpool, hmem, hregs⟩

/-! ## Where a result goes (R229, R236) -/

theorem wait_wakeTask {pe slot : Nat} (hw : (s.task pe slot).wait = .memSent) (v : Word) (fail : Option Word) :
    ((s.wakeTask pe slot v fail).task pe slot).wait = .memDone v fail := by
  rw [State.wakeTask, if_pos hw]
  exact congrArg Task.wait (task_setTask_same ..)

theorem wait_completeReq {pe slot : Nat} (hsrc : q.src = .pe pe slot) (hb : q.blocking = true) (hw : (s.task pe slot).wait = .memSent) (v : Word) :
    ((s.completeReq node index q v none).task pe slot).wait = .memDone v none := by
  simp only [State.completeReq, hsrc, hb, if_true]
  exact wait_wakeTask (by exact hw) v none

theorem answered_completeReq (hq : (s.node node).queue[index]? = some q) (hport : q.src.outPort.isSome = true) (v : Word) :
    Claims.Answered (s.completeReq node index q v none) node index q (s.resultToken node q v).payload := by
  have hlt : index < (s.node node).queue.length := (List.getElem?_eq_some_iff.mp hq).1
  have htok : s.resultToken node q v = { payload := (s.resultToken node q v).payload, dom := s.domOf (node / 4) } := by
    unfold State.resultToken
    dsimp only
    split <;> rfl
  have hset : s.completeReq node index q v none = (s.touch (node / 4)).setNode node { (s.node node) with
      queue := (s.node node).queue.take index ++ { q with done := some (s.resultToken node q v) } :: (s.node node).queue.drop (index + 1) } := by
    unfold State.completeReq
    dsimp only
    cases hs : q.src with
    | pe pe slot => rw [hs] at hport; cases hport
    | _ => rfl
  rw [Claims.Answered, hset, node_setNode_same]
  refine (List.getElem?_append_right (by simp)).trans ?_
  simp only [List.length_take, Nat.min_eq_left hlt.le, Nat.sub_self, List.getElem?_cons_zero]
  rw [htok]
  rfl

theorem poolFaults_completeReq (s : State) (node k : Nat) (q : NodeReq) (v : Word) :
    (s.completeReq node k q v none).core.poolFaults = s.core.poolFaults := by
  unfold State.completeReq State.wakeTask
  dsimp only
  repeat' split
  all_goals rfl

/-- The value of a request that performs comes back to its waiting task. -/
theorem nodeAccess_wakes {u : State} {v : Word} (hu : u.OutsidePools s) (h : (s.atBank node q).performOp node q.tid q.op = (.value v, u))
    (pe slot : Nat) (hsrc : q.src = .pe pe slot) (hb : q.blocking = true) (hw : (s.task pe slot).wait = .memSent) :
    ((s.nodeAccess node index q).task pe slot).wait = .memDone v none := by
  obtain ⟨hbeyond, -⟩ := hu
  have hunit : u.unit = s.unit := congrArg Prod.fst hbeyond
  rw [nodeAccess_of_value h]
  exact wait_completeReq hsrc hb (by rw [State.task, hunit]; exact hw) v

/-- The token of a request of a port that performs waits for the port. -/
theorem nodeAccess_answers {u : State} {v : Word} (hu : u.OutsidePools s) (h : (s.atBank node q).performOp node q.tid q.op = (.value v, u))
    (hq : (s.node node).queue[index]? = some q) (hport : q.src.outPort.isSome = true) :
    Claims.Answered (s.nodeAccess node index q) node index q (u.resultToken node q v).payload := by
  obtain ⟨-, hrequests⟩ := hu
  have hqueue : (u.node node).queue = (s.node node).queue := congrFun (congrArg Prod.fst hrequests) node
  rw [nodeAccess_of_value h]
  exact answered_completeReq (by rw [hqueue]; exact hq) hport v

end

/-! ## What each operation does (R230, R233, R234, R237 to R240) -/

section
variable {s : State} {node tid a n : Nat}

theorem performOp_load (h : s.failingWord (node / 4) a n = none) : s.performOp node tid (.load a n) =
    (.value (BitVec.ofNat 256 (natOfBytes (s.poolBytes (node / 4) a n))), s.correctWords (node / 4) a n) := by
  simp only [State.performOp, poolRead_good h]

/-- A write that covers part of no failing word stores its bytes. -/
theorem poolWrite_good {core : Nat} {bs : List Byte} (hn : bs.length = n) (h : s.failingWord core a n (fun w => !coversWord a n w) = none) :
    s.poolWrite core a bs = (none, s.poolStore core a bs) := by
  subst hn
  rw [State.poolWrite, h]

theorem performOp_store {v : Word} (h : s.failingWord (node / 4) a n (fun w => !coversWord a n w) = none) :
    s.performOp node tid (.store a n v false) = (.value 0, s.poolStore (node / 4) a (bytesOfNat n v.toNat)) := by
  simp only [State.performOp, Bool.false_eq_true, if_false, poolWrite_good (length_bytesOfNat n v.toNat) h]

theorem writeSome_good {src dst len m : Nat} {bs : List Byte} (hlen : len ≠ 0) (ha : a = dst + (len - bs.length))
    (hm : m = Nat.min (32 - a % 32) bs.length)
    (hall : bs.length = len → s.failingWord (node / 4) dst len (fun w => !coversWord dst len w) = none)
    (hpart : s.failingWord (node / 4) a m (fun w => !coversWord a m w) = none) :
    (s.writeSome node tid src dst len bs).2 = s.poolStore (node / 4) a (bs.take m) := by
  have htake : bs.take (32 - a % 32) = bs.take m := by
    rw [hm, List.take_eq_take_iff]
    exact (Nat.min_eq_left (Nat.min_le_right ..)).symm
  have hfirst : (if bs.length = len then s.failingWord (node / 4) dst len (fun w => !coversWord dst len w) else none) = none := by
    split
    case isTrue h => exact hall h
    case isFalse => rfl
  have hlm : (bs.take m).length = m := (List.length_take ..).trans (Nat.min_eq_left (hm ▸ Nat.min_le_right ..))
  unfold State.writeSome
  rw [if_neg hlen]
  dsimp only
  rw [hfirst]
  dsimp only
  rw [← ha, htake, poolWrite_good hlm hpart]

theorem readModify_good (h : s.failingWord (node / 4) a n = none) (f : Nat → Option Nat) :
    let old := natOfBytes (s.poolBytes (node / 4) a n)
    s.readModify node tid a n f = (.value (BitVec.ofNat 256 old), (f old).elim (s.correctWords (node / 4) a n) fun v =>
      (s.correctWords (node / 4) a n).poolStore (node / 4) a (bytesOfNat n v)) := by
  simp only [State.readModify, poolRead_good h]
  cases f (natOfBytes (s.poolBytes (node / 4) a n)) <;> rfl

theorem performOp_atomic {fmt aop : Nat} {v : BitVec 64} (h : s.failingWord (node / 4) a (elemBytes fmt) = none) :
    let old := natOfBytes (s.poolBytes (node / 4) a (elemBytes fmt))
    s.performOp node tid (.atomic a fmt aop v false) = (.value (BitVec.ofNat 256 old), (s.correctWords (node / 4) a (elemBytes fmt)).poolStore
      (node / 4) a (bytesOfNat (elemBytes fmt) (aluNew fmt aop old (v.toNat % 2 ^ (8 * elemBytes fmt))))) := by
  simp only [State.performOp, Bool.false_eq_true, if_false, readModify_good h, Option.elim_some]

theorem performOp_cas {fmt : Nat} {cmp swap : BitVec 64} (h : s.failingWord (node / 4) a (elemBytes fmt) = none) :
    let old := natOfBytes (s.poolBytes (node / 4) a (elemBytes fmt))
    s.performOp node tid (.cas a fmt cmp swap) = (.value (BitVec.ofNat 256 old),
      if old = cmp.toNat % 2 ^ (8 * elemBytes fmt) then (s.correctWords (node / 4) a (elemBytes fmt)).poolStore (node / 4) a
          (bytesOfNat (elemBytes fmt) (swap.toNat % 2 ^ (8 * elemBytes fmt)))
      else s.correctWords (node / 4) a (elemBytes fmt)) := by
  simp only [State.performOp, readModify_good h]
  split_ifs <;> rfl

theorem requestFrame_readSome (s : State) (node tid src dst len : Nat) (got : List Byte) :
    (s.readSome node tid src dst len got).2.requestFrame = s.requestFrame := by
  unfold State.readSome
  split
  · rfl
  · dsimp only
    split <;> rename_i heq <;> exact (congrArg (·.2.requestFrame) heq).symm.trans (requestFrame_poolRead ..)

theorem requestFrame_heapReadSome (s : State) (node tid a : Nat) (t : Shape) (fmt e : Nat) (got : List (Nat × Nat)) :
    (s.heapReadSome node tid a t fmt e got).2.requestFrame = s.requestFrame := by
  unfold State.heapReadSome
  split
  · rfl
  · rfl
  · rfl
  · split <;> rename_i heq <;> exact (congrArg (·.2.requestFrame) heq).symm.trans (requestFrame_poolRead ..)

end

/-- Settles O4: in its bank's turn a request has its access, and each of these ends with the store of its bytes. -/
theorem storePerforms : Obligations.StorePerforms := by
  refine ⟨fun node index s q a n v hs hop hgood => ?store, fun node index s q a n v hs hop => ?pattern,
    fun node index s q dst n v hs hop hn => ?fill, fun node index s q src dst n bs hs hop hn => ?copy,
    fun node index s q a h k v ws hs hop => ?heap⟩
  case store =>
    have hp : (s.atBank node q).performOp node q.tid q.op = (.value 0, (s.atBank node q).poolStore (node / 4) a (bytesOfNat n v.toNat)) := by
      rw [hop]
      exact performOp_store ((failingWord_atBank ..).trans hgood)
    have hlen := length_bytesOfNat n v.toNat
    obtain ⟨hbytes, hbut⟩ := nodeAccess_stores (index := index) (requestFrame_atBank s node q) hlen (congrArg (·.2.requestFrame) hp)
    refine ⟨_, exec_memnodePerform_served hs, fun j hj => ?_, hbut, fun hsrc => ?_⟩
    · rw [hbytes j (hlen.symm ▸ hj), getElem_bytesOfNat]
    · obtain ⟨hq, -, -⟩ := hs
      have ht := nodeAccess_answers ((outsidePools_poolStore ..).trans (outsidePools_atBank s node q)) hp hq (by rw [hsrc]; rfl)
      rwa [State.resultToken, hsrc] at ht
  case pattern =>
    intro w
    have hp : (s.atBank node q).performOp node q.tid q.op = (.value 0, (s.atBank node q).poolPattern (node / 4) a n) := by
      rw [hop, State.performOp]
      exact if_pos rfl
    have hlen : (List.replicate (8 * w.2) (0 : Byte)).length = 8 * w.2 := List.length_replicate
    obtain ⟨hbytes, hbut⟩ := nodeAccess_stores (index := index) (requestFrame_atBank s node q) hlen
      ((congrArg (·.2.requestFrame) hp).trans (requestFrame_markWords ..))
    refine ⟨_, exec_memnodePerform_served hs, fun k hk => ⟨?_, fun j hj => ?_⟩, hbut⟩
    · rw [nodeAccess_of_value hp, State.poolFault, poolFaults_completeReq]
      exact poolFault_markWords _ _ a n .pattern hk
    · have hj' : 8 * k + j < (List.replicate (8 * w.2) (0 : Byte)).length := by omega
      rw [show 8 * (w.1 + k) + j = 8 * w.1 + (8 * k + j) by omega, hbytes _ hj', List.getElem_replicate]
  case fill =>
    intro m hgood hpart
    have hlen : ((List.range n).map fun j => BitVec.ofNat 8 (laneOf 8 (j % 32) v)).length = n := by simp
    have hp : ((s.atBank node q).performOp node q.tid q.op).2 = (s.atBank node q).poolStore (node / 4) dst
        (((List.range n).map fun j => BitVec.ofNat 8 (laneOf 8 (j % 32) v)).take m) := by
      rw [hop]
      exact writeSome_good hn (by rw [hlen]; omega) (by rw [hlen]) (fun _ => (failingWord_atBank ..).trans hgood)
        ((failingWord_atBank ..).trans hpart)
    have hm : (((List.range n).map fun j => BitVec.ofNat 8 (laneOf 8 (j % 32) v)).take m).length = m := by
      rw [List.length_take, hlen]
      exact Nat.min_eq_left (Nat.min_le_right ..)
    obtain ⟨hbytes, hbut⟩ := nodeAccess_stores (index := index) (requestFrame_atBank s node q) hm (congrArg _ hp)
    refine ⟨_, exec_memnodePerform_served hs, fun j hj => ?_, hbut⟩
    rw [hbytes j (hm.symm ▸ hj)]
    simp
  case copy =>
    intro a' m hall hpart
    have hp : ((s.atBank node q).performOp node q.tid q.op).2 = (s.atBank node q).poolStore (node / 4) a' (bs.take m) := by
      rw [hop]
      exact writeSome_good hn rfl rfl (fun h => (failingWord_atBank ..).trans (hall h)) ((failingWord_atBank ..).trans hpart)
    have hm : (bs.take m).length = m := (List.length_take ..).trans (Nat.min_eq_left (Nat.min_le_right ..))
    obtain ⟨hbytes, hbut⟩ := nodeAccess_stores (index := index) (requestFrame_atBank s node q) hm (congrArg _ hp)
    refine ⟨_, exec_memnodePerform_served hs, fun j hj => ?_, hbut⟩
    have hj' : j < bs.length := hj.trans_le (Nat.min_le_right ..)
    rw [hbytes j (hm.symm ▸ hj), List.getElem_take, List.getD_eq_getElem _ _ hj']
  case heap =>
    have hp : ((s.atBank node q).performOp node q.tid q.op).2 = (s.atBank node q).poolStore (node / 4) (heapAddr a h k) (bytesOfNat 8 v) := by
      rw [hop]
      rfl
    have hlen := length_bytesOfNat 8 v
    obtain ⟨hbytes, hbut⟩ := nodeAccess_stores (index := index) (requestFrame_atBank s node q) hlen (congrArg _ hp)
    exact ⟨_, exec_memnodePerform_served hs, fun j hj => by rw [hbytes j (hlen.symm ▸ hj), getElem_bytesOfNat], hbut⟩

/-- Settles O5: a load's value is what its bytes hold, and the accesses that read leave the pools. -/
theorem loadPerforms : Obligations.LoadPerforms := by
  refine ⟨fun node index s q a n hs hop hgood => ?load, fun node index s q hs hop => ?reads⟩
  case load =>
    intro v
    have hp : (s.atBank node q).performOp node q.tid q.op = (.value v, (s.atBank node q).correctWords (node / 4) a n) := by
      rw [hop, performOp_load ((failingWord_atBank ..).trans hgood), poolBytes_atBank]
    have hframe : ((s.atBank node q).performOp node q.tid q.op).2.requestFrame = s.requestFrame := by
      rw [hp]
      exact (requestFrame_correctWords ..).trans (requestFrame_atBank ..)
    have hout := (outsidePools_correctWords (s.atBank node q) (node / 4) a n).trans (outsidePools_atBank s node q)
    obtain ⟨hpool, hmem, hregs⟩ := nodeAccess_reads (index := index) hframe
    refine ⟨_, exec_memnodePerform_served hs, hpool, hmem, hregs, nodeAccess_wakes hout hp, fun hsrc => ?_⟩
    obtain ⟨hq, -, -⟩ := hs
    have ht := nodeAccess_answers hout hp hq (by rw [hsrc]; rfl)
    rwa [State.resultToken, hsrc] at ht
  case reads =>
    have hframe : ((s.atBank node q).performOp node q.tid q.op).2.requestFrame = s.requestFrame := by
      refine Eq.trans ?_ (requestFrame_atBank s node q)
      obtain ⟨src, dst, n, hop⟩ | ⟨src, dst, n, got, hop⟩ | ⟨a, h, fmt, e, hop⟩ | ⟨a, h, fmt, e, got, hop⟩ := hop <;> rw [hop]
      · exact requestFrame_readSome ..
      · exact requestFrame_readSome ..
      · exact requestFrame_heapReadSome ..
      · exact requestFrame_heapReadSome ..
    exact ⟨_, exec_memnodePerform_served hs, nodeAccess_reads hframe⟩

/-- Settles O6: the element is read and its new value stored in the one access. -/
theorem atomicPerforms : Obligations.AtomicPerforms := by
  refine ⟨fun node index s q a fmt aop v hs hop hgood => ?atomic, fun node index s q a fmt cmp swap hs hop hgood => ?cas⟩
  case atomic =>
    intro n old
    have hp : (s.atBank node q).performOp node q.tid q.op = (.value (BitVec.ofNat 256 old),
        ((s.atBank node q).correctWords (node / 4) a n).poolStore (node / 4) a (bytesOfNat n (aluNew fmt aop old (v.toNat % 2 ^ (8 * n))))) := by
      rw [hop, performOp_atomic ((failingWord_atBank ..).trans hgood), poolBytes_atBank]
    have hframe := (requestFrame_correctWords (s.atBank node q) (node / 4) a n).trans (requestFrame_atBank s node q)
    have hout := (outsidePools_poolStore ((s.atBank node q).correctWords (node / 4) a n) (node / 4) a
      (bytesOfNat n (aluNew fmt aop old (v.toNat % 2 ^ (8 * n))))).trans
      ((outsidePools_correctWords (s.atBank node q) (node / 4) a n).trans (outsidePools_atBank s node q))
    have hlen := length_bytesOfNat n (aluNew fmt aop old (v.toNat % 2 ^ (8 * n)))
    obtain ⟨hbytes, hbut⟩ := nodeAccess_stores (index := index) hframe hlen (congrArg (·.2.requestFrame) hp)
    refine ⟨_, exec_memnodePerform_served hs, fun j hj => by rw [hbytes j (hlen.symm ▸ hj), getElem_bytesOfNat], hbut,
      nodeAccess_wakes hout hp, fun hsrc => ?_⟩
    obtain ⟨hq, -, -⟩ := hs
    have ht := nodeAccess_answers hout hp hq (by rw [hsrc]; rfl)
    rw [State.resultToken, hsrc] at ht
    simpa [Nat.mod_mod_of_dvd] using ht
  case cas =>
    intro n old new
    have hp : (s.atBank node q).performOp node q.tid q.op = (.value (BitVec.ofNat 256 old),
        if old = cmp.toNat % 2 ^ (8 * n) then
          ((s.atBank node q).correctWords (node / 4) a n).poolStore (node / 4) a (bytesOfNat n (swap.toNat % 2 ^ (8 * n)))
        else (s.atBank node q).correctWords (node / 4) a n) := by
      rw [hop, performOp_cas ((failingWord_atBank ..).trans hgood), poolBytes_atBank]
    have hframe := (requestFrame_correctWords (s.atBank node q) (node / 4) a n).trans (requestFrame_atBank s node q)
    have hread := (outsidePools_correctWords (s.atBank node q) (node / 4) a n).trans (outsidePools_atBank s node q)
    by_cases hfound : old = cmp.toNat % 2 ^ (8 * n)
    case pos =>
      have hnew : new = swap.toNat % 2 ^ (8 * n) := if_pos hfound
      rw [if_pos hfound] at hp
      have hlen := length_bytesOfNat n (swap.toNat % 2 ^ (8 * n))
      obtain ⟨hbytes, hbut⟩ := nodeAccess_stores (index := index) hframe hlen (congrArg (·.2.requestFrame) hp)
      exact ⟨_, exec_memnodePerform_served hs, fun j hj => by rw [hbytes j (hlen.symm ▸ hj), getElem_bytesOfNat, hnew], hbut,
        nodeAccess_wakes ((outsidePools_poolStore ..).trans hread) hp⟩
    case neg =>
      have hnew : new = old := if_neg hfound
      rw [if_neg hfound] at hp
      obtain ⟨hpool, hmem, hregs⟩ := nodeAccess_reads (index := index) ((congrArg (·.2.requestFrame) hp).trans hframe)
      refine ⟨_, exec_memnodePerform_served hs, fun j hj => ?_, poolBut_of_pool hpool hmem hregs .., nodeAccess_wakes hread hp⟩
      have hj' : j < (s.poolBytes (node / 4) a n).length := by rw [length_poolBytes]; exact hj
      rw [hnew, ofNat_natOfBytes_div _ j hj', getElem_poolBytes]
      simp only [State.poolByte, hpool]


end Sys2Proof.Machine
end

section
/-! PROOFS. The bytes that memory and the pools store, and what keeps their canonical form (spec/08 R222 to R225, spec/14 R394 to R403). -/
namespace Sys2Proof.Machine

/-- What is stored: the bytes of the package's memory, and those of the pools. -/
def State.stored (s : State) : Map Byte × Map Byte := (s.mem.bytes, s.core.pool)

/-- The state that a body leaves, however it ends. -/
def Done.state : Done → State
  | .done s => s
  | .fail _ _ s => s
  | .hold s => s

@[simp] theorem Done.state_done (s : State) : (Done.done s).state = s := rfl
@[simp] theorem Done.state_fail (c d : Nat) (s : State) : (Done.fail c d s).state = s := rfl
@[simp] theorem Done.state_hold (s : State) : (Done.hold s).state = s := rfl

/-- The canonical form speaks of nothing but the stored bytes. -/
theorem memWf_congr {s t : State} (h : t.stored = s.stored) : t.memWf ↔ s.memWf := by
  simp only [State.stored, Prod.mk.injEq] at h
  simp only [State.memWf, MemState.wf, h.1, h.2]

theorem State.SameBytes.stored {t s : State} (h : t.SameBytes s) : t.stored = s.stored := Prod.ext h.1 h.2.2

/-! ## Updates of other fields -/

theorem stored_mk (t : State) (u r sy cl me di hu sa fa ag fr no cu ac) :
    (State.mk u r t.core sy cl me t.mem di hu sa fa ag fr no cu ac).stored = t.stored := rfl

theorem stored_mk_core (t : State) (i f te n a g cu ba la) (u r sy cl me di hu sa fa ag fr no c ac) :
    (State.mk u r ⟨i, t.core.pool, f, te, n, a, g, cu, ba, la⟩ sy cl me t.mem di hu sa fa ag fr no c ac).stored = t.stored := rfl

theorem stored_mk_mem (t : State) (k f fr p mo ls rg ct ga) (u r sy cl me di hu sa fa ag fre no c ac) :
    (State.mk u r t.core sy cl me ⟨t.mem.bytes, k, f, fr, p, mo, ls, rg, ct, ga⟩ di hu sa fa ag fre no c ac).stored = t.stored := rfl

/-! ## Loops: over states, and over states that are carried with a result -/

theorem stored_foldl {α : Type} {f : State → α → State} (h : ∀ s a, (f s a).stored = s.stored) (xs : List α) (s : State) :
    (xs.foldl f s).stored = s.stored :=
  foldl_keeps (P := fun t : State => t.stored = s.stored) (fun t a ht => (h t a).trans ht) xs s rfl

theorem stored_foldUp {f : State → Nat → State} (h : ∀ s k, (f s k).stored = s.stored) (n : Nat) (s : State) :
    (foldUp n s f).stored = s.stored :=
  foldUp_keeps (P := fun t : State => t.stored = s.stored) rfl (fun t a ht => (h t a).trans ht)

theorem memWf_foldl {α : Type} {f : State → α → State} (h : ∀ s a, s.memWf → (f s a).memWf) (xs : List α) {s : State}
    (hs : s.memWf) : (xs.foldl f s).memWf :=
  foldl_keeps (P := State.memWf) h xs s hs

theorem memWf_foldUp {f : State → Nat → State} (h : ∀ s k, s.memWf → (f s k).memWf) (n : Nat) {s : State} (hs : s.memWf) :
    (foldUp n s f).memWf :=
  foldUp_keeps (P := State.memWf) hs h


theorem stored_foldl_snd {α β : Type} {f : β × State → α → β × State} (h : ∀ a x, (f a x).2.stored = a.2.stored)
    (xs : List α) (a : β × State) : (xs.foldl f a).2.stored = a.2.stored :=
  foldl_keeps (P := fun r : β × State => r.2.stored = a.2.stored) (fun r x hr => (h r x).trans hr) xs a rfl

theorem stored_foldUp_snd {β : Type} {f : β × State → Nat → β × State} (h : ∀ a k, (f a k).2.stored = a.2.stored)
    (n : Nat) (a : β × State) : (foldUp n a f).2.stored = a.2.stored :=
  foldUp_keeps (P := fun r : β × State => r.2.stored = a.2.stored) rfl (fun r k hr => (h r k).trans hr)

theorem memWf_foldl_snd {α β : Type} {f : β × State → α → β × State} (h : ∀ a x, a.2.memWf → (f a x).2.memWf)
    (xs : List α) {a : β × State} (ha : a.2.memWf) : (xs.foldl f a).2.memWf :=
  foldl_keeps (P := fun r : β × State => r.2.memWf) h xs a ha

theorem memWf_foldUp_snd {β : Type} {f : β × State → Nat → β × State} (h : ∀ a k, a.2.memWf → (f a k).2.memWf)
    (n : Nat) {a : β × State} (ha : a.2.memWf) : (foldUp n a f).2.memWf :=
  foldUp_keeps (P := fun r : β × State => r.2.memWf) ha h

theorem stored_elim {α : Type} {f : α → State} {s : State} (h : ∀ x, (f x).stored = s.stored) (o : Option α) :
    (o.elim s f).stored = s.stored := by cases o <;> simp [h]

end Sys2Proof.Machine
end

section
/-! PROOFS. What each function of the model leaves of the stored bytes: the same bytes (`stored_…`), or bytes in canonical form (`memWf_…`). -/
namespace Sys2Proof.Machine

/-! ## The cells of the state -/

@[simp] theorem stored_setTask (s : State) (pe t : Nat) (v : Task) : (s.setTask pe t v).stored = s.stored := rfl
@[simp] theorem stored_setReg (s : State) (pe n : Nat) (v : Word) : (s.setReg pe n v).stored = s.stored := rfl
@[simp] theorem stored_setPredOf (s : State) (pe q : Nat) (v : Pred) : (s.setPredOf pe q v).stored = s.stored := rfl
@[simp] theorem stored_setSlotOf (s : State) (pe n : Nat) (v : Token) : (s.setSlotOf pe n v).stored = s.stored := rfl
@[simp] theorem stored_setEntry (s : State) (pe n : Nat) (v : StoreEntry) : (s.setEntry pe n v).stored = s.stored := rfl
@[simp] theorem stored_setHandle (s : State) (pe h : Nat) (v : Handle) : (s.setHandle pe h v).stored = s.stored := rfl
@[simp] theorem stored_setChooser (s : State) (pe : Nat) (v : Chooser) : (s.setChooser pe v).stored = s.stored := rfl
@[simp] theorem stored_setBadReg (s : State) (pe n : Nat) (v : Bool) : (s.setBadReg pe n v).stored = s.stored := rfl
@[simp] theorem stored_setDamagedReg (s : State) (pe n : Nat) (v : Bool) : (s.setDamagedReg pe n v).stored = s.stored := rfl
@[simp] theorem stored_setPeDetector (s : State) (pe : Nat) (v : Detector) : (s.setPeDetector pe v).stored = s.stored := rfl
@[simp] theorem stored_setLink (s : State) (r dir vc : Nat) (v : List (Token)) : (s.setLink r dir vc v).stored = s.stored := rfl
@[simp] theorem stored_setLinkLast (s : State) (r dir : Nat) (v : Nat) : (s.setLinkLast r dir v).stored = s.stored := rfl
@[simp] theorem stored_setLocalInLast (s : State) (r : Nat) (v : Nat) : (s.setLocalInLast r v).stored = s.stored := rfl
@[simp] theorem stored_setLocalOutLast (s : State) (r : Nat) (v : Nat) : (s.setLocalOutLast r v).stored = s.stored := rfl
@[simp] theorem stored_setElemInLast (s : State) (r : Nat) (v : Nat) : (s.setElemInLast r v).stored = s.stored := rfl
@[simp] theorem stored_setElemOutLast (s : State) (r : Nat) (v : Nat) : (s.setElemOutLast r v).stored = s.stored := rfl
@[simp] theorem stored_setRoute (s : State) (r e : Nat) (v : Route) : (s.setRoute r e v).stored = s.stored := rfl
@[simp] theorem stored_setOpSlot (s : State) (r k : Nat) (v : OpSlot) : (s.setOpSlot r k v).stored = s.stored := rfl
@[simp] theorem stored_setInfo (s : State) (c : Nat) (v : CoreInfo) : (s.setInfo c v).stored = s.stored := rfl
@[simp] theorem stored_setPoolFault (s : State) (c w : Nat) (v : PoolFault) : (s.setPoolFault c w v).stored = s.stored := rfl
@[simp] theorem stored_setTensor (s : State) (c k : Nat) (v : PoolTensor) : (s.setTensor c k v).stored = s.stored := rfl
@[simp] theorem stored_setNode (s : State) (n : Nat) (v : Node) : (s.setNode n v).stored = s.stored := rfl
@[simp] theorem stored_setAgen (s : State) (n : Nat) (v : Agen) : (s.setAgen n v).stored = s.stored := rfl
@[simp] theorem stored_setGlaze (s : State) (c : Nat) (v : Glaze) : (s.setGlaze c v).stored = s.stored := rfl
@[simp] theorem stored_setCursor (s : State) (c k : Nat) (v : Cursor) : (s.setCursor c k v).stored = s.stored := rfl
@[simp] theorem stored_setBankDetector (s : State) (b : Nat) (v : Detector) : (s.setBankDetector b v).stored = s.stored := rfl
@[simp] theorem stored_setBankLast (s : State) (c b : Nat) (v : Nat) : (s.setBankLast c b v).stored = s.stored := rfl
@[simp] theorem stored_setBarrier (s : State) (k : Nat) (v : Barrier) : (s.setBarrier k v).stored = s.stored := rfl
@[simp] theorem stored_setCometPort (s : State) (cm p : Nat) (v : CometPort) : (s.setCometPort cm p v).stored = s.stored := rfl
@[simp] theorem stored_setStream (s : State) (c r : Nat) (v : StreamReg) : (s.setStream c r v).stored = s.stored := rfl
@[simp] theorem stored_setCmdq (s : State) (c : Nat) (v : List (Cmd)) : (s.setCmdq c v).stored = s.stored := rfl
@[simp] theorem stored_setCc (s : State) (c k : Nat) (v : CompCtr) : (s.setCc c k v).stored = s.stored := rfl
@[simp] theorem stored_setKslot (s : State) (cl n : Nat) (v : KSlot) : (s.setKslot cl n v).stored = s.stored := rfl
@[simp] theorem stored_setKctr (s : State) (cl n : Nat) (v : KCtr) : (s.setKctr cl n v).stored = s.stored := rfl
@[simp] theorem stored_setKrecs (s : State) (cl : Nat) (v : List (KRec)) : (s.setKrecs cl v).stored = s.stored := rfl
@[simp] theorem stored_setKiln (s : State) (k : Nat) (v : Option (SubTile)) : (s.setKiln k v).stored = s.stored := rfl
@[simp] theorem stored_setKport (s : State) (k p : Nat) (v : List (Token)) : (s.setKport k p v).stored = s.stored := rfl
@[simp] theorem stored_setLimitsOf (s : State) (g : Nat) (v : Limits) : (s.setLimitsOf g v).stored = s.stored := rfl
@[simp] theorem stored_setKilnDetector (s : State) (k : Nat) (v : Detector) : (s.setKilnDetector k v).stored = s.stored := rfl
@[simp] theorem stored_setLoader (s : State) (cl : Nat) (v : Loader) : (s.setLoader cl v).stored = s.stored := rfl
@[simp] theorem stored_setMeshIn (s : State) (r i vc : Nat) (v : List (Flit)) : (s.setMeshIn r i vc v).stored = s.stored := rfl
@[simp] theorem stored_setMeshOut (s : State) (r o : Nat) (v : MeshOut) : (s.setMeshOut r o v).stored = s.stored := rfl
@[simp] theorem stored_setMeshDone (s : State) (r o : Nat) (v : List (Flit)) : (s.setMeshDone r o v).stored = s.stored := rfl
@[simp] theorem stored_setFrame (s : State) (f : Nat) (v : Frame) : (s.setFrame f v).stored = s.stored := rfl
@[simp] theorem stored_setLineFault (s : State) (l : Nat) (v : LineFault) : (s.setLineFault l v).stored = s.stored := rfl
@[simp] theorem stored_setCtrlQ (s : State) (k : Nat) (v : List (CtrlReq)) : (s.setCtrlQ k v).stored = s.stored := rfl
@[simp] theorem stored_setGatherQ (s : State) (k : Nat) (v : List (GatherReq)) : (s.setGatherQ k v).stored = s.stored := rfl
@[simp] theorem stored_setDieOf (s : State) (d : Nat) (v : Die) : (s.setDieOf d v).stored = s.stored := rfl
@[simp] theorem stored_setCtx (s : State) (dom : Nat) (v : Ctx) : (s.setCtx dom v).stored = s.stored := rfl
@[simp] theorem stored_setFunc (s : State) (f : Nat) (v : Func) : (s.setFunc f v).stored = s.stored := rfl
@[simp] theorem stored_setMeasReg (s : State) (k : Nat) (v : Word) : (s.setMeasReg k v).stored = s.stored := rfl
@[simp] theorem stored_setMapEntry (s : State) (m : Nat) (v : MapEntry) : (s.setMapEntry m v).stored = s.stored := rfl
@[simp] theorem stored_setFabLink (s : State) (l : Nat) (v : FabLink) : (s.setFabLink l v).stored = s.stored := rfl
@[simp] theorem stored_setMember (s : State) (dom m : Nat) (v : Bool) : (s.setMember dom m v).stored = s.stored := rfl
@[simp] theorem stored_setDedup (s : State) (k : Nat) (v : Dedup) : (s.setDedup k v).stored = s.stored := rfl

/-! ## Poison, traps, events and posts -/

@[simp] theorem stored_touch (s : State) (core : Nat) : (s.touch core).stored = s.stored := rfl

@[simp] theorem stored_logEvent (s : State) (ring code payload dom origin : Nat) (always : Bool) :
    (s.logEvent ring code payload dom origin always).stored = s.stored :=
  (State.logEvent_same ..).stored

@[simp] theorem stored_openVal (s : State) (which : Nat) : (s.openVal which).2.stored = s.stored := rfl

@[simp] theorem stored_dispEvent (s : State) (ring code disp dom origin : Nat) (always : Bool) :
    (s.dispEvent ring code disp dom origin always).stored = s.stored := by
  grind [State.dispEvent, stored_logEvent, stored_openVal]

@[simp] theorem stored_peEvent (s : State) (pe code : Nat) (slot tiw : Nat) (always : Bool) :
    (s.peEvent pe code slot tiw always).stored = s.stored := by
  grind [State.peEvent, stored_logEvent]

@[simp] theorem stored_queueTrap (s : State) (dom : Nat) (r : Word) : (s.queueTrap dom r).stored = s.stored :=
  (State.queueTrap_same ..).stored
@[simp] theorem stored_admitTraps (s : State) : (s.admitTraps).stored = s.stored := by
  grind [State.admitTraps, stored_queueTrap, stored_mk, stored_foldl]
@[simp] theorem stored_post (s : State) (n : Notice) : (s.post n).stored = s.stored := rfl

@[simp] theorem stored_postRecord (s : State) (die : Nat) (r : Word) (more : Nat) (pattern : Bool) :
    (s.postRecord die r more pattern).stored = s.stored :=
  (State.postRecord_same ..).stored

@[simp] theorem stored_corePost (s : State) (core : Nat) (r : Word) : (s.corePost core r).stored = s.stored := by
  grind [State.corePost, stored_postRecord, stored_setInfo]
@[simp] theorem stored_emit (s : State) (pe slot : Nat) (cause detail : Nat) (code : Nat) :
    (s.emit pe slot cause detail code).stored = s.stored := rfl
@[simp] theorem stored_consume1 (s : State) (pe h : Nat) : (s.consume1 pe h).stored = s.stored := rfl
@[simp] theorem stored_consume (s : State) (pe h : Nat) (n : Nat) : (s.consume pe h n).stored = s.stored := by
  induction n generalizing s pe h <;> grind [State.consume, stored_consume1]
@[simp] theorem stored_publish (s : State) (pe h : Nat) (tok : Token) : (s.publish pe h tok).stored = s.stored := rfl
@[simp] theorem stored_publishPoison (s : State) (pe slot h : Nat) (r : Word) : (s.publishPoison pe slot h r).stored = s.stored := rfl

@[simp] theorem stored_publishWindow1 (s : State) (pe slot h : Nat) : (s.publishWindow1 pe slot h).stored = s.stored := by
  unfold State.publishWindow1
  dsimp only
  split <;> rfl

@[simp] theorem stored_publishWindow (s : State) (pe slot h : Nat) (n : Nat) : (s.publishWindow pe slot h n).stored = s.stored := by
  induction n generalizing s pe slot h <;> grind [State.publishWindow, stored_publishWindow1]

@[simp] theorem stored_advance (s : State) (pe slot p n : Nat) : (s.advance pe slot p n).stored = s.stored := by
  unfold State.advance
  split <;> simp only [stored_consume, stored_publishWindow, stored_setTask]

@[simp] theorem stored_fillPoison (s : State) (pe slot h : Nat) (r : Word) (n : Nat) :
    (s.fillPoison pe slot h r n).stored = s.stored := by
  induction n generalizing s pe slot h r <;> grind [State.fillPoison, stored_publishPoison]

@[simp] theorem stored_completePort (s : State) (pe slot : Nat) (r : Word) (p : Nat) :
    (s.completePort pe slot r p).stored = s.stored := by
  unfold State.completePort
  simp only [apply_ite State.stored, ite_self, stored_consume, stored_fillPoison, stored_setTask]

@[simp] theorem stored_completeWindows (s : State) (pe slot cause : Nat) : (s.completeWindows pe slot cause).stored = s.stored := by
  grind [State.completeWindows, stored_completePort, stored_foldUp]

@[simp] theorem stored_postHeld (s : State) (pe slot : Nat) : (s.postHeld pe slot).stored = s.stored := by
  unfold State.postHeld
  dsimp only
  repeat' split
  all_goals simp only [stored_corePost, stored_setTask]

@[simp] theorem stored_endFiring (s : State) (pe slot cause : Nat) : (s.endFiring pe slot cause).stored = s.stored := by
  unfold State.endFiring
  simp only [stored_completeWindows, stored_postHeld, stored_setTask]

@[simp] theorem stored_goto (s : State) (pe slot : Nat) (e : BitVec 8) : (s.goto pe slot e).stored = s.stored := rfl

@[simp] theorem stored_sequence (s : State) (pe slot : Nat) (op : BitVec 8) (w : Fields) :
    (s.sequence pe slot op w).stored = s.stored := by
  grind [State.sequence, stored_emit, stored_endFiring, stored_goto, stored_setTask, stored_touch]

@[simp] theorem stored_takeTurn (s : State) (k place : Nat) : (s.takeTurn k place).stored = s.stored := rfl

/-! ## The memory of the package -/

@[simp] theorem stored_writeLine (s : State) (p n dom : Nat) (written : Nat → Bool) : (s.writeLine p n dom written).2.stored = s.stored :=
  (State.writeLine_same ..).stored
@[simp] theorem stored_loadKey (s : State) (slot : Nat) (k : Option KeyPair) : (s.loadKey slot k).stored = s.stored := rfl
@[simp] theorem stored_memRead (s : State) (slot dom p n : Nat) : (s.memRead slot dom p n).2.stored = s.stored :=
  (State.memRead_same ..).stored
@[simp] theorem stored_expandFrames (s : State) (slot p n dom : Nat) : (s.expandFrames slot p n dom).stored = s.stored :=
  (State.expandFrames_same ..).stored

theorem memWf_memWrite (s : State) (slot dom p : Nat) (bs : List Byte) (written : Nat → Bool) (h : s.memWf) :
    (s.memWrite slot dom p bs written).2.memWf :=
  State.memWrite_memWf h ..

@[simp] theorem stored_unitLines (s : State) : (s.unitLines).2.stored = s.stored := rfl
@[simp] theorem stored_frameLines (s : State) : (s.frameLines).2.stored = s.stored :=
  stored_foldUp_snd (fun a _ => by grind [stored_unitLines]) _ _

theorem memWf_storeFrame (s : State) (slot dom p : Nat) (bs : List Byte) (lines : List Nat) (h : s.memWf) :
    (s.storeFrame slot dom p bs lines).2.memWf := by
  unfold State.storeFrame
  split
  · exact h
  split
  · exact h
  dsimp only
  generalize hr : foldUp 1024 _ _ = r
  have hs : r.2.memWf := by
    rw [← hr]
    exact memWf_foldUp_snd (fun a k ha => by grind [stored_writeLine, memWf_congr]) _ h
  split
  · exact h
  · exact (memWf_congr (stored_setFrame ..)).2 ⟨MemState.wf_putBytes hs.1 .., hs.2⟩

@[simp] theorem stored_storePattern (s : State) (slot dom p n : Nat) : (s.storePattern slot dom p n).2.stored = s.stored := by
  unfold State.storePattern
  split
  · rfl
  · refine (stored_foldUp_snd (fun a k => ?_) _ _).trans (stored_expandFrames ..)
    grind [stored_writeLine, stored_setLineFault]

@[simp] theorem stored_postWrite (s : State) (dom disp p : Nat) (f : Option MemFail) : (s.postWrite dom disp p f).stored = s.stored :=
  (State.postWrite_same ..).stored

@[simp] theorem stored_postKey (s : State) (dom disp p : Nat) (f : Option MemFail) : (s.postKey dom disp p f).stored = s.stored := by
  unfold State.postKey
  split <;> simp only [stored_postWrite]

theorem memWf_memStore (s : State) (slot dom disp p : Nat) (bs : List Byte) (h : s.memWf) : (s.memStore slot dom disp p bs).memWf :=
  State.memStore_memWf h ..

/-! ## The frame of a task instruction -/

@[simp] theorem stored_writeReg (s : State) (pe n : Nat) (v : Word) (full : Bool) : (s.writeReg pe n v full).stored = s.stored := by
  unfold State.writeReg
  split <;> rfl

@[simp] theorem stored_putD (i : Issue) (s : State) (v : Word) : (i.putD s v).stored = s.stored := by
  unfold Issue.putD
  split <;> simp only [stored_setSlotOf, stored_writeReg]

@[simp] theorem stored_putPred (i : Issue) (s : State) (q : Nat) (v : Pred) : (i.putPred s q v).stored = s.stored := rfl
@[simp] theorem stored_apply (i : Issue) (s : State) (e : Eff) : (i.apply s e).stored = s.stored := by
  grind [Issue.apply, stored_putD, stored_putPred, stored_emit, stored_setTask]

@[simp] theorem stored_repair (i : Issue) (s : State) (n : Nat) : (i.repair s n).stored = s.stored := by
  unfold Issue.repair
  repeat' split
  all_goals simp only [stored_peEvent, stored_setBadReg, stored_setDamagedReg, stored_setReg]

@[simp] theorem stored_failWith (i : Issue) (s : State) (cause detail : Nat) : (i.failWith s cause detail).stored = s.stored := by
  grind [Issue.failWith, stored_emit, stored_sequence]
@[simp] theorem stored_illegal (i : Issue) (field : Nat) : (i.illegal field).state.stored = i.s.stored := rfl

/-! ## The pool of a core -/

@[simp] theorem stored_meetFailing (s : State) (core a n : Nat) (p : Nat → Bool) : (s.meetFailing core a n p).stored = s.stored :=
  (State.meetFailing_same ..).stored
@[simp] theorem stored_poolRead (s : State) (core a n : Nat) : (s.poolRead core a n).2.stored = s.stored :=
  (State.poolRead_same ..).stored
theorem memWf_poolStore (s : State) (core a : Nat) (bs : List Byte) (h : s.memWf) : (s.poolStore core a bs).memWf :=
  State.poolStore_memWf h ..
theorem memWf_poolWrite (s : State) (core a : Nat) (bs : List Byte) (h : s.memWf) : (s.poolWrite core a bs).2.memWf :=
  State.poolWrite_memWf h ..
theorem memWf_poolPattern (s : State) (core a n : Nat) (h : s.memWf) : (s.poolPattern core a n).memWf :=
  State.poolPattern_memWf h ..

/-! ## The mesh -/

@[simp] theorem stored_takePacket (s : State) (cl ep : Nat) (p : BitVec 512 → Bool) : (s.takePacket cl ep p).2.stored = s.stored := by
  unfold State.takePacket
  dsimp only
  split <;> rfl

@[simp] theorem stored_hop (s : State) (r out : Nat) : (s.hop r out).stored = s.stored := by
  unfold State.hop
  split
  · rfl
  split
  · rfl
  dsimp only
  split
  · simp only [stored_setMeshIn, stored_elim fun n => stored_setMeshOut _ n out _, stored_setMeshOut]
  · simp only [stored_setMeshDone, stored_setMeshIn, stored_setMeshOut]

/-! ## The router array -/

@[simp] theorem stored_takePublished (s : State) (pe h : Nat) : (s.takePublished pe h).stored = s.stored := rfl

@[simp] theorem stored_popIsland (s : State) (p : IslandPort) : (s.popIsland p).stored = s.stored := by
  unfold State.popIsland
  split <;> rfl

@[simp] theorem stored_popInput (s : State) (r : Nat) (t : Route) : (s.popInput r t).stored = s.stored := by
  unfold State.popInput
  repeat' split
  all_goals simp only [stored_popIsland, stored_setAgen, stored_setGlaze, stored_setLink, stored_setNode, stored_setOpSlot,
    stored_takePublished]

@[simp] theorem stored_pushOutput (s : State) (r : Nat) (t : Route) (tok : Token) : (s.pushOutput r t tok).stored = s.stored := by
  unfold State.pushOutput
  dsimp only
  repeat' split
  all_goals rfl

@[simp] theorem stored_moveRoute (s : State) (r e : Nat) : (s.moveRoute r e).stored = s.stored := by
  unfold State.moveRoute
  dsimp only
  split <;> simp only [stored_popInput, stored_pushOutput, stored_touch]

@[simp] theorem stored_serveRoute (s : State) (r e : Nat) : (s.serveRoute r e).stored = s.stored := by
  unfold State.serveRoute
  simp only [apply_ite State.stored, ite_self, stored_moveRoute, stored_setElemInLast, stored_setElemOutLast, stored_setLinkLast,
    stored_setLocalInLast, stored_setLocalOutLast]

@[simp] theorem stored_give (s : State) (r out n : Nat) : (s.give r out n).stored = s.stored := by
  unfold State.give
  repeat' split
  all_goals simp only [stored_serveRoute]

@[simp] theorem stored_takeIn (s : State) (r port : Nat) : (s.takeIn r port).stored = s.stored := by
  unfold State.takeIn
  repeat' split
  all_goals simp only [stored_serveRoute]

/-! ## Memory nodes and memory instructions -/

theorem memWf_readModify (s : State) (node tid a n : Nat) (f : Nat → Option Nat) (h : s.memWf) :
    (s.readModify node tid a n f).2.memWf := by
  grind [State.readModify, stored_poolRead, memWf_poolStore, memWf_congr]

@[simp] theorem stored_heapReadSome (s : State) (node tid a : Nat) (t : Shape) (fmt e : Nat) (got : List (Nat × Nat)) :
    (s.heapReadSome node tid a t fmt e got).2.stored = s.stored := by
  grind [State.heapReadSome, stored_poolRead]

theorem memWf_heapWriteSome (s : State) (node a : Nat) (t : Shape) (ws : List (Nat × Nat)) (h : s.memWf) :
    (s.heapWriteSome node a t ws).2.memWf := by
  unfold State.heapWriteSome
  grind [memWf_poolStore]

@[simp] theorem stored_readSome (s : State) (node tid src dst len : Nat) (got : List Byte) :
    (s.readSome node tid src dst len got).2.stored = s.stored := by
  grind [State.readSome, stored_poolRead]

theorem memWf_writeSome (s : State) (node tid src dst len : Nat) (bs : List Byte) (h : s.memWf) :
    (s.writeSome node tid src dst len bs).2.memWf := by
  grind [State.writeSome, stored_meetFailing, memWf_poolWrite, memWf_congr]

theorem memWf_performOp (s : State) (node tid : Nat) (op : ReqOp) (h : s.memWf) : (s.performOp node tid op).2.memWf := by
  unfold State.performOp
  grind [stored_heapReadSome, memWf_heapWriteSome, memWf_poolPattern, stored_poolRead, memWf_poolWrite, memWf_readModify,
    stored_readSome, memWf_writeSome, memWf_congr]

@[simp] theorem stored_wakeTask (s : State) (pe slot : Nat) (v : Word) (fail : Option Word) :
    (s.wakeTask pe slot v fail).stored = s.stored := by
  unfold State.wakeTask
  dsimp only
  split <;> rfl

@[simp] theorem stored_completeReq (s : State) (node k : Nat) (q : NodeReq) (v : Word) (fail : Option Word) :
    (s.completeReq node k q v fail).stored = s.stored := by
  unfold State.completeReq
  repeat' split
  all_goals simp only [stored_corePost, stored_setNode, stored_touch, stored_wakeTask]

theorem memWf_nodeAccess (s : State) (node index : Nat) (q : NodeReq) (h : s.memWf) : (s.nodeAccess node index q).memWf := by
  have h' : (q.op.nextWord.elim s fun w => s.setBankLast (node / 4) (w % 32) (node % 4)).memWf :=
    (memWf_congr (stored_elim (fun w => stored_setBankLast ..) _)).2 h
  have := memWf_performOp _ node q.tid q.op h'
  grind [State.nodeAccess, memWf_congr, stored_touch, stored_setNode, stored_completeReq]

theorem memWf_nodesFirst (s : State) (core requester bank : Nat) (n : Nat) (h : s.memWf) :
    (s.nodesFirst core requester bank n).memWf := by
  induction n generalizing s core requester bank <;> grind [State.nodesFirst, memWf_nodeAccess]

theorem memWf_bankServed (s : State) (core requester a n : Nat) (h : s.memWf) : (s.bankServed core requester a n).memWf := by
  grind [State.bankServed, memWf_nodesFirst, stored_setBankLast, memWf_congr, stored_foldUp, memWf_foldUp]

@[simp] theorem stored_streamByte (s : State) (core a : Nat) (since : List Host.Cell) :
    (s.streamByte core a since).2.stored = s.stored := by
  unfold State.streamByte
  dsimp only
  split <;> rfl

@[simp] theorem stored_streamBytes (s : State) (core : Nat) (since : List Host.Cell) (fuel : Nat) (n : Nat) :
    (s.streamBytes core since fuel n).2.stored = s.stored := by
  induction n generalizing s core since fuel <;> grind [State.streamBytes, stored_streamByte]

@[simp] theorem stored_streamLoad (s : State) (node : Nat) (q : NodeReq) (a n : Nat) : (s.streamLoad node q a n).2.stored = s.stored := by
  grind [State.streamLoad, stored_poolRead, stored_streamBytes]
@[simp] theorem stored_acceptReq (s : State) (node : Nat) (q : NodeReq) (r : Request) : (s.acceptReq node q r).stored = s.stored := by
  grind [State.acceptReq, stored_completeReq, stored_setNode, stored_streamLoad, stored_touch]
@[simp] theorem stored_acceptPoison (s : State) (node : Nat) (src : ReqSrc) (tok : Token) :
    (s.acceptPoison node src tok).stored = s.stored := rfl

@[simp] theorem stored_nodeEmit (s : State) (node out : Nat) (t : Token) : (s.nodeEmit node out t).stored = s.stored := by
  unfold State.nodeEmit
  split <;> rfl

@[simp] theorem stored_sendMem (i : Issue) (blocking : Bool) (r : Request) : (i.sendMem blocking r).state.stored = i.s.stored := by
  unfold Issue.sendMem
  dsimp only
  repeat' split
  all_goals simp only [Done.state_done, Done.state_hold, stored_acceptReq, stored_setTask]

/-! ## Memory controllers -/

@[simp] theorem stored_acceptCtrl (s : State) (cl : Nat) : (s.acceptCtrl cl).stored = s.stored := by
  grind [State.acceptCtrl, stored_setCtrlQ, stored_takePacket]
theorem stored_ctrlReply (s : State) (cl : Nat) (hdr : BitVec 64) (type addr id status : Nat) (data : List (BitVec 512)) (short : Nat) :
    (s.ctrlReply cl hdr type addr id status data short).stored = s.stored := rfl
@[simp] theorem stored_serveRead (s : State) (cl k : Nat) (r : CtrlReq) : (s.serveRead cl k r).stored = s.stored := by
  grind [State.serveRead, stored_ctrlReply, stored_memRead, stored_setCtrlQ]
@[simp] theorem stored_readAtom (s : State) (r : CtrlReq) (x : Nat × Nat) : (s.readAtom r x).2.stored = s.stored := by
  grind [State.readAtom, stored_memRead]
theorem stored_writeReply (s : State) (cl : Nat) (hdr : BitVec 64) (addr id : Nat) (old : Option Nat) :
    (s.writeReply cl hdr addr id old).stored = s.stored := rfl
theorem memWf_serveWrite (s : State) (cl : Nat) (r : CtrlReq) (old : Option Nat) (h : s.memWf) : (s.serveWrite cl r old).memWf := by
  grind [State.serveWrite, memWf_memStore, stored_writeReply, memWf_congr, stored_mk_mem]
@[simp] theorem stored_ackWrite (s : State) (w : ParityWrite) : (s.ackWrite w).stored = s.stored := rfl

/-! ## Accesses of a Comet -/

@[simp] theorem stored_cometPost (s : State) (a : Asker) (r : Word) (pattern : Bool) : (s.cometPost a r pattern).stored = s.stored := by
  grind [State.cometPost, stored_postRecord]

@[simp] theorem stored_postPark (s : State) (a : Asker) (port kind tid page : Nat) :
    (s.postPark a port kind tid page).stored = s.stored := by
  grind [State.postPark, stored_queueTrap]

@[simp] theorem stored_keepXlat (s : State) (a : Asker) (tid : Nat) (page : Option Nat) (bits : BitVec 512) :
    (s.keepXlat a tid page bits).stored = s.stored := rfl
@[simp] theorem stored_descriptor (s : State) (a : Asker) (tid : Nat) : (s.descriptor a tid).2.stored = s.stored := by
  grind [State.descriptor, stored_keepXlat, stored_memRead]

@[simp] theorem stored_pageEntry (s : State) (a : Asker) (tid : Nat) (t : HTensor) (page : Nat) (x : Access) :
    (s.pageEntry a tid t page x).2.stored = s.stored := by
  grind [State.pageEntry, stored_keepXlat, stored_memRead, stored_mk]

@[simp] theorem stored_translate (s : State) (a : Asker) (tid : Nat) (t : HTensor) (x : Access) (off n : Nat) (got : List Piece)
    (fuel : Nat) : (s.translate a tid t x off n got fuel).2.stored = s.stored := by
  induction fuel generalizing s a tid t x off n got <;> grind [State.translate, stored_pageEntry]

@[simp] theorem stored_resolve (s : State) (a : Asker) (tid : Nat) (x : Access) (coords n : Nat) :
    (s.resolve a tid x coords n).2.stored = s.stored := by
  grind [State.resolve, stored_descriptor, stored_translate]

@[simp] theorem stored_meetStaged (s : State) (a : Asker) (p n : Nat) : (s.meetStaged a p n).stored = s.stored := by
  grind [State.meetStaged, stored_cometPost]
@[simp] theorem stored_readPiece (s : State) (a : Asker) (p : Piece) : (s.readPiece a p).2.stored = s.stored := by
  grind [State.readPiece, stored_meetStaged, stored_memRead]
@[simp] theorem stored_hbmRead (s : State) (a : Asker) (ps : List Piece) : (s.hbmRead a ps).2.stored = s.stored :=
  stored_foldl_snd (fun acc p => by grind [stored_readPiece]) _ _

@[simp] theorem stored_trimTiles (s : State) (cluster : Nat) : (s.trimTiles cluster).stored = s.stored := by
  unfold State.trimTiles
  dsimp only
  split <;> rfl

@[simp] theorem stored_stageInto (s : State) (a : Asker) (mine : StageLine → Bool) (fresh : StageLine) (k : Nat) (bs : List Byte) :
    (s.stageInto a mine fresh k bs).stored = s.stored := by
  grind [State.stageInto, stored_cometPost, stored_trimTiles, stored_mk]

@[simp] theorem stored_stageWrite (s : State) (a : Asker) (key p : Nat) (bs : List Byte) (form : Option (List Nat)) (n : Nat) :
    (s.stageWrite a key p bs form n).stored = s.stored := by
  induction n generalizing s a key p bs form <;> grind [State.stageWrite, stored_stageInto]

@[simp] theorem stored_updateTiles (s : State) (cluster key p : Nat) (bs : List Byte) :
    (s.updateTiles cluster key p bs).stored = s.stored := rfl

theorem memWf_writeThrough (s : State) (a : Asker) (key p : Nat) (bs : List Byte) (written : Nat → Bool) (fail : Option MemFail)
    (n : Nat) (h : s.memWf) : (s.writeThrough a key p bs written fail n).2.memWf := by
  induction n generalizing s a key p bs written fail <;> grind [State.writeThrough, memWf_memWrite, stored_updateTiles, memWf_congr]

theorem memWf_writeWhole (s : State) (a : Asker) (p : Piece) (bs : List Byte) (lines : List Nat) (h : s.memWf) :
    (s.writeWhole a p bs lines).memWf := by
  grind [State.writeWhole, stored_postWrite, memWf_storeFrame, stored_updateTiles, memWf_congr]

@[simp] theorem stored_formOf (s : State) (p : Piece) : (s.formOf p).2.stored = s.stored := by
  grind [State.formOf, stored_frameLines]

theorem memWf_writePiece (s : State) (a : Asker) (p : Piece) (bs : List Byte) (written : Nat → Bool) (h : s.memWf) :
    (s.writePiece a p bs written).memWf := by
  grind [State.writePiece, stored_formOf, stored_postWrite, stored_stageWrite, memWf_writeThrough, memWf_writeWhole, memWf_congr]

theorem memWf_writePieces (s : State) (a : Asker) (written : Nat → Bool) (ys : List Piece) (xs : List Byte) (h : s.memWf) :
    (s.writePieces a written ys xs).memWf := by
  induction ys generalizing s xs with
  | nil => exact h
  | cons p ps ih => exact ih _ _ (memWf_writePiece _ _ _ _ _ h)

theorem memWf_hbmWrite (s : State) (a : Asker) (ps : List Piece) (bs : List Byte) (h : s.memWf) : (s.hbmWrite a ps bs).memWf := by
  grind [State.hbmWrite, memWf_writePieces]

theorem memWf_writeForms (s : State) (a : Asker) (zs : List Piece) (ys : List (List Nat)) (xs : List Byte) (h : s.memWf) :
    (s.writeForms a zs ys xs).memWf := by
  induction zs generalizing s ys xs with
  | nil => exact h
  | cons p ps ih =>
    refine ih _ _ _ ?_
    split
    · exact (memWf_congr (stored_stageWrite ..)).2 h
    · exact memWf_writeWhole _ _ _ _ _ h

@[simp] theorem stored_dropLines (s : State) (cluster : Nat) (p : Piece) : (s.dropLines cluster p).stored = s.stored := rfl
@[simp] theorem stored_patternPiece (s : State) (a : Asker) (p : Piece) : (s.patternPiece a p).stored = s.stored := by
  grind [State.patternPiece, stored_dropLines, stored_postWrite, stored_stageWrite, stored_storePattern, stored_mk]
@[simp] theorem stored_dropPage (s : State) (dom tid page : Nat) : (s.dropPage dom tid page).stored = s.stored := rfl

@[simp] theorem stored_parkPort (s : State) (a : Asker) (port kind tid page : Nat) (place : Nat) (values : Bool) (fill : Option Nat) :
    (s.parkPort a port kind tid page place values fill).stored = s.stored := by
  grind [State.parkPort, stored_postPark, stored_setCometPort]

@[simp] theorem stored_unpark (s : State) (comet port : Nat) : (s.unpark comet port).stored = s.stored := by
  unfold State.unpark
  dsimp only
  split <;> rfl

/-! ## Links between modules -/

@[simp] theorem stored_sendFlit (s : State) (link : Nat) (w : OutFlit) : (s.sendFlit link w).stored = s.stored := by
  unfold State.sendFlit
  dsimp only
  split <;> rfl

@[simp] theorem stored_sendFlits (s : State) (link vc : Nat) (xs : List (BitVec 512)) : (s.sendFlits link vc xs).stored = s.stored := by
  induction xs generalizing s link vc <;> grind [State.sendFlits, stored_sendFlit, stored_foldl]

@[simp] theorem stored_sendBodyTo (s : State) (b : FabMsg) (m : Nat) : (s.sendBodyTo b m).stored = s.stored := by
  unfold State.sendBodyTo
  split <;> simp only [stored_sendFlit]

@[simp] theorem stored_sendBody (s : State) (b : FabMsg) : (s.sendBody b).stored = s.stored := by
  grind [State.sendBody, stored_sendBodyTo, stored_mk, stored_foldl]
@[simp] theorem stored_sendPackets (s : State) (e : ExchOut) : (s.sendPackets e).stored = s.stored := by
  grind [State.sendPackets, stored_sendFlits, stored_mk, stored_foldUp]

@[simp] theorem stored_sendExch (s : State) (e : ExchOut) : (s.sendExch e).stored = s.stored := by
  unfold State.sendExch
  simp only [stored_mk, stored_sendPackets]

@[simp] theorem stored_setCst (s : State) (dom cst : Nat) : (s.setCst dom cst).stored = s.stored := by
  unfold State.setCst
  simp only [stored_mk, apply_ite State.stored, ite_self, stored_sendBody]

@[simp] theorem stored_fabAdvance1 (s : State) (k : Nat) : (s.fabAdvance1 k).stored = s.stored := by
  unfold State.fabAdvance1
  dsimp only
  repeat' split
  all_goals rfl

@[simp] theorem stored_fabAdvance (s : State) : (s.fabAdvance).stored = s.stored := by
  grind [State.fabAdvance, stored_fabAdvance1, stored_foldUp]
@[simp] theorem stored_fabEvent (s : State) (code dom : Nat) (always : Bool) : (s.fabEvent code dom always).stored = s.stored := by
  grind [State.fabEvent, stored_logEvent, stored_openVal]

/-! ## Barriers -/

@[simp] theorem stored_closeGen (s : State) (k scope id : Nat) : (s.closeGen k scope id).stored = s.stored := by
  unfold State.closeGen
  split <;> simp only [stored_fabAdvance1, stored_sendBody, stored_setBarrier]

@[simp] theorem stored_breakCounter (s : State) (k : Nat) : (s.breakCounter k).stored = s.stored := by
  unfold State.breakCounter
  dsimp only
  split <;> simp only [stored_sendBody, stored_setBarrier]

@[simp] theorem stored_atCounter (s : State) (pe k scope id : Nat) (kind : BarOpKind) :
    (s.atCounter pe k scope id kind).2.stored = s.stored := by
  unfold State.atCounter
  dsimp only
  repeat' split
  all_goals simp only [stored_breakCounter, stored_closeGen, stored_sendBody, stored_setBarrier, stored_takeTurn]

@[simp] theorem stored_sendBar (i : Issue) (k : Nat) (kind : BarOpKind) : (i.sendBar k kind).stored = i.s.stored := rfl
@[simp] theorem stored_taintWith (i : Issue) (s : State) (r : Word) : (i.taintWith s r).stored = s.stored := rfl

@[simp] theorem stored_finishBarw (i : Issue) (s : State) (f : BarFound) : (i.finishBarw s f).state.stored = s.stored := by
  unfold Issue.finishBarw
  repeat' split
  all_goals rfl

@[simp] theorem stored_barw (i : Issue) (test : Bool) : (i.barw test).state.stored = i.s.stored := by
  unfold Issue.barw
  dsimp only
  split
  · exact stored_finishBarw ..
  · rfl
  all_goals
    repeat' split
    all_goals
      simp only [Done.state_hold, stored_finishBarw, stored_atCounter, stored_takeTurn, stored_illegal, stored_setTask, stored_sendBar]

@[simp] theorem stored_lateRecord (s : State) (op : BarOp) (r : Word) : (s.lateRecord op r).stored = s.stored := by
  unfold State.lateRecord
  dsimp only
  split <;> simp only [stored_corePost, stored_setTask]

@[simp] theorem stored_barAnswer (s : State) (op : BarOp) (f : BarFound) : (s.barAnswer op f).stored = s.stored := by
  unfold State.barAnswer
  repeat' split
  all_goals simp only [apply_ite State.stored, ite_self, stored_lateRecord, stored_setTask]

/-! ## The capability list -/

theorem memWf_writeCaps (s : State) (bs : List Byte) (h : s.memWf) : (s.writeCaps bs).memWf := by
  grind [State.writeCaps, memWf_memStore, memWf_congr, stored_mk]
theorem memWf_followDebug (s : State) (h : s.memWf) : (s.followDebug).memWf := by
  grind [State.followDebug, memWf_writeCaps]

/-! ## Glaze islands and address generators -/

@[simp] theorem stored_agenPut (s : State) (n : Nat) (g : Agen) (t : Token) : (s.agenPut n g t).stored = s.stored := rfl

/-! ## Control operators -/

@[simp] theorem stored_postIf (s : State) (r : Nat) (t : Token) : (s.postIf r t).stored = s.stored := by
  unfold State.postIf
  split <;> simp only [stored_corePost]

@[simp] theorem stored_postUnless (s : State) (r : Nat) (emitted t : Token) : (s.postUnless r emitted t).stored = s.stored := by
  unfold State.postUnless
  split <;> simp only [stored_postIf]

@[simp] theorem stored_fired (s : State) (r k : Nat) (o : OpSlot) : (s.fired r k o).stored = s.stored := rfl

@[simp] theorem stored_waitDiscard (s : State) (r k n : Nat) (o : OpSlot) (t : Token) (posted : Bool) :
    (s.waitDiscard r k n o t posted).stored = s.stored := by
  unfold State.waitDiscard
  split <;> simp only [stored_corePost, stored_fired, stored_postIf]

@[simp] theorem stored_clearLatch (s : State) (r : Nat) (latch : Token) (emitted : Bool) :
    (s.clearLatch r latch emitted).stored = s.stored := by
  unfold State.clearLatch
  split <;> simp only [stored_postIf]

/-! ## Configuration frames -/

@[simp] theorem stored_attach (s : State) (core : Nat) (block : List Nat) (dom disp : Nat) (x : Frm) :
    (s.attach core block dom disp x).stored = s.stored := by
  unfold State.attach
  split <;> rfl

@[simp] theorem stored_writeFrame (s : State) (core : Nat) (block : List Nat) (dom disp : Nat) (x : Frm) :
    (s.writeFrame core block dom disp x).stored = s.stored := by
  grind [State.writeFrame, stored_attach, stored_setAgen, stored_setEntry, stored_setGlaze, stored_setHandle, stored_setInfo,
    stored_setNode, stored_setOpSlot, stored_setRoute, stored_setTask, stored_setTensor, stored_foldUp]

@[simp] theorem stored_noteTrigs (s : State) (core : Nat) : (s.noteTrigs core).stored = s.stored := by
  grind [State.noteTrigs, stored_setAgen, stored_foldUp]

@[simp] theorem stored_writeCore (s : State) (core : Nat) (block : List Nat) (c dom disp : Nat) (xs : List Frm) :
    (s.writeCore core block c dom disp xs).stored = s.stored := by
  grind [State.writeCore, stored_noteTrigs, stored_writeFrame, stored_foldl]

@[simp] theorem stored_writeImage (s : State) (gs : List Nat) (p : Nat → Bool) (dom disp : Nat) (xs : List Frm) :
    (s.writeImage gs p dom disp xs).stored = s.stored := by
  grind [State.writeImage, stored_writeCore, stored_foldUp]

/-! ## Graph ports -/

@[simp] theorem stored_touchPort (s : State) (comet p : Nat) : (s.touchPort comet p).stored = s.stored := rfl
@[simp] theorem stored_popPort (s : State) (comet p : Nat) : (s.popPort comet p).stored = s.stored := rfl
@[simp] theorem stored_pushReq (s : State) (comet p : Nat) (r : GraphReq) : (s.pushReq comet p r).stored = s.stored := rfl
@[simp] theorem stored_postPoison (s : State) (a : Asker) (t : Token) : (s.postPoison a t).stored = s.stored := by
  grind [State.postPoison, stored_cometPost]
@[simp] theorem stored_graphPieces (s : State) (a : Asker) (q : GraphReq) : (s.graphPieces a q).2.stored = s.stored := by
  grind [State.graphPieces, stored_descriptor, stored_translate]
@[simp] theorem stored_putReq (s : State) (comet p k : Nat) (q : GraphReq) : (s.putReq comet p k q).stored = s.stored := rfl
@[simp] theorem stored_dropReq (s : State) (comet p k : Nat) : (s.dropReq comet p k).stored = s.stored := rfl

@[simp] theorem stored_failGraph (s : State) (a : Asker) (p k : Nat) (q : GraphReq) (f : XFail) :
    (s.failGraph a p k q f).stored = s.stored := by
  grind [State.failGraph, stored_cometPost, stored_putReq]

theorem memWf_graphAccess (s : State) (a : Asker) (p k : Nat) (q : GraphReq) (h : s.memWf) : (s.graphAccess a p k q).memWf := by
  grind [State.graphAccess, stored_dropReq, stored_failGraph, stored_graphPieces, stored_hbmRead, memWf_hbmWrite, stored_parkPort,
    stored_patternPiece, stored_putReq, memWf_congr, memWf_foldl]

@[simp] theorem stored_portEmit (s : State) (comet p : Nat) (t : Token) : (s.portEmit comet p t).stored = s.stored := rfl

/-! ## Stream and fibre registers -/

@[simp] theorem stored_taintRec (i : Issue) (s : State) (r : Word) : (i.taintRec s r).stored = s.stored := rfl

@[simp] theorem stored_advanceStream (i : Issue) : (i.advanceStream).state.stored = i.s.stored := by
  unfold Issue.advanceStream
  dsimp only
  repeat' split
  all_goals rfl

@[simp] theorem stored_endStream (i : Issue) : (i.endStream).state.stored = i.s.stored := by
  unfold Issue.endStream
  dsimp only
  repeat' split
  all_goals rfl

@[simp] theorem stored_inTurn (i : Issue) (r : Nat) : (i.inTurn r).s.stored = i.s.stored := rfl

@[simp] theorem stored_closeStream (i : Issue) : (i.closeStream).state.stored = i.s.stored := by
  unfold Issue.closeStream
  split <;> simp only [Done.state_done, stored_illegal, stored_unpark, stored_setStream, stored_inTurn]

@[simp] theorem stored_readPointer (s : State) (a : Asker) (tid : Nat) (t : HTensor) (n : Nat) :
    (s.readPointer a tid t n).2.stored = s.stored := by
  grind [State.readPointer, stored_hbmRead, stored_translate]

@[simp] theorem stored_fibreTensor (s : State) (a : Asker) (tid : Nat) (n32 : Bool) : (s.fibreTensor a tid n32).2.stored = s.stored := by
  grind [State.fibreTensor, stored_descriptor]

@[simp] theorem stored_fopenStop (i : Issue) (s : State) (r : Nat) (f : XFail) : (i.fopenStop s r f).state.stored = s.stored := by
  unfold Issue.fopenStop
  split <;> simp only [Done.state_done, Done.state_hold, stored_parkPort, stored_setTask, stored_setStream]

@[simp] theorem stored_intersect (i : Issue) (lanes : Bool) : (i.intersect lanes).state.stored = i.s.stored := by
  unfold Issue.intersect
  dsimp only
  repeat' split
  all_goals simp only [Done.state_done, Done.state_hold, stored_illegal, stored_taintRec, stored_setPredOf, stored_putD, stored_setTask,
    stored_setStream, stored_inTurn]

@[simp] theorem stored_failLine (s : State) (core reg : Nat) (v : Bool) (line : Nat) (f : XFail) :
    (s.failLine core reg v line f).stored = s.stored := by
  unfold State.failLine
  dsimp only
  split <;> rfl

@[simp] theorem stored_fillTile (s : State) (a : Asker) (key line : Nat) (v : BitVec 512) :
    (s.fillTile a key line v).stored = s.stored := by
  unfold State.fillTile
  simp only [stored_mk, stored_trimTiles]

@[simp] theorem stored_lookTile (s : State) (cluster key line dom : Nat) : (s.lookTile cluster key line dom).2.stored = s.stored := by
  grind [State.lookTile, stored_logEvent, stored_mk]
@[simp] theorem stored_askLine (s : State) (a : Asker) (tag key phys : Nat) : (s.askLine a tag key phys).stored = s.stored := rfl

@[simp] theorem stored_fetchLine (s : State) (core reg : Nat) (v : Bool) (line : Nat) :
    (s.fetchLine core reg v line).stored = s.stored := by
  unfold State.fetchLine
  dsimp only
  repeat' split
  all_goals grind [stored_askLine, stored_descriptor, stored_failLine, stored_lookTile, stored_parkPort, stored_setStream,
    stored_translate]

/-! ## Comet commands -/

@[simp] theorem stored_putCmd (s : State) (core k : Nat) (c : Cmd) : (s.putCmd core k c).stored = s.stored := rfl
@[simp] theorem stored_dropCmd (s : State) (core k : Nat) : (s.dropCmd core k).stored = s.stored := rfl
@[simp] theorem stored_finishCmd (s : State) (core k : Nat) (c : Cmd) (status : Nat) :
    (s.finishCmd core k c status).stored = s.stored := rfl

@[simp] theorem stored_answerCmd (s : State) (core k : Nat) (c : Cmd) (v : Word) (fail : Option Word) :
    (s.answerCmd core k c v fail).stored = s.stored := by
  unfold State.answerCmd
  simp only [stored_dropCmd, stored_wakeTask]

@[simp] theorem stored_failCmd (s : State) (core k : Nat) (c : Cmd) (r : Word) (pattern : Bool) :
    (s.failCmd core k c r pattern).stored = s.stored := by
  grind [State.failCmd, stored_answerCmd, stored_cometPost, stored_dropCmd, stored_finishCmd]

theorem memWf_cometPoolRead (s : State) (core p n : Nat) (h : s.memWf) : (s.cometPoolRead core p n).2.memWf := by
  grind [State.cometPoolRead, memWf_bankServed, stored_poolRead, memWf_congr]
theorem memWf_cometPoolWrite (s : State) (core p : Nat) (bs : List Byte) (h : s.memWf) : (s.cometPoolWrite core p bs).2.memWf := by
  grind [State.cometPoolWrite, memWf_bankServed, memWf_poolWrite]

@[simp] theorem stored_copySide (s : State) (core : Nat) (a : Asker) (pool write : Bool) (tid coords n : Nat) :
    (s.copySide core a pool write tid coords n).2.stored = s.stored := by
  unfold State.copySide
  dsimp only
  repeat' split
  all_goals simp only [stored_resolve]

@[simp] theorem stored_xlatCopy (s : State) (core : Nat) (a : Asker) (c : Cmd) (remote : Bool) :
    (s.xlatCopy core a c remote).2.stored = s.stored := by
  grind [State.xlatCopy, stored_copySide]

@[simp] theorem stored_xlatEntry (s : State) (a : Asker) (t : HTensor) (c : Cmd) (coords : Nat) :
    (s.xlatEntry a t c coords).2.stored = s.stored := by
  grind [State.xlatEntry, stored_translate]

@[simp] theorem stored_xlatEntries (s : State) (a : Asker) (t : HTensor) (c : Cmd) (j : Nat) (xs : List Nat) :
    (s.xlatEntries a t c j xs).2.stored = s.stored := by
  induction xs generalizing s a t c j <;> grind [State.xlatEntries, stored_xlatEntry]

theorem memWf_xlatGather (s : State) (core : Nat) (a : Asker) (c : Cmd) (h : s.memWf) : (s.xlatGather core a c).2.memWf := by
  unfold State.xlatGather
  repeat' split
  all_goals grind [memWf_cometPoolRead, stored_descriptor, stored_xlatEntries, memWf_congr]

@[simp] theorem stored_xlatFine (s : State) (a : Asker) (c : Cmd) : (s.xlatFine a c).2.stored = s.stored := by
  grind [State.xlatFine, stored_descriptor, stored_translate]
@[simp] theorem stored_xlatAtom (s : State) (a : Asker) (c : Cmd) : (s.xlatAtom a c).2.stored = s.stored := by
  grind [State.xlatAtom, stored_descriptor, stored_translate]
theorem memWf_xlatCmd (s : State) (core : Nat) (c : Cmd) (h : s.memWf) : (s.xlatCmd core c).2.memWf := by
  grind [State.xlatCmd, stored_xlatAtom, stored_xlatCopy, stored_xlatFine, memWf_xlatGather, memWf_congr]
@[simp] theorem stored_replyGather (s : State) (r : GatherReq) : (s.replyGather r).stored = s.stored := rfl
theorem memWf_copyRead (s : State) (core : Nat) (a : Asker) (c : Cmd) (h : s.memWf) : (s.copyRead core a c).2.memWf := by
  grind [State.copyRead, memWf_cometPoolRead, stored_hbmRead, memWf_congr]

@[simp] theorem stored_stageRemote (s : State) (a : Asker) (modl tid coords off : Nat) (forms : List (List Nat)) (bs : List Byte)
    (n : Nat) : (s.stageRemote a modl tid coords off forms bs n).stored = s.stored := by
  induction n generalizing s a modl tid coords off forms bs <;> grind [State.stageRemote, stored_stageInto]

@[simp] theorem stored_copyOut (s : State) (core k : Nat) (c : Cmd) (forms : List (List Nat)) (bs : List Byte) :
    (s.copyOut core k c forms bs).stored = s.stored := by
  grind [State.copyOut, stored_finishCmd, stored_putCmd, stored_sendExch, stored_stageRemote]

theorem memWf_doCopy (s : State) (core k : Nat) (c : Cmd) (h : s.memWf) : (s.doCopy core k c).memWf := by
  unfold State.doCopy
  dsimp only
  repeat' split
  all_goals grind [memWf_cometPoolWrite, stored_copyOut, memWf_copyRead, stored_failCmd, stored_finishCmd, memWf_hbmWrite,
    memWf_writeForms, memWf_congr]

@[simp] theorem stored_finishGather (s : State) (core k : Nat) (c : Cmd) : (s.finishGather core k c).stored = s.stored := by
  grind [State.finishGather, stored_failCmd, stored_finishCmd]
theorem memWf_zeroBad (s : State) (core : Nat) (c : Cmd) (h : s.memWf) : (s.zeroBad core c).memWf := by
  grind [State.zeroBad, memWf_cometPoolWrite, memWf_foldl]
@[simp] theorem stored_sendGatherPart (s : State) (core : Nat) (c : Cmd) (stack : Nat) (es : List (Nat × Piece)) :
    (s.sendGatherPart core c stack es).stored = s.stored := rfl

theorem memWf_sendGather (s : State) (core k : Nat) (c : Cmd) (h : s.memWf) : (s.sendGather core k c).memWf := by
  grind [State.sendGather, stored_finishGather, stored_putCmd, stored_sendGatherPart, memWf_zeroBad, memWf_congr, stored_foldl,
    stored_foldUp, memWf_foldUp]

theorem memWf_takeGathered (s : State) (core : Nat) (c : Cmd) (xs : List (Nat × Nat × List Byte)) (h : s.memWf) :
    (s.takeGathered core c xs).2.memWf := by
  induction xs generalizing s core c <;> grind [State.takeGathered, memWf_cometPoolWrite]

theorem memWf_gatherResponse (s : State) (core k : Nat) (c : Cmd) (h : s.memWf) : (s.gatherResponse core k c).memWf := by
  grind [State.gatherResponse, stored_finishGather, stored_putCmd, memWf_takeGathered, stored_takePacket, stored_touch, memWf_congr]

theorem memWf_doScatter (s : State) (core k : Nat) (c : Cmd) (h : s.memWf) : (s.doScatter core k c).memWf := by
  unfold State.doScatter
  dsimp only
  rw [memWf_congr (stored_finishGather ..)]
  refine memWf_foldl_snd (fun acc e hacc => ?_) _ ?_
  · grind [memWf_cometPoolRead, memWf_hbmWrite]
  · exact h

@[simp] theorem stored_askFine (s : State) (core k : Nat) (c : Cmd) (p : Piece) (n : Nat) :
    (s.askFine core k c p n).stored = s.stored := rfl
@[simp] theorem stored_fineRead (s : State) (core k : Nat) (c : Cmd) : (s.fineRead core k c).stored = s.stored := by
  grind [State.fineRead, stored_answerCmd, stored_askFine, stored_failCmd, stored_hbmRead]
theorem memWf_sendFine (s : State) (core k : Nat) (c : Cmd) (h : s.memWf) : (s.sendFine core k c).memWf := by
  grind [State.sendFine, stored_askFine, stored_finishCmd, memWf_writePiece, memWf_congr]
@[simp] theorem stored_tilesWritten (s : State) (a : Asker) (c : Cmd) (bs : List Byte) : (s.tilesWritten a c bs).stored = s.stored := by
  grind [State.tilesWritten, stored_updateTiles, stored_foldl]

@[simp] theorem stored_fineAnswer (s : State) (core k : Nat) (c : Cmd) (b : BitVec 512) :
    (s.fineAnswer core k c b).stored = s.stored := by
  grind [State.fineAnswer, stored_answerCmd, stored_failCmd, stored_finishCmd, stored_tilesWritten]

@[simp] theorem stored_ackFine (s : State) (core k : Nat) (c : Cmd) : (s.ackFine core k c).stored = s.stored := by
  grind [State.ackFine, stored_fineAnswer, stored_takePacket]
@[simp] theorem stored_sendAtom (s : State) (core k : Nat) (c : Cmd) : (s.sendAtom core k c).stored = s.stored := by
  grind [State.sendAtom, stored_answerCmd, stored_cometPost, stored_putCmd, stored_sendFlit, stored_setFabLink, stored_mk]

@[simp] theorem stored_doAtom (s : State) (core k : Nat) (c : Cmd) : (s.doAtom core k c).stored = s.stored := by
  unfold State.doAtom
  split <;> simp only [stored_answerCmd, stored_askFine]

@[simp] theorem stored_prefLine (s : State) (a : Asker) (tid : Nat) (t : HTensor) (line : Nat) :
    (s.prefLine a tid t line).stored = s.stored := by
  grind [State.prefLine, stored_fillTile, stored_memRead, stored_translate]

@[simp] theorem stored_doPref (s : State) (core k : Nat) (c : Cmd) : (s.doPref core k c).stored = s.stored := by
  grind [State.doPref, stored_descriptor, stored_dropCmd, stored_prefLine, stored_foldUp]

theorem memWf_performCmd (s : State) (core k : Nat) (c : Cmd) (h : s.memWf) : (s.performCmd core k c).memWf := by
  grind [State.performCmd, stored_doAtom, memWf_doCopy, stored_doPref, memWf_doScatter, stored_fineRead, stored_sendAtom, memWf_sendFine,
    memWf_sendGather, memWf_congr]

theorem memWf_translateAt (s : State) (core k : Nat) (c : Cmd) (h : s.memWf) : (s.translateAt core k c).memWf := by
  grind [State.translateAt, stored_dropCmd, stored_failCmd, stored_parkPort, stored_putCmd, stored_touch, memWf_xlatCmd, memWf_congr]
@[simp] theorem stored_acceptGather (s : State) (stack : Nat) : (s.acceptGather stack).stored = s.stored := by
  grind [State.acceptGather, stored_setGatherQ, stored_takePacket]

@[simp] theorem stored_enqueue (i : Issue) (c : Cmd) (blocking : Bool) : (i.enqueue c blocking).state.stored = i.s.stored := by
  unfold Issue.enqueue
  repeat' split
  all_goals rfl

@[simp] theorem stored_blockCmd (i : Issue) (c : Cmd) : (i.blockCmd c).state.stored = i.s.stored := by
  unfold Issue.blockCmd
  cases i.task.wait with
  | memDone v o => cases o <;> simp only [Done.state_done, stored_putD, stored_taintRec]
  | memSent => rfl
  | _ => exact stored_enqueue ..

/-! ## Kiln instructions and operand-memory slots -/

@[simp] theorem stored_setKstat (s : State) (k : KStat) : (s.setKstat k).stored = s.stored := rfl
@[simp] theorem stored_pin (s : State) (cl : Nat) (ns : List Nat) : (s.pin cl ns).stored = s.stored := by
  grind [State.pin, stored_setKslot, stored_foldl]
@[simp] theorem stored_unpin (s : State) (cl : Nat) (ns : List Nat) : (s.unpin cl ns).stored = s.stored := by
  grind [State.unpin, stored_setKslot, stored_foldl]
@[simp] theorem stored_protect (i : Issue) : (i.protect).state.stored = i.s.stored := rfl

@[simp] theorem stored_fillFmt (s : State) (core : Nat) (a : Asker) (pool : Bool) (tid : Nat) :
    (s.fillFmt core a pool tid).2.stored = s.stored := by
  grind [State.fillFmt, stored_descriptor]

@[simp] theorem stored_enqueueRecord (i : Issue) (word : Word) : (i.enqueueRecord word).stored = i.s.stored := by
  unfold Issue.enqueueRecord
  dsimp only
  split <;> simp only [stored_pin, stored_setKrecs, stored_setKstat]

@[simp] theorem stored_setDep (s : State) (cl n : Nat) (c : KCtr) : (s.setDep cl n c).stored = s.stored := rfl

@[simp] theorem stored_tdep (i : Issue) (add : Bool) : (i.tdep add).state.stored = i.s.stored := by
  unfold Issue.tdep
  repeat' split
  all_goals simp only [Done.state_done, stored_illegal, stored_putD, stored_setKctr, stored_setDep]

@[simp] theorem stored_endFill (s : State) (cl n : Nat) (st : SlotSt) (cause : Nat) : (s.endFill cl n st cause).stored = s.stored := rfl
@[simp] theorem stored_failFill (s : State) (cl n cause : Nat) (r : Word) : (s.failFill cl n cause r).stored = s.stored := by
  grind [State.failFill, stored_endFill, stored_postRecord]

theorem memWf_fillElem (s : State) (cl : Nat) (k : KSlot) (r j : Nat) (h : s.memWf) : (s.fillElem cl k r j).2.memWf := by
  unfold State.fillElem
  grind [memWf_bankServed, stored_descriptor, stored_hbmRead, stored_poolRead, stored_translate, memWf_congr]

theorem memWf_fillBlock (s : State) (cl : Nat) (k : KSlot) (h : s.memWf) : (s.fillBlock cl k).2.memWf :=
  memWf_foldUp_snd (fun acc e hacc => by grind [memWf_fillElem]) _ h
theorem memWf_runFill (s : State) (cl n : Nat) (k : KSlot) (h : s.memWf) : (s.runFill cl n k).memWf := by
  grind [State.runFill, stored_endFill, stored_failFill, memWf_fillBlock, stored_parkPort, memWf_congr, stored_mk]

/-! ## Kilns -/

@[simp] theorem stored_putRec (s : State) (cl n : Nat) (r : KRec) : (s.putRec cl n r).stored = s.stored := rfl

@[simp] theorem stored_updRec (s : State) (t : SubTile) (f : KRec → KRec) : (s.updRec t f).stored = s.stored := by
  unfold State.updRec
  split <;> rfl

@[simp] theorem stored_drainUe (s : State) (t : SubTile) (core w : Nat) : (s.drainUe t core w).stored = s.stored := by
  grind [State.drainUe, stored_postRecord]
theorem memWf_intPair (s : State) (t : SubTile) (m j : Nat) (h : s.memWf) : (s.intPair t m j).2.memWf := by
  grind [State.intPair, stored_drainUe, stored_poolRead, memWf_poolWrite, memWf_congr]
theorem memWf_intRow (s : State) (t : SubTile) (m : Nat) (h : s.memWf) : (s.intRow t m).2.memWf :=
  memWf_foldUp_snd (fun acc j hacc => by grind [memWf_intPair]) _ (memWf_bankServed _ _ _ _ _ h)
theorem memWf_intRows (s : State) (t : SubTile) (h : s.memWf) : (s.intRows t).2.memWf :=
  memWf_foldUp_snd (fun acc m hacc => by grind [memWf_intRow]) _ h
theorem memWf_floatRows (s : State) (t : SubTile) (h : s.memWf) : (s.floatRows t).memWf := by
  grind [State.floatRows, memWf_bankServed, stored_drainUe, memWf_poolWrite, memWf_congr, stored_foldUp, memWf_foldUp]
@[simp] theorem stored_freeCopies (s : State) (kiln : Nat) (t : SubTile) : (s.freeCopies kiln t).stored = s.stored := by
  grind [State.freeCopies, stored_setKslot, stored_foldl]
@[simp] theorem stored_failSub (s : State) (kiln : Nat) (t : SubTile) (f : StepFail) : (s.failSub kiln t f).stored = s.stored := by
  grind [State.failSub, stored_freeCopies, stored_logEvent, stored_setKiln, stored_updRec, stored_mk]

theorem memWf_readAcc (s : State) (t : SubTile) (h : s.memWf) : (s.readAcc t).2.memWf := by
  refine memWf_foldUp_snd (fun acc m hacc => ?_) _ ?_
  · grind [memWf_bankServed, memWf_congr, stored_poolRead]
  · exact h

theorem memWf_mergeAmax (s : State) (t : SubTile) (c : Nat) (h : s.memWf) : (s.mergeAmax t c).memWf := by
  grind [State.mergeAmax, memWf_bankServed, stored_drainUe, stored_poolRead, memWf_poolStore, memWf_congr]
@[simp] theorem stored_copySlot (s : State) (r : KRec) (cl n cl' n' : Nat) : (s.copySlot r cl n cl' n').stored = s.stored := by
  grind [State.copySlot, stored_setKslot, stored_mk]
@[simp] theorem stored_noteReady (s : State) (cl : Nat) : (s.noteReady cl).stored = s.stored := rfl

/-! ## Regions of a dispatch -/

@[simp] theorem stored_setPart (s : State) (p : Part) : (s.setPart p).stored = s.stored := rfl
@[simp] theorem stored_addPart (s : State) (p : Part) : (s.addPart p).stored = s.stored := rfl
@[simp] theorem stored_dropPart (s : State) (p : Part) : (s.dropPart p).stored = s.stored := rfl
@[simp] theorem stored_resetGranule (s : State) (g : Nat) : (s.resetGranule g).stored = s.stored := rfl
@[simp] theorem stored_dropKilns (s : State) (cls : List Nat) (dom disp : Nat) : (s.dropKilns cls dom disp).stored = s.stored := by
  grind [State.dropKilns, stored_unpin, stored_mk, stored_foldl]
@[simp] theorem stored_discardStaged (s : State) (p : Part) : (s.discardStaged p).stored = s.stored := rfl
@[simp] theorem stored_zeroStats (s : State) (p : Part) : (s.zeroStats p).stored = s.stored := rfl

@[simp] theorem stored_resetCounters (s : State) (keys : List Nat) (dom disp : Nat) :
    (s.resetCounters keys dom disp).stored = s.stored := by
  grind [State.resetCounters, stored_setBarrier, stored_foldl]

@[simp] theorem stored_pinImage (s : State) (cl dom addr : Nat) (digest : Word) (pin : Bool) :
    (s.pinImage cl dom addr digest pin).stored = s.stored := rfl
@[simp] theorem stored_dropLoad (s : State) (cl : Nat) : (s.dropLoad cl).stored = s.stored := rfl
@[simp] theorem stored_dropRequests (s : State) (p : Part) : (s.dropRequests p).stored = s.stored := rfl
@[simp] theorem stored_dropCommit (s : State) (p : Part) : (s.dropCommit p).stored = s.stored := rfl

@[simp] theorem stored_resetRegion (s : State) (p : Part) : (s.resetRegion p).stored = s.stored := by
  grind [State.resetRegion, stored_discardStaged, stored_dropCommit, stored_dropKilns, stored_dropLoad, stored_dropPart,
    stored_dropRequests, stored_resetCounters, stored_resetGranule, stored_zeroStats, stored_foldl]

/-! ## Loaders -/

@[simp] theorem stored_readFrame (s : State) (dom addr : Nat) : (s.readFrame dom addr).2.stored = s.stored := by
  grind [State.readFrame, stored_memRead]

@[simp] theorem stored_fillCache (s : State) (c : CacheImage) : (s.fillCache c).stored = s.stored := by
  unfold State.fillCache
  dsimp only
  split <;> rfl

@[simp] theorem stored_dropImages (s : State) (dom : Nat) : (s.dropImages dom).stored = s.stored := rfl

@[simp] theorem stored_reportLoad (s : State) (cl : Nat) (p : Part) (d : Disp) (e status : Nat) :
    (s.reportLoad cl p d e status).stored = s.stored := by
  unfold State.reportLoad
  dsimp only
  split <;> rfl

@[simp] theorem stored_nextFrame (s : State) (cl : Nat) (l : Loader) : (s.nextFrame cl l).2.stored = s.stored := by
  unfold State.nextFrame
  repeat' split
  all_goals simp only [stored_readFrame]

@[simp] theorem stored_loadImage (s : State) (regions : List (List Nat)) (mine : List Nat) (dom disp : Nat) (xs : List Frm) :
    (s.loadImage regions mine dom disp xs).stored = s.stored := by
  grind [State.loadImage, stored_writeImage, stored_foldl]

@[simp] theorem stored_dropCopies (s : State) (cl dom : Nat) : (s.dropCopies cl dom).stored = s.stored := rfl

/-! ## Lost dies and links -/

@[simp] theorem stored_postOnce (s : State) (n : Notice) : (s.postOnce n).stored = s.stored := by
  unfold State.postOnce
  split <;> rfl

@[simp] theorem stored_postLoss (s : State) (die : Nat) : (s.postLoss die).stored = s.stored := by
  unfold State.postLoss
  split <;> rfl

@[simp] theorem stored_markDown (s : State) (r dir : Nat) : (s.markDown r dir).stored = s.stored := by
  grind [State.markDown, stored_dispEvent, stored_setMeshOut]

@[simp] theorem stored_meshDown (s : State) (r dir : Nat) : (s.meshDown r dir).stored = s.stored := by
  unfold State.meshDown
  repeat' split
  all_goals simp only [apply_ite State.stored, ite_self, stored_markDown, stored_postLoss, stored_postOnce]

/-! ## Launch packets -/

@[simp] theorem stored_readFixed (s : State) (dom : Nat) (e : DispEntry) : (s.readFixed dom e).2.stored = s.stored := by
  grind [State.readFixed, stored_memRead]
@[simp] theorem stored_readEntries (s : State) (dom addr : Nat) (n : Nat) : (s.readEntries dom addr n).2.stored = s.stored := by
  induction n generalizing s dom addr <;> grind [State.readEntries, stored_memRead, stored_readFixed]
@[simp] theorem stored_readPacket (s : State) (dom addr : Nat) : (s.readPacket dom addr).2.stored = s.stored := by
  grind [State.readPacket, stored_memRead, stored_readEntries]

/-! ## Placement and dispatch start -/

@[simp] theorem stored_readData (s : State) (dom addr n : Nat) : (s.readData dom addr n).2.stored = s.stored := by
  grind [State.readData, stored_memRead]
@[simp] theorem stored_postLaunchFail (s : State) (p : Part) (f : LaunchFail) : (s.postLaunchFail p f).stored = s.stored := rfl
@[simp] theorem stored_tagCore (s : State) (d : Disp) (c core : Nat) : (s.tagCore d c core).stored = s.stored := rfl
@[simp] theorem stored_tagPart (s : State) (d : Disp) (p : Part) : (s.tagPart d p).stored = s.stored := by
  grind [State.tagPart, stored_tagCore, stored_foldl]
@[simp] theorem stored_readImages (s : State) (dom xaddr e : Nat) (n : Nat) : (s.readImages dom xaddr e n).2.stored = s.stored := by
  induction n generalizing s dom xaddr e <;> grind [State.readImages, stored_readData]
@[simp] theorem stored_setTable (s : State) (t : WheelTable) : (s.setTable t).stored = s.stored := rfl
@[simp] theorem stored_readTable (s : State) (d : Disp) (p : Part) : (s.readTable d p).stored = s.stored := by
  grind [State.readTable, stored_postLaunchFail, stored_readData, stored_readImages, stored_setPart, stored_setTable]

@[simp] theorem stored_placePart (s : State) (die : Nat) (d : Disp) : (s.placePart die d).stored = s.stored := by
  unfold State.placePart
  simp only [apply_ite State.stored, ite_self, stored_addPart, stored_readTable, stored_tagPart]

@[simp] theorem stored_joinPart (s : State) (die : Nat) (d : Disp) : (s.joinPart die d).stored = s.stored := by
  grind [State.joinPart, stored_addPart, stored_tagPart]

@[simp] theorem stored_recoverPart (s : State) (die : Nat) (d : Disp) (places : List Nat) :
    (s.recoverPart die d places).stored = s.stored := by
  grind [State.recoverPart, stored_joinPart, stored_setPart, stored_tagPart]

@[simp] theorem stored_setCounters (s : State) (d : Disp) (p : Part) (gs : List Nat) : (s.setCounters d p gs).stored = s.stored := by
  grind [State.setCounters, stored_setBarrier, stored_foldl, stored_foldUp]

@[simp] theorem stored_readRecs (s : State) (dom addr : Nat) (ok : Nat → Nat → Bool) (k : Nat) (n : Nat) :
    (s.readRecs dom addr ok k n).2.stored = s.stored := by
  induction n generalizing s dom addr ok k <;> grind [State.readRecs, stored_readData]

@[simp] theorem stored_readRagged (s : State) (dom addr e : Nat) (n : Nat) : (s.readRagged dom addr e n).2.stored = s.stored := by
  induction n generalizing s dom addr e <;> grind [State.readRagged, stored_readData, stored_readRecs]
@[simp] theorem stored_readSource (s : State) (dom : Nat) (e : DispEntry) : (s.readSource dom e).2.stored = s.stored := by
  grind [State.readSource, stored_readRagged, stored_readRecs]
theorem memWf_writeTable (s : State) (core tbase k : Nat) (ws : List Nat) (h : s.memWf) : (s.writeTable core tbase k ws).2.memWf := by
  grind [State.writeTable, memWf_bankServed, memWf_poolStore, stored_setCursor, memWf_congr]

theorem memWf_dealCores (s : State) (tbase cores : Nat) (ws : List Nat) (xs : List (Nat × Nat)) (h : s.memWf) :
    (s.dealCores tbase cores ws xs).2.memWf := by
  induction xs generalizing s tbase cores ws <;> grind [State.dealCores, memWf_writeTable]

@[simp] theorem stored_readWheel (s : State) (d : Disp) (r : WheelRec) : (s.readWheel d r).2.stored = s.stored := by
  grind [State.readWheel, stored_readData]
@[simp] theorem stored_readWheels (s : State) (d : Disp) (xs : List WheelRec) : (s.readWheels d xs).2.stored = s.stored := by
  induction xs generalizing s d <;> grind [State.readWheels, stored_readWheel]

theorem memWf_dealGranules (s : State) (d : Disp) (recs : List WheelRec) (xs : List (Nat × Nat)) (h : s.memWf) :
    (s.dealGranules d recs xs).2.memWf := by
  induction xs generalizing s d recs <;> grind [State.dealGranules, stored_readWheels, memWf_writeTable, memWf_congr]

theorem memWf_dealPart (s : State) (d : Disp) (p : Part) (gs : List (Nat × Nat)) (h : s.memWf) : (s.dealPart d p gs).2.memWf := by
  grind [State.dealPart, memWf_dealCores, memWf_dealGranules, stored_readSource, memWf_congr]
theorem memWf_redealPart (s : State) (die : Nat) (d : Disp) (recs : List WheelRec) (h : s.memWf) : (s.redealPart die d recs).memWf := by
  grind [State.redealPart, memWf_dealGranules, stored_postLaunchFail, stored_setPart, memWf_congr]
theorem memWf_zeroPool (s : State) (core : Nat) (h : s.memWf) : (s.zeroPool core).memWf :=
  State.zeroPool_memWf h ..
@[simp] theorem stored_zeroGranule (s : State) (g : Nat) : (s.zeroGranule g).stored = s.stored := rfl
@[simp] theorem stored_enableCore (s : State) (core : Nat) : (s.enableCore core).stored = s.stored := rfl

/-! ## Saving, restoring and committing a part -/

@[simp] theorem stored_restoreHeld (s : State) (core v : Nat) (t : Token) : (s.restoreHeld core v t).stored = s.stored := by
  unfold State.restoreHeld
  split <;> rfl

@[simp] theorem stored_streamOf (s : State) (a : Asker) (v : Nat) (prec : Option Word) (fibre : Bool) :
    (s.streamOf a v prec fibre).2.stored = s.stored := by
  grind [State.streamOf, stored_descriptor]

theorem memWf_readAccs (s : State) (xs : List Nat) (h : s.memWf) : (s.readAccs xs).2.memWf := by
  induction xs generalizing s <;> grind [State.readAccs, memWf_bankServed, stored_poolRead, memWf_congr]
@[simp] theorem stored_directory (s : State) (dom : Nat) : (s.directory dom).2.stored = s.stored := by
  grind [State.directory, stored_memRead]
theorem memWf_writeEntry (s : State) (dom k : Nat) (e : DirEntry) (h : s.memWf) : (s.writeEntry dom k e).memWf := by
  grind [State.writeEntry, memWf_memStore]

@[simp] theorem stored_saveFails (s : State) (q : SaveReq) : (s.saveFails q).stored = s.stored := by
  unfold State.saveFails
  split <;> rfl

theorem memWf_writeRecord (s : State) (p : Part) (off : Nat) (h : s.memWf) : (s.writeRecord p off).memWf := by
  grind [State.writeRecord, memWf_memStore, stored_post, stored_postRecord, memWf_readAccs, stored_setPart, memWf_congr]

@[simp] theorem stored_savedRecords (s : State) (dom first : Nat) (xs : List DirEntry) :
    (s.savedRecords dom first xs).2.stored = s.stored := by
  induction xs generalizing s dom first <;> grind [State.savedRecords, stored_readData]

theorem memWf_restoreCore (s : State) (core : Nat) (bs : List Byte) (h : s.memWf) : (s.restoreCore core bs).memWf := by
  grind [State.restoreCore, memWf_bankServed, memWf_poolStore, stored_setAgen, stored_setCursor, stored_setStream, stored_streamOf,
    memWf_congr, stored_mk, memWf_foldUp]

theorem memWf_restoreCores (s : State) (dom : Nat) (r : Saved) (xs : List (Nat × Nat)) (h : s.memWf) :
    (s.restoreCores dom r xs).2.memWf := by
  induction xs generalizing s dom r <;> grind [State.restoreCores, stored_memRead, memWf_restoreCore, memWf_congr]

@[simp] theorem stored_restoreTokens (s : State) (p : Part) (r : Saved) (k : Nat) (n : Nat) :
    (s.restoreTokens p r k n).2.stored = s.stored := by
  induction n generalizing s p r k <;> grind [State.restoreTokens, stored_readData, stored_restoreHeld]

theorem memWf_restoreAll (s : State) (p : Part) (xs : List Saved) (h : s.memWf) : (s.restoreAll p xs).2.memWf := by
  induction xs generalizing s p <;> grind [State.restoreAll, memWf_restoreCores, stored_restoreTokens, memWf_congr]
theorem memWf_restorePart (s : State) (p : Part) (h : s.memWf) : (s.restorePart p).2.memWf := by
  grind [State.restorePart, stored_directory, memWf_restoreAll, stored_savedRecords, memWf_congr]
theorem memWf_freeEntries (s : State) (dom disp : Nat) (h : s.memWf) : (s.freeEntries dom disp).memWf := by
  grind [State.freeEntries, stored_directory, memWf_writeEntry, memWf_congr, memWf_foldl]

theorem memWf_commitLine (s : State) (die : Nat) (l : StageLine) (h : s.memWf) : (s.commitLine die l).memWf := by
  grind [State.commitLine, stored_cometPost, memWf_memStore, stored_postWrite, stored_sendExch, stored_storePattern, stored_updateTiles,
    memWf_congr, memWf_foldl]

theorem memWf_commitFrame (s : State) (die : Nat) (l : StageLine) (frame : List StageLine) (h : s.memWf) :
    (s.commitFrame die l frame).memWf := by
  grind [State.commitFrame, stored_sendExch, memWf_writeWhole, memWf_congr]

theorem memWf_commitLines (s : State) (die : Nat) (ls : List StageLine) (h : s.memWf) : (s.commitLines die ls).memWf := by
  grind [State.commitLines, memWf_commitFrame, memWf_commitLine, memWf_congr, stored_foldl, memWf_foldl]
theorem memWf_writeStatus (s : State) (p : Part) (d : Disp) (h : s.memWf) : (s.writeStatus p d).memWf := by
  grind [State.writeStatus, memWf_memWrite, stored_postKey, stored_queueTrap, memWf_congr]

/-! ## Dispatchers and the hub -/

theorem memWf_startPart (s : State) (die : Nat) (d : Disp) (h : s.memWf) : (s.startPart die d).memWf := by
  unfold State.startPart
  dsimp only
  repeat' split
  all_goals grind [memWf_dealPart, stored_enableCore, memWf_freeEntries, stored_postLaunchFail, memWf_restorePart, stored_setCounters,
    stored_setPart, stored_zeroGranule, memWf_zeroPool, stored_zeroStats, memWf_congr, memWf_foldl]

@[simp] theorem stored_cutCore (s : State) (core : Nat) : (s.cutCore core).stored = s.stored := by
  grind [State.cutCore, stored_setAgen, stored_setCmdq, stored_setOpSlot, stored_unpark, stored_foldUp]
@[simp] theorem stored_emptyPort (s : State) (comet p : Nat) : (s.emptyPort comet p).stored = s.stored := rfl
@[simp] theorem stored_cutPort (s : State) (comet p : Nat) : (s.cutPort comet p).stored = s.stored := by
  grind [State.cutPort, stored_emptyPort, stored_setCometPort]
@[simp] theorem stored_cutPorts (s : State) (g : Nat) : (s.cutPorts g).stored = s.stored := by
  grind [State.cutPorts, stored_cutPort, stored_foldl]

theorem stored_discardAt (s : State) (h : HeldAt) : (s.discardAt h).stored = s.stored := by
  unfold State.discardAt
  split <;> rfl

@[simp] theorem stored_breakOpen (s : State) (k dom disp : Nat) : (s.breakOpen k dom disp).stored = s.stored := by
  grind [State.breakOpen, stored_breakCounter, stored_takeTurn]

@[simp] theorem stored_cutPart (s : State) (die dom disp : Nat) : (s.cutPart die dom disp).stored = s.stored := by
  grind [State.cutPart, stored_breakOpen, stored_cutCore, stored_cutPorts, stored_discardAt, stored_dropKilns, stored_setPart,
    stored_foldl]

@[simp] theorem stored_resetPart (s : State) (die dom disp : Nat) : (s.resetPart die dom disp).stored = s.stored := by
  unfold State.resetPart
  split <;> simp only [stored_resetRegion]

@[simp] theorem stored_recommit (s : State) (die : Nat) (d : Disp) : (s.recommit die d).stored = s.stored := by
  unfold State.recommit
  split <;> rfl

@[simp] theorem stored_silence (s : State) (die : Nat) : (s.silence die).stored = s.stored := by
  grind [State.silence, stored_resetRegion, stored_mk_mem, stored_foldl]
@[simp] theorem stored_dropCaches (s : State) (die dom : Nat) : (s.dropCaches die dom).stored = s.stored := rfl

theorem memWf_doAct (s : State) (die : Nat) (a : SchedAct) (h : s.memWf) : (s.doAct die a).memWf := by
  unfold State.doAct
  grind [stored_cutPart, stored_dispEvent, stored_dropCaches, stored_dropImages, stored_placePart, stored_post, stored_queueTrap,
    stored_recommit, stored_recoverPart, memWf_redealPart, stored_resetPart, stored_setCst, stored_setPart, stored_silence,
    memWf_startPart, memWf_congr, memWf_foldl]

theorem memWf_applyTo (s : State) (die : Nat) (f : Work → Work) (h : s.memWf) : (s.applyTo die f).memWf := by
  grind [State.applyTo, memWf_doAct, stored_setDieOf, memWf_congr, memWf_foldl]
theorem memWf_catchUp (s : State) (die : Nat) (n : Nat) (h : s.memWf) : (s.catchUp die n).memWf := by
  induction n generalizing s die <;> grind [State.catchUp, memWf_applyTo]
theorem memWf_applyIf (s : State) (die : Nat) (g : Notice → Option (Work → Work)) (h : s.memWf) : (s.applyIf die g).memWf := by
  grind [State.applyIf, memWf_applyTo, memWf_catchUp]

@[simp] theorem stored_endPart (s : State) (p : Part) : (s.endPart p).stored = s.stored := by
  unfold State.endPart
  repeat' split
  all_goals rfl

@[simp] theorem stored_sweepPart (s : State) (p : Part) : (s.sweepPart p).stored = s.stored := by
  grind [State.sweepPart, stored_endPart, stored_setPart]

@[simp] theorem stored_readReplica (s : State) (dom : Nat) (u : Option (Nat × Nat × Nat)) :
    (s.readReplica dom u).2.stored = s.stored := by
  unfold State.readReplica
  grind [stored_memRead]

@[simp] theorem stored_clearBodies (s : State) (dom : Nat) : (s.clearBodies dom).stored = s.stored := rfl
@[simp] theorem stored_exchangeEnd (s : State) (c : Sched) (dom n : Nat) : (s.exchangeEnd c dom n).stored = s.stored := by
  grind [State.exchangeEnd, stored_clearBodies, stored_post, stored_readReplica, stored_mk]
@[simp] theorem stored_runHeld (s : State) (c : Sched) : (s.runHeld c).stored = s.stored := by
  grind [State.runHeld, stored_exchangeEnd, stored_mk, stored_foldl]
@[simp] theorem stored_readHist (s : State) (dom addr e : Nat) (n : Nat) : (s.readHist dom addr e n).2.stored = s.stored := by
  induction n generalizing s dom addr e <;> grind [State.readHist, stored_readData]

/-! ## Trap queues -/

@[simp] theorem stored_signal (s : State) (f v : Nat) : (s.signal f v).stored = s.stored := by
  unfold State.signal
  repeat' split
  all_goals rfl

theorem memWf_countLost (s : State) (dom q lost n : Nat) (h : s.memWf) : (s.countLost dom q lost n).memWf := by
  grind [State.countLost, memWf_memStore]
theorem memWf_writeTrap (s : State) (t : Trap) (h : s.memWf) : (s.writeTrap t).memWf := by
  grind [State.writeTrap, memWf_countLost, stored_logEvent, stored_memRead, memWf_memStore, stored_signal, memWf_congr, stored_mk]
theorem memWf_addHeldLost (s : State) (h : s.memWf) : (s.addHeldLost).memWf := by
  grind [State.addHeldLost, memWf_countLost, stored_memRead, memWf_congr, stored_mk]

theorem memWf_discardEntries (s : State) (code unit : Nat) (doms : List Nat) (h : s.memWf) : (s.discardEntries code unit doms).memWf := by
  unfold State.discardEntries
  grind [stored_setCtrlQ, stored_setGlaze, stored_setHandle, memWf_zeroPool, memWf_congr, stored_mk, stored_mk_core, stored_mk_mem,
    stored_foldUp, memWf_foldUp]

theorem stored_tagResponse (s : State) (code die : Nat) (holders : List (Nat × Nat)) (dom : Nat) :
    (s.tagResponse code die holders dom).stored = s.stored := by
  grind [State.tagResponse, stored_post, stored_foldl]

/-! ## System instructions -/

@[simp] theorem stored_writeCsr (i : Issue) (n v : Nat) : (i.writeCsr n v).stored = i.s.stored := by
  unfold Issue.writeCsr
  split <;> rfl

@[simp] theorem stored_askSaggar (s : State) (r : SagReq) : (s.askSaggar r).stored = s.stored := by
  unfold State.askSaggar
  split <;> rfl

@[simp] theorem stored_sagRequest (i : Issue) (r : SagReq) : (i.sagRequest r).state.stored = i.s.stored := by
  unfold Issue.sagRequest
  dsimp only
  split
  · rfl
  split
  · rfl
  split <;> simp only [Done.state_done, stored_setPredOf, stored_askSaggar]

@[simp] theorem stored_extend (s : State) (n : Nat) (bs : List Byte) : (s.extend n bs).stored = s.stored := by
  unfold State.extend
  simp only [stored_setMeasReg]

/-! ## The host's side -/

@[simp] theorem stored_seen (s : State) (f : Nat) : (s.seen f).stored = s.stored := by
  unfold State.seen
  split <;> rfl

@[simp] theorem stored_dropLaunch (s : State) (f why : Nat) : (s.dropLaunch f why).stored = s.stored := by
  grind [State.dropLaunch, stored_setFunc, stored_signal]

@[simp] theorem stored_postLaunch (s : State) (dom addr : Nat) : (s.postLaunch dom addr).stored = s.stored := by
  unfold State.postLaunch
  simp only [stored_post, stored_readPacket]

@[simp] theorem stored_mbAnswer (s : State) (f err : Nat) (rsp : BitVec 512) : (s.mbAnswer f err rsp).stored = s.stored := by
  grind [State.mbAnswer, stored_setFunc, stored_signal, stored_mk]
@[simp] theorem stored_mbEnd (s : State) (f err : Nat) : (s.mbEnd f err).stored = s.stored := by
  grind [State.mbEnd, stored_mbAnswer, stored_openVal]

@[simp] theorem stored_mbFail (s : State) (f : Nat) : (s.mbFail f).stored = s.stored := by
  unfold State.mbFail
  simp only [stored_mbEnd, stored_openVal]

@[simp] theorem stored_freshKey (s : State) (slot : Nat) : (s.freshKey slot).stored = s.stored := rfl
@[simp] theorem stored_renewContext (s : State) (dom : Nat) : (s.renewContext dom).stored = s.stored := rfl
@[simp] theorem stored_hostKill (s : State) (dom : Nat) (flr : Bool) : (s.hostKill dom flr).stored = s.stored := rfl
@[simp] theorem stored_freeContext (s : State) (dom : Nat) : (s.freeContext dom).stored = s.stored := by
  grind [State.freeContext, stored_setCst, stored_setCtx]
@[simp] theorem stored_setBootEntry (s : State) (key : Nat) (e : BootEntry) : (s.setBootEntry key e).stored = s.stored := rfl
@[simp] theorem stored_startFlr (s : State) (f : Nat) : (s.startFlr f).stored = s.stored := by
  grind [State.startFlr, stored_hostKill, stored_setFunc, stored_mk, stored_foldl]
@[simp] theorem stored_wipeDomain (s : State) (f dom : Nat) : (s.wipeDomain f dom).stored = s.stored := by
  grind [State.wipeDomain, stored_dropImages, stored_loadKey, stored_setCst, stored_setCtx, stored_setFunc, stored_mk]
@[simp] theorem stored_endFlr (s : State) (f : Nat) : (s.endFlr f).stored = s.stored := by
  grind [State.endFlr, stored_logEvent, stored_setFunc, stored_wipeDomain, stored_foldl, stored_foldUp]

@[simp] theorem stored_flrStep (s : State) (f : Nat) : (s.flrStep f).stored = s.stored := by
  unfold State.flrStep
  simp only [apply_ite State.stored, ite_self, stored_endFlr, stored_startFlr]

@[simp] theorem stored_expireHold (s : State) : (s.expireHold).stored = s.stored := by
  grind [State.expireHold, stored_logEvent, stored_startFlr, stored_mk]
@[simp] theorem stored_resignal (s : State) : (s.resignal).stored = s.stored := by
  grind [State.resignal, stored_setFunc, stored_signal, stored_foldl, stored_foldUp]
@[simp] theorem stored_release (s : State) : (s.release).stored = s.stored :=
  stored_elim (fun c => stored_runHeld _ c) _

/-! ## Starts of the module -/

@[simp] theorem stored_bootEvent (s : State) (code key : Nat) : (s.bootEvent code key).stored = s.stored := rfl
@[simp] theorem stored_raiseUnit (s : State) (key : Nat) : (s.raiseUnit key).stored = s.stored := by
  grind [State.raiseUnit, stored_bootEvent, stored_setBootEntry]
@[simp] theorem stored_clearModes (s : State) : (s.clearModes).stored = s.stored := by
  grind [State.clearModes, stored_setBootEntry, stored_mk, stored_foldl]
@[simp] theorem stored_stepFailed (s : State) (key : Nat) : (s.stepFailed key).stored = s.stored := rfl
@[simp] theorem stored_countStart (s : State) : (s.countStart).stored = s.stored := by
  grind [State.countStart, stored_mk]
@[simp] theorem stored_openRecord (s : State) (cold : Bool) : (s.openRecord cold).stored = s.stored := by
  grind [State.openRecord, stored_clearModes, stored_logEvent, stored_raiseUnit, stored_mk, stored_foldl]

@[simp] theorem stored_takeOut (s : State) : (s.takeOut).stored = s.stored := by
  unfold State.takeOut
  dsimp only
  rw [stored_foldl_snd, stored_foldUp]
  · grind [stored_postLoss]
  · grind [stored_meshDown]

@[simp] theorem stored_applyMap (s : State) : (s.applyMap).stored = s.stored := by
  grind [State.applyMap, stored_bootEvent, stored_setFabLink, stored_setMapEntry, stored_mk, stored_foldUp]
@[simp] theorem stored_measure (s : State) (n : Nat) (d : Word) : (s.measure n d).stored = s.stored := by
  grind [State.measure, stored_extend]
@[simp] theorem stored_measureStart (s : State) : (s.measureStart).stored = s.stored := by
  grind [State.measureStart, stored_measure]
@[simp] theorem stored_renewNonce (s : State) : (s.renewNonce).stored = s.stored := rfl
@[simp] theorem stored_beginStart (s : State) : (s.beginStart).stored = s.stored := rfl
@[simp] theorem stored_mapOut (s : State) : (s.mapOut).stored = s.stored := by
  grind [State.mapOut, stored_bootEvent, stored_mk_mem]
theorem memWf_finishStart (s : State) (h : s.memWf) : (s.finishStart).memWf := by
  grind [State.finishStart, stored_applyMap, stored_mapOut, stored_measureStart, stored_takeOut, memWf_writeCaps, memWf_congr, stored_mk]
@[simp] theorem stored_dieReset (s : State) (d : Nat) : (s.dieReset d).stored = s.stored := rfl
theorem memWf_warmed (s : State) (h : s.memWf) : (s.warmed).memWf :=
  (memWf_congr (stored_foldUp stored_dieReset _ _)).2 ⟨h.1, rfl⟩

theorem memWf_cooled (s : State) : (s.cooled).memWf := by
  have : s.warmed.stored = (s.mem.bytes, {}) := by
    exact stored_foldUp stored_dieReset _ _
  simp only [State.stored, Prod.mk.injEq] at this
  simp only [State.cooled, State.memWf, this.2]
  exact ⟨rfl, rfl⟩

@[simp] theorem stored_bootUnit (a : Bool × State) (key : Nat) : (State.bootUnit a key).2.stored = a.2.stored := by
  unfold State.bootUnit
  dsimp only
  repeat' split
  all_goals simp only [stored_setBootEntry, stored_stepFailed, stored_mk]

/-- The starts, by the recursion of `State.tryStarts`. Its equations would have Lean run through the units of `bootUnits`, so the proof
opens the recursion itself, after it has named the record's opening and the fold over the units. -/
theorem memWf_tryStarts (s : State) (cold : Bool) (n : Nat) (h : s.memWf) : (s.tryStarts cold n).memWf := by
  obtain ⟨F, hF⟩ : ∃ F, F = State.tryStarts._f := ⟨_, rfl⟩
  obtain ⟨op, hop⟩ : ∃ op, op = State.openRecord := ⟨_, rfl⟩
  obtain ⟨fo, hfo⟩ : ∃ fo, fo = List.foldl State.bootUnit := ⟨_, rfl⟩
  have hst : ∀ s cold, (op s cold).stored = s.stored := by rw [hop]; exact stored_openRecord
  have hfs : ∀ a us, (fo a us).2.stored = a.2.stored := by rw [hfo]; exact fun a us => stored_foldl_snd stored_bootUnit us a
  delta State.tryStarts
  rw [← hF]
  delta State.tryStarts._f at hF
  rw [← hop, ← hfo] at hF
  clear hop hfo
  generalize bootUnits = us at hF
  induction n generalizing s cold with
  | zero => subst hF; exact h
  | succ n ih =>
    change (F (n + 1) ⟨Nat.brecOn n F, _⟩ s cold).memWf
    generalize @Nat.brecOn (fun _ => State → Bool → State) n F = G at ih ⊢
    rw [hF]
    have hs : (fo (true, op s.countStart.beginStart cold) us).2.memWf := by
      rw [memWf_congr (hfs ..), memWf_congr (hst ..),
        memWf_congr (stored_beginStart ..), memWf_congr (stored_countStart ..)]
      exact h
    dsimp only
    generalize fo _ us = r at hs ⊢
    obtain ⟨ok, t⟩ := r
    cases ok with
    | true => exact memWf_finishStart _ hs
    | false =>
      dsimp only
      split
      · exact hs
      · exact ih _ _ (memWf_warmed _ hs)

theorem memWf_warmReset (s : State) (h : s.memWf) : (s.warmReset).memWf := by
  grind [State.warmReset, memWf_tryStarts, memWf_warmed]
@[simp] theorem stored_heatEvent (s : State) : (s.heatEvent).stored = s.stored := by
  grind [State.heatEvent, stored_logEvent, stored_openVal]

/-! ## The Saggar -/

@[simp] theorem stored_signReport (s : State) (d : Nat) (m : List Byte) (n : Nat) : (s.signReport d m n).2.stored = s.stored := by
  induction n generalizing s d m <;> grind [State.signReport, stored_mk]

@[simp] theorem stored_signedReport (s : State) (dom nonce : Nat) (sideband : Bool) :
    (s.signedReport dom nonce sideband).2.stored = s.stored := by
  grind [State.signedReport, stored_signReport]

/-- Stated of the pair, and its checks made opaque first: to project from it, Lean would evaluate the signature. -/
theorem verifyToken_eq_pair (s : State) (obj : List Byte) :
    ∃ a t, s.verifyToken obj = (a, t) ∧ t.stored = s.stored := by
  rw [show @State.verifyToken = _ by delta State.verifyToken; rfl]
  generalize firstFailing _ = o
  cases o with
  | none => exact ⟨_, _, rfl, (stored_logEvent ..).trans rfl⟩
  | some r => exact ⟨_, _, rfl, rfl⟩

@[simp] theorem stored_verifyToken (s : State) (obj : List Byte) : (s.verifyToken obj).2.stored = s.stored := by
  obtain ⟨a, t, h, ht⟩ := verifyToken_eq_pair s obj
  rwa [h]

/-- As for `State.verifyToken`. -/
theorem verifyManifest_eq_pair (s : State) (dom : Nat) (obj : List Byte) :
    ∃ a t, s.verifyManifest dom obj = (a, t) ∧ t.stored = s.stored := by
  rw [show @State.verifyManifest = _ by delta State.verifyManifest; rfl]
  generalize firstFailing _ = o
  cases o with
  | some r => exact ⟨_, _, rfl, rfl⟩
  | none =>
    have hm := stored_memRead s dom dom (natOfBytes (obj.take 8)) (natOfBytes ((obj.drop 8).take 8))
    generalize s.memRead .. = m at hm
    obtain ⟨image | _, t⟩ := m
    · by_cases hd : Sm.sm3 image = (obj.drop 16).take 32
      · exact ⟨_, _, if_pos hd, (stored_extend ..).trans hm⟩
      · exact ⟨_, _, if_neg hd, hm⟩
    · exact ⟨_, _, rfl, hm⟩

@[simp] theorem stored_verifyManifest (s : State) (dom : Nat) (obj : List Byte) : (s.verifyManifest dom obj).2.stored = s.stored := by
  obtain ⟨a, t, h, ht⟩ := verifyManifest_eq_pair s dom obj
  rwa [h]

@[simp] theorem stored_advanceLife (s : State) (code new : Nat) : (s.advanceLife code new).stored = s.stored := rfl

/-! ## Bexwen links and remote exchange -/

theorem stored_sendPacket (s : State) (h : Header) (flit : BitVec 512) : (s.sendPacket h flit).stored = s.stored := by
  grind [State.sendPacket, stored_fabEvent, stored_sendFlits]
@[simp] theorem stored_endAtom (s : State) (r : RAtom) (old : BitVec 64) (status : Nat) : (s.endAtom r old status).stored = s.stored := by
  grind [State.endAtom, stored_answerCmd, stored_fabEvent, stored_mk]
@[simp] theorem stored_resendAtom (s : State) (r : RAtom) : (s.resendAtom r).stored = s.stored := by
  grind [State.resendAtom, stored_endAtom, stored_sendFlits, stored_mk]
@[simp] theorem stored_rerouteAtoms (s : State) : (s.rerouteAtoms).stored = s.stored := by
  grind [State.rerouteAtoms, stored_resendAtom, stored_foldl]
@[simp] theorem stored_atomResponse (s : State) (flit : BitVec 512) : (s.atomResponse flit).stored = s.stored := by
  grind [State.atomResponse, stored_endAtom]

theorem memWf_performAtom (s : State) (dom fmt aop tid coords operand : Nat) (h : s.memWf) :
    (s.performAtom dom fmt aop tid coords operand).2.memWf := by
  grind [State.performAtom, stored_cometPost, stored_hbmRead, memWf_hbmWrite, stored_xlatAtom, memWf_congr]

@[simp] theorem stored_atomReply (s : State) (flit : BitVec 512) (rst : Nat) (old : BitVec 64) :
    (s.atomReply flit rst old).stored = s.stored := by
  unfold State.atomReply
  simp only [stored_sendPacket]

theorem memWf_atomRequest (s : State) (flit : BitVec 512) (h : s.memWf) : (s.atomRequest flit).memWf := by
  grind [State.atomRequest, stored_atomReply, memWf_performAtom, stored_setDedup, memWf_congr]

@[simp] theorem stored_remoteResolve (s : State) (a : Asker) (tid coords start n : Nat) :
    (s.remoteResolve a tid coords start n).2.stored = s.stored := by
  grind [State.remoteResolve, stored_descriptor, stored_translate, stored_mk]

theorem memWf_remoteStore (s : State) (a : Asker) (ps : List Piece) (bytes : List Byte) (raw : Bool) (form : ExchForm) (h : s.memWf) :
    (s.remoteStore a ps bytes raw form).memWf := by
  grind [State.remoteStore, memWf_hbmWrite, stored_patternPiece, memWf_writeForms, memWf_congr, memWf_foldl]

theorem memWf_remoteWrite (s : State) (dom tid coords start : Nat) (bytes : List Byte) (raw : Bool) (form : ExchForm) (h : s.memWf) :
    (s.remoteWrite dom tid coords start bytes raw form).2.memWf := by
  grind [State.remoteWrite, stored_remoteResolve, memWf_remoteStore, memWf_congr]

theorem stored_exchAck (s : State) (h : Header) (r : Option Word) : (s.exchAck h r).stored = s.stored := by
  unfold State.exchAck
  grind [stored_sendPacket]

@[simp] theorem stored_endExch (s : State) (e : ExchOut) (status : Nat) (r : Option Word) : (s.endExch e status r).stored = s.stored := by
  unfold State.endExch
  grind [stored_cometPost, stored_finishCmd, stored_mk]

theorem memWf_exchArrive (s : State) (flits : List (BitVec 512)) (h : s.memWf) : (s.exchArrive flits).memWf := by
  grind [State.exchArrive, stored_exchAck, memWf_remoteWrite, memWf_congr, stored_mk]
@[simp] theorem stored_exchAnswer (s : State) (flit : BitVec 512) : (s.exchAnswer flit).stored = s.stored := by
  grind [State.exchAnswer, stored_endExch]
@[simp] theorem stored_heardFrom (s : State) (m : Nat) : (s.heardFrom m).stored = s.stored := rfl
@[simp] theorem stored_ctxBody (s : State) (member dom : Nat) (active : Bool) : (s.ctxBody member dom active).stored = s.stored := by
  grind [State.ctxBody, stored_fabAdvance, stored_heardFrom, stored_setMember]
@[simp] theorem stored_phaseBody (s : State) (member dom phase : Nat) : (s.phaseBody member dom phase).stored = s.stored := rfl

@[simp] theorem stored_farrBody (s : State) (member dom bar gen : Nat) : (s.farrBody member dom bar gen).stored = s.stored := by
  unfold State.farrBody
  simp only [stored_mk, stored_fabAdvance, stored_heardFrom]

@[simp] theorem stored_fexitBody (s : State) (member dom bar : Nat) : (s.fexitBody member dom bar).stored = s.stored := by
  grind [State.fexitBody, stored_fabAdvance, stored_heardFrom, stored_mk]
@[simp] theorem stored_fbreakBody (s : State) (member dom bar : Nat) : (s.fbreakBody member dom bar).stored = s.stored := by
  grind [State.fbreakBody, stored_heardFrom, stored_setBarrier, stored_mk, stored_foldUp]

@[simp] theorem stored_takeBody (s : State) (v : BitVec 512) : (s.takeBody v).stored = s.stored := by
  grind [State.takeBody, stored_ctxBody, stored_fabEvent, stored_farrBody, stored_fbreakBody, stored_fexitBody, stored_phaseBody,
    stored_sendFlit]

theorem memWf_deliver (s : State) (flits : List (BitVec 512)) (h : s.memWf) : (s.deliver flits).memWf := by
  grind [State.deliver, memWf_atomRequest, stored_atomResponse, stored_exchAnswer, memWf_exchArrive, memWf_congr]
@[simp] theorem stored_setCont (s : State) (link vc n to_ : Nat) : (s.setCont link vc n to_).stored = s.stored := rfl
theorem memWf_gather1 (s : State) (link vc n : Nat) (flit : BitVec 512) (h : s.memWf) : (s.gather1 link vc n flit).memWf := by
  grind [State.gather1, memWf_deliver, stored_setFabLink, memWf_congr]
theorem memWf_takeFlit (s : State) (link vc : Nat) (flit : BitVec 512) (h : s.memWf) : (s.takeFlit link vc flit).memWf := by
  grind [State.takeFlit, stored_fabEvent, memWf_gather1, stored_sendFlit, stored_setCont, memWf_congr]
@[simp] theorem stored_failExch (s : State) (m : Nat) : (s.failExch m).stored = s.stored := by
  grind [State.failExch, stored_endExch, stored_foldl]
@[simp] theorem stored_postLinkDown (s : State) (m : Nat) : (s.postLinkDown m).stored = s.stored := by
  grind [State.postLinkDown, stored_queueTrap, stored_foldl]

@[simp] theorem stored_loseModule (s : State) (m : Nat) : (s.loseModule m).stored = s.stored := by
  grind [State.loseModule, stored_endAtom, stored_fabAdvance, stored_fabEvent, stored_failExch, stored_postLinkDown, stored_mk,
    stored_foldl]

@[simp] theorem stored_unsendAtom (s : State) (r : RAtom) : (s.unsendAtom r).stored = s.stored := by
  grind [State.unsendAtom, stored_putCmd, stored_mk]
@[simp] theorem stored_rerouteExch (s : State) : (s.rerouteExch).stored = s.stored := by
  grind [State.rerouteExch, stored_sendPackets, stored_foldl]

@[simp] theorem stored_bexDown (s : State) (link : Nat) : (s.bexDown link).stored = s.stored := by
  unfold State.bexDown
  grind [stored_fabAdvance, stored_fabEvent, stored_loseModule, stored_rerouteAtoms, stored_rerouteExch, stored_setFabLink,
    stored_unsendAtom, stored_mk, stored_foldl]

@[simp] theorem stored_sendContexts (s : State) : (s.sendContexts).stored = s.stored := by
  grind [State.sendContexts, stored_sendBody, stored_foldl, stored_foldUp]

@[simp] theorem stored_sendIdentity (s : State) (link : Nat) : (s.sendIdentity link).stored = s.stored := by
  unfold State.sendIdentity
  simp only [stored_sendBody]

@[simp] theorem stored_keepPeer (s : State) (m : Nat) (epoch : BitVec 32) (rawx : Bool) :
    (s.keepPeer m epoch rawx).stored = s.stored := by
  grind [State.keepPeer, stored_setFabLink, stored_foldUp]

@[simp] theorem stored_learnEpoch (s : State) (m : Nat) (epoch : BitVec 32) : (s.learnEpoch m epoch).stored = s.stored := by
  grind [State.learnEpoch, stored_endAtom, stored_foldl]

/-! ## `RESUME` -/

theorem memWf_retryPort (s : State) (comet p : Nat) (k : Parked) (h : s.memWf) : (s.retryPort comet p k).memWf := by
  grind [State.retryPort, stored_descriptor, stored_dropPage, stored_fetchLine, memWf_graphAccess, stored_pageEntry, stored_parkPort,
    memWf_runFill, memWf_translateAt, stored_unpark, memWf_congr]

@[simp] theorem stored_abandonCmd (s : State) (core n : Nat) (c : Cmd) (entry : Nat) (r : Word) :
    (s.abandonCmd core n c entry r).stored = s.stored := by
  grind [State.abandonCmd, stored_failCmd, stored_putCmd]

@[simp] theorem stored_abandonPort (s : State) (comet p : Nat) (k : Parked) : (s.abandonPort comet p k).stored = s.stored := by
  grind [State.abandonPort, stored_abandonCmd, stored_failFill, stored_failGraph, stored_failLine, stored_setCometPort, stored_unpark]

theorem memWf_resume (i : Issue) (fail : Bool) (h : i.s.memWf) : (i.resume fail).state.memWf := by
  unfold Issue.resume
  repeat' split
  all_goals grind [Done.state_done, memWf_congr, stored_illegal, stored_setPredOf, stored_abandonPort, memWf_retryPort]

/-! ## Firings -/

@[simp] theorem stored_refresh1 (s : State) (pe k : Nat) : (s.refresh1 pe k).stored = s.stored := by
  grind [State.refresh1, stored_setTask]
@[simp] theorem stored_refresh (s : State) (pe : Nat) : (s.refresh pe).stored = s.stored := by
  grind [State.refresh, stored_refresh1, stored_foldUp]
@[simp] theorem stored_noteChoice (s : State) (pe k : Nat) : (s.noteChoice pe k).stored = s.stored := by
  grind [State.noteChoice, stored_setChooser, stored_setTask, stored_touch, stored_foldUp]
theorem stored_clearWindow (s : State) (pe : Nat) (h : Handle) (k : Nat) (n : Nat) : (s.clearWindow pe h k n).stored = s.stored := by
  induction n generalizing s pe h k <;> grind [State.clearWindow, stored_setSlotOf]
@[simp] theorem stored_beginData (s : State) (pe k : Nat) : (s.beginData pe k).stored = s.stored := by
  grind [State.beginData, stored_clearWindow, stored_setTask, stored_foldUp]
@[simp] theorem stored_takeMarkers (s : State) (pe k : Nat) : (s.takeMarkers pe k).stored = s.stored := by
  grind [State.takeMarkers, stored_consume1, stored_foldUp]

@[simp] theorem stored_emitMarkers (s : State) (pe k v : Nat) (poison : Option Word) :
    (s.emitMarkers pe k v poison).stored = s.stored := by
  grind [State.emitMarkers, stored_publish, stored_publishPoison, stored_foldUp]

@[simp] theorem stored_fireMarker (s : State) (pe k : Nat) : (s.fireMarker pe k).stored = s.stored := by
  grind [State.fireMarker, stored_emitMarkers, stored_setTask, stored_takeMarkers]

/-! ## Fetching -/

@[simp] theorem stored_fetchFault (s : State) (pe slot : Nat) (w : Tiw) : (s.fetchFault pe slot w).stored = s.stored := by
  grind [State.fetchFault, stored_emit, stored_endFiring, stored_touch]

/-! ## Upsets -/

@[simp] theorem stored_slotUpset (s : State) (pe n : Nat) : (s.slotUpset pe n).stored = s.stored := by
  grind [State.slotUpset, stored_setSlotOf]

@[simp] theorem stored_glazeUpset (s : State) (c k : Nat) : (s.glazeUpset c k).stored = s.stored := by
  unfold State.glazeUpset
  dsimp only
  split <;> rfl

@[simp] theorem stored_keyUpset (s : State) (cl k : Nat) : (s.keyUpset cl k).stored = s.stored := by
  grind [State.keyUpset, stored_openVal, stored_post, stored_mk]

@[simp] theorem stored_applyUpset (u : Upset) (s : State) : (applyUpset u s).stored = s.stored := by
  unfold applyUpset
  grind [stored_glazeUpset, stored_keyUpset, stored_setBadReg, stored_setEntry, stored_setKiln, stored_setLineFault, stored_setPoolFault,
    stored_slotUpset, stored_mk]

/-! ## The step -/

@[simp] theorem stored_next (s : State) : (s.next).2.stored = s.stored := by
  unfold State.next
  split <;> rfl

end Sys2Proof.Machine
end

section
/-! PROOFS. The frames in which meanings run, and the stored bytes that a meaning answers. -/
namespace Sys2Proof.Machine

/-! ## What takes a step of the caller's choice -/

theorem stored_discardBad {s t : State} {r : Nat} (h : s.discardBad r = some t) : t.stored = s.stored := by
  obtain ⟨k, -, rfl⟩ := Option.map_eq_some_iff.mp h
  exact (stored_dispEvent ..).trans (stored_setMeshIn ..)

theorem stored_blockMem {i : Issue} (r : Request) {put : State → Word → State} (hp : ∀ s v, (put s v).stored = s.stored) :
    (i.blockMem r put).state.stored = i.s.stored := by
  unfold Issue.blockMem
  cases i.task.wait with
  | memDone v o =>
    cases o with
    | none => exact hp ..
    | some f => exact (stored_setTask ..).trans (hp ..)
  | memSent => rfl
  | _ => exact stored_sendMem ..

theorem stored_acceptLoad {s t : State} {cl : Nat} {p : Part} {d : Disp} {l : Loader} {body : List Word} {e0 e1 : Word}
    (h : s.acceptLoad cl p d l body e0 e1 = some t) : t.stored = s.stored := by
  unfold State.acceptLoad at h
  dsimp only at h
  split at h
  · cases h
  obtain rfl := Option.some.inj h
  rw [stored_reportLoad]
  cases l.entry .. <;> grind [stored_fillCache, stored_dropCopies, stored_loadImage]

theorem stored_owned (s : State) (f dom : Nat) {run : State → State} (hr : (run s).stored = s.stored) :
    (s.owned f dom run).stored = s.stored := by
  unfold State.owned
  split
  · exact hr
  · exact stored_mbEnd ..

theorem memWf_serveBlock {s : State} (h : s.memWf) (dom addr least : Nat) {run : List Byte → State → SagAnswer × State}
    (hr : ∀ bs t, (run bs t).2.stored = t.stored) : (s.serveBlock dom addr least run).memWf := by
  have hm := stored_memRead s dom dom addr 64
  unfold State.serveBlock
  dsimp only
  split <;> rename_i ht <;> rw [ht] at hm
  · exact (memWf_congr hm).2 h
  have hs := (memWf_congr hm).2 h
  split
  · iterate 2 refine State.memStore_memWf ?_ ..
    exact hs
  rename_i bs t _
  have hl := stored_memRead t dom dom addr (natOfBytes ((bs.drop 8).take 4))
  split <;> rename_i ht <;> rw [ht] at hl
  · exact (memWf_congr hl).2 hs
  have hb (bs : List Byte) := (memWf_congr (hr bs _)).2 ((memWf_congr hl).2 hs)
  refine State.memStore_memWf ?_ ..
  split
  · exact State.memStore_memWf (State.memStore_memWf (hb _) ..) ..
  · exact State.memStore_memWf (hb _) ..

/-! ## What a meaning answers -/

/-- A next state that a meaning answers has the pools and the package's memory in their canonical form. -/
def NextMemWf (o : Out) : Prop := ∀ t, o = .next t → t.memWf

theorem nextMemWf_next {t : State} (h : t.memWf) : NextMemWf (.next t) := by
  rintro _ ⟨rfl⟩
  exact h

theorem nextMemWf_of_stored {s t : State} (h : s.memWf) (ht : t.stored = s.stored) :
    NextMemWf (.next t) := nextMemWf_next ((memWf_congr ht).2 h)

theorem nextMemWf_runInstr {s : State} (h : s.memWf) (spec : OpSpec) (w : Fields) {body : Issue → Done}
    (hb : ∀ i : Issue, i.s.memWf → (body i).state.memWf) : NextMemWf (runInstr spec w body s) := by
  unfold runInstr
  split
  · exact nextMemWf_next h
  dsimp only
  split
  · exact nextMemWf_of_stored h (stored_failWith ..)
  generalize (if Task.wait _ = .none then Issue.regsRead _ else []) = ns
  have hr (i : Issue) : (ns.foldl i.repair s).stored = s.stored := stored_foldl (stored_repair i) ns s
  split
  · exact nextMemWf_of_stored h ((stored_failWith ..).trans (hr _))
  split
  · exact nextMemWf_of_stored h ((stored_sequence ..).trans (hr _))
  split <;> rename_i hd
  all_goals
    have hs := (congrArg (fun d : Done => d.state.memWf) hd).mp (hb _ ((memWf_congr (hr _)).2 h))
  · exact nextMemWf_of_stored hs (stored_sequence ..)
  · exact nextMemWf_of_stored hs (stored_failWith ..)
  · exact nextMemWf_next hs

/-- An instruction that leaves the stored bytes as they are. -/
theorem nextMemWf_runInstr_stored {s : State} (h : s.memWf) (spec : OpSpec) (w : Fields) {body : Issue → Done}
    (hb : ∀ i : Issue, (body i).state.stored = i.s.stored) : NextMemWf (runInstr spec w body s) :=
  nextMemWf_runInstr h spec w fun i hi => (memWf_congr (hb i)).2 hi

theorem nextMemWf_runUnit {s : State} (h : s.memWf) (spec : OpSpec) (w : Fields) (eff : Issue → Eff) : NextMemWf (runUnit spec w eff s) :=
  nextMemWf_runInstr_stored h spec w fun i => stored_apply i i.s (eff i)

theorem nextMemWf_hostAccess {s : State} (h : s.memWf) (f : Nat) {g : State → State} (hg : ∀ t, t.memWf → (g t).memWf) :
    NextMemWf (s.hostAccess f g) := by
  unfold State.hostAccess
  split
  · exact nextMemWf_next (hg _ ((memWf_congr (stored_seen ..)).2 h))
  · exact nextMemWf_next h

theorem nextMemWf_doorbell {s : State} (h : s.memWf) (f code : Nat) {run : Nat → State → State}
    (hr : ∀ dom t, (run dom t).stored = t.stored) : NextMemWf (s.doorbell f code run) :=
  nextMemWf_hostAccess h f fun t ht => by grind [memWf_congr]

theorem nextMemWf_query {s : State} (h : s.memWf) (f : Nat) (sel : Nat → Bool) (answer : Nat → State → Option Nat) :
    NextMemWf (s.query f sel answer) :=
  nextMemWf_doorbell h f 7 fun dom t => by grind [stored_mbFail, stored_mbAnswer]

theorem nextMemWf_terminateCmd {s : State} (h : s.memWf) (f code : Nat) {finish : Nat → State → State}
    (hf : ∀ dom t, (finish dom t).stored = t.stored) : NextMemWf (s.terminateCmd f code finish) := by
  unfold State.terminateCmd
  dsimp only
  split
  · exact nextMemWf_of_stored h (by grind [stored_mbEnd])
  · refine nextMemWf_hostAccess h f fun t ht => ?_
    split
    · exact ht
    · rw [memWf_congr (stored_owned ..)]
      · exact ht
      · simp only [stored_hostKill, stored_setFunc]

theorem nextMemWf_serveNext {s : State} (h : s.memWf) (want : SagReq → Bool) {serve : SagReq → State → State}
    (hv : ∀ r t, t.memWf → (serve r t).memWf) : NextMemWf (s.serveNext want serve) := by
  unfold State.serveNext
  repeat' split
  · exact nextMemWf_next h
  · exact nextMemWf_next (hv _ _ h)
  · exact nextMemWf_next h

theorem nextMemWf_answer {s : State} (h : s.memWf) (bs : List Byte) : NextMemWf (s.answer bs) := by
  unfold State.answer
  split <;> exact nextMemWf_next h

end Sys2Proof.Machine
end

section
/-! PROOFS. Instructions and events keep the canonical form, and so does every step. -/
namespace Sys2Proof.Machine

/-! ## The pool of a core -/

theorem nextMemWf_execPoolEccWriteback (core : Nat) (word : Nat) (s : State) (h : s.memWf) :
    NextMemWf (execPoolEccWriteback core word s) := by
  unfold execPoolEccWriteback
  repeat' split
  all_goals exact nextMemWf_next (by grind [stored_setPoolFault, memWf_congr])

/-! ## The mesh -/

theorem nextMemWf_execMeshFlitHop (router : Nat) (out : Nat) (s : State) (h : s.memWf) : NextMemWf (execMeshFlitHop router out s) := by
  unfold execMeshFlitHop
  repeat' split
  all_goals exact nextMemWf_next (by grind [stored_hop, stored_discardBad, memWf_congr])

theorem nextMemWf_execPacketAgePromote (router : Nat) (input : Nat) (vc : Nat) (s : State) (h : s.memWf) :
    NextMemWf (execPacketAgePromote router input vc s) := by
  unfold execPacketAgePromote
  repeat' split
  all_goals exact nextMemWf_next (by grind [stored_setMeshIn, memWf_congr])

/-! ## The router array -/

theorem nextMemWf_execLocalPortDeliver (router : Nat) (s : State) (h : s.memWf) :
    NextMemWf (execLocalPortDeliver router s) := nextMemWf_of_stored h (stored_give ..)
theorem nextMemWf_execLocalPortTake (router : Nat) (s : State) (h : s.memWf) :
    NextMemWf (execLocalPortTake router s) := nextMemWf_of_stored h (stored_takeIn ..)

theorem nextMemWf_execElementPortTransfer (router : Nat) (dir : Nat) (s : State) (h : s.memWf) :
    NextMemWf (execElementPortTransfer router dir s) := by
  unfold execElementPortTransfer
  repeat' split
  all_goals exact nextMemWf_next (by grind [stored_give, stored_takeIn, memWf_congr])

theorem nextMemWf_execRouteHop (router : Nat) (out : Nat) (port : Nat) (s : State) (h : s.memWf) :
    NextMemWf (execRouteHop router out port s) := nextMemWf_of_stored h (stored_give ..)

/-! ## Memory nodes and memory instructions -/

theorem nextMemWf_execMemnodePerform (node : Nat) (index : Nat) (s : State) (h : s.memWf) :
    NextMemWf (execMemnodePerform node index s) := by
  unfold execMemnodePerform
  dsimp only
  repeat' split
  all_goals exact nextMemWf_next (by grind [memWf_nodeAccess])

theorem nextMemWf_execMemnodeAccept (node : Nat) (port : Nat) (s : State) (h : s.memWf) : NextMemWf (execMemnodeAccept node port s) := by
  unfold execMemnodeAccept
  dsimp only
  repeat' split
  all_goals exact nextMemWf_next (by grind [stored_acceptPoison, stored_acceptReq, stored_corePost, stored_setNode, memWf_congr])

theorem nextMemWf_execMemnodeResultEmit (node : Nat) (port : Nat) (s : State) (h : s.memWf) :
    NextMemWf (execMemnodeResultEmit node port s) := by
  unfold execMemnodeResultEmit
  dsimp only
  repeat' split
  all_goals exact nextMemWf_next (by grind [stored_nodeEmit, stored_setNode, stored_touch, memWf_congr])

theorem nextMemWf_execMemnodeMarker (node : Nat) (port : Nat) (s : State) (h : s.memWf) : NextMemWf (execMemnodeMarker node port s) := by
  unfold execMemnodeMarker
  dsimp only
  repeat' split
  all_goals exact nextMemWf_next (by grind [stored_nodeEmit, stored_setNode, stored_touch, memWf_congr])

theorem nextMemWf_execMemnodePairRealign (node : Nat) (pair : Nat) (s : State) (h : s.memWf) :
    NextMemWf (execMemnodePairRealign node pair s) := by
  unfold execMemnodePairRealign
  dsimp only
  repeat' split
  all_goals exact nextMemWf_next (by grind [stored_corePost, stored_nodeEmit, stored_setNode, stored_touch, memWf_congr])

theorem nextMemWf_execLd (w : Fields) (s : State) (h : s.memWf) : NextMemWf (execLd w s) :=
  nextMemWf_runInstr_stored h _ _ fun i => by grind [stored_putD, stored_blockMem]
theorem nextMemWf_execSt (w : Fields) (s : State) (h : s.memWf) : NextMemWf (execSt w s) :=
  nextMemWf_runInstr_stored h _ _ fun _ => stored_sendMem ..
theorem nextMemWf_execLdv (w : Fields) (s : State) (h : s.memWf) : NextMemWf (execLdv w s) :=
  nextMemWf_runInstr_stored h _ _ fun i => by grind [stored_putD, stored_blockMem]
theorem nextMemWf_execStv (w : Fields) (s : State) (h : s.memWf) : NextMemWf (execStv w s) :=
  nextMemWf_runInstr_stored h _ _ fun _ => stored_sendMem ..
theorem nextMemWf_execAtom (w : Fields) (s : State) (h : s.memWf) : NextMemWf (execAtom w s) :=
  nextMemWf_runInstr_stored h _ _ fun _ => stored_sendMem ..
theorem nextMemWf_execAtomr (w : Fields) (s : State) (h : s.memWf) : NextMemWf (execAtomr w s) :=
  nextMemWf_runInstr_stored h _ _ fun i => by grind [stored_putD, stored_blockMem]
theorem nextMemWf_execCas (w : Fields) (s : State) (h : s.memWf) : NextMemWf (execCas w s) :=
  nextMemWf_runInstr_stored h _ _ fun i => by grind [stored_putD, stored_blockMem]
theorem nextMemWf_execHins (w : Fields) (s : State) (h : s.memWf) : NextMemWf (execHins w s) :=
  nextMemWf_runInstr_stored h _ _ fun i => by grind [stored_setPredOf, stored_blockMem]
theorem nextMemWf_execCopy (w : Fields) (s : State) (h : s.memWf) : NextMemWf (execCopy w s) :=
  nextMemWf_runInstr_stored h _ _ fun _ => stored_sendMem ..
theorem nextMemWf_execFill (w : Fields) (s : State) (h : s.memWf) : NextMemWf (execFill w s) :=
  nextMemWf_runInstr_stored h _ _ fun _ => stored_sendMem ..

theorem nextMemWf_execFence (w : Fields) (s : State) (h : s.memWf) : NextMemWf (execFence w s) :=
  nextMemWf_runInstr_stored h _ _ fun i => by
    dsimp only
    repeat' split
    all_goals simp only [Done.state_done, Done.state_hold, stored_putD]

theorem nextMemWf_execAdv (w : Fields) (s : State) (h : s.memWf) : NextMemWf (execAdv w s) :=
  nextMemWf_runInstr_stored h _ _ fun i => by
    dsimp only
    repeat' split
    all_goals simp only [Done.state_done, stored_illegal, stored_advance]

theorem nextMemWf_execEmit (w : Fields) (s : State) (h : s.memWf) : NextMemWf (execEmit w s) :=
  nextMemWf_runInstr_stored h _ _ fun i => by
    dsimp only
    repeat' split
    all_goals simp only [Done.state_done, stored_illegal, stored_putD, stored_advance]

theorem nextMemWf_execEmitm (w : Fields) (s : State) (h : s.memWf) : NextMemWf (execEmitm w s) :=
  nextMemWf_runInstr_stored h _ _ fun i => by
    dsimp only
    repeat' split
    all_goals simp only [Done.state_done, Done.state_hold, stored_illegal, stored_publish]

theorem nextMemWf_execTestm (w : Fields) (s : State) (h : s.memWf) : NextMemWf (execTestm w s) :=
  nextMemWf_runInstr_stored h _ _ fun i => by
    dsimp only
    repeat' split
    all_goals simp only [Done.state_done, Done.state_hold, stored_illegal, stored_setPredOf]

theorem nextMemWf_execNxtile (w : Fields) (s : State) (h : s.memWf) : NextMemWf (execNxtile w s) :=
  nextMemWf_runInstr_stored h _ _ fun i => by
    dsimp only
    repeat' split
    all_goals simp only [Done.state_done, stored_putD, stored_emit, stored_setPredOf, stored_setSlotOf]
    all_goals grind [stored_putD, stored_poolRead, stored_setCursor, stored_setPredOf]

/-! ## Memory controllers -/

theorem nextMemWf_execControllerRead (controller : Nat) (s : State) (h : s.memWf) : NextMemWf (execControllerRead controller s) := by
  unfold execControllerRead
  dsimp only
  repeat' split
  all_goals exact nextMemWf_next (by grind [stored_acceptCtrl, stored_serveRead, memWf_congr])

theorem nextMemWf_execParityRebuild (line : Nat) (s : State) (h : s.memWf) : NextMemWf (execParityRebuild line s) := by
  unfold execParityRebuild
  repeat' split
  all_goals exact nextMemWf_next (by grind [stored_serveRead, memWf_congr])

theorem nextMemWf_execControllerWrite (controller : Nat) (s : State) (h : s.memWf) : NextMemWf (execControllerWrite controller s) := by
  unfold execControllerWrite
  dsimp only
  repeat' split
  all_goals exact nextMemWf_next (by grind [stored_acceptCtrl, stored_ctrlReply, stored_readAtom, memWf_serveWrite, stored_setCtrlQ,
    memWf_congr])

theorem nextMemWf_execParityUpdate (index : Nat) (s : State) (h : s.memWf) : NextMemWf (execParityUpdate index s) := by
  unfold execParityUpdate
  repeat' split
  all_goals exact nextMemWf_next (by grind [stored_ackWrite, memWf_congr, stored_mk_mem])

/-! ## Barriers -/

theorem nextMemWf_execBara (w : Fields) (s : State) (h : s.memWf) : NextMemWf (execBara w s) :=
  nextMemWf_runInstr_stored h _ _ fun i => by
    dsimp only
    repeat' split
    all_goals simp only [Done.state_done, Done.state_fail, stored_illegal, stored_sendBar, stored_taintWith, stored_atCounter]

theorem nextMemWf_execBarw (w : Fields) (s : State) (h : s.memWf) : NextMemWf (execBarw w s) :=
  nextMemWf_runInstr_stored h _ _ fun _ => stored_barw ..
theorem nextMemWf_execBarwT (w : Fields) (s : State) (h : s.memWf) : NextMemWf (execBarwT w s) :=
  nextMemWf_runInstr_stored h _ _ fun _ => stored_barw ..

theorem nextMemWf_execBarex (w : Fields) (s : State) (h : s.memWf) : NextMemWf (execBarex w s) :=
  nextMemWf_runInstr_stored h _ _ fun i => by
    dsimp only
    repeat' split
    all_goals simp only [Done.state_done, Done.state_fail, stored_sendBar, stored_atCounter, stored_setTask]

theorem nextMemWf_execBarrierPerform (index : Nat) (s : State) (h : s.memWf) : NextMemWf (execBarrierPerform index s) := by
  unfold execBarrierPerform
  dsimp only
  repeat' split
  all_goals exact nextMemWf_next (by grind [stored_atCounter, stored_barAnswer, stored_touch, memWf_congr, stored_mk])

/-! ## Glaze islands and address generators -/

theorem nextMemWf_execGlazeAccept (core : Nat) (s : State) (h : s.memWf) : NextMemWf (execGlazeAccept core s) := by
  unfold execGlazeAccept
  dsimp only
  repeat' split
  all_goals exact nextMemWf_next (by grind [stored_setGlaze, stored_touch, memWf_congr])

theorem nextMemWf_execGlazeOutput (core : Nat) (s : State) (h : s.memWf) : NextMemWf (execGlazeOutput core s) := by
  unfold execGlazeOutput
  dsimp only
  repeat' split
  all_goals exact nextMemWf_next (by grind [stored_setGlaze, stored_touch, memWf_congr])

theorem nextMemWf_execAgenSweepStart (agen : Nat) (s : State) (h : s.memWf) : NextMemWf (execAgenSweepStart agen s) := by
  unfold execAgenSweepStart
  dsimp only
  repeat' split
  all_goals exact nextMemWf_next (by grind [stored_setAgen, stored_touch, memWf_congr])

theorem nextMemWf_execAgenTrigger (agen : Nat) (s : State) (h : s.memWf) : NextMemWf (execAgenTrigger agen s) := by
  unfold execAgenTrigger
  dsimp only
  repeat' split
  all_goals exact nextMemWf_next (by grind [stored_agenPut, stored_setAgen, stored_touch, memWf_congr])

theorem nextMemWf_execAgenEmit (agen : Nat) (s : State) (h : s.memWf) : NextMemWf (execAgenEmit agen s) := by
  unfold execAgenEmit
  dsimp only
  repeat' split
  all_goals exact nextMemWf_next (by grind [stored_agenPut, memWf_congr])

/-! ## Control operators -/

theorem nextMemWf_execPassFiring (router : Nat) (slot : Nat) (s : State) (h : s.memWf) : NextMemWf (execPassFiring router slot s) := by
  unfold execPassFiring
  dsimp only
  repeat' split
  all_goals exact nextMemWf_next (by grind [stored_fired, memWf_congr])

theorem nextMemWf_execSteerFiring (router : Nat) (slot : Nat) (s : State) (h : s.memWf) : NextMemWf (execSteerFiring router slot s) := by
  unfold execSteerFiring
  dsimp only
  repeat' split
  all_goals exact nextMemWf_next (by grind [stored_fired, stored_postUnless, memWf_congr])

theorem nextMemWf_execMergeFiring (router : Nat) (slot : Nat) (s : State) (h : s.memWf) : NextMemWf (execMergeFiring router slot s) := by
  unfold execMergeFiring
  dsimp only
  repeat' split
  all_goals exact nextMemWf_next (by grind [stored_fired, stored_postUnless, memWf_congr])

theorem nextMemWf_execForkFiring (router : Nat) (slot : Nat) (s : State) (h : s.memWf) : NextMemWf (execForkFiring router slot s) := by
  unfold execForkFiring
  dsimp only
  repeat' split
  all_goals exact nextMemWf_next (by grind [stored_fired, memWf_congr])

theorem nextMemWf_execJoinFiring (router : Nat) (slot : Nat) (s : State) (h : s.memWf) : NextMemWf (execJoinFiring router slot s) := by
  unfold execJoinFiring
  dsimp only
  repeat' split
  all_goals exact nextMemWf_next (by grind [stored_fired, stored_postUnless, memWf_foldl, memWf_congr])

theorem nextMemWf_execGateFiring (router : Nat) (slot : Nat) (s : State) (h : s.memWf) : NextMemWf (execGateFiring router slot s) := by
  unfold execGateFiring
  dsimp only
  repeat' split
  all_goals exact nextMemWf_next (by grind [stored_fired, stored_postUnless, memWf_congr])

theorem nextMemWf_execFilterFiring (router : Nat) (slot : Nat) (s : State) (h : s.memWf) :
    NextMemWf (execFilterFiring router slot s) := by
  unfold execFilterFiring
  dsimp only
  repeat' split
  all_goals exact nextMemWf_next (by grind [stored_fired, stored_postIf, stored_postUnless, memWf_congr])

theorem nextMemWf_execOperatorMarkerFiring (router : Nat) (slot : Nat) (s : State) (h : s.memWf) :
    NextMemWf (execOperatorMarkerFiring router slot s) := by
  unfold execOperatorMarkerFiring
  dsimp only
  repeat' split
  all_goals exact nextMemWf_next (by grind [stored_fired, memWf_congr])

theorem nextMemWf_execOperatorRealignDiscard (router : Nat) (slot : Nat) (s : State) (h : s.memWf) :
    NextMemWf (execOperatorRealignDiscard router slot s) := by
  unfold execOperatorRealignDiscard
  dsimp only
  repeat' split
  all_goals exact nextMemWf_next (by grind [stored_postIf, stored_setOpSlot, stored_touch, stored_foldl, memWf_congr])

theorem nextMemWf_execCarryFiring (router : Nat) (slot : Nat) (s : State) (h : s.memWf) : NextMemWf (execCarryFiring router slot s) := by
  unfold execCarryFiring
  dsimp only
  repeat' split
  all_goals exact nextMemWf_next (by grind [stored_fired, stored_postIf, stored_waitDiscard, memWf_congr])

theorem nextMemWf_execIrepFiring (router : Nat) (slot : Nat) (s : State) (h : s.memWf) : NextMemWf (execIrepFiring router slot s) := by
  unfold execIrepFiring
  dsimp only
  repeat' split
  all_goals exact nextMemWf_next (by grind [stored_clearLatch, stored_fired, stored_postIf, stored_waitDiscard, memWf_congr])

theorem nextMemWf_execLoopgenLoad (router : Nat) (slot : Nat) (s : State) (h : s.memWf) : NextMemWf (execLoopgenLoad router slot s) := by
  unfold execLoopgenLoad
  dsimp only
  repeat' split
  all_goals exact nextMemWf_next (by grind [stored_fired, memWf_congr])

theorem nextMemWf_execLoopgenEmit (router : Nat) (slot : Nat) (s : State) (h : s.memWf) : NextMemWf (execLoopgenEmit router slot s) := by
  unfold execLoopgenEmit
  dsimp only
  repeat' split
  all_goals exact nextMemWf_next (by grind [stored_fired, memWf_congr])

theorem nextMemWf_execSinkFiring (router : Nat) (slot : Nat) (s : State) (h : s.memWf) : NextMemWf (execSinkFiring router slot s) := by
  unfold execSinkFiring
  dsimp only
  repeat' split
  all_goals exact nextMemWf_next (by grind [stored_fired, stored_postIf, memWf_congr])

theorem nextMemWf_execMcutPass (router : Nat) (slot : Nat) (s : State) (h : s.memWf) : NextMemWf (execMcutPass router slot s) := by
  unfold execMcutPass
  dsimp only
  repeat' split
  all_goals exact nextMemWf_next (by grind [stored_fired, memWf_congr])

/-! ## Graph ports -/

theorem nextMemWf_execGraphPortAccept (comet : Nat) (port : Nat) (s : State) (h : s.memWf) :
    NextMemWf (execGraphPortAccept comet port s) := by
  unfold execGraphPortAccept
  dsimp only
  repeat' split
  all_goals exact nextMemWf_next (by grind [stored_popPort, stored_postPoison, stored_pushReq, stored_setCometPort, stored_touchPort,
    memWf_congr])

theorem nextMemWf_execCometAccess (comet : Nat) (port : Nat) (index : Nat) (s : State) (h : s.memWf) :
    NextMemWf (execCometAccess comet port index s) := by
  unfold execCometAccess
  dsimp only
  repeat' split
  all_goals exact nextMemWf_next (by grind [memWf_graphAccess, stored_touchPort, memWf_congr])

theorem nextMemWf_execGraphPortResult (comet : Nat) (port : Nat) (s : State) (h : s.memWf) :
    NextMemWf (execGraphPortResult comet port s) := by
  unfold execGraphPortResult
  dsimp only
  repeat' split
  all_goals exact nextMemWf_next (by grind [stored_popPort, stored_portEmit, stored_setCometPort, stored_touchPort, memWf_congr])

/-! ## Stream and fibre registers -/

theorem nextMemWf_execSopen (w : Fields) (s : State) (h : s.memWf) : NextMemWf (execSopen w s) :=
  nextMemWf_runInstr_stored h _ _ fun i => by
    dsimp only
    repeat' split
    all_goals simp only [Done.state_done, stored_illegal, stored_taintRec, stored_setStream]
    all_goals grind [stored_descriptor, stored_inTurn]

theorem nextMemWf_execSadv (w : Fields) (s : State) (h : s.memWf) : NextMemWf (execSadv w s) :=
  nextMemWf_runInstr_stored h _ _ fun _ => stored_advanceStream ..
theorem nextMemWf_execFadv (w : Fields) (s : State) (h : s.memWf) : NextMemWf (execFadv w s) :=
  nextMemWf_runInstr_stored h _ _ fun _ => stored_advanceStream ..
theorem nextMemWf_execStend (w : Fields) (s : State) (h : s.memWf) : NextMemWf (execStend w s) :=
  nextMemWf_runInstr_stored h _ _ fun _ => stored_endStream ..
theorem nextMemWf_execFtend (w : Fields) (s : State) (h : s.memWf) : NextMemWf (execFtend w s) :=
  nextMemWf_runInstr_stored h _ _ fun _ => stored_endStream ..
theorem nextMemWf_execSclose (w : Fields) (s : State) (h : s.memWf) : NextMemWf (execSclose w s) :=
  nextMemWf_runInstr_stored h _ _ fun _ => stored_closeStream ..
theorem nextMemWf_execFclose (w : Fields) (s : State) (h : s.memWf) : NextMemWf (execFclose w s) :=
  nextMemWf_runInstr_stored h _ _ fun _ => stored_closeStream ..

theorem nextMemWf_execSread (w : Fields) (s : State) (h : s.memWf) : NextMemWf (execSread w s) :=
  nextMemWf_runInstr_stored h _ _ fun i => by
    dsimp only
    repeat' split
    all_goals simp only [Done.state_done, Done.state_hold, stored_illegal, stored_putD, stored_taintRec, stored_inTurn]

theorem nextMemWf_execFopen (w : Fields) (s : State) (h : s.memWf) : NextMemWf (execFopen w s) :=
  nextMemWf_runInstr_stored h _ _ fun i => by
    dsimp only
    repeat' split
    all_goals simp only [Done.state_done, Done.state_hold, stored_fopenStop, stored_illegal, stored_taintRec, stored_setStream,
      stored_unpark]
    all_goals grind [stored_fopenStop, stored_fibreTensor, stored_readPointer, stored_unpark, stored_inTurn]

theorem nextMemWf_execFisect (w : Fields) (s : State) (h : s.memWf) : NextMemWf (execFisect w s) :=
  nextMemWf_runInstr_stored h _ _ fun _ => stored_intersect ..
theorem nextMemWf_execFisectc (w : Fields) (s : State) (h : s.memWf) : NextMemWf (execFisectc w s) :=
  nextMemWf_runInstr_stored h _ _ fun _ => stored_intersect ..

theorem nextMemWf_execStreamFetch (core : Nat) (reg : Nat) (half : Nat) (s : State) (h : s.memWf) :
    NextMemWf (execStreamFetch core reg half s) := by
  unfold execStreamFetch
  dsimp only
  repeat' split
  all_goals exact nextMemWf_next (by grind [stored_fetchLine, stored_touch, memWf_congr])

theorem nextMemWf_execStreamFetchReturn (core : Nat) (reg : Nat) (half : Nat) (line : Nat) (s : State) (h : s.memWf) :
    NextMemWf (execStreamFetchReturn core reg half line s) := by
  unfold execStreamFetchReturn
  dsimp only
  repeat' split
  all_goals exact nextMemWf_next (by grind [stored_failLine, stored_fillTile, stored_setStream, stored_takePacket, stored_touch,
    memWf_congr])

/-! ## Comet commands -/

theorem nextMemWf_execCometCommandPerform (core : Nat) (index : Nat) (s : State) (h : s.memWf) :
    NextMemWf (execCometCommandPerform core index s) := by
  unfold execCometCommandPerform
  repeat' split
  all_goals exact nextMemWf_next (by grind [stored_ackFine, memWf_gatherResponse, memWf_performCmd, stored_touch, memWf_translateAt,
    memWf_congr])

theorem nextMemWf_execGatherUnitServe (stack : Nat) (s : State) (h : s.memWf) : NextMemWf (execGatherUnitServe stack s) := by
  unfold execGatherUnitServe
  dsimp only
  repeat' split
  all_goals exact nextMemWf_next (by grind [stored_acceptGather, stored_readPiece, stored_replyGather, stored_setGatherQ, memWf_congr])

theorem nextMemWf_execCpy (w : Fields) (s : State) (h : s.memWf) : NextMemWf (execCpy w s) :=
  nextMemWf_runInstr_stored h _ _ fun i => by grind [stored_enqueue, stored_illegal]
theorem nextMemWf_execGath (w : Fields) (s : State) (h : s.memWf) : NextMemWf (execGath w s) :=
  nextMemWf_runInstr_stored h _ _ fun i => by grind [stored_enqueue, stored_illegal]
theorem nextMemWf_execScat (w : Fields) (s : State) (h : s.memWf) : NextMemWf (execScat w s) :=
  nextMemWf_runInstr_stored h _ _ fun i => by grind [stored_enqueue, stored_illegal]
theorem nextMemWf_execFgrd (w : Fields) (s : State) (h : s.memWf) : NextMemWf (execFgrd w s) :=
  nextMemWf_runInstr_stored h _ _ fun _ => stored_blockCmd ..
theorem nextMemWf_execFgwr (w : Fields) (s : State) (h : s.memWf) : NextMemWf (execFgwr w s) :=
  nextMemWf_runInstr_stored h _ _ fun _ => stored_enqueue ..
theorem nextMemWf_execXchg (w : Fields) (s : State) (h : s.memWf) : NextMemWf (execXchg w s) :=
  nextMemWf_runInstr_stored h _ _ fun i => by grind [stored_enqueue, stored_illegal]
theorem nextMemWf_execXchgRaw (w : Fields) (s : State) (h : s.memWf) : NextMemWf (execXchgRaw w s) :=
  nextMemWf_runInstr_stored h _ _ fun i => by grind [stored_enqueue, stored_illegal]

theorem nextMemWf_execCwait (w : Fields) (s : State) (h : s.memWf) : NextMemWf (execCwait w s) :=
  nextMemWf_runInstr_stored h _ _ fun i => by
    dsimp only
    repeat' split
    all_goals simp only [Done.state_done, Done.state_hold, stored_illegal, stored_putD, stored_setCc, stored_setTask]

theorem nextMemWf_execPref (w : Fields) (s : State) (h : s.memWf) : NextMemWf (execPref w s) :=
  nextMemWf_runInstr_stored h _ _ fun i => by grind [stored_enqueue, stored_illegal]

/-! ## Kiln instructions and operand-memory slots -/

theorem nextMemWf_execTclaim (w : Fields) (s : State) (h : s.memWf) : NextMemWf (execTclaim w s) :=
  nextMemWf_runInstr_stored h _ _ fun i => by
    dsimp only
    repeat' split
    all_goals simp only [Done.state_done, stored_illegal, stored_putD, stored_foldUp fun s k => stored_setKslot ..]

theorem nextMemWf_execTrel (w : Fields) (s : State) (h : s.memWf) : NextMemWf (execTrel w s) :=
  nextMemWf_runInstr_stored h _ _ fun i => by
    dsimp only
    repeat' split
    on_goal 4 => exact stored_foldUp (fun s k => stored_setKslot ..) _ _
    all_goals simp only [stored_illegal, stored_protect]

theorem nextMemWf_execTfill (w : Fields) (s : State) (h : s.memWf) : NextMemWf (execTfill w s) :=
  nextMemWf_runInstr_stored h _ _ fun i => by
    dsimp only
    repeat' split
    all_goals simp only [Done.state_done, Done.state_hold, stored_illegal, stored_protect, stored_fillFmt, stored_setKslot]

theorem nextMemWf_execTtask (w : Fields) (s : State) (h : s.memWf) : NextMemWf (execTtask w s) :=
  nextMemWf_runInstr_stored h _ _ fun i => by
    split <;> simp only [Done.state_done, Done.state_hold, stored_enqueueRecord]

theorem nextMemWf_execTwait (w : Fields) (s : State) (h : s.memWf) : NextMemWf (execTwait w s) :=
  nextMemWf_runInstr_stored h _ _ fun i => by
    dsimp only
    repeat' split
    all_goals simp only [Done.state_done, Done.state_hold, stored_illegal, stored_putD, stored_taintRec]

theorem nextMemWf_execTdep (w : Fields) (s : State) (h : s.memWf) : NextMemWf (execTdep w s) :=
  nextMemWf_runInstr_stored h _ _ fun _ => stored_tdep ..
theorem nextMemWf_execTdepAdd (w : Fields) (s : State) (h : s.memWf) : NextMemWf (execTdepAdd w s) :=
  nextMemWf_runInstr_stored h _ _ fun _ => stored_tdep ..
theorem nextMemWf_execTstat (w : Fields) (s : State) (h : s.memWf) : NextMemWf (execTstat w s) :=
  nextMemWf_runInstr_stored h _ _ fun _ => stored_putD ..

theorem nextMemWf_execOvfcfg (w : Fields) (s : State) (h : s.memWf) : NextMemWf (execOvfcfg w s) :=
  nextMemWf_runInstr_stored h _ _ fun i => by
    dsimp only
    repeat' split
    all_goals simp only [Done.state_done, stored_illegal, stored_setLimitsOf]

theorem nextMemWf_execTfillSourceCheck (cluster : Nat) (slot : Nat) (s : State) (h : s.memWf) :
    NextMemWf (execTfillSourceCheck cluster slot s) := by
  unfold execTfillSourceCheck
  dsimp only
  repeat' split
  all_goals exact nextMemWf_next (by grind [stored_descriptor, stored_failFill, stored_setKslot, memWf_congr])

theorem nextMemWf_execTfillComplete (cluster : Nat) (slot : Nat) (s : State) (h : s.memWf) :
    NextMemWf (execTfillComplete cluster slot s) := by
  unfold execTfillComplete
  dsimp only
  repeat' split
  all_goals exact nextMemWf_next (by grind [memWf_runFill, stored_touch, memWf_congr])

/-! ## Kilns -/

theorem nextMemWf_execKilnSubtileIssue (cluster : Nat) (s : State) (h : s.memWf) : NextMemWf (execKilnSubtileIssue cluster s) := by
  unfold execKilnSubtileIssue
  dsimp only
  repeat' split
  all_goals exact nextMemWf_next (by grind [stored_putRec, stored_setKiln, stored_touch, memWf_congr])

theorem nextMemWf_execKilnRecordFailReady (cluster : Nat) (s : State) (h : s.memWf) : NextMemWf (execKilnRecordFailReady cluster s) := by
  unfold execKilnRecordFailReady
  dsimp only
  repeat' split
  all_goals exact nextMemWf_next (by grind [stored_putRec, memWf_congr])

theorem nextMemWf_execKilnSubtileStart (kiln : Nat) (s : State) (h : s.memWf) : NextMemWf (execKilnSubtileStart kiln s) := by
  unfold execKilnSubtileStart
  repeat' split
  all_goals exact nextMemWf_next (by grind [stored_failSub, memWf_readAcc, stored_setKiln, memWf_congr])

theorem nextMemWf_execKilnStep (kiln : Nat) (s : State) (h : s.memWf) : NextMemWf (execKilnStep kiln s) := by
  unfold execKilnStep
  dsimp only
  repeat' split
  all_goals exact nextMemWf_next (by grind [stored_failSub, stored_setKiln, stored_touch, memWf_congr])

theorem nextMemWf_execKilnSpillEnd (kiln : Nat) (s : State) (h : s.memWf) : NextMemWf (execKilnSpillEnd kiln s) := by
  unfold execKilnSpillEnd
  repeat' split
  all_goals exact nextMemWf_next (by grind [stored_failSub, memWf_intRows, stored_setKiln, stored_setKstat, stored_touch, memWf_congr])

theorem nextMemWf_execKilnDrain (kiln : Nat) (s : State) (h : s.memWf) : NextMemWf (execKilnDrain kiln s) := by
  unfold execKilnDrain
  repeat' split
  all_goals exact nextMemWf_next (by grind [stored_failSub, memWf_floatRows, stored_freeCopies, memWf_intRows, memWf_mergeAmax,
    stored_setKiln, stored_touch, stored_updRec, memWf_congr])

theorem nextMemWf_execKilnRecordComplete (cluster : Nat) (index : Nat) (s : State) (h : s.memWf) :
    NextMemWf (execKilnRecordComplete cluster index s) := by
  unfold execKilnRecordComplete
  repeat' split
  all_goals exact nextMemWf_next (by grind [stored_postRecord, stored_setKctr, stored_setKport, stored_setKrecs, stored_touch,
    stored_unpin, memWf_congr])

theorem nextMemWf_execKilnSubtileMigrate (cluster : Nat) (s : State) (h : s.memWf) : NextMemWf (execKilnSubtileMigrate cluster s) := by
  unfold execKilnSubtileMigrate
  dsimp only
  repeat' split
  all_goals exact nextMemWf_next (by grind [stored_copySlot, stored_noteReady, stored_putRec, stored_setKiln, stored_setKstat,
    stored_touch, memWf_foldl, memWf_congr])

/-! ## Regions of a dispatch -/

theorem nextMemWf_execMcutGatingRequest (router : Nat) (slot : Nat) (s : State) (h : s.memWf) :
    NextMemWf (execMcutGatingRequest router slot s) := by
  unfold execMcutGatingRequest
  repeat' split
  all_goals exact nextMemWf_next (by grind [stored_setOpSlot, memWf_congr])

theorem nextMemWf_execMcutRelease (router : Nat) (slot : Nat) (s : State) (h : s.memWf) : NextMemWf (execMcutRelease router slot s) := by
  unfold execMcutRelease
  repeat' split
  all_goals exact nextMemWf_next (by grind [stored_setOpSlot, memWf_congr])

theorem nextMemWf_execAgenGatingRequest (agen : Nat) (s : State) (h : s.memWf) : NextMemWf (execAgenGatingRequest agen s) := by
  unfold execAgenGatingRequest
  repeat' split
  all_goals exact nextMemWf_next (by grind [stored_setAgen, memWf_congr])

/-! ## Loaders -/

theorem nextMemWf_execConfigCacheLookup (cluster : Nat) (s : State) (h : s.memWf) : NextMemWf (execConfigCacheLookup cluster s) := by
  unfold execConfigCacheLookup
  dsimp only
  repeat' split
  all_goals exact nextMemWf_next (by grind [stored_pinImage, stored_readFrame, stored_setLoader, memWf_congr])

theorem memWf_getD_acceptLoad {s : State} (h : s.memWf) (cl : Nat) (p : Part) (d : Disp) (l : Loader) (body : List Word) (e0 e1 : Word) :
    ((s.acceptLoad cl p d l body e0 e1).getD s).memWf := by
  cases ht : s.acceptLoad cl p d l body e0 e1 with
  | none => exact h
  | some t => exact (memWf_congr (stored_acceptLoad ht)).2 h

theorem nextMemWf_execLoaderFrameRead (cluster : Nat) (s : State) (h : s.memWf) : NextMemWf (execLoaderFrameRead cluster s) := by
  have hn := stored_nextFrame s cluster (s.loader cluster)
  unfold execLoaderFrameRead
  dsimp only
  split
  · exact nextMemWf_next h
  split
  · exact nextMemWf_next h
  split
  · exact nextMemWf_next h
  split <;> rename_i he <;> rw [he] at hn <;> have hs := (memWf_congr hn).2 h
  · exact nextMemWf_of_stored hs ((stored_reportLoad ..).trans (stored_postKey ..))
  split
  · exact nextMemWf_of_stored hs (stored_reportLoad ..)
  split
  · exact nextMemWf_of_stored hs (stored_reportLoad ..)
  split
  · split
    · exact nextMemWf_next (memWf_getD_acceptLoad hs ..)
    · exact nextMemWf_of_stored hs (stored_reportLoad ..)
  split
  · exact nextMemWf_of_stored hs (stored_reportLoad ..)
  · exact nextMemWf_of_stored hs (stored_setLoader ..)

/-! ## Lost dies and links -/

theorem nextMemWf_execMeshCrcReplay (router : Nat) (dir : Nat) (ok : Bool) (s : State) (h : s.memWf) :
    NextMemWf (execMeshCrcReplay router dir ok s) := by
  unfold execMeshCrcReplay
  dsimp only
  repeat' split
  all_goals exact nextMemWf_next (by grind [stored_meshDown, stored_setMeshOut, memWf_congr])

/-! ## Saving, restoring and committing a part -/

theorem nextMemWf_execSaveAreaAllocate (s : State) (h : s.memWf) : NextMemWf (execSaveAreaAllocate s) := by
  unfold execSaveAreaAllocate
  dsimp only
  repeat' split
  all_goals exact nextMemWf_next (by grind [stored_directory, stored_saveFails, stored_setPart, memWf_writeEntry, memWf_congr, stored_mk])

theorem nextMemWf_execSaveRecordWrite (die : Nat) (dom : Nat) (disp : Nat) (s : State) (h : s.memWf) :
    NextMemWf (execSaveRecordWrite die dom disp s) := by
  unfold execSaveRecordWrite
  repeat' split
  all_goals exact nextMemWf_next (by grind [stored_discardStaged, stored_post, stored_setPart, memWf_writeRecord, memWf_congr, stored_mk])

theorem nextMemWf_execCommitWrite (die : Nat) (dom : Nat) (disp : Nat) (s : State) (h : s.memWf) :
    NextMemWf (execCommitWrite die dom disp s) := by
  unfold execCommitWrite
  dsimp only
  repeat' split
  all_goals exact nextMemWf_next (by grind [memWf_commitLines, stored_discardStaged, stored_post, stored_setPart, memWf_writeStatus,
    memWf_congr])

/-! ## Dispatchers and the hub -/

theorem nextMemWf_execLaunchNoticeApply (die : Nat) (s : State) (h : s.memWf) : NextMemWf (execLaunchNoticeApply die s) :=
  nextMemWf_next (by grind [memWf_applyIf])

theorem nextMemWf_execTickNoticeApply (die : Nat) (s : State) (h : s.memWf) : NextMemWf (execTickNoticeApply die s) := by
  unfold execTickNoticeApply
  dsimp only
  repeat' split
  all_goals exact nextMemWf_next (by grind [memWf_applyTo, memWf_catchUp, stored_post, memWf_congr])

theorem nextMemWf_execLoadedNoticeApply (die : Nat) (s : State) (h : s.memWf) : NextMemWf (execLoadedNoticeApply die s) :=
  nextMemWf_next (by grind [memWf_applyIf])
theorem nextMemWf_execEndedNoticeApply (die : Nat) (s : State) (h : s.memWf) : NextMemWf (execEndedNoticeApply die s) :=
  nextMemWf_next (by grind [memWf_applyIf])
theorem nextMemWf_execSavedNoticeApply (die : Nat) (s : State) (h : s.memWf) : NextMemWf (execSavedNoticeApply die s) :=
  nextMemWf_next (by grind [memWf_applyIf])
theorem nextMemWf_execCommittedNoticeApply (die : Nat) (s : State) (h : s.memWf) : NextMemWf (execCommittedNoticeApply die s) :=
  nextMemWf_next (by grind [memWf_applyIf])
theorem nextMemWf_execErrorNoticeApply (die : Nat) (s : State) (h : s.memWf) : NextMemWf (execErrorNoticeApply die s) :=
  nextMemWf_next (by grind [memWf_applyIf])
theorem nextMemWf_execPreemptNoticeApply (die : Nat) (s : State) (h : s.memWf) : NextMemWf (execPreemptNoticeApply die s) :=
  nextMemWf_next (by grind [memWf_applyIf])
theorem nextMemWf_execResumeNoticeApply (die : Nat) (s : State) (h : s.memWf) : NextMemWf (execResumeNoticeApply die s) :=
  nextMemWf_next (by grind [memWf_applyIf])
theorem nextMemWf_execKillNoticeApply (die : Nat) (s : State) (h : s.memWf) : NextMemWf (execKillNoticeApply die s) :=
  nextMemWf_next (by grind [memWf_applyIf])
theorem nextMemWf_execWatchdogNoticeApply (die : Nat) (s : State) (h : s.memWf) : NextMemWf (execWatchdogNoticeApply die s) :=
  nextMemWf_next (by grind [memWf_applyIf])
theorem nextMemWf_execCsrNoticeApply (die : Nat) (s : State) (h : s.memWf) : NextMemWf (execCsrNoticeApply die s) :=
  nextMemWf_next (by grind [memWf_applyIf])
theorem nextMemWf_execPhaseNoticeApply (die : Nat) (s : State) (h : s.memWf) : NextMemWf (execPhaseNoticeApply die s) :=
  nextMemWf_next (by grind [memWf_applyIf])
theorem nextMemWf_execHistNoticeApply (die : Nat) (s : State) (h : s.memWf) : NextMemWf (execHistNoticeApply die s) :=
  nextMemWf_next (by grind [memWf_applyIf])
theorem nextMemWf_execDieLossApply (die : Nat) (s : State) (h : s.memWf) : NextMemWf (execDieLossApply die s) :=
  nextMemWf_next (by grind [memWf_applyIf])
theorem nextMemWf_execLinkSplitApply (die : Nat) (s : State) (h : s.memWf) : NextMemWf (execLinkSplitApply die s) :=
  nextMemWf_next (by grind [memWf_applyIf])
theorem nextMemWf_execQuiescenceSweep (die : Nat) (s : State) (h : s.memWf) : NextMemWf (execQuiescenceSweep die s) := by
  grind [execQuiescenceSweep, nextMemWf_next, stored_setDieOf, stored_sweepPart, memWf_foldl, memWf_congr]

theorem nextMemWf_execDieHeartbeat (die : Nat) (s : State) (h : s.memWf) : NextMemWf (execDieHeartbeat die s) := by
  unfold execDieHeartbeat
  dsimp only
  repeat' split
  all_goals exact nextMemWf_next (by grind [stored_setDieOf, memWf_congr])

theorem nextMemWf_execHeartbeatMissing (die : Nat) (s : State) (h : s.memWf) : NextMemWf (execHeartbeatMissing die s) := by
  unfold execHeartbeatMissing
  repeat' split
  all_goals exact nextMemWf_next (by grind [stored_postLoss, memWf_congr])

theorem nextMemWf_execDeadlockTimeout (die : Nat) (dom : Nat) (disp : Nat) (s : State) (h : s.memWf) :
    NextMemWf (execDeadlockTimeout die dom disp s) := by
  unfold execDeadlockTimeout
  repeat' split
  all_goals exact nextMemWf_next (by grind [stored_post, stored_setPart, memWf_congr])

theorem nextMemWf_execWatchdogExpiry (die : Nat) (dom : Nat) (s : State) (h : s.memWf) : NextMemWf (execWatchdogExpiry die dom s) := by
  unfold execWatchdogExpiry
  dsimp only
  repeat' split
  all_goals exact nextMemWf_next (by grind [stored_post, memWf_congr])

theorem nextMemWf_execHubTick (s : State) (h : s.memWf) : NextMemWf (execHubTick s) := by
  unfold execHubTick
  dsimp only
  repeat' split
  all_goals exact nextMemWf_next (by grind [stored_post, memWf_congr])

theorem nextMemWf_execKillDrainEnd (die : Nat) (dom : Nat) (disp : Nat) (s : State) (h : s.memWf) :
    NextMemWf (execKillDrainEnd die dom disp s) := by
  unfold execKillDrainEnd
  repeat' split
  all_goals exact nextMemWf_next (by grind [stored_post, stored_queueTrap, stored_resetRegion, memWf_foldl, memWf_congr])

theorem nextMemWf_execDigestNoticeApply (s : State) (h : s.memWf) : NextMemWf (execDigestNoticeApply s) := by
  unfold execDigestNoticeApply
  dsimp only
  repeat' split
  all_goals exact nextMemWf_next (by grind [stored_dispEvent, stored_postLoss, memWf_foldl, memWf_congr, stored_mk])

theorem nextMemWf_execExchangeStep (dom : Nat) (s : State) (h : s.memWf) : NextMemWf (execExchangeStep dom s) := by
  unfold execExchangeStep
  dsimp only
  repeat' split
  all_goals exact nextMemWf_next (by grind [stored_exchangeEnd, stored_runHeld, stored_sendBody, memWf_congr, stored_mk])

theorem nextMemWf_execWheelHistogramRead (dom : Nat) (disp : Nat) (s : State) (h : s.memWf) :
    NextMemWf (execWheelHistogramRead dom disp s) := by
  unfold execWheelHistogramRead
  repeat' split
  all_goals exact nextMemWf_next (by grind [stored_post, stored_readHist, memWf_congr])

/-! ## Trap queues -/

theorem memWf_takeWhileEmpty {s : State} (t : Trap) (ts : List Trap) (h : s.memWf) :
    (execTrapQueueWrite.takeWhileEmpty s t ts).memWf := by
  unfold execTrapQueueWrite.takeWhileEmpty
  dsimp only
  split
  · exact memWf_writeTrap _ _ h
  split
  · split <;> exact h
  split
  · exact (memWf_congr (stored_setFunc ..)).2 h
  · exact h

theorem nextMemWf_execTrapQueueWrite (s : State) (h : s.memWf) : NextMemWf (execTrapQueueWrite s) := by
  have ha := (memWf_congr (stored_admitTraps s)).2 h
  unfold execTrapQueueWrite
  dsimp only
  generalize s.admitTraps = t at ha
  split
  · split
    · refine nextMemWf_next ?_
      split
      · exact memWf_addHeldLost _ (memWf_writeTrap _ _ ha)
      · exact memWf_writeTrap _ _ ha
    · split
      · exact nextMemWf_next ha
      · exact nextMemWf_next (memWf_takeWhileEmpty _ _ ha)
  · split
    · exact nextMemWf_next ha
    · exact nextMemWf_next (memWf_takeWhileEmpty _ _ ha)

theorem nextMemWf_execTagUe (code : Nat) (unit : Nat) (s : State) (h : s.memWf) : NextMemWf (execTagUe code unit s) := by
  unfold execTagUe
  repeat' split
  all_goals exact nextMemWf_next (by grind [memWf_discardEntries, stored_logEvent, stored_tagResponse, memWf_foldl, memWf_congr,
    stored_mk])

/-! ## System instructions -/

theorem nextMemWf_execCsrr (w : Fields) (s : State) (h : s.memWf) : NextMemWf (execCsrr w s) :=
  nextMemWf_runInstr_stored h _ _ fun _ => stored_putD ..

theorem nextMemWf_execCsrw (w : Fields) (s : State) (h : s.memWf) : NextMemWf (execCsrw w s) :=
  nextMemWf_runInstr_stored h _ _ fun i => by
    dsimp only
    repeat' split
    all_goals simp only [Done.state_done, Done.state_hold, stored_illegal, stored_writeCsr, stored_post, stored_setTask]

theorem nextMemWf_execLaunch (w : Fields) (s : State) (h : s.memWf) : NextMemWf (execLaunch w s) :=
  nextMemWf_runInstr_stored h _ _ fun i => by
    dsimp only
    repeat' split
    all_goals simp only [Done.state_done, Done.state_hold, stored_illegal, stored_post, stored_readPacket, stored_setPredOf]

theorem nextMemWf_execEvlog (w : Fields) (s : State) (h : s.memWf) : NextMemWf (execEvlog w s) :=
  nextMemWf_runInstr_stored h _ _ fun _ => stored_logEvent ..

theorem nextMemWf_execWdog (w : Fields) (s : State) (h : s.memWf) : NextMemWf (execWdog w s) :=
  nextMemWf_runInstr_stored h _ _ fun i => by
    dsimp only
    repeat' split
    all_goals simp only [Done.state_done, stored_illegal, stored_setCtx]

theorem nextMemWf_execMext (w : Fields) (s : State) (h : s.memWf) : NextMemWf (execMext w s) :=
  nextMemWf_runInstr_stored h _ _ fun _ => stored_askSaggar ..
theorem nextMemWf_execAttest (w : Fields) (s : State) (h : s.memWf) : NextMemWf (execAttest w s) :=
  nextMemWf_runInstr_stored h _ _ fun _ => stored_sagRequest ..
theorem nextMemWf_execSagvfyUnlock (w : Fields) (s : State) (h : s.memWf) : NextMemWf (execSagvfyUnlock w s) :=
  nextMemWf_runInstr_stored h _ _ fun _ => stored_sagRequest ..
theorem nextMemWf_execSagvfyManifest (w : Fields) (s : State) (h : s.memWf) : NextMemWf (execSagvfyManifest w s) :=
  nextMemWf_runInstr_stored h _ _ fun _ => stored_sagRequest ..
theorem nextMemWf_execFuserd (w : Fields) (s : State) (h : s.memWf) : NextMemWf (execFuserd w s) :=
  nextMemWf_runInstr_stored h _ _ fun _ => stored_putD ..

theorem nextMemWf_execKeywipe (w : Fields) (s : State) (h : s.memWf) : NextMemWf (execKeywipe w s) :=
  nextMemWf_runInstr_stored h _ _ fun i => by
    split <;> simp only [Done.state_done, stored_illegal, stored_loadKey]

theorem nextMemWf_execKeywipeAll (w : Fields) (s : State) (h : s.memWf) : NextMemWf (execKeywipeAll w s) :=
  nextMemWf_runInstr_stored h _ _ fun i => by
    split <;> rfl

theorem nextMemWf_execDbgopen (w : Fields) (s : State) (h : s.memWf) : NextMemWf (execDbgopen w s) :=
  nextMemWf_runInstr h _ _ fun i hi => by
    dsimp only
    split
    · exact (memWf_congr (stored_setPredOf ..)).2 hi
    split
    · exact (memWf_congr (stored_setPredOf ..)).2 hi
    · refine (memWf_congr ((stored_setPredOf ..).trans (stored_logEvent ..))).2 (memWf_followDebug _ ?_)
      rw [memWf_congr (stored_loadKey ..), memWf_congr (stored_mk ..), memWf_congr (stored_extend ..)]
      exact hi

/-! ## The host's side -/

theorem nextMemWf_execLaunchrWrite (func : Nat) (value : BitVec 64) (s : State) (h : s.memWf) :
    NextMemWf (execLaunchrWrite func value s) := by
  unfold execLaunchrWrite
  repeat' split
  all_goals exact nextMemWf_next (by grind [stored_dropLaunch, stored_postLaunch, stored_seen, memWf_congr])

theorem nextMemWf_execLstatClear (func : Nat) (value : BitVec 64) (s : State) (h : s.memWf) : NextMemWf (execLstatClear func value s) :=
  nextMemWf_hostAccess h _ fun t ht => by grind [stored_setFunc, memWf_congr]

theorem nextMemWf_execMbCreate (func : Nat) (s : State) (h : s.memWf) : NextMemWf (execMbCreate func s) :=
  nextMemWf_doorbell h _ _ fun dom t => by grind [stored_freshKey, stored_mbEnd, stored_mbFail, stored_renewContext, stored_setCst,
    stored_setCtx, stored_owned]

theorem nextMemWf_execMbDestroy (func : Nat) (s : State) (h : s.memWf) : NextMemWf (execMbDestroy func s) :=
  nextMemWf_terminateCmd h _ _ fun dom t => by grind [stored_dropImages, stored_freeContext, stored_loadKey]
theorem nextMemWf_execMbKill (func : Nat) (s : State) (h : s.memWf) : NextMemWf (execMbKill func s) :=
  nextMemWf_terminateCmd h _ _ fun dom t => by grind 
theorem nextMemWf_execMbPreempt (func : Nat) (s : State) (h : s.memWf) : NextMemWf (execMbPreempt func s) :=
  nextMemWf_doorbell h _ _ fun dom t => by grind [stored_mbEnd, stored_post, stored_owned]
theorem nextMemWf_execMbResume (func : Nat) (s : State) (h : s.memWf) : NextMemWf (execMbResume func s) :=
  nextMemWf_doorbell h _ _ fun dom t => by grind [stored_mbEnd, stored_post, stored_owned]
theorem nextMemWf_execMbAssign (func : Nat) (s : State) (h : s.memWf) : NextMemWf (execMbAssign func s) :=
  nextMemWf_doorbell h _ _ fun dom t => by grind [stored_mbEnd, stored_mbFail, stored_setCtx, stored_foldl]
theorem nextMemWf_execMbQueryBootEntry (func : Nat) (s : State) (h : s.memWf) : NextMemWf (execMbQueryBootEntry func s) :=
  nextMemWf_query h _ _ _
theorem nextMemWf_execMbQueryExcluded (func : Nat) (s : State) (h : s.memWf) : NextMemWf (execMbQueryExcluded func s) :=
  nextMemWf_query h _ _ _
theorem nextMemWf_execMbClrboot (func : Nat) (s : State) (h : s.memWf) : NextMemWf (execMbClrboot func s) :=
  nextMemWf_doorbell h _ _ fun dom t => by grind [stored_mbEnd, stored_mbFail, stored_mk]
theorem nextMemWf_execMbSupcfg (func : Nat) (s : State) (h : s.memWf) : NextMemWf (execMbSupcfg func s) :=
  nextMemWf_doorbell h _ _ fun dom t => by grind [stored_mbEnd, stored_mbFail, stored_setCtx]
theorem nextMemWf_execMbDoorbellBusy (func : Nat) (s : State) (h : s.memWf) : NextMemWf (execMbDoorbellBusy func s) :=
  nextMemWf_hostAccess h _ fun t ht => by grind [stored_setFunc, memWf_congr]

theorem nextMemWf_execRegisterPageBadAccess (_func : Nat) (offset : Nat) (size : Nat) (write : Bool) (s : State) (h : s.memWf) :
    NextMemWf (execRegisterPageBadAccess _func offset size write s) := by
  unfold execRegisterPageBadAccess
  repeat' split
  all_goals exact nextMemWf_next (by grind [memWf_congr, stored_mk])

theorem nextMemWf_execRegisterWrite (func : Nat) (offset : Nat) (value : BitVec 64) (s : State) (h : s.memWf) :
    NextMemWf (execRegisterWrite func offset value s) :=
  nextMemWf_hostAccess h _ fun t ht => by
    dsimp only
    repeat' split
    all_goals simp only [memWf_congr (stored_setFunc _ _ _), memWf_congr (stored_mbFail _ _), ht]

theorem nextMemWf_execWindowRead (func : Nat) (offset : Nat) (length : Nat) (s : State) (h : s.memWf) :
    NextMemWf (execWindowRead func offset length s) := by
  unfold execWindowRead
  split
  · exact nextMemWf_next h
  · exact nextMemWf_hostAccess h _ fun t ht => by grind [stored_memRead, stored_openVal, memWf_congr, stored_mk]

theorem nextMemWf_execWindowWrite (func : Nat) (offset : Nat) (bytes : List Byte) (s : State) (h : s.memWf) :
    NextMemWf (execWindowWrite func offset bytes s) := by
  unfold execWindowWrite
  split
  · exact nextMemWf_next h
  · exact nextMemWf_hostAccess h _ fun t ht => by grind [memWf_memStore]

theorem nextMemWf_execFlr (func : Nat) (s : State) (h : s.memWf) : NextMemWf (execFlr func s) := by
  unfold execFlr
  repeat' split
  all_goals exact nextMemWf_next (by grind [stored_flrStep, memWf_congr])

theorem nextMemWf_execLinkLoss (s : State) (h : s.memWf) : NextMemWf (execLinkLoss s) := by
  unfold execLinkLoss
  repeat' split
  all_goals exact nextMemWf_next (by grind [stored_logEvent, memWf_congr, stored_mk])

theorem nextMemWf_execLinkRetrain (s : State) (h : s.memWf) : NextMemWf (execLinkRetrain s) := by
  unfold execLinkRetrain
  repeat' split
  all_goals exact nextMemWf_next (by grind [stored_expireHold, stored_logEvent, stored_release, stored_resignal, memWf_congr, stored_mk])

theorem nextMemWf_execLinkHoldExpiry (s : State) (h : s.memWf) : NextMemWf (execLinkHoldExpiry s) := by
  unfold execLinkHoldExpiry
  repeat' split
  all_goals exact nextMemWf_next (by grind [stored_expireHold, memWf_congr])

theorem nextMemWf_execHotReset (s : State) (h : s.memWf) : NextMemWf (execHotReset s) := by
  unfold execHotReset
  repeat' split
  all_goals exact nextMemWf_next (by grind [stored_expireHold, stored_startFlr, memWf_congr, stored_mk])

theorem nextMemWf_execPldmPowerDown (s : State) (h : s.memWf) : NextMemWf (execPldmPowerDown s) := by
  unfold execPldmPowerDown
  repeat' split
  all_goals exact nextMemWf_next (by grind [memWf_congr, stored_mk])

/-! ## Starts of the module -/

theorem nextMemWf_execColdStart (s : State) (h : s.memWf) : NextMemWf (execColdStart s) := by
  unfold execColdStart
  repeat' split
  all_goals exact nextMemWf_next (by grind [memWf_cooled, memWf_tryStarts])

theorem nextMemWf_execWarmReset (s : State) (h : s.memWf) : NextMemWf (execWarmReset s) :=
  nextMemWf_next (by grind [memWf_warmReset])

theorem nextMemWf_execBootStepTimeout (bootStep : Nat) (unit : Nat) (s : State) (h : s.memWf) :
    NextMemWf (execBootStepTimeout bootStep unit s) :=
  nextMemWf_next (by grind [stored_stepFailed, memWf_warmReset, memWf_congr])

theorem nextMemWf_execSaggarPowerLoss (s : State) (_ : s.memWf) : NextMemWf (execSaggarPowerLoss s) :=
  nextMemWf_next (by grind [memWf_cooled, memWf_congr, stored_mk])

theorem nextMemWf_execThermalThrottle (die : Nat) (s : State) (h : s.memWf) : NextMemWf (execThermalThrottle die s) := by
  unfold execThermalThrottle
  repeat' split
  all_goals exact nextMemWf_next (by grind [stored_heatEvent, stored_setDieOf, memWf_congr])

theorem nextMemWf_execThermalShutdown (_die : Nat) (s : State) (h : s.memWf) : NextMemWf (execThermalShutdown _die s) := by
  unfold execThermalShutdown
  repeat' split
  all_goals exact nextMemWf_next (by grind [stored_heatEvent, memWf_warmReset, memWf_congr])

/-! ## The Saggar -/

theorem nextMemWf_execSaggarAttestServe (s : State) (h : s.memWf) : NextMemWf (execSaggarAttestServe s) :=
  nextMemWf_serveNext h _ fun r t ht => by grind [stored_signedReport, memWf_serveBlock]

theorem nextMemWf_execSaggarVerifyServe (s : State) (h : s.memWf) : NextMemWf (execSaggarVerifyServe s) :=
  nextMemWf_serveNext h _ fun r t ht => by grind [stored_renewNonce, stored_verifyManifest, stored_verifyToken, memWf_serveBlock,
    memWf_congr]

theorem nextMemWf_execSaggarMextServe (s : State) (h : s.memWf) : NextMemWf (execSaggarMextServe s) :=
  nextMemWf_serveNext h _ fun r t ht => by grind [stored_extend, memWf_congr]

theorem nextMemWf_execPldmDiscovery (s : State) (h : s.memWf) : NextMemWf (execPldmDiscovery s) := by
  have h1 := (memWf_congr (stored_openVal s 0x460)).2 h
  have h2 := (memWf_congr (stored_openVal (s.openVal 0x460).2 0x460)).2 h1
  exact nextMemWf_answer h2 _

theorem nextMemWf_execPldmSensorRead (sensor : Nat) (s : State) (h : s.memWf) : NextMemWf (execPldmSensorRead sensor s) := by
  unfold execPldmSensorRead
  split <;> refine nextMemWf_answer ?_ _ <;> exact h

theorem nextMemWf_execPldmFirmwareUpdate (component : Nat) (image : List Byte) (manifest : List Byte) (parity : Nat) (s : State)
    (h : s.memWf) : NextMemWf (execPldmFirmwareUpdate component image manifest parity s) := by
  unfold execPldmFirmwareUpdate
  dsimp only
  repeat' split
  all_goals exact nextMemWf_next (by grind [memWf_congr, stored_mk])

theorem nextMemWf_execBlackBoxRead (ring : Nat) (index : Nat) (s : State) (h : s.memWf) : NextMemWf (execBlackBoxRead ring index s) :=
  nextMemWf_answer h _
theorem nextMemWf_execBootRecordRead (index : Nat) (s : State) (h : s.memWf) : NextMemWf (execBootRecordRead index s) :=
  nextMemWf_answer h _

theorem nextMemWf_execStartCounterWrite (value : BitVec 32) (s : State) (h : s.memWf) : NextMemWf (execStartCounterWrite value s) := by
  unfold execStartCounterWrite
  repeat' split
  all_goals exact nextMemWf_next (by grind [memWf_congr, stored_mk])

theorem nextMemWf_execPeerEpochRead (link : Nat) (s : State) (h : s.memWf) : NextMemWf (execPeerEpochRead link s) := by
  unfold execPeerEpochRead
  split <;> refine nextMemWf_answer ?_ _ <;> exact h

theorem nextMemWf_execSidebandAttest (nonce : BitVec 128) (s : State) (h : s.memWf) : NextMemWf (execSidebandAttest nonce s) := by
  have hn := stored_signedReport s 0 nonce.toNat true
  unfold execSidebandAttest
  split <;> rename_i he <;> rw [he] at hn <;> exact nextMemWf_answer ((memWf_congr hn).2 h) _

theorem nextMemWf_execFabricMapWrite (fabricId : Nat) (moduleId : Nat) (entries : List (BitVec 16)) (s : State) (h : s.memWf) :
    NextMemWf (execFabricMapWrite fabricId moduleId entries s) := by
  unfold execFabricMapWrite
  repeat' split
  all_goals exact nextMemWf_next (by grind [memWf_congr, stored_mk])

theorem nextMemWf_execVendorProvision (s : State) (h : s.memWf) : NextMemWf (execVendorProvision s) := by
  unfold execVendorProvision
  repeat' split
  all_goals exact nextMemWf_next (by grind [stored_advanceLife, memWf_congr, stored_mk])

theorem nextMemWf_execProductionFusing (s : State) (h : s.memWf) : NextMemWf (execProductionFusing s) := by
  unfold execProductionFusing
  repeat' split
  all_goals exact nextMemWf_next (by grind [stored_advanceLife, memWf_congr])

theorem nextMemWf_execRmaToken (token : List Byte) (s : State) (h : s.memWf) : NextMemWf (execRmaToken token s) := by
  unfold execRmaToken
  repeat' split
  all_goals exact nextMemWf_next (by grind [stored_advanceLife, memWf_congr])

/-! ## Bexwen links and remote exchange -/

theorem nextMemWf_execRatom (w : Fields) (s : State) (h : s.memWf) : NextMemWf (execRatom w s) :=
  nextMemWf_runInstr_stored h _ _ fun i => by
    split <;> simp only [Done.state_fail, stored_blockCmd]

theorem nextMemWf_execRemoteAtomicResponse (flit : BitVec 512) (s : State) (h : s.memWf) :
    NextMemWf (execRemoteAtomicResponse flit s) := by
  unfold execRemoteAtomicResponse
  dsimp only
  repeat' split
  all_goals exact nextMemWf_next (by grind [stored_atomResponse, memWf_congr])

theorem nextMemWf_execRatomResendTimeout (index : Nat) (s : State) (h : s.memWf) : NextMemWf (execRatomResendTimeout index s) := by
  unfold execRatomResendTimeout
  repeat' split
  all_goals exact nextMemWf_next (by grind [stored_resendAtom, memWf_congr])

theorem nextMemWf_execRemoteAtomicRequest (flit : BitVec 512) (s : State) (h : s.memWf) : NextMemWf (execRemoteAtomicRequest flit s) := by
  unfold execRemoteAtomicRequest
  dsimp only
  repeat' split
  all_goals exact nextMemWf_next (by grind [memWf_atomRequest])

theorem nextMemWf_execRemoteExchangeWrite (smod : Nat) (dom : Nat) (tid : Nat) (place : Nat) (bytes : List Byte) (raw : Bool)
    (form : ExchForm) (s : State) (h : s.memWf) : NextMemWf (execRemoteExchangeWrite smod dom tid place bytes raw form s) := by
  unfold execRemoteExchangeWrite
  repeat' split
  all_goals exact nextMemWf_next (by grind [stored_exchAck, stored_openVal, memWf_remoteWrite, memWf_congr])

theorem nextMemWf_execCtxBody (member : Nat) (dom : Nat) (active : Bool) (s : State) (h : s.memWf) :
    NextMemWf (execCtxBody member dom active s) := nextMemWf_of_stored h (stored_ctxBody ..)
theorem nextMemWf_execPhaseBody (member : Nat) (dom : Nat) (phase : Nat) (s : State) (h : s.memWf) :
    NextMemWf (execPhaseBody member dom phase s) := nextMemWf_of_stored h (stored_phaseBody ..)
theorem nextMemWf_execFarrBody (member : Nat) (dom : Nat) (bar : Nat) (gen : Nat) (s : State) (h : s.memWf) :
    NextMemWf (execFarrBody member dom bar gen s) := nextMemWf_of_stored h (stored_farrBody ..)
theorem nextMemWf_execFexitBody (member : Nat) (dom : Nat) (bar : Nat) (s : State) (h : s.memWf) :
    NextMemWf (execFexitBody member dom bar s) := nextMemWf_of_stored h (stored_fexitBody ..)
theorem nextMemWf_execFbreakBody (member : Nat) (dom : Nat) (bar : Nat) (s : State) (h : s.memWf) :
    NextMemWf (execFbreakBody member dom bar s) := nextMemWf_of_stored h (stored_fbreakBody ..)

theorem nextMemWf_execLinkFrameReceive (link : Nat) (frame : BitVec 576) (s : State) (h : s.memWf) :
    NextMemWf (execLinkFrameReceive link frame s) := by
  unfold execLinkFrameReceive
  dsimp only
  repeat' split
  all_goals exact nextMemWf_next (by grind [stored_setFabLink, stored_takeBody, memWf_takeFlit, memWf_congr])

theorem nextMemWf_execModuleUnreachable (member : Nat) (s : State) (h : s.memWf) : NextMemWf (execModuleUnreachable member s) := by
  unfold execModuleUnreachable
  repeat' split
  all_goals exact nextMemWf_next (by grind [stored_loseModule, memWf_congr])

theorem nextMemWf_execLinkReplay (link : Nat) (ok : Bool) (s : State) (h : s.memWf) : NextMemWf (execLinkReplay link ok s) := by
  unfold execLinkReplay
  dsimp only
  repeat' split
  all_goals exact nextMemWf_next (by grind [stored_bexDown, stored_setFabLink, memWf_congr])

theorem nextMemWf_execReceiverLockLoss (link : Nat) (s : State) (h : s.memWf) : NextMemWf (execReceiverLockLoss link s) := by
  unfold execReceiverLockLoss
  repeat' split
  all_goals exact nextMemWf_next (by grind [stored_bexDown, memWf_congr])

theorem nextMemWf_execBexwenRetrain (link : Nat) (fabricId : Nat) (moduleId : Nat) (epoch : BitVec 32) (rawx : Bool) (s : State)
    (h : s.memWf) : NextMemWf (execBexwenRetrain link fabricId moduleId epoch rawx s) := by
  unfold execBexwenRetrain
  dsimp only
  repeat' split
  all_goals exact nextMemWf_next (by grind [stored_fabAdvance, stored_fabEvent, stored_keepPeer, stored_learnEpoch, stored_rerouteAtoms,
    stored_rerouteExch, stored_sendContexts, stored_sendIdentity, stored_setFabLink, memWf_congr, stored_mk])

/-! ## `RESUME` -/

theorem nextMemWf_execResume (w : Fields) (s : State) (h : s.memWf) : NextMemWf (execResume w s) :=
  nextMemWf_runInstr h _ _ fun i hi => by grind [memWf_resume]
theorem nextMemWf_execResumeFail (w : Fields) (s : State) (h : s.memWf) : NextMemWf (execResumeFail w s) :=
  nextMemWf_runInstr h _ _ fun i hi => by grind [memWf_resume]

/-! ## Firings -/

theorem nextMemWf_execDataFiringStart (pe : Nat) (s : State) (h : s.memWf) : NextMemWf (execDataFiringStart pe s) := by
  unfold execDataFiringStart
  dsimp only
  repeat' split
  all_goals exact nextMemWf_next (by grind [stored_beginData, stored_noteChoice, stored_refresh, memWf_congr])

theorem nextMemWf_execSuspendedResume (pe : Nat) (s : State) (h : s.memWf) : NextMemWf (execSuspendedResume pe s) := by
  unfold execSuspendedResume
  dsimp only
  repeat' split
  all_goals exact nextMemWf_next (by grind [stored_noteChoice, stored_refresh, stored_setTask, memWf_congr])

theorem nextMemWf_execMarkerFiring (pe : Nat) (s : State) (h : s.memWf) : NextMemWf (execMarkerFiring pe s) := by
  unfold execMarkerFiring
  dsimp only
  repeat' split
  all_goals exact nextMemWf_next (by grind [stored_fireMarker, stored_noteChoice, stored_refresh, memWf_congr])

theorem nextMemWf_execRealignStart (pe : Nat) (slot : Nat) (s : State) (h : s.memWf) : NextMemWf (execRealignStart pe slot s) := by
  unfold execRealignStart
  dsimp only
  repeat' split
  all_goals exact nextMemWf_next (by grind [stored_setTask, memWf_congr])

theorem nextMemWf_execRealignDiscard (pe : Nat) (slot : Nat) (port : Nat) (s : State) (h : s.memWf) :
    NextMemWf (execRealignDiscard pe slot port s) := by
  unfold execRealignDiscard
  dsimp only
  repeat' split
  all_goals exact nextMemWf_next (by grind [stored_consume1, stored_corePost, stored_touch, memWf_congr])

theorem nextMemWf_execRealignPoisonEmit (pe : Nat) (slot : Nat) (port : Nat) (s : State) (h : s.memWf) :
    NextMemWf (execRealignPoisonEmit pe slot port s) := by
  unfold execRealignPoisonEmit
  dsimp only
  repeat' split
  all_goals exact nextMemWf_next (by grind [stored_publishPoison, stored_setTask, stored_touch, memWf_congr])

theorem nextMemWf_execIllegalOp (op : BitVec 8) (w : Fields) (s : State) (h : s.memWf) : NextMemWf (execIllegalOp op w s) := by
  unfold execIllegalOp
  split
  · exact nextMemWf_next h
  · exact nextMemWf_of_stored h ((stored_sequence ..).trans (stored_emit ..))

theorem nextMemWf_execExecLiteral (w : Tiw) (s : State) (h : s.memWf) : NextMemWf (execExecLiteral w s) := by
  unfold execExecLiteral
  split
  · exact nextMemWf_next h
  · exact nextMemWf_of_stored h ((stored_touch ..).trans ((stored_endFiring ..).trans (stored_emit ..)))

theorem nextMemWf_execYield (w : Fields) (s : State) (h : s.memWf) : NextMemWf (execYield w s) :=
  nextMemWf_runInstr_stored h _ _ fun _ => stored_setTask ..

theorem nextMemWf_execTimingDetectorFlag (kind : Nat) (unit : Nat) (s : State) (h : s.memWf) :
    NextMemWf (execTimingDetectorFlag kind unit s) := by
  unfold execTimingDetectorFlag
  repeat' split
  all_goals exact nextMemWf_next (by grind [stored_logEvent, stored_setBankDetector, stored_setKilnDetector, stored_setPeDetector,
    memWf_congr])

/-! ## Every instruction, every event, every step -/

/-- Instructions of task code: most write registers of their PE alone. -/
theorem nextMemWf_task {i : Instr} (hi : (encode i).isSome = true) {s : State} (h : s.memWf) : NextMemWf (exec i s) := by
  cases i
  case
      nop | mov | ldi | ldih | ldl | lea | add | addc | sub | subb | neg | abs | min | max | clamp | mul | mulh | mad | div | rem |
      adds | subs | avg | absd | sad | wmul | wadd | doti | and | or | xor | andn | orn | shl | shr | sar | rol | bfx | bfi | popc |
      clz | ctz | brev | cmp | sel | sext | zext | packs | qand | qor | qxor | qnot | qmov | qany | lcset | lcget | fadd | fsub | fmul |
      fma | fms | fnma | fnms | fdiv | fmin | fmax | fminn | fmaxn | fabs | fneg | fcpys | fcmp | fclass | frint | fdot | vred | vscan |
      vperm | vshuf | vbcast | vsel | vins | vext | vrot | vcmpr | vexpd | vzip | vunzip | vsort | viota | vmask | cvt | cvtfi | cvtif |
      lgenc | lgdec | lgmul | t5pack | t5unpk | rcp | rsq | sqrt | exp2 | lg2 | sinpi | cospi | tanh | erf | amaxv | fscaleb | fgetexp |
      scacc | scale | trap =>
    dsimp only [exec]
    exact nextMemWf_runUnit h _ _ _
  case
      ld | st | ldv | stv | atom | atomr | cas | hins | copy | fill | fence | adv | emit | emitm | testm | nxtile | sopen | sadv |
      stend | sclose | sread | fopen | fadv | ftend | fclose | fisect | fisectc | tclaim | trel | tfill | ttask | twait | tstat |
      ovfcfg | tdep | tdepAdd | cpy | gath | scat | fgrd | fgwr | xchg | xchgRaw | ratom | cwait | resume | resumeFail | pref | bara |
      barw | barwT | barex | launch | csrr | csrw | evlog | mext | attest | sagvfyUnlock | sagvfyManifest | keywipe | keywipeAll |
      dbgopen | fuserd | yield | wdog | illegalOp | execLiteral =>
    dsimp only [exec]
    simp only [h,
      nextMemWf_execLd, nextMemWf_execSt, nextMemWf_execLdv, nextMemWf_execStv, nextMemWf_execAtom, nextMemWf_execAtomr,
      nextMemWf_execCas, nextMemWf_execHins, nextMemWf_execCopy, nextMemWf_execFill, nextMemWf_execFence, nextMemWf_execAdv,
      nextMemWf_execEmit, nextMemWf_execEmitm, nextMemWf_execTestm, nextMemWf_execNxtile, nextMemWf_execSopen, nextMemWf_execSadv,
      nextMemWf_execStend, nextMemWf_execSclose, nextMemWf_execSread, nextMemWf_execFopen, nextMemWf_execFadv, nextMemWf_execFtend,
      nextMemWf_execFclose, nextMemWf_execFisect, nextMemWf_execFisectc, nextMemWf_execTclaim, nextMemWf_execTrel, nextMemWf_execTfill,
      nextMemWf_execTtask, nextMemWf_execTwait, nextMemWf_execTstat, nextMemWf_execOvfcfg, nextMemWf_execTdep, nextMemWf_execTdepAdd,
      nextMemWf_execCpy, nextMemWf_execGath, nextMemWf_execScat, nextMemWf_execFgrd, nextMemWf_execFgwr, nextMemWf_execXchg,
      nextMemWf_execXchgRaw, nextMemWf_execRatom, nextMemWf_execCwait, nextMemWf_execResume, nextMemWf_execResumeFail,
      nextMemWf_execPref, nextMemWf_execBara, nextMemWf_execBarw, nextMemWf_execBarwT, nextMemWf_execBarex, nextMemWf_execLaunch,
      nextMemWf_execCsrr, nextMemWf_execCsrw, nextMemWf_execEvlog, nextMemWf_execMext, nextMemWf_execAttest, nextMemWf_execSagvfyUnlock,
      nextMemWf_execSagvfyManifest, nextMemWf_execKeywipe, nextMemWf_execKeywipeAll, nextMemWf_execDbgopen, nextMemWf_execFuserd,
      nextMemWf_execYield, nextMemWf_execWdog, nextMemWf_execIllegalOp, nextMemWf_execExecLiteral]
  all_goals cases hi

/-- Events of the other units. -/
theorem nextMemWf_event {i : Instr} (hi : encode i = none) {s : State} (h : s.memWf) : NextMemWf (exec i s) := by
  cases i
  -- events that act whatever the state is
  case
      localPortDeliver | localPortTake | routeHop | elementPortTransfer | launchNoticeApply | loadedNoticeApply | endedNoticeApply |
      savedNoticeApply | committedNoticeApply | errorNoticeApply | preemptNoticeApply | resumeNoticeApply | killNoticeApply |
      watchdogNoticeApply | csrNoticeApply | phaseNoticeApply | histNoticeApply | dieLossApply | linkSplitApply | warmReset | ctxBody |
      phaseBody | farrBody | fexitBody | fbreakBody =>
    dsimp only [exec]
    simp only [h,
      nextMemWf_execLocalPortDeliver, nextMemWf_execLocalPortTake, nextMemWf_execRouteHop, nextMemWf_execElementPortTransfer,
      nextMemWf_execLaunchNoticeApply, nextMemWf_execLoadedNoticeApply, nextMemWf_execEndedNoticeApply, nextMemWf_execSavedNoticeApply,
      nextMemWf_execCommittedNoticeApply, nextMemWf_execErrorNoticeApply, nextMemWf_execPreemptNoticeApply,
      nextMemWf_execResumeNoticeApply, nextMemWf_execKillNoticeApply, nextMemWf_execWatchdogNoticeApply, nextMemWf_execCsrNoticeApply,
      nextMemWf_execPhaseNoticeApply, nextMemWf_execHistNoticeApply, nextMemWf_execDieLossApply, nextMemWf_execLinkSplitApply,
      nextMemWf_execWarmReset, nextMemWf_execCtxBody, nextMemWf_execPhaseBody, nextMemWf_execFarrBody, nextMemWf_execFexitBody,
      nextMemWf_execFbreakBody]
  -- PEs and routers
  case
      dataFiringStart | markerFiring | suspendedResume | realignStart | realignDiscard | realignPoisonEmit | timingDetectorFlag |
      passFiring | steerFiring | mergeFiring | forkFiring | joinFiring | gateFiring | filterFiring | operatorMarkerFiring |
      operatorRealignDiscard | carryFiring | irepFiring | loopgenLoad | loopgenEmit | sinkFiring | mcutPass =>
    dsimp only [exec]
    simp only [h,
      nextMemWf_execDataFiringStart, nextMemWf_execMarkerFiring, nextMemWf_execSuspendedResume, nextMemWf_execRealignStart,
      nextMemWf_execRealignDiscard, nextMemWf_execRealignPoisonEmit, nextMemWf_execTimingDetectorFlag, nextMemWf_execPassFiring,
      nextMemWf_execSteerFiring, nextMemWf_execMergeFiring, nextMemWf_execForkFiring, nextMemWf_execJoinFiring, nextMemWf_execGateFiring,
      nextMemWf_execFilterFiring, nextMemWf_execOperatorMarkerFiring, nextMemWf_execOperatorRealignDiscard, nextMemWf_execCarryFiring,
      nextMemWf_execIrepFiring, nextMemWf_execLoopgenLoad, nextMemWf_execLoopgenEmit, nextMemWf_execSinkFiring, nextMemWf_execMcutPass]
  -- memory nodes, pools, Glaze islands, generators and barriers
  case
      mcutGatingRequest | mcutRelease | memnodeAccept | memnodePerform | memnodeResultEmit | memnodeMarker | memnodePairRealign |
      poolEccWriteback | agenSweepStart | agenTrigger | agenEmit | agenGatingRequest | glazeAccept | glazeOutput | barrierPerform =>
    dsimp only [exec]
    simp only [h,
      nextMemWf_execMcutGatingRequest, nextMemWf_execMcutRelease, nextMemWf_execMemnodeAccept, nextMemWf_execMemnodePerform,
      nextMemWf_execMemnodeResultEmit, nextMemWf_execMemnodeMarker, nextMemWf_execMemnodePairRealign, nextMemWf_execPoolEccWriteback,
      nextMemWf_execAgenSweepStart, nextMemWf_execAgenTrigger, nextMemWf_execAgenEmit, nextMemWf_execAgenGatingRequest,
      nextMemWf_execGlazeAccept, nextMemWf_execGlazeOutput, nextMemWf_execBarrierPerform]
  -- Comets and Kilns
  case
      cometAccess | graphPortAccept | graphPortResult | cometCommandPerform | streamFetch | streamFetchReturn | gatherUnitServe |
      kilnSubtileIssue | kilnRecordFailReady | kilnSubtileStart | kilnStep | kilnSpillEnd | kilnDrain | kilnRecordComplete |
      kilnSubtileMigrate | tfillSourceCheck | tfillComplete =>
    dsimp only [exec]
    simp only [h,
      nextMemWf_execCometAccess, nextMemWf_execGraphPortAccept, nextMemWf_execGraphPortResult, nextMemWf_execCometCommandPerform,
      nextMemWf_execStreamFetch, nextMemWf_execStreamFetchReturn, nextMemWf_execGatherUnitServe, nextMemWf_execKilnSubtileIssue,
      nextMemWf_execKilnRecordFailReady, nextMemWf_execKilnSubtileStart, nextMemWf_execKilnStep, nextMemWf_execKilnSpillEnd,
      nextMemWf_execKilnDrain, nextMemWf_execKilnRecordComplete, nextMemWf_execKilnSubtileMigrate, nextMemWf_execTfillSourceCheck,
      nextMemWf_execTfillComplete]
  -- meshes and controllers
  case
      meshFlitHop | packetAgePromote | meshCrcReplay | controllerRead | parityRebuild | controllerWrite | parityUpdate =>
    dsimp only [exec]
    simp only [h,
      nextMemWf_execMeshFlitHop, nextMemWf_execPacketAgePromote, nextMemWf_execMeshCrcReplay, nextMemWf_execControllerRead,
      nextMemWf_execParityRebuild, nextMemWf_execControllerWrite, nextMemWf_execParityUpdate]
  -- dispatchers and the hub
  case
      trapQueueWrite | tagUe | loaderFrameRead | configCacheLookup | quiescenceSweep | dieHeartbeat | heartbeatMissing |
      deadlockTimeout | watchdogExpiry | hubTick | tickNoticeApply | killDrainEnd | digestNoticeApply | wheelHistogramRead |
      saveAreaAllocate | saveRecordWrite | commitWrite | exchangeStep =>
    dsimp only [exec]
    simp only [h,
      nextMemWf_execTrapQueueWrite, nextMemWf_execTagUe, nextMemWf_execLoaderFrameRead, nextMemWf_execConfigCacheLookup,
      nextMemWf_execQuiescenceSweep, nextMemWf_execDieHeartbeat, nextMemWf_execHeartbeatMissing, nextMemWf_execDeadlockTimeout,
      nextMemWf_execWatchdogExpiry, nextMemWf_execHubTick, nextMemWf_execTickNoticeApply, nextMemWf_execKillDrainEnd,
      nextMemWf_execDigestNoticeApply, nextMemWf_execWheelHistogramRead, nextMemWf_execSaveAreaAllocate, nextMemWf_execSaveRecordWrite,
      nextMemWf_execCommitWrite, nextMemWf_execExchangeStep]
  -- the host, the Saggar and the links
  case
      launchrWrite | registerPageBadAccess | flr | linkLoss | linkRetrain | linkHoldExpiry | hotReset | coldStart | bootStepTimeout |
      pldmFirmwareUpdate | startCounterWrite | fabricMapWrite | vendorProvision | thermalThrottle | thermalShutdown | linkFrameReceive |
      linkReplay | bexwenRetrain | remoteExchangeWrite | remoteAtomicRequest | remoteAtomicResponse | ratomResendTimeout |
      moduleUnreachable | receiverLockLoss | saggarPowerLoss | pldmPowerDown | productionFusing | rmaToken =>
    dsimp only [exec]
    simp only [h,
      nextMemWf_execLaunchrWrite, nextMemWf_execRegisterPageBadAccess, nextMemWf_execFlr, nextMemWf_execLinkLoss,
      nextMemWf_execLinkRetrain, nextMemWf_execLinkHoldExpiry, nextMemWf_execHotReset, nextMemWf_execColdStart,
      nextMemWf_execBootStepTimeout, nextMemWf_execPldmFirmwareUpdate, nextMemWf_execStartCounterWrite, nextMemWf_execFabricMapWrite,
      nextMemWf_execVendorProvision, nextMemWf_execThermalThrottle, nextMemWf_execThermalShutdown, nextMemWf_execLinkFrameReceive,
      nextMemWf_execLinkReplay, nextMemWf_execBexwenRetrain, nextMemWf_execRemoteExchangeWrite, nextMemWf_execRemoteAtomicRequest,
      nextMemWf_execRemoteAtomicResponse, nextMemWf_execRatomResendTimeout, nextMemWf_execModuleUnreachable,
      nextMemWf_execReceiverLockLoss, nextMemWf_execSaggarPowerLoss, nextMemWf_execPldmPowerDown, nextMemWf_execProductionFusing,
      nextMemWf_execRmaToken]
  -- accesses and commands of the host
  case
      lstatClear | mbCreate | mbDestroy | mbPreempt | mbResume | mbKill | mbAssign | mbQueryBootEntry | mbQueryExcluded | mbClrboot |
      mbSupcfg | mbDoorbellBusy | windowRead | windowWrite | registerWrite =>
    dsimp only [exec]
    simp only [h,
      nextMemWf_execLstatClear, nextMemWf_execMbCreate, nextMemWf_execMbDestroy, nextMemWf_execMbPreempt, nextMemWf_execMbResume,
      nextMemWf_execMbKill, nextMemWf_execMbAssign, nextMemWf_execMbQueryBootEntry, nextMemWf_execMbQueryExcluded,
      nextMemWf_execMbClrboot, nextMemWf_execMbSupcfg, nextMemWf_execMbDoorbellBusy, nextMemWf_execWindowRead, nextMemWf_execWindowWrite,
      nextMemWf_execRegisterWrite]
  -- services of the Saggar
  case
      pldmDiscovery | pldmSensorRead | blackBoxRead | bootRecordRead | peerEpochRead | sidebandAttest | saggarAttestServe |
      saggarVerifyServe | saggarMextServe =>
    dsimp only [exec]
    simp only [h,
      nextMemWf_execPldmDiscovery, nextMemWf_execPldmSensorRead, nextMemWf_execBlackBoxRead, nextMemWf_execBootRecordRead,
      nextMemWf_execPeerEpochRead, nextMemWf_execSidebandAttest, nextMemWf_execSaggarAttestServe, nextMemWf_execSaggarVerifyServe,
      nextMemWf_execSaggarMextServe]
  all_goals cases hi

theorem nextMemWf_exec (i : Instr) {s : State} (h : s.memWf) : NextMemWf (exec i s) := by
  cases he : encode i with
  | some e => exact nextMemWf_task (by rw [he]; rfl) h
  | none => exact nextMemWf_event he h

theorem nextMemWf_issue (pe : Nat) {s : State} (h : s.memWf) : NextMemWf (issue pe s) := by
  unfold issue
  split
  · exact nextMemWf_next h
  split
  · exact nextMemWf_of_stored h (stored_fetchFault ..)
  · exact nextMemWf_exec _ h

theorem nextMemWf_step {s : State} (h : s.memWf) : NextMemWf (step s) := by
  have hn := (memWf_congr (stored_next s)).2 h
  unfold step
  generalize s.next = r at hn ⊢
  obtain ⟨a, t⟩ := r
  dsimp only
  split
  · cases a with
    | issue pe => exact nextMemWf_issue pe hn
    | event i => exact nextMemWf_exec i hn
    | upset u => exact nextMemWf_of_stored hn (stored_applyUpset u t)
  · rintro _ ⟨⟩

/-- Settles O30, by what each instruction and each event leaves of the stored bytes. -/
theorem stepKeepsMemoryCanonical : Obligations.StepKeepsMemoryCanonical := fun _ t h ht => nextMemWf_step h t ht

end Sys2Proof.Machine
end

section
/-! PROOFS. Commands of the Comets: how they enter a core's queue, wait, and resume (spec/10 R282, R294 to R303). -/
namespace Sys2Proof.Machine

/-! ## A command enters the queue of its core (R280, R294) -/

/-- The command port of the task's core takes a command: its queue has room, and it is not parked. -/
def Issue.PortOpen (i : Issue) : Prop :=
  (i.s.cmdq i.core).length < 16 ∧ i.s.isParked (cometOfCore i.core) (commandPort i.core) = false

theorem Issue.cmdShut_eq_false_iff (i : Issue) : i.s.cmdShut i.core = false ↔ i.PortOpen := by
  simp [State.cmdShut, Issue.PortOpen]

/-- The state in which a command stands last in the queue of its core, in its Comet's order of acceptance. -/
def Issue.accepted (i : Issue) (c : Cmd) : State :=
  (i.s.setAccepted (cometOfCore i.core) (i.s.accepted (cometOfCore i.core) + 1)).setCmdq i.core (i.s.cmdq i.core ++
    [{ c with pe := i.pe, slot := i.slot, dom := i.dom, disp := i.disp, tag := freeTag (i.s.cmdq i.core)
              order := i.s.accepted (cometOfCore i.core) }])

section
variable {i : Issue} {c : Cmd}

theorem enqueue_posted (h : i.PortOpen) : i.enqueue c false = .done (i.accepted c) := by
  rw [Issue.enqueue, i.cmdShut_eq_false_iff.mpr h]
  rfl

theorem enqueue_blocking (h : i.PortOpen) :
    i.enqueue c true = .hold ((i.accepted c).setTask i.pe i.slot { i.task with wait := .memSent }) := by
  rw [Issue.enqueue, i.cmdShut_eq_false_iff.mpr h]
  rfl

theorem enqueue_shut (h : ¬i.PortOpen) (blocking : Bool) : i.enqueue c blocking = .hold i.s :=
  if_pos (by rwa [← i.cmdShut_eq_false_iff, Bool.not_eq_false] at h)

/-! ## A blocking command (R299, R301) -/

theorem blockCmd_unsent (h : i.task.wait = .none) : i.blockCmd c = i.enqueue c true := by
  rw [Issue.blockCmd, h]

theorem blockCmd_answered {v : Word} (h : i.task.wait = .memDone v none) : i.blockCmd c = .done (i.putD i.s v) := by
  rw [Issue.blockCmd, h]

theorem blockCmd_failed {v f : Word} (h : i.task.wait = .memDone v (some f)) : i.blockCmd c = .done (i.taintRec (i.putD i.s v) f) := by
  rw [Issue.blockCmd, h]

end

/-- An instruction whose body queues a posted command completes when its port takes it, and holds issue until then. -/
theorem queues_of_enqueue {ctor : Fields → Instr} {spec : Fields → OpSpec} {body : Fields → Issue → Done} {ok : Issue → Prop}
    {cmd : Issue → Cmd} (hx : ∀ w s, exec (ctor w) s = runInstr (spec w) w (body w) s)
    (hb : ∀ i, ok i → body i.w i = i.enqueue (cmd i) false) :
    Completes ctor spec (fun x => ok x ∧ x.PortOpen) (fun x => x.accepted (cmd x)) ∧
      Holds ctor spec (fun x => ok x ∧ ¬x.PortOpen) (fun x => x.s) :=
  ⟨completes_of_done hx fun i h => (hb i h.1).trans (enqueue_posted h.2),
    holds_of_hold hx fun i h => (hb i h.1).trans (enqueue_shut h.2 false)⟩

theorem cometCommands : Claims.CometCommands := by
  refine ⟨queues_of_enqueue exec_cpy fun _ h => if_neg (Nat.not_le.mpr h), queues_of_enqueue exec_gath fun _ h => if_neg (Nat.not_le.mpr h),
    queues_of_enqueue exec_scat fun _ h => if_neg (Nat.not_le.mpr h), queues_of_enqueue exec_fgwr fun i _ => rfl,
    queues_of_enqueue exec_xchg fun _ h => if_neg (Nat.not_le.mpr h), queues_of_enqueue exec_xchgRaw fun _ h => if_neg (Nat.not_le.mpr h),
    queues_of_enqueue exec_pref fun _ h => if_neg (Nat.not_lt.mpr h), holds_of_hold exec_fgrd fun i h => ?sends,
    completes_of_done exec_fgrd fun i h => blockCmd_answered h, fun f => completes_of_done exec_fgrd fun i h => blockCmd_failed h⟩
  case sends =>
    obtain ⟨hw, ho⟩ := h
    exact (blockCmd_unsent hw).trans (enqueue_blocking ho)

/-! ## Completion counters (R302) -/

theorem completionCounters : Claims.CompletionCounters := by
  refine ⟨completes_of_done exec_cwait fun i h => ?takes, holds_of_hold exec_cwait fun i h => ?waits,
    fails_of_illegal exec_cwait (fun _ _ => rfl) fun i h => ?illegal⟩
  case takes =>
    obtain ⟨hcount, hfirst, hthere⟩ := h
    refine (if_neg ?_).trans (if_pos ?_)
    · simp only [Bool.or_eq_true, decide_eq_true_eq]; omega
    · simp only [Bool.and_eq_true, decide_eq_true_eq]; exact ⟨hfirst, hthere⟩
  case waits =>
    obtain ⟨hcount, hlater⟩ := h
    refine (if_neg ?_).trans (if_neg ?_)
    · simp only [Bool.or_eq_true, decide_eq_true_eq]; omega
    · simp only [Bool.and_eq_true, decide_eq_true_eq]; exact hlater
  case illegal => exact if_pos (by simp only [Bool.or_eq_true, decide_eq_true_eq]; omega)

/-! ## Parked accesses (R282) -/

section
variable {i : Issue} (fail : Bool)

theorem resume_unparked (ha : i.sa < 2 ^ 16) (hp : (i.s.cometPort (cometOfId i.sa) (i.sa % 256)).parked = none) :
    i.resume fail = .done (i.s.setPredOf i.pe (Issue.predNum i.w.d) 0) := by
  simp only [Issue.resume, Nat.not_le.mpr ha, if_false, hp]

theorem resume_parked {k : Parked} (ha : i.sa < 2 ^ 16) (hp : (i.s.cometPort (cometOfId i.sa) (i.sa % 256)).parked = some k)
    (hk : k.abandoned = false) :
    i.resume fail = .done ((if fail then i.s.abandonPort (cometOfId i.sa) (i.sa % 256) k
      else i.s.retryPort (cometOfId i.sa) (i.sa % 256) k).setPredOf i.pe (Issue.predNum i.w.d) 0xFFFFFFFF) := by
  simp only [Issue.resume, Nat.not_le.mpr ha, if_false, hp, hk, Bool.false_eq_true]

end

theorem parkedAccesses : Claims.ParkedAccesses :=
  ⟨⟨completes_of_done exec_resume fun _ ⟨ha, hp⟩ => resume_unparked false ha hp,
      fun _ => completes_of_done exec_resume fun _ ⟨ha, hp, hk⟩ => resume_parked false ha hp hk,
      fails_of_illegal exec_resume (fun _ _ => rfl) fun _ ha => if_pos ha⟩,
    ⟨completes_of_done exec_resumeFail fun _ ⟨ha, hp⟩ => resume_unparked true ha hp,
      fun _ => completes_of_done exec_resumeFail fun _ ⟨ha, hp, hk⟩ => resume_parked true ha hp hk,
      fails_of_illegal exec_resumeFail (fun _ _ => rfl) fun _ ha => if_pos ha⟩⟩

/-- Settles O54: a command enters its core's queue or holds issue, a counter serves its line in order, and a parked access is retried or
abandoned. -/
theorem cometInstructions : Obligations.CometInstructions := ⟨cometCommands, completionCounters, parkedAccesses⟩

end Sys2Proof.Machine
end

section
/-! PROOFS. Graph ports, commands that perform, and gather units (spec/10 R279 to R281, R295 to R301, spec/13 R363). -/
namespace Sys2Proof.Machine

/-! ## Graph ports (R279 to R281) -/

/-- A read group takes a data request while fewer than 16 are on their way or have results that have not left the data port. -/
theorem exec_graphPortAccept_read {s : State} {c p : Nat} {t : Token} {ts : List Token} (hk : (s.cometPort c p).parked = none)
    (hg : s.groupOf c p = .read) (hq : (s.cometPort c p).inq = t :: ts) (hm : t.mark = false) (hp : t.poison = false)
    (hr : (s.cometPort c p).reqs.length + ((s.cometPort c (p + 1)).outq.filter fun r => !r.mark).length < 16) :
    exec (.graphPortAccept c p) s = .next ((s.popPort c p).pushReq c p { req := t }) := by
  rw [exec_graphPortAccept, execGraphPortAccept]
  simp only [hk, hg, hq, hm, hp, decide_eq_false (Nat.not_le.mpr hr), List.head?_cons, Option.isSome_none, Bool.or_self, Bool.false_eq_true,
    if_false]

section
variable {s : State} {c p k : Nat} {q : GraphReq}

/-- A request that may be translated, and whose write staging can take, has its access. -/
theorem exec_cometAccess_may (hq : (s.cometPort c p).reqs[k]? = some q) (hh : q.held = false)
    (hm : s.graphMay (s.portAsker c p) (s.cometPort c p).reqs k q = true)
    (hs : q.write = false ∨ s.restartable (s.portAsker c p) = false) :
    exec (.cometAccess c p k) s = .next ((s.graphAccess (s.portAsker c p) p k q).touchPort c p) := by
  have hroom : (q.write && s.restartable (s.portAsker c p) && s.sliceFull (s.portAsker c p).cluster (s.portAsker c p).dom) = false := by
    obtain hs | hs := hs <;> simp [hs]
  rw [exec_cometAccess, execCometAccess]
  simp only [hq, hh, hm, hroom, Bool.not_true, Bool.or_self, Bool.false_eq_true, if_false]

variable {a : Asker} {t u : State}

theorem graphAccess_read {ps : List Piece} {bs : List Byte} (hw : q.write = false) (hp : s.graphPieces a q = (.inl ps, t))
    (hr : t.hbmRead a ps = (.inl bs, u)) :
    s.graphAccess a p k q =
      u.putReq a.comet p k { q with held := false, done := some { payload := BitVec.ofNat 256 (natOfBytes bs), dom := a.dom } } := by
  simp only [State.graphAccess, hp, hw, hr, Bool.false_eq_true, if_false]

theorem graphAccess_write {ps : List Piece} (hw : q.write = true) (hd : q.data.poison = false) (hp : s.graphPieces a q = (.inl ps, t)) :
    s.graphAccess a p k q = (t.hbmWrite a ps (bytesOfNat ((ps.map Piece.len).foldl (· + ·) 0) q.data.payload.toNat)).putReq a.comet p k
      { q with held := false, done := some { q.req with dom := a.dom } } := by
  simp only [State.graphAccess, hp, hw, hd, Bool.false_eq_true, if_true, if_false]

theorem graphAccess_parks {kind tid page : Nat} (hp : s.graphPieces a q = (.inr (.park kind tid page), t))
    (hf : t.isParked a.comet p = false) (hd : t.drains a = false) :
    s.graphAccess a p k q = (t.putReq a.comet p k { q with held := true }).parkPort a p kind tid page := by
  simp only [State.graphAccess, hp, hf, hd, Bool.false_eq_true, if_false]

/-- In a part that is being killed the access is discarded (R281). -/
theorem graphAccess_drained {kind tid page : Nat} (hp : s.graphPieces a q = (.inr (.park kind tid page), t)) (hd : t.drains a = true) :
    s.graphAccess a p k q = t.dropReq a.comet p k := by
  simp only [State.graphAccess, hp, hd, if_true]

end

/-- The oldest result of a group leaves by its output port. -/
theorem exec_graphPortResult_done {s : State} {c p : Nat} {q : GraphReq} {qs : List GraphReq} {t : Token} (hg : s.groupOf c p ≠ .none)
    (hq : (s.cometPort c p).reqs = q :: qs) (hd : q.done = some t) (ho : (s.cometPort c ((s.groupOf c p).outPort p)).outq.length < 2) :
    exec (.graphPortResult c p) s = .next (((s.setCometPort c p { s.cometPort c p with reqs := qs }).portEmit c
      ((s.groupOf c p).outPort p) t).touchPort c p) := by
  have hfree : ¬islandDepth ≤ (s.cometPort c ((s.groupOf c p).outPort p)).outq.length := Nat.not_le.mpr ho
  rw [exec_graphPortResult, execGraphPortResult]
  simp only [hg, hfree, hq, hd, decide_false, Bool.or_self, Bool.false_eq_true, if_false]

theorem graphPortsServe : Claims.GraphPorts := by
  refine ⟨fun c p t ts s => exec_graphPortAccept_read, ?read, ?write, ?park, ?discard, fun c p q qs t s => exec_graphPortResult_done⟩
  case read =>
    intro c p k q ps bs s₁ s₂ s hq hh hm hw hp hr
    rw [exec_cometAccess_may hq hh hm (.inl hw), graphAccess_read hw hp hr]
    rfl
  case write =>
    intro c p k q ps s₁ s hq hh hm hw hd hr hp
    rw [exec_cometAccess_may hq hh hm (.inr hr), graphAccess_write hw hd hp]
    rfl
  case park =>
    intro c p k q kind tid page s₁ s hq hh hm hw hp hf hd
    rw [exec_cometAccess_may hq hh hm (.inl hw), graphAccess_parks hp hf hd]
    rfl
  case discard =>
    intro c p k q kind tid page s₁ s hq hh hm hw hp hd
    rw [exec_cometAccess_may hq hh hm (.inl hw), graphAccess_drained hp hd]
    rfl

/-! ## When a command performs (R295, R407, R428) -/

section
variable {s t : State} {core k : Nat} {c : Cmd}

theorem exec_cometCommandPerform_translates (hk : (s.cmdq core)[k]? = some c) (ht : c.translated = false)
    (hm : s.mayTranslate core k c = true) : exec (.cometCommandPerform core k) s = .next (s.translateAt core k c) := by
  rw [exec_cometCommandPerform, execCometCommandPerform]
  simp only [hk, ht, hm, Bool.not_false, if_true]

/-- A translated command that no earlier one holds back, and whose lines the slice can take, performs. -/
theorem exec_cometCommandPerform_ready (hk : (s.cmdq core)[k]? = some c) (ht : c.translated = true) (hs : c.sent = false)
    (ho : ∀ d ∈ (s.cmdq core).take k, d.overlaps c = false) (hw : s.waitsOther core c = false) (hl : s.waitsSlice core c = false) :
    exec (.cometCommandPerform core k) s = .next ((s.performCmd core k c).touch core) := by
  have hown : (((s.cmdq core).take k).any fun d => d.overlaps c) = false := List.any_eq_false.mpr fun d hd => by simp [ho d hd]
  rw [exec_cometCommandPerform, execCometCommandPerform]
  simp only [hk, ht, hs, hown, hw, hl, Bool.not_true, Bool.or_self, Bool.false_eq_true, if_false]

/-- What reads, and an atomic, puts no line into the slice. -/
theorem waitsSlice_of_reads (h : c.op = .gath ∨ c.op = .fgrd ∨ c.op = .ratom) : s.waitsSlice core c = false := by
  obtain h | h | h := h <;> simp [State.waitsSlice, h]

/-- A direct fine-grain write puts no line into the slice. -/
theorem waitsSlice_of_direct (h : c.op = .fgwr) (hr : s.restartable (c.asker core) = false) : s.waitsSlice core c = false := by
  simp [State.waitsSlice, h, hr]

/-! ## Fine-grain commands (R299, R301, R304) -/

/-- A response for the command has arrived at its Comet: the first flit of its packet, and the state without it. -/
def State.fineResponse (s : State) (core : Nat) (c : Cmd) (f : Flit) (t : State) : Prop :=
  ∃ fs, s.takePacket (c.asker core).cluster (1 + (c.asker core).comet % 2) (fun b => let x := Header.ofBits b
    decide (x.type = c.op.request + 1) && decide (x.tag = cmdTag core c.tag) && decide (bitsOf 186 32 b = c.disp)) = (some (f :: fs), t)

/-- A fine-grain command that has been sent ends with its response. -/
theorem exec_cometCommandPerform_response {f : Flit} (hk : (s.cmdq core)[k]? = some c) (ht : c.translated = true) (hs : c.sent = true)
    (hop : c.op = .fgrd ∨ c.op = .fgwr ∨ c.op = .ratom) (hr : s.fineResponse core c f t) :
    exec (.cometCommandPerform core k) s = .next (t.fineAnswer core k c f.bits) := by
  obtain ⟨fs, hr⟩ := hr
  have hsent : exec (.cometCommandPerform core k) s = .next (s.ackFine core k c) := by
    rw [exec_cometCommandPerform, execCometCommandPerform]
    obtain h | h | h := hop <;> simp only [hk, ht, hs, h, Bool.not_true, Bool.false_eq_true, if_true, if_false]
  rw [hsent]
  simp only [State.ackFine, hr]

theorem fineAnswer_fgrd {b : BitVec 512} (hop : c.op = .fgrd) (hb : bitsOf 138 2 b = 0) :
    t.fineAnswer core k c b = t.answerCmd core k c (BitVec.ofNat 256 (bitsOf 256 128 b)) none := by
  simp only [State.fineAnswer, hb, hop, ne_eq, not_true_eq_false, if_false]

theorem fineAnswer_fgwr {b : BitVec 512} (hop : c.op = .fgwr) (hb : bitsOf 138 2 b = 0) :
    t.fineAnswer core k c b = (t.tilesWritten (c.asker core) c (bytesOfNat c.g c.data.toNat)).finishCmd core k c 0 := by
  simp only [State.fineAnswer, hb, hop, ne_eq, not_true_eq_false, if_false]

theorem fineAnswer_ratom {b : BitVec 512} (hop : c.op = .ratom) (hb : bitsOf 138 2 b = 0) :
    t.fineAnswer core k c b = (t.tilesWritten (c.asker core) c (bytesOfNat (elemBytes c.fmt) (aluNew c.fmt c.aop (bitsOf 256 128 b)
      (c.data.toNat % 2 ^ (8 * elemBytes c.fmt))))).answerCmd core k c (ratomWord (bitsOf 256 128 b) 0) none := by
  simp only [State.fineAnswer, hb, hop, ne_eq, not_true_eq_false, if_false]

/-- A read that fails at its controller answers zero, and leaves its record with the task. -/
theorem fineAnswer_fgrd_failed {b : BitVec 512} (hop : c.op = .fgrd) (hb : bitsOf 138 2 b ≠ 0) :
    t.fineAnswer core k c b =
      t.answerCmd core k c 0 (some ((statusFail (bitsOf 138 2 b) (t.homeOf (bitsOf 64 64 b))).record t (c.asker core))) := by
  simp only [State.fineAnswer, hb, State.failCmd, hop, ne_eq, not_false_eq_true, if_true]

variable {p : Piece} {ps : List Piece}

theorem performCmd_fgrd (hop : c.op = .fgrd) (hp : c.src = p :: ps) (hr : s.restartable (c.asker core) = false) :
    s.performCmd core k c = s.askFine core k c p c.g := by
  simp only [State.performCmd, hop, State.fineRead, hp, hr, Bool.false_eq_true, if_false]

theorem performCmd_fgwr (hop : c.op = .fgwr) (hp : c.src = p :: ps) (hr : s.restartable (c.asker core) = false) :
    s.performCmd core k c = s.askFine core k c p c.g := by
  simp only [State.performCmd, hop, State.sendFine, hp, hr, Bool.false_eq_true, if_false]

theorem performCmd_ratom (hop : c.op = .ratom) (hp : c.src = p :: ps) (hr : s.isRemote c = false) :
    s.performCmd core k c = s.askFine core k c p (elemBytes c.fmt) := by
  simp only [State.performCmd, hop, hr, State.doAtom, hp, Bool.false_eq_true, if_false]

/-! ## Copies (R296) -/

theorem performCmd_cpy_empty (hop : c.op = .cpy) (hr : c.raw = false) (hn : c.n = 0) :
    s.performCmd core k c = s.finishCmd core k c 0 := by
  simp only [State.performCmd, hop, State.doCopy, hr, hn, Bool.false_and, Bool.false_eq_true, if_true, if_false]

/-- A copy into the pool whose source is read and whose destination is written counts as done. -/
theorem performCmd_cpy_toPool {bs : List Byte} {u : State} (hop : c.op = .cpy) (hr : c.raw = false) (hn : c.n ≠ 0) (hd : c.dsp = true)
    (hb : s.copyRead core (c.asker core) c = (.inl bs, t)) (hw : t.cometPoolWrite core c.dsta bs = (none, u)) :
    s.performCmd core k c = u.finishCmd core k c 0 := by
  have hlocal (x : State) : x.isRemote c = false := by simp [State.isRemote, hop]
  simp only [State.performCmd, hop, State.doCopy, hr, hn, hd, hb, hw, hlocal, Bool.false_and, Bool.false_eq_true, if_true, if_false]

/-! ## Gathers (R297, R298, R363) -/

/-- The response that brings the last entry of a gather completes it. -/
theorem gatherResponse_last {f : Flit} {ds : List Flit} {j : Nat} {bs : List Byte} {u v : State} (hparts : c.parts = 1) (hbad : c.bad = [])
    (ht : s.takePacket (c.asker core).cluster (1 + (c.asker core).comet % 2)
      (fun b => let x := Header.ofBits b; decide (x.type = 7) && decide (x.tag = cmdTag core c.tag)) = (some (f :: ds), t))
    (hid : flitId f.bits = c.id) (hg : gatheredOf c.g f.bits (ds.map Flit.bits) = [(j, 0, bs)])
    (hw : t.cometPoolWrite core (c.dsta + c.g * j) bs = (none, u)) (hv : v = (u.putCmd core k { c with parts := 0 }).touch core) :
    s.gatherResponse core k c = v.finishCmd core k c 0 := by
  have hlast : t.takeGathered core c [(j, 0, bs)] = ({ c with parts := 0 }, u) := by
    simp only [State.takeGathered, if_true, hw, hparts, Nat.sub_self]
  have hgood : lowestBad c.bad = none := by rw [hbad]; rfl
  simp only [State.gatherResponse, ht, hid, ne_eq, not_true_eq_false, if_false, hg, hlast, if_true, State.finishGather, hgood, hv]
  rfl

/-- The packed response of a gather that has been sent is taken. -/
theorem exec_cometCommandPerform_gathered (hk : (s.cmdq core)[k]? = some c) (ht : c.translated = true) (hs : c.sent = true) (hop : c.op = .gath) :
    exec (.cometCommandPerform core k) s = .next (s.gatherResponse core k c) := by
  rw [exec_cometCommandPerform, execCometCommandPerform]
  simp only [hk, ht, hs, hop, Bool.not_true, Bool.false_eq_true, if_true, if_false]

end

/-- The gather unit of a stack takes the request that the first controller of its die has received, while the part that asks is there. -/
theorem acceptGather_arrived {st n : Nat} {f : Flit} {ds : List Flit} {s t : State} {r : GatherReq}
    (hn : (firstBelow 16 fun n => ((s.takePacket (16 * (st / 3) + n) 3 fun b =>
      decide ((Header.ofBits b).type = 6) && decide (bitsOf 218 8 b = st)).1).isSome) = some n)
    (ht : (s.takePacket (16 * (st / 3) + n) 3 fun b => decide ((Header.ofBits b).type = 6) && decide (bitsOf 218 8 b = st)) = (some (f :: ds), t))
    (hr : r = { via := 16 * (st / 3) + n, hdr := BitVec.ofNat 64 f.bits.toNat, id := flitId f.bits
                todo := gatherEntries f.bits (ds.map Flit.bits) })
    (hd : (t.dispOf r.asker.die r.asker.dom r.asker.disp).isSome = true) :
    s.acceptGather st = t.setGatherQ st (t.gatherQ st ++ [r]) := by
  subst hr
  simp only [State.acceptGather, hn, ht, Option.isNone_eq_false_iff.mpr hd, Bool.false_eq_true, if_false]

/-- The gather unit of a stack reads the oldest entry of its oldest request; the last one sends the response. -/
theorem exec_gatherUnitServe_entry {st : Nat} {s t u : State} {r : GatherReq} {rs : List GatherReq} {e : Nat × Piece} {es : List (Nat × Piece)}
    {bs : List Byte} (ha : s.acceptGather st = t) (hq : t.gatherQ st = r :: rs) (he : r.todo = e :: es)
    (hr : t.readPiece r.asker e.2 = (.inl bs, u)) :
    let r' := { r with todo := es, served := r.served ++ [(e.1, 0, bs)] }
    exec (.gatherUnitServe st) s = .next (if es.isEmpty then (u.setGatherQ st rs).replyGather r' else u.setGatherQ st (r' :: rs)) := by
  rw [exec_gatherUnitServe, execGatherUnitServe]
  simp only [ha, hq, he, hr]

theorem CompCtr.complete_of_room {c : CompCtr} (h : c.count < 65535) (st : Nat) :
    (c.complete st).count = c.count + 1 ∧ (c.complete st).status = Nat.max c.status st := ⟨if_pos h, rfl⟩

theorem commandsPerform : Claims.CommandsPerform := by
  refine ⟨?fgrd, ?fgwr, ?ratom, ?fgrdDone, ?fgwrDone, ?ratomDone, ?fgrdFails, ?empty, ?toPool,
    fun core k c s => exec_cometCommandPerform_translates, fun c st h => CompCtr.complete_of_room h st, ?entry, ?lastEntry,
    fun st n f ds s t => fun hn ht hd => acceptGather_arrived hn ht rfl hd, ?gathered⟩
  case fgrd =>
    intro core k c p ps s ⟨hk, ht, hs, ho, hw⟩ hop hp hr
    have htype : c.op.request = 0 := by rw [hop]; rfl
    rw [exec_cometCommandPerform_ready hk ht hs ho hw (waitsSlice_of_reads (.inr (.inl hop))), performCmd_fgrd hop hp hr, State.askFine, htype]
  case fgwr =>
    intro core k c p ps s ⟨hk, ht, hs, ho, hw⟩ hop hp hr
    have htype : c.op.request = 2 := by rw [hop]; rfl
    rw [exec_cometCommandPerform_ready hk ht hs ho hw (waitsSlice_of_direct hop hr), performCmd_fgwr hop hp hr, State.askFine, htype]
  case ratom =>
    intro core k c p ps s ⟨hk, ht, hs, ho, hw⟩ hop hr hp
    have htype : c.op.request = 4 := by rw [hop]; rfl
    rw [exec_cometCommandPerform_ready hk ht hs ho hw (waitsSlice_of_reads (.inr (.inr hop))), performCmd_ratom hop hp hr, State.askFine, htype]
  case fgrdDone =>
    intro core k c f t s hop ⟨hk, ht, hs, fs, hp⟩ hb
    rw [exec_cometCommandPerform_response hk ht hs (.inl hop) ⟨fs, by rwa [hop]⟩, fineAnswer_fgrd hop hb]
  case fgwrDone =>
    intro core k c f t s hop ⟨hk, ht, hs, fs, hp⟩ hb
    rw [exec_cometCommandPerform_response hk ht hs (.inr (.inl hop)) ⟨fs, by rwa [hop]⟩, fineAnswer_fgwr hop hb]
  case ratomDone =>
    intro core k c f t s hop ⟨hk, ht, hs, fs, hp⟩ hb
    rw [exec_cometCommandPerform_response hk ht hs (.inr (.inr hop)) ⟨fs, by rwa [hop]⟩, fineAnswer_ratom hop hb]
  case fgrdFails =>
    intro core k c f t s hop ⟨hk, ht, hs, fs, hp⟩ hb
    rw [exec_cometCommandPerform_response hk ht hs (.inl hop) ⟨fs, by rwa [hop]⟩, fineAnswer_fgrd_failed hop hb]
  case empty =>
    intro core k c s ⟨hk, ht, hs, ho, hw⟩ hop hr hn hl
    rw [exec_cometCommandPerform_ready hk ht hs ho hw hl, performCmd_cpy_empty hop hr hn]
    rfl
  case toPool =>
    intro core k c bs t u s ⟨hk, ht, hs, ho, hw⟩ hop hr hn hd hb hp hl
    rw [exec_cometCommandPerform_ready hk ht hs ho hw hl, performCmd_cpy_toPool hop hr hn hd hb hp]
    rfl
  case entry =>
    intro st r rs e e' es bs t u s ha hq he hr
    exact exec_gatherUnitServe_entry ha hq he hr
  case lastEntry =>
    intro st r rs e bs t u s ha hq he hr
    exact exec_gatherUnitServe_entry ha hq he hr
  case gathered =>
    intro core k c f ds j bs t u s hk ht hs hop hparts hbad hp hid hg hw v
    rw [exec_cometCommandPerform_gathered hk ht hs hop, gatherResponse_last hparts hbad hp hid hg hw rfl]
    rfl

/-- Settles O53: a port's request has its access, and a command performs, in the case that its clause names. -/
theorem cometAccesses : Obligations.CometAccesses := ⟨graphPortsServe, commandsPerform⟩

end Sys2Proof.Machine
end

section
/-! PROOFS. Atomics and exchange writes between modules (spec/10 R300, R301, spec/17 R482, R486 to R490). -/
namespace Sys2Proof.Machine

/-! ## A remote atomic at its requester (R301, R490) -/

/-- A blocking command that ends gives its task the value and the failure. -/
theorem task_answerCmd_sent {s : State} {c : Cmd} (h : (s.task c.pe c.slot).wait = .memSent) (core k : Nat) (v : Word) (f : Option Word) :
    (s.answerCmd core k c v f).task c.pe c.slot = { s.task c.pe c.slot with wait := .memDone v f } :=
  (congrArg (State.task · c.pe c.slot) (if_pos h)).trans (task_setTask_same ..)

/-- An atomic for a module that no link leads to fails with a LINK_DOWN record and status 3. -/
theorem performCmd_ratom_unreachable {s : State} {core k : Nat} {c : Cmd} (hop : c.op = .ratom) (hr : s.isRemote c = true)
    (hm : s.reachable c.modl = false) :
    s.performCmd core k c =
      (s.cometPost (c.asker core) (s.linkDownRecord c.dom c.disp c.modl)).answerCmd core k c (ratomWord 0 3) none := by
  simp only [State.performCmd, hop, hr, State.sendAtom, hm, Bool.false_eq_true, if_true, if_false]

/-- The result of a request answers the command that sent it. -/
theorem endAtom_answers {s t : State} {r : RAtom} {st k : Nat} {c : Cmd}
    (ht : t = { s with fab := { s.fab with ratoms := s.fab.ratoms.filter fun x => x ≠ r } })
    (hk : (s.cmdq r.core).findIdx? (fun c => decide (c.op = .ratom) && c.sent && decide (c.order = r.order)) = some k)
    (hc : (s.cmdq r.core)[k]? = some c) (hst : st ≠ 2) (old : BitVec 64) :
    s.endAtom r old st = t.answerCmd r.core k c (ratomWord (if st = 0 then old.toNat else 0) st) none := by
  have hq : t.cmdq r.core = s.cmdq r.core := by rw [ht]; rfl
  rw [State.endAtom, ← ht]
  simp only [hst, if_false, hq, hk, hc, Option.getD_some]

/-- A response of a module goes to the request that it answers. -/
theorem exec_remoteAtomicResponse_found {f : BitVec 512} {r : RAtom} {s : State} (ht : (Header.ofBits f).type = 5)
    (hd : (Header.ofBits f).dmod = s.fab.moduleId)
    (hr : (s.fab.ratoms.find? fun r => decide (r.modl = (Header.ofBits f).smod) && decide (r.seq = bitsOf 496 16 f) &&
      decide (r.slink = bitsOf 492 4 f)) = some r) :
    exec (.remoteAtomicResponse f) s = .next (s.endAtom r (f.extractLsb' 64 64) (bitsOf 490 2 f)) := by
  rw [exec_remoteAtomicResponse, execRemoteAtomicResponse]
  simp only [ht, hd, State.atomResponse, hr, decide_true, Bool.and_self, if_true]

section
variable {k : Nat} {r : RAtom} {s : State}

/-- A request that has had no response for 2^17 cycles is sent again, or ends. -/
theorem exec_ratomResendTimeout_due (hr : s.fab.ratoms[k]? = some r) (hd : r.sentAt + 2 ^ 17 ≤ s.now) :
    exec (.ratomResendTimeout k) s = .next (s.resendAtom r) := by
  rw [exec_ratomResendTimeout, execRatomResendTimeout]
  simp only [hr, hd, if_true]

/-- Without a link, or after three resends, its result is unknown. -/
theorem resendAtom_ends (h : s.currentLink r.modl = none ∨ 3 ≤ r.resends) : s.resendAtom r = s.endAtom r 0 2 := by
  rw [State.resendAtom]
  cases hl : s.currentLink r.modl with
  | none => rfl
  | some l => exact if_pos (h.resolve_left (by simp [hl]))

theorem resendAtom_again {l : Nat} (hl : s.currentLink r.modl = some l) (hn : r.resends < 3) :
    s.resendAtom r = ({ s with fab := { s.fab with ratoms := s.fab.ratoms.map fun x =>
      if x = r then { r with resends := r.resends + 1, sentAt := s.now, link := l } else x } } : State).sendFlits l 0 [r.flit] := by
  simp only [State.resendAtom, hl, Nat.not_le.mpr hn, if_false]

end

/-! ## Exchange writes at their target (R300, R482, R486, R487) -/

section
variable {smod dom tid place : Nat} {bs : List Byte} {raw : Bool} {form : ExchForm} {s t : State}

/-- An exchange write of another module is acknowledged with how it ended. -/
theorem exec_remoteExchangeWrite_other {r : Option Word} (hm : smod ≠ s.fab.moduleId)
    (hw : (s.openVal 0x486).2.remoteWrite dom tid (place % 2 ^ 64) (place / 2 ^ 64) bs raw form = (r, t)) :
    exec (.remoteExchangeWrite smod dom tid place bs raw form) s =
      .next (t.exchAck { t.header 0 7 0 7 3 3 0 dom ((s.openVal 0x486).1 % 4096) with dmod := smod } r) := by
  rw [exec_remoteExchangeWrite, execRemoteExchangeWrite]
  simp only [decide_eq_false hm, hw, Bool.false_eq_true, if_false]

variable {coords start : Nat} {ps : List Piece}

theorem remoteWrite_unresolved {r : Word} (h : s.remoteResolve (remoteAsker dom) tid coords start bs.length = (.inr r, t)) :
    s.remoteWrite dom tid coords start bs raw form = (some r, t) := by
  simp only [State.remoteWrite, h]

/-- A write that is not raw, or reaches whole frames here too, is stored. -/
theorem remoteWrite_stores (h : s.remoteResolve (remoteAsker dom) tid coords start bs.length = (.inl ps, t))
    (hp : form.pattern = false) (hw : raw = false ∨ wholePieces ps = true) :
    s.remoteWrite dom tid coords start bs raw form = (none, if raw then t.writeForms (remoteAsker dom) ps form.units bs
      else t.hbmWrite (remoteAsker dom) ps bs) := by
  have hgo : (raw && !false && !wholePieces ps) = false := by obtain hw | hw := hw <;> simp [hw]
  simp only [State.remoteWrite, h, hgo, State.remoteStore, hp, Bool.false_eq_true, if_false]

/-- A raw write must reach whole frames. -/
theorem remoteWrite_partFrame (h : s.remoteResolve (remoteAsker dom) tid coords start bs.length = (.inl ps, t))
    (hp : form.pattern = false) (hw : wholePieces ps = false) :
    s.remoteWrite dom tid coords start bs true form = (some ((XFail.reason 2).record t (remoteAsker dom)), t) := by
  simp only [State.remoteWrite, h, hp, hw, Bool.not_false, Bool.and_self, if_true]

end

/-! ## A remote atomic at its target (R488, R489) -/

section
variable {dom fmt aop tid coords operand : Nat} {s t u : State}

/-- A context that is not ACTIVE performs nothing. -/
theorem performAtom_inactive (h : (s.ctx dom).cst ≠ 1) : s.performAtom dom fmt aop tid coords operand =
    ((3, 0), s.cometPost (remoteAsker dom) ((XFail.reason 8).record s (remoteAsker dom))) := if_pos h

theorem performAtom_active {c : Cmd} {bs : List Byte} (h : (s.ctx dom).cst = 1)
    (hx : s.xlatAtom (remoteAsker dom) { op := .ratom, dom, ca := coords, tids := tid, fmt, aop, data := BitVec.ofNat 256 operand } = (.ok c, t))
    (hr : t.hbmRead (remoteAsker dom) c.src = (.inl bs, u)) :
    s.performAtom dom fmt aop tid coords operand = ((0, BitVec.ofNat 64 (natOfBytes bs)), u.hbmWrite (remoteAsker dom) c.src
      (bytesOfNat (elemBytes fmt) (aluNew fmt aop (natOfBytes bs) (operand % 2 ^ (8 * elemBytes fmt))))) := by
  simp only [State.performAtom, h, ne_eq, not_true_eq_false, if_false, hx, hr]

end

section
variable {f : BitVec 512} {s : State}

theorem exec_remoteAtomicRequest_other (ht : (Header.ofBits f).type = 4) (hd : (Header.ofBits f).dmod = s.fab.moduleId)
    (hs : (Header.ofBits f).smod ≠ s.fab.moduleId) : exec (.remoteAtomicRequest f) s = .next (s.atomRequest f) := by
  rw [exec_remoteAtomicRequest, execRemoteAtomicRequest]
  simp only [ht, hd, hs, decide_true, ne_eq, not_false_eq_true, Bool.and_self, if_true]

/-- A request of an earlier epoch has an unknown result. -/
theorem atomRequest_stale (he : bitsOf 416 32 f ≠ s.sag.bootno.toNat) : s.atomRequest f = s.atomReply f 2 0 := if_pos he

variable (he : bitsOf 416 32 f = s.sag.bootno.toNat)
include he

/-- A request that has been performed is answered as it was. -/
theorem atomRequest_known {e : Nat × Nat × BitVec 64}
    (hf : (s.dedup (12 * (Header.ofBits f).smod + bitsOf 492 4 f)).ids.find? (fun e => decide (e.1 = bitsOf 496 16 f)) = some e) :
    s.atomRequest f = s.atomReply f e.2.1 e.2.2 := by
  simp only [State.atomRequest, he, ne_eq, not_true_eq_false, if_false, hf]

variable {d : Dedup} (hd : s.dedup (12 * (Header.ofBits f).smod + bitsOf 492 4 f) = d) (hn : ∀ e ∈ d.ids, e.1 ≠ bitsOf 496 16 f)
include hd hn

/-- The first request of its link, and one ahead of those performed, is performed and noted. -/
theorem atomRequest_fresh {rst : Nat} {old : BitVec 64} {t : State}
    (ha : d.ids = [] ∨ (1 ≤ (bitsOf 496 16 f + 2 ^ 16 - d.high) % 2 ^ 16 ∧ (bitsOf 496 16 f + 2 ^ 16 - d.high) % 2 ^ 16 ≤ 32767))
    (hp : s.performAtom (Header.ofBits f).dom (bitsOf 487 5 f) (bitsOf 483 4 f) (bitsOf 471 12 f) (bitsOf 128 64 f) (bitsOf 64 64 f) =
      ((rst, old), t)) :
    s.atomRequest f = (t.setDedup (12 * (Header.ofBits f).smod + bitsOf 492 4 f)
      { ids := ((bitsOf 496 16 f, rst, old) :: d.ids).take 256, high := bitsOf 496 16 f }).atomReply f rst old := by
  have hf : (d.ids.find? fun e => decide (e.1 = bitsOf 496 16 f)) = none := by simpa using hn
  have ha' : (d.ids.isEmpty || (decide (1 ≤ (bitsOf 496 16 f + 2 ^ 16 - d.high) % 2 ^ 16) &&
      decide ((bitsOf 496 16 f + 2 ^ 16 - d.high) % 2 ^ 16 ≤ 32767))) = true := by simpa using ha
  simp only [State.atomRequest, he, ne_eq, not_true_eq_false, if_false, hd, hf, ha', if_true, hp]

/-- One behind them has an unknown result. -/
theorem atomRequest_behind (h0 : d.ids ≠ [])
    (ha : (bitsOf 496 16 f + 2 ^ 16 - d.high) % 2 ^ 16 = 0 ∨ 32767 < (bitsOf 496 16 f + 2 ^ 16 - d.high) % 2 ^ 16) :
    s.atomRequest f = s.atomReply f 2 0 := by
  have hf : (d.ids.find? fun e => decide (e.1 = bitsOf 496 16 f)) = none := by simpa using hn
  have ha' : (d.ids.isEmpty || (decide (1 ≤ (bitsOf 496 16 f + 2 ^ 16 - d.high) % 2 ^ 16) &&
      decide ((bitsOf 496 16 f + 2 ^ 16 - d.high) % 2 ^ 16 ≤ 32767))) = false := by
    simp only [Bool.or_eq_false_iff, List.isEmpty_eq_false_iff, Bool.and_eq_false_iff, decide_eq_false_iff_not]
    exact ⟨h0, by omega⟩
  simp only [State.atomRequest, he, ne_eq, not_true_eq_false, if_false, hd, hf, ha', Bool.false_eq_true]

end

/-! ## The fields of a response (R488) -/

theorem packFields_lt : ∀ fs : List (Nat × Nat), packFields fs < 2 ^ (fs.map Prod.fst).sum
  | [] => Nat.one_pos
  | (n, v) :: fs => by
    have hrest := packFields_lt fs
    have hfirst := Nat.mod_lt v (Nat.two_pow_pos n)
    have hle := Nat.mul_le_mul_left (2 ^ n) (Nat.succ_le_of_lt hrest)
    change v % 2 ^ n + 2 ^ n * packFields fs < 2 ^ (n + (fs.map Prod.fst).sum)
    rw [Nat.pow_add]
    rw [Nat.mul_succ] at hle
    omega

theorem Header.pack_lt (h : Header) : h.pack < 2 ^ 64 := by
  rw [Header.pack]
  exact (packFields_lt _).trans_eq (congrArg (2 ^ ·) (by simp))

/-- A flit is its header and its payload's fields, side by side. -/
theorem flitOf_packFields (h : Header) (fs : List (Nat × Nat)) : flitOf h (packFields fs) = BitVec.ofNat 512 (packFields ((64, h.pack) :: fs)) := by
  rw [packFields, Nat.mod_eq_of_lt h.pack_lt]
  rfl

/-- A field of a bit vector is below its width. -/
theorem bitsOf_mod {w : Nat} (lo n : Nat) (v : BitVec w) : bitsOf lo n v % 2 ^ n = bitsOf lo n v := Nat.mod_eq_of_lt (fieldNat_lt ..)

/-- The response copies the request's number, source link and epoch, and brings the status and the old value. -/
theorem atomReply_fields (f : BitVec 512) {rst : Nat} (old : BitVec 64) (s : State) (hr : rst < 4) :
    ∃ x, s.atomReply f rst old = s.sendPacket ((Header.ofBits f).reply 5 0) x ∧
      bitsOf 496 16 x = bitsOf 496 16 f ∧ bitsOf 492 4 x = bitsOf 492 4 f ∧ bitsOf 490 2 x = rst ∧ bitsOf 416 32 x = bitsOf 416 32 f ∧
      x.extractLsb' 64 64 = old := by
  refine ⟨_, rfl, ?_⟩
  rw [flitOf_packFields]
  refine ⟨?seq, ?link, ?status, ?epoch, BitVec.eq_of_toNat_eq ?old⟩
  case seq => exact (bitsOf_packFields (k := 8) rfl (by simp) (by decide)).trans (bitsOf_mod ..)
  case link => exact (bitsOf_packFields (k := 7) rfl (by simp) (by decide)).trans (bitsOf_mod ..)
  case status => exact (bitsOf_packFields (k := 6) rfl (by simp) (by decide)).trans (Nat.mod_eq_of_lt hr)
  case epoch => exact (bitsOf_packFields (k := 4) rfl (by simp) (by decide)).trans (bitsOf_mod ..)
  case old =>
    rw [BitVec.extractLsb'_toNat]
    exact (bitsOf_packFields (k := 1) rfl (by simp) (by decide)).trans (Nat.mod_eq_of_lt old.isLt)

/-- Settles O22, at the requester and at the target. -/
theorem remoteAccesses : Obligations.RemoteAccesses := by
  refine ⟨fun w slot s hr hc => performs_of_fail (exec_ratom w s) hr (if_pos (by simpa using hc)), holds_of_hold exec_ratom fun i h => ?sends,
    holds_of_hold exec_ratom fun i h => ?waits, completes_of_done exec_ratom fun i h => ?answered,
    fun core k c v f s h => task_answerCmd_sent h core k v f, ?unreachable,
    fun r old st k c s hk hc hst => endAtom_answers rfl hk hc hst old, ⟨?unresolved, ?plain, ?rawWhole, ?rawPart⟩,
    fun dom fmt aop tid coords operand s => performAtom_inactive,
    fun dom fmt aop tid coords operand c bs s t u => performAtom_active, ⟨?fresh, ?behind, fun f rst old s => atomReply_fields f old s⟩,
    ?stale, ?known, fun f r s => exec_remoteAtomicResponse_found, ?ends, ?again⟩
  case sends =>
    obtain ⟨hfree, hw, ho⟩ := h
    exact (if_neg (by simp [hfree])).trans ((blockCmd_unsent hw).trans (enqueue_blocking ho))
  case waits =>
    obtain ⟨hfree, hw, ho⟩ := h
    exact (if_neg (by simp [hfree])).trans ((blockCmd_unsent hw).trans (enqueue_shut ho true))
  case answered =>
    obtain ⟨hfree, hw⟩ := h
    exact (if_neg (by simp [hfree])).trans (blockCmd_answered hw)
  case unreachable =>
    intro core k c s hk ht hs ho hw hop hr hm
    rw [exec_cometCommandPerform_ready hk ht hs ho hw (waitsSlice_of_reads (.inr (.inr hop))), performCmd_ratom_unreachable hop hr hm]
  case unresolved =>
    intro smod dom tid at_ bs raw z r t s hm h
    exact exec_remoteExchangeWrite_other hm (remoteWrite_unresolved h)
  case plain =>
    intro smod dom tid at_ bs form ps t s hm hp h
    exact exec_remoteExchangeWrite_other hm (remoteWrite_stores h hp (.inl rfl))
  case rawWhole =>
    intro smod dom tid at_ bs form ps t s hm hp hw h
    exact exec_remoteExchangeWrite_other hm (remoteWrite_stores h hp (.inr hw))
  case rawPart =>
    intro smod dom tid at_ bs form ps t s hm hp hw h
    exact exec_remoteExchangeWrite_other hm (remoteWrite_partFrame h hp hw)
  case fresh =>
    intro f rst old s t ⟨ht, hd, hs, he⟩ hn ha hp
    rw [exec_remoteAtomicRequest_other ht hd hs, atomRequest_fresh he rfl hn ha hp]
  case behind =>
    intro f s ⟨ht, hd, hs, he⟩ hn h0 ha
    rw [exec_remoteAtomicRequest_other ht hd hs, atomRequest_behind he rfl hn h0 ha]
  case stale =>
    intro f s ht hd hs he
    rw [exec_remoteAtomicRequest_other ht hd hs, atomRequest_stale he]
  case known =>
    intro f e s ht hd hs he hf
    rw [exec_remoteAtomicRequest_other ht hd hs, atomRequest_known he hf]
  case ends =>
    intro k r s hr hd h
    rw [exec_ratomResendTimeout_due hr hd, resendAtom_ends h]
  case again =>
    intro k r l s hr hd hl hn
    rw [exec_ratomResendTimeout_due hr hd, resendAtom_again hl hn]

end Sys2Proof.Machine
end

section
/-! PROOFS. The stream and fibre registers, and the lines that they fetch ahead (spec/10 R284, R286 to R293, spec/14 R407). -/
namespace Sys2Proof.Machine

/-! ## Stream registers (R287, R289, R290) -/

section
variable {i : Issue}

/-- An open, ended or poisoned register advances in its turn. -/
theorem advanceStream_taken (hc : i.streamA.st ≠ .closed) (h1 : 1 ≤ i.sb) (h2 : i.sb < 2 ^ 32) :
    i.advanceStream =
      .done ((i.inTurn (streamNum i.w.a)).s.setStream i.core (streamNum i.w.a) (i.streamA.advance i.sb)) :=
  (if_neg hc).trans (if_neg (by simp only [Bool.or_eq_true, decide_eq_true_eq]; omega))

theorem advanceStream_closed (hc : i.streamA.st = .closed) : i.advanceStream = i.illegal 5 := if_pos hc

/-- A register that is not poisoned answers whether it is at its end. -/
theorem endStream_sound (hc : i.streamA.st ≠ .closed) (hp : i.streamA.st ≠ .poisoned) :
    i.endStream = .done ((i.inTurn (streamNum i.w.a)).s.setPredOf i.pe (Issue.predNum i.w.d) (flagPred (decide (i.streamA.st = .atEnd)))) := by
  simp only [Issue.endStream, hc, hp, if_false, decide_false, Bool.or_false]

/-- A poisoned one counts as ended, and leaves its record with the task. -/
theorem endStream_poisoned {r : Word} (hp : i.streamA.st = .poisoned) (hr : i.streamA.prec = some r) :
    i.endStream = .done (i.taintRec ((i.inTurn (streamNum i.w.a)).s.setPredOf i.pe (Issue.predNum i.w.d) 0xFFFFFFFF) r) := by
  simp only [Issue.endStream, hp, hr, reduceCtorEq, if_false, if_true, Option.getD_some]
  rfl

theorem closeStream_taken (hc : i.streamA.st ≠ .closed) :
    i.closeStream = .done (((i.inTurn (streamNum i.w.a)).s.setStream i.core (streamNum i.w.a) {}).unpark (cometOfCore i.core)
      (streamPort i.core (streamNum i.w.a))) := if_neg hc

end

section
variable {ctor : Fields → Instr} {spec : OpSpec}

/-- `SADV` and `FADV`. -/
theorem advances_of_exec (hx : ∀ w s, exec (ctor w) s = runInstr spec w (fun i => i.advanceStream) s) :
    Completes ctor (fun _ => spec) (fun x => x.streamA.st ≠ .closed ∧ 1 ≤ x.sb ∧ x.sb < 2 ^ 32)
        (fun x => (x.inTurn (streamNum x.w.a)).s.setStream x.core (streamNum x.w.a) (x.streamA.advance x.sb)) ∧
      Fails ctor (fun _ => spec) (fun x => x.streamA.st = .closed) Cause.illegalOperand (fun _ => spec.op + 256 * 5) :=
  ⟨completes_of_done hx fun _ ⟨hc, h1, h2⟩ => advanceStream_taken hc h1 h2,
    fails_of_illegal hx (fun _ _ => rfl) fun _ hc => advanceStream_closed hc⟩

/-- `STEND` and `FTEND`. -/
theorem tests_of_exec (hx : ∀ w s, exec (ctor w) s = runInstr spec w (fun i => i.endStream) s) :
    Completes ctor (fun _ => spec) (fun x => x.streamA.st = .opened)
        (fun x => (x.inTurn (streamNum x.w.a)).s.setPredOf x.pe (Issue.predNum x.w.d) 0) ∧
      Completes ctor (fun _ => spec) (fun x => x.streamA.st = .atEnd)
        (fun x => (x.inTurn (streamNum x.w.a)).s.setPredOf x.pe (Issue.predNum x.w.d) 0xFFFFFFFF) ∧
      ∀ r, Completes ctor (fun _ => spec) (fun x => x.streamA.st = .poisoned ∧ x.streamA.prec = some r)
        (fun x => x.taintRec ((x.inTurn (streamNum x.w.a)).s.setPredOf x.pe (Issue.predNum x.w.d) 0xFFFFFFFF) r) := by
  refine ⟨completes_of_done hx fun i h => ?opened, completes_of_done hx fun i h => ?ended,
    fun r => completes_of_done hx fun i ⟨hp, hr⟩ => endStream_poisoned hp hr⟩
  case opened => rw [endStream_sound (by simp [h]) (by simp [h]), h]; rfl
  case ended => rw [endStream_sound (by simp [h]) (by simp [h]), h]; rfl

end

/-- A CLOSED register opens over elements that lie in the tensor. -/
theorem completes_sopen (t : HTensor) (u : State) :
    Completes .sopen (fun _ => { specStream 0xB0 with d := .streamOnly, a := .src, b := .src })
      (fun x => x.sb < 2 ^ 32 ∧ (x.s.stream x.core (streamNum x.w.d)).st = .closed ∧
        (x.inTurn (streamNum x.w.d)).s.descriptor x.asker (fieldNat 0 12 x.imm) = (.inl t, u) ∧
        (t.shape.offset x.sa).isSome = true ∧ t.shape.linear x.sa + x.sb ≤ t.shape.total)
      (fun x => u.setStream x.core (streamNum x.w.d)
        { st := if x.sb = 0 then .atEnd else .opened, tid := fieldNat 0 12 x.imm, shape := t.shape, md := t.md
          beg := t.shape.linear x.sa, len := x.sb }) := by
  refine completes_of_done exec_sopen fun i ⟨hn, hc, hd, ho, ht⟩ => ?_
  have hin : ((t.shape.offset i.sa).isNone || decide (t.shape.total < t.shape.linear i.sa + i.sb)) = false := by
    rw [Option.isNone_eq_false_iff.mpr ho, decide_eq_false (Nat.not_lt.mpr ht), Bool.or_self]
  simp only [Nat.not_le.mpr hn, hc, hd, hin, ne_eq, not_true_eq_false, Bool.false_eq_true, if_false]

theorem streamRegisters : Claims.StreamRegisters := by
  refine ⟨fun w slot s t u hr hn hc hd ho ht => completes_sopen t u w slot s hr ⟨hn, hc, hd, ho, ht⟩,
    fails_of_illegal exec_sopen (fun _ _ => rfl) fun _ ⟨hn, hc⟩ => (if_neg (Nat.not_le.mpr hn)).trans (if_pos hc),
    advances_of_exec exec_sadv, advances_of_exec exec_fadv, tests_of_exec exec_stend, tests_of_exec exec_ftend,
    completes_of_done exec_sclose fun _ => closeStream_taken, completes_of_done exec_fclose fun _ => closeStream_taken, completes_of_done exec_sread fun i h => ?readEnd,
    fun r => completes_of_done exec_sread fun i h => ?readPoisoned, fun v => completes_of_done exec_sread fun i h => ?readWord⟩
  case readEnd =>
    obtain ⟨hv, he⟩ := h
    simp only [hv, he, reduceCtorEq, if_false, Bool.false_and, Bool.false_eq_true]
  case readPoisoned =>
    obtain ⟨hv, hp, hr⟩ := h
    simp only [hv, hp, hr, reduceCtorEq, if_false, Bool.false_and, Bool.false_eq_true, Option.getD_some]
  case readWord =>
    obtain ⟨hv, ho, hw, hb⟩ := h
    simp only [hv, ho, hw, hb, reduceCtorEq, if_false, Bool.false_and, Bool.false_eq_true]

/-! ## Fibres (R291, R292) -/

/-- A CLOSED register whose port is free opens over the coordinates and values between two pointers. -/
theorem completes_fopen (tp ti tv : HTensor) (p q : Nat) (s₁ s₂ s₃ s₄ s₅ : State) :
    Completes .fopen (fun _ => { specStream 0xB4 with
        mods := fun w => w.mod &&& 0b1110 = 0, d := .fibreOnly, a := { Pos.src with chanIn := false, chanOut := false } })
      (fun x => x.w.mod.getLsbD 0 = false ∧ x.sa < 2 ^ 32 ∧ (x.s.stream x.core (streamNum x.w.d)).st = .closed ∧
        (x.s.cometPort x.asker.comet (streamPort x.core (streamNum x.w.d))).parked = none ∧
        (x.inTurn (streamNum x.w.d)).s.fibreTensor x.asker (fieldNat 12 12 x.imm) true = (.inl tp, s₁) ∧
        s₁.fibreTensor x.asker (fieldNat 24 12 x.imm) true = (.inl ti, s₂) ∧
        s₂.fibreTensor x.asker (fieldNat 36 12 x.imm) false = (.inl tv, s₃) ∧ x.sa + 1 < tp.shape.ext0 ∧
        s₃.readPointer x.asker (fieldNat 12 12 x.imm) tp x.sa = (.inl p, s₄) ∧
        s₄.readPointer x.asker (fieldNat 12 12 x.imm) tp (x.sa + 1) = (.inl q, s₅))
      (fun x => s₅.setStream x.core (streamNum x.w.d)
        (fibreOpened (fieldNat 24 12 x.imm) (fieldNat 36 12 x.imm) false ti tv p q ((XFail.reason 2).record s₅ x.asker))) := by
  refine completes_of_done exec_fopen fun i ⟨hv, ha, hc, hk, hp, hi, hvals, hext, hfirst, hnext⟩ => ?_
  simp only [hv, Nat.not_le.mpr ha, hc, hk, hp, hi, hvals, Nat.not_le.mpr hext, hfirst, hnext, ne_eq, not_true_eq_false, Bool.false_eq_true,
    if_false]

/-- Pointers that rise and stay inside both tensors make a sound fibre. -/
theorem fibreOpened_inside {ti tv : HTensor} {p q : Nat} (h : p ≤ q) (hi : q ≤ ti.shape.ext0) (hv : q ≤ tv.shape.ext0) (tidi tidv : Nat)
    (w : Word) :
    let f := fibreOpened tidi tidv false ti tv p q w
    f.beg = p ∧ f.len = q - p ∧ f.st = if p = q then .atEnd else .opened := by
  have hright : (decide (q < p) || decide (ti.shape.ext0 < q) || (!false && decide (tv.shape.ext0 < q))) = false := by
    simp only [Nat.not_lt.mpr h, Nat.not_lt.mpr hi, Nat.not_lt.mpr hv, decide_false, Bool.and_false, Bool.or_self]
  refine ⟨rfl, rfl, ?_⟩
  simp only [fibreOpened, hright, Bool.false_eq_true, if_false]

/-- The merge with which `FISECT` and `FISECTC` begin, and as far as it goes now. -/
def Issue.mergedFibres (i : Issue) (lanes : Bool) : Merge :=
  mergeSteps lanes (i.streamA.len + i.streamB.len + 1) { a := i.streamA, b := i.streamB, count := 0, found := [] }

/-- What a merge leaves of its two registers, each in its turn. -/
def Issue.afterMerge (i : Issue) (m : Merge) : State :=
  (((i.inTurn (streamNum i.w.a)).inTurn (streamNum i.w.b)).s.setStream i.core (streamNum i.w.a) m.a).setStream i.core (streamNum i.w.b) m.b

/-- A merge of two registers that meets no poison and lacks no coordinate answers what it found. -/
theorem intersect_merged {i : Issue} {lanes : Bool} (hw : i.task.wait = .none) (ha : i.streamA.st ≠ .closed) (hb : i.streamB.st ≠ .closed)
    (hne : streamNum i.w.a ≠ streamNum i.w.b) (hpa : (i.mergedFibres lanes).a.st ≠ .poisoned) (hpb : (i.mergedFibres lanes).b.st ≠ .poisoned)
    (hm : (i.mergedFibres lanes).waits = false) :
    i.intersect lanes = .done (if lanes then
        (i.putD (i.afterMerge (i.mergedFibres lanes)) (mkWord 32 8 fun k => ((i.mergedFibres lanes).found.reverse[k]?).getD 0)).setPredOf i.pe
          (Issue.predNum i.w.c) (BitVec.ofNat 32 (2 ^ (i.mergedFibres lanes).found.length - 1))
      else i.putD (i.afterMerge (i.mergedFibres lanes)) (scalarWord (i.mergedFibres lanes).count)) := by
  have hboth : (decide (i.streamB.st = .closed) || decide (streamNum i.w.a = streamNum i.w.b)) = false := by simp [hb, hne]
  unfold Issue.mergedFibres at *
  cases lanes <;> simp only [Issue.intersect, ha, hboth, hw, hpa, hpb, hm, Bool.false_eq_true, if_true, if_false, Issue.afterMerge]

/-! ## Lines are fetched ahead, and return (R284, R288, R343) -/

/-- An open register whose port is free fetches the first line that its window lacks. -/
theorem exec_streamFetch_missing {core reg line : Nat} {s : State} (ho : (s.stream core reg).st = .opened)
    (hp : s.isParked (cometOfCore core) (streamPort core reg) = false) (hl : (s.stream core reg).nextLine false = some line) :
    exec (.streamFetch core reg 0) s = .next ((s.fetchLine core reg false line).touch core) := by
  have hline : (s.stream core reg).nextLine (decide (0 = 1)) = some line := hl
  rw [exec_streamFetch, execStreamFetch]
  simp only [ho, hp, hline]
  rfl

/-- The response to a fetch of coordinates that still waits for it fills its line, and the tile cache, once that can take it. -/
theorem exec_streamFetchReturn_fills {core reg line phys : Nat} {f : Flit} {ds : List Flit} {s t : State} {a : Asker} {h : Half}
    {waits : BitVec 512 → Nat × Nat → Bool} (ha : a = s.askerOf core) (hh : h = (s.stream core reg).half false)
    (hw : waits = fun b x => decide (x.2 = bitsOf 64 64 b ∧ bitsOf 186 32 b = a.disp))
    (ht : s.takePacket a.cluster (1 + a.comet % 2) (fun b => let x := Header.ofBits b
      decide (x.type = 1) && decide (x.tag = fetchTag core reg 0) && ((h.pend.any fun x => decide (x.1 = line) && waits b x) ||
        !(h.pend.any (waits b)))) = (some (f :: ds), t))
    (hp : bitsOf 64 64 f.bits = phys) (hd : bitsOf 186 32 f.bits = a.disp) (hm : (line, phys) ∈ h.pend) (hs : bitsOf 138 2 f.bits = 0)
    (hf : s.sliceFull a.cluster a.dom = false) :
    let d := ((ds.head?).map Flit.bits).getD 0
    exec (.streamFetchReturn core reg 0 line) s =
      .next (((t.setStream core reg ((s.stream core reg).setHalf false (h.fill line (bytesOfNat 64 d.toNat)))).fillTile a
        (bitsOf 154 10 f.bits) (phys / 64) d).touch core) := by
  subst ha hh hw hp
  have hasked : (((s.stream core reg).half false).pend.any fun x =>
      decide (x.1 = line) && decide (x.2 = bitsOf 64 64 f.bits ∧ bitsOf 186 32 f.bits = (s.askerOf core).disp)) = true :=
    List.any_eq_true.mpr ⟨_, hm, by simp [hd]⟩
  have hhalf : decide (0 = 1) = false := rfl
  rw [exec_streamFetchReturn, execStreamFetchReturn]
  simp only [hhalf, ht, hasked, hs, hf, Bool.not_true, Bool.and_false, Bool.false_eq_true, ne_eq, not_true_eq_false, if_false]

theorem fibres : Claims.Fibres := by
  refine ⟨fun w slot s tp s₁ ti s₂ tv s₃ p s₄ q s₅ hr hv ha hc hk hp hi hvals hext h4 h5 =>
      completes_fopen tp ti tv p q s₁ s₂ s₃ s₄ s₅ w slot s hr ⟨hv, ha, hc, hk, hp, hi, hvals, hext, h4, h5⟩,
    fun tidi tidv ti tv p q w h hi hv => fibreOpened_inside h hi hv tidi tidv w,
    completes_of_done exec_fisect fun _ ⟨⟨hw, ha, hb, hne⟩, hpa, hpb, hm⟩ => intersect_merged hw ha hb hne hpa hpb hm,
    completes_of_done exec_fisectc fun _ ⟨⟨hw, ha, hb, hne⟩, hpa, hpb, hm⟩ => intersect_merged hw ha hb hne hpa hpb hm,
    fun core reg line s => exec_streamFetch_missing,
    fun core reg line f ds phys s t ht hp hd hm hs hf => exec_streamFetchReturn_fills rfl rfl rfl ht hp hd hm hs hf⟩

/-- Settles O55: each instruction runs in the frame of `runInstr`, and the state of its registers chooses the branch of its body. -/
theorem streamsAndFibres : Obligations.StreamsAndFibres := ⟨streamRegisters, fibres⟩

end Sys2Proof.Machine
end

section
/-! PROOFS. Memory controllers, parity engines, and uncorrectable tags (spec/10 R301, spec/13 R355, spec/14 R396 to R400, R405, R408). -/
namespace Sys2Proof.Machine

/-! ## Reads and rebuilds (R396, R397, R399) -/

section
variable {cl k line : Nat} {r : CtrlReq} {s t : State}

/-- A controller serves its next read, unless a line of it must be rebuilt. -/
theorem exec_controllerRead_served (ht : s.acceptCtrl cl = t) (hp : t.ctrlPick cl (fun r => !r.write) = some (k, r))
    (hr : t.needsRebuild r = false) : exec (.controllerRead cl) s = .next (t.serveRead cl k r) := by
  rw [exec_controllerRead, execControllerRead]
  simp only [ht, hp, hr, Bool.false_eq_true, if_false]

/-- A read that succeeds is answered with its bytes: up to 16 of them in the header flit. -/
theorem serveRead_good {bs : List Byte} {u : State}
    (h : (s.setCtrlQ cl ((s.ctrlQ cl).take k ++ (s.ctrlQ cl).drop (k + 1))).memRead r.key r.dom r.addr r.len = (.inl bs, u)) :
    s.serveRead cl k r = if bs.length ≤ 16 then u.ctrlReply cl r.hdr 1 r.addr r.id 0 [] (natOfBytes bs)
      else u.ctrlReply cl r.hdr 1 r.addr r.id 0 [BitVec.ofNat 512 (natOfBytes bs)] := by
  simp only [State.serveRead, h]

/-- The read that waits for a line is served when no write is registered to the lines that it needs; until then it waits. -/
theorem exec_parityRebuild_waiting (h : s.rebuildFor line = some (cl, k, r)) :
    exec (.parityRebuild line) s = .next (if (s.storedLines r.addr).any s.writeRegistered then s else s.serveRead cl k r) := by
  rw [exec_parityRebuild, execParityRebuild]
  simp only [h]
  split <;> rfl

/-! ## Writes and atomics (R301, R398, R399) -/

/-- The queue of a controller without the request that it serves. -/
def State.unqueued (s : State) (cl k : Nat) : State := s.setCtrlQ cl ((s.ctrlQ cl).take k ++ (s.ctrlQ cl).drop (k + 1))

/-- A write that no rebuild and no parity engine holds back is served. -/
theorem exec_controllerWrite_plain (ht : s.acceptCtrl cl = t) (hp : t.ctrlPick cl CtrlReq.write = some (k, r)) (ha : r.atom = none)
    (hr : t.needsRebuild r = false) (hf : t.parityFull r.dom (t.mem.lineOf r.addr) = false) :
    exec (.controllerWrite cl) s = .next ((t.unqueued cl k).serveWrite cl r none) := by
  rw [exec_controllerWrite, execControllerWrite]
  simp only [ht, hp, hr, hf, ha, Bool.false_and, Bool.and_false, Bool.or_self, Bool.false_eq_true, if_false]
  rfl

/-- An atomic writes the new value of the one that it reads, which it answers. -/
theorem exec_controllerWrite_atomic {fmt aop : Nat} {bs : List Byte} {v : State} (ht : s.acceptCtrl cl = t)
    (hp : t.ctrlPick cl CtrlReq.write = some (k, r)) (ha : r.atom = some (fmt, aop)) (hr : t.needsRebuild r = false)
    (hf : t.parityFull r.dom (t.mem.lineOf r.addr) = false) (hb : (t.unqueued cl k).memRead r.key r.dom r.addr r.len = (.inl bs, v)) :
    exec (.controllerWrite cl) s = .next (v.serveWrite cl
      { r with data := bytesOfNat r.len (aluNew fmt aop (natOfBytes bs) (natOfBytes r.data)) } (some (natOfBytes bs))) := by
  have hread : (t.unqueued cl k).readAtom r (fmt, aop) = (.inl (natOfBytes bs,
      { r with data := bytesOfNat r.len (aluNew fmt aop (natOfBytes bs) (natOfBytes r.data)) }), v) := by
    simp only [State.readAtom, hb]
  rw [State.unqueued] at hread
  rw [exec_controllerWrite, execControllerWrite]
  simp only [ht, hp, hr, hf, ha, hread, Bool.false_and, Bool.and_false, Bool.or_self, Bool.false_eq_true, if_false]

/-- A registered write whose parity is written has performed. -/
theorem exec_parityUpdate_registered {w : ParityWrite} (h : s.mem.registered[k]? = some w) :
    exec (.parityUpdate k) s = .next
      (({ s with mem := { s.mem with registered := s.mem.registered.take k ++ s.mem.registered.drop (k + 1) } } : State).ackWrite w) := by
  rw [exec_parityUpdate, execParityUpdate]
  simp only [h]

end

/-! ## Uncorrectable tags (R406, R408) -/

/-- A notice that one element of a list posts stays posted, if every element leaves those before it. -/
theorem mem_log_foldl {α : Type} {f : State → α → State} {n : Notice} (hk : ∀ s a, n ∈ s.hub.log → n ∈ (f s a).hub.log) {a : α}
    (hp : ∀ s, n ∈ (f s a).hub.log) : ∀ {xs : List α}, a ∈ xs → ∀ s : State, n ∈ (xs.foldl f s).hub.log
  | x :: xs, ha, s => by
    obtain rfl | ha := List.mem_cons.mp ha
    · exact foldl_keeps (P := fun s : State => n ∈ s.hub.log) hk xs _ (hp s)
    · exact mem_log_foldl hk hp ha _

theorem log_logEvent (s : State) (ring code payload dom origin : Nat) (always : Bool) :
    (s.logEvent ring code payload dom origin always).hub.log = s.hub.log := by
  unfold State.logEvent
  dsimp only
  split <;> rfl

theorem log_foldUp {f : State → Nat → State} (h : ∀ s k, (f s k).hub.log = s.hub.log) (n : Nat) (s : State) :
    (foldUp n s f).hub.log = s.hub.log :=
  foldUp_keeps (P := fun t : State => t.hub.log = s.hub.log) rfl fun t k ht => (h t k).trans ht

/-- Only the PEs and the routers differ: stated for any of them, so that the notices are compared before these. -/
theorem log_of_unit_router {s t : State} (h : s.hub.log = t.hub.log) (u : UnitState) (r : RouterState) :
    ({ s with unit := u, router := r } : State).hub.log = t.hub.log := h

/-- Discarding entries leaves the notices. -/
theorem log_discardEntries (s : State) (code unit : Nat) (doms : List Nat) : (s.discardEntries code unit doms).hub.log = s.hub.log := by
  unfold State.discardEntries
  dsimp only
  split
  case h_1 | h_2 | h_4 | h_5 => split <;> rfl
  case h_3 => exact log_of_unit_router (log_foldUp (fun t k => by split <;> rfl) 512 s) _ _
  all_goals rfl

theorem mem_log_post {s : State} {n m : Notice} (h : n ∈ s.hub.log) : n ∈ (s.post m).hub.log := List.mem_append_left _ h

theorem mem_log_post_self (s : State) (n : Notice) : n ∈ (s.post n).hub.log := List.mem_append_right _ (List.mem_singleton_self n)

section
variable {code die dom : Nat} {holders : List (Nat × Nat)}

theorem mem_log_tagResponse (s : State) {n : Notice} (h : n ∈ s.hub.log) : n ∈ (s.tagResponse code die holders dom).hub.log := by
  unfold State.tagResponse
  split
  · exact foldl_keeps (P := fun s : State => n ∈ s.hub.log) (fun _ _ => mem_log_post) _ _ h
  · exact mem_log_post h

theorem tagResponse_terminates (s : State) (h : dom ≠ 0) :
    .kill dom Cause.poolUe (tagDetail code) (some die) false ∈ (s.tagResponse code die holders dom).hub.log := by
  rw [State.tagResponse, if_neg h]
  exact mem_log_post_self ..

/-- A dispatch that an entry names holds it. -/
theorem mem_zeroHolders (s : State) {disp : Nat} (h : (0, disp) ∈ holders) (hd : disp ≠ noDisp) : disp ∈ s.zeroHolders code die holders := by
  rw [State.zeroHolders, List.mem_eraseDups, List.mem_flatMap]
  refine ⟨disp, List.mem_map.mpr ⟨(0, disp), List.mem_filter.mpr ⟨h, rfl⟩, rfl⟩, ?_⟩
  rw [if_neg hd]
  exact List.mem_singleton_self disp

theorem tagResponse_kills (s : State) {disp : Nat} (h : (0, disp) ∈ holders) (hd : disp ≠ noDisp) :
    .error die 0 disp Cause.poolUe (tagDetail code) .tag ∈ (s.tagResponse code die holders 0).hub.log := by
  rw [State.tagResponse, if_pos rfl]
  refine mem_log_foldl (fun _ _ => mem_log_post) (fun u => ?_) (mem_zeroHolders s h hd) s
  exact mem_log_post_self ..

end

/-- The die that an uncorrectable tag's notices name: that of the structure, or, of one of the hub, the first that is left. -/
def State.tagOrigin (s : State) (code unit : Nat) : Nat :=
  if code = 0x0F then (firstBelow 8 fun d => !s.lostDies.contains d).getD 0 else tagDie code unit

/-- An uncorrectable tag draws a response for every domain on the list of its structure. -/
theorem exec_tagUe_log (code unit : Nat) (s : State) : ∃ t, exec (.tagUe code unit) s = .next t ∧
    t.hub.log = ((((s.occupants code unit).map Prod.fst).eraseDups).foldl
      (fun u d => u.tagResponse code (s.tagOrigin code unit) (s.occupants code unit) d) s).hub.log :=
  ⟨_, rfl, (log_logEvent ..).trans (log_discardEntries ..)⟩

/-- Settles O11: what a controller picks is served when nothing holds it back, and a tag's responses stay among the notices while its entries
are discarded. -/
theorem memoryControllers : Obligations.MemoryControllers := by
  refine ⟨fun cl k r s => exec_controllerRead_served rfl, fun cl k r bs t u => serveRead_good, ?rebuild, ?waits, ?write, ?atomic, ?parity, ?tag⟩
  case rebuild =>
    intro line cl k r s h hw
    rw [exec_parityRebuild_waiting h, hw]
    rfl
  case waits =>
    intro line cl k r s h hl hw
    rw [exec_parityRebuild_waiting h, if_pos (List.any_eq_true.mpr ⟨line, hl, hw⟩)]
  case write =>
    intro cl k r s t hp ha hr hf
    exact exec_controllerWrite_plain rfl hp ha hr hf
  case atomic =>
    intro cl k r fmt aop bs v s t hp ha hr hf hb
    exact exec_controllerWrite_atomic rfl hp ha hr hf hb
  case parity => exact fun k w s => exec_parityUpdate_registered
  case tag =>
    intro code unit s
    obtain ⟨t, he, ht⟩ := exec_tagUe_log code unit s
    refine ⟨t, he, fun dom hd h0 => ⟨s.tagOrigin code unit, ?tenant⟩, fun disp hd hn => ⟨s.tagOrigin code unit, ?supervisor⟩⟩
    case tenant =>
      rw [ht]
      refine mem_log_foldl (fun u _ => mem_log_tagResponse u) (fun u => ?_) (List.mem_eraseDups.mpr hd) s
      exact tagResponse_terminates u h0
    case supervisor =>
      have hlisted : 0 ∈ ((s.occupants code unit).map Prod.fst).eraseDups := List.mem_eraseDups.mpr (List.mem_map_of_mem hd)
      rw [ht]
      refine mem_log_foldl (fun u _ => mem_log_tagResponse u) (fun u => ?_) hlisted s
      exact tagResponse_kills u hd hn

end Sys2Proof.Machine
end

section
/-! PROOFS. The integer steps of a Kiln: lanes with their carries, and the step that completes, traps or waits for a spill (spec/02 R81, R82,
spec/11 R322 to R324). -/
namespace Sys2Proof.Machine

/-! ## A lane and its carries (R81, R82, R322) -/

namespace LaneSum

/-- What lane and carry hold together (R325). -/
def total (x : LaneSum) : Int := x.lane + 2 ^ 24 * (x.entry.getD {}).carry

def invalid (x : LaneSum) : Bool := (x.entry.getD {}).invalid

/-- The lane is an i24. -/
def InLane (x : LaneSum) : Prop := -(2 ^ 23) ≤ x.lane ∧ x.lane < 2 ^ 23

/-- A product that fits the lane's range changes what lane and carry hold by itself, and nothing else. -/
theorem add_product (clim : Nat) {x : LaneSum} {p : Int} (hx : x.InLane) (hp : p.natAbs ≤ 2 ^ 23) :
    (x.add clim (some p)).InLane ∧ (x.add clim (some p)).invalid = x.invalid ∧ (x.add clim (some p)).total = x.total + p := by
  obtain ⟨hlo, hhi⟩ := hx
  have hcarries (d : Int) : 2 ^ 24 * ((x.entry.getD {}).carry + d) = 2 ^ 24 * (x.entry.getD {}).carry + 2 ^ 24 * d := Int.mul_add ..
  simp only [add]
  split_ifs with hup hdown <;> refine ⟨⟨?_, ?_⟩, rfl, ?_⟩ <;> simp only [total, Option.getD_some, hcarries] <;> omega

/-- Adding valid products one after the other keeps the exact sum in lane and carry. -/
theorem foldl_add_products (clim : Nat) : ∀ (ps : List (Option Int)) {x : LaneSum}, x.InLane →
    (∀ p ∈ ps, ∃ v : Int, p = some v ∧ v.natAbs ≤ 2 ^ 23) →
    (ps.foldl (add clim) x).InLane ∧ (ps.foldl (add clim) x).invalid = x.invalid ∧
      (ps.foldl (add clim) x).total = x.total + (ps.map fun p => (p.getD 0 : Int)).sum
  | [], x, hx, _ => ⟨hx, rfl, (Int.add_zero _).symm⟩
  | p :: ps, x, hx, hps => by
    obtain ⟨⟨v, rfl, hv⟩, hrest⟩ := List.forall_mem_cons.mp hps
    obtain ⟨hlane, hinv, hsum⟩ := add_product clim hx hv
    obtain ⟨hlane', hinv', hsum'⟩ := foldl_add_products clim ps hlane hrest
    refine ⟨hlane', hinv'.trans hinv, hsum'.trans ?_⟩
    rw [hsum, List.map_cons, List.sum_cons, Option.getD_some, Int.add_assoc]

end LaneSum

/-! ## Tables from functions -/

section
variable {α : Type} [DecidableEq α] (d : α) (f : Nat → α)

/-- Cells of a function at some keys, without those that hold what an unlisted key reads as. -/
theorem findIn_filterMap (e : Nat) : ∀ es : List Nat,
    Map.findIn d e (es.filterMap fun e => if f e = d then none else some (e, f e)) = if e ∈ es then f e else d
  | [] => rfl
  | j :: es => by
    have ih := findIn_filterMap e es
    by_cases hd : f j = d
    · simp only [List.filterMap_cons, hd, if_true, ih]
      by_cases hj : e = j
      · subst hj; simp [hd]
      · simp [hj]
    · simp only [List.filterMap_cons, hd, if_false, Map.findIn, ih]
      by_cases hj : e = j
      · subst hj; simp
      · simp [hj, Ne.symm hj]

/-- A table made from a function of the elements below n reads as that function there. -/
theorem find_tableOf {n e : Nat} (he : e < n) : (tableOf d n f).find e d = f e :=
  (findIn_filterMap d f e _).trans (if_pos (List.mem_range.mpr he))

end

/-! ## One step of all elements (R322 to R324) -/

namespace SubTile
variable {t : SubTile} {ops : List (List Nat × List Nat)}

/-- The sub-tile with the products of a step added to every element. -/
def added (t : SubTile) (ops : List (List Nat × List Nat)) : SubTile :=
  { t with lanes := tableOf 0 (128 * t.rowCount) fun e => (t.addAt (stepProducts t.rec_ ops) e).lane
           ovf := tableOf none (128 * t.rowCount) fun e => (t.addAt (stepProducts t.rec_ ops) e).entry }

/-- The step stays within the overflow limits of its record (R323). -/
def inLimits (t : SubTile) (ops : List (List Nat × List Nat)) : Bool :=
  decide ((t.added ops).ovf.cells.length ≤ t.rec_.elim) &&
    (firstBelow (128 * t.rowCount) fun e => (t.addAt (stepProducts t.rec_ ops) e).spills).isNone

theorem inLimits_iff : t.inLimits ops = true ↔ (t.added ops).ovf.cells.length ≤ t.rec_.elim ∧
    ∀ e < 128 * t.rowCount, (t.addAt (stepProducts t.rec_ ops) e).spills = false := by
  rw [inLimits, Bool.and_eq_true, decide_eq_true_eq, Option.isNone_iff_eq_none, ← Option.not_isSome_iff_eq_none, firstBelow_isSome_iff]
  simp

/-- No entry of the overflow buffer has an uncorrectable error. -/
def BufferSound (t : SubTile) : Prop := ∀ e < 128 * t.rowCount, ((t.ovf.find e none).elim false OvfEntry.bad) = false

/-- A step of all elements, of a sub-tile whose overflow buffer can be read. -/
theorem intStep_sound (he : t.elem = none) (hb : t.BufferSound) :
    intStep t ops =
      if t.inLimits ops then .inl ((t.added ops).stepped ops.length)
      else if t.rec_.trap then .inr { cause := Cause.ovfFull }
      else if t.again then .inl ((elementWise (stepProducts t.rec_ ops) (128 * t.rowCount) t 0 (128 * t.rowCount)).stepped ops.length)
      else .inl { t with phase := .spilling, again := true } := by
  have hread : (firstBelow (128 * t.rowCount) fun e =>
      (t.ovf.find e none).elim false OvfEntry.bad && (t.addAt (stepProducts t.rec_ ops) e).used).isSome = false := by
    rw [← Bool.not_eq_true, firstBelow_isSome_iff]
    rintro ⟨e, hlt, hbad⟩
    rw [hb e hlt] at hbad
    cases hbad
  unfold intStep
  dsimp only
  split
  · rename_i e h; rw [he] at h; cases h
  · exact if_neg (Bool.eq_false_iff.mp hread)

/-- A step of all elements is over. -/
theorem stepped_whole (he : t.elem = none) (n : Nat) : t.stepped n = { t with k := t.k + n, again := false } := by
  rw [stepped, he]
  rfl

end SubTile

/-- Settles O9: lane and carry keep the exact sum product by product, and a step of all elements is decided by its limits. -/
theorem integerSteps : Obligations.IntegerSteps := by
  refine ⟨fun clim lane e ps hlo hhi hps => ?sum, fun clim x => ⟨rfl, rfl⟩, fun t ops e he hn hb hlen hsp => ?completes,
    fun t ops he hb hover => ?overflows⟩
  case sum =>
    obtain ⟨⟨h1, h2⟩, h3, h4⟩ := LaneSum.foldl_add_products clim ps (x := { lane, entry := e }) ⟨hlo, hhi⟩ hps
    exact ⟨h2, h1, h3, h4⟩
  case completes =>
    have hin : t.inLimits ops = true := SubTile.inLimits_iff.mpr ⟨hlen, hsp⟩
    refine ⟨_, (SubTile.intStep_sound he hb).trans (if_pos hin), ?_⟩
    rw [SubTile.stepped_whole (t := t.added ops) he]
    exact ⟨rfl, rfl, find_tableOf _ _ hn, find_tableOf _ _ hn⟩
  case overflows =>
    have hout : ¬ t.inLimits ops = true := by
      rw [SubTile.inLimits_iff]
      rintro ⟨hlen, hsp⟩
      obtain hlen' | ⟨e, he, hsp'⟩ := hover
      · exact Nat.not_lt.mpr hlen hlen'
      · exact Bool.false_ne_true ((hsp e he).symm.trans hsp')
    rw [SubTile.intStep_sound he hb, if_neg hout]
    refine ⟨fun htrap => ?trap, fun htrap hagain => ?spill⟩
    case trap => exact ⟨_, if_pos htrap, rfl, rfl⟩
    case spill => rw [htrap, hagain]; rfl

end Sys2Proof.Machine
end

section
/-! PROOFS. The instructions of the Kilns: operand slots, records, limits, dependence counters and scaling (spec/11 R312, R332 to R339). -/
namespace Sys2Proof.Machine

/-! ## Operand slots and limits (R332, R333, R337) -/

/-- A run of slots that a task may release: none is FREE, and all are its domain's. -/
theorem releases_of_owned {i : Issue} {a n : Nat}
    (h : ∀ k < n, (i.s.kslot i.cluster (a + k)).st ≠ .free ∧ (i.s.kslot i.cluster (a + k)).dom = i.dom) :
    (firstFrom (fun k => decide ((i.s.kslot i.cluster k).st = .free) || decide ((i.s.kslot i.cluster k).dom ≠ i.dom)) a n).isSome = false := by
  rw [← Bool.not_eq_true, firstFrom_isSome_iff]
  rintro ⟨k, hlo, hhi, hk⟩
  obtain ⟨hst, hdom⟩ := h (k - a) (by omega)
  rw [show a + (k - a) = k by omega] at hst hdom
  simp [hst, hdom] at hk

/-- A slot of the task's domain that no fill and no record uses takes a fill, with the format that its source has at issue. -/
theorem completes_tfill (fmt : Nat) (t : State) :
    Completes .tfill (fun _ => { specKiln 0xC2 with a := .srcNoImm, b := .srcNoImm, xok := fun _ _ imm => decide (fieldNat 13 2 imm < 3) })
      (fun x => let k := x.s.kslot x.cluster x.sa
        x.sa < 128 ∧ k.st ≠ .free ∧ k.st ≠ .filling ∧ k.dom = x.dom ∧ k.relp = false ∧ k.pins = 0 ∧
          x.s.fillFmt x.core (x.s.askerOf x.core) (fieldNat 12 1 x.imm = 1) (fieldNat 0 12 x.imm) = (fmt, t))
      (fun x => t.setKslot x.cluster x.sa
        { x.s.kslot x.cluster x.sa with
          st := .filling, kind := fieldNat 13 2 x.imm, fmt, cause := 0, fpe := x.pe, fslot := x.slot, fdisp := x.disp, ftid := fieldNat 0 12 x.imm
          fpool := fieldNat 12 1 x.imm = 1, fcoord := BitVec.ofNat 64 x.sb, fchecked := false }) := by
  refine completes_of_done exec_tfill fun i ⟨hn, hfree, hfill, hdom, hrel, hpins, hfmt⟩ => ?_
  simp only [Nat.not_le.mpr hn, hfree, hfill, hdom, hrel, hpins, hfmt, ne_eq, not_true_eq_false, decide_false, Bool.or_self,
    Bool.false_eq_true, if_false]

/-- The two limits of `OVFCFG`, as its operand holds them. -/
theorem limits_of_operand {v e c : Nat} (hv : v = e + 2 ^ 16 * c) (he : e ≤ 256) (hc : c ≤ 127) :
    fieldNat 0 9 v = e ∧ fieldNat 16 7 v = c ∧ v % 512 = e ∧ v / 2 ^ 16 = c := by
  simp only [fieldNat]
  omega

theorem kilnInstructions : Claims.KilnInstructions := by
  refine ⟨completes_of_done exec_tclaim fun i h => ?noRun, fun a => completes_of_done exec_tclaim fun i h => ?claims,
    completes_of_done exec_trel fun i h => ?releases, fun w sl s fmt t hr hn hfree hfill hdom hrel hpins hfmt => ?fills,
    completes_of_done exec_ttask fun i h => if_neg (Nat.not_le.mpr h), holds_of_hold exec_ttask fun i h => if_pos h,
    completes_of_done exec_ovfcfg fun i h => ?limits, writesLanes_perLane exec_scacc fun w i hw _ _ => ?scacc,
    writesLanes_perLane exec_scale fun w i hw _ _ => ?scale⟩
  case noRun | claims =>
    obtain ⟨hlo, hhi, hrun⟩ := h
    refine (if_neg (by simp only [Bool.or_eq_true, decide_eq_true_eq]; omega)).trans ?_
    simp only [hrun]
  case releases =>
    obtain ⟨ha, hb, hlen, hown⟩ := h
    refine (if_neg (Nat.not_le.mpr ha)).trans ((if_neg ?_).trans (if_neg ?_))
    · simp only [Bool.or_eq_true, decide_eq_true_eq]; omega
    · exact Bool.eq_false_iff.mp (releases_of_owned hown)
  case fills => exact completes_tfill fmt t w sl s hr ⟨hn, hfree, hfill, hdom, hrel, hpins, hfmt⟩
  case limits =>
    obtain ⟨e, c, hv, he, he', hc, hc'⟩ := h
    obtain ⟨h1, h2, h3, h4⟩ := limits_of_operand hv he' hc'
    simp only [h1, h2, h3, h4]
    exact if_neg (by simp only [Bool.or_eq_true, decide_eq_true_eq]; omega)
  case scacc | scale => subst hw; rfl

/-! ## Dependence counters (R312, R335, R336, R338) -/

theorem kctr_setDep (s : State) (cl n : Nat) (c : KCtr) : (s.setDep cl n c).kctr cl n = c := kctr_setKctr_same s cl n c

/-- Setting a counter leaves a record of the cluster as it is, or no longer ready. -/
theorem krecs_setDep (s : State) (cl n : Nat) (c : KCtr) : (s.setDep cl n c).krecs cl =
    (s.krecs cl).map fun r => if (s.setKctr cl n c).recReady cl r then r else { r with readyAt := none } := krecs_setKrecs_same ..

theorem kilnCounters : Claims.KilnCounters := by
  refine ⟨completes_of_done exec_twait fun i h => ?passes, holds_of_hold exec_twait fun i h => ?waits,
    completes_of_done exec_tdep fun i h => if_neg (Nat.not_le.mpr h), completes_of_done exec_tdepAdd fun i h => if_neg (Nat.not_le.mpr h),
    fun cl n c s _ => ⟨kctr_setDep s cl n c, ?words, ?ready⟩, completes_of_done exec_tstat fun i h => ?reads⟩
  case passes =>
    obtain ⟨hlo, hhi, hcount, hok⟩ := h
    refine (if_neg ?_).trans ((if_neg (Nat.not_lt.mpr hcount)).trans ?_)
    · simp only [Bool.or_eq_true, decide_eq_true_eq]; omega
    · simp only [KCtr.status, hok, Bool.false_eq_true, if_false]
  case waits =>
    obtain ⟨hlo, hhi, hcount⟩ := h
    refine (if_neg ?_).trans (if_pos hcount)
    simp only [Bool.or_eq_true, decide_eq_true_eq]; omega
  case words =>
    rw [krecs_setDep, List.map_map]
    refine List.map_congr_left fun r _ => ?_
    simp only [Function.comp]
    split <;> rfl
  case ready =>
    intro r hr hne
    rw [krecs_setDep] at hr
    obtain ⟨r', hr', rfl⟩ := List.mem_map.mp hr
    by_cases hready : (s.setKctr cl n c).recReady cl r' = true
    · rwa [if_pos hready]
    · rw [if_neg hready] at hne
      exact absurd rfl hne
  case reads => simp only [Nat.ne_of_lt h, if_false]

/-- Settles O56: each instruction runs in the frame of `runInstr` or writes the lanes of `FMT`, and its conditions choose the branch of its
body. -/
theorem kilnControl : Obligations.KilnControl := ⟨kilnInstructions, kilnCounters⟩

end Sys2Proof.Machine
end

section
/-! PROOFS. What the Kilns and their schedulers do: issue, start, steps, spills, drains, completion, migration and fills (spec/11 R313, R316,
R317, R322 to R328, R333). -/
namespace Sys2Proof.Machine

/-! ## Issue and start (R316, R321, R327) -/

/-- A record of which one more sub-tile runs. -/
def KRec.issued (r : KRec) : KRec := { r with next := r.next + 1, running := r.running + 1 }

section
variable {cl n k : Nat} {r : KRec} {t : SubTile} {s : State}

theorem exec_kilnSubtileIssue_ready (ho : s.oldestReady cl = some n) (hk : s.freeKiln cl = some k) (hr : (s.krecs cl)[n]? = some r)
    (hf : s.failedSlot cl r = none) : exec (.kilnSubtileIssue cl) s =
      .next (((s.putRec cl n r.issued).setKiln k (some { home := cl, rec_ := r.issued, s := r.next })).touch (coreOfPe r.pe)) := by
  rw [exec_kilnSubtileIssue, execKilnSubtileIssue]
  simp only [ho, hk, hr, hf, Option.getD_some, Option.isSome_none, Bool.false_eq_true, if_false]
  rfl

theorem exec_kilnRecordFailReady_failed (ho : s.oldestReady cl = some n) (hr : (s.krecs cl)[n]? = some r) (hf : s.failedSlot cl r = some k) :
    exec (.kilnRecordFailReady cl) s = .next (s.putRec cl n { r with
      failure := some (s.kilnRecord cl (r.gran % 4) (s.kslot cl k).cause r.dom r.disp (kilnDetail r.next false 0 r.enq 0)) }) := by
  rw [exec_kilnRecordFailReady, execKilnRecordFailReady]
  simp only [ho, hr, hf, Option.getD_some]

/-- Lanes start at zero, and so do the accumulators of a record that overwrites. -/
theorem exec_kilnSubtileStart_zero (hk : s.kiln k = some t) (hp : t.phase = .issued) (ha : t.rec_.isInt = true ∨ t.rec_.acc = false) :
    exec (.kilnSubtileStart k) s = .next (s.setKiln k (some { t with phase := .computing })) := by
  have hz : (t.rec_.isInt || !t.rec_.acc) = true := by simpa using ha
  rw [exec_kilnSubtileStart, execKilnSubtileStart]
  simp only [hk, hp, hz, ne_eq, not_true_eq_false, if_false, if_true]

/-- Floating-point accumulators of a record that accumulates start from the destination. -/
theorem exec_kilnSubtileStart_read {vs : List Nat} {u : State} (hk : s.kiln k = some t) (hp : t.phase = .issued) (hi : t.rec_.isInt = false)
    (ha : t.rec_.acc = true) (hr : s.readAcc t = (.inl vs, u)) : exec (.kilnSubtileStart k) s =
      .next (u.setKiln k (some { t with phase := .computing, acc := tableOf 0 (128 * t.rowCount) fun e => (vs[e]?).getD 0 })) := by
  rw [exec_kilnSubtileStart, execKilnSubtileStart]
  simp only [hk, hp, hi, ha, hr, ne_eq, not_true_eq_false, if_false, Bool.not_true, Bool.or_self, Bool.false_eq_true]

end

/-! ## Steps (R305, R319, R322 to R324) -/

section
variable {k : Nat} {t u : SubTile} {x y : List Nat × List Nat} {f : StepFail} {s : State} (hk : s.kiln k = some t) (hp : t.phase = .computing)
include hk hp

theorem exec_kilnStep_float (hlt : t.k < t.rec_.k) (hb : t.rec_.bf ≠ 13) (hi : t.rec_.isInt = false)
    (hx : s.stepOperands (k / 4) t t.k = .inl x) :
    exec (.kilnStep k) s = .next ((s.touch (coreOfPe t.rec_.pe)).setKiln k (some (floatStep t x.1 x.2))) := by
  rw [exec_kilnStep, execKilnStep]
  simp [hk, hp, Nat.not_le.mpr hlt, hb, hi, hx]

theorem exec_kilnStep_int (hlt : t.k < t.rec_.k) (hb : t.rec_.bf ≠ 13) (hi : t.rec_.isInt = true)
    (hx : s.stepOperands (k / 4) t t.k = .inl x) (hu : intStep t [x] = .inl u) :
    exec (.kilnStep k) s = .next ((s.touch (coreOfPe t.rec_.pe)).setKiln k (some u)) := by
  rw [exec_kilnStep, execKilnStep]
  simp [hk, hp, Nat.not_le.mpr hlt, hb, hi, hx, hu]

/-- A step of trits takes two k where two are left. -/
theorem exec_kilnStep_trits (hlt : t.k + 1 < t.rec_.k) (hb : t.rec_.bf = 13) (hi : t.rec_.isInt = true)
    (hx : s.stepOperands (k / 4) t t.k = .inl x) (hy : s.stepOperands (k / 4) t (t.k + 1) = .inl y) (hu : intStep t [x, y] = .inl u) :
    exec (.kilnStep k) s = .next ((s.touch (coreOfPe t.rec_.pe)).setKiln k (some u)) := by
  have hle : ¬ t.rec_.k ≤ t.k := by omega
  rw [exec_kilnStep, execKilnStep]
  simp [hk, hp, hle, hlt, hb, hi, hx, hy, hu]

theorem exec_kilnStep_fails (hlt : t.k < t.rec_.k) (hx : s.stepOperands (k / 4) t t.k = .inr f) :
    exec (.kilnStep k) s = .next (s.failSub k t f) := by
  rw [exec_kilnStep, execKilnStep]
  simp [hk, hp, Nat.not_le.mpr hlt, hx]

end

/-! ## Spills and drains (R321, R324, R325, R328) -/

/-- A sub-tile has drained: its Kiln is free, its copies of slots too, and its record counts it. -/
def State.subDrained (s : State) (k : Nat) (t : SubTile) : State :=
  (((s.setKiln k none).freeCopies k t).updRec t fun x => { x with running := x.running - 1, drained := x.drained + 1 }).touch (coreOfPe t.rec_.pe)

section
variable {k : Nat} {t : SubTile} {s : State} (hk : s.kiln k = some t)
include hk

/-- A spill writes the rows and leaves lanes and buffer empty. -/
theorem exec_kilnSpillEnd_spilled (hp : t.phase = .spilling) (hb : t.bufferBad = false) : ∃ u, exec (.kilnSpillEnd k) s = .next u ∧
    u.kiln k = some { t with phase := .computing, lanes := {}, ovf := {}, spilled := true } ∧ u.core.pool = (s.intRows t).2.core.pool := by
  rw [exec_kilnSpillEnd, execKilnSpillEnd]
  simp only [hk, hp, hb, ne_eq, not_true_eq_false, if_false, Bool.false_eq_true]
  exact ⟨_, rfl, kiln_setKiln_same .., rfl⟩

theorem exec_kilnDrain_without_amax (hp : t.phase = .computing) (hle : t.rec_.k ≤ t.k) (ha : t.rec_.amen = false) (hb : t.bufferBad = false) :
    exec (.kilnDrain k) s = .next ((if t.rec_.isInt then (s.intRows t).2 else s.floatRows t).subDrained k t) := by
  rw [exec_kilnDrain, execKilnDrain]
  simp only [hk, hp, hb, Nat.not_lt.mpr hle, State.mergeAmax, ha, ne_eq, not_true_eq_false, decide_false, Bool.or_self, Bool.not_false,
    Bool.false_eq_true, if_false, if_true]
  split <;> rfl

end

/-! ## Completion (R313) -/

/-- A record that has drained signals its counter. -/
theorem exec_kilnRecordComplete_drained {cl n : Nat} {r : KRec} {s : State} (hr : (s.krecs cl)[n]? = some r) (h0 : r.running = 0)
    (hf : r.failure = none) (hd : r.drained = r.total) (hs : r.sen = true) (ho : r.sctrOk = true) (hc : r.cport = 0) :
    let t := (s.setKrecs cl (dropAt n (s.krecs cl))).unpin cl r.pinned
    exec (.kilnRecordComplete cl n) s = .next ((t.setKctr cl r.sctr { t.kctr cl r.sctr with
      count := Nat.min ((t.kctr cl r.sctr).count + 1) 65535
      record := if (t.kctr cl r.sctr).failed then (t.kctr cl r.sctr).record else (t.kctr cl r.sctr).record.or none }).touch (coreOfPe r.pe)) := by
  rw [exec_kilnRecordComplete, execKilnRecordComplete]
  simp only [hr, h0, hf, hd, hs, ho, hc, ne_eq, not_true_eq_false, decide_false, Bool.and_false, Bool.or_self, Bool.false_and, Bool.and_self,
    Bool.false_eq_true, if_false, if_true, Option.isSome_none, Bool.or_false]

/-! ## Migration (R317) -/

/-- Values copied to other keys of a table are read there. -/
theorem find_putList_getList {α : Type} [DecidableEq α] (m : Map α) (d : α) (a b : Nat) {i n : Nat} (h : i < n) :
    (Map.putList d b (m.getList d a n) m).find (b + i) d = m.find (a + i) d := by
  have hlen : i < (m.getList d a n).length := by rwa [Map.getList_eq, List.length_map, List.length_range]
  rw [Map.find_putList_inside d _ _ _ hlen]
  simp only [Map.getList_eq, List.getElem_map, List.getElem_range]

section
variable {cl c n k : Nat} {r : KRec} {s : State}

theorem getElem?_krecs_noteReady (h : (s.krecs cl)[n]? = some r) : ((s.noteReady cl).krecs cl)[n]? = some ({ r with
    readyAt := if s.recReady cl r && decide (r.next < r.total) then r.readyAt.or (some s.now) else none } : KRec) := by
  rw [State.noteReady, krecs_setKrecs_same, List.getElem?_map, h]
  rfl

theorem exec_kilnSubtileMigrate_idle (h : (s.noteReady cl).oldestWaiting cl = none) :
    exec (.kilnSubtileMigrate cl) s = .next (s.noteReady cl) := by
  rw [exec_kilnSubtileMigrate, execKilnSubtileMigrate]
  simp only [h]

/-- A neighbour is chosen among those of the mesh, and of its slots those that are FREE. -/
theorem mem_of_migrationTarget {slots : Nat} {free : List Nat} (h : s.migrationTarget cl slots = some (c, free)) :
    c ∈ clusterNeighbours cl ∧ ∀ x ∈ free, (s.kslot c x).st = .free := by
  obtain ⟨c', hc, he⟩ := Option.map_eq_some_iff.mp h
  obtain ⟨rfl, rfl⟩ := Prod.mk.inj he
  exact ⟨List.mem_of_find?_eq_some hc, fun x hx => of_decide_eq_true (List.mem_filter.mp hx).2⟩

/-- Which Kilns are free depends on the Kilns alone. -/
theorem freeKiln_congr {t : State} (h : t.cluster.kilns = s.cluster.kilns) (c : Nat) : t.freeKiln c = s.freeKiln c := by
  simp only [State.freeKiln, State.kiln, h]

/-- The slots of a sub-tile, copied one after the other. -/
def State.copySlots (s : State) (r : KRec) (cl c : Nat) (ps : List (Nat × Nat)) : State := ps.foldl (fun s p => s.copySlot r cl p.1 c p.2) s

theorem kilns_copySlot (s : State) (r : KRec) (cl m c m' : Nat) : (s.copySlot r cl m c m').cluster.kilns = s.cluster.kilns := by
  rw [State.copySlot, setKslot_cluster_kilns]

theorem kilns_copySlots (r : KRec) (cl c : Nat) : ∀ (ps : List (Nat × Nat)) (s : State),
    (s.copySlots r cl c ps).cluster.kilns = s.cluster.kilns
  | [], _ => rfl
  | p :: ps, s => (kilns_copySlots r cl c ps _).trans (kilns_copySlot s r cl p.1 c p.2)

/-- The lowest unissued sub-tile of the oldest record that has waited long enough runs at a neighbour, on copies of its slots. -/
theorem exec_kilnSubtileMigrate_moves {u v : State} {free : List Nat} {ps : List (Nat × Nat)} (hu : s.noteReady cl = u)
    (hw : u.oldestWaiting cl = some n) (hr : (u.krecs cl)[n]? = some r) (hhome : u.freeKiln cl = none) (hf : u.failedSlot cl r = none)
    (ht : u.migrationTarget cl (r.subSlots r.next).length = some (c, free)) (hk : u.freeKiln c = some k)
    (hps : (r.subSlots r.next).zip free = ps) (hv : u.copySlots r cl c ps = v) :
    exec (.kilnSubtileMigrate cl) s = .next ((((v.putRec cl n r.issued).setKstat
      { v.kstat cl r.dom r.disp with migr := Nat.min ((v.kstat cl r.dom r.disp).migr + 1) 255 }).setKiln k
      (some { home := cl, rec_ := r.issued, s := r.next, migrated := true, slots := ps })).touch (coreOfPe r.pe)) := by
  have hfree (r' : KRec) (x : KStat) : ((v.putRec cl n r').setKstat x).freeKiln c = some k :=
    (freeKiln_congr (show v.cluster.kilns = u.cluster.kilns from hv ▸ kilns_copySlots ..) c).trans hk
  subst hps
  rw [State.copySlots] at hv
  rw [exec_kilnSubtileMigrate, execKilnSubtileMigrate]
  simp only [hu, hw, hr, hhome, hf, ht, hv, Option.getD_some, Option.isSome_none, Bool.or_self, Bool.false_eq_true, if_false, hfree]
  rfl

theorem opmem_copySlot (s : State) (r : KRec) (cl m c m' : Nat) : (s.copySlot r cl m c m').cluster.opmem =
    Map.putList 0 (2 ^ 15 * (128 * c + m')) (s.cluster.opmem.getList 0 (2 ^ 15 * (128 * cl + m)) 32768) s.cluster.opmem := by
  rw [State.copySlot, setKslot_cluster_opmem]

theorem mem_copySlot (s : State) (r : KRec) (cl m c m' : Nat) : (s.copySlot r cl m c m').mem = s.mem := by
  rw [State.copySlot, setKslot_mem]

theorem core_copySlot (s : State) (r : KRec) (cl m c m' : Nat) : (s.copySlot r cl m c m').core = s.core := by
  rw [State.copySlot, setKslot_core]

/-- A copied slot has the state of the original, for the record alone. -/
theorem kslot_copySlot (s : State) (r : KRec) (cl m c m' : Nat) : (s.copySlot r cl m c m').kslot c m' =
    { s.kslot cl m with dom := r.dom, disp := r.disp, pins := 1, relp := false } := by
  rw [State.copySlot, kslot_setKslot_same]
  simp only [State.kslot]

/-- It holds the bytes of the original. -/
theorem opByte_copySlot (s : State) (r : KRec) (cl m c m' : Nat) {j : Nat} (hj : j < 32768) :
    (s.copySlot r cl m c m').opByte c m' j = s.opByte cl m j := by
  rw [State.opByte, opmem_copySlot]
  exact find_putList_getList _ _ _ _ hj

end

/-! ## Fills (R333) -/

section
variable {cl n : Nat} {s : State}

theorem exec_tfillSourceCheck_pool {t : PoolTensor} (hst : (s.kslot cl n).st = .filling) (hc : (s.kslot cl n).fchecked = false)
    (hp : (s.kslot cl n).fpool = true) (ht : s.poolTensor (s.kslot cl n).core (s.kslot cl n).ftid = some t)
    (hf : fillFits (s.kslot cl n).kind t.shape = true) :
    exec (.tfillSourceCheck cl n) s = .next (s.setKslot cl n { s.kslot cl n with fchecked := true, fmt := t.fmt }) := by
  rw [exec_tfillSourceCheck, execTfillSourceCheck]
  simp only [hst, hc, hp, ht, hf, ne_eq, not_true_eq_false, decide_false, Bool.or_self, Bool.false_eq_true, if_false, if_true]

/-- A slot whose release is not pending stays with its domain at the end of a fill. -/
theorem endFill_kept {st : SlotSt} {cause : Nat} (hr : (s.kslot cl n).relp = false) :
    s.endFill cl n st cause = s.setKslot cl n { s.kslot cl n with st, cause } := by
  simp only [State.endFill, hr, Bool.false_and, Bool.false_eq_true, if_false]

/-- The block of a fill in its slot, whose words are sound again. -/
def State.putBlock (s : State) (cl n : Nat) (bs : List Byte) : State :=
  { s with cluster := { s.cluster with opmem := Map.putList 0 (2 ^ 15 * (128 * cl + n)) bs s.cluster.opmem
                                       opBad := s.cluster.opBad.filter fun w => !decide (w / 4096 = 256 * cl + n) } }

theorem opByte_putBlock {bs : List Byte} {j : Nat} (hj : j < bs.length) : (s.putBlock cl n bs).opByte cl n j = bs.getD j 0 :=
  (Map.find_putList_inside 0 bs _ _ hj).trans (List.getD_eq_getElem bs 0 hj).symm

theorem runFill_bytes {k : KSlot} {bs : List Byte} {t : State} (hb : s.fillBlock cl k = (.bytes bs, t)) :
    s.runFill cl n k = (t.putBlock cl n bs).endFill cl n .full 0 := by
  rw [State.runFill, hb]
  rfl

/-- A fill of a pool source that has been read puts its block in the slot, which is FULL. -/
theorem exec_tfillComplete_pool {bs : List Byte} {t : State} (hst : (s.kslot cl n).st = .filling) (hc : (s.kslot cl n).fchecked = true)
    (hp : (s.kslot cl n).fpool = true) (hb : s.fillBlock cl (s.kslot cl n) = (.bytes bs, t)) (hr : (t.kslot cl n).relp = false) :
    ∃ u, exec (.tfillComplete cl n) s = .next u ∧ (u.kslot cl n).st = .full ∧ (u.kslot cl n).cause = 0 ∧
      (∀ j < bs.length, u.opByte cl n j = bs.getD j 0) ∧ u.mem = t.mem ∧ u.core.pool = t.core.pool := by
  have hrun : exec (.tfillComplete cl n) s = .next ((s.runFill cl n (s.kslot cl n)).touch (s.kslot cl n).core) := by
    rw [exec_tfillComplete, execTfillComplete]
    simp only [hst, hc, hp, ne_eq, not_true_eq_false, decide_false, Bool.not_true, Bool.false_and, Bool.or_self, Bool.false_eq_true, if_false]
  have hslot : ((t.putBlock cl n bs).kslot cl n).relp = false := hr
  rw [runFill_bytes hb, endFill_kept hslot] at hrun
  refine ⟨_, hrun, ?_, ?_, fun j hj => opByte_putBlock hj, rfl, rfl⟩ <;> exact congrArg _ (kslot_setKslot_same ..)

end

theorem operandFills : Claims.OperandFills := by
  refine ⟨fun cl n t s => exec_tfillSourceCheck_pool, fun cl n bs t s hst hc hp hb hr => ?_⟩
  obtain ⟨u, he, hfull, hcause, hbytes, hmem, hpool⟩ := exec_tfillComplete_pool hst hc hp hb hr
  exact ⟨u, he, hfull, hcause, fun j hj _ => hbytes j hj, hmem, hpool⟩

theorem kilnEvents : Claims.KilnEvents := by
  refine ⟨fun cl n k r s => exec_kilnSubtileIssue_ready, fun cl n k r s => exec_kilnRecordFailReady_failed,
    fun k t s => exec_kilnSubtileStart_zero, fun k t x s => exec_kilnStep_float, fun k t vs u s => exec_kilnSubtileStart_read,
    fun k t x u s => exec_kilnStep_int, fun k t x y u s => exec_kilnStep_trits, fun k t f s => exec_kilnStep_fails,
    fun k t s => exec_kilnSpillEnd_spilled, fun k t s hk hp hle hi ha hb => ?drainFloat, fun k t s hk hp hle hi ha hb => ?drainInt,
    fun cl n r s => exec_kilnRecordComplete_drained, fun cl s => exec_kilnSubtileMigrate_idle, fun cl n r s => getElem?_krecs_noteReady,
    fun cl n r c free k s hw hr hhome hf ht hk => ?migrates, fun r cl m c m' s => ?copies⟩
  case drainFloat | drainInt => rw [exec_kilnDrain_without_amax hk hp hle ha hb, hi]; rfl
  case migrates =>
    obtain ⟨hnext, hfree⟩ := mem_of_migrationTarget ht
    exact ⟨hnext, hfree, exec_kilnSubtileMigrate_moves rfl hw hr hhome hf ht hk rfl rfl⟩
  case copies =>
    refine ⟨fun j hj _ => opByte_copySlot s r cl m c m' hj, ?_, ?_, ?_, ?_, mem_copySlot .., core_copySlot ..⟩ <;> rw [kslot_copySlot]

/-- Settles O57: each event of a Kiln or its scheduler is decided by the record and the sub-tile that it finds, and a slot that is filled or copied
holds its block byte for byte. -/
theorem kilnRuns : Obligations.KilnRuns := ⟨kilnEvents, operandFills⟩

end Sys2Proof.Machine
end

section
/-! PROOFS. How a die applies the next notice of the hub's order, and the digest that it posts after a TICK (spec/13 R370, R371). -/
namespace Sys2Proof.Machine

/-! ## Applying the next notice (R370, R371) -/

/-- An instruction of its own applies the notice: it is none of those that a die applies on its way to the next one. -/
def Notice.hasStep : Notice → Bool
  | .reset .. | .create .. | .digest .. => false
  | _ => true

/-- A die at a notice that has a step of its own has nothing to catch up on. -/
theorem catchUp_of_hasStep {s : State} {die : Nat} {n : Notice} (h : s.nextNotice die = some n) (hn : n.hasStep = true) :
    ∀ fuel, s.catchUp die fuel = s
  | 0 => rfl
  | fuel + 1 => by
    rw [State.catchUp, h]
    cases n with
    | reset | create | digest => cases hn
    | _ => rfl

theorem applyIf_of_nextNotice {s : State} {die : Nat} {n : Notice} {g : Notice → Option (Work → Work)} {f : Work → Work}
    (h : s.nextNotice die = some n) (hn : n.hasStep = true) (hg : g n = some f) : s.applyIf die g = s.applyTo die f := by
  simp only [State.applyIf, catchUp_of_hasStep h hn, h, Option.bind_some, hg]

/-- A change of the replica that calls for no act leaves all but the replica and the count of the notices applied. -/
theorem applyTo_without_acts {s : State} {die : Nat} {f : Work → Work} (h : (f { sched := (s.dieOf die).sched }).settle.letIn.place.acts = []) :
    s.applyTo die f = s.setDieOf die { s.dieOf die with
      sched := (f { sched := (s.dieOf die).sched }).settle.letIn.place.sched.noteEnds, applied := (s.dieOf die).applied + 1 } := by
  rw [State.applyTo, h]
  rfl

/-- What a notice does to a die is said by what its change makes of the replica that the die holds. -/
theorem applyTo_congr {s : State} {die : Nat} {f : Work → Work} {w : Work} (h : f { sched := (s.dieOf die).sched } = w) :
    s.applyTo die f = s.applyTo die fun _ => w := by
  simp only [State.applyTo, h]

/-- The instruction applies the notice by this change. -/
def Applies (c : Nat → Instr) (n : Notice) (f : Work → Work) : Prop :=
  ∀ die s, s.nextNotice die = some n → exec (c die) s = .next (s.applyTo die f)

section
variable {c : Nat → Instr} {n : Notice} {f : Work → Work}

theorem applies_of_applyIf {g : Notice → Option (Work → Work)} (hc : ∀ die s, exec (c die) s = .next (s.applyIf die g))
    (hn : n.hasStep = true) (hg : g n = some f) : Applies c n f := fun die s h => by
  rw [hc, applyIf_of_nextNotice h hn hg]

/-- On a replica that meets a condition, the change is what it makes of such a replica. -/
theorem Applies.on {held : Sched → Prop} {w : Sched → Work} (h : Applies c n f) (hw : ∀ c, held c → f { sched := c } = w c) (die : Nat)
    (s : State) (hn : s.nextNotice die = some n) (hs : held (s.dieOf die).sched) :
    exec (c die) s = .next (s.applyTo die fun _ => w (s.dieOf die).sched) := by
  rw [h die s hn, applyTo_congr (hw _ hs)]

end

theorem applies_launch (dom : Nat) (p : Packet) (x : Option Nat) : Applies .launchNoticeApply (.launch dom p x) (·.launch dom p) :=
  applies_of_applyIf exec_launchNoticeApply rfl rfl

theorem applies_loaded (d dom disp st : Nat) : Applies .loadedNoticeApply (.loaded d dom disp st) (·.loaded d dom disp st) :=
  applies_of_applyIf exec_loadedNoticeApply rfl rfl

theorem applies_ended (d dom disp : Nat) (e : Bool) (k : Nat) : Applies .endedNoticeApply (.ended d dom disp e k) (·.ended d dom disp e k) :=
  applies_of_applyIf exec_endedNoticeApply rfl rfl

theorem applies_saved (d dom disp : Nat) : Applies .savedNoticeApply (.saved d dom disp) (·.saved d dom disp) :=
  applies_of_applyIf exec_savedNoticeApply rfl rfl

theorem applies_committed (d dom disp k : Nat) : Applies .committedNoticeApply (.committed d dom disp k) (·.committed d dom disp k) :=
  applies_of_applyIf exec_committedNoticeApply rfl rfl

theorem applies_error (d dom disp cause detail : Nat) (k : ErrorKind) :
    Applies .errorNoticeApply (.error d dom disp cause detail k) (·.error d dom disp cause detail k) :=
  applies_of_applyIf exec_errorNoticeApply rfl rfl

theorem applies_preempt (dom : Nat) : Applies .preemptNoticeApply (.preempt dom) (·.preempt dom) :=
  applies_of_applyIf exec_preemptNoticeApply rfl rfl

theorem applies_resume (dom : Nat) : Applies .resumeNoticeApply (.resume dom) (·.resume dom) :=
  applies_of_applyIf exec_resumeNoticeApply rfl rfl

theorem applies_kill (dom cause detail : Nat) (die : Option Nat) (flr : Bool) :
    Applies .killNoticeApply (.kill dom cause detail die flr) (·.killDomain dom cause detail die flr) :=
  applies_of_applyIf exec_killNoticeApply rfl rfl

theorem applies_watchdog (d dom : Nat) : Applies .watchdogNoticeApply (.watchdog d dom) (·.watchdog d dom) :=
  applies_of_applyIf exec_watchdogNoticeApply rfl rfl

theorem applies_csr (v : Nat) : Applies .csrNoticeApply (.csr v) fun w => { w with sched := { w.sched with ageDispatch := v } } :=
  applies_of_applyIf exec_csrNoticeApply rfl rfl

theorem applies_phase (dom n : Nat) (table : Option (List (BitVec 16))) (noKey : Bool) :
    Applies .phaseNoticeApply (.phase dom n table noKey) (·.phase dom n table noKey) :=
  applies_of_applyIf exec_phaseNoticeApply rfl rfl

theorem applies_hist (dom disp : Nat) (counts : List Nat) (cause : Nat) :
    Applies .histNoticeApply (.hist dom disp counts cause) (·.hist dom disp counts cause) :=
  applies_of_applyIf exec_histNoticeApply rfl rfl

theorem applies_linkSplit (a b : Nat) : Applies .linkSplitApply (.linkSplit a b) (·.split a b) :=
  applies_of_applyIf exec_linkSplitApply rfl rfl

/-- A die loss takes along how many notices the die has applied once it has applied this one (R440). -/
theorem exec_dieLossApply_next {s : State} {die x : Nat} {rooms : List (Nat × Nat)} (h : s.nextNotice die = some (.dieLoss x rooms)) :
    exec (.dieLossApply die) s = .next (s.applyTo die (·.dieLoss x rooms ((s.dieOf die).applied + 1))) := by
  rw [exec_dieLossApply, execDieLossApply, catchUp_of_hasStep h rfl]
  exact congrArg _ (applyIf_of_nextNotice h rfl rfl)

/-- A TICK is answered with the digest of the replica that it leaves (R371). -/
theorem exec_tickNoticeApply_next {s t : State} {die n : Nat} (h : s.nextNotice die = some (.tick n)) (ht : s.applyTo die Work.tick = t) :
    exec (.tickNoticeApply die) s = .next (t.post (.digest die n (Config.replicaHash (t.dieOf die).sched.words))) := by
  rw [exec_tickNoticeApply, execTickNoticeApply]
  simp only [catchUp_of_hasStep h rfl, h, ht]

/-- Settles O14: a die that stands at a notice with a step of its own has nothing to catch up on, and its step is the change that the notice names. -/
theorem noticesApply : Obligations.NoticesApply :=
  ⟨fun _ _ _ => applyTo_without_acts, applies_launch, fun _ _ _ h => exec_tickNoticeApply_next h rfl, applies_loaded, applies_ended, applies_saved,
    applies_committed, applies_error, applies_preempt, applies_resume, applies_kill, applies_watchdog, applies_csr, applies_phase, applies_hist,
    fun _ _ _ _ => exec_dieLossApply_next, applies_linkSplit⟩

end Sys2Proof.Machine
end

section
/-! PROOFS. What each notice changes in the replica of a die (spec/13 R370, R373, R376, R379, R383, R387, R388, R390, R391, spec/14 R407 to R410,
spec/15 R421, R423, R431, R437, R439, R441, R495). -/
namespace Sys2Proof.Machine

/-! ## Kills, re-queues, terminations (R376, R379, R410) -/

/-- A dispatch as its kill leaves it. -/
def Disp.killed (d : Disp) (cause : Nat) (reason : Option Nat) : Disp := { d with st := .killed, was := d.st, cause, reason }

/-- A dispatch as its re-queue leaves it. -/
def Disp.requeued (d : Disp) (cause : Nat) : Disp := { d with st := .requeued, was := d.st, cause, requeues := d.requeues + 1 }

section
variable {w : Work} {d : Disp}

/-- Replacing the only dispatch leaves the one that takes its place. -/
theorem put_single {k : Disp} (h : w.sched.disps = [d]) (hdom : k.dom = d.dom) (hdisp : k.disp = d.disp) :
    w.put k = { w with sched := { w.sched with disps := [k] } } := by
  simp [Work.put, Disp.is, h, hdom, hdisp]

theorem drains_of_live (h : d.st = .running ∨ d.st = .gating ∨ (d.st = .saved ∧ d.granules ≠ [])) : d.drains = true := by
  obtain h | h | ⟨h, hg⟩ := h
  · simp [Disp.drains, h]
  · simp [Disp.drains, h]
  · simp [Disp.drains, h, hg]

theorem not_final_of_drains (h : d.drains = true) : d.st.final = false := by
  unfold Disp.drains at h
  cases hs : d.st <;> simp_all [DispSt.final]

theorem not_inLoad_of_drains (h : d.drains = true) : d.inLoad = false := by
  unfold Disp.drains at h
  cases hs : d.st <;> simp_all [Disp.inLoad]

/-- What was running drains. -/
theorem kill_of_drains (h : d.drains = true) (cause : Nat) (reason : Option Nat) :
    w.kill d cause reason = (w.put (d.killed cause reason)).act (.cut (d.killed cause reason)) := by
  simp only [Work.kill, not_final_of_drains h, h, Bool.false_eq_true, if_false, if_true]
  rfl

/-- A dispatch that has not been placed has its record at once. -/
theorem kill_of_ready (h : d.st = .ready) (cause : Nat) (reason : Option Nat) : w.kill d cause reason =
    (w.put (d.killed cause reason)).act (.record 1 DispSt.ready.code cause (reason.getD 0) (d.killed cause reason)) := by
  simp [Work.kill, DispSt.final, Disp.drains, Disp.inLoad, Disp.killed, h]

theorem requeue_of_drains (h : d.drains = true) (hr : d.requeues < 2) (cause : Nat) (terminating : Option Nat) :
    w.requeue d cause terminating =
      ((w.act (.event 0x3002 (d.requeued cause))).put (d.requeued cause)).act (.cut (d.requeued cause)) := by
  simp only [Work.requeue, Nat.not_le.mpr hr, not_inLoad_of_drains h, Bool.false_eq_true, if_false]
  rfl

theorem kill_single (hx : w.sched.disps = [d]) (h : d.drains = true) (cause : Nat) (reason : Option Nat) : w.kill d cause reason =
    { sched := { w.sched with disps := [d.killed cause reason] }, acts := w.acts ++ [.cut (d.killed cause reason)] } := by
  rw [kill_of_drains h, put_single (k := d.killed cause reason) hx rfl rfl]
  rfl

theorem requeue_single (hx : w.sched.disps = [d]) (h : d.drains = true) (hr : d.requeues < 2) (cause : Nat) (terminating : Option Nat) :
    w.requeue d cause terminating = { sched := { w.sched with disps := [d.requeued cause] }
                                      acts := w.acts ++ [.event 0x3002 (d.requeued cause)] ++ [.cut (d.requeued cause)] } := by
  rw [requeue_of_drains h hr, put_single (w := w.act (.event 0x3002 (d.requeued cause))) (k := d.requeued cause) hx rfl rfl]
  rfl

theorem terminate_domain_zero (cause detail : Nat) (die : Option Nat) : w.terminate 0 cause detail die = w := rfl

theorem terminate_of_terminated {dom : Nat} (h : (w.sched.ctx dom).terminated = true) (cause detail : Nat) (die : Option Nat) :
    w.terminate dom cause detail die = w := by
  simp only [Work.terminate, h, Bool.or_true, if_true]

/-- A context as its termination leaves it, without its launches that wait, before its dispatches are killed. -/
def Work.terminated (w : Work) (dom cause detail : Nat) (die : Option Nat) : Work :=
  { sched := { w.sched.setCtx dom { w.sched.ctx dom with terminated := true } with late := w.sched.late.filter fun x => x.1 ≠ dom }
    acts := w.acts ++ [.terminated dom cause detail die] }

theorem terminate_of_free {dom : Nat} (h0 : dom ≠ 0) (h : (w.sched.ctx dom).terminated = false) (cause detail : Nat) (die : Option Nat) :
    w.terminate dom cause detail die =
      (w.sched.disps.filter fun d => d.dom = dom).foldl (fun w d => w.kill d cause) (w.terminated dom cause detail die) := by
  simp only [Work.terminate, h0, h, decide_false, Bool.or_self, Bool.false_eq_true, if_false]
  rfl

/-- A kill by a function-level reset also drops the later launches without a record. -/
theorem killDomain_of_flr {dom : Nat} (h0 : dom ≠ 0) (cause detail : Nat) (die : Option Nat) : w.killDomain dom cause detail die true =
    (w.terminate dom cause detail die).setCtx dom { (w.terminate dom cause detail die).sched.ctx dom with silent := true } := by
  simp only [Work.killDomain, h0, ne_eq, not_false_eq_true, decide_true, Bool.and_self, if_true]

theorem terminate_single {dom : Nat} (h0 : dom ≠ 0) (h : (w.sched.ctx dom).terminated = false)
    (hf : (w.sched.disps.filter fun x => x.dom = dom) = [d]) (hd : d.drains = true) (cause detail : Nat) (die : Option Nat) :
    w.terminate dom cause detail die =
      ((w.terminated dom cause detail die).put (d.killed cause none)).act (.cut (d.killed cause none)) := by
  rw [terminate_of_free h0 h, hf, List.foldl_cons, List.foldl_nil, kill_of_drains hd]

end

/-! ## Launches (R407, R410, R421, R495) -/

/-- The dispatch of an entry of a packet. -/
def Packet.dispatch (p : Packet) (dom launch phase index : Nat) (e : DispEntry) : Disp :=
  { dom, disp := launch % 65536 * 65536 + index, entry := e, fab := p.fab, phase := phase + e.phi }

section
variable {w : Work} {dom : Nat} {p : Packet}

theorem launch_rejected (ht : (w.sched.ctx dom).terminated = true) (hs : (w.sched.ctx dom).silent = false) :
    w.launch dom p = w.act (.rejected dom Cause.protection (9 + 256 * 0xFFFF)) := by
  simp only [Work.launch, ht, hs, if_true, Bool.false_eq_true, if_false]

theorem launch_dropped (ht : (w.sched.ctx dom).terminated = true) (hs : (w.sched.ctx dom).silent = true) : w.launch dom p = w := by
  simp only [Work.launch, ht, hs, if_true]

section
variable (ht : (w.sched.ctx dom).terminated = false)
include ht

theorem launch_unreadable (hu : p.unreadable = true) : w.launch dom p =
    w.act (if p.noKey then .rejected dom Cause.protection (6 + 256 * 0xFFFF) else .rejected dom Cause.hbmUe (256 * 0xFFFF)) := by
  simp only [Work.launch, ht, hu, Bool.false_eq_true, if_false, if_true]
  cases p.noKey <;> rfl

variable (hu : p.unreadable = false)
include hu

theorem launch_bad (hb : p.bad = true) : w.launch dom p = w.act (.rejected dom Cause.protection (1 + 256 * 0xFFFF)) := by
  simp only [Work.launch, ht, hu, hb, Bool.false_eq_true, if_false, if_true]

variable (hb : p.bad = false)
include hb

theorem launch_waits (h : w.sched.ninth dom = true ∨ ∃ y ∈ w.sched.late, y.1 = dom) :
    w.launch dom p = { w with sched := { w.sched with late := w.sched.late ++ [(dom, p)] } } := by
  have hw : (w.sched.ninth dom || w.sched.late.any fun x => x.1 = dom) = true := by simpa using h
  simp only [Work.launch, ht, hu, hb, hw, Bool.false_eq_true, if_false, if_true]

theorem launch_enters (hn : w.sched.ninth dom = false) (hl : ∀ y ∈ w.sched.late, y.1 ≠ dom) : w.launch dom p = w.enterLaunch dom p := by
  have hw : (w.sched.ninth dom || w.sched.late.any fun x => x.1 = dom) = false := by simpa [hn] using hl
  simp only [Work.launch, ht, hu, hb, hw, Bool.false_eq_true, if_false]

end

theorem enterEntry_accepted {e : DispEntry} {index : Nat} (hr : e.refused dom index p.entries = false) (hf : e.fixed ≠ none)
    (launch phase : Nat) : w.enterEntry dom launch p phase index e =
      { w with sched := { w.sched with disps := (w.sched.disps.filter fun x =>
          !(x.is dom (p.dispatch dom launch phase index e).disp && x.st.final)) ++ [p.dispatch dom launch phase index e] } } := by
  have hs : e.fixed.isNone = false := Option.isNone_eq_false_iff.mpr (Option.isSome_iff_ne_none.mpr hf)
  simp only [Work.enterEntry, hr, hs, Bool.false_eq_true, if_false]
  rfl

theorem dispatch_first (p : Packet) (dom launch phase : Nat) (e : DispEntry) : p.dispatch dom launch phase 0 e =
    { dom, disp := launch % 65536 * 65536, entry := e, fab := p.fab, phase := phase + e.phi } := by
  rw [Packet.dispatch, Nat.add_zero]

theorem enterLaunch_single {e : DispEntry} (hv : p.rtv = false) (he : p.entries = [e]) : w.enterLaunch dom p =
    (w.setCtx dom { w.sched.ctx dom with launches := (w.sched.ctx dom).launches + 1 }).enterEntry dom (w.sched.ctx dom).launches p
      (w.sched.ctx dom).phase 0 e := by
  simp only [Work.enterLaunch, hv, he, Bool.false_eq_true, if_false]
  rfl

end

/-! ## Ticks and holds (R373, R378, R383, R387, R391) -/

section
variable {w : Work} {d : Disp}

/-- With nothing blocked, a TICK ages the READY dispatches. -/
theorem tick_single (hb : w.sched.blocked = none) (hs : w.sched.scan = [d]) (hf : w.sched.find d.dom d.disp = some d) : w.tick = w.age1 d := by
  simp only [Work.tick, hb, Option.bind_none, hs, List.foldl_cons, List.foldl_nil, hf]

/-- Below the last level, a dispatch that has stayed long enough goes to the tail of the next one. -/
theorem age1_of_level (hl : d.level < 3) : w.age1 d =
    if w.sched.ageLimit ≤ 512 * (d.ticks + 1) then
      (w.toTail { d with level := d.level + 1, ticks := 0 }).act (.event 0x3003 { d with ticks := d.ticks + 1 })
    else w.put { d with ticks := d.ticks + 1 } := by
  simp only [Work.age1, hl, decide_true, Bool.true_and, decide_eq_true_eq]

theorem preempt_single {dom : Nat} (hh : (w.sched.ctx dom).held = false) (hf : (w.sched.disps.filter fun x => x.dom = dom) = [d])
    (hs : d.st = .running) : w.preempt dom = ((w.setCtx dom { w.sched.ctx dom with held := true }).put { d with st := .gating }).act
      (.gate { d with st := .gating }) := by
  simp [Work.preempt, hh, hf, hs, Disp.inLoad]

theorem preempt_of_held {dom : Nat} (hh : (w.sched.ctx dom).held = true) : w.preempt dom = w := by
  simp only [Work.preempt, hh, if_true]

end

/-! ## Reports of dies (R376, R379, R388, R409, R431) -/

theorem mem_of_find {c : Sched} {dom disp : Nat} {d : Disp} (h : c.find dom disp = some d) : d ∈ c.disps := List.mem_of_find?_eq_some h

theorem dom_of_find {c : Sched} {dom disp : Nat} {d : Disp} (h : c.find dom disp = some d) : d.dom = dom := by
  have hd : d.is dom disp = true := List.find?_some (p := fun d : Disp => d.is dom disp) h
  exact of_decide_eq_true (Bool.and_eq_true_iff.mp hd).1

section
variable {w : Work} {n dom disp : Nat} {d : Disp} (hf : w.sched.find dom disp = some d)
include hf

theorem change_of_find (f : Disp → Work) : w.change dom disp f = f d := by
  rw [Work.change, hf]

theorem loaded_of_inLoad (hs : d.st = .placed ∨ d.st = .loading) (status : Nat) :
    w.loaded n dom disp status = w.put { d with loaded := d.loaded ++ [(n, status)] } := by
  have hl : d.inLoad = true := by simpa [Disp.inLoad] using hs
  rw [Work.loaded, change_of_find hf, if_pos hl]

theorem ended_of_running {e : Bool} {seen : Nat} (hs : d.st = .running ∨ d.st = .gating) (hk : d.redealt ≤ seen) :
    w.ended n dom disp e seen = w.put { d with ended := d.ended ++ [(n, e)] } := by
  rw [Work.ended, change_of_find hf, if_pos (by simpa [hk] using hs)]

theorem saved_of_saved (hs : d.st = .saved) : w.saved n dom disp = w.put { d with savedDies := d.savedDies ++ [n] } := by
  rw [Work.saved, change_of_find hf, if_pos hs]

theorem committed_of_draining {seen : Nat} (hs : d.st = .draining) (hk : d.redealt ≤ seen) :
    w.committed n dom disp seen = w.put { d with committedDies := d.committedDies ++ [n] } := by
  rw [Work.committed, change_of_find hf, if_pos (by simp [hs, hk])]

section
variable (hl : d.st = .running ∨ d.st = .gating ∨ (d.st = .saved ∧ d.granules ≠ []))
include hl

/-- The answer to an ERROR of a dispatch that holds granules depends on its cause, and then on whether the dispatch is restartable. -/
theorem error_of_live (cause detail : Nat) : w.error n dom disp cause detail .plain =
    if cause = Cause.stageOverflow ∨ cause = Cause.deadlock then w.kill d cause
    else if d.entry.rst then w.requeue d cause (some n)
    else (w.kill d cause).terminate dom cause 0 (some n) := by
  have hb : (decide (d.st = .running) || decide (d.st = .gating) || (decide (d.st = .saved) && !d.granules.isEmpty)) = true := by
    simpa [or_assoc] using hl
  rw [Work.error, change_of_find hf]
  simp only [hb, Bool.not_true, Bool.false_eq_true, if_false, Bool.or_eq_true, decide_eq_true_eq]

/-- In domain 0, which is never terminated, what cannot be re-queued is killed alone. -/
theorem error_kills {cause : Nat} (h0 : dom = 0) (ho : cause ≠ Cause.stageOverflow) (hk : cause ≠ Cause.deadlock)
    (hr : d.entry.rst = true → 2 ≤ d.requeues) (detail : Nat) : w.error n dom disp cause detail .plain = w.kill d cause := by
  rw [error_of_live hf hl, if_neg (by simp [ho, hk])]
  split
  next hrst =>
    rw [Work.requeue, if_pos (hr hrst), dom_of_find hf, h0]
    exact terminate_domain_zero ..
  next =>
    rw [h0]
    exact terminate_domain_zero ..

end

theorem hist_of_ready (hs : d.st = .ready) (hh : d.hist = none) (counts : List Nat) (cause : Nat) : w.hist dom disp counts cause =
    if cause ≠ 0 then w.kill d (cause % 256) (if cause < 256 then none else some (cause / 256))
    else w.put { d with hist := some counts } := by
  rw [Work.hist, change_of_find hf]
  simp [hs, hh]

end

section
variable {w : Work} {n dom : Nat} {d : Disp}

/-- In domain 0 the dispatches that are GATING are killed, and no other. -/
theorem watchdog_kills (hf : (w.sched.disps.filter fun x => decide (x.dom = 0) && decide (x.st = .gating)) = [d]) :
    w.watchdog n 0 = (w.put (d.killed Cause.watchdog none)).act (.cut (d.killed Cause.watchdog none)) := by
  have hm : d ∈ w.sched.disps.filter fun x => decide (x.dom = 0) && decide (x.st = .gating) := hf ▸ List.mem_singleton_self d
  have hs : d.st = .gating := of_decide_eq_true (Bool.and_eq_true_iff.mp (List.mem_filter.mp hm).2).2
  simp only [Work.watchdog, hf, List.isEmpty_cons, Bool.false_eq_true, if_false, if_true, List.foldl_cons, List.foldl_nil]
  exact kill_of_drains (drains_of_live (.inr (.inl hs))) ..

theorem watchdog_terminates (h0 : dom ≠ 0) (hd : d ∈ w.sched.disps) (hdom : d.dom = dom) (hs : d.st = .gating) :
    w.watchdog n dom = w.terminate dom Cause.watchdog 0 (some n) := by
  have hf : (w.sched.disps.filter fun x => decide (x.dom = dom) && decide (x.st = .gating)).isEmpty = false := by
    simpa using ⟨d, hd, hdom, hs⟩
  simp only [Work.watchdog, hf, h0, Bool.false_eq_true, if_false]

theorem watchdog_of_none_gating (h : ∀ d ∈ w.sched.disps, d.dom = dom → d.st ≠ .gating) : w.watchdog n dom = w := by
  have hf : (w.sched.disps.filter fun x => decide (x.dom = dom) && decide (x.st = .gating)) = [] := by
    simpa [List.filter_eq_nil_iff] using h
  simp only [Work.watchdog, hf, List.isEmpty_nil, if_true]

end

/-! ## Phases (R423, R437) -/

section
variable {w : Work} {dom n : Nat} {noKey : Bool}

theorem phase_without_update (hn : (w.sched.ctx dom).phase = n) (hu : (w.sched.ctx dom).updates = []) (table : Option (List (BitVec 16))) :
    w.phase dom n table noKey = (w.act (.drop dom)).setCtx dom { w.sched.ctx dom with phase := n + 1 } := by
  have hnone : w.sched.update dom (n + 1) = none := by simp [Sched.update, CtxSched.due, hu]
  simp [Work.phase, hn, hnone]

/-- The table of an update that is due takes the place of the one that is not in force. -/
theorem phase_with_table {es : List (BitVec 16)} {u : Nat × Nat × Nat} (hle : u.1 ≤ n + 1) (hn : (w.sched.ctx dom).phase = n)
    (hu : (w.sched.ctx dom).updates = [u]) (ho : w.sched.otherHeld dom = false) (hr : (w.sched.ctx dom).repver = false) :
    w.phase dom n (some es) noKey = (w.act (.drop dom)).setCtx dom
      { w.sched.ctx dom with phase := n + 1, updates := [], repver := true, table1 := replicaTable es } := by
  have hdue : (w.sched.ctx dom).due (n + 1) = [u] := by simp [CtxSched.due, hu, hle]
  have hsome : w.sched.update dom (n + 1) = some u := by simp [Sched.update, ho, hdue]
  simp [Work.phase, hn, hsome, hdue, hu, hr]

end

/-! ## Losses (R390, R439, R441) -/

section
variable {w : Work} {f : Work → Disp → Work}

/-- A change that concerns no dispatch of the schedule leaves it. -/
theorem foldl_change_same (h : ∀ d ∈ w.sched.disps, f w d = w) : ∀ ks : List (Nat × Nat),
    ks.foldl (fun w k => w.change k.1 k.2 (f w)) w = w
  | [] => rfl
  | k :: ks => by
    have hk : w.change k.1 k.2 (f w) = w := by
      cases hf : w.sched.find k.1 k.2 with
      | none => rw [Work.change, hf]
      | some d => rw [change_of_find hf, h d (mem_of_find hf)]
    rw [List.foldl_cons, hk, foldl_change_same h ks]

theorem find_single {c : Sched} {d : Disp} (h : c.disps = [d]) : c.find d.dom d.disp = some d := by
  simp [Sched.find, h, Disp.is]

theorem foldl_change_single {d : Disp} (h : w.sched.disps = [d]) :
    (w.sched.disps.map fun d => (d.dom, d.disp)).foldl (fun w k => w.change k.1 k.2 (f w)) w = f w d := by
  rw [h]
  exact change_of_find (find_single h) (f w)

end

section
variable {w : Work} {n at_ : Nat} {rooms : List (Nat × Nat)} {d : Disp}

/-- The replica once a die is lost, before the loss of its parts. -/
def Work.lose (w : Work) (n : Nat) : Work := ({ w with sched := { w.sched with lost := w.sched.lost ++ [n] } } : Work).act (.silence n)

theorem dieLoss_of_live (h : w.sched.lost.contains n = false) : w.dieLoss n rooms at_ =
    (w.sched.disps.map fun d => (d.dom, d.disp)).foldl (fun w k => w.change k.1 k.2 (w.loseDie n rooms at_)) (w.lose n) := by
  simp only [Work.dieLoss, h, Bool.false_eq_true, if_false]
  rfl

theorem loseDie_elsewhere (h : ∀ g ∈ d.granules, g / 64 ≠ n) : w.loseDie n rooms at_ d = w := by
  have hg : (d.granules.any fun g => g / 64 = n) = false := by simpa using h
  simp only [Work.loseDie, hg, Bool.not_false, Bool.or_true, if_true]

theorem dieLoss_elsewhere (h : w.sched.lost.contains n = false) (hd : ∀ d ∈ w.sched.disps, ∀ g ∈ d.granules, g / 64 ≠ n) :
    w.dieLoss n rooms at_ = w.lose n := by
  rw [dieLoss_of_live h]
  exact foldl_change_same (w := w.lose n) (f := fun w => w.loseDie n rooms at_) (fun d hm => loseDie_elsewhere (hd d hm)) _

theorem loseDie_requeues (hx : w.sched.disps = [d]) (hw : d.entry.wheel = false) (hs : d.st = .running) (hr : d.entry.rst = true)
    (hq : d.requeues < 2) (hg : ∃ g ∈ d.granules, g / 64 = n) : w.loseDie n rooms at_ d = w.requeue d Cause.dieLost none := by
  have hd : d.drains = true := drains_of_live (.inl hs)
  have hlost : (d.granules.any fun g => g / 64 = n) = true := by simpa using hg
  have hfind : (w.requeue d Cause.dieLost none).sched.find d.dom d.disp = some (d.requeued Cause.dieLost) := by
    rw [requeue_single hx hd hq]
    exact find_single (d := d.requeued Cause.dieLost) rfl
  simp [Work.loseDie, DispSt.final, hs, hlost, hw, hr, hfind, Disp.requeued]

theorem dieLoss_requeues (h : w.sched.lost.contains n = false) (hx : w.sched.disps = [d]) (hw : d.entry.wheel = false) (hs : d.st = .running)
    (hr : d.entry.rst = true) (hq : d.requeues < 2) (hg : ∃ g ∈ d.granules, g / 64 = n) :
    w.dieLoss n rooms at_ = { sched := { w.sched with lost := w.sched.lost ++ [n], disps := [d.requeued Cause.dieLost] }
                              acts := w.acts ++ [.silence n, .event 0x3002 (d.requeued Cause.dieLost), .cut (d.requeued Cause.dieLost)] } := by
  have hx' : (w.lose n).sched.disps = [d] := hx
  have hlose := (foldl_change_single (f := fun w => w.loseDie n rooms at_) hx').trans (loseDie_requeues hx' hw hs hr hq hg)
  rw [requeue_single hx' (drains_of_live (.inl hs)) hq] at hlose
  exact (dieLoss_of_live h).trans (hlose.trans (by simp [Work.lose, Work.act]))

end

section
variable {w : Work} {a b : Nat} {d : Disp}

/-- The replica once a pair of dies is split, before what becomes of the dispatches on both. -/
def Work.pair (w : Work) (a b : Nat) : Work := { w with sched := { w.sched with splits := w.sched.splits ++ [(Nat.min a b, Nat.max a b)] } }

/-- A dispatch is parted if its live granules lie on both dies of a pair that is split. -/
def Work.partSpanning (w : Work) (d : Disp) : Work := if w.sched.spansSplit (w.sched.liveGranules d) then w.parted d else w

theorem split_of_new (h : w.sched.splits.contains (Nat.min a b, Nat.max a b) = false) : w.split a b =
    (w.sched.disps.map fun d => (d.dom, d.disp)).foldl (fun w k => w.change k.1 k.2 w.partSpanning) (w.pair a b) := by
  simp only [Work.split, h, Bool.false_eq_true, if_false]
  rfl

/-- The new pair is spanned by granules on both of its dies. -/
theorem spansSplit_pair (gs : List Nat) : (w.pair a b).sched.spansSplit gs = true ↔
    w.sched.spansSplit gs = true ∨ (∃ g ∈ gs, g / 64 = a) ∧ ∃ g ∈ gs, g / 64 = b := by
  have hpair : (∃ g ∈ gs, g / 64 = a.min b) ∧ (∃ g ∈ gs, g / 64 = a.max b) ↔ (∃ g ∈ gs, g / 64 = a) ∧ ∃ g ∈ gs, g / 64 = b := by
    obtain h | h := Nat.le_total a b
    · rw [show a.min b = a from Nat.min_eq_left h, show a.max b = b from Nat.max_eq_right h]
    · rw [show a.min b = b from Nat.min_eq_right h, show a.max b = a from Nat.max_eq_left h, and_comm]
  rw [← hpair]
  simp [Work.pair, Sched.spansSplit]

theorem split_elsewhere (h : w.sched.splits.contains (Nat.min a b, Nat.max a b) = false)
    (hd : ∀ d ∈ w.sched.disps,
      (∀ g ∈ w.sched.liveGranules d, g / 64 ≠ a ∧ g / 64 ≠ b) ∧ w.sched.spansSplit (w.sched.liveGranules d) = false) :
    w.split a b = w.pair a b := by
  rw [split_of_new h]
  refine foldl_change_same (f := Work.partSpanning) (fun d hm => if_neg ?_) _
  obtain ⟨hg, hs⟩ := hd d hm
  rw [spansSplit_pair]
  rintro (h | ⟨⟨g, hm, rfl⟩, -⟩)
  · exact absurd (h.symm.trans hs) (by decide)
  · exact (hg g hm).1 rfl

theorem parted_kills (hs : d.st = .running) (hr : d.entry.rst = false) : w.parted d = w.kill d Cause.linkDown := by
  simp [Work.parted, DispSt.final, hs, hr]

theorem split_kills (h : w.sched.splits.contains (Nat.min a b, Nat.max a b) = false) (hx : w.sched.disps = [d]) (hs : d.st = .running)
    (hr : d.entry.rst = false) (ha : ∃ g ∈ w.sched.liveGranules d, g / 64 = a) (hb : ∃ g ∈ w.sched.liveGranules d, g / 64 = b) :
    w.split a b = { sched := { w.sched with splits := w.sched.splits ++ [(Nat.min a b, Nat.max a b)], disps := [d.killed Cause.linkDown none] }
                    acts := w.acts ++ [.cut (d.killed Cause.linkDown none)] } := by
  have hspans : (w.pair a b).sched.spansSplit ((w.pair a b).sched.liveGranules d) = true := (spansSplit_pair _).mpr (.inr ⟨ha, hb⟩)
  have hpart := foldl_change_single (f := Work.partSpanning) (w := w.pair a b) hx
  rw [Work.partSpanning, if_pos hspans, parted_kills hs hr, kill_single (w := w.pair a b) hx (drains_of_live (.inl hs))] at hpart
  exact (split_of_new h).trans hpart

end

/-! ## The notices -/

/-- Settles O15: what a die does at a notice depends on what the change makes of its replica alone, so each clause is the value of that change on a
replica of its kind. -/
theorem noticeEffects : Obligations.NoticeEffects := by
  unfold Obligations.NoticeEffects
  intro gives set same killed requeued free live others
  have on {c : Nat → Instr} {n : Notice} {f : Work → Work} {held : Sched → Prop} {w : Sched → Work} (h : Applies c n f)
      (hw : ∀ c, held c → f { sched := c } = w c) : gives c n held w := h.on hw
  have onLoss {n : Nat} {rooms : List (Nat × Nat)} {held : Sched → Prop} {w : Sched → Work}
      (hw : ∀ c at_, held c → ({ sched := c } : Work).dieLoss n rooms at_ = w c) : gives .dieLossApply (.dieLoss n rooms) held w :=
    fun die s h hs => by rw [exec_dieLossApply_next h, applyTo_congr (hw _ _ hs)]
  clear_value gives
  refine ⟨fun dom p x => on (applies_launch dom p x) fun c ⟨ht, hs⟩ => launch_rejected ht hs,
    fun dom p x => on (applies_launch dom p x) fun c ⟨ht, hs⟩ => launch_dropped ht hs,
    fun dom p x hu => on (applies_launch dom p x) fun c ht => launch_unreadable ht hu,
    fun dom p x hu hb => on (applies_launch dom p x) fun c ht => launch_bad ht hu hb,
    fun dom p x e hu hb hv he hr hf => on (applies_launch dom p x) fun c ⟨ht, hn, hl⟩ => ?enters,
    fun dom p x hu hb => on (applies_launch dom p x) fun c ⟨ht, hw⟩ => launch_waits ht hu hb hw,
    fun n die s d h => ?ticks,
    fun n dom disp st d => on (applies_loaded n dom disp st) fun c ⟨hf, hs⟩ => loaded_of_inLoad hf hs st,
    fun n dom disp e k d => on (applies_ended n dom disp e k) fun c ⟨hf, hs, hk⟩ => ended_of_running hf hs hk,
    fun n dom disp d => on (applies_saved n dom disp) fun c ⟨hf, hs⟩ => saved_of_saved hf hs,
    fun n dom disp k d => on (applies_committed n dom disp k) fun c ⟨hf, hs, hk⟩ => committed_of_draining hf hs hk,
    fun n dom disp cause d ho hk => on (applies_error n dom disp cause 0 .plain) fun c ⟨hf, hl, hr, hq⟩ => ?requeues,
    fun n disp cause d ho hk => on (applies_error n 0 disp cause 0 .plain) fun c ⟨hf, hl, hr⟩ => ?kills,
    fun n dom disp cause d hc => on (applies_error n dom disp cause 0 .plain) fun c ⟨hf, hl⟩ => ?always,
    fun dom d => on (applies_preempt dom) fun c ⟨hh, hf, hs⟩ => preempt_single hh hf hs,
    fun dom => on (applies_preempt dom) fun c hh => preempt_of_held hh,
    fun dom => on (applies_resume dom) fun c _ => rfl,
    fun dom cause x by_ flr d h0 => on (applies_kill dom cause x by_ flr) fun c ⟨ht, hf, hs⟩ => ?kill,
    fun dom cause x by_ => on (applies_kill dom cause x by_ false) fun c h => ?spared,
    fun n d => on (applies_watchdog n 0) fun c hf => watchdog_kills hf,
    fun n dom d h0 => on (applies_watchdog n dom) fun c ⟨ht, hf, hs⟩ => ?watchdog,
    fun n dom => on (applies_watchdog n dom) fun c h => watchdog_of_none_gating h,
    fun v => on (applies_csr v) fun c _ => rfl,
    fun dom n table e => on (applies_phase dom n table e) fun c ⟨hn, hu⟩ => phase_without_update hn hu table,
    fun dom n es e u hle => on (applies_phase dom n (some es) e) fun c ⟨hn, hu, ho, hr⟩ => phase_with_table hle hn hu ho hr,
    fun dom disp cs d => on (applies_hist dom disp cs 0) fun c ⟨hf, hs, hh⟩ => hist_of_ready hf hs hh cs 0,
    fun dom disp cs d => on (applies_hist dom disp cs _) fun c ⟨hf, hs, hh⟩ => (hist_of_ready hf hs hh cs _).trans (kill_of_ready hs ..),
    fun dom disp cs d => on (applies_hist dom disp cs _) fun c ⟨hf, hs, hh⟩ => (hist_of_ready hf hs hh cs _).trans (kill_of_ready hs ..),
    fun n rooms => onLoss fun c at_ ⟨hl, hd⟩ => dieLoss_elsewhere hl hd,
    fun n rooms d hw => onLoss fun c at_ ⟨hl, hx, hs, hr, hq, hg⟩ => dieLoss_requeues hl hx hw hs hr hq hg,
    fun a b => on (applies_linkSplit a b) fun c ⟨hn, hd⟩ => split_elsewhere hn hd,
    fun a b d => on (applies_linkSplit a b) fun c ⟨hn, hx, hs, hr, ha, hb⟩ => ?parts⟩
  case enters =>
    refine (launch_enters ht hu hb hn hl).trans ((enterLaunch_single hv he).trans ?_)
    exact (enterEntry_accepted (by rwa [he]) hf _ _).trans (by rw [dispatch_first]; rfl)
  case ticks =>
    intro c hb hs hf hl next w t
    have hw : Work.tick { sched := c } = w := (tick_single hb hs hf).trans (age1_of_level hl)
    exact exec_tickNoticeApply_next h (applyTo_congr hw)
  case requeues =>
    refine (error_of_live hf hl cause 0).trans ?_
    rw [if_neg (by simp [ho, hk]), if_pos hr, requeue_of_drains (drains_of_live hl) hq]
    rfl
  case kills => exact (error_kills hf hl rfl ho hk hr 0).trans (kill_of_drains (drains_of_live hl) ..)
  case always =>
    refine (error_of_live hf hl cause 0).trans ?_
    rw [if_pos hc, kill_of_drains (drains_of_live hl)]
    rfl
  case kill =>
    have hkill := terminate_single (w := { sched := c }) h0 ht hf (drains_of_live (.inl hs)) cause x by_
    cases flr with
    | false => exact hkill
    | true => exact (killDomain_of_flr h0 ..).trans (by rw [hkill]; rfl)
  case spared =>
    obtain rfl | ht := h
    · rfl
    · exact terminate_of_terminated ht ..
  case watchdog =>
    obtain ⟨hm, hdom⟩ := List.mem_filter.mp (hf ▸ List.mem_singleton_self d)
    exact (watchdog_terminates h0 hm (of_decide_eq_true hdom) hs).trans (terminate_single h0 ht hf (drains_of_live (.inr (.inl hs))) ..)
  case parts => 
    have hnew : c.splits.contains (Nat.min a b, Nat.max a b) = false := by rw [hn]; rfl
    exact (split_kills (w := { sched := c }) hnew hx hs hr ha hb).trans (by rw [hn]; rfl)

end Sys2Proof.Machine
end

section
/-! PROOFS. The sweeps and timers of the dies and of the hub, and the notices that they post (spec/13 R366, R371, R372, R384, R388 to R390,
spec/14 R410). -/
namespace Sys2Proof.Machine

/-! ## The dies (R366, R388 to R390, R410) -/

section
variable {die dom disp : Nat} {p : Part} {s : State}

theorem exec_quiescenceSweep_due (ht : (s.dieOf die).sweptAt + 32 ≤ s.now) (hl : s.lostDies.contains die = false) :
    exec (.quiescenceSweep die) s = .next ((s.die.parts.filter fun p => p.die = die).foldl State.sweepPart
      (s.setDieOf die { s.dieOf die with sweptAt := s.now })) := by
  rw [exec_quiescenceSweep, execQuiescenceSweep]
  simp only [Nat.not_lt.mpr ht, hl, decide_false, Bool.or_self, Bool.false_eq_true, if_false]

theorem exec_dieHeartbeat_due (ht : (s.dieOf die).heartbeat + 4096 ≤ s.now) (hl : s.lostDies.contains die = false) :
    exec (.dieHeartbeat die) s = .next (s.setDieOf die { s.dieOf die with heartbeat := s.now }) := by
  rw [exec_dieHeartbeat, execDieHeartbeat]
  simp only [Nat.not_lt.mpr ht, hl, decide_false, Bool.or_self, Bool.false_eq_true, if_false]

/-- A die is lost whose last four heartbeats are missing. -/
theorem exec_heartbeatMissing_four (ht : (s.dieOf die).heartbeat + 16384 ≤ s.now) (hl : s.lostDies.contains die = false) :
    exec (.heartbeatMissing die) s = .next (s.post (.dieLoss die s.rooms)) := by
  rw [exec_heartbeatMissing, execHeartbeatMissing, if_neg (Nat.not_lt.mpr ht), State.postLoss, hl]
  rfl

/-- A running part that is active, but still, with no port that waits for the host, is deadlocked. -/
theorem exec_deadlockTimeout_still (hp : s.partOf die dom disp = some p) (hrun : s.partIn p .running = true) (hrep : p.reported = false)
    (hact : s.partActive p = true) (hst : s.partStill p = true) (hpark : s.partParked p = false) :
    exec (.deadlockTimeout die dom disp) s =
      .next ((s.setPart { p with reported := true }).post (.error die dom disp Cause.deadlock 0 .plain)) := by
  rw [exec_deadlockTimeout, execDeadlockTimeout]
  simp only [hp, hrun, hrep, hact, hst, hpark, Bool.true_or, Bool.not_false, Bool.and_self, if_true]

/-- A part that is GATING beyond its limit draws a WATCHDOG, unless one is on its way. -/
theorem exec_watchdogExpiry_late {t₀ : Nat} (hm : p ∈ s.die.parts) (hdie : p.die = die) (hdom : p.dom = dom)
    (hg : s.partIn p .gating = true) (ht : p.gatedAt = some t₀) (hle : t₀ + p.limit ≤ s.now)
    (hnew : (s.hub.log.drop (s.dieOf die).applied).contains (.watchdog die dom) = false) :
    exec (.watchdogExpiry die dom) s = .next (s.post (.watchdog die dom)) := by
  have hlate : (s.die.parts.any fun p => decide (p.die = die) && decide (p.dom = dom) && s.partIn p .gating &&
      p.gatedAt.elim false fun t => decide (t + p.limit ≤ s.now)) = true :=
    List.any_eq_true.mpr ⟨p, hm, by simp [hdie, hdom, hg, ht, hle]⟩
  rw [exec_watchdogExpiry, execWatchdogExpiry]
  simp only [hlate, hnew, Bool.not_false, Bool.and_self, if_true]

/-- The drain of a kill ends at quiescence or at its limit: the part is reset, and its records are posted. -/
theorem exec_killDrainEnd_due {t₀ : Nat} {d : Disp} (hp : s.partOf die dom disp = some p) (hk : p.killedAt = some t₀)
    (hd : s.dispOfPart p = some d) (h : 2 ≤ p.sweeps ∨ t₀ + 4096 ≤ s.now) : exec (.killDrainEnd die dom disp) s =
      .next (((s.killRecords p d).foldl (fun s r => s.queueTrap dom r) (s.resetRegion p)).post (.reset die dom disp)) := by
  have hdue : (decide (p.sweeps < 2) && decide (s.now < t₀ + 4096)) = false := by
    simpa [Classical.or_iff_not_imp_left] using h
  rw [exec_killDrainEnd, execKillDrainEnd]
  simp only [hp, hk, hd, hdue, Bool.false_eq_true, if_false]

end

/-! ## The hub (R371, R372) -/

section
variable {s : State}

/-- The TICKs that the hub has posted. -/
def State.ticks (s : State) : Nat := (s.hub.log.filter fun n => match n with | .tick _ => true | _ => false).length

theorem exec_hubTick_due (h : 512 * (s.ticks + 1) ≤ s.now - (s.dieOf 0).resetAt) : exec .hubTick s = .next (s.post (.tick (s.ticks + 1))) := by
  have hlt : s.ticks < (s.now - (s.dieOf 0).resetAt) / 512 := by omega
  rw [exec_hubTick]
  exact if_pos hlt

/-- A round to which every live die has sent its digest, and in which none dissents, is judged without a loss. -/
theorem exec_digestNoticeApply_agreed (hall : ∀ d < 8, s.lostDies.contains d = false → ∃ v, (d, v) ∈ s.digests (s.hub.judged + 1))
    (hnone : dissenters ((s.digests (s.hub.judged + 1)).filter fun d =>
      ((List.range 8).filter fun x => !s.lostDies.contains x).contains d.1) = []) :
    exec .digestNoticeApply s = .next { s with hub := { s.hub with judged := s.hub.judged + 1 } } := by
  have hsent : (((List.range 8).filter fun d => !s.lostDies.contains d).all fun d =>
      ((s.digests (s.hub.judged + 1)).filter fun d => ((List.range 8).filter fun x => !s.lostDies.contains x).contains d.1).any
        fun x => x.1 = d) = true := by
    refine List.all_eq_true.mpr fun d hd => ?_
    obtain ⟨hlt, hlive⟩ := List.mem_filter.mp hd
    obtain ⟨v, hv⟩ := hall d (List.mem_range.mp hlt) (by simpa using hlive)
    exact List.any_eq_true.mpr ⟨(d, v), List.mem_filter.mpr ⟨hv, List.contains_iff_mem.mpr hd⟩, decide_eq_true rfl⟩
  rw [exec_digestNoticeApply, execDigestNoticeApply]
  simp only [hsent, hnone, if_true, List.foldl_nil]

end

/-- Settles O13: a timer that is due acts, a round of digests without a dissenter is judged, and each posts its notice. -/
theorem dispatcherTimers : Obligations.DispatcherTimers :=
  ⟨fun _ _ => exec_quiescenceSweep_due, fun _ _ => exec_dieHeartbeat_due, fun _ _ => exec_heartbeatMissing_four,
    fun _ _ _ _ _ => exec_deadlockTimeout_still, fun _ _ _ _ _ => exec_watchdogExpiry_late, fun _ => exec_hubTick_due,
    fun _ _ _ _ _ _ _ => exec_killDrainEnd_due, fun _ => exec_digestNoticeApply_agreed⟩

end Sys2Proof.Machine
end

section
/-! PROOFS. The cluster mesh: hops, promotion, and replays (spec/13 R356 to R361, spec/15 R441). -/
namespace Sys2Proof.Machine

/-! ## Which way a flit goes (R356, R441) -/

section
variable {s : State} {r out : Nat}

/-- Which links are down says which way traffic goes. -/
theorem detour_congr {t : State} (h : ∀ r o, (t.meshOut r o).down = (s.meshOut r o).down) (dir : Nat) : t.detour r dir = s.detour r dir := by
  simp only [State.detour, h]

theorem down_setMeshOut {v : MeshOut} (h : v.down = (s.meshOut r out).down) (r' o : Nat) :
    ((s.setMeshOut r out v).meshOut r' o).down = (s.meshOut r' o).down := by
  by_cases hk : 12 * r' + o = 12 * r + out
  · have hread (u : State) : u.meshOut r' o = u.meshOut r out := congrArg (u.mesh.outs.find · {}) hk
    rw [hread, hread, meshOut_setMeshOut_same, h]
  · rw [meshOut_setMeshOut_other (hne := hk)]

theorem meshOut_setMeshDone (fs : List Flit) : (s.setMeshDone r out fs).meshOut = s.meshOut := rfl

/-- Traffic that goes over a neighbour's link takes the neighbour's turn of this cycle. -/
def State.goVia (s : State) (out : Nat) (via : Option Nat) : State :=
  via.elim s fun n => s.setMeshOut n out { s.meshOut n out with sentAt := some s.now }

theorem meshIn_goVia (via : Option Nat) : (s.goVia out via).meshIn = s.meshIn := by cases via <;> rfl

theorem mem_goVia (via : Option Nat) : (s.goVia out via).mem = s.mem := by cases via <;> rfl

theorem unit_goVia (via : Option Nat) : (s.goVia out via).unit = s.unit := by cases via <;> rfl

/-- An output that has sent in this cycle has done so whoever else has. -/
theorem sentAt_goVia (h : (s.meshOut r out).sentAt = some s.now) (via : Option Nat) : ((s.goVia out via).meshOut r out).sentAt = some s.now := by
  cases via with
  | none => exact h
  | some n =>
    by_cases hn : r = n
    · subst hn
      exact congrArg MeshOut.sentAt (meshOut_setMeshOut_same ..)
    · exact (congrArg MeshOut.sentAt (meshOut_setMeshOut_other _ _ _ _ _ _ (by omega))).trans h

end

/-! ## Hops (R356, R358, R360) -/

/-- An output that has granted a flit, in this cycle and with this turn and count. -/
def MeshOut.grant (o : MeshOut) (now v turn count : Nat) (f : Flit) (h : MeshHold) : MeshOut :=
  { o with
    turn, count, sentAt := some now
    hold := o.hold.put v (if f.last then none else some h) none
    last := if f.head then o.last.put v h.input 11 else o.last }

/-- What a granted flit leaves behind it: the flits of its input that follow. -/
def State.afterFlit (s : State) (r v : Nat) (f : Flit) (h : MeshHold) : List Flit :=
  if f.last then freshHead s.now ((s.meshIn r h.input v).drop 1) else (s.meshIn r h.input v).drop 1

/-- A granted flit has left its input. -/
def State.grantFlit (s : State) (r out v turn count : Nat) (f : Flit) (h : MeshHold) : State :=
  (s.setMeshOut r out ((s.meshOut r out).grant s.now v turn count f h)).setMeshIn r h.input v (s.afterFlit r v f h)

/-- The flit as it stands at the far end of its link. -/
def State.sentFlit (s : State) (r out : Nat) (f : Flit) : Flit :=
  { f with since := s.now + (if dieEdge r out then 9 else 2) + (if (s.detour r out).isSome then 4 else 0), promoted := false }

section
variable {s : State} {r out v turn count : Nat} {f : Flit} {h : MeshHold}

theorem sentAt_grantFlit : ((s.grantFlit r out v turn count f h).meshOut r out).sentAt = some s.now :=
  congrArg MeshOut.sentAt (meshOut_setMeshOut_same ..)

theorem detour_grantFlit : (s.grantFlit r out v turn count f h).detour r out = s.detour r out :=
  detour_congr (s := s) (fun r' o => down_setMeshOut (v := (s.meshOut r out).grant s.now v turn count f h) rfl r' o) out

theorem exec_meshFlitHop_free (hb : s.discardBad r = none) (hs : (s.meshOut r out).sentAt ≠ some s.now) :
    exec (.meshFlitHop r out) s = .next (s.hop r out) := by
  rw [exec_meshFlitHop, execMeshFlitHop]
  simp only [hb, hs, if_false]

variable (hs : s.serve r out = some (v, turn, count)) (ho : s.offer r out v = some (f, h))
include hs ho

theorem hop_link {q : Nat} (hout : out < 4) (hq : meshNext r out = some q) : s.hop r out =
    let t := (s.grantFlit r out v turn count f h).goVia out (s.detour r out)
    t.setMeshIn q (opposite out) v (t.meshIn q (opposite out) v ++ [s.sentFlit r out f]) := by
  have hd := detour_grantFlit (s := s) (r := r) (out := out) (v := v) (turn := turn) (count := count) (f := f) (h := h)
  simp only [State.grantFlit, MeshOut.grant, State.afterFlit] at hd
  simp only [State.hop, hs, ho, hout, if_true, hq, hd]
  rfl

theorem hop_local (hout : 4 ≤ out) : s.hop r out =
    (s.grantFlit r out v turn count f h).setMeshDone r out (s.meshDone r out ++ [f]) := by
  simp only [State.hop, hs, ho, Nat.not_lt.mpr hout, if_false]
  rfl

end

section
variable {s : State} {r out v : Nat} {f : Flit} {h : MeshHold}

/-- A packet that holds an output is followed by its further flits. -/
theorem offer_of_hold (hc : s.credit r out v = true) (hh : (s.meshOut r out).hold.find v none = some h)
    (hf : s.candidate r h.input v = some f) (hd : f.head = false) :
    s.offer r out v = some (f, { h with promoted := h.promoted || decide (s.agePromote r ≤ h.age) }) := by
  simp only [State.offer, hc, hh, hf, hd, Bool.not_true, Bool.false_eq_true, if_false, Option.bind_some]
  rfl

end

/-! ## Promotion and replays (R359, R361) -/

section
variable {s : State} {r i vc dir : Nat} {f : Flit} {fs : List Flit}

theorem exec_packetAgePromote_old (hi : s.meshIn r i vc = f :: fs) (hd : f.head = true) (hs : f.since ≤ s.now)
    (ha : s.agePromote r ≤ s.now - f.since) :
    exec (.packetAgePromote r i vc) s = .next (s.setMeshIn r i vc ({ f with promoted := true } :: fs)) := by
  have hp : s.flitPromoted r f = true := Bool.or_eq_true_iff.mpr (.inr (decide_eq_true ha))
  rw [exec_packetAgePromote, execPacketAgePromote]
  simp only [hi, hd, hs, hp, decide_true, Bool.and_self, if_true]

/-- A replay on a link that is up: one that fails is counted, and the sixteenth in a row takes the link down. -/
theorem exec_meshCrcReplay_up (hn : (meshNext r dir).isSome = true) (hd : (s.meshOut r dir).down = false) (ok : Bool) :
    exec (.meshCrcReplay r dir ok) s = .next (if ok then s.setMeshOut r dir { s.meshOut r dir with fails := 0 }
      else if 15 ≤ (s.meshOut r dir).fails then s.meshDown r dir
      else s.setMeshOut r dir { s.meshOut r dir with fails := (s.meshOut r dir).fails + 1 }) := by
  have hnone : (meshNext r dir).isNone = false := Option.isNone_eq_false_iff.mpr hn
  rw [exec_meshCrcReplay, execMeshCrcReplay]
  simp only [hnone, hd, Bool.false_and, Bool.or_self, Bool.false_eq_true, if_false]
  split
  · rfl
  · split <;> rfl

end

/-- Settles O10: a granted flit leaves its input for the far end of its link or for its endpoint, and each replay is counted. -/
theorem meshMoves : Obligations.MeshMoves := by
  refine ⟨fun r out v turn count f h q s hb hs hv ho hout hq => ?link, fun r out v turn count f h s hb hs hv ho hout => ?endpoint,
    fun r out v h f s => offer_of_hold, fun r i vc f fs s => exec_packetAgePromote_old, fun r dir s hn hd => exec_meshCrcReplay_up hn hd true,
    fun r dir s hn hd hlt => (exec_meshCrcReplay_up hn hd false).trans ?counted,
    fun r dir s hn hd hle => (exec_meshCrcReplay_up hn hd false).trans ?down⟩
  case link =>
    rw [exec_meshFlitHop_free hb hs, hop_link hv ho hout hq]
    refine ⟨_, rfl, sentAt_goVia sentAt_grantFlit _, ?_, mem_goVia _, unit_goVia _⟩
    rw [meshIn_setMeshIn_same, meshIn_goVia]
    rfl
  case endpoint =>
    rw [exec_meshFlitHop_free hb hs, hop_local hv ho hout]
    refine ⟨_, rfl, ?_, meshDone_setMeshDone_same .., rfl, rfl⟩
    rw [meshOut_setMeshDone]
    exact sentAt_grantFlit
  case counted => rw [if_neg Bool.false_ne_true, if_neg (Nat.not_le.mpr hlt)]
  case down => rw [if_neg Bool.false_ne_true, if_pos hle]

end Sys2Proof.Machine
end

section
/-! PROOFS. The memories at reset, and the register page, the launch register and the memory window of a function (spec/16 R446 to R453). -/
namespace Sys2Proof.Machine

/-- Settles O29: a reset state lists no byte, neither of the package's memory nor of a pool. -/
theorem resetMemoryCanonical : Obligations.ResetMemoryCanonical := ⟨rfl, rfl⟩

/-! ## What the first access of a function leaves (R445) -/

section
variable {s : State} {f : Nat}

@[simp] theorem func_seen (g : Nat) : (s.seen f).func g = s.func g := by
  unfold State.seen
  split <;> rfl

@[simp] theorem mem_seen : (s.seen f).mem = s.mem := by
  unfold State.seen
  split <;> rfl

@[simp] theorem unit_seen : (s.seen f).unit = s.unit := by
  unfold State.seen
  split <;> rfl

@[simp] theorem inReset_seen (g : Nat) : (s.seen f).inReset g = s.inReset g := by
  simp only [State.inReset, func_seen]

theorem hostAccess_up (h : s.hostUp = true) (g : State → State) : s.hostAccess f g = .next (g (s.seen f)) := if_pos h

/-! ## The launch register (R448) -/

/-- A write posts a launch where no reason drops it. -/
theorem exec_launchrWrite_started (h : s.started = true) (v : BitVec 64) :
    exec (.launchrWrite f v) s = .next (if (s.seen f).launchWhy f v.toNat = 0 then
      (s.seen f).postLaunch (fieldNat 52 10 v.toNat) (v.toNat % 2 ^ 52) else (s.seen f).dropLaunch f ((s.seen f).launchWhy f v.toNat)) := by
  rw [exec_launchrWrite, execLaunchrWrite, h]
  rfl

theorem exec_lstatClear_up (h : s.hostUp = true) (v : BitVec 64) :
    exec (.lstatClear f v) s = .next ((s.seen f).setFunc f { s.func f with
      drops := (s.func f).drops &&& ~~~(v.extractLsb' 32 32), why := (s.func f).why &&& ~~~(v.extractLsb' 0 8) }) := by
  rw [exec_lstatClear, execLstatClear, hostAccess_up h, func_seen]

/-! ## The register page (R447) -/

theorem exec_registerWrite_winbase (h : s.hostUp = true) (v : BitVec 64) :
    exec (.registerWrite f 0x048 v) s = .next ((s.seen f).setFunc f { s.func f with winbase := v &&& 0xFFFFFFFF00000000 }) := by
  rw [exec_registerWrite, execRegisterWrite, hostAccess_up h, func_seen]
  rfl

theorem exec_registerWrite_windom (h : s.hostUp = true) (v : BitVec 64) :
    exec (.registerWrite f 0x050 v) s = .next ((s.seen f).setFunc f { s.func f with windom := v.setWidth 10 }) := by
  rw [exec_registerWrite, execRegisterWrite, hostAccess_up h, func_seen]
  rfl

/-- A read that is not of one aligned register answers zeros. -/
theorem exec_registerPageBadAccess_read {off n : Nat} (h : s.hostUp = true) (hn : n ≠ 8 ∨ off % 8 ≠ 0) :
    exec (.registerPageBadAccess f off n false) s = .next { s with hub := { s.hub with readData := List.replicate n 0 } } := by
  have hbad : (decide (n = 8) && decide (off % 8 = 0)) = false := by
    obtain hn | hn := hn <;> simp [hn]
  rw [exec_registerPageBadAccess, execRegisterPageBadAccess]
  simp only [h, hbad, Bool.not_true, Bool.or_self, Bool.false_eq_true, if_false]

theorem exec_mbDoorbellBusy_running (h : s.hostUp = true) (hr : (s.func f).mbst = 1) (hf : s.inReset f = false) :
    exec (.mbDoorbellBusy f) s = .next ((s.seen f).setFunc f { s.func f with mberr := 1 }) := by
  rw [exec_mbDoorbellBusy, execMbDoorbellBusy, hostAccess_up h]
  simp only [func_seen, inReset_seen, hr, hf, decide_true, Bool.not_false, Bool.and_self, if_true]

/-! ## The memory window (R452), of the state that the access shows -/

section
variable {u t : State} {off n : Nat} (hs : s.seen f = u) (h : s.hostUp = true)
include hs h

theorem exec_windowRead_foreign (hn : off + n ≤ windowSize f) (hu : u.mayName f (u.func f).windom.toNat = false) :
    exec (.windowRead f off n) s = .next { u with hub := { u.hub with readData := List.replicate n 0xFF } } := by
  rw [exec_windowRead, execWindowRead, if_neg (Nat.not_lt.mpr hn), hostAccess_up h, hs]
  simp only [hu, Bool.not_false, if_true]

theorem exec_windowRead_bytes {bs : List Byte} (hn : off + n ≤ windowSize f) (hu : u.mayName f (u.func f).windom.toNat = true)
    (hm : u.memRead (u.func f).windom.toNat (u.func f).windom.toNat ((u.func f).winbase.toNat + off) n = (.inl bs, t)) :
    exec (.windowRead f off n) s = .next { t with hub := { t.hub with readData := bs } } := by
  rw [exec_windowRead, execWindowRead, if_neg (Nat.not_lt.mpr hn), hostAccess_up h, hs]
  simp only [hu, Bool.not_true, Bool.false_eq_true, if_false, hm]

/-- A read that fails answers bytes all the same, of which no rule says more. -/
theorem exec_windowRead_failed {e : MemFail} (hn : off + n ≤ windowSize f) (hu : u.mayName f (u.func f).windom.toNat = true)
    (hm : u.memRead (u.func f).windom.toNat (u.func f).windom.toNat ((u.func f).winbase.toNat + off) n = (.inr e, t)) :
    exec (.windowRead f off n) s =
      .next { t with free := t.free + 1, hub := { t.hub with readData := bytesOfNat n (Config.openValue 0x452 t.free) } } := by
  rw [exec_windowRead, execWindowRead, if_neg (Nat.not_lt.mpr hn), hostAccess_up h, hs]
  simp only [hu, Bool.not_true, Bool.false_eq_true, if_false, hm, State.openVal]

theorem exec_windowWrite_inside {bs : List Byte} (hn : off + bs.length ≤ windowSize f) :
    exec (.windowWrite f off bs) s = .next (if u.mayName f (u.func f).windom.toNat then
      u.memStore (u.func f).windom.toNat (u.func f).windom.toNat noDisp ((u.func f).winbase.toNat + off) bs else u) := by
  rw [exec_windowWrite, execWindowWrite, if_neg (Nat.not_lt.mpr hn), hostAccess_up h, hs]

end

end

/-- Settles O16: an access that the endpoint takes acts on the function's own page, and a window reads and writes for the domain that it names. -/
theorem hostRegisters : Obligations.HostRegisters := by
  refine ⟨fun f v s h hw => ?post, fun f v s h hw => ?drop, fun f v s h => ⟨_, exec_lstatClear_up h v, ?clear⟩,
    fun f v s h => ⟨_, exec_registerWrite_winbase h v, ?winbase⟩, fun f v s h => ⟨_, exec_registerWrite_windom h v, ?windom⟩,
    fun f off n s => exec_registerPageBadAccess_read, fun _ _ _ _ => rfl, fun f s => exec_mbDoorbellBusy_running,
    fun f off n bs t s hn h hu hm => exec_windowRead_bytes rfl h hn hu hm,
    fun f off n e t s hn h hu hm => ⟨_, length_bytesOfNat n _, exec_windowRead_failed rfl h hn hu hm⟩,
    fun f off n s hn h hu => exec_windowRead_foreign rfl h hn hu, fun f off bs s hn h => exec_windowWrite_inside rfl h hn⟩
  case post => rw [exec_launchrWrite_started h, if_pos hw]
  case drop => rw [exec_launchrWrite_started h, if_neg hw]
  case clear => simp
  case winbase | windom => simp

end Sys2Proof.Machine
end

section
/-! PROOFS. The commands of the mailbox (spec/16 R449 to R451). -/
namespace Sys2Proof.Machine

/-- The mailbox takes a doorbell for the command of this code, and nothing is left to see of its function. -/
def State.rings (s : State) (f code : Nat) : Prop :=
  s.hostUp = true ∧ s.inReset f = false ∧ (s.func f).mbst ≠ 1 ∧ (s.func f).arg 0 2 = code ∧ s.seen f = s

section
variable {s : State} {f code dom : Nat}

theorem doorbell_rings (h : s.rings f code) (run : Nat → State → State) : s.doorbell f code run = .next (run ((s.func f).arg 2 2) s) := by
  obtain ⟨hup, hr, hb, hc, hs⟩ := h
  rw [State.doorbell, hostAccess_up hup, hs]
  simp only [hr, hb, hc, decide_false, ne_eq, not_true_eq_false, Bool.or_self, Bool.false_eq_true, if_false]

theorem owned_of_owns (h : s.owns f dom = true) (run : State → State) : s.owned f dom run = run s := if_pos h

theorem owned_of_not_owns (h : s.owns f dom = false) (run : State → State) : s.owned f dom run = s.mbEnd f 2 :=
  if_neg (Bool.eq_false_iff.mp h)

/-! ## DESTROY and KILL -/

/-- The first doorbell of a command that runs on. -/
theorem terminateCmd_rings (h : s.rings f code) (finish : Nat → State → State) :
    s.terminateCmd f code finish = .next (s.owned f ((s.func f).arg 2 2) fun t =>
      (t.setFunc f { s.func f with mbst := 1, mberr := 0, running := some (code, (s.func f).arg 2 2) }).hostKill ((s.func f).arg 2 2) false) := by
  obtain ⟨hup, hr, hb, hc, hs⟩ := h
  rw [State.terminateCmd]
  simp only [hb, if_false]
  rw [hostAccess_up hup, hs]
  simp only [hr, hc, decide_false, ne_eq, not_true_eq_false, Bool.or_self, Bool.false_eq_true, if_false]

theorem terminateCmd_drained (hs : s.started = true) (hr : s.inReset f = false) (hb : (s.func f).mbst = 1)
    (hc : (s.func f).running = some (code, dom)) (hd : s.drained dom = true) (finish : Nat → State → State) :
    s.terminateCmd f code finish = .next ((finish dom s).mbEnd f 0) := by
  rw [State.terminateCmd]
  simp only [hb, hc, hs, hr, hd, if_true, Bool.not_false, decide_true, Bool.and_self]

/-- A command that runs on begins with a KILL of a domain that its function owns, and ends at once for another. -/
theorem terminates_of_terminateCmd {c : Nat → Instr} {finish : Nat → State → State}
    (hx : ∀ f s, exec (c f) s = s.terminateCmd f code finish) :
    (∀ f s, s.rings f code → s.owns f ((s.func f).arg 2 2) = true → exec (c f) s =
      .next ((s.setFunc f { s.func f with mbst := 1, mberr := 0, running := some (code, (s.func f).arg 2 2) }).hostKill
        ((s.func f).arg 2 2) false)) ∧
    ∀ f s, s.rings f code → s.owns f ((s.func f).arg 2 2) = false → exec (c f) s = .next (s.mbEnd f 2) :=
  ⟨fun f s h ho => by rw [hx, terminateCmd_rings h, owned_of_owns ho], fun f s h ho => by rw [hx, terminateCmd_rings h, owned_of_not_owns ho]⟩

/-! ## CREATE -/

theorem exec_mbCreate_free {c : Ctx} (h : s.rings f 1) (ho : s.owns f ((s.func f).arg 2 2) = true) (hc : (s.ctx ((s.func f).arg 2 2)).cst = 0)
    (ht : s.sag.token = none) (he : (s.func f).entryArgs = some c) :
    exec (.mbCreate f) s = .next (((((s.setCtx ((s.func f).arg 2 2) { c with cst := 0, func := f }).renewContext
      ((s.func f).arg 2 2)).freshKey ((s.func f).arg 2 2)).setCst ((s.func f).arg 2 2) 1).mbEnd f 0) := by
  rw [exec_mbCreate, execMbCreate, doorbell_rings h, owned_of_owns ho]
  simp only [hc, ht, he, ne_eq, not_true_eq_false, decide_false, Option.isSome_none, Bool.false_and, Bool.or_self, Bool.false_eq_true, if_false]

theorem exec_mbCreate_taken (h : s.rings f 1) (ho : s.owns f ((s.func f).arg 2 2) = true) (hc : (s.ctx ((s.func f).arg 2 2)).cst ≠ 0) :
    exec (.mbCreate f) s = .next (s.mbEnd f 3) := by
  rw [exec_mbCreate, execMbCreate, doorbell_rings h, owned_of_owns ho, decide_eq_true hc]
  rfl

/-! ## ASSIGN, of the domains that its arguments list -/

section
variable {doms : List Nat} (h : s.rings f 6) (hdoms : (List.range ((s.func f).arg 24 2)).map ((s.func f).arg 16 8 + ·) = doms)
include h hdoms

theorem exec_mbAssign_free (hf : f = 0) (ho : ∀ d ∈ doms, s.owns f d = true) (hn : (s.func f).arg 16 8 + (s.func f).arg 24 8 ≤ 1024)
    (hv : (s.func f).arg 8 8 < 64) (hc : ∀ d ∈ doms, (s.ctx d).cst = 0) :
    exec (.mbAssign f) s = .next ((doms.foldl (fun t d => t.setCtx d { t.ctx d with func := (s.func f).arg 8 8 }) s).mbEnd f 0) := by
  have howns : (doms.any fun d => !s.owns f d) = false := by simpa using ho
  have hfree : (doms.any fun d => decide ((s.ctx d).cst ≠ 0)) = false := by simpa using hc
  rw [exec_mbAssign, execMbAssign, doorbell_rings h]
  simp only [hdoms, howns, hfree, Nat.not_lt.mpr hn, Nat.not_le.mpr hv, not_not.mpr hf, decide_false, Bool.or_self, Bool.false_eq_true,
    if_false]

theorem exec_mbAssign_foreign (hd : dom ∈ doms) (ho : s.owns f dom = false) : exec (.mbAssign f) s = .next (s.mbEnd f 2) := by
  have hany : (doms.any fun d => !s.owns f d) = true := List.any_eq_true.mpr ⟨dom, hd, by rw [ho]; rfl⟩
  rw [exec_mbAssign, execMbAssign, doorbell_rings h]
  simp only [hdoms, hany, Bool.or_true, if_true]

end

/-! ## QUERY, CLRBOOT and SUPCFG -/

/-- What a QUERY of the PF finds is its response. -/
theorem query_found {sel : Nat → Bool} {answer : Nat → State → Option Nat} {v : Nat} (h : s.rings 0 7) (hs : sel ((s.func 0).arg 8 8) = true)
    (ha : answer ((s.func 0).arg 16 8) s = some v) : s.query 0 sel answer = .next (s.mbAnswer 0 0 (BitVec.ofNat 512 v)) := by
  rw [State.query, doorbell_rings h]
  simp only [hs, ha, Bool.not_true, Bool.false_eq_true, ne_eq, not_true_eq_false, if_false]

theorem exec_mbSupcfg_idle {c : Ctx} (h : s.rings 0 9) (hd : (s.func 0).arg 2 2 = 0) (he : (s.func 0).entryArgs = some c)
    (hb : s.superBusy = false) : exec (.mbSupcfg 0) s = .next ((s.setCtx 0 { c with wdog := (s.ctx 0).wdog }).mbEnd 0 0) := by
  rw [exec_mbSupcfg, execMbSupcfg, doorbell_rings h]
  simp only [hd, he, hb, ne_eq, not_true_eq_false, decide_true, decide_false, Bool.and_false, Bool.false_and, Bool.or_self,
    Bool.false_eq_true, if_false]

end

/-- Settles O17: the doorbell of a command runs it for the domain that the arguments name, and its function's ownership decides how it ends. -/
theorem mailboxCommands : Obligations.MailboxCommands := by
  refine ⟨fun f s c => exec_mbCreate_free, fun f s => exec_mbCreate_taken, terminates_of_terminateCmd exec_mbDestroy,
    terminates_of_terminateCmd exec_mbKill, fun f d s hs hr hb hc hd => ?kill, fun f d s hs hr hb hc hd => ?destroy,
    fun f s h ho => ?preempt, fun f s h ho => ?resume, fun s h ho hn hv hc => exec_mbAssign_free h rfl rfl ho hn hv hc,
    fun f s d h hd ho => exec_mbAssign_foreign h rfl hd ho, fun s k h hs hk => ?bootEntry, fun s r h hs hr => ?excluded,
    fun s h => ?clrboot, fun s c => exec_mbSupcfg_idle⟩
  case kill => rw [exec_mbKill, execMbKill, terminateCmd_drained hs hr hb hc hd]
  case destroy => rw [exec_mbDestroy, execMbDestroy, terminateCmd_drained hs hr hb hc hd]
  case preempt => rw [exec_mbPreempt, execMbPreempt, doorbell_rings h, owned_of_owns ho]
  case resume => rw [exec_mbResume, execMbResume, doorbell_rings h, owned_of_owns ho]
  case clrboot =>
    rw [exec_mbClrboot, execMbClrboot, doorbell_rings h]
    rfl
  case bootEntry =>
    rw [exec_mbQueryBootEntry, execMbQueryBootEntry]
    refine query_found h (by rw [hs]; rfl) ?_
    rw [if_pos hs, hk]
    rfl
  case excluded =>
    rw [exec_mbQueryExcluded, execMbQueryExcluded]
    refine query_found h (by rw [hs]; rfl) ?_
    rw [hr]
    rfl

end Sys2Proof.Machine
end

section
/-! PROOFS. Function-level reset, and the loss, hold and return of the host's link (spec/16 R454 to R457). -/
namespace Sys2Proof.Machine

/-! ## Folds that reach a fact at one of their elements -/

/-- What one element of a list brings about and every element keeps, the fold brings about. -/
theorem foldl_reaches {α β : Type} {P : β → Prop} {f : β → α → β} {a : α} (hkeep : ∀ b x, P b → P (f b x))
    (hget : ∀ b, P (f b a)) : ∀ {xs : List α}, a ∈ xs → ∀ b, P (xs.foldl f b)
  | x :: xs, ha, b => by
    obtain rfl | ha := List.mem_cons.mp ha
    · exact foldl_keeps hkeep xs _ (hget b)
    · exact foldl_reaches hkeep hget ha _

/-- As `foldl_reaches`, of a fold by index whose steps all keep `I`. -/
theorem foldUp_reaches {β : Type} {I P : β → Prop} {f : β → Nat → β} {n a : Nat} {b : β} (hI : I b) (hinv : ∀ b k, I b → I (f b k))
    (hkeep : ∀ b k, I b → P b → P (f b k)) (hget : ∀ b, I b → P (f b a)) (ha : a < n) : P (foldUp n b f) := by
  have hall : I (foldUp n b f) ∧ (a < n → P (foldUp n b f)) :=
    foldUp_induct (P := fun k b => I b ∧ (a < k → P b)) ⟨hI, nofun⟩ fun k b ⟨hi, hp⟩ => by
      refine ⟨hinv b k hi, fun hk => ?_⟩
      obtain hlt | rfl := Nat.lt_succ_iff_lt_or_eq.mp hk
      · exact hkeep b k hi (hp hlt)
      · exact hget b hi
  exact hall.2 ha

/-! ## What an event and a control body leave -/

/-- An event changes the rings alone. -/
theorem logEvent_eq_rings (s : State) (ring code payload dom origin : Nat) (always : Bool) :
    ∃ r, s.logEvent ring code payload dom origin always = { s with hub := { s.hub with rings := r } } := by
  unfold State.logEvent
  dsimp only
  split <;> exact ⟨_, rfl⟩

@[simp] theorem func_logEvent (s : State) (ring code payload dom origin : Nat) (always : Bool) (f : Nat) :
    (s.logEvent ring code payload dom origin always).func f = s.func f := by
  obtain ⟨r, hr⟩ := logEvent_eq_rings s ring code payload dom origin always
  rw [hr]
  rfl

@[simp] theorem ctx_logEvent (s : State) (ring code payload dom origin : Nat) (always : Bool) (d : Nat) :
    (s.logEvent ring code payload dom origin always).ctx d = s.ctx d := by
  obtain ⟨r, hr⟩ := logEvent_eq_rings s ring code payload dom origin always
  rw [hr]
  rfl

@[simp] theorem sag_logEvent (s : State) (ring code payload dom origin : Nat) (always : Bool) :
    (s.logEvent ring code payload dom origin always).sag = s.sag :=
  (congrArg State.sag (logEvent_eq s ring code payload dom origin always)).trans rfl

theorem sendFlit_eq_fab (s : State) (link : Nat) (w : OutFlit) : s.sendFlit link w = { s with fab := (s.sendFlit link w).fab } := by
  unfold State.sendFlit
  dsimp only
  split <;> rfl

theorem sendBodyTo_eq_fab (s : State) (b : FabMsg) (m : Nat) : s.sendBodyTo b m = { s with fab := (s.sendBodyTo b m).fab } := by
  unfold State.sendBodyTo
  split
  · exact sendFlit_eq_fab ..
  · rfl

/-- A control body changes the fabric alone. -/
theorem sendBody_eq_fab (s : State) (b : FabMsg) : s.sendBody b = { s with fab := (s.sendBody b).fab } :=
  foldl_keeps (P := fun t : State => t = { s with fab := t.fab })
    (fun t m ht => (sendBodyTo_eq_fab t b m).trans (congrArg (fun u : State => { u with fab := (t.sendBodyTo b m).fab }) ht)) _ _ rfl

theorem ctx_sendBody (s : State) (b : FabMsg) (d : Nat) : (s.sendBody b).ctx d = s.ctx d := by
  rw [sendBody_eq_fab]
  rfl

@[simp] theorem sag_setCst (s : State) (dom cst : Nat) : (s.setCst dom cst).sag = s.sag := by
  unfold State.setCst
  split
  · rfl
  · rw [sendBody_eq_fab]

theorem ctx_setCst_other (s : State) (dom cst : Nat) {d : Nat} (h : d ≠ dom) : (s.setCst dom cst).ctx d = s.ctx d := by
  unfold State.setCst
  split
  · rfl
  · exact (ctx_sendBody ..).trans (Map.find_put_other _ h ..)

/-! ## Function-level reset (R454, R455) -/

/-- A KILL of the domain, by a reset, stands among the notices. -/
def State.resetPosted (s : State) (dom : Nat) : Prop := ∃ cause, .kill dom cause 0 none true ∈ s.hub.log

theorem resetPosted_hostKill {s : State} {dom : Nat} (h : s.resetPosted dom) (d : Nat) : (s.hostKill d true).resetPosted dom :=
  h.imp fun _ => mem_log_post

theorem resetPosted_hostKill_self (s : State) (dom : Nat) : (s.hostKill dom true).resetPosted dom := ⟨_, mem_log_post_self ..⟩

theorem func_hostKill (s : State) (d f : Nat) : (s.hostKill d true).func f = s.func f := rfl

/-- The state of a reset that begins, before its KILL notices (R454). -/
def State.flrBegun (s : State) (f : Nat) : State :=
  let t := s.setFunc f { s.func f with flr := some 1 }
  { t with hub := { t.hub with
      sag := t.hub.sag.filter fun r => !r.dropped (s.resetDoms f)
      vfEnable := t.hub.vfEnable && f ≠ 0
      numVfs := if f = 0 then 0 else t.hub.numVfs } }

/-- A reset posts a KILL for each of its domains that is not FREE. -/
theorem startFlr_eq {s : State} {f : Nat} (hf : (s.func f).flr = none) : s.startFlr f =
    ((s.resetDoms f).filter fun d => (s.ctx d).cst ≠ 0).foldl (fun s d => s.hostKill d true) (s.flrBegun f) := by
  have hnone : (s.func f).flr.isSome = false := by rw [hf]; rfl
  rw [State.startFlr, State.flrBegun, hnone]
  generalize s.resetDoms f = doms
  rfl

theorem startFlr_begins {s : State} {f : Nat} (hf : (s.func f).flr = none) : ((s.startFlr f).func f).flr = some 1 := by
  rw [startFlr_eq hf]
  refine foldl_keeps (P := fun t : State => (t.func f).flr = some 1) (fun _ _ ht => by rw [func_hostKill, ht]) _ _ ?_
  have hfunc : (s.flrBegun f).func f = { s.func f with flr := some 1 } := func_setFunc_same ..
  rw [hfunc]

theorem startFlr_kills {s : State} {f d : Nat} (hf : (s.func f).flr = none) (hd : d ∈ s.resetDoms f) (hc : (s.ctx d).cst ≠ 0) :
    (s.startFlr f).resetPosted d := by
  rw [startFlr_eq hf]
  exact foldl_reaches (P := fun t : State => t.resetPosted d) (fun _ d' ht => resetPosted_hostKill ht d') (resetPosted_hostKill_self · d)
    (List.mem_filter.mpr ⟨hd, decide_eq_true hc⟩) _

/-- The domain's context is FREE, and its key slot EMPTY. -/
def State.forgets (s : State) (dom : Nat) : Prop := s.ctx dom = {} ∧ s.keySlot dom = none

theorem ctx_setFunc (s : State) (f : Nat) (v : Func) (d : Nat) : (s.setFunc f v).ctx d = s.ctx d := rfl

theorem ctx_loadKey (s : State) (slot : Nat) (k : Option KeyPair) (d : Nat) : (s.loadKey slot k).ctx d = s.ctx d := rfl

theorem ctx_dropImages (s : State) (dom d : Nat) : (s.dropImages dom).ctx d = s.ctx d := rfl

theorem ctx_wipeDomain_other (s : State) (f : Nat) {d dom : Nat} (h : dom ≠ d) : (s.wipeDomain f d).ctx dom = s.ctx dom := by
  simp only [State.wipeDomain, ctx_setCtx_other _ _ _ _ h, ctx_setCst_other _ _ _ h, ctx_dropImages, ctx_loadKey, ctx_setFunc]
  rfl

theorem keySlot_wipeDomain (s : State) (f d dom : Nat) : (s.wipeDomain f d).keySlot dom = (s.setKeySlot d none).keySlot dom := by
  simp only [State.keySlot, State.wipeDomain, setCtx_sag, sag_setCst]
  rfl

theorem forgets_wipeDomain_self (s : State) (f dom : Nat) : (s.wipeDomain f dom).forgets dom :=
  ⟨ctx_setCtx_same .., (keySlot_wipeDomain ..).trans (keySlot_setKeySlot_same ..)⟩

theorem forgets_wipeDomain {s : State} {dom : Nat} (h : s.forgets dom) (f d : Nat) : (s.wipeDomain f d).forgets dom := by
  obtain rfl | hd := eq_or_ne dom d
  · exact forgets_wipeDomain_self ..
  · obtain ⟨hc, hk⟩ := h
    exact ⟨(ctx_wipeDomain_other s f hd).trans hc, by rw [keySlot_wipeDomain, keySlot_setKeySlot_other _ _ _ _ hd, hk]⟩

/-- The functions that the reset of a function clears. -/
def State.clearFuncs (s : State) (f : Nat) : State := if f = 0 then foldUp 64 s fun s k => s.setFunc k {} else s.setFunc f {}

theorem func_clearFuncs (s : State) (f : Nat) : (s.clearFuncs f).func f = {} := by
  unfold State.clearFuncs
  split
  case isTrue hf =>
    subst hf
    refine foldUp_reaches (I := fun _ => True) (P := fun t : State => t.func 0 = {}) (f := fun t k => t.setFunc k {}) trivial
      (fun _ _ _ => trivial) (fun t k _ ht => ?keep) (fun t _ => func_setFunc_same t 0 {}) (Nat.zero_lt_succ 63)
    case keep =>
      obtain rfl | hk := eq_or_ne 0 k
      · exact func_setFunc_same t 0 {}
      · exact (func_setFunc_other t k {} 0 hk).trans ht
  case isFalse => exact func_setFunc_same ..

theorem forgets_setFunc {s : State} {dom : Nat} (h : s.forgets dom) (f : Nat) (v : Func) : (s.setFunc f v).forgets dom := h

theorem forgets_clearFuncs {s : State} {dom : Nat} (h : s.forgets dom) (f : Nat) : (s.clearFuncs f).forgets dom := by
  unfold State.clearFuncs
  split
  · exact foldUp_keeps (P := fun t : State => t.forgets dom) h fun _ k ht => forgets_setFunc ht k {}
  · exact forgets_setFunc h f {}

/-- The domains of a reset are wiped one by one. -/
def State.wipeAll (s : State) (f : Nat) (doms : List Nat) : State := doms.foldl (fun s d => s.wipeDomain f d) s

theorem forgets_wipeAll {f dom : Nat} {doms : List Nat} (h : dom ∈ doms) (s : State) : (s.wipeAll f doms).forgets dom :=
  foldl_reaches (P := fun t : State => t.forgets dom) (fun _ d ht => forgets_wipeDomain ht f d) (forgets_wipeDomain_self · f dom) h s

/-- A reset ends with the wipes of its domains, clears its functions, and says so. -/
theorem endFlr_eq (s : State) (f : Nat) : ∃ payload, s.endFlr f =
    ((s.wipeAll f (s.resetDoms f)).clearFuncs f).logEvent 8 0x5003 payload 0 0 true := by
  rw [State.endFlr]
  generalize s.resetDoms f = doms
  exact ⟨_, rfl⟩

theorem endFlr_ends (s : State) (f : Nat) : ((s.endFlr f).func f).flr = none := by
  obtain ⟨payload, he⟩ := endFlr_eq s f
  rw [he, func_logEvent, func_clearFuncs]

theorem endFlr_forgets {s : State} {f d : Nat} (hd : d ∈ s.resetDoms f) : (s.endFlr f).forgets d := by
  obtain ⟨payload, he⟩ := endFlr_eq s f
  obtain ⟨hc, hk⟩ := forgets_clearFuncs (forgets_wipeAll hd s) f
  rw [he]
  exact ⟨(ctx_logEvent ..).trans hc, by rw [State.keySlot, sag_logEvent]; exact hk⟩

theorem exec_flr_powered {s : State} (h : s.sag.power = true) (f : Nat) : exec (.flr f) s = .next (s.flrStep f) := if_pos h

/-! ## The host's link (R456, R457) -/

section
variable {s : State}

/-- A loss without a request before it starts the hold. -/
theorem exec_linkLoss_hold (hup : s.hub.linkUp = true) (hd : s.hub.powerDown = false) (hf : (s.func 0).flr = none) :
    exec .linkLoss s = .next (({ s with hub := { s.hub with linkUp := false, holdAt := some s.now, dropped := 0, released := false } } :
      State).logEvent 8 0x5004 0 0 0 true) := by
  rw [exec_linkLoss, execLinkLoss]
  simp only [hup, hd, hf, Bool.not_true, Bool.false_eq_true, if_false, Option.isSome_none, Bool.or_self]

theorem exec_linkLoss_requested (hup : s.hub.linkUp = true) (hd : s.hub.powerDown = true) :
    exec .linkLoss s = .next { s with hub := { s.hub with linkUp := false } } := by
  rw [exec_linkLoss, execLinkLoss]
  simp only [hup, hd, Bool.not_true, Bool.false_eq_true, if_false, Bool.true_or, if_true]

theorem exec_linkHoldExpiry_due {t₀ : Nat} (ht : s.hub.holdAt = some t₀) (hle : t₀ + s.holdCycles ≤ s.now) :
    exec .linkHoldExpiry s = .next s.expireHold := by
  rw [exec_linkHoldExpiry, execLinkHoldExpiry, ht]
  exact if_pos hle

/-- The link is up again. -/
def State.linkBack (s : State) : State := { s with hub := { s.hub with linkUp := true, powerDown := false } }

section
variable (hup : s.hub.linkUp = false) (hs : s.started = true)
include hup hs

theorem exec_linkRetrain_free (ht : s.hub.holdAt = none) : exec .linkRetrain s = .next s.linkBack := by
  rw [exec_linkRetrain, execLinkRetrain]
  simp only [hup, hs, ht, Bool.not_true, Bool.or_self, Bool.false_eq_true, if_false, State.linkBack]

theorem exec_linkRetrain_late {t₀ : Nat} (ht : s.hub.holdAt = some t₀) (hle : t₀ + s.holdCycles ≤ s.now) :
    exec .linkRetrain s = .next s.expireHold.linkBack := by
  rw [exec_linkRetrain, execLinkRetrain]
  simp only [hup, hs, ht, hle, Bool.not_true, Bool.or_self, Bool.false_eq_true, if_false, if_true, State.linkBack]

/-- A return within the hold releases it. -/
theorem exec_linkRetrain_held {t₀ : Nat} (ht : s.hub.holdAt = some t₀) (hlt : s.now < t₀ + s.holdCycles) :
    exec .linkRetrain s = .next ((({ s.linkBack with hub := { s.linkBack.hub with holdAt := none } } : State).logEvent 8 0x5005
      s.hub.dropped.toNat 0 0 true).resignal.release) := by
  rw [exec_linkRetrain, execLinkRetrain]
  simp only [hup, hs, ht, Nat.not_le.mpr hlt, Bool.not_true, Bool.or_self, Bool.false_eq_true, if_false, State.linkBack]

end

theorem exec_hotReset_started (hs : s.started = true) : exec .hotReset s =
    .next (if s.hub.holdAt.isSome then s.expireHold.linkBack else s.linkBack.startFlr 0) := by
  rw [exec_hotReset, execHotReset, hs]
  rfl

end

/-- Settles O18: a reset kills and then wipes domain by domain, and whether the link is down and held decides what its return does. -/
theorem resetsAndLink : Obligations.ResetsAndLink := by
  refine ⟨fun f s hp hf => ?begins, fun f s d hf hd hc => ⟨startFlr_begins hf, startFlr_kills hf hd hc⟩, fun f p s hp hf hd => ?ends,
    fun f s d hd => ?free, fun s hup hd hf => ⟨_, exec_linkLoss_hold hup hd hf, ?lost⟩, fun s => exec_linkLoss_requested,
    fun t₀ s => exec_linkHoldExpiry_due, fun s hup hs => exec_linkRetrain_free hup hs, fun t₀ s hup hs => exec_linkRetrain_late hup hs,
    fun t₀ s hup hs => exec_linkRetrain_held hup hs, fun s hs ht => ?reset, fun t₀ s hs ht => ?resetHeld, fun s hp hr => ?down,
    fun s hr => ?rom⟩
  case begins => rw [exec_flr_powered hp, State.flrStep, hf]; rfl
  case ends => rw [exec_flr_powered hp, State.flrStep, hf, hd]; rfl
  case free =>
    obtain ⟨hc, hk⟩ := endFlr_forgets hd
    exact ⟨by rw [hc], hk, endFlr_ends s f⟩
  case lost =>
    obtain ⟨r, hr⟩ := logEvent_eq_rings { s with hub := { s.hub with linkUp := false, holdAt := some s.now, dropped := 0, released := false } }
      8 0x5004 0 0 0 true
    rw [hr]
    exact ⟨rfl, rfl, rfl, rfl⟩
  case reset => rw [exec_hotReset_started hs, ht]; rfl
  case resetHeld => rw [exec_hotReset_started hs, ht]; rfl
  case down => rw [exec_pldmPowerDown, execPldmPowerDown, hp, hr]; rfl
  case rom => rw [exec_pldmPowerDown, execPldmPowerDown, hr, Bool.not_true, Bool.and_false]; rfl

end Sys2Proof.Machine
end

section
/-! PROOFS. What starts, resets, power loss and heat leave (spec/16 R463 to R466, R469, R474, R477). -/
namespace Sys2Proof

theorem Map.findIn_filter {α : Type} (d : α) (p : Nat → Bool) (k : Nat) : ∀ cs : List (Nat × α),
    Map.findIn d k (cs.filter fun c => p c.1) = if p k then Map.findIn d k cs else d
  | [] => (ite_self d).symm
  | (j, v) :: cs => by
    have ih := Map.findIn_filter d p k cs
    by_cases hj : j = k
    · subst hj
      cases hp : p j <;> simp [List.filter, Map.findIn, hp, ih]
    · cases hp : p j <;> simp [List.filter, Map.findIn, hp, hj, ih]

theorem Map.find_erase {α : Type} (m : Map α) (lo n k : Nat) (d : α) :
    (m.erase lo n).find k d = if lo ≤ k ∧ k < lo + n then d else m.find k d := by
  rw [Map.erase, Map.find, Map.findIn_filter d (fun k => !(decide (lo ≤ k) && decide (k < lo + n)))]
  by_cases h : lo ≤ k ∧ k < lo + n <;> simp [h, Map.find]

end Sys2Proof

namespace Sys2Proof.Machine

/-! ## Starts (R463, R469) -/

theorem exec_coldStart_off {s : State} (h : s.sag.power = false ∨ s.sag.starts = 0) : exec .coldStart s = .next (s.cooled.tryStarts true 4) := by
  refine if_neg ?_
  obtain h | h := h <;> simp [h]

theorem warmReset_powered {s : State} (hp : s.sag.power = true) (hm : s.sag.mgmtOnly = false) :
    s.warmReset = s.warmed.tryStarts false (4 - s.sag.failed) := by
  rw [State.warmReset, hp, hm]
  rfl

/-- A table that lists key 0 alone. -/
theorem find_single_other {α : Type} (v d : α) {k : Nat} (h : k ≠ 0) : Map.find ⟨[(0, v)]⟩ k d = d := if_neg h.symm

theorem keySlot_warmed_other (s : State) {k : Nat} (h : k ≠ 0) : s.warmed.keySlot k = none := find_single_other _ _ h

theorem keySlot_cooled_other (s : State) {k : Nat} (h : k ≠ 0) : s.cooled.keySlot k = none := find_single_other _ _ h

theorem measReg_warmed (s : State) (k : Nat) : s.warmed.measReg k = ((s.sag.meas.erase 0 7).erase 8 8).find k 0 := rfl

/-- A warm reset keeps measurement register 7, and no other. -/
theorem measReg_warmed_seven (s : State) : s.warmed.measReg 7 = s.measReg 7 := by
  rw [measReg_warmed, Map.find_erase, if_neg (by decide), Map.find_erase, if_neg (by decide)]
  rfl

theorem measReg_warmed_other (s : State) {k : Nat} (hk : k < 16) (h7 : k ≠ 7) : s.warmed.measReg k = 0 := by
  rw [measReg_warmed, Map.find_erase, Map.find_erase]
  obtain h | h : 8 ≤ k ∨ k < 7 := by omega
  · rw [if_pos ⟨h, by omega⟩]
  · rw [if_neg (by omega), if_pos ⟨Nat.zero_le k, by omega⟩]

/-! ## The boot record (R464) -/

section
variable {g : SagState}

theorem record_of_second (h : g.second = true) : g.record = g.boot1 := if_pos h

theorem record_of_first (h : g.second = false) (h0 : g.boot0.valid = true) : g.record = g.boot0 := by
  rw [SagState.record, h, h0]
  rfl

/-- The valid copy with the higher number is the one in use. -/
theorem second_eq_false (h0 : g.boot0.valid = true) (h : g.boot1.seq ≤ g.boot0.seq) : g.second = false := by
  rw [SagState.second, h0, decide_eq_false (Nat.not_lt.mpr h), Bool.not_true, Bool.or_self, Bool.and_false]

theorem second_eq_true (h1 : g.boot1.valid = true) (h : g.boot0.seq < g.boot1.seq) : g.second = true := by
  rw [SagState.second, h1, decide_eq_true h, Bool.or_true, Bool.and_self]

/-- Where the first copy is not valid, the second is in use just if it is valid. -/
theorem second_of_boot0_invalid (h0 : g.boot0.valid = false) : g.second = g.boot1.valid := by
  rw [SagState.second, h0, Bool.not_false, Bool.true_or, Bool.and_true]

end

/-- The copy that is written last is the one in use. -/
theorem record_setBootEntry (s : State) (key : Nat) (e : BootEntry) :
    (s.setBootEntry key e).sag.record = { seq := s.sag.record.seq + 1, entries := s.sag.record.entries.put key e {} } := by
  rw [State.setBootEntry]
  cases hs : s.sag.second
  case true => exact record_of_first (second_eq_false rfl (by rw [record_of_second hs]; exact Nat.le_succ _)) rfl
  case false =>
    cases h0 : s.sag.boot0.valid
    case true => exact record_of_second (second_eq_true rfl (by rw [record_of_first hs h0]; exact Nat.lt_succ_self _))
    case false =>
      have h1 : s.sag.boot1.valid = false := (second_of_boot0_invalid h0).symm.trans hs
      refine record_of_first ?_ rfl
      rw [SagState.second]
      simp only [Bool.not_false, Bool.or_true, if_true, h1, Bool.false_and]

theorem bootEntry_setBootEntry_same (s : State) (key : Nat) (e : BootEntry) : (s.setBootEntry key e).bootEntry key = e := by
  rw [State.bootEntry, record_setBootEntry]
  exact Map.find_put_same ..

theorem stepFailed_eq {s t : State} {key : Nat} (h : s.setBootEntry key { s.bootEntry key with last := 3 } = t) :
    s.stepFailed key = { t.bootEvent 0x5001 key with sag := { t.sag with failed := t.sag.failed + 1 } } := by
  rw [State.stepFailed, h, State.bootEvent, sag_logEvent]

/-- A failed step stands in its entry. -/
theorem bootEntry_stepFailed (s : State) (key : Nat) : (s.stepFailed key).bootEntry key = { s.bootEntry key with last := 3 } := by
  rw [stepFailed_eq rfl]
  exact bootEntry_setBootEntry_same ..

/-- With the second copy in use, the first is written. -/
theorem setBootEntry_second {s : State} (h : s.sag.second = true) (key : Nat) (e : BootEntry) :
    (s.setBootEntry key e).sag.boot1 = s.sag.boot1 ∧ (s.setBootEntry key e).sag.boot0.seq = s.sag.boot1.seq + 1 := by
  rw [State.setBootEntry, record_of_second h, h]
  exact ⟨rfl, rfl⟩

/-! ## Heat (R477) -/

/-- The event of heat changes the rings alone, beside the free values that it draws. -/
theorem heatEvent_eq (s : State) : ∃ r, s.heatEvent = { s with hub := { s.hub with rings := r }, free := s.free + 2 } := by
  obtain ⟨r, hr⟩ := logEvent_eq_rings { s with free := s.free + 2 } 8 (0x6000 + Config.openValue 0x6000 s.free % 4096)
    (Config.openValue 0x6001 (s.free + 1)) 0 0 false
  exact ⟨r, hr⟩

/-- Settles O19: a reset keeps what stands in fuses and flash, and a warm one what stands in device memory; a failed step is recorded in the copy
that is not in use. -/
theorem startsAndPower : Obligations.StartsAndPower := by
  refine ⟨fun s => exec_coldStart_off, fun s => ⟨rfl, rfl, rfl, rfl, rfl, rfl, rfl, rfl, fun k => keySlot_cooled_other s⟩, fun s hp hm => ?warm,
    fun s => ⟨rfl, rfl, rfl, rfl, rfl, rfl, rfl, rfl, fun k => keySlot_warmed_other s, measReg_warmed_seven s,
      measReg_warmed_other s (by decide) (by decide)⟩, fun step unit s h => ?hung,
    fun key s => ⟨bootEntry_setBootEntry_same .., stepFailed_eq rfl, bootEntry_stepFailed s key⟩,
    fun k s h _ e => setBootEntry_second h k e, fun s => ⟨_, rfl, rfl, rfl, fun _ => rfl, rfl, rfl, rfl⟩, fun die s hp => ?throttle,
    fun die s hp => ?shutdown⟩
  case warm => rw [exec_warmReset, execWarmReset, warmReset_powered hp hm]
  case hung =>
    rw [exec_bootStepTimeout, execBootStepTimeout]
    simp only [h, if_true]
  case throttle =>
    obtain ⟨r, hr⟩ := heatEvent_eq (s.setDieOf die { s.dieOf die with throttled := true })
    refine ⟨_, by rw [exec_thermalThrottle, execThermalThrottle, hp]; rfl, ?_⟩
    rw [hr]
    exact ⟨congrArg Die.throttled (dieOf_setDieOf_same ..), rfl, rfl⟩
  case shutdown => rw [exec_thermalShutdown, execThermalShutdown, hp]; rfl

end Sys2Proof.Machine
end

section
/-! PROOFS. The sideband's reads and writes, and the lifecycle (spec/16 R460, R462 to R464, R467, R468, spec/17 R480, R481). -/
namespace Sys2Proof.Machine

/-! ## Answers and readings (R460 to R464, R480) -/

/-- The Saggar serves the sideband: it has power and does not recover from its boot ROM. -/
def State.serves (s : State) : Prop := s.sag.power = true ∧ s.sag.romOnly = false

section
variable {s : State}

theorem answer_serves (h : s.serves) (bs : List Byte) : s.answer bs = .next { s with hub := { s.hub with sideband := bs } } := by
  obtain ⟨hp, hr⟩ := h
  rw [State.answer, hp, hr]
  rfl

/-- A discovery answers the types that the Saggar carries, and free bytes behind them. -/
theorem exec_pldmDiscovery_answer (s : State) : ∃ bs, exec .pldmDiscovery s =
    ({ s with free := s.free + 2 } : State).answer (bytesOfNat 8 0x25 ++ bs) :=
  ⟨_, rfl⟩

theorem exec_pldmDiscovery_rom (hr : s.sag.romOnly = true) : exec .pldmDiscovery s = .next { s with free := s.free + 2 } := by
  obtain ⟨bs, h⟩ := exec_pldmDiscovery_answer s
  rw [h, State.answer, hr, Bool.not_true, Bool.and_false]
  rfl

theorem exec_pldmSensorRead_health {n : Nat} (hn : n < 8) (h : s.serves) :
    exec (.pldmSensorRead n) s = .next { s with hub := { s.hub with sideband := [BitVec.ofNat 8 (s.dieHealth n)] } } := by
  rw [exec_pldmSensorRead, execPldmSensorRead, if_pos hn, answer_serves h]

theorem exec_pldmSensorRead_reading {n : Nat} (hn : 8 ≤ n) (h : s.serves) : exec (.pldmSensorRead n) s =
    .next { s with hub := { s.hub with sideband := bytesOfNat 8 (Config.sensor (n + 2 ^ 16 * s.free)) }, free := s.free + 1 } := by
  rw [exec_pldmSensorRead, execPldmSensorRead, if_neg (Nat.not_lt.mpr hn)]
  exact answer_serves (s := { s with free := s.free + 1 }) h _

theorem exec_blackBoxRead_event {r k : Nat} {e : BitVec 128} (h : s.serves) (he : (s.ring r).events[k]? = some e) :
    exec (.blackBoxRead r k) s =
      .next { s with hub := { s.hub with sideband := bytesOfNat 4 (s.ring r).count.toNat ++ bytesOfNat 16 e.toNat } } := by
  rw [exec_blackBoxRead, execBlackBoxRead]
  simp only [he]
  exact answer_serves h _

theorem exec_bootRecordRead_unit {n k : Nat} (h : s.serves) (hk : bootUnits[n]? = some k) :
    exec (.bootRecordRead n) s = .next { s with hub := { s.hub with sideband := bytesOfNat 16 (s.bootBits k).toNat } } := by
  rw [exec_bootRecordRead, execBootRecordRead, hk]
  exact answer_serves h _

theorem exec_peerEpochRead_trained {l m : Nat} (h : s.serves) (hp : (s.fabLink l).peer = some m) : exec (.peerEpochRead l) s =
    .next { s with hub := { s.hub with sideband := bytesOfNat 1 m ++ bytesOfNat 4 (s.fabLink l).epoch.toNat } } := by
  rw [exec_peerEpochRead, execPeerEpochRead, hp]
  exact answer_serves h _

theorem exec_sidebandAttest_signed {n : BitVec 128} {bs : List Byte} {t : State} (h : t.serves)
    (hr : s.signedReport 0 n.toNat true = (some bs, t)) : exec (.sidebandAttest n) s = .next { t with hub := { t.hub with sideband := bs } } := by
  rw [exec_sidebandAttest, execSidebandAttest, hr]
  exact answer_serves h _

/-! ## Updates and writes (R460, R464, R481) -/

/-- An image that the vendor has not signed is not taken. -/
theorem exec_pldmFirmwareUpdate_refused {c p : Nat} {img man : List Byte} (hs : s.sag.power = true) (hp : 2 ≤ p)
    (hv : (s.vendorKeyOk && s.vendorSigned man 64 && decide (Sm.sm3 img = (man.drop 16).take 32)) = false) :
    exec (.pldmFirmwareUpdate c img man p) s = .next s := by
  rw [exec_pldmFirmwareUpdate, execPldmFirmwareUpdate]
  simp only [hs, Nat.not_lt.mpr hp, hv, Bool.not_true, Bool.not_false, Bool.false_eq_true, if_false, if_true]

theorem exec_pldmFirmwareUpdate_image0 {p : Nat} {img man : List Byte} (hs : s.sag.power = true) (hp : 2 ≤ p)
    (hv : (s.vendorKeyOk && s.vendorSigned man 64 && decide (Sm.sm3 img = (man.drop 16).take 32)) = true) :
    exec (.pldmFirmwareUpdate 0 img man p) s =
      .next { s with sag := { s.sag with image0 := some (BitVec.ofNat 256 (natOfBytes ((man.drop 16).take 32))) } } := by
  rw [exec_pldmFirmwareUpdate, execPldmFirmwareUpdate]
  simp only [hs, Nat.not_lt.mpr hp, hv, Bool.not_true, Bool.false_eq_true, if_false, if_true]

theorem exec_startCounterWrite_lost (h : s.serves) (h0 : s.sag.start0 = none) (h1 : s.sag.start1 = none) (v : BitVec 32) :
    exec (.startCounterWrite v) s = .next { s with sag := { s.sag with start0 := some v, start1 := some v } } := by
  obtain ⟨hp, hr⟩ := h
  rw [exec_startCounterWrite, execStartCounterWrite, hp, hr, h0, h1]
  rfl

theorem exec_startCounterWrite_valid {x : BitVec 32} (h0 : s.sag.start0 = some x) (v : BitVec 32) : exec (.startCounterWrite v) s = .next s := by
  rw [exec_startCounterWrite, execStartCounterWrite, h0]
  simp only [Option.isNone_some, Bool.and_false, Bool.false_and, Bool.false_eq_true, if_false]

theorem exec_fabricMapWrite_serves (h : s.serves) (f m : Nat) (es : List (BitVec 16)) :
    exec (.fabricMapWrite f m es) s = .next { s with fab := { s.fab with flashMap := some (f, m, es) } } := by
  obtain ⟨hp, hr⟩ := h
  rw [exec_fabricMapWrite, execFabricMapWrite, hp, hr]
  rfl

/-! ## Lifecycle (R467, R468) -/

/-- The lifecycle fuses are blown beside those that are, and nothing else of the Saggar changes. -/
theorem advanceLife_sag (s : State) (code new : Nat) : (s.advanceLife code new).sag = (s.setFuse 0 (s.fuse 0 ||| BitVec.ofNat 256 code)).sag :=
  sag_logEvent ..

theorem fuse_advanceLife (s : State) (code new : Nat) : (s.advanceLife code new).fuse 0 = s.fuse 0 ||| BitVec.ofNat 256 code := by
  rw [State.fuse, advanceLife_sag]
  exact fuse_setFuse_same ..

theorem mem_advanceLife (s : State) (code new : Nat) : (s.advanceLife code new).mem = s.mem := by
  rw [State.advanceLife, logEvent_eq]
  rfl

theorem exec_vendorProvision_blank (h : s.serves) (hl : s.lifecycle = 0) : ∃ key, exec .vendorProvision s =
    .next (({ s with sag := { s.sag with identity := some key } } : State).advanceLife 1 1) := by
  obtain ⟨hp, hr⟩ := h
  refine ⟨Config.identityKey ((List.range 16).map fun k => s.fuse (48 + k)), ?_⟩
  rw [exec_vendorProvision, execVendorProvision, hp, hr, hl]
  rfl

theorem exec_productionFusing_provisioned (h : s.serves) (hl : s.lifecycle = 1) : exec .productionFusing s = .next (s.advanceLife 3 2) := by
  obtain ⟨hp, hr⟩ := h
  rw [exec_productionFusing, execProductionFusing, hp, hr, hl]
  rfl

/-- A token whose checks all pass, from PROVISIONED or PRODUCTION. -/
theorem exec_rmaToken_passes {tok : List Byte} (h : s.serves) (hl : s.lifecycle = 1 ∨ s.lifecycle = 2) (ht : tok.length = 96)
    (hc : firstFailing (s.tokenChecks tok) = none) : exec (.rmaToken tok) s = .next (s.advanceLife 7 3) := by
  obtain ⟨hp, hr⟩ := h
  rw [exec_rmaToken, execRmaToken, hp, hr, ht, hc]
  obtain hl | hl := hl <;> rw [hl] <;> rfl

/-- A module that recovers from its boot ROM keeps its lifecycle. -/
theorem exec_lifecycle_rom (hr : s.sag.romOnly = true) (tok : List Byte) :
    exec .productionFusing s = .next s ∧ exec (.rmaToken tok) s = .next s := by
  rw [exec_productionFusing, execProductionFusing, exec_rmaToken, execRmaToken, hr]
  simp only [Bool.or_true, Bool.true_or, if_true, and_self]

end

/-- Settles O20: a module that serves the sideband answers and takes what is asked of it, and each step of the lifecycle blows fuses beside those that
are. -/
theorem sidebandAndLifecycle : Obligations.SidebandAndLifecycle := by
  refine ⟨fun s h => ?discovery, fun n s => exec_pldmSensorRead_health, fun c img man p s => exec_pldmFirmwareUpdate_refused,
    fun img man p s hs hp hk hv hd => exec_pldmFirmwareUpdate_image0 hs hp (by rw [hk, hv, decide_eq_true hd]; rfl),
    fun r k e s => exec_blackBoxRead_event, fun n k s => exec_bootRecordRead_unit,
    fun v s h h0 h1 => exec_startCounterWrite_lost h h0 h1 v,
    fun n s hn h => ⟨_, exec_pldmSensorRead_reading hn h, rfl, length_bytesOfNat 8 _⟩, fun s _ => exec_pldmDiscovery_rom,
    fun v x s h0 => exec_startCounterWrite_valid h0 v, fun l m s => exec_peerEpochRead_trained,
    fun n bs t s => exec_sidebandAttest_signed, fun f m es s h => exec_fabricMapWrite_serves h f m es, fun s h hl => ?provision,
    fun tok s hr => exec_lifecycle_rom hr tok,
    fun s hp hr hl => ⟨_, exec_productionFusing_provisioned ⟨hp, hr⟩ hl, fuse_advanceLife .., mem_advanceLife ..⟩,
    fun tok s hp hr hl ht hc => ⟨_, exec_rmaToken_passes ⟨hp, hr⟩ hl ht hc, fuse_advanceLife .., mem_advanceLife ..⟩⟩
  case discovery =>
    obtain ⟨bs, hx⟩ := exec_pldmDiscovery_answer s
    refine ⟨_, hx.trans (answer_serves (s := { s with free := s.free + 2 }) h _), rfl, ?_⟩
    exact List.take_left' (length_bytesOfNat ..)
  case provision =>
    obtain ⟨key, hx⟩ := exec_vendorProvision_blank h hl
    refine ⟨_, hx, ?_, fuse_advanceLife .., mem_advanceLife ..⟩
    rw [advanceLife_sag]
    rfl

end Sys2Proof.Machine
end

section
/-! PROOFS. Links between modules, and the bodies that they carry (spec/17 R478 to R485, R490 to R492). -/
namespace Sys2Proof.Machine

/-! ## Frames (R478, R479) -/

section
variable {s : State} {l : Nat}

/-- The link after a frame in order: what it acknowledges has left the replay buffer, and flits that wait may go. -/
def State.frameTaken (s : State) (l : Nat) (f : BitVec 576) : State :=
  let got : FabLink := { s.fabLink l with lack := bitsOf 52 12 f, replay := dropAcked (bitsOf 40 12 f) (s.fabLink l).replay }
  s.setFabLink l (got.pump (s.setFabLink l got).hubDoms)

theorem exec_linkFrameReceive_next {f : BitVec 576} (hup : (s.fabLink l).st = .up) (hc : Config.lcrc (f.extractLsb' 32 544) = f.extractLsb' 0 32)
    (hn : bitsOf 52 12 f = ((s.fabLink l).lack + 1) % 4096) : exec (.linkFrameReceive l f) s =
      .next (if bitsOf 36 2 f = 0 then (s.frameTaken l f).takeFlit l (bitsOf 38 2 f) (f.extractLsb' 64 512)
        else if bitsOf 36 2 f = 2 then (s.frameTaken l f).takeBody (f.extractLsb' 64 512) else s.frameTaken l f) := by
  have hok : (decide ((s.fabLink l).st ≠ .up) || decide (Config.lcrc (f.extractLsb' 32 544) ≠ f.extractLsb' 0 32)) = false := by simp [hup, hc]
  rw [exec_linkFrameReceive, execLinkFrameReceive, State.frameTaken]
  simp only [hok, Bool.false_eq_true, if_false, if_neg (not_not.mpr hn)]
  generalize bitsOf 36 2 f = kind
  split
  · rfl
  · rfl
  · rw [if_neg ‹_›, if_neg ‹_›]

theorem exec_linkFrameReceive_dropped {f : BitVec 576} (h : Config.lcrc (f.extractLsb' 32 544) ≠ f.extractLsb' 0 32 ∨
    bitsOf 52 12 f ≠ ((s.fabLink l).lack + 1) % 4096) : exec (.linkFrameReceive l f) s = .next s := by
  rw [exec_linkFrameReceive, execLinkFrameReceive]
  obtain h | h := h
  · rw [if_pos (by simp [h])]
  · simp only [if_pos h, ite_self]

end

section
variable {l : FabLink} {doms : List Nat} {w : OutFlit}

theorem offer_taken (hv : ∀ x ∈ l.waiting, x.vc ≠ w.vc) (hr : l.replay.length < 256)
    (hd : ∀ d, w.dom = some d → fits (doms ++ l.doms).eraseDups d = true) : l.offer doms w =
      { l with replay := l.replay ++ [{ bits := packFrame w.bits w.vc w.fk l.lseq l.lack, dom := w.dom }], lseq := (l.lseq + 1) % 4096 } := by
  have hfree : (l.waiting.any fun x => decide (x.vc = w.vc)) = false := by simpa using hv
  have hfits : w.dom.elim true (fits (doms ++ l.doms).eraseDups) = true := by
    cases hw : w.dom with
    | none => rfl
    | some d => exact hd d hw
  rw [FabLink.offer, decide_eq_true hr, hfree, hfits]
  rfl

theorem offer_waits (h : 256 ≤ l.replay.length ∨ (∃ x ∈ l.waiting, x.vc = w.vc) ∨
    ∃ d, w.dom = some d ∧ fits (doms ++ l.doms).eraseDups d = false) : l.offer doms w = { l with waiting := l.waiting ++ [w] } := by
  refine if_neg (Bool.eq_false_iff.mp ?_)
  obtain hr | ⟨x, hx, hv⟩ | ⟨d, hw, hd⟩ := h
  · rw [decide_eq_false (Nat.not_lt.mpr hr), Bool.false_and, Bool.false_and]
  · rw [List.any_eq_true.mpr ⟨x, hx, decide_eq_true hv⟩, Bool.not_true, Bool.and_false, Bool.false_and]
  · rw [hw, Option.elim_some, hd, Bool.and_false]

end

/-! ## Replays and training (R479, R480) -/

section
variable {s : State} {l : Nat}

/-- A replay on a link that is up: one that fails is counted, and the sixteenth in a row takes the link down. -/
theorem exec_linkReplay_up (hup : (s.fabLink l).st = .up) (ok : Bool) : exec (.linkReplay l ok) s =
    .next (if ok then s.setFabLink l { s.fabLink l with fails := 0 }
      else if 15 ≤ (s.fabLink l).fails then s.bexDown l
      else s.setFabLink l { s.fabLink l with fails := (s.fabLink l).fails + 1 }) := by
  rw [exec_linkReplay, execLinkReplay]
  simp only [hup, ne_eq, not_true_eq_false, if_false]
  split
  · rfl
  · split <;> rfl

theorem exec_receiverLockLoss_up (hup : (s.fabLink l).st = .up) : exec (.receiverLockLoss l) s = .next (s.bexDown l) := if_pos hup

/-- The link after a training, and what it says of the peer on every link that met it. -/
def State.trained (s : State) (l mid : Nat) (ep : BitVec 32) (rx : Bool) : State :=
  ((s.sendIdentity l).setFabLink l { s.fabLink l with
    st := .up, lseq := 0, lack := 0xFFF, replay := [], waiting := [], fails := 0, peer := some mid, epoch := ep, rawx := rx
    cont := {}, got := {} }).keepPeer mid ep rx

/-- What follows a training: the modules that the link leads to are reachable, and what was on its way to the peer goes out again (log entry 120). -/
def State.rejoin (s : State) (l mid : Nat) (ep : BitVec 32) : State :=
  let t : State := { s with fab := { s.fab with unreachable := s.fab.unreachable.filter fun m => !decide (s.currentLink m = some l) } }
  ((((t.fabEvent 0x7002 0).learnEpoch mid ep).rerouteAtoms.rerouteExch).sendContexts).fabAdvance

/-- A link that is down trains with a peer of this fabric that bears another number; another peer disables it. -/
theorem exec_bexwenRetrain_down (hd : (s.fabLink l).st = .down) (fid mid : Nat) (ep : BitVec 32) (rx : Bool) :
    exec (.bexwenRetrain l fid mid ep rx) s =
      .next (if fid ≠ s.fab.fabricId || mid = s.fab.moduleId then
        ((s.sendIdentity l).setFabLink l { s.fabLink l with st := .disabled }).fabEvent 0x7006 0
      else (s.trained l mid ep rx).rejoin l mid ep) := by
  refine (if_neg (not_not.mpr hd)).trans ?_
  split
  · rfl
  · generalize ht : s.trained l mid ep rx = t
    rw [State.trained] at ht
    dsimp only at ht ⊢
    rw [ht]
    rfl

end

/-! ## What a training says of a module (R480) -/

section
variable {s : State} {m : Nat} {ep : BitVec 32} {rx : Bool}

/-- What a training says of module m, on one link. -/
def State.keepPeerOn (s : State) (m : Nat) (ep : BitVec 32) (rx : Bool) (k : Nat) : State :=
  if (s.fabLink k).peer = some m then s.setFabLink k { s.fabLink k with epoch := ep, rawx := rx } else s

theorem keepPeer_eq : s.keepPeer m ep rx = foldUp 12 s fun s k => s.keepPeerOn m ep rx k := rfl

/-- A link is kept but for what a training says of its peer. -/
theorem fabLink_keepPeerOn (s : State) (k l : Nat) : ∃ e r, (s.keepPeerOn m ep rx k).fabLink l = { s.fabLink l with epoch := e, rawx := r } := by
  unfold State.keepPeerOn
  split
  · obtain rfl | hl := eq_or_ne l k
    · exact ⟨ep, rx, fabLink_setFabLink_same ..⟩
    · exact ⟨_, _, fabLink_setFabLink_other _ _ _ _ hl⟩
  · exact ⟨_, _, rfl⟩

/-- A link that met module m has what a training says of it. -/
def State.knows (s : State) (ep : BitVec 32) (rx : Bool) (k : Nat) : Prop := (s.fabLink k).epoch = ep ∧ (s.fabLink k).rawx = rx

theorem knows_keepPeerOn_self {k : Nat} (h : (s.fabLink k).peer = some m) : (s.keepPeerOn m ep rx k).knows ep rx k := by
  have hl : (s.keepPeerOn m ep rx k).fabLink k = { s.fabLink k with epoch := ep, rawx := rx } := by
    rw [State.keepPeerOn, if_pos h]
    exact fabLink_setFabLink_same ..
  rw [State.knows, hl]
  exact ⟨rfl, rfl⟩

theorem knows_keepPeerOn {k : Nat} (h : s.knows ep rx k) (j : Nat) : (s.keepPeerOn m ep rx j).knows ep rx k := by
  unfold State.keepPeerOn
  split
  · obtain rfl | hk := eq_or_ne k j
    · rw [State.knows, fabLink_setFabLink_same]
      exact ⟨rfl, rfl⟩
    · rw [State.knows, fabLink_setFabLink_other _ _ _ _ hk]
      exact h
  · exact h

theorem keepPeer_knows {k : Nat} (hk : k < 12) (h : (s.fabLink k).peer = some m) : (s.keepPeer m ep rx).knows ep rx k := by
  rw [keepPeer_eq]
  refine foldUp_reaches (I := fun t : State => (t.fabLink k).peer = some m) (P := fun t : State => t.knows ep rx k)
    (f := fun s k => s.keepPeerOn m ep rx k) h (fun t j ht => ?_) (fun t j _ => (knows_keepPeerOn · j)) (fun t => knows_keepPeerOn_self) hk
  obtain ⟨e, r, hl⟩ := fabLink_keepPeerOn (m := m) (ep := ep) (rx := rx) t j k
  rw [hl]
  exact ht

theorem st_keepPeer (s : State) (l : Nat) : ((s.keepPeer m ep rx).fabLink l).st = (s.fabLink l).st := by
  rw [keepPeer_eq]
  refine foldUp_keeps (P := fun t : State => (t.fabLink l).st = (s.fabLink l).st) rfl fun t j ht => ?_
  obtain ⟨e, r, hl⟩ := fabLink_keepPeerOn (m := m) (ep := ep) (rx := rx) t j l
  rw [hl]
  exact ht

end

/-! ## The loss of a module (R492) -/

theorem fab_logEvent (s : State) (ring code payload dom origin : Nat) (always : Bool) :
    (s.logEvent ring code payload dom origin always).fab = s.fab := by
  rw [logEvent_eq]

theorem fab_fabEvent (s : State) (code dom : Nat) (always : Bool) : (s.fabEvent code dom always).fab = s.fab :=
  fab_logEvent { s with free := s.free + 1 } ..

theorem fab_queueTrap (s : State) (dom : Nat) (r : Word) : (s.queueTrap dom r).fab = s.fab := by
  unfold State.queueTrap
  split <;> rfl

theorem fab_postLinkDown (s : State) (m : Nat) : (s.postLinkDown m).fab = s.fab := by
  unfold State.postLinkDown
  exact foldl_keeps (P := fun t : State => t.fab = s.fab) (fun t d ht => (fab_queueTrap ..).trans ht) _ _ rfl

/-- With nothing on its way to it, the loss of a module is told to the domains whose group held it. -/
theorem loseModule_idle {s t : State} (ht : s.fabEvent 0x7003 0 true = t) (hr : s.fab.ratoms = []) (he : s.fab.exch = []) (m : Nat) :
    s.loseModule m = (({ t with fab := { t.fab with unreachable := t.fab.unreachable ++ [m] } } : State).postLinkDown m).fabAdvance := by
  have htf : t.fab = s.fab := ht ▸ fab_fabEvent ..
  have hexch : ({ t with fab := { t.fab with unreachable := t.fab.unreachable ++ [m] } } : State).fab.exch = [] := by rw [htf, he]
  have hratoms : (({ t with fab := { t.fab with unreachable := t.fab.unreachable ++ [m] } } : State).postLinkDown m).fab.ratoms = [] := by
    rw [fab_postLinkDown, htf, hr]
  rw [State.loseModule, ht, State.failExch, hexch, List.filter_nil, List.foldl_nil, hratoms, List.filter_nil, List.foldl_nil]

theorem exec_moduleUnreachable_reachable {s : State} {m : Nat} (h : s.reachable m = true) :
    exec (.moduleUnreachable m) s = .next (s.loseModule m) :=
  if_pos h

theorem bexwenLinks : Claims.BexwenLinks := by
  refine ⟨fun l f s => exec_linkFrameReceive_next, fun l f s => exec_linkFrameReceive_dropped, fun l doms w => offer_taken,
    fun l doms w => offer_waits, fun l s hup => exec_linkReplay_up hup true, fun l s hup hlt => ?counted, fun l s hup hle => ?down,
    fun l s => exec_receiverLockLoss_up, fun l fid mid ep rx s hd h => ?foreign, fun l mid ep rx s hd hm => ?trained,
    fun l k m ep rx s hk h => ?peer, fun m s h hr he => ?lost⟩
  case counted => rw [exec_linkReplay_up hup, if_neg Bool.false_ne_true, if_neg (Nat.not_le.mpr hlt)]
  case down => rw [exec_linkReplay_up hup, if_neg Bool.false_ne_true, if_pos hle]
  case foreign => rw [exec_bexwenRetrain_down hd, if_pos (by simpa using h)]
  case trained =>
    intro s₁ s₂
    rw [exec_bexwenRetrain_down hd, if_neg (by simpa using hm), State.rejoin, State.trained]
  case peer =>
    obtain ⟨hep, hrx⟩ := keepPeer_knows (ep := ep) (rx := rx) hk h
    exact ⟨hep, hrx, st_keepPeer s l⟩
  case lost => rw [exec_moduleUnreachable_reachable h, loseModule_idle rfl hr he]

/-! ## Control bodies (R483 to R485) -/

section
variable {s : State} {m dom n bar : Nat}

theorem exec_phaseBody_known {k : Nat} (h : s.reached dom m = some k) :
    exec (.phaseBody m dom n) s = .next ((s.heardFrom m).setReached dom m (some (Nat.max k n))) := by
  have hr : (s.heardFrom m).reached dom m = some k := h
  rw [exec_phaseBody, execPhaseBody, State.phaseBody, hr]

theorem exec_phaseBody_first (h : s.reached dom m = none) :
    exec (.phaseBody m dom n) s = .next ((s.heardFrom m).setReached dom m (some n)) := by
  have hr : (s.heardFrom m).reached dom m = none := h
  rw [exec_phaseBody, execPhaseBody, State.phaseBody, hr]

/-- A body that has come already is not kept twice; one that has not is. -/
theorem exec_farrBody_new {gen : Nat} (h : (m, dom, bar, gen) ∉ s.fab.farr) : exec (.farrBody m dom bar gen) s =
    .next ({ s with fab := { (s.heardFrom m).fab with farr := s.fab.farr ++ [(m, dom, bar, gen)] } } : State).fabAdvance := by
  have hnew : (s.heardFrom m).fab.farr.contains (m, dom, bar, gen) = false := by simpa [State.heardFrom] using h
  rw [exec_farrBody, execFarrBody, State.farrBody, hnew]
  rfl

theorem exec_fexitBody_new (h : (m, dom, bar) ∉ s.fab.fexit) : exec (.fexitBody m dom bar) s =
    .next ({ s with fab := { (s.heardFrom m).fab with fexit := s.fab.fexit ++ [(m, dom, bar)] } } : State).fabAdvance := by
  have hnew : (s.heardFrom m).fab.fexit.contains (m, dom, bar) = false := by simpa [State.heardFrom] using h
  rw [exec_fexitBody, execFexitBody, State.fexitBody, hnew]
  rfl

end

section
variable {s : State} {m dom bar : Nat}

/-- FBREAK at one package counter. -/
def State.breakOn (s : State) (dom bar k : Nat) : State :=
  if (s.barrier (300000 + k)).fab = some bar && decide ((s.barrier (300000 + k)).dom = dom) then
    s.setBarrier (300000 + k) { s.barrier (300000 + k) with brk := true }
  else s

/-- A counter is kept but for whether it is broken. -/
theorem barrier_breakOn (s : State) (dom bar j k : Nat) :
    (s.breakOn dom bar j).barrier k = s.barrier k ∨ (s.breakOn dom bar j).barrier k = { s.barrier k with brk := true } := by
  unfold State.breakOn
  split
  · obtain rfl | hk := eq_or_ne k (300000 + j)
    · exact .inr (barrier_setBarrier_same ..)
    · exact .inl (barrier_setBarrier_other _ _ _ _ hk)
  · exact .inl rfl

/-- FBREAK reaches the package counters and nothing else. -/
theorem breakOn_eq_sync (s : State) (dom bar j : Nat) : s.breakOn dom bar j = { s with sync := (s.breakOn dom bar j).sync } := by
  unfold State.breakOn
  split <;> rfl

/-- The counter stands for a fabric counter of this domain. -/
def State.standsFor (s : State) (k dom bar : Nat) : Prop := (s.barrier (300000 + k)).fab = some bar ∧ (s.barrier (300000 + k)).dom = dom

theorem standsFor_breakOn {k : Nat} (h : s.standsFor k dom bar) (j : Nat) : (s.breakOn dom bar j).standsFor k dom bar := by
  unfold State.standsFor
  obtain hb | hb := barrier_breakOn s dom bar j (300000 + k) <;> rw [hb] <;> exact h

theorem brk_breakOn {k : Nat} (h : (s.barrier (300000 + k)).brk = true) (j : Nat) : ((s.breakOn dom bar j).barrier (300000 + k)).brk = true := by
  obtain hb | hb := barrier_breakOn s dom bar j (300000 + k) <;> rw [hb]
  exact h

theorem brk_breakOn_self {k : Nat} (h : s.standsFor k dom bar) : ((s.breakOn dom bar k).barrier (300000 + k)).brk = true := by
  obtain ⟨hf, hd⟩ := h
  rw [State.breakOn, decide_eq_true hf, decide_eq_true hd, Bool.and_self, if_pos rfl, barrier_setBarrier_same]

/-- Every package counter that stands for the broken one breaks. -/
theorem brk_foldUp_breakOn {k : Nat} (hk : k < 64) (h : s.standsFor k dom bar) :
    ((foldUp 64 s fun s k => s.breakOn dom bar k).barrier (300000 + k)).brk = true :=
  foldUp_reaches (I := fun t : State => t.standsFor k dom bar) (P := fun t : State => (t.barrier (300000 + k)).brk = true)
    (f := fun s k => s.breakOn dom bar k) h (fun _ j ht => standsFor_breakOn ht j) (fun _ j _ ht => brk_breakOn ht j)
    (fun _ ht => brk_breakOn_self ht) hk

theorem foldUp_breakOn_eq_sync (s : State) (dom bar n : Nat) :
    foldUp n s (fun s k => s.breakOn dom bar k) = { s with sync := (foldUp n s fun s k => s.breakOn dom bar k).sync } :=
  foldUp_keeps (P := fun t : State => t = { s with sync := t.sync }) rfl fun t k ht =>
    (breakOn_eq_sync t dom bar k).trans (congrArg (fun u : State => { u with sync := (t.breakOn dom bar k).sync }) ht)

/-- The body is kept, for counters that are first used later. -/
def State.breakHeard (s : State) (m dom bar : Nat) : State :=
  { s with fab := { (s.heardFrom m).fab with
      fbreak := if s.fab.fbreak.contains (dom, bar) then s.fab.fbreak else s.fab.fbreak ++ [(dom, bar)] } }

theorem mem_fbreak_breakHeard (s : State) (m dom bar : Nat) : (dom, bar) ∈ (s.breakHeard m dom bar).fab.fbreak := by
  unfold State.breakHeard
  dsimp only
  split
  case isTrue h => exact List.contains_iff_mem.mp h
  case isFalse => exact List.mem_append_right _ (List.mem_singleton_self _)

theorem exec_fbreakBody_eq (s : State) (m dom bar : Nat) :
    exec (.fbreakBody m dom bar) s = .next (foldUp 64 (s.breakHeard m dom bar) fun s k => s.breakOn dom bar k) := rfl

end

theorem fabricBodies : Claims.FabricBodies := by
  refine ⟨fun _ _ _ _ => rfl, fun m dom n k s => exec_phaseBody_known, fun m dom n s => exec_phaseBody_first,
    fun m dom b g s => exec_farrBody_new, fun m dom b s => exec_fexitBody_new, fun m dom b k s hk hf hd => ?breaks⟩
  refine ⟨_, exec_fbreakBody_eq s m dom b, brk_foldUp_breakOn hk ⟨hf, hd⟩, ?_⟩
  rw [foldUp_breakOn_eq_sync]
  exact ⟨mem_fbreak_breakHeard s m dom b, rfl, rfl⟩

/-- Settles O59, by what a link does with each frame, replay and training, and by what each body changes. -/
theorem fabricTraffic : Obligations.FabricTraffic := ⟨bexwenLinks, fabricBodies⟩

end Sys2Proof.Machine
end

section
/-! PROOFS. Exact results put into lanes, and the moves and integer arithmetic (spec/02 R58 to R60, spec/04 R122, R123, R125, R127). -/
namespace Sys2Proof

/-! ## Integers modulo 2^w (R58, R60) -/

/-- A number put into w bits depends on its residue alone. -/
theorem wrapTo_congr {w : Nat} {y z : Int} (h : y ≡ z [ZMOD ((2 ^ w : Nat) : Int)]) : wrapTo w y = wrapTo w z := congrArg Int.toNat h

theorem wrapTo_natCast (w n : Nat) : wrapTo w (n : Int) = n % 2 ^ w := rfl

theorem wrapTo_natCast_of_lt {w n : Nat} (h : n < 2 ^ w) : wrapTo w (n : Int) = n := Nat.mod_eq_of_lt h

/-- −1 in w bits is all ones. -/
theorem wrapTo_neg_one (w : Nat) : wrapTo w (-1) = 2 ^ w - 1 := by
  have hp := Nat.two_pow_pos w
  have h : (-1 : Int) ≡ ((2 ^ w - 1 : Nat) : Int) [ZMOD ((2 ^ w : Nat) : Int)] := by
    rw [Int.modEq_iff_dvd]
    exact ⟨1, by push_cast [Nat.cast_sub hp]; ring⟩
  rw [wrapTo_congr h, wrapTo_natCast_of_lt (by omega)]

/-- The two's complement reading of w bits has their residue. -/
theorem signedOf_modEq (w v : Nat) : signedOf w v ≡ (v : Int) [ZMOD ((2 ^ w : Nat) : Int)] := by
  have hv : ((v % 2 ^ w : Nat) : Int) ≡ (v : Int) [ZMOD ((2 ^ w : Nat) : Int)] := by
    rw [Int.natCast_mod]
    exact Int.mod_modEq ..
  unfold signedOf
  split
  · exact hv
  · exact ((Int.sub_emod_right ..) : _ ≡ _ [ZMOD _]).trans hv

namespace Machine

theorem laneInt_modEq (sg : Bool) (w v : Nat) : laneInt sg w v ≡ (v : Int) [ZMOD ((2 ^ w : Nat) : Int)] := by
  cases sg
  · rfl
  · exact signedOf_modEq w v

/-- A lane as an integer goes back into its lane. -/
theorem wrapTo_laneInt (sg : Bool) {w v : Nat} (h : v < 2 ^ w) : wrapTo w (laneInt sg w v) = v :=
  (wrapTo_congr (laneInt_modEq sg w v)).trans (wrapTo_natCast_of_lt h)

/-! ## Results in lanes -/

/-- A joined number depends on its lanes modulo 2^w. -/
theorem joinFrom_congr {w : Nat} {f g : Nat → Nat} : ∀ n i, (∀ k, i ≤ k → k < i + n → f k % 2 ^ w = g k % 2 ^ w) →
    joinFrom w f i n = joinFrom w g i n
  | 0, _, _ => rfl
  | n + 1, i, h => by
    rw [joinFrom, joinFrom, h i le_rfl (by omega), joinFrom_congr n (i + 1) fun k h1 h2 => h k (by omega) (by omega)]

/-- A word is made of its lanes (R58). -/
theorem mkWord_laneOf {w n : Nat} (hp : 0 < w) (hw : w * n = 256) (v : Word) : mkWord w n (fun k => laneOf w k v) = v := by
  refine BitVec.eq_of_getLsbD_eq fun j hj => ?_
  have hlane : j / w < n := Nat.div_lt_of_lt_mul (by omega)
  rw [getLsbD_eq_lane hp, laneOf_mkWord _ hw.le hlane, Nat.mod_eq_of_lt (laneOf_lt ..), ← getLsbD_eq_lane hp]

/-- A result of lanes depends on them modulo 2^w. -/
theorem Issue.lanes_congr (i : Issue) {w : Nat} {f g : Nat → Nat} (h : ∀ k, f k % 2 ^ w = g k % 2 ^ w) : i.lanes w f = i.lanes w g := by
  unfold Issue.lanes Issue.lanesOf mkWord
  rw [joinFrom_congr _ 0 fun k _ _ => h k]

theorem Issue.a_lt (i : Issue) (k : Nat) : i.a k < 2 ^ i.lw := laneOf_lt ..
theorem Issue.b_lt (i : Issue) (k : Nat) : i.b k < 2 ^ i.lw := laneOf_lt ..
theorem Issue.c_lt (i : Issue) (k : Nat) : i.c k < 2 ^ i.lw := laneOf_lt ..

theorem Issue.wrapTo_ai (i : Issue) (k : Nat) : wrapTo i.lw (i.ai k) = i.a k := wrapTo_laneInt _ (i.a_lt k)
theorem Issue.wrapTo_bi (i : Issue) (k : Nat) : wrapTo i.lw (i.bi k) = i.b k := wrapTo_laneInt _ (i.b_lt k)
theorem Issue.wrapTo_ci (i : Issue) (k : Nat) : wrapTo i.lw (i.ci k) = i.c k := wrapTo_laneInt _ (i.c_lt k)

theorem Issue.wrapTo_ai_add_bi (i : Issue) (k : Nat) : wrapTo i.lw (i.ai k + i.bi k) = (i.a k + i.b k) % 2 ^ i.lw :=
  wrapTo_congr ((laneInt_modEq ..).add (laneInt_modEq ..))

theorem Issue.wrapTo_ai_sub_bi (i : Issue) (k : Nat) : wrapTo i.lw (i.ai k - i.bi k) = (i.a k + (2 ^ i.lw - i.b k)) % 2 ^ i.lw := by
  have hb := (i.b_lt k).le
  refine (wrapTo_congr ((laneInt_modEq ..).sub (laneInt_modEq ..) |>.trans ?_)).trans (wrapTo_natCast _ _)
  rw [Int.modEq_iff_dvd]
  exact ⟨1, by push_cast [Nat.cast_sub hb]; ring⟩

/-- Bits that are the same where the instruction passes the checks. -/
theorem WritesBits.congr {c : Fields → Instr} {spec : Fields → OpSpec} {f g : Issue → Nat → Bool} (h : WritesBits c spec f)
    (hfg : ∀ w (i : Issue), i.spec = spec w → i.check = none → ∀ n < 256, f i n = g i n) : WritesBits c spec g := by
  intro w slot s hr
  have ⟨_, hc, _⟩ := hr
  obtain ⟨m, hp, honly, hbits, hmask⟩ := h w slot s hr
  refine ⟨m, hp, honly, fun hz n hn => ?_, hmask⟩
  rw [← hfg w _ rfl hc n hn]
  exact hbits hz n hn

/-- A result in the lanes of `FMT` that takes each lane of a word takes the word. -/
theorem Issue.perLane_laneOf (i : Issue) (v : Word) : i.perLane (fun k => laneOf i.lw k v) = i.bitwise v := by
  have h : mkWord i.lw (256 / i.lw) (fun k => laneOf i.lw k v) = v := mkWord_laneOf (fmtWidth_pos i.fmt) (fmtWidth_dvd i.fmt) v
  unfold Issue.perLane Issue.lanes Issue.lanesOf
  rw [h]
  rfl

/-- An instruction that writes each lane of a word is one that writes the word. -/
theorem writesBits_of_laneOf {c : Fields → Instr} {spec : Fields → OpSpec} {v : Issue → Word}
    (hx : ∀ w s, exec (c w) s = runUnit (spec w) w (fun i => i.perLane fun k => laneOf i.lw k (v i)) s)
    (hs : ∀ w, (spec w).perLane = true ∧ (spec w).d = .dst := by exact fun _ => ⟨rfl, rfl⟩) :
    WritesBits c spec (fun i n => (v i).getLsbD n) := by
  refine writesBits_of_runUnit (v := v) (fun w s => ?_) (fun w => (hs w).1) (fun w => .inl (hs w).2) fun _ _ _ => rfl
  simp only [hx, Issue.perLane_laneOf]

/-- A source that can only be an immediate is one (R18, R22). -/
theorem Issue.wa_of_immOnly {i : Issue} (hc : i.check = none) (ha : i.spec.a = .immOnly) (hf : i.spec.fmts ≠ none) :
    i.wa = mkWord i.lw i.ln fun _ => i.immLane := by
  obtain ⟨-, -, -, -, hp, -⟩ := i.badField_eq_none_iff.mp (i.badField_of_check hc)
  unfold Issue.posOk at hp
  rw [ha] at hp
  unfold Issue.wa Issue.word
  cases e : opnd i.w.a <;> rw [e] at hp
  case imm => exact if_neg hf
  case chan h => cases hh : i.task.portOf h <;> simp [Pos.immOnly, hh] at hp
  all_goals simp [Pos.immOnly] at hp

/-! ## The instructions (R122, R123, R125) -/

theorem fit_false (sg : Bool) (w : Nat) (z : Int) : fit sg false w z = wrapTo w z := rfl

theorem integerLanes : Claims.IntegerLanes := by
  refine ⟨writesBits_of_laneOf exec_mov,
    (writesBits_of_laneOf exec_ldi).congr fun w i hs hc n hn => ?ldi,
    writesLanes_of_runUnit exec_ldih (fun _ => rfl) (fun _ => .inr rfl) fun w i hs hc => ?ldih,
    writesLanes_perLane exec_lea fun w i _ _ _ => i.lanes_congr fun k => ?lea,
    writesLanes_perLane exec_add fun w i _ _ _ => i.lanes_congr fun k => ?add,
    writesLanes_perLane exec_sub fun w i _ _ _ => i.lanes_congr fun k => ?sub, writesLanes_perLane exec_neg,
    writesLanes_perLane exec_abs, writesLanes_perLane exec_min fun w i _ _ _ => congrArg i.perLane (funext fun k => ?min),
    writesLanes_perLane exec_max fun w i _ _ _ => congrArg i.perLane (funext fun k => ?max),
    writesLanes_perLane exec_clamp fun w i _ _ _ => congrArg i.perLane (funext fun k => ?clamp), writesLanes_perLane exec_mul,
    writesLanes_perLane exec_mulh, writesLanes_perLane exec_mad, writesLanes_perLane exec_adds, writesLanes_perLane exec_subs,
    writesLanes_perLane exec_avg, writesLanes_perLane exec_absd fun w i _ _ _ => i.lanes_congr fun k => ?absd⟩
  case ldi =>
    have hpos : 0 < i.lw := fmtWidth_pos i.fmt
    have hw : i.lw * i.ln = 256 := fmtWidth_dvd i.fmt
    have hlane : n / i.lw < i.ln := Nat.div_lt_of_lt_mul (hn.trans_eq hw.symm)
    rw [Issue.wa_of_immOnly hc (by rw [hs]) (by rw [hs]; simp), getLsbD_eq_lane hpos, laneOf_mkWord _ hw.le hlane,
      Nat.testBit_mod_two_pow, decide_eq_true (Nat.mod_lt n hpos), Bool.true_and]
  case ldih =>
    have wide : ∀ f ∈ [2, 3, 6, 7], 8 ≤ fmtWidth f := by decide
    exact Issue.eight_le_lw_of_check hc (by rw [hs]) wide
  case lea => exact Nat.mod_mod _ _
  case add => rw [fit_false, i.wrapTo_ai_add_bi, Nat.mod_mod]
  case sub => rw [fit_false, i.wrapTo_ai_sub_bi, Nat.mod_mod]
  case min => rw [fit_false, apply_ite (wrapTo i.lw), i.wrapTo_ai, i.wrapTo_bi]
  case max => rw [fit_false, apply_ite (wrapTo i.lw), i.wrapTo_ai, i.wrapTo_bi]
  case clamp =>
    have hmax : (if i.ai k ≤ i.bi k then i.bi k else i.ai k) ≤ i.ci k ↔ ¬ (i.ci k < i.ai k ∨ i.ci k < i.bi k) := by
      split <;> omega
    rw [fit_false]
    simp only [hmax, apply_ite (wrapTo i.lw), i.wrapTo_ai, i.wrapTo_bi, i.wrapTo_ci, ite_not]
  case absd => rw [fit_false, wrapTo_natCast, Nat.mod_mod]

/-! ## Wide lanes (R123, R127) -/

/-- A sum taken in rising order, from where it starts. -/
theorem foldUp_add_nat (n m : Nat) (g : Nat → Nat) : (foldUp n m fun z k => z + g k) = m + ((List.range n).map g).sum :=
  foldUp_induct (P := fun n z => z = m + ((List.range n).map g).sum) rfl fun k z hz => by
    rw [hz, List.range_succ, List.map_append, List.sum_append, List.map_singleton, List.sum_singleton, Nat.add_assoc]

/-- The lanes of `SAD`, summed to the scalar of C. -/
theorem Issue.scalarWord_sad (i : Issue) : scalarWord (i.sc + foldUp i.ln 0 fun n k => n + (i.ai k - i.bi k).natAbs) =
    BitVec.ofNat 256 ((i.sc + ((List.range i.ln).map fun k => (i.ai k - i.bi k).natAbs).sum) % 2 ^ 64) := by
  rw [scalarWord, foldUp_add_nat, Nat.zero_add]

theorem foldUp_four (g : Nat → Int) : (foldUp 4 0 fun z k => z + g k) = g 0 + g 1 + g 2 + g 3 := by
  simp only [foldUp, foldUpFrom, Int.zero_add, Nat.zero_add, Nat.reduceAdd]

theorem wideLanes : Claims.WideLanes := by
  have wide {i : Issue} (hc : i.check = none) (hs : i.spec.fmts = some [0, 1, 2, 4, 5, 6]) : 8 ≤ 2 * i.lw :=
    (Issue.eight_le_lw_of_check hc hs (by decide)).trans (by omega)
  refine ⟨writesScalar_of_runUnit exec_sad (fun _ => rfl) (fun _ => .inl rfl) Issue.scalarWord_sad,
    writesLanes_of_runUnit exec_wmul (fun _ => rfl) (fun _ => .inl rfl) fun w i hs hc => wide hc (by rw [hs]; rfl),
    writesLanes_of_runUnit exec_wadd (fun _ => rfl) (fun _ => .inl rfl) fun w i hs hc => wide hc (by rw [hs]; rfl),
    writesLanes_of_runUnit (fun w s => ?doti) (fun _ => rfl) (fun _ => .inl rfl) fun _ _ _ _ => by decide⟩
  case doti => simp only [exec_doti, execDoti, foldUp_four, Nat.add_zero]

/-- Settles O39: each lane is the exact result put into its width, and two results with one residue are one lane. -/
theorem integerArithmetic : Obligations.IntegerArithmetic := ⟨integerLanes, wideLanes⟩

end Machine
end Sys2Proof
end

section
/-! PROOFS. Carry chains, and quotients and remainders (spec/04 R124, R126, spec/06 R188). -/
namespace Sys2Proof.Machine

/-! ## Carry chains (R124) -/

/-- Writing `D` leaves the predicates. -/
theorem Issue.putD_preds (i : Issue) (s : State) (v : Word) : (i.putD s v).unit.preds = s.unit.preds := by
  unfold Issue.putD
  split
  · unfold State.writeReg
    dsimp only
    split <;> rfl
  all_goals rfl

theorem Issue.apply_perLane_preds (i : Issue) (f : Nat → Nat) : (i.apply i.s (i.perLane f)).unit.preds = i.s.unit.preds := by
  unfold Issue.perLane Issue.lanes
  split
  · exact i.putD_preds ..
  · rfl

/-- A result in the lanes of `FMT`, of an instruction that takes no lanes narrower than a byte. -/
theorem Issue.perLane_written {i : Issue} {fs : List Nat} (f : Nat → Nat) (hc : i.check = none) (hd : i.spec.d = .dst)
    (hf : i.spec.fmts = some fs) (wide : ∀ f ∈ fs, 8 ≤ fmtWidth f) :
    i.OnlyD (i.apply i.s (i.perLane f)) ∧ i.Lanes i.lw (i.apply i.s (i.perLane f)) f ∧
      (i.Masked i.lw → i.apply i.s (i.perLane f) = i.s) :=
  Issue.lanes_written f (.inl hd) (Issue.posOk_d_of_check hc) (Issue.eight_le_lw_of_check hc hf wide)

/-- Lanes with a predicate beside them: the predicate, and the rest as the lanes leave it. -/
theorem Issue.putPred_withPreds (i : Issue) {m : State} (hm : m.unit.preds = i.s.unit.preds) (q : Nat) (v : Pred) :
    (i.putPred m q v).withPreds i.s = m := by
  unfold State.withPreds
  rw [← hm]
  rfl

/-- `D` takes no predicate, so that what it holds does not depend on them. -/
theorem Issue.destIn_putPred (i : Issue) (m : State) (q : Nat) (v : Pred) (hd : i.posOk .dst i.w.d i.offD = true) :
    i.destIn (i.putPred m q v) = i.destIn m := by
  unfold Issue.destIn Issue.oldD Issue.word
  unfold Issue.posOk at hd
  cases e : opnd i.w.d <;> simp only [e] at hd ⊢
  case csr n => simp [Pos.dst] at hd
  all_goals rfl

/-- Lanes and a predicate are written one after the other. -/
theorem Issue.apply_perLane_pred (i : Issue) (f : Nat → Nat) (q : Nat) (v : Pred) :
    i.apply i.s { i.perLane f with pred := some (q, v) } = i.putPred (i.apply i.s (i.perLane f)) q v := by
  unfold Issue.perLane Issue.lanes
  split <;> rfl

/-- Lanes for `D`, and a predicate from the lanes of `FMT` for `C`. -/
theorem Issue.perLane_pred_written {i : Issue} (f : Nat → Nat) (g : Nat → Bool) (hc : i.check = none) (hd : i.spec.d = .dst)
    (hf : i.spec.fmts = some intFmts) :
    let m := i.apply i.s { i.perLane f with pred := some (i.predLanes i.w.c g) }
    i.OnlyD (m.withPreds i.s) ∧ (∀ k, k ≠ 8 * i.pe + Issue.predNum i.w.c → m.unit.preds.find k 0 = i.s.unit.preds.find k 0) ∧
      i.Lanes i.lw m f ∧ (i.Masked i.lw → m.withPreds i.s = i.s) ∧
      ∀ k < 32, (m.predOf i.pe (Issue.predNum i.w.c)).getLsbD k =
        (decide (k < i.ln) && if i.guard.getLsbD k then g k else (i.predVal i.w.c).getLsbD k) := by
  obtain ⟨honly, hlanes, hmask⟩ := Issue.perLane_written f hc hd hf (by decide)
  have hkept := i.apply_perLane_preds f
  have hdok := Issue.posOk_d_of_check hc
  rw [hd] at hdok
  intro m
  have hm : m = _ := i.apply_perLane_pred f ..
  rw [hm, i.putPred_withPreds hkept]
  refine ⟨honly, fun k hk => ?_, fun hz k hk => ?_, hmask, fun k hk => ?_⟩
  · exact (Map.find_put_other _ hk ..).trans (by rw [hkept])
  · rw [i.destIn_putPred _ _ _ hdok]; exact hlanes hz k hk
  · exact (congrArg (BitVec.getLsbD · k) (predOf_setPredOf_same ..)).trans (getLsbD_lanePred _ _ _ hk)

/-- An instruction whose effect is a result in the lanes of `FMT`, and a predicate from them. -/
theorem writesCarry_of_runUnit {c : Fields → Instr} {spec : Fields → OpSpec} {f : Issue → Nat → Nat} {g : Issue → Nat → Bool}
    (hx : ∀ w s, exec (c w) s = runUnit (spec w) w (fun i => { i.perLane (f i) with pred := some (i.predLanes i.w.c (g i)) }) s)
    (hs : ∀ w, (spec w).perLane = true ∧ (spec w).d = .dst ∧ (spec w).fmts = some intFmts := by exact fun _ => ⟨rfl, rfl, rfl⟩) :
    WritesCarry c spec f g := by
  intro w slot s hr
  obtain ⟨hl, hd, hf⟩ := hs w
  have ⟨_, hc, _⟩ := hr
  exact ⟨_, performs_apply (hx w s) hr (.inl hl), Issue.perLane_pred_written _ _ hc hd hf⟩

theorem Issue.perLane_mod (i : Issue) (f : Nat → Nat) : (i.perLane fun k => f k % 2 ^ i.lw) = i.perLane f :=
  i.lanes_congr fun _ => Nat.mod_mod _ _

/-- A carry in is one bit, as a number or as an integer. -/
theorem natCast_carry (q : Bool) : ((if q then 1 else 0 : Nat) : Int) = if q then 1 else 0 := by cases q <;> rfl

theorem carryLanes : Claims.CarryLanes := by
  refine ⟨writesCarry_of_runUnit fun w s => ?addc, writesCarry_of_runUnit fun w s => ?subb⟩
  case addc => simp only [exec_addc, execAddc, Issue.perLane_mod, carryOut]
  case subb => simp only [exec_subb, execSubb, natCast_carry, borrowOut]

/-! ## Quotients (R126) -/

/-- A number of w bits reads as the integer z just where it is the number that does. -/
theorem laneInt_eq_iff {sg : Bool} {w v n : Nat} {z : Int} (hv : v < 2 ^ w) (hn : n < 2 ^ w) (hz : laneInt sg w n = z) :
    laneInt sg w v = z ↔ v = n :=
  ⟨fun h => by rw [← wrapTo_laneInt sg hv, h, ← hz, wrapTo_laneInt sg hn], fun h => h ▸ hz⟩

theorem laneInt_zero (sg : Bool) (w : Nat) : laneInt sg w 0 = 0 := by cases sg <;> simp [laneInt, signedOf]

/-- The most negative value of w bits has its top bit alone. -/
theorem laneInt_top {w : Nat} (hw : 0 < w) : laneInt true w (2 ^ (w - 1)) = minInt true w := by
  obtain ⟨n, rfl⟩ : ∃ n, w = n + 1 := ⟨w - 1, by omega⟩
  have h : 2 ^ n % 2 ^ (n + 1) = 2 ^ n := Nat.mod_eq_of_lt (Nat.pow_lt_pow_right (by decide) (by omega))
  simp only [laneInt, signedOf, minInt, Nat.add_sub_cancel, h, if_true]
  rw [if_neg (by rw [pow_succ]; omega), pow_succ]
  push_cast
  ring

theorem laneInt_ones {w : Nat} (hw : 0 < w) : laneInt true w (2 ^ w - 1) = -1 := by
  have hp : 2 ≤ 2 ^ w := Nat.le_self_pow hw.ne' 2
  simp only [laneInt, signedOf, Nat.mod_eq_of_lt (show 2 ^ w - 1 < 2 ^ w by omega), if_true]
  rw [if_neg (by omega), Nat.cast_sub (by omega)]
  push_cast
  ring

theorem Issue.lw_pos (i : Issue) : 0 < i.lw := fmtWidth_pos i.fmt

theorem Issue.ai_eq_zero_iff (i : Issue) (k : Nat) : i.ai k = 0 ↔ i.a k = 0 :=
  laneInt_eq_iff (i.a_lt k) (Nat.two_pow_pos _) (laneInt_zero ..)

theorem Issue.bi_eq_zero_iff (i : Issue) (k : Nat) : i.bi k = 0 ↔ i.b k = 0 :=
  laneInt_eq_iff (i.b_lt k) (Nat.two_pow_pos _) (laneInt_zero ..)

/-- The corner of R126: the most negative dividend by −1. -/
theorem Issue.overflows_iff (i : Issue) (k : Nat) : (i.sgn = true ∧ i.ai k = minInt true i.lw ∧ i.bi k = -1) ↔
    (i.sgn = true ∧ i.a k = 2 ^ (i.lw - 1) ∧ i.b k = 2 ^ i.lw - 1) := by
  have hw := i.lw_pos
  have htop : 2 ^ (i.lw - 1) < 2 ^ i.lw := Nat.pow_lt_pow_right (by decide) (by omega)
  have hones : 2 ^ i.lw - 1 < 2 ^ i.lw := Nat.sub_lt (Nat.two_pow_pos _) (by decide)
  refine and_congr_right fun hs => ?_
  unfold Issue.ai Issue.bi
  rw [hs, laneInt_eq_iff (i.a_lt k) htop (laneInt_top hw), laneInt_eq_iff (i.b_lt k) hones (laneInt_ones hw)]

theorem wrapTo_minInt {w : Nat} (hw : 0 < w) : wrapTo w (minInt true w) = 2 ^ (w - 1) := by
  rw [← laneInt_top hw, wrapTo_laneInt true (Nat.pow_lt_pow_right (by decide) (by omega))]

theorem wrapTo_maxInt {w : Nat} (hw : 0 < w) : wrapTo w (maxInt true w) = 2 ^ (w - 1) - 1 := by
  have htop : 2 ^ (w - 1) < 2 ^ w := Nat.pow_lt_pow_right (by decide) (by omega)
  have h : maxInt true w = ((2 ^ (w - 1) - 1 : Nat) : Int) := by
    rw [Nat.cast_sub (Nat.one_le_two_pow)]
    simp [maxInt]
  rw [h, wrapTo_natCast_of_lt ((Nat.sub_le ..).trans_lt htop)]

/-- The lane of a quotient (R126). -/
theorem Issue.wrapTo_quotient (i : Issue) (k : Nat) : wrapTo i.lw (quotient i.sgn i.sat i.lw (i.ai k) (i.bi k)) =
    if i.b k = 0 then 2 ^ i.lw - 1
    else if i.sgn = true ∧ i.a k = 2 ^ (i.lw - 1) ∧ i.b k = 2 ^ i.lw - 1 then (if i.sat then 2 ^ (i.lw - 1) - 1 else 2 ^ (i.lw - 1))
    else wrapTo i.lw ((i.ai k).tdiv (i.bi k)) := by
  unfold quotient
  simp only [i.overflows_iff, i.bi_eq_zero_iff, apply_ite (wrapTo i.lw), wrapTo_neg_one, wrapTo_maxInt i.lw_pos, wrapTo_minInt i.lw_pos]

/-- The lane of a remainder (R126): by −1 it is 0, of the most negative dividend too. -/
theorem Issue.wrapTo_remainder (i : Issue) (k : Nat) : wrapTo i.lw (remainder i.sgn i.lw (i.ai k) (i.bi k)) =
    if i.b k = 0 then i.a k else wrapTo i.lw ((i.ai k).tmod (i.bi k)) := by
  have hrest : i.ai k - (i.ai k).tdiv (i.bi k) * i.bi k = (i.ai k).tmod (i.bi k) := by
    rw [Int.tmod_def, Int.mul_comm]
  unfold remainder
  rw [hrest]
  simp only [i.bi_eq_zero_iff, apply_ite (wrapTo i.lw), i.wrapTo_ai]
  refine if_congr Iff.rfl rfl (ite_eq_right_iff.mpr fun ⟨_, _, hb⟩ => ?_)
  rw [hb, Int.tmod_neg, Int.tmod_one]

/-- Poison beside a result is emitted after it. -/
theorem Issue.apply_perLane_poison (i : Issue) (f : Nat → Nat) (c d : Nat) :
    i.apply i.s { i.perLane f with poison := some (c, d, 0) } = (i.apply i.s (i.perLane f)).emit i.pe i.slot c d := by
  unfold Issue.perLane Issue.lanes
  split <;> rfl

theorem Issue.perLane_no_poison (i : Issue) (f : Nat → Nat) : { i.perLane f with poison := none } = i.perLane f := by
  unfold Issue.perLane Issue.lanes
  split <;> rfl

/-- An instruction whose effect is a result in the lanes of `FMT`, with poison where an enabled lane has a zero divisor. -/
theorem writesQuotient_of_runUnit {c : Fields → Instr} {spec : Fields → OpSpec} {f : Issue → Nat → Nat}
    (hx : ∀ w s, exec (c w) s = runUnit (spec w) w (fun i => { i.perLane (f i) with poison := i.divPoison }) s)
    (hs : ∀ w, (spec w).perLane = true ∧ (spec w).d = .dst ∧ (spec w).fmts = some intFmts := by exact fun _ => ⟨rfl, rfl, rfl⟩) :
    WritesQuotient c spec f := by
  intro w slot s hr x z enabled
  obtain ⟨hl, hd, hf⟩ := hs w
  have ⟨_, hc, _⟩ := hr
  have hp := performs_apply (hx w s) hr (.inl hl)
  have hen : (firstBelow x.ln fun k => x.guard.getLsbD k && decide (x.b k = 0)).isSome = true ↔ enabled := by
    rw [firstBelow_isSome_iff]
    simp only [Bool.and_eq_true, decide_eq_true_eq, enabled]
  refine ⟨x.apply s (x.perLane (f x)), ⟨fun h => ?_, fun h => ?_⟩, Issue.perLane_written _ hc hd hf (by decide)⟩
  · rw [← hen] at h
    rw [Issue.divPoison, if_pos h, Issue.apply_perLane_poison] at hp
    exact hp
  · rw [← hen] at h
    rw [Issue.divPoison, if_neg h, Issue.perLane_no_poison] at hp
    exact hp

theorem quotients : Claims.Quotients := by
  refine ⟨writesQuotient_of_runUnit fun w s => ?div, writesQuotient_of_runUnit fun w s => ?rem⟩
  case div => simp only [exec_div, execDiv, Issue.wrapTo_quotient]
  case rem => simp only [exec_rem, execRem, Issue.wrapTo_remainder]

/-- Settles O40: a carry is a predicate beside the lanes, and a quotient's corners are read off the bits of its lanes. -/
theorem carriesAndQuotients : Obligations.CarriesAndQuotients := ⟨carryLanes, quotients⟩

end Sys2Proof.Machine
end

section
/-! PROOFS. Bitwise logic, shifts, counts and bit fields, and `SEL` (spec/04 R119, R128, R129, R131). -/
namespace Sys2Proof.Machine

/-! ## Bitwise logic (R119, R128) -/

theorem getLsbD_not_of_lt (v : Word) {n : Nat} (hn : n < 256) : (~~~v).getLsbD n = !v.getLsbD n := by
  rw [BitVec.getLsbD_not, decide_eq_true hn, Bool.true_and]

theorem bitwiseLogic : Claims.BitwiseLogic := by
  refine ⟨writesBits_of_runUnit exec_and (fun _ => rfl) (fun _ => .inl rfl) fun i n hn => BitVec.getLsbD_and ..,
    writesBits_of_runUnit exec_or (fun _ => rfl) (fun _ => .inl rfl) fun i n hn => BitVec.getLsbD_or ..,
    writesBits_of_runUnit exec_xor (fun _ => rfl) (fun _ => .inl rfl) fun i n hn => BitVec.getLsbD_xor ..,
    writesBits_of_runUnit exec_andn (fun _ => rfl) (fun _ => .inl rfl) fun i n hn => ?andn,
    writesBits_of_runUnit exec_orn (fun _ => rfl) (fun _ => .inl rfl) fun i n hn => ?orn⟩
  case andn => rw [BitVec.getLsbD_and, getLsbD_not_of_lt _ hn]
  case orn => rw [BitVec.getLsbD_or, getLsbD_not_of_lt _ hn]

/-! ## Shifts (R128) -/

/-- A left shift saturates where the lane is not zero. -/
theorem Issue.shiftLeft_eq (i : Issue) (k : Nat) : shiftLeft i.sgn i.sat i.lw (i.ai k) (i.b k) =
    if i.b k < i.lw then fit i.sgn i.sat i.lw (i.ai k * 2 ^ i.b k)
    else if i.sat = true ∧ i.a k ≠ 0 then wrapTo i.lw (if i.ai k < 0 then minInt i.sgn i.lw else maxInt i.sgn i.lw) else 0 := by
  unfold shiftLeft
  refine if_congr Iff.rfl rfl ?_
  by_cases hs : i.sat = true <;> by_cases ha : i.a k = 0 <;> simp [hs, ha, i.ai_eq_zero_iff]

/-- A logical shift by the width or more leaves nothing. -/
theorem div_two_pow_of_width_le {w v n : Nat} (hv : v < 2 ^ w) : (if n < w then v / 2 ^ n else 0) = v / 2 ^ n := by
  split
  · rfl
  · next h => exact (Nat.div_eq_of_lt (hv.trans_le (Nat.pow_le_pow_right (by decide) (Nat.not_lt.mp h)))).symm

/-- An arithmetic shift by the width or more leaves the sign. -/
theorem ediv_two_pow_of_width_le {w n : Nat} {z : Int} (hlo : -(2 ^ w : Int) ≤ z) (hhi : z < 2 ^ w) :
    (if n < w then z / 2 ^ n else if z < 0 then -1 else 0) = z / (2 ^ n : Int) := by
  split
  · rfl
  · next h =>
    have hle : (2 ^ w : Int) ≤ 2 ^ n := pow_le_pow_right₀ (by decide) (Nat.not_lt.mp h)
    split
    · next hz => exact (Int.ediv_eq_neg_one_of_neg_of_le hz (by omega)).symm
    · next hz => exact (Int.ediv_eq_zero_of_lt (by omega) (by omega)).symm

theorem signedOf_bounds (w v : Nat) : -(2 ^ w : Int) ≤ signedOf w v ∧ signedOf w v < 2 ^ w := by
  have h : (((v % 2 ^ w : Nat)) : Int) < 2 ^ w := by exact_mod_cast Nat.mod_lt v (Nat.two_pow_pos w)
  have h0 : (0 : Int) < 2 ^ w := by positivity
  unfold signedOf
  push_cast at h ⊢
  split <;> omega

theorem shiftsAndFields : Claims.ShiftsAndFields := by
  refine ⟨writesLanes_perLane exec_shl fun w i _ _ _ => congrArg i.perLane (funext i.shiftLeft_eq),
    writesLanes_perLane exec_shr fun w i _ _ _ => congrArg i.perLane (funext fun k => div_two_pow_of_width_le (i.a_lt k)),
    writesLanes_perLane exec_sar fun w i _ _ _ => congrArg i.perLane (funext fun k => ?sar),
    writesLanes_perLane exec_rol fun w i _ _ _ => i.perLane_mod _, writesLanes_perLane exec_bfx, writesLanes_perLane exec_bfi,
    writesLanes_perLane exec_popc fun w i _ _ _ => congrArg i.perLane (funext fun k => countBelow_eq_length ..),
    writesLanes_perLane exec_clz, writesLanes_perLane exec_ctz, writesLanes_perLane exec_brev, writesLanes_perLane exec_sext,
    writesLanes_perLane exec_zext⟩
  case sar =>
    obtain ⟨hlo, hhi⟩ := signedOf_bounds i.lw (i.a k)
    exact congrArg (wrapTo i.lw) (ediv_two_pow_of_width_le hlo hhi)

/-- Settles O41: a bitwise result goes bit by bit, and a count of the width or more shifts everything out. -/
theorem bitOperations : Obligations.BitOperations := ⟨bitwiseLogic, shiftsAndFields⟩

/-! ## `SEL` (R131) -/

/-- An instruction that no protection stops, whose `FMT` its opcode does not take, fails the check of its fields (R12, R188). -/
theorem Issue.check_of_not_fmtOk {i : Issue} (hb : i.barred = false) (hf : i.fmtOk = false) :
    ∃ d, i.check = some (Cause.illegalOperand, d) := by
  cases hn : i.nxtOk with
  | false => exact ⟨_, Issue.check_of_badField hb (Issue.badField_of_nxt hn)⟩
  | true => exact ⟨_, Issue.check_of_badField hb (Issue.badField_of_fmt hn hf)⟩

/-- A floating-point format is legal where an opcode takes it, whatever `LANECFG` says (R24). -/
theorem fmtOk_sel_float {i : Issue} (hs : i.spec = { spec2 0x24 (intFmts ++ floatFmts) with c := .predOnly }) (h8 : 8 ≤ i.fmt) (h11 : i.fmt ≤ 11) :
    i.fmtOk = true := by
  have taken : ∀ f ≤ 11, 8 ≤ f → (intFmts ++ floatFmts).contains f = true ∧ laneChecked f = false := by decide
  obtain ⟨hin, hfree⟩ := taken _ h11 h8
  simp [Issue.fmtOk, hs, spec2, hfree, List.contains_iff_mem.mp hin]

/-- Settles O60: `SEL` writes the lanes that its predicate selects, and the formats of the opcode are those that its check admits. -/
theorem selectLanes : Obligations.SelectLanes := by
  obtain ⟨-, hsel, -⟩ := compareSelectPack
  refine ⟨hsel, fun w slot s hfire hb hfmt => ?_, fun w slot s h8 h11 => fmtOk_sel_float rfl h8 h11⟩
  have hf : (s.at { spec2 0x24 (intFmts ++ floatFmts) with c := .predOnly } w slot).fmtOk = false := by
    obtain h | h | h := hfmt <;> simp [Issue.fmtOk, Issue.fmt, h, spec2, intFmts, floatFmts]
  obtain ⟨d, hc⟩ := Issue.check_of_not_fmtOk hb hf
  have hx : exec (.sel w) s = runUnit _ w _ s := exec_sel w s
  exact ⟨d, performs_emit_of_check hx rfl hfire hc⟩

end Sys2Proof.Machine
end

section
/-! PROOFS. System registers, launches, traps, yields, events and watchdog limits (spec/04 R134 to R138, R144 to R147, R153). -/
namespace Sys2Proof.Machine

/-! ## Scalar results and scalar sources (R117) -/

/-- An instruction without lanes whose body writes the word of `D`, where it passes the checks. -/
theorem writesScalar_of_putD {c : Fields → Instr} {spec : OpSpec} {v : Fields → Issue → Word} {f : Issue → Nat}
    (hx : ∀ w s, exec (c w) s = runInstr spec w (fun i => .done (i.putD i.s (v w i))) s)
    (hv : ∀ i : Issue, i.spec = spec → i.check = none → v i.w i = BitVec.ofNat 256 (f i))
    (hl : spec.perLane = false := by rfl) (hd : spec.d = .dst := by rfl) : WritesScalar c (fun _ => spec) f := by
  intro w slot s hr
  have ⟨_, hc, _⟩ := hr
  dsimp only
  split
  case isTrue hg =>
    refine ⟨_, performs_of_done (hx w s) ⟨hr, hg⟩ rfl, ?_⟩
    rw [hv (s.at spec w slot) rfl hc]
    exact ⟨putD_only (s.at spec w slot) _, putD_destIn (s.at spec w slot) _ (.inl hd) (Issue.posOk_d_of_check hc)⟩
  case isFalse hg => exact ⟨s, skipsOff_of_runInstr hx (fun _ => hl) w slot s hr (Bool.eq_false_of_not_eq_true hg), rfl⟩

theorem Issue.imm_lt (i : Issue) : i.imm < 2 ^ 48 := by
  unfold Issue.imm
  split
  · exact (fieldNat_lt ..).trans (by decide)
  · exact i.w.x.isLt

theorem Issue.scalar_lt (i : Issue) (b : BitVec 8) (off : Nat) : i.scalar b off < 2 ^ 64 := by
  unfold Issue.scalar
  split
  · exact i.imm_lt.trans (by decide)
  · decide
  · exact Nat.mod_lt _ (by decide)

/-! ## System registers (R134 to R138) -/

theorem toNat_of_eq_ofNat {w v : Nat} {x : BitVec w} (hx : x = BitVec.ofNat w v) (h : v < 2 ^ w) : x.toNat = v := by
  rw [hx, BitVec.toNat_ofNat, Nat.mod_eq_of_lt h]

/-- A source that can only be a system register is one. -/
theorem Issue.word_of_csrOnly {i : Issue} (hc : i.check = none) (ha : i.spec.a = .csrOnly) (off : Nat) :
    i.word i.w.a off = BitVec.ofNat 256 (i.csr (csrNum i.w.a)) := by
  obtain ⟨-, -, -, -, hp, -⟩ := i.badField_eq_none_iff.mp (i.badField_of_check hc)
  unfold Issue.posOk at hp
  rw [ha] at hp
  unfold Issue.word csrNum
  cases e : opnd i.w.a <;> rw [e] at hp
  case chan h => cases hh : i.task.portOf h <;> simp [Pos.csrOnly, hh] at hp
  all_goals simp [Pos.csrOnly] at hp ⊢

/-- A value within the range of its register is what the register reads as after the write (R134, R137). -/
theorem Issue.csr_writeCsr (i : Issue) {n v : Nat} (hr : csrRange n v = true) (hn : n ≠ 0x15) (hv : v < 2 ^ 64) :
    ({ i with s := i.writeCsr n v } : Issue).csr n = v := by
  unfold csrRange at hr
  split at hr <;> simp only [Bool.and_eq_true, decide_eq_true_eq] at hr
  · exact toNat_of_eq_ofNat (congrArg Task.trapcause (task_setTask_same ..)) hr
  · exact toNat_of_eq_ofNat (congrArg Task.trapcnt (task_setTask_same ..)) hr
  · exact toNat_of_eq_ofNat (congrArg Die.nocWrr (dieOf_setDieOf_same ..)) hv
  · exact toNat_of_eq_ofNat (congrArg Die.agePromote (dieOf_setDieOf_same ..)) (by omega)
  · exact toNat_of_eq_ofNat (migrateWait_setMigrateWait_same ..) (by omega)
  · exact absurd rfl hn
  · exact toNat_of_eq_ofNat rfl (by omega)
  · exact toNat_of_eq_ofNat rfl (by omega)
  · exact toNat_of_eq_ofNat (congrArg Die.evmask (dieOf_setDieOf_same ..)) (by omega)
  · exact toNat_of_eq_ofNat (congrArg Ctx.trapq (ctx_setCtx_same ..)) hv
  · exact toNat_of_eq_ofNat (congrArg Ctx.savea (ctx_setCtx_same ..)) hv
  · cases hr

/-- What the body of `CSRW` does (R137, R138, R371). -/
def Issue.csrw (i : Issue) : Done :=
  match i.task.wait with
  | .csrSent place => if i.s.appliedBy i.die place then .done i.s else .hold i.s
  | _ =>
    if !csrRange (csrNum i.w.d) i.sa then i.illegal 5
    else if csrNum i.w.d = 0x15 then
      .hold ((i.s.setTask i.pe i.slot { i.task with wait := .csrSent i.s.hub.log.length }).post (.csr i.sa))
    else .done (i.writeCsr (csrNum i.w.d) i.sa)

theorem Issue.csrw_unsent {i : Issue} (h : ∀ p, i.task.wait ≠ .csrSent p) : i.csrw =
    if !csrRange (csrNum i.w.d) i.sa then i.illegal 5
    else if csrNum i.w.d = 0x15 then
      .hold ((i.s.setTask i.pe i.slot { i.task with wait := .csrSent i.s.hub.log.length }).post (.csr i.sa))
    else .done (i.writeCsr (csrNum i.w.d) i.sa) := by
  unfold Issue.csrw
  split
  · next hw => exact absurd hw (h _)
  · rfl

theorem Issue.csrw_applied {i : Issue} {p : Nat} (hw : i.task.wait = .csrSent p) (h : i.s.appliedBy i.die p = true) :
    i.csrw = .done i.s := by
  unfold Issue.csrw
  rw [hw]
  exact if_pos h

theorem systemRegisters : Claims.SystemRegisters := by
  refine ⟨writesScalar_of_putD exec_csrr fun i hs hc => ?reads,
    completes_of_done exec_csrw fun i ⟨hw, hr, hn⟩ => (Issue.csrw_unsent hw).trans ?writes,
    fun w slot s hr hrange hn => Issue.csr_writeCsr _ hrange hn (Issue.scalar_lt ..),
    fails_of_illegal exec_csrw (fun _ _ => rfl) fun i ⟨hw, hr⟩ => (Issue.csrw_unsent hw).trans ?outOfRange,
    holds_of_hold exec_csrw fun i ⟨hw, hr, hn⟩ => (Issue.csrw_unsent hw).trans ?sends,
    completes_of_done exec_csrw fun i ⟨p, hw, ha⟩ => Issue.csrw_applied hw ha, skipsOff_of_runInstr exec_csrw⟩
  case reads =>
    rw [Issue.word_of_csrOnly hc (by rw [hs]), scalarWord, BitVec.toNat_ofNat, Nat.mod_mod_of_dvd _ (by decide)]
  case writes => rw [hr, if_neg hn]; rfl
  case outOfRange => rw [hr]; rfl
  case sends => rw [hn, hr]; rfl

/-! ## Launches, traps, yields, events and watchdog limits (R144 to R147, R153) -/

theorem launches : Claims.Launches := by
  refine ⟨fails_of_illegal exec_launch (fun _ _ => rfl) fun i h => if_pos h, holds_of_hold exec_launch fun i ⟨ha, hu⟩ => ?waits,
    completes_of_done exec_launch fun i ⟨ha, hu, hq⟩ => ?full, completes_of_done exec_launch fun i ⟨ha, hu, hq⟩ => ?posts,
    skipsOff_of_runInstr exec_launch⟩
  all_goals refine (if_neg (not_not_intro ha)).trans ?_
  case waits => exact if_pos hu
  case full => exact (if_neg (Bool.eq_false_iff.mp hu)).trans (if_pos hq)
  case posts => exact (if_neg (Bool.eq_false_iff.mp hu)).trans (if_neg (Nat.not_le.mpr hq))

theorem trapsAndYields : Claims.TrapsAndYields := by
  refine ⟨fun w slot s hr _ => performs_apply (exec_trap w s) hr.1 (.inr hr.2), skipsOff_of_runUnit exec_trap,
    completes_of_done exec_yield fun i _ => rfl, skipsOff_of_runInstr exec_yield, completes_of_done exec_evlog fun i _ => rfl,
    completes_of_done exec_wdog fun i ⟨hd, hv⟩ => (if_neg (Nat.not_le.mpr hd)).trans (if_neg ?limit),
    fails_of_illegal exec_wdog (fun _ _ => rfl) fun i h => if_pos h,
    fails_of_illegal exec_wdog (fun _ _ => rfl) fun i ⟨hd, hv⟩ => (if_neg (Nat.not_le.mpr hd)).trans (if_pos ?outOfRange)⟩
  all_goals
    simp only [Bool.or_eq_true, Bool.and_eq_true, decide_eq_true_eq]
    omega

/-- Settles O46: each instruction runs in the frame of `runInstr`, and its operand and the task's wait choose the branch of its body. -/
theorem systemInstructions : Obligations.SystemInstructions := ⟨systemRegisters, launches, trapsAndYields⟩

end Sys2Proof.Machine
end

section
/-! PROOFS. Requests to the Saggar, fuses, key wipes and the debug port (spec/04 R148 to R152, spec/16 R474). -/
namespace Sys2Proof.Machine

/-! ## Writes of memory leave what the Saggar holds -/

section
variable (s : State)

@[simp] theorem sag_queueTrap (dom : Nat) (r : Word) : (s.queueTrap dom r).sag = s.sag := by
  unfold State.queueTrap
  split <;> rfl

@[simp] theorem sag_postRecord (die : Nat) (r : Word) (more : Nat) (pattern : Bool) : (s.postRecord die r more pattern).sag = s.sag := by
  unfold State.postRecord State.respond
  dsimp only
  split
  · split
    · split
      · simp
      · exact sag_queueTrap ..
    · simp
  · simp

@[simp] theorem sag_lineEvent (l dom code : Nat) (always : Bool) : (s.lineEvent l dom code always).sag = s.sag := sag_logEvent ..

@[simp] theorem sag_rebuildLine (l dom : Nat) : (s.rebuildLine l dom).2.sag = s.sag := by
  have h : (s.settleLine l).sag = s.sag := rfl
  unfold State.rebuildLine
  dsimp only
  split
  · split <;> simp [h]
  · simp [h]

@[simp] theorem sag_readStored (p dom : Nat) : (s.readStored p dom).2.sag = s.sag := by
  have h := sag_rebuildLine s (s.mem.lineOf p) dom
  unfold State.readStored
  dsimp only
  generalize s.rebuildLine (s.mem.lineOf p) dom = r at h
  obtain ⟨ok, t⟩ := r
  dsimp only at h
  cases ok <;> split_ifs <;> simp [h]

theorem sag_readStoredFrom (dom : Nat) : ∀ (n : Nat) (s : State) (p : Nat), (s.readStoredFrom p dom n).2.sag = s.sag
  | 0, _, _ => rfl
  | n + 1, s, p => by
    have h := sag_readStored s p dom
    rw [State.readStoredFrom]
    generalize s.readStored p dom = r at h
    obtain ⟨_ | f, t⟩ := r
    · exact (sag_readStoredFrom dom n t (p + 64)).trans h
    · exact h

@[simp] theorem sag_updateParity (l : Nat) (d : Bool) (written : Nat → Bool) : (s.updateParity l d written).sag = s.sag := by
  unfold State.updateParity
  dsimp only
  split_ifs <;> rfl

@[simp] theorem sag_writeLine (p n dom : Nat) (written : Nat → Bool) : (s.writeLine p n dom written).2.sag = s.sag := by
  have h : (if n = 64 then (true, s) else s.rebuildLine (s.mem.lineOf p) dom).2.sag = s.sag := by split <;> simp
  unfold State.writeLine
  dsimp only
  generalize (if n = 64 then (true, s) else s.rebuildLine (s.mem.lineOf p) dom) = r at h
  split_ifs <;> simp [h]

theorem sag_expandUnit (f dom i : Nat) : (s.expandUnit f dom i).sag = s.sag := by
  have h := sag_readStoredFrom dom (s.linesUsed (65536 * f + 4096 * i)) s (65536 * f + 4096 * i)
  unfold State.expandUnit
  dsimp only
  split
  · rfl
  · generalize s.readStoredFrom (65536 * f + 4096 * i) dom (s.linesUsed (65536 * f + 4096 * i)) = r at h
    obtain ⟨_ | f, t⟩ := r
    · exact foldUp_keeps (P := fun t : State => t.sag = s.sag) h fun _ _ hu => (sag_writeLine ..).trans hu
    · exact foldUp_keeps (P := fun t : State => t.sag = s.sag) h fun _ _ hu => hu

theorem sag_expandFrame (slot p dom : Nat) : (s.expandFrame slot p dom).sag = s.sag := by
  have h : (foldUp 16 s fun s i => s.expandUnit (p / 65536) dom i).sag = s.sag :=
    foldUp_keeps (P := fun t : State => t.sag = s.sag) rfl fun _ _ hu => (sag_expandUnit ..).trans hu
  unfold State.expandFrame
  split
  · exact (setFrame_sag ..).trans h
  · rfl

theorem sag_expandFrames (slot p n dom : Nat) : (s.expandFrames slot p n dom).sag = s.sag :=
  foldUp_keeps (P := fun t : State => t.sag = s.sag) rfl fun _ _ hu => (sag_expandFrame ..).trans hu

theorem sag_writeLines (slot : Nat) (key : KeyPair) (dom : Nat) (written : Nat → Bool) : ∀ (fuel : Nat) (s : State) (p : Nat) (bs : List Byte)
    (fail : Option MemFail), (s.writeLines slot key dom p bs fail written fuel).2.sag = s.sag
  | 0, _, _, _, _ => rfl
  | fuel + 1, s, p, bs, fail => by
    have h : (if s.keyLost slot p then (some (.key (s.homeOf p)), s)
        else s.writeLine p (Nat.min bs.length (64 - p % 64)) dom written : Option MemFail × State).2.sag = s.sag := by
      split <;> simp
    unfold State.writeLines
    dsimp only
    split
    · rfl
    · generalize (if s.keyLost slot p then (some (.key (s.homeOf p)), s)
        else s.writeLine p (Nat.min bs.length (64 - p % 64)) dom written : Option MemFail × State) = r at h
      obtain ⟨_ | f, t⟩ := r
      · exact (sag_writeLines slot key dom written fuel _ _ _ _).trans h
      · exact (sag_writeLines slot key dom written fuel _ _ _ _).trans h

@[simp] theorem sag_memStore (slot dom disp p : Nat) (bs : List Byte) : (s.memStore slot dom disp p bs).sag = s.sag := by
  have h : (s.memWrite slot dom p bs).2.sag = s.sag := by
    unfold State.memWrite
    split
    · rfl
    · split
      · rfl
      · exact (sag_writeLines ..).trans (sag_expandFrames ..)
  unfold State.memStore State.postWrite
  generalize s.memWrite slot dom p bs = r at h
  obtain ⟨_ | f, t⟩ := r
  · exact h
  · exact (sag_postRecord ..).trans h

end

/-- DEBUGUNLOCK follows the port in the capability list, and nothing else of the Saggar changes (R459). -/
theorem sag_followDebug (s : State) : ∃ bs, s.followDebug.sag = { s.sag with caps := bs } := by
  unfold State.followDebug
  split
  · exact ⟨_, rfl⟩
  · exact ⟨_, sag_memStore ..⟩

/-! ## Requests to the Saggar (R148, R149) -/

section
variable {i : Issue} {r : SagReq}

theorem Issue.sagRequest_asks (ha : i.sa % 64 = 0) (hu : i.s.unperformed i.pe i.slot = false) (h : i.s.sagOutstanding i.dom < 4) :
    i.sagRequest r = .done ((i.s.askSaggar r).setPredOf i.pe (Issue.predNum i.w.d) 0xFFFFFFFF) :=
  (if_neg (not_not_intro ha)).trans ((if_neg (Bool.eq_false_iff.mp hu)).trans (if_neg (Nat.not_le.mpr h)))

theorem Issue.sagRequest_full (ha : i.sa % 64 = 0) (hu : i.s.unperformed i.pe i.slot = false) (h : 4 ≤ i.s.sagOutstanding i.dom) :
    i.sagRequest r = .done (i.s.setPredOf i.pe (Issue.predNum i.w.d) 0) :=
  (if_neg (not_not_intro ha)).trans ((if_neg (Bool.eq_false_iff.mp hu)).trans (if_pos h))

theorem Issue.sagRequest_unaligned (ha : i.sa % 64 ≠ 0) : i.sagRequest r = i.illegal 5 := if_pos ha

end

/-- An instruction whose body asks the Saggar. -/
theorem asks_of_sagRequest {c : Fields → Instr} {sp : OpSpec} {r : Issue → SagReq}
    (hx : ∀ w s, exec (c w) s = runInstr sp w (fun i => i.sagRequest (r i)) s) :
    Completes c (fun _ => sp) (fun x => (x.sa % 64 = 0 ∧ x.s.unperformed x.pe x.slot = false) ∧ x.s.sagOutstanding x.dom < 4)
      (fun x => (x.s.askSaggar (r x)).setPredOf x.pe (Issue.predNum x.w.d) 0xFFFFFFFF) ∧
    Completes c (fun _ => sp) (fun x => (x.sa % 64 = 0 ∧ x.s.unperformed x.pe x.slot = false) ∧ 4 ≤ x.s.sagOutstanding x.dom)
      (fun x => x.s.setPredOf x.pe (Issue.predNum x.w.d) 0) ∧
    Fails c (fun _ => sp) (fun x => x.sa % 64 ≠ 0) Cause.illegalOperand (fun _ => sp.op + 256 * 5) :=
  ⟨completes_of_done hx fun _ ⟨⟨ha, hu⟩, h⟩ => Issue.sagRequest_asks ha hu h,
    completes_of_done hx fun _ ⟨⟨ha, hu⟩, h⟩ => Issue.sagRequest_full ha hu h,
    fails_of_illegal hx (fun _ _ => rfl) fun _ => Issue.sagRequest_unaligned⟩

theorem saggarRequests : Claims.SaggarRequests :=
  ⟨completes_of_done exec_mext fun _ _ => rfl, asks_of_sagRequest exec_attest, asks_of_sagRequest exec_sagvfyUnlock,
    asks_of_sagRequest exec_sagvfyManifest⟩

/-! ## Keys, fuses and the debug port (R150 to R152, R474) -/

/-- A slot that is emptied is empty at every controller. -/
theorem keyAt_loadKey_none (s : State) (slot cl : Nat) : (s.loadKey slot none).keyAt slot cl = none := by
  unfold State.keyAt
  split
  · rfl
  · exact keySlot_setKeySlot_same ..

theorem keySlot_loadKey_other (s : State) {slot j : Nat} (k : Option KeyPair) (h : j ≠ slot) : (s.loadKey slot k).keySlot j = s.keySlot j :=
  keySlot_setKeySlot_other s slot k j h

/-- The state in which `KEYWIPE.all` leaves every slot EMPTY (R151, R152). -/
def State.wipeKeys (s : State) : State :=
  { s with sag := { s.sag with keys := {}, lostKeys := [], lostCopies := [], wiped := s.sag.token.isSome } }

theorem keyAt_wipeKeys (s : State) (k cl : Nat) : s.wipeKeys.keySlot k = none ∧ s.wipeKeys.keyAt k cl = none := ⟨rfl, rfl⟩

/-- The debug port opens: key slot 0 is loaded again, and the capability list and the black box say so (R152, R459, R474). -/
def State.openPort (s : State) : State :=
  ((({ s with sag := { s.sag with dbgOpen := true } } : State).loadKey 0 s.sag.key0).followDebug).logEvent 8 0x5008 0 0 0 true

theorem sag_openPort (s : State) : ∃ bs, s.openPort.sag =
    { (({ s with sag := { s.sag with dbgOpen := true } } : State).loadKey 0 s.sag.key0).sag with caps := bs } := by
  obtain ⟨bs, h⟩ := sag_followDebug (({ s with sag := { s.sag with dbgOpen := true } } : State).loadKey 0 s.sag.key0)
  exact ⟨bs, (sag_logEvent ..).trans h⟩

theorem openPort_opens (s : State) : s.openPort.sag.dbgOpen = true ∧ s.openPort.keySlot 0 = s.sag.key0 ∧
    ∀ k, s.openPort.measReg k = s.measReg k := by
  obtain ⟨bs, h⟩ := sag_openPort s
  have hkeys := congrArg (fun g : SagState => g.keys.find 0 none) h
  have hmeas (k : Nat) := congrArg (fun g : SagState => g.meas.find k 0) h
  exact ⟨congrArg SagState.dbgOpen h, hkeys.trans (keySlot_setKeySlot_same ..), hmeas⟩

theorem key0_extend (s : State) (n : Nat) (bs : List Byte) : (s.extend n bs).sag.key0 = s.sag.key0 := setMeasReg_sag_key0 ..

theorem keysAndFuses : Claims.KeysAndFuses := by
  refine ⟨writesScalar_of_putD exec_fuserd fun i _ _ => ((BitVec.ofNat_toNat ..).trans (BitVec.setWidth_eq _)).symm,
    completes_of_done exec_keywipe fun i ⟨hpos, hlt⟩ => if_neg ?oneSlot,
    fun k j cl s => ⟨keyAt_loadKey_none s k cl, keySlot_loadKey_other s none, rfl, rfl⟩,
    fails_of_illegal exec_keywipe (fun _ _ => rfl) fun i h => if_pos ?noSlot,
    fun w slot s hr hlt => ?allSlots,
    completes_of_done exec_dbgopen fun i h => ?refused, fun w slot s tok hr htok hw => ?opens⟩
  case oneSlot | noSlot =>
    simp only [Bool.or_eq_true, decide_eq_true_eq]
    omega
  case allSlots =>
    have hp := performs_of_done (m := s.wipeKeys) (exec_keywipeAll w s) hr (if_neg (Nat.not_le.mpr hlt))
    exact ⟨_, hp, keyAt_wipeKeys s, rfl, rfl⟩
  case refused =>
    obtain h | h := h
    · simp only [h]
    · cases ht : i.s.sag.token <;> simp [h]
  case opens =>
    obtain ⟨hopen, hkey, hmeas⟩ := openPort_opens (s.extend 7 (bytesOfNat 32 tok.toNat))
    have hp := performs_of_done (m := ((s.extend 7 (bytesOfNat 32 tok.toNat)).openPort).setPredOf s.cur (Issue.predNum w.d) 0xFFFFFFFF)
      (exec_dbgopen w s) hr (by simp only [htok, hw, Bool.not_true, Bool.false_eq_true, if_false, State.openPort])
    exact ⟨_, hp, predOf_setPredOf_same .., hopen, hkey.trans (key0_extend ..), hmeas 7⟩

/-- Settles O47: a request is checked, then queued or refused, and what `DBGOPEN` writes to the capability list leaves the Saggar's other fields. -/
theorem securityInstructions : Obligations.SecurityInstructions := ⟨saggarRequests, keysAndFuses⟩

end Sys2Proof.Machine
end

section
/-! PROOFS. Barriers: arming, arriving, testing and leaving (spec/04 R141 to R143, spec/09 R262, R264, R265, spec/13 R364). -/
namespace Sys2Proof.Machine

/-! ## Turns within a cycle (R262) -/

section
variable (s : State)

@[simp] theorem barrier_takeTurn (k p j : Nat) : (s.takeTurn k p).barrier j = s.barrier j := rfl

theorem now_takeTurn (k p : Nat) : (s.takeTurn k p).now =
    if (s.sync.turns.find k (0, 0)).1 < s.now ∨ ((s.sync.turns.find k (0, 0)).1 = s.now ∧ (s.sync.turns.find k (0, 0)).2 < p + 1) then s.now
    else Nat.max s.now ((s.sync.turns.find k (0, 0)).1 + 1) := rfl

theorem turn_takeTurn (k p : Nat) : (s.takeTurn k p).sync.turns.find k (0, 0) = ((s.takeTurn k p).now, p + 1) := Map.find_put_same ..

theorem now_le_takeTurn (k p : Nat) : s.now ≤ (s.takeTurn k p).now := by
  rw [now_takeTurn]
  split
  · exact le_rfl
  · exact Nat.le_max_left ..

/-- The operations of one cycle come in ascending order of their PEs. -/
theorem takeTurn_ordered (k p q : Nat) : (s.takeTurn k p).now < ((s.takeTurn k p).takeTurn k q).now ∨
    ((s.takeTurn k p).now = ((s.takeTurn k p).takeTurn k q).now ∧ p < q) := by
  rw [now_takeTurn (s.takeTurn k p), turn_takeTurn]
  split
  case isTrue h =>
    obtain h | ⟨-, h⟩ := h
    · exact absurd h (lt_irrefl _)
    · exact .inr ⟨rfl, Nat.lt_of_succ_lt_succ h⟩
  case isFalse => exact .inl (Nat.lt_of_succ_le (Nat.le_max_right ..))

end

/-! ## What an operation finds at a counter of the core (R141 to R143) -/

theorem closeGen_core (s : State) (k id : Nat) : s.closeGen k 0 id = s.setBarrier k (s.barrier k).nextGen := by
  simp [State.closeGen]

/-- A counter of the core is known to no other module. -/
theorem found_takeTurn_core (s : State) (k p id : Nat) : (s.takeTurn k p).found k 0 id = s.barrier k := by
  simp [State.found]

/-- The number of a generation differs from that of the one before it. -/
theorem nextGen_gen_ne {b : Barrier} {g : Nat} (h : b.gen = g) : b.nextGen.gen ≠ g := by
  show (b.gen + 1) % 2 ^ 16 ≠ g
  omega

section
variable {s : State} {pe k id : Nat}

theorem atCounter_arm_pending {n : Nat} (h : 0 < (s.barrier k).arr) :
    s.atCounter pe k 0 id (.arm n) = ({ illegal := true }, s.takeTurn k (pe + 1)) := if_pos h

theorem atCounter_arm {n : Nat} (ha : (s.barrier k).arr = 0) (hm : n ≤ (s.barrier k).memb) :
    s.atCounter pe k 0 id (.arm n) = ({}, (s.takeTurn k (pe + 1)).setBarrier k { s.barrier k with exp := n }) :=
  (if_neg (Nat.not_lt.mpr ha.le)).trans (if_neg (Nat.not_lt.mpr hm))

theorem atCounter_arm_breaks {n : Nat} (ha : (s.barrier k).arr = 0) (hm : (s.barrier k).memb < n) :
    s.atCounter pe k 0 id (.arm n) =
      ({ broken := true }, ((s.takeTurn k (pe + 1)).setBarrier k { s.barrier k with exp := n }).breakCounter k) :=
  (if_neg (Nat.not_lt.mpr ha.le)).trans (if_pos hm)

theorem atCounter_arrive_broken (h : (s.barrier k).brk = true) :
    s.atCounter pe k 0 id .arrive = ({ broken := true }, s.takeTurn k (pe + 1)) := if_pos h

theorem atCounter_arrive_unarmed (hb : (s.barrier k).brk = false) (h : (s.barrier k).exp = 0) :
    s.atCounter pe k 0 id .arrive = ({ illegal := true }, s.takeTurn k (pe + 1)) :=
  (if_neg (Bool.eq_false_iff.mp hb)).trans (if_pos h)

theorem atCounter_arrive (hb : (s.barrier k).brk = false) (he : 0 < (s.barrier k).exp) (ha : (s.barrier k).arr + 1 ≠ (s.barrier k).exp) :
    s.atCounter pe k 0 id .arrive =
      ({ gen := (s.barrier k).gen }, (s.takeTurn k (pe + 1)).setBarrier k { s.barrier k with arr := (s.barrier k).arr + 1 }) := by
  simp only [State.atCounter, found_takeTurn_core, hb, Bool.false_eq_true, he.ne', ha, if_false, barrier_setBarrier_same, ne_eq,
    not_true_eq_false, decide_false]

/-- The last arrival closes the generation. -/
theorem atCounter_arrive_last (hb : (s.barrier k).brk = false) (he : 0 < (s.barrier k).exp) (ha : (s.barrier k).arr + 1 = (s.barrier k).exp) :
    s.atCounter pe k 0 id .arrive = ({ released := true, gen := (s.barrier k).gen },
      ((s.takeTurn k (pe + 1)).setBarrier k { s.barrier k with arr := (s.barrier k).arr + 1 }).closeGen k 0 id) := by
  simp only [State.atCounter, found_takeTurn_core, hb, Bool.false_eq_true, he.ne', ha, if_false, if_true, closeGen_core,
    barrier_setBarrier_same, nextGen_gen_ne, ne_eq, not_false_eq_true, decide_true]

theorem atCounter_test_broken {g : Nat} (h : (s.barrier k).brk = true) :
    s.atCounter pe k 0 id (.test g) = ({ broken := true }, s.takeTurn k (pe + 1)) := if_pos h

theorem atCounter_test {g : Nat} (h : (s.barrier k).brk = false) :
    s.atCounter pe k 0 id (.test g) = ({ released := (s.barrier k).gen ≠ g, gen := g }, s.takeTurn k (pe + 1)) :=
  if_neg (Bool.eq_false_iff.mp h)

theorem atCounter_exit_outside {g : Option Nat} (h : (s.barrier k).memb = 0) :
    s.atCounter pe k 0 id (.exit g) = ({ illegal := true }, s.takeTurn k (pe + 1)) := if_pos h

end

/-- An instruction whose body fails a check of its counter after the turn is taken (R364). -/
theorem completes_of_illegal {c : Fields → Instr} {spec : Fields → OpSpec} {body : Fields → Issue → Done} {cond : Issue → Prop}
    {m t : Issue → State} {field : Nat} (hx : ∀ w s, exec (c w) s = runInstr (spec w) w (body w) s)
    (hb : ∀ i, cond i → body i.w i = .fail Cause.illegalOperand (i.spec.op + 256 * field) (m i))
    (ht : ∀ w i, t i = (m i).emit i.pe i.slot Cause.illegalOperand ((spec w).op + 256 * field) := by exact fun _ _ => rfl) :
    Completes c spec cond t := by
  intro w slot s hr hc
  rw [ht w]
  exact performs_of_fail (hx w s) hr (hb _ hc)

/-! ## Arming (R141) -/

theorem barrierArm : Claims.BarrierArm := by
  have inRange {n : Nat} (h : 1 ≤ n ∧ n ≤ 65535) : ¬ (decide (n = 0) || decide (65535 < n)) = true := by
    simp only [Bool.or_eq_true, decide_eq_true_eq]
    omega
  refine ⟨fails_of_illegal exec_bara (fun _ _ => rfl) fun i h => if_pos ?illegal,
    completes_of_done exec_bara fun i ⟨hn, hs⟩ => (if_neg (inRange hn)).trans (if_pos hs),
    completes_of_illegal exec_bara fun i ⟨hn, hs, ha⟩ => (if_neg (inRange hn)).trans ((if_neg (not_not_intro hs)).trans ?pending),
    completes_of_done exec_bara fun i ⟨hn, hs, ha, hm⟩ => (if_neg (inRange hn)).trans ((if_neg (not_not_intro hs)).trans ?arms),
    completes_of_done exec_bara fun i ⟨hn, hs, ha, hm⟩ => (if_neg (inRange hn)).trans ((if_neg (not_not_intro hs)).trans ?breaks),
    fun k p q s => ⟨now_le_takeTurn s k p, takeTurn_ordered s k p q, rfl, rfl, rfl⟩⟩
  case illegal =>
    dsimp only at h
    simp only [Bool.or_eq_true, decide_eq_true_eq]
    omega
  case pending => rw [atCounter_arm_pending ha]; rfl
  case arms => rw [atCounter_arm ha hm]; rfl
  case breaks => rw [atCounter_arm_breaks ha hm]; rfl

/-! ## Arriving and testing (R142) -/

/-- The generation of the pending arrival, where it names the counter of the instruction. -/
def Issue.ownGen (i : Issue) : Option Nat :=
  match i.task.barp with | some p => if p.names (barScope i.imm) (barId i.imm) then some p.gen else none | none => none

/-- The check of `BARP` for `BARW` and `BARW.t`. -/
def Issue.barpOk (i : Issue) (test : Bool) : Bool := if test then i.ownGen.isSome else i.task.barp.isNone

/-- What `BARW` and `BARW.t` ask of the counter. -/
def Issue.barwKind (i : Issue) (test : Bool) : BarOpKind := if test then .test (i.ownGen.getD 0) else .arrive

section
variable {i : Issue} {test : Bool}

theorem barw_core (hw : i.task.wait = .none) (hs : barScope i.imm = 0) : i.barw test =
    if i.barpOk test then
      i.finishBarw (i.s.atCounter i.pe i.counter 0 (barId i.imm) (i.barwKind test)).2
        (i.s.atCounter i.pe i.counter 0 (barId i.imm) (i.barwKind test)).1
    else i.finishBarw (i.s.takeTurn i.counter (i.pe + 1)) { broken := (i.s.barrier i.counter).brk, illegal := true } := by
  unfold Issue.barw
  rw [hw]
  exact if_pos hs

theorem barw_beyond (hw : i.task.wait = .none) (hs : barScope i.imm ≠ 0) : i.barw test =
    if !i.barpOk test then i.illegal 8
    else .hold ((i.sendBar i.counter (i.barwKind test)).setTask i.pe i.slot { i.task with wait := .barSent }) := by
  unfold Issue.barw
  rw [hw]
  exact if_neg hs

theorem barw_sent (hw : i.task.wait = .barSent) : i.barw test = .hold i.s := by
  unfold Issue.barw
  rw [hw]

theorem barw_back {broken ill rel : Bool} {gen : Nat} (hw : i.task.wait = .barDone broken ill rel gen) :
    i.barw test = i.finishBarw i.s { broken, illegal := ill, released := rel, gen } := by
  unfold Issue.barw
  rw [hw]

theorem barpOk_arrive (h : i.task.barp = none) : i.barpOk false = true := Option.isNone_iff_eq_none.mpr h
theorem barpOk_arrive_pending (h : i.task.barp ≠ none) : i.barpOk false = false := Option.isNone_eq_false_iff.mpr (Option.isSome_iff_ne_none.mpr h)
theorem barpOk_test : i.barpOk true = i.ownGen.isSome := rfl
theorem barwKind_arrive : i.barwKind false = .arrive := rfl
theorem barwKind_test : i.barwKind true = .test (i.ownGen.getD 0) := rfl

/-- A broken counter is found broken, whatever is asked of it. -/
theorem atCounter_barw_broken (h : (i.s.barrier i.counter).brk = true) :
    i.s.atCounter i.pe i.counter 0 (barId i.imm) (i.barwKind test) = ({ broken := true }, i.s.takeTurn i.counter (i.pe + 1)) := by
  cases test
  · exact atCounter_arrive_broken h
  · exact atCounter_test_broken h

end

/-! ### How `BARW` and `BARW.t` finish -/

section
variable {i : Issue} {t : State} {f : BarFound}

theorem finishBarw_broken (h : f.broken = true) : i.finishBarw t f =
    let u := (t.setPredOf i.pe (Issue.predNum i.w.d) 0xFFFFFFFF).setTask i.pe i.slot { t.task i.pe i.slot with barp := none }
    .done (u.setTask i.pe i.slot ((u.task i.pe i.slot).taint (u.brokenRecord i.counter (barScope i.imm) (barId i.imm)))) := if_pos h

theorem finishBarw_illegal (hb : f.broken = false) (h : f.illegal = true) :
    i.finishBarw t f = .fail Cause.illegalOperand (i.spec.op + 256 * 8) t := (if_neg (Bool.eq_false_iff.mp hb)).trans (if_pos h)

theorem finishBarw_released {gen : Nat} : i.finishBarw t { released := true, gen } =
    .done ((t.setPredOf i.pe (Issue.predNum i.w.d) 0xFFFFFFFF).setTask i.pe i.slot { t.task i.pe i.slot with barp := none }) := rfl

theorem finishBarw_pending {gen : Nat} : i.finishBarw t { gen } =
    .done ((t.setPredOf i.pe (Issue.predNum i.w.d) 0).setTask i.pe i.slot
      { t.task i.pe i.slot with barp := some { scope := barScope i.imm, bar := barId i.imm, gen } }) := rfl

end

theorem ownGen_of_barp {i : Issue} {g : Nat} (hs : barScope i.imm = 0) (h : i.task.barp = some { scope := 0, bar := barId i.imm, gen := g }) :
    i.ownGen = some g := by
  simp [Issue.ownGen, h, hs, Barp.names]

theorem ownGen_of_no_name {i : Issue} (hs : barScope i.imm = 0) (h : ∀ p, i.task.barp = some p → p.names 0 (barId i.imm) = false) :
    i.ownGen = none := by
  unfold Issue.ownGen
  cases hb : i.task.barp with
  | none => rfl
  | some p => simp [hs, h p hb]

theorem barrierArrive : Claims.BarrierArrive := by
  refine ⟨completes_of_done exec_barw fun i ⟨⟨hs, hw, hb⟩, hp, he, ha⟩ => (barw_core hw hs).trans ?arrives,
    completes_of_done exec_barw fun i ⟨⟨hs, hw, hb⟩, hp, he, ha⟩ => (barw_core hw hs).trans ?closes,
    completes_of_illegal exec_barw fun i ⟨⟨hs, hw, hb⟩, h⟩ => (barw_core hw hs).trans ?refuses, fun c hc => ?shared,
    fails_of_illegal exec_barw (fun _ _ => rfl) fun i ⟨hs, hw, hp⟩ => (barw_beyond hw hs).trans (if_pos ?pendingBeyond),
    fails_of_illegal exec_barwT (fun _ _ => rfl) fun i ⟨hs, hw, hp⟩ => (barw_beyond hw hs).trans (if_pos ?noneBeyond),
    holds_of_hold exec_barw fun i ⟨hs, hw, hp⟩ => (barw_beyond hw hs).trans (if_neg ?sends),
    completes_of_done exec_barwT fun i ⟨⟨hs, hw, hb⟩, g, hg, hne⟩ => (barw_core hw hs).trans ?passed,
    completes_of_done exec_barwT fun i ⟨⟨hs, hw, hb⟩, hg⟩ => (barw_core hw hs).trans ?stillOpen,
    completes_of_illegal exec_barwT fun i ⟨⟨hs, hw, hb⟩, hn⟩ => (barw_core hw hs).trans ?notOwn⟩
  case arrives =>
    rw [barpOk_arrive hp, barwKind_arrive, atCounter_arrive hb he ha, if_pos rfl, finishBarw_pending, hs]
    rfl
  case closes =>
    rw [barpOk_arrive hp, barwKind_arrive, atCounter_arrive_last hb he ha, if_pos rfl, finishBarw_released, closeGen_core]
    rfl
  case refuses =>
    cases hp : i.task.barp with
    | none =>
      have hexp := h.resolve_left (not_not_intro hp)
      rw [barpOk_arrive hp, barwKind_arrive, atCounter_arrive_unarmed hb hexp, if_pos rfl]
      exact finishBarw_illegal rfl rfl
    | some p =>
      rw [barpOk_arrive_pending (by simp [hp]), hb, if_neg Bool.false_ne_true]
      exact finishBarw_illegal rfl rfl
  case shared =>
    obtain ⟨test, hx⟩ : ∃ test, ∀ w s, exec (c w) s = runInstr _ w (fun i => i.barw test) s := by
      obtain rfl | rfl := hc
      · exact ⟨false, exec_barw⟩
      · exact ⟨true, exec_barwT⟩
    refine ⟨completes_of_done hx fun i ⟨hs, hw, hb⟩ => (barw_core hw hs).trans ?found,
      fun ill rel gen => completes_of_done hx fun i hw => (barw_back hw).trans (finishBarw_broken rfl),
      fun rel gen => completes_of_illegal hx fun i hw => (barw_back hw).trans (finishBarw_illegal rfl rfl),
      fun gen => completes_of_done hx fun i hw => (barw_back hw).trans finishBarw_released,
      fun gen => completes_of_done hx fun i hw => (barw_back hw).trans finishBarw_pending,
      holds_of_hold hx fun i hw => barw_sent hw⟩
    rw [atCounter_barw_broken hb, hb]
    split <;> exact finishBarw_broken rfl
  case pendingBeyond => rw [barpOk_arrive_pending hp]; rfl
  case noneBeyond => rw [barpOk_test, Issue.ownGen, hp]; rfl
  case sends => rw [barpOk_arrive hp]; exact Bool.false_ne_true
  case passed =>
    rw [barpOk_test, barwKind_test, ownGen_of_barp hs hg, atCounter_test hb]
    have hpassed : decide ((i.s.barrier i.counter).gen ≠ g) = true := decide_eq_true hne
    rw [Option.getD_some, hpassed]
    exact finishBarw_released
  case stillOpen =>
    dsimp only at hg ⊢
    have hsame : decide ((i.s.barrier i.counter).gen ≠ (i.s.barrier i.counter).gen) = false := by simp
    rw [barpOk_test, barwKind_test, ownGen_of_barp hs hg, atCounter_test hb, Option.getD_some, hsame, Option.isSome_some, if_pos rfl,
      finishBarw_pending, hs, ← hg]
    rfl
  case notOwn =>
    rw [barpOk_test, ownGen_of_no_name hs hn, hb, Option.isSome_none, if_neg Bool.false_ne_true]
    exact finishBarw_illegal rfl rfl

/-! ## Leaving (R143), and performing beyond the core (R364) -/

/-- The task's pending arrival is at the counter that the instruction names. -/
def Issue.barpNames (i : Issue) : Bool := i.task.barp.elim false fun p => p.names (barScope i.imm) (barId i.imm)

/-- The task gives its pending arrival up. -/
def Issue.leaveBar (i : Issue) (t : State) : State :=
  if i.barpNames then t.setTask i.pe i.slot { t.task i.pe i.slot with barp := none } else t

/-- The generation of the pending arrival that `BAREX` takes back. -/
def Issue.exitGen (i : Issue) : Option Nat := if i.barpNames then i.task.barp.map Barp.gen else none

/-- What the body of `BAREX` does. -/
def Issue.barex (i : Issue) : Done :=
  if barScope i.imm ≠ 0 then .done (i.leaveBar (i.sendBar i.counter (.exit i.exitGen)))
  else if (i.s.atCounter i.pe i.counter 0 (barId i.imm) (.exit i.exitGen)).1.illegal then
    .fail Cause.illegalOperand (i.spec.op + 256 * 8) (i.s.atCounter i.pe i.counter 0 (barId i.imm) (.exit i.exitGen)).2
  else .done (i.leaveBar (i.s.atCounter i.pe i.counter 0 (barId i.imm) (.exit i.exitGen)).2)

theorem exec_barex_body (w : Fields) (s : State) : exec (.barex w) s = runInstr (specBar 0xEA) w (fun i => i.barex) s := by
  rw [exec_barex, execBarex]
  congr 1
  funext i
  unfold Issue.barex Issue.exitGen Issue.leaveBar Issue.barpNames
  cases i.task.barp <;> rfl

/-- The counter after an exit: its arrivals, less the one taken back, its members and its count (R143). -/
def Barrier.exited (b : Barrier) (g : Option Nat) : Barrier :=
  { b with arr := if g = some b.gen then b.arr - 1 else b.arr, memb := b.memb - 1, exp := Nat.min b.exp (b.memb - 1) }

/-- An exit from a counter of the core closes the generation that has all its arrivals then. -/
theorem atCounter_exit {s : State} {pe k id : Nat} {g : Option Nat} (h : 0 < (s.barrier k).memb) :
    s.atCounter pe k 0 id (.exit g) = ({},
      if 0 < ((s.barrier k).exited g).exp ∧ ((s.barrier k).exited g).exp ≤ ((s.barrier k).exited g).arr then
        ((s.takeTurn k (pe + 1)).setBarrier k ((s.barrier k).exited g)).closeGen k 0 id
      else (s.takeTurn k (pe + 1)).setBarrier k ((s.barrier k).exited g)) := by
  simp only [State.atCounter, found_takeTurn_core, h.ne', if_false, Nat.reduceEqDiff, decide_false, Bool.false_and, Bool.false_eq_true]
  exact (apply_ite (Prod.mk ({} : BarFound)) _ _ _).symm

theorem exitGen_eq_some_iff (i : Issue) (g : Nat) :
    i.exitGen = some g ↔ (i.barpNames && decide (i.task.barp.map Barp.gen = some g)) = true := by
  unfold Issue.exitGen
  cases i.barpNames <;> simp

theorem exited_exitGen (i : Issue) (b : Barrier) : b.exited i.exitGen =
    { b with
      arr := if i.barpNames && decide (i.task.barp.map Barp.gen = some b.gen) then b.arr - 1 else b.arr
      memb := b.memb - 1, exp := Nat.min b.exp (b.memb - 1) } := by
  simp only [Barrier.exited, exitGen_eq_some_iff]

theorem barpNames_core {i : Issue} (hs : barScope i.imm = 0) :
    i.barpNames = i.task.barp.elim false fun p => p.names 0 (barId i.imm) := by
  rw [Issue.barpNames, hs]

/-- `BAREX` at a counter of the core. -/
theorem barex_core {i : Issue} (hs : barScope i.imm = 0) (hm : 0 < (i.s.barrier i.counter).memb) : i.barex =
    let b := (i.s.barrier i.counter).exited i.exitGen
    let t := (i.s.takeTurn i.counter (i.pe + 1)).setBarrier i.counter b
    .done (i.leaveBar (if 0 < b.exp ∧ b.exp ≤ b.arr then t.closeGen i.counter 0 (barId i.imm) else t)) := by
  unfold Issue.barex
  rw [if_neg (not_not_intro hs), atCounter_exit hm]
  rfl

/-- Without a pending arrival, and with the counter unarmed, only a member is gone. -/
theorem exited_unarmed {b : Barrier} (h : b.exp = 0) : b.exited none = { b with memb := b.memb - 1 } := by
  simp [Barrier.exited, h]

theorem barrierExit : Claims.BarrierExit := by
  refine ⟨completes_of_done exec_barex_body fun i ⟨hs, hp, hm, he⟩ => (barex_core hs hm).trans ?unarmed,
    ⟨completes_of_done exec_barex_body fun i ⟨hs, hm, hopen⟩ => (barex_core hs hm).trans ?stillOpen,
      completes_of_done exec_barex_body fun i ⟨hs, hm, hclosed⟩ => (barex_core hs hm).trans ?closes,
      completes_of_illegal exec_barex_body fun i ⟨hs, hm⟩ => ?outside,
      completes_of_done exec_barex_body fun i ⟨hs, hn⟩ => (if_pos hs).trans ?sendsMine⟩,
    completes_of_done exec_barex_body fun i ⟨hs, hn⟩ => (if_pos hs).trans ?sends, fun index s op hop holdest => ?performs⟩
  case unarmed =>
    have hg : i.exitGen = none := by simp [Issue.exitGen, hp]
    have hn : i.barpNames = false := by simp [Issue.barpNames, hp]
    dsimp only at he ⊢
    rw [hg, exited_unarmed he, Issue.leaveBar, hn]
    simp [he]
  case stillOpen =>
    dsimp only at hopen ⊢
    rw [exited_exitGen, Issue.leaveBar, barpNames_core hs, if_neg hopen]
  case closes =>
    dsimp only at hclosed ⊢
    rw [exited_exitGen, Issue.leaveBar, barpNames_core hs, if_pos hclosed]
  case outside =>
    unfold Issue.barex
    rw [if_neg (not_not_intro hs), atCounter_exit_outside hm]
    rfl
  case sendsMine =>
    have hn : i.barpNames = true := hn
    rw [Issue.leaveBar, if_pos hn, Issue.exitGen, if_pos hn]
  case sends =>
    have hn : i.barpNames = false := hn
    rw [Issue.leaveBar, Issue.exitGen, hn]
    rfl
  case performs =>
    have hfirst : (s.sync.flying.take index).any (fun o => decide (o.pe = op.pe)) = false := by
      simpa using holdest
    rw [exec_barrierPerform, execBarrierPerform]
    simp only [hop, hfirst]
    rfl

/-- Settles O48: the counter as the operation finds it in its turn, and the task's wait and pending arrival, choose the branch of each body. -/
theorem barriers : Obligations.Barriers := ⟨barrierArm, barrierArrive, barrierExit⟩

end Sys2Proof.Machine
end

section
/-! PROOFS. The requests that the Saggar serves (spec/04 R149, spec/16 R469 to R473). -/
namespace Sys2Proof.Machine

section
variable {s s₁ s₂ s₃ : State}

/-- The next request of a sort leaves the queue and is served. -/
theorem serveNext_of_takeRequest {want : SagReq → Bool} {serve : SagReq → State → State} {r : SagReq} {rs : List SagReq}
    (hp : s.sag.power = true) (h : takeRequest want SagReq.die [] s.hub.sag = some (r, rs)) :
    s.serveNext want serve = .next (serve r { s with hub := { s.hub with sag := rs } }) := by
  unfold State.serveNext
  rw [hp, h]
  rfl

/-- A block whose length is in range and that can be read is answered: body first, status word last (R470). -/
theorem serveBlock_answers {dom addr least status : Nat} {run : List Byte → State → SagAnswer × State} {h bs body : List Byte}
    (h₁ : s.memRead dom dom addr 64 = (.inl h, s₁)) (hlo : least ≤ natOfBytes ((h.drop 8).take 4)) (hhi : natOfBytes ((h.drop 8).take 4) ≤ 4096)
    (h₂ : s₁.memRead dom dom addr (natOfBytes ((h.drop 8).take 4)) = (.inl bs, s₂)) (hr : run bs s₂ = ({ status, body }, s₃)) :
    s.serveBlock dom addr least run = (s₃.memStore dom dom noDisp (addr + 64) body).memStore dom dom noDisp addr (bytesOfNat 8 status) := by
  have hlen : ¬ (decide (natOfBytes ((h.drop 8).take 4) < least) || decide (4096 < natOfBytes ((h.drop 8).take 4))) = true := by
    simp only [Bool.or_eq_true, decide_eq_true_eq]
    omega
  unfold State.serveBlock
  simp only [h₁, if_neg hlen, h₂, hr]

/-- A token that passes every check is accepted (R472, R473). The checks are made opaque first: Lean would evaluate the signature. -/
theorem verifyToken_accepts {obj : List Byte}
    (h : firstFailing (s.tokenChecks obj ++ [(5, !s.tenantActive), (6, !(bitAt 1 (s.fuse 1)))]) = none) :
    s.verifyToken obj = ({ status := 1 },
      ({ s with sag := { s.sag with token := some (BitVec.ofNat 256 (natOfBytes (Sm.sm3 obj))), wiped := false } } : State).logEvent 8 0x5007
        (natOfBytes (obj.take 8)) 0 0 true) := by
  rw [show @State.verifyToken = _ by delta State.verifyToken; rfl]
  generalize firstFailing _ = o at h ⊢
  subst h
  rfl

end

/-- Settles O21: the next request of a sort is taken, and what its block reads as decides the answer. -/
theorem saggarServes : Obligations.SaggarServes := by
  refine ⟨fun d dom n v rs s ⟨hp, ht⟩ => (exec_saggarMextServe s).trans (serveNext_of_takeRequest hp ht),
    fun d dom addr pe sl rs h bs body s₁ s₂ s₃ s ⟨hp, ht⟩ h₁ hlo hhi h₂ hr => ?attest,
    fun d dom addr pe sl rs h bs s₁ s₂ s ⟨hp, ht⟩ h₁ hlo hhi h₂ hc => ?verify⟩
  case attest =>
    refine (exec_saggarAttestServe s).trans ((serveNext_of_takeRequest hp ht).trans (congrArg Host.Outcome.next ?_))
    exact serveBlock_answers h₁ hlo hhi h₂ (by rw [hr])
  case verify =>
    refine (exec_saggarVerifyServe s).trans ((serveNext_of_takeRequest hp ht).trans (congrArg Host.Outcome.next ?_))
    dsimp only
    rw [if_pos rfl, serveBlock_answers h₁ hlo hhi h₂ ((if_pos rfl).trans (verifyToken_accepts hc))]

end Sys2Proof.Machine
end
